-- ==== Sys2Proof/Word.lean ====
section
/-! DEFINITION. The word types of the model and the exact numbers that the arrays, drains and engines compute with.
Everything that could need mending (bit fields, byte order, rounding) stands in files under Machine/. -/

namespace Sys2Proof

/-- One byte of memory, of a packet or of a frame. -/
abbrev Byte := BitVec 8
abbrev W16 := BitVec 16
abbrev W32 := BitVec 32
abbrev W64 := BitVec 64

/-- The value of an operand, a product or a partial sum before it is rounded (R96): a signed dyadic number
`(-1)^neg * mant * 2^exp` with the sign of zero kept, an infinity, or NaN. -/
inductive Num where
  | fin (neg : Bool) (mant : Nat) (exp : Int)
  | inf (neg : Bool)
  | nan
  deriving DecidableEq, Repr, Inhabited

end Sys2Proof
end

