-- ==== Sys2Proof/Syntax.lean ====
section
/-! DEFINITION. The commands: one constructor of `Instr` per row of spec/opcode_table.json, with the operands that the
chapters give the event. Every command begins with `dt`, the Tidemark ticks since the command before it (log 2).
Numbers of objects (rings, dies, ports) are `Fin`, so no command names an object that no module can have. -/

namespace Sys2Proof

/-- A trained link: a causeway port, or a seam link (R301). -/
inductive Link where
  | port (p : Fin 24)
  | seam (k : Fin 3)
  deriving DecidableEq, Repr

/-- The common header of a frame (R311) that its receiver uses. -/
structure FrameHdr where
  poison : Bool := false
  srcCtx : Nat := 0
  dstCtx : Nat := 0
  srcModule : W16 := 0
  dstModule : W16 := 0
  sendTide : Nat := 0
  deriving DecidableEq, Repr

/-- DATA frame (R315). -/
structure DataF where
  tag : W32 := 0
  entry : Nat := 0
  bwd : Bool := false
  spec : Bool := false
  last : Bool := false
  specStep : W32 := 0
  offset : Nat := 0
  payload : List Byte := []
  totalBytes : Nat := 0
  deriving DecidableEq, Repr

/-- CREDIT frame (R316). -/
structure CreditF where
  bwd : Bool := false
  entryMask : W64 := 0
  ckptUnits : Nat := 0
  deriving DecidableEq, Repr

/-- TIME frame (R317). -/
structure TimeF where
  echoSend : Nat := 0
  echoRx : Nat := 0
  hops : Nat := 0xFF
  aligned : Bool := false
  reference : Bool := false
  syncIn : Bool := false
  errorEst : Nat := 0xFF
  deriving DecidableEq, Repr

/-- REDUCE frame (R330): KIND 0 UP, 1 DOWN, 2 REFUSE. `flags` is the flag area, two bits a block. -/
structure ReduceF where
  collId : W32 := 0
  step : W32 := 0
  epoch : W16 := 0
  kind : Nat := 0
  status : Nat := 0
  firstBlock : Nat := 0
  nblocks : Nat := 0
  contrib : Nat := 0
  scaleCrc : W32 := 0
  payload : List Byte := []
  flags : List Byte := []
  deriving DecidableEq, Repr

/-- GATHER frame (R336): KIND 0 UP, 1 DOWN, 2 REFUSE, 3 SHARD_REQ, 4 SHARD_DATA. -/
structure GatherF where
  collId : W32 := 0
  kind : Nat := 0
  status : Nat := 0
  plane : Nat := 0
  epoch : W16 := 0
  rank : Nat := 0
  dstRank : Nat := 0
  layer : Nat := 0
  serial : W16 := 0
  shard : Nat := 0
  offset : Nat := 0
  payload : List Byte := []
  total : Nat := 0
  deriving DecidableEq, Repr

/-- PERMUTE frame (R346): KIND 0 SEGMENT, 1 REFUSE. -/
structure PermuteF where
  newEpoch : W16 := 0
  kind : Nat := 0
  status : Nat := 0
  plane : Nat := 0
  dstRank : Nat := 0
  fromRank : Nat := 0
  seg : Nat := 0
  offset : Nat := 0
  payload : List Byte := []
  total : Nat := 0
  serial : W16 := 0
  deriving DecidableEq, Repr

/-- VERDICT frame (R333): KIND 0 UP, 1 DOWN. -/
structure VerdictF where
  collId : W32 := 0
  step : W32 := 0
  down : Bool := false
  nonfinite : Bool := false
  abort : Bool := false
  permPending : Bool := false
  permReady : Bool := false
  newEpoch : W16 := 0
  contrib : Nat := 0
  deriving DecidableEq, Repr

/-- SHARD frame (R339): KIND 0 HOLD, 1 RELEASE, 2 ACK, 3 GONE. -/
structure ShardF where
  kind : Nat := 0
  layer : Nat := 0
  serial : W16 := 0
  dstRank : Nat := 0
  epoch : W16 := 0
  reqId : Nat := 0
  deriving DecidableEq, Repr

/-- BARRIER frame (R334): KIND 0 UP, 1 DOWN, 2 REFUSE. -/
structure BarrierF where
  collId : W32 := 0
  kind : Nat := 0
  status : Nat := 0
  contrib : Nat := 0
  latest : Nat := 0
  deriving DecidableEq, Repr

/-- CHECKPOINT frame (R318). -/
structure CheckpointF where
  offset : Nat := 0
  payload : List Byte := []
  deriving DecidableEq, Repr

/-- SEQ frame (R337): KIND 0 GRANT, 1 DATA. -/
structure SeqF where
  collId : W32 := 0
  kind : Nat := 0
  offset : Nat := 0
  payload : List Byte := []
  total : Nat := 0
  deriving DecidableEq, Repr

/-- The frame types of R312. -/
inductive FrameBody where
  | data (f : DataF)
  | credit (f : CreditF)
  | time (f : TimeF)
  | reduce (f : ReduceF)
  | gather (f : GatherF)
  | permute (f : PermuteF)
  | verdict (f : VerdictF)
  | shard (f : ShardF)
  | barrier (f : BarrierF)
  | checkpoint (f : CheckpointF)
  | seq (f : SeqF)
  deriving DecidableEq, Repr

/-- A frame as it stands in a port's queue. -/
structure Frame where
  hdr : FrameHdr
  body : FrameBody
  deriving DecidableEq, Repr

/-- A width word (R303). -/
structure WidthWord where
  trainId : W16 := 0
  attempt : Nat := 0
  reset : Bool := false
  confirm : Bool := false
  mask : Byte := 0
  spareOk : Bool := false
  agreed : Byte := 0
  role : Nat := 0
  module : W16 := 0
  port : Nat := 0
  deriving DecidableEq, Repr

/-- A received codeword (R309, R310): its 20 header bits as they were sent, the numbers (0 to 543) of its symbols that
arrived wrong, the CW_SEQ of the first codeword of a frame whose payload CRC fails in it (R311), and how many frames of
a reserved TYPE it completes (R312). -/
structure CodewordIn where
  header : BitVec 20 := 0
  errors : List Nat := []
  crcFirst : Option Nat := none
  reserved : Nat := 0
  deriving DecidableEq, Repr

/-- What occupies an edge site pair or site (R14), found at start-up step 3. -/
inductive SiteFill where
  | empty
  | farStack
  | ioDie
  deriving DecidableEq, Repr

/-- What a die reports at start-up step 6, and how its self-test went (01 identity entry). -/
structure DieReport where
  source : Nat
  stepping : Nat := 0
  minor : Nat := 0
  major : Nat := 0
  features : W64 := 0xFFFFFFFFFFFFFFFF
  healthy : Bool := true
  deriving DecidableEq, Repr

/-- One array's outcome of self-test (R123, R128): healthy outside its rows, and its failed physical rows. -/
structure ArrayTest where
  die : Fin 12
  phys : Fin 34
  healthy : Bool := true
  failedRows : List Nat := []
  deriving DecidableEq, Repr

/-- A near-tier bank replaced by self-test (R219). -/
structure BankTest where
  die : Fin 12
  channel : Fin 64
  bank : Fin 32
  deriving DecidableEq, Repr

/-- A lane of a far-tier command and address group: 0 to 14, 15 the parity lane, 16 the spare (10). -/
abbrev CaLane := Fin 17

/-- A lane of a far-tier data group: 0 to 31, 32 the parity lane, 33 the spare (10). -/
abbrev DataLane := Fin 34

/-- What the training of one far-tier channel finds (R221): the lanes of each group that fail the eye margin (step 2),
and whether the pattern of step 4 reads back. -/
structure ChannelTest where
  stack : Fin 16
  phys : Fin 17
  failCa : List CaLane := []
  failD0 : List DataLane := []
  failD1 : List DataLane := []
  pattern : Bool := true
  deriving DecidableEq, Repr

/-- The width-agreement exchange of one seam link at start-up (R23, R304, R305): MASK of each end, and how many attempts
failed before one reached agreement. -/
structure SeamIn where
  low : Byte := 0xFF
  high : Byte := 0xFF
  failed : Nat := 0
  deriving DecidableEq, Repr

/-- A firmware image or record in a slot of the secure flash, as start-up finds it (R412, R414). -/
structure ImageIn where
  header : List Byte := []
  body : List Byte := []
  signature : List Byte := []
  key : List Byte := []
  svn : Nat := 0
  raiseSvn : Bool := false
  deriving DecidableEq, Repr

/-- What start-up finds (R406, R441): the levels of PWR_EN and MOD_RESET_N after the edge, and how long they have been
held; straps, sites, dies, self-test, training, the exchange of each seam link, and the image of each slot of components 0
to 5 that no update has written: component, whether slot B, image. -/
structure StartInput where
  pwrEn : Bool := true
  modReset : Bool := false
  heldNs : Nat := 100000
  startMs : Nat := 0
  slotId : Fin 32 := 0
  flashOk : Bool := true
  images : List (Nat × Bool × ImageIn) := []
  sites : List SiteFill := []
  reports : List DieReport := []
  arrayTests : List ArrayTest := []
  bankTests : List BankTest := []
  channelTests : List ChannelTest := []
  bridgesOk : Bool := true
  seams : List SeamIn := []
  processes : List Nat := []
  millivolts : Nat := 0
  perstReleased : Bool := false
  refclkOk : Bool := true
  deriving DecidableEq, Repr

/-- A die whose temperature crosses a threshold (R405). -/
inductive ThermDie where
  | compute (n : Fin 12)
  | stack (f : Fin 16)
  | other (source : Nat)
  deriving DecidableEq, Repr

/-- What a self-test under DIE_REPAIR finds (R391). -/
structure RepairInput where
  arrays : List ArrayTest := []
  banks : List BankTest := []
  deriving DecidableEq, Repr

/-- What an MSI-X unmasking names: one vector, or the whole function (R462). -/
inductive MsixTarget where
  | vector (n : Fin 64)
  | function
  deriving DecidableEq, Repr

/-- A level at the glitch filter of PWR_EN or MOD_RESET_N: when it comes, and for how long it is held (R441). -/
structure PinLevel where
  dt : Nat
  heldNs : Nat
  deriving DecidableEq, Repr

/-- When a CONFIG_COMMIT takes effect, and the item at which its apply would fail (R57). -/
structure ApplyIn where
  dt : Nat
  faultAt : Option Nat
  deriving DecidableEq, Repr

/-- A feeder's step at an array, and whether the near-tier read that it needs is late (R135). -/
structure FeedStep where
  array : Fin 32
  late : Bool
  deriving DecidableEq, Repr

/-- The column of a hop, and whether a residue check of its cell fails (R125). -/
structure HopCell where
  col : Fin 64
  checkFails : Bool
  deriving DecidableEq, Repr

/-- A transfer in the replay buffer of a far-tier channel (R220). -/
structure FarTransfer where
  channel : Fin 16
  transfer : Nat
  deriving DecidableEq, Repr

/-- The unit whose recovery ends, and the 64-bit words of the accumulator memory whose ECC failed in the copy of an array
swap (R128). -/
structure Recovered where
  unit : Nat
  bad : List Nat
  deriving DecidableEq, Repr

/-- The commands, in the order of spec/opcode_table.json. -/
inductive Instr where
  -- power, reset, pins and time
  | startUp (dt : Nat) (inp : StartInput)
  | alignmentWaitTimeout (dt : Nat)
  | modResetAssert (level : PinLevel)
  | pwrEnFall (level : PinLevel)
  | inputFault (dt mv us : Nat)
  | perstAssert (dt : Nat)
  | perstRelease (dt : Nat)
  | functionLevelReset (dt : Nat)
  | refclkLoss (dt : Nat)
  | refclkReturn (dt : Nat)
  | tideSyncInEdge (dt tenths : Nat)
  | syncOutPulse (dt : Nat)
  | timeFrameSend (dt : Nat) (port : Fin 24)
  | timeFrameReceive (dt : Nat) (port : Fin 24) (hdr : FrameHdr) (f : TimeF)
  | temperatureThreshold (dt : Nat) (die : ThermDie) (celsius : Nat)
  | powerBudgetExchange (dt mv : Nat) (power request : List Nat)
  | idleVoltageTimer (dt : Nat) (die : Fin 12)
  -- BAR0 accesses
  | barAccess (dt : Nat) (write : Bool) (offset size : Nat) (value : W64)
  | registerWrite (dt offset size : Nat) (value : W64)
  | tideNowRead (dt : Nat) (wide : Bool)
  | lastCommitTideRead (dt : Nat) (wide : Bool)
  | idleSnapTideRead (dt : Nat) (ctx : Fin 16) (wide : Bool)
  | slotRead (dt : Nat) (ring : Fin 17) (slot : Fin 1024) (wide : Bool)
  | ringDoorbell (dt : Nat) (ring : Fin 17) (tail : W32)
  | ringEnable (dt : Nat) (ring : Fin 17) (value : W32)
  | ringReset (dt : Nat) (ring : Fin 17) (value : W32)
  | layerDefine (dt : Nat) (layer : Fin 4096) (value : W64)
  | layerUndefine (dt : Nat) (layer : Fin 4096) (value : W64)
  | skimRdWrite (dt : Nat) (value : W64)
  | channelStop (dt : Nat) (channel : Fin 192)
  | logSelectWrite (dt : Nat) (value : W64)
  | fatalClear (dt : Nat) (value : W64)
  | mismatchClear (dt : Nat) (unit : Fin 64)
  | msixUnmask (dt : Nat) (target : MsixTarget)
  -- rings
  | packetFetch (dt : Nat) (ring : Fin 17) (host : List (Nat × List Byte))
  | waitTimeoutExpiry (dt : Nat) (ring : Fin 17)
  | commandCompletion (dt : Nat) (ring : Fin 17) (seq : W16)
  | coalesceTimeout (dt : Nat) (ring : Fin 17)
  | nop (dt : Nat) (ring : Fin 17)
  | fence (dt : Nat) (ring : Fin 17)
  | waitTide (dt : Nat) (ring : Fin 17)
  | waitTideTarget (dt : Nat) (ring : Fin 17)
  | signal (dt : Nat) (ring : Fin 17)
  | waitSignal (dt : Nat) (ring : Fin 17)
  -- array commands and drains
  | tileMm (dt : Nat) (ring : Fin 17)
  | tileConv (dt : Nat) (ring : Fin 17)
  | tileDgrad (dt : Nat) (ring : Fin 17)
  | tileWgrad (dt : Nat) (ring : Fin 17)
  | drain (dt : Nat) (ring : Fin 17) (seq : W16)
  | spillFlush (dt : Nat) (ring : Fin 17) (seq : W16)
  -- stage commands
  | mbAdmit (dt : Nat) (ring : Fin 17)
  | admissionGrant (dt : Nat) (ctx : Fin 16)
  | admitTimeout (dt : Nat) (ctx : Fin 16)
  | sendAct (dt : Nat) (ring : Fin 17)
  | sendGrad (dt : Nat) (ring : Fin 17)
  | sendCreditTake (dt : Nat) (ring : Fin 17) (seq : W16)
  | sendTimeout (dt : Nat) (ring : Fin 17) (seq : W16)
  | mbRelease (dt : Nat) (ring : Fin 17)
  | releaseEffect (dt : Nat) (ctx : Fin 16) (mb : Fin 64)
  | reservationRelease (dt : Nat) (ctx : Fin 16) (mb : Fin 64)
  -- versions
  | versionPin (dt : Nat) (ring : Fin 17)
  | pinGrant (dt : Nat) (ring : Fin 17) (seq : W16)
  | pinTimeout (dt : Nat) (ring : Fin 17) (seq : W16)
  | versionUnpin (dt : Nat) (ring : Fin 17)
  | graceExpiry (dt : Nat) (layer : Fin 4096) (slot : Fin 8)
  | holdTimeout (dt : Nat) (ring : Fin 17) (seq : W16)
  | holdRenewal (dt : Nat) (layer : Fin 4096) (slot : Fin 8)
  | shardGather (dt : Nat) (ring : Fin 17)
  -- update engine
  | prefetchState (dt : Nat) (ring : Fin 17) (seq : W16)
  | prefetchTimeout (dt : Nat) (ring : Fin 17) (seq : W16)
  | updateLayer (dt : Nat) (ring : Fin 17)
  | updatePartRun (dt : Nat) (ring : Fin 17) (seq : W16)
  | updateTimeout (dt : Nat) (ring : Fin 17) (seq : W16)
  | fma (dt : Nat) (die : Fin 12)
  | mul (dt : Nat) (die : Fin 12)
  | add (dt : Nat) (die : Fin 12)
  | sub (dt : Nat) (die : Fin 12)
  | rcp (dt : Nat) (die : Fin 12)
  | sqrt (dt : Nat) (die : Fin 12)
  | rsqrt (dt : Nat) (die : Fin 12)
  | min (dt : Nat) (die : Fin 12)
  | max (dt : Nat) (die : Fin 12)
  | clamp (dt : Nat) (die : Fin 12)
  | sel (dt : Nat) (die : Fin 12)
  | nacc (dt : Nat) (die : Fin 12)
  | sts (dt : Nat) (die : Fin 12)
  | stw (dt : Nat) (die : Fin 12)
  | nextpass (dt : Nat) (die : Fin 12)
  | endElem (dt : Nat) (die : Fin 12)
  -- step commit and skim stream
  | stepVerdict (dt : Nat)
  | verdictTimeout (dt : Nat)
  | stepCommit (dt : Nat)
  | stepAbort (dt : Nat)
  | lossScaleSet (dt : Nat)
  | skimRecordEmit (dt : Nat)
  -- collectives
  | collReduce (dt : Nat) (ring : Fin 17)
  | collGather (dt : Nat) (ring : Fin 17)
  | collPermute (dt : Nat)
  | permuteWorkSend (dt : Nat) (seg : Nat)
  | permuteTimeout (dt : Nat)
  | collBarrier (dt : Nat) (ring : Fin 17)
  | contextLeaseExpiry (dt : Nat) (tile : Fin 6) (collId : W32)
  -- DMA and check units
  | dmaStart (dt : Nat) (ring : Fin 17) (host : List Byte)
  | channelLeaseExpiry (dt : Nat) (channel : Fin 192)
  | move (dt : Nat) (channel : Fin 192) (host : List Byte)
  | loop (dt : Nat) (channel : Fin 192)
  | wait (dt : Nat) (channel : Fin 192)
  | dmaSignal (dt : Nat) (channel : Fin 192)
  | check (dt : Nat) (channel : Fin 192)
  | dmaEnd (dt : Nat) (channel : Fin 192)
  | busError (dt : Nat) (complex : Fin 6) (addr : W64)
  | checkArm (dt : Nat) (ring : Fin 17)
  | checkArmTimeout (dt : Nat) (unit : Fin 64)
  | replicaSweep (dt : Nat)
  | sweepTimeout (dt : Nat)
  -- configuration, service, log
  | configStage (dt : Nat) (host : Option (List Byte))
  | configCommit (a : ApplyIn)
  | configApply (dt : Nat) (faultAt : Option Nat)
  | configCommitTimeout (dt : Nat)
  | dieDrain (dt : Nat)
  | drainTimeout (dt : Nat) (die : Fin 12)
  | dieRepair (dt : Nat) (inp : RepairInput)
  | dieReturn (dt : Nat)
  | skimStart (dt : Nat)
  | skimStop (dt : Nat)
  | takeoverLoad (dt : Nat)
  | query (dt : Nat) (ring : Fin 17)
  | logRead (dt : Nat) (ring : Fin 17)
  | release (dt : Nat) (ring : Fin 17)
  -- array events
  | broadcast (dt : Nat) (die : Fin 12) (f : FeedStep)
  | waveHop (dt : Nat) (die : Fin 12) (array : Fin 32) (row : Fin 64) (cell : HopCell)
  | edgeWordWrite (dt : Nat) (die : Fin 12) (f : FeedStep)
  | waveAccumulate (dt : Nat) (die : Fin 12) (array : Fin 32)
  | spillWriteback (dt : Nat) (die : Fin 12) (array : Fin 32)
  -- memory and faults
  | patrolScrub (dt : Nat) (addr : W64) (bad : Nat) (passDone : Bool)
  | nearBankFault (dt : Nat) (die : Fin 12) (channel : Fin 64) (bank : Fin 32) (second : Bool)
  | bankCopyDone (dt : Nat) (die : Fin 12) (channel : Fin 64)
  | farParityFailure (dt : Nat) (stack : Fin 16) (t : FarTransfer)
  | farChannelFault (dt : Nat) (stack channel : Fin 16) (failingCa : List CaLane)
      (failingD0 failingD1 : List DataLane)
  | cellRowFault (dt : Nat) (die : Fin 12) (array : Fin 32) (row : Fin 64)
  | arrayFault (dt : Nat) (die : Fin 12) (array : Fin 32)
  | laneFault (dt : Nat) (port : Fin 24) (lane : Fin 8)
  | seamSublinkFault (dt : Nat) (seam : Fin 3) (sub : Fin 8)
  | dmaComplexFault (dt : Nat) (complex : Fin 6)
  | coreFault (dt : Nat) (core : Fin 6)
  | switchTileFault (dt : Nat) (tile : Fin 6) (selfTestOk : Bool)
  | recoveryDone (dt : Nat) (cls : Nat) (r : Recovered)
  | holdLeaseExpiry (dt : Nat) (layer : Fin 4096) (slot : Fin 8) (holder : W16)
  | bankLeaseExpiry (dt : Nat) (die : Fin 12)
  | idleSample (dt : Nat)
  -- links
  | portDetect (dt : Nat) (port : Fin 24) (present : Bool)
  | trainingBlockReceive (dt : Nat) (link : Link) (fields : List Byte) (crc : W32)
  | widthAttemptTimeout (dt : Nat) (link : Link)
  | roleWaitRetry (dt : Nat) (port : Fin 24)
  | codewordReceive (dt : Nat) (link : Link) (cw : CodewordIn)
  | dataFrame (dt : Nat) (port : Fin 24) (hdr : FrameHdr) (f : DataF)
  | creditFrame (dt : Nat) (port : Fin 24) (hdr : FrameHdr) (f : CreditF)
  | reduceFrame (dt : Nat) (port : Fin 24) (hdr : FrameHdr) (f : ReduceF)
  | gatherFrame (dt : Nat) (port : Fin 24) (hdr : FrameHdr) (f : GatherF)
  | permuteFrame (dt : Nat) (port : Fin 24) (hdr : FrameHdr) (f : PermuteF)
  | verdictFrame (dt : Nat) (port : Fin 24) (hdr : FrameHdr) (f : VerdictF)
  | shardFrame (dt : Nat) (port : Fin 24) (hdr : FrameHdr) (f : ShardF)
  | barrierFrame (dt : Nat) (port : Fin 24) (hdr : FrameHdr) (f : BarrierF)
  | checkpointFrame (dt : Nat) (port : Fin 24) (hdr : FrameHdr) (f : CheckpointF)
  | seqFrame (dt : Nat) (port : Fin 24) (hdr : FrameHdr) (f : SeqF)
  -- management
  | setdasa (dt : Nat) (static dynamic : Nat)
  | entdaa (dt : Nat) (dynamic : Nat)
  | setEndpointId (dt : Nat) (eid : Byte)
  | getVersion (dt : Nat)
  | getCapabilities (dt : Nat)
  | negotiateAlgorithms (dt : Nat) (hashOffered asymOffered : Bool)
  | getDigests (dt : Nat)
  | getCertificate (dt : Nat) (slot offset length : Nat)
  | challenge (dt : Nat) (slot : Nat) (nonce : List Byte)
  | getMeasurements (dt : Nat) (slot index : Nat) (sign : Bool) (nonce : List Byte)
  | spdmOtherRequest (dt : Nat) (code : Byte)
  | getSensorReading (dt : Nat) (sensor : Nat)
  | queryDeviceIdentifiers (dt : Nat)
  | getFirmwareParameters (dt : Nat)
  | requestUpdate (dt : Nat) (maxTransfer : Nat)
  | passComponentTable (dt : Nat) (component : Nat)
  | updateComponent (dt : Nat) (component size : Nat)
  | requestFirmwareData (dt offset : Nat) (data : List Byte)
  | transferComplete (dt : Nat) (ok : Bool)
  | verifyComplete (dt : Nat) (img : ImageIn)
  | applyComplete (dt : Nat)
  | activateFirmware (dt : Nat) (selfContained : Bool)
  | coreRestartDone (dt : Nat) (core : Fin 6)
  | getStatus (dt : Nat)
  | cancelUpdateComponent (dt : Nat)
  | cancelUpdate (dt : Nat)
  | oemLogRead (dt : Nat) (first count minSeverity : Nat)
  | oemRegisterRead (dt : Nat) (offset count : Nat)
  | inputBelow30v (dt : Nat)
  | setEventReceiver (dt : Nat) (eid : Byte)
  | calibrationDone (dt : Nat) (link : Link) (margins : List Nat)
  | symbolLock (dt : Nat) (link : Link)
  deriving DecidableEq, Repr

end Sys2Proof
end

