-- ==== Sys2Proof/Decode.lean ====
section
/-! DEFINITION. The words of the table. The spec's commands are register accesses, pin events, frames and packets; its
table gives no row any bits, so no word spells a command. The packet encoding of R67 is read by PACKET_FETCH
(Machine/Rings.lean). -/

namespace Sys2Proof

/-- The command that a word spells by the table's bits: none, as the table has no bits. -/
def decodeTableWord (_nbits _w : Nat) : Option Instr := none

end Sys2Proof
end

