-- ==== Sys2Proof/Config.lean ====
section
/-! DEFINITION. What an implementation or a standard outside the spec fixes, and the free values: constants without a
body, of which no proof can know more than their type. -/

namespace Sys2Proof.Config

/-- FREE VALUE (log 3): the n-th value that the spec leaves open (a random number of R103, an undefined byte). -/
opaque freeValue : Nat → W64

/-- FREE VALUE (log 20): where within the 2 ulp of R174 the unit's function lands, by function and argument. -/
opaque functionChoice : Nat → W32 → Nat

/-- FREE VALUE (log 5): what a 'set at start-up' measurement reads (eye margin, process factor, stepping). -/
opaque measured : Nat → Nat → Nat

/-- FREE VALUE (log 32): the eye margin, in mV, below which calibration fails a lane (R301). -/
opaque eyeMargin : Nat

/-- FREE VALUE (log 66): the 30 parity symbols of RS(544,514) over 10-bit symbols, from the 514 message symbols: the spec
names no field polynomial and no generator (R309). -/
opaque rsParity : List Nat → List Nat

/-- FREE VALUE (log 33): ERROR_EST, from the offset measured and the ERROR_EST of its source (R41). -/
opaque alignError : Int → Nat → Nat

/-- FREE VALUE (log 33): ERROR_EST after a loss of REFCLK, from the number of losses and the estimate before (R42, R445). -/
opaque oscillatorError : Nat → Nat → Nat

/-- Measurement 1, the boot ROM's digest (R422, log 21). -/
opaque bootRomDigest : List Byte

/-- SHA3-512 of FIPS 202 (R412, R413): a standard outside the spec, uninterpreted (log 21). -/
opaque sha3 : List Byte → List Byte

/-- ML-DSA-87 verification of FIPS 204 (R412, R415, R420): key, context, message, signature; uninterpreted (log 21). -/
opaque mlDsaVerify : List Byte → List Byte → List Byte → List Byte → Bool

/-- Whether the boot ROM holds the digest of this firmware public key (R412); uninterpreted (log 21). -/
opaque romKeyKnown : List Byte → Bool

/-- ML-DSA-87 signing by the key of a certificate slot: the identity key, or the alias key of a start-up, of which only
the random number that it was made from is known (R421); uninterpreted (log 21). -/
opaque mlDsaSign : Nat → W64 → List Byte → List Byte

/-- The certificate chain of a slot of R421, given its key and the measurements it carries; uninterpreted (log 21). -/
opaque certChain : Nat → W64 → List (List Byte) → List Byte

/-- Set at manufacture (R459, R421; log 7). -/
opaque boardRev : W16
opaque moduleSerial : W64
opaque spdmRegistry : Byte
opaque spdmVendor : W32

/-- The PLDM device identifiers of R425 (a DMTF record outside the spec; log 22). -/
opaque deviceIdentifiers : List Byte

end Sys2Proof.Config
end

