-- ==== Sys2Proof/Machine/State.lean ====
section
/-! DEFINITION. The state of the module as plain data: everything the spec gives it (INVENTORY.md, State), the queue of
waiting commands, and the state right after reset. Tables of many like objects are sparse lists of (number, value); an
object that is not listed is at its reset value. -/

namespace Sys2Proof.Machine

/-- A sparse table: numbers strictly rising. What an unlisted number holds is given where the table is read. -/
abbrev Tab (α : Type) := List (Nat × α)

/-- The status codes of R85. -/
inductive Status where
  | ok | pending | deferred | busy | badParam | versionGone | noSpace | nonfinite | aborted | timeout | faulted
  | epochStale | notSupported
  deriving DecidableEq, Repr

/-- A command reference: ring, and the number of its fetch (a ring reset can put one SEQ in flight twice, R66). -/
structure CmdRef where
  ring : Nat
  id : Nat
  deriving DecidableEq, Repr

/-! ### Configuration in force (R416) -/

/-- PORT item (R416). `spare` is q, or none. -/
structure PortItem where
  role : Nat := 0
  spare : Option Nat := none
  peerModule : W16 := 0xFFFF
  peerPort : Nat := 0
  deriving DecidableEq, Repr

/-- STAGE_CONTEXT item (R251, R416). -/
structure CtxItem where
  dieMask : BitVec 12 := 0
  prevKind : Nat := 0
  nextKind : Nat := 0
  prevPort : Nat := 0
  nextPort : Nat := 0
  prevModule : W16 := 0
  nextModule : W16 := 0
  prevCtx : Nat := 0
  nextCtx : Nat := 0
  fwdLand : Nat := 0
  fwdEntryBytes : Nat := 0
  fwdDepth : Nat := 0
  bwdLand : Nat := 0
  bwdEntryBytes : Nat := 0
  bwdDepth : Nat := 0
  nextEntryBytes : Nat := 0
  nextDepth : Nat := 0
  prevEntryBytes : Nat := 0
  prevDepth : Nat := 0
  deriving DecidableEq, Repr

/-- The configuration: the items of R416. `population` is 0 -M, 1 -B, 2 -N. The defaults are those of R417. -/
structure Conf where
  population : Nat := 1
  address : W16 := 0
  stageSigned : Bool := false
  raiseSvn : Bool := false
  ports : Tab PortItem := []
  ctxs : Tab CtxItem := []
  sourceSelect : Nat := 0
  isReference : Bool := false
  syncOutEn : Bool := false
  refPort : Nat := 0x1F
  syncInDelay : Nat := 0
  moduleLimitW : Nat := 3000
  coreMaxMv : Nat := 780
  vectorEnable : W64 := 0xFFFFFFFFFFFFFFFF
  idleMv : Nat := 780
  idleAfterUs : Nat := 0
  deriving DecidableEq, Repr

/-! ### Power, start-up and trust -/

/-- Phases of R438. -/
inductive Phase where
  | off | starting | serving | stopped
  deriving DecidableEq, Repr

/-- A component's pair of images in the secure flash (R412). -/
structure FwState where
  imageA : Option ImageIn := none
  imageB : Option ImageIn := none
  activeB : Bool := false
  pending : Bool := false
  fallback : Bool := false
  svn : Nat := 0
  minSvn : Nat := 0
  deriving DecidableEq, Repr

/-- Power, pins, start-up progress and the secure flash (18, 19). -/
structure Power where
  phase : Phase := .off
  pwrEn : Bool := false
  modReset : Bool := true
  perstReleased : Bool := false
  linkUp : Bool := false
  pwrGood : Bool := false
  faultLow : Bool := false
  thermLow : Bool := false
  /-- TIDE_SYNC_OUT: Tidemark at which the latest pulse ends (R446). -/
  syncOutUntil : Nat := 0
  syncOutPulses : Nat := 0
  diesPowered : Bool := false
  slotId : Nat := 0
  refclkOk : Bool := false
  refclkLosses : Nat := 0
  syncInEdges : W32 := 0
  step : Nat := 0
  ready : Bool := false
  stopped : Bool := false
  stopCause : Nat := 0
  startMs : Nat := 0
  startTide : Nat := 0
  vin : Nat := 0
  iin : Nat := 0
  pin : Nat := 0
  inputFault : Bool := false
  limit : Nat := 0
  inputCap : Nat := 0
  popMax : Nat := 0
  voltLowered : BitVec 12 := 0
  /-- Dies that pause broadcasts for their budget (R404), and for their temperature (R405). -/
  paused : BitVec 12 := 0
  thermPaused : BitVec 12 := 0
  thermAlert : Bool := false
  thermalTrip : Bool := false
  throttleEvents : Nat := 0
  otherTemps : Tab Nat := []
  /-- Budgets, in W, of the dies that are no compute dies, by source number (R403). -/
  budgets : Tab Nat := []
  fw : Tab FwState := []
  configRecord : List Byte := []
  ownerKey : List Byte := []
  ownerSerial : Nat := 0
  releasePending : Bool := false
  lastRecordSerial : Nat := 0
  /-- The measurement log since start-up, oldest first: index and digest (R413, R422). -/
  measurements : List (Nat × List Byte) := []
  /-- What the alias key of this start-up was made from (R421). -/
  aliasKey : W64 := 0
  deriving DecidableEq, Repr

/-- Facts of the package (01): the population derived (0 -M, 1 -B, 2 -N, 3 none), identities, seams. -/
structure Seam where
  mask : Byte := 0
  width : Nat := 0
  fallbacks : Nat := 0
  lastChange : Nat := 0
  deriving DecidableEq, Repr

structure Package where
  known : Bool := false
  suffix : Nat := 1
  featureFloor : W64 := 0x00000000FFFFFFFF
  reports : Tab DieReport := []
  mapFilled : Bool := false
  seams : Tab Seam := []
  deriving DecidableEq, Repr

/-! ### Time and commit state -/

structure Time where
  latchHi : W32 := 0
  aligned : Bool := false
  source : Nat := 0
  errorEst : Nat := 0xFF
  alignLosses : Nat := 0
  lastAlignChange : Nat := 0
  slew : Int := 0
  slewPhase : Nat := 0
  hops : Nat := 0xFF
  lateLaunches : Nat := 0
  deriving DecidableEq, Repr

/-- COMMIT_STATE (R49), with the latched snapshot of R455. -/
structure Commit where
  lastCommitTide : Nat := 0
  stepNumber : W32 := 0
  lastStepClose : Nat := 0
  layoutEpoch : W16 := 0
  configEpoch : W32 := 1
  lastConfigTide : Nat := 0
  latch : List W64 := []
  /-- Outcomes of the last 256 step closes, newest first: step and whether it committed (R263). -/
  outcomes : List (W32 × Bool) := []
  /-- Steps whose verdict has arrived, newest first, with the Tidemark of its arrival (R288). -/
  verdicts : List (W32 × Nat) := []
  deriving DecidableEq, Repr

/-- Loss scale and verdict state (R283 to R287). -/
structure StepSt where
  exp : Int := 16
  clean : W32 := 0
  interval : W32 := 2000
  pendValid : Bool := false
  pendExp : Option Int := none
  pendInterval : Option W32 := none
  pendReset : Bool := false
  localNonfinite : Bool := false
  localAbort : Bool := false
  started : Bool := false
  arrived : Bool := false
  jobNonfinite : Bool := false
  jobAbort : Bool := false
  permReady : Bool := false
  permEpoch : W16 := 0
  collId : W32 := 0
  deadline : Option Nat := none
  sampled : Option (Bool × Bool × Bool × Bool) := none
  ups : Tab VerdictF := []
  /-- Tidemark at which the latest UPDATE_LAYER completed (R43, R287). -/
  lastUpdate : Nat := 0
  deriving DecidableEq, Repr

/-- What one part leaves to be emitted into the skim stream (R291). -/
structure SkimPart where
  layer : Nat
  serial : W16
  part : Nat
  nstate : Nat
  elemFirst : Nat
  elemCount : Nat
  newSlot : Nat
  oldSlot : Nat
  die : Nat
  deriving DecidableEq, Repr

inductive SkimRec where
  | step (base : Bool) (committed prev : W32) (exp : Int) (clean interval : W32) (parts : Nat)
  | part (base : Bool) (p : SkimPart)
  | finish (committed : W32)
  deriving DecidableEq, Repr

structure Skim where
  running : Bool := false
  toPort : Bool := false
  port : Nat := 0
  basePending : Bool := false
  ringAddr : Nat := 0
  ringBytes : Nat := 0
  wr : W64 := 0
  rd : W64 := 0
  last : W32 := 0
  prevCommit : W32 := 0xFFFFFFFF
  stepStart : W64 := 0
  records : List SkimRec := []
  /-- Bytes of the record in hand that are still to be emitted, and for each whether it was read as poisoned (R314). -/
  out : List Byte := []
  outPoison : List Bool := []
  /-- SKIM_STOP commands that wait for the records they found (R292). -/
  stopCmds : List CmdRef := []
  deriving DecidableEq, Repr

/-! ### Rings, commands and result slots -/

/-- Progress of an array command (R144, R147, R194): its gang, how far each list is issued, and what has come out. -/
structure ArrayJob where
  op : Nat
  die : Nat
  lead : Nat
  gang : List Nat
  outs : List Nat
  chain : Nat
  passes : Nat
  m : Nat
  slot : Nat
  mode : Nat
  spill : Nat
  tagBase : List (Option Nat) := []
  edgePos : List Nat := []
  bcastPos : Nat := 0
  accPos : List Nat := []
  spillsLeft : Nat := 0
  edgeWait : Nat := 0
  feedWait : Nat := 0
  /-- The last period waited for a late near-tier read (R135, R266). -/
  feedLate : Bool := false
  zeroVectors : Nat := 0
  poisonAddr : Nat := 0
  poisonKind : Nat := 0
  stopped : Bool := false
  /-- Edge words of a stash granule row that has been read and not yet issued whole, by gang member (R193). -/
  held : Tab (List (List (List Num))) := []
  deriving DecidableEq, Repr

/-- What a started command waits for. -/
inductive WaitFor where
  | fence | signals | tide (target : Option Nat) | admission | pins | holds | credit | peer | drainOrder | slotOrder
  | prefetchClose | update | release | verdict | close | coll | owners | limitedArm | sweep | quiescent | dieDrain
  | skimEnd | repair | permute | channel
  deriving DecidableEq, Repr

/-- How far a command has come. -/
inductive Work where
  | unstarted
  | waiting (w : WaitFor)
  | array (j : ArrayJob)
  | running
  | finished (st : Status) (detail : Nat) (body : List Byte)
  deriving DecidableEq, Repr

/-- What R82 MODE 1 counts from: the ring's latest consumed packet, while it runs and once it is done. -/
inductive Prior where
  | none
  | running (id : Nat)
  | done (tide : Nat)
  deriving DecidableEq, Repr

/-- An accepted command: header and parameters of its packet (R67), and its progress. -/
structure Cmd where
  ring : Nat
  seq : W16
  opcode : Nat
  int : Bool := false
  afterPrior : Bool := false
  slot : Option Nat := none
  launch : Nat := 0
  waitMask : W64 := 0
  waitTimeout : Nat := 0
  waitConsume : Bool := false
  doneSignal : Option Nat := none
  cookie : W64 := 0
  params : List Byte := []
  fetchTide : Nat := 0
  fetchOrder : Nat := 0
  oldestSince : Option Nat := none
  start : Option Nat := none
  startOrder : Nat := 0
  late : Bool := false
  silent : Bool := false
  /-- Tidemark at which its work finished, for the order of stamps (R46). -/
  finishedAt : Nat := 0
  work : Work := .unstarted
  /-- The packet before it on its ring (R82). -/
  prior : Prior := .none
  /-- Tidemark at which the present wait began, and when it times out (R257, R260, R271 and others). -/
  deadline : Option Nat := none
  /-- Entry, credit, layer and request bookkeeping of the present wait, by chapter. -/
  aux : List Nat := []
  deriving DecidableEq, Repr

structure RejectRec where
  seq : W16 := 0
  status : Nat := 0
  opcode : Nat := 0
  slot : Nat := 0
  deriving DecidableEq, Repr

/-- A ring block (03) and the accepted commands, oldest first. -/
structure Ring where
  base : W64 := 0
  enable : Bool := false
  sizeLog2 : Nat := 6
  vector : Nat := 0
  wbEn : Bool := false
  tail : W32 := 0
  head : W32 := 0
  fetched : W32 := 0
  halted : Bool := false
  haltCause : Nat := 0
  core : Nat := 0
  nextSeq : W16 := 0
  rejects : Nat := 0
  reject : RejectRec := {}
  wbAddr : W64 := 0
  coalesceCount : Nat := 0
  coalesceTime : Nat := 0
  completed : W32 := 0
  lastTide : Nat := 0
  cmds : List Cmd := []
  prior : Prior := .none
  /-- Packets ever fetched since start-up, for wrap (R77). -/
  everFetched : Nat := 0
  pendingInts : Nat := 0
  oldestInt : Nat := 0
  blockedUntil : Nat := 0
  /-- The slot window's snapshot (R76): slot number and its words. -/
  window : Option (Nat × List W64) := none
  deriving DecidableEq, Repr

/-- A held result slot (R74). `marked` is STATE 3. -/
structure Slot where
  ready : Bool := false
  marked : Bool := false
  late : Bool := false
  status : Status := .pending
  seq : W16 := 0
  opcode : Nat := 0
  readCount : Nat := 0
  startTide : Nat := 0
  doneTide : Nat := 0
  configEpoch : W32 := 0
  stepNumber : W32 := 0
  cookie : W64 := 0
  detail : Nat := 0
  body : List Byte := []
  readyAt : Nat := 0
  deriving DecidableEq, Repr

/-- Host port state: slots by ring * 1024 + slot, signals, MSI-X, and what the module has sent (outputs). -/
structure HostPort where
  rings : Tab Ring := []
  slots : Tab Slot := []
  signals : W64 := 0
  signalTide : Tab Nat := []
  nextFetch : Nat := 0
  nextStart : Nat := 0
  functionMask : Bool := false
  /-- Mask bits of the MSI-X table, all set after a reset as the PCIe base specification has them (log 6), and the rest
  of the table: address and data of each vector. -/
  vectorMask : W64 := 0xFFFFFFFFFFFFFFFF
  msixAddr : Tab W64 := []
  msixData : Tab W32 := []
  pba : W64 := 0
  msixSent : List Nat := []
  readData : W64 := 0
  failedCores : List Nat := []
  standby : Option Nat := some 5
  rotation : Option (List Nat) := none
  restarting : Option Nat := none
  newImage : List Nat := []
  /-- BAR0 accesses held while their ring's core recovers (R464), oldest first: write, offset, size, value. -/
  held : List (Bool × Nat × Nat × W64) := []
  deriving DecidableEq, Repr

/-! ### Compute dies and arrays -/

structure NearChannel where
  spare0 : Nat := 0x3F
  spare1 : Nat := 0x3F
  copying : Option Nat := none
  /-- The copy goes to SPARE1 though SPARE0 is free too (R219). -/
  toSecond : Bool := false
  lastSpare : Nat := 0
  /-- Banks whose redirection pauses the channel, and since when (R219 step 3, R381). -/
  paused : Tab Nat := []
  deriving DecidableEq, Repr

/-- A staging entry of PREFETCH_STATE (R277). -/
structure StageEntry where
  layer : Nat
  elemFirst : Nat
  elemCount : Nat
  nstate : Nat
  landAddr : Nat
  stateSel : Bool
  order : Nat
  index : Nat
  deriving DecidableEq, Repr

/-- The update engine while it runs a part (R279 to R281): program, position and registers (32 lanes each). -/
structure Engine where
  cmd : CmdRef
  prog : List W32
  block : Bool
  nstate : Nat
  consts : List W32
  layer : Nat
  part : Nat
  slotIndex : Nat
  serial : W16
  pc : Nat := 0
  pass2 : Bool := false
  elem : Nat := 0
  regs : Tab (List W32) := []
  norms : List W32 := [0, 0, 0, 0]
  s12 : W32 := 0
  s13 : W32 := 0
  scale : Int := 0
  staged : Option Nat := none
  /-- Values waiting for the rest of their MX block (R282): element index, value, stochastic. -/
  mxBlock : List (Nat × W32 × Bool) := []
  nonfinite : Nat := 0
  saturations : Nat := 0
  poisons : Nat := 0
  /-- Poisoned words met so far: the unit, or the descriptor of a block whose poison flag is set (R269, R275). -/
  seen : List (Nat × Bool) := []
  flagged : Nat := 0
  poisonAddr : Nat := 0
  waited : Nat := 0
  /-- Far-tier banks that the part has written, by number, with the Tidemark of the latest write (R387). -/
  banks : Tab Nat := []
  /-- The latest idle sample found it waiting for its state's reads or writes (R276). -/
  late : Bool := false
  deriving DecidableEq, Repr

/-- One compute die's registers (20 Compute-die block). DIE_SERVICE: 0 in service, 1 draining, 2 drained, 3 repairing.
-/
structure Die where
  inService : Nat := 0
  sparesFree : Nat := 0
  outOfService : Bool := false
  arraySwaps : Nat := 0
  rowRepairs : Nat := 0
  rate : Nat := 0
  rateMin : Nat := 0xFFFF
  coreMv : Nat := 0
  tj : Nat := 0
  process : Nat := 0
  broadcastSteps : Nat := 0
  edgeWaitSteps : Nat := 0
  feedWaitSteps : Nat := 0
  zeroVectors : Nat := 0
  feedPoison : Nat := 0
  feedPoisonTide : Nat := 0
  spills : Nat := 0
  spillWaitSteps : Nat := 0
  slotWaitSteps : Nat := 0
  accPoison : Nat := 0
  accPoisonTide : Nat := 0
  drainRows : Nat := 0
  drainSaturations : Nat := 0
  drainNonfinite : Nat := 0
  drainNonfiniteTide : Nat := 0
  drainPoison : Nat := 0
  drainPoisonTide : Nat := 0
  nearEcc : Nat := 0
  nearUncorr : Nat := 0
  nearUncorrTide : Nat := 0
  nearPoisonSpace : Nat := 0
  nearPoisonOffset : Nat := 0
  channels : Tab NearChannel := []
  /-- Corrected errors of each near-tier bank within 24 hours: address and Tidemark (R219). -/
  bankErrors : Tab (List (Nat × Nat)) := []
  /-- Near-tier banks (channel × 32 + bank) with an uncorrectable error whose sparing has not been declared (R219). -/
  bankBad : List Nat := []
  updElements : Nat := 0
  updNonfinite : Nat := 0
  updNonfiniteTide : Nat := 0
  staging : List StageEntry := []
  stageOrder : Nat := 0
  budget : Nat := 0
  power : Nat := 0
  pausedSteps : Nat := 0
  service : Nat := 0
  repaired : Bool := false
  serviceTide : Nat := 0
  engine : Option Engine := none
  idleSince : Option Nat := none
  /-- The core voltage that an idle die returns to (R416). -/
  idleFrom : Option Nat := none
  freeArrays : List (Fin 34) := []
  /-- The latest self-test's findings, from which a spare array's repair map comes (R123, R128), and those of the
  DIE_REPAIR that runs (R391). -/
  tests : List ArrayTest := []
  repairIn : Option RepairInput := none
  deriving DecidableEq, Repr

/-- CUR or NXT of a cell (R110). -/
structure Weights where
  elems : List Num := []
  tag : Bool := false
  active : Bool := false
  valid : Bool := false
  /-- The command and pass whose edge wrote them (the model's own: R122 drops a command's weights with it, R126 reloads
  them). -/
  owner : Option CmdRef := none
  pass : Nat := 0
  deriving DecidableEq, Repr

/-- A product entry of a cell (R110). `chainIn`: the wave comes from the upper array; `chainOut`: it goes to the lower.
-/
structure Product where
  terms : List Num := []
  tag : Bool := false
  last : Bool := false
  chainIn : Bool := false
  chainOut : Bool := false
  deriving DecidableEq, Repr

/-- A partial-sum wave (R110, R113, R125); `val = none` is EMPTY. `toLower`: at a bottom stage, it goes to the lower
array (R117). -/
structure Wave where
  val : Option Num := none
  tag : Bool := false
  last : Bool := false
  checkFail : Bool := false
  toLower : Bool := false
  deriving DecidableEq, Repr

/-- A cell (R110); FULL of a product entry is its presence in `prods`. -/
structure Cell where
  /-- Operand latch: the elements of the latest broadcast. -/
  latch : List Num := []
  cur : Weights := {}
  curDone : Bool := false
  nxt : Weights := {}
  prods : List Product := []
  wave : Option Wave := none
  deriving DecidableEq, Repr

/-- A broadcast whose wave has not yet been accumulated: its command, pass and vector. -/
structure Flight where
  cmd : CmdRef
  pass : Nat
  vec : Nat
  fromUpper : Bool := false
  toLower : Bool := false
  deriving DecidableEq, Repr

/-- A row copied, or waiting to be copied, to the spill staging buffer (R159): the 64 values and which are poisoned. -/
structure SpillRow where
  row : Nat
  cols : Nat
  vals : List W32
  poisoned : List Nat
  deriving DecidableEq, Repr

/-- A slot's spill: which command and slot, its entry's address, whether it writes without reading, its rows. -/
structure SpillJob where
  cmd : CmdRef
  slot : Nat
  addr : Nat
  write : Bool
  want : Nat
  rows : List SpillRow := []
  deriving DecidableEq, Repr

/-- One logical array of one die (05, 07). -/
structure ArrayState where
  phys : Nat := 0
  spare64 : Option Nat := none
  spare65 : Option Nat := none
  usable64 : Bool := true
  usable65 : Bool := true
  lastRepair : Nat := 0
  passes : Nat := 0
  edgeQ : List CmdRef := []
  bcastQ : List CmdRef := []
  edgeFree : Nat := 0
  cells : Tab Cell := []
  bottom : Tab Wave := []
  flight : List Flight := []
  compare : Tab W32 := []
  part : W64 := 0
  armed : W64 := 0
  armedMin : W64 := 0
  base : Tab Nat := []
  staging : Option SpillJob := none
  spillQ : List SpillJob := []
  /-- Broadcasts still to be repeated after a repair (R126, R128). -/
  replay : List Flight := []
  /-- The bottom stage has refused a wave (R125), and the row of the cell that raised CHECK_FAIL first (R126). -/
  refusing : Bool := false
  failRow : Option Nat := none
  deriving DecidableEq, Repr

/-! ### Far stacks -/

structure FarChannel where
  phys : Nat := 0
  state : Nat := 0
  spareCa : Nat := 0x3F
  spareD0 : Nat := 0x3F
  spareD1 : Nat := 0x3F
  lastRetrain : Nat := 0
  retries : Nat := 0
  /-- Replay buffer (R220): transfers that are being retried, with their retries and the Tidemark of the latest. -/
  replay : List (Nat × Nat × Nat) := []
  /-- Tidemarks at which a transfer was first retried, within 1 ms; whether a transfer failed its fourth retry. -/
  recent : List Nat := []
  exhausted : Bool := false
  deriving DecidableEq, Repr

structure Stack where
  trained : Bool := false
  spareUse : Nat := 0x1F
  temp : Nat := 0
  scrubPass : Nat := 0
  corrected : Nat := 0
  uncorr : Nat := 0
  uncorrTide : Nat := 0
  poisonOffset : Nat := 0
  retries : Nat := 0
  exhausted : Nat := 0
  retrains : Nat := 0
  channels : Tab FarChannel := []
  refreshDoubled : Bool := false
  deriving DecidableEq, Repr

/-! ### Layers and versions -/

/-- Version slot states of R224. -/
inductive VState where
  | free | writing | provisional | current | old | receiving
  deriving DecidableEq, Repr

structure VSlot where
  serial : W16 := 0
  state : VState := .free
  grace : Bool := false
  graceEnd : Nat := 0
  pins : Nat := 0
  /-- Holds by other modules: holder, REQ_ID, expiry (R238, R387). -/
  holds : List (W16 × Nat × Nat) := []
  epoch : W16 := 0
  /-- This module's own REQ_ID toward the owners while it pins a sharded version, and the next renewal. -/
  reqId : Nat := 0
  renewAt : Nat := 0
  deriving DecidableEq, Repr

/-- One part of a layer's update in the open step (R268, R270). -/
structure PartRec where
  part : Nat
  die : Nat
  elemFirst : Nat
  elemCount : Nat
  nstate : Nat
  state0 : Nat
  state1 : Nat
  ok : Bool := false
  deriving DecidableEq, Repr

structure Layer where
  defined : Bool := false
  defError : Nat := 0
  workFmt : Nat := 1
  initSerial : W16 := 0
  shards : Nat := 1
  ownShard : Nat := 0
  workAddr : W64 := 0
  workBytes : Nat := 0
  workStride : Nat := 0
  scaleAddr : W64 := 0
  scaleBytes : Nat := 0
  scaleStride : Nat := 0
  newest : W16 := 0
  slots : Tab VSlot := []
  stateSel : Bool := false
  prov : Bool := false
  failed : Bool := false
  skimPending : Bool := false
  partsDone : Nat := 0
  lastCommit : W32 := 0
  partsTotal : Option Nat := none
  parts : List PartRec := []
  deriving DecidableEq, Repr

/-! ### Stage contexts -/

/-- Sluice entry states of R254. -/
inductive EState where
  | empty | arriving | ready | taken | freeing
  deriving DecidableEq, Repr

structure Entry where
  tag : W32 := 0
  state : EState := .empty
  spec : Bool := false
  specStep : W32 := 0
  poison : Bool := false
  mb : Nat := 0
  bytes : Nat := 0
  total : Nat := 0
  discard : Bool := false
  /-- The frame with LAST has arrived (R315). -/
  last : Bool := false
  order : Nat := 0
  returned : Bool := false
  /-- Step to which a FREEING entry's holder was tied (R263). -/
  freeStep : W32 := 0
  deriving DecidableEq, Repr

/-- Micro-batch states of R249. -/
inductive MState where
  | free | admitting | forward | backward | releasing
  deriving DecidableEq, Repr

structure Mb where
  state : MState := .free
  /-- Step to which inherited speculation is tied (R262). -/
  inherited : Option W32 := none
  bwdSpec : Option W32 := none
  dropped : Bool := false
  fwdEntry : Option Nat := none
  bwdEntry : Option Nat := none
  tag : W32 := 0
  /-- Pins: layer, serial and version slot (R231); a layout switch can leave two slots with one serial (R344). -/
  pins : List (Nat × W16 × Nat) := []
  baseUnits : Nat := 0
  sizeUnits : Nat := 0
  releasing : Bool := false
  deriving DecidableEq, Repr

structure Ctx where
  /-- The geometry exchange with the next and with the previous stage found a difference (R253). -/
  nextMismatch : Bool := false
  prevMismatch : Bool := false
  fwd : Tab Entry := []
  bwd : Tab Entry := []
  fwdDiscarded : Nat := 0
  bwdDiscarded : Nat := 0
  /-- Entries of the peers' sluices that this context holds credits for. -/
  nextCredits : W64 := 0
  prevCredits : W64 := 0
  arrivals : Nat := 0
  mbs : Tab Mb := []
  drops : Nat := 0
  admissions : W32 := 0
  dropSignal : Nat := 0
  dropSignalEn : Bool := false
  causes : Tab Nat := []
  poolBase : Nat := 0
  poolSize : Nat := 0
  peakUnits : Nat := 0
  idle : Tab Nat := []
  idleTotal : Nat := 0
  lastSample : Nat := 0
  idleLatch : List Nat := []
  deriving DecidableEq, Repr

/-! ### Links -/

/-- Training states of R301. -/
inductive LState where
  | off | detect | calibrate | align | width | roleWait | verify | active | down
  deriving DecidableEq, Repr

structure Lane where
  failed : Bool := false
  margin : Nat := 0
  corrected : Nat := 0
  /-- Corrected symbols within 1 ms (R307): Tidemark and number. -/
  recent : List (Nat × Nat) := []
  deriving DecidableEq, Repr

/-- Training state of a link: a port's, or a seam link's (R301 to R306). -/
structure Train where
  state : LState := .off
  trainId : W16 := 0
  attempt : Nat := 0
  reset : Bool := true
  attemptStart : Nat := 0
  peerOffer : Option WidthWord := none
  peerConfirm : Option WidthWord := none
  ownAgreed : Option Byte := none
  agreed : Byte := 0
  sparePos : Option Nat := none
  spareFailed : Bool := false
  lanes : Tab Lane := []
  fallback : Bool := false
  fallbacks : Nat := 0
  roleMismatch : Bool := false
  peerModule : W16 := 0xFFFF
  peerPort : Nat := 0
  lastChange : Nat := 0
  verifyLeft : Nat := 64
  verifyCorrected : Tab Nat := []
  /-- Tidemark of the latest look for the peer's presence (R301). -/
  lastLook : Option Nat := none
  deriving DecidableEq, Repr

/-- A causeway port (14). -/
structure Port where
  train : Train := {}
  fecCorrected : Nat := 0
  fecUncorr : Nat := 0
  fecTide : Nat := 0
  replays : Nat := 0
  /-- Codewords that have failed and have not come good: how many replays in a row each one has failed (R307). -/
  failing : Tab Nat := []
  laneFaults : Nat := 0
  retrains : Nat := 0
  delay : Nat := 0
  peerHops : Nat := 0xFF
  peerAligned : Bool := false
  lastRx : Nat := 0
  lastTime : Option (Nat × Nat) := none
  framesTx : Nat := 0
  framesRx : Nat := 0
  discarded : Nat := 0
  poisoned : Nat := 0
  /-- Codeword numbers: next to send, oldest unacknowledged, last good received; NAK owed (R310). -/
  txSeq : Nat := 0
  unacked : Nat := 0
  rxSeq : Nat := 511
  nakOwed : Bool := false
  queue : List Frame := []
  sent : List Frame := []
  lastSend : Nat := 0
  /-- Checkpoint units granted by the peer and not yet used (R318). -/
  ckptUnits : Nat := 0
  deriving DecidableEq, Repr

/-! ### Collectives -/

structure Tree where
  parent : Nat := 0x1F
  children : BitVec 24 := 0
  valid : Bool := false
  deriving DecidableEq, Repr

structure ShardRoute where
  module : W16 := 0xFFFF
  port : Nat := 0x1F
  valid : Bool := false
  deriving DecidableEq, Repr

/-- One block of a reduction at a node (R327): FP32 sums, flags, and who has contributed. -/
structure RBlock where
  sums : List W32 := []
  nonfinite : Bool := false
  poison : Bool := false
  local_ : Bool := false
  from_ : List Nat := []
  contrib : Nat := 0
  deriving DecidableEq, Repr

/-- A collective context of a switch tile (R319): kind 0 reduction, 1 gather, 2 barrier. -/
structure CollCtx where
  kind : Nat := 0
  tile : Nat := 0
  collId : W32 := 0
  step : W32 := 0
  epoch : W16 := 0
  cmd : Option CmdRef := none
  lease : Nat := 0
  blocks : Tab RBlock := []
  /-- Frames that wait for the local command (R332), with their port. -/
  waiting : List (Nat × ReduceF) := []
  waitingG : List (Nat × Bool × GatherF) := []
  landed : Nat := 0
  satQuant : Nat := 0
  satRequant : Nat := 0
  flagged : Nat := 0
  rootContrib : Nat := 0
  bytesLanded : Nat := 0
  /-- Next block to requantise (R328), and a refusal that waits for the local command (R331). -/
  up : Nat := 0
  refused : Option Nat := none
  /-- The scale table in force (R326), and a barrier's own progress (R334): children heard, sum, latest, sent up. -/
  table : List Byte := []
  heard : List Nat := []
  contrib : Nat := 0
  latest : Nat := 0
  sentUp : Bool := false
  /-- The local command has recorded the poison that it consumes (R217). -/
  poisonLogged : Bool := false
  /-- Entries of the scale table that were read as poisoned (R217). -/
  tablePoison : List Nat := []
  deriving DecidableEq, Repr

structure Tile where
  inService : Bool := false
  /-- Tidemark at which a context of a tile with 16 open ones closed (R43, R69). -/
  freeSince : Nat := 0
  lastFault : Nat := 0
  saturations : Nat := 0
  flagged : Nat := 0
  poisoned : Nat := 0
  stale : Nat := 0
  busy : Nat := 0
  discard : Nat := 0
  blocks : Nat := 0
  deriving DecidableEq, Repr

/-- A segment of a pending COLL_PERMUTE (R341): work layer or raw range, and how far it is sent and received. -/
structure Segment where
  work : Bool := false
  sendLayer : Nat := 0
  sendAddr : Nat := 0
  sendBytes : Nat := 0
  recvLayer : Nat := 0
  recvAddr : Nat := 0
  recvBytes : Nat := 0
  recvWork : Bool := false
  sent : Bool := false
  sentSerial : W16 := 0
  got : Nat := 0
  gotScale : Nat := 0
  received : Bool := false
  slot : Option Nat := none
  deriving DecidableEq, Repr

structure Permute where
  cmd : CmdRef
  newEpoch : W16
  perm : List Nat
  segs : List Segment
  deadline : Nat
  contributed : Bool := false
  /-- Frames of WORK segments that wait for a FREE slot, with their POISON (R342). -/
  held : List (PermuteF × Bool) := []
  deriving DecidableEq, Repr

/-- A ring shift (R337) or a gather of shards (R240) in progress on behalf of a command. -/
structure Shift where
  cmd : Option CmdRef := none
  collId : W32 := 0
  /-- Ports on which a GRANT of its COLL_ID has arrived (R337). -/
  grants : List Nat := []
  sent : Bool := false
  got : Nat := 0
  total : Nat := 0
  deriving DecidableEq, Repr

structure ShardGet where
  cmd : CmdRef
  collId : W32
  layer : Nat
  serial : W16
  /-- The local version slot that SERIAL names (R240). -/
  slot : Nat
  first : Nat
  count : Nat
  /-- Bytes received of each shard: elements and scale plane. -/
  got : Tab (Nat × Nat) := []
  deriving DecidableEq, Repr

/-- A SHARD_REQ that waits for the slot to become PROVISIONAL (R240). -/
structure ShardWait where
  port : Nat
  hdr : FrameHdr
  req : GatherF
  deriving DecidableEq, Repr

/-- A pin request's holds (R238): request id, layer, serial, ranks not yet acknowledged. -/
structure HoldReq where
  cmd : CmdRef
  reqId : Nat
  layer : Nat
  serial : W16
  waiting : List Nat
  acked : List Nat
  sentAt : Nat
  deriving DecidableEq, Repr

structure Coll where
  trees : Tab Tree := []
  ownRank : Nat := 0
  nRanks : Nat := 1
  shardMap : Tab ShardRoute := []
  tiles : Tab Tile := []
  ctxs : List CollCtx := []
  permute : Option Permute := none
  shifts : List Shift := []
  gets : List ShardGet := []
  waits : List ShardWait := []
  holdReqs : List HoldReq := []
  nextReq : Nat := 1
  /-- PERMUTE frames that came before the local COLL_PERMUTE started, with their POISON. -/
  permHeld : List (PermuteF × Bool) := []
  deriving DecidableEq, Repr

/-! ### DMA and check units -/

/-- A resume point (R360), with the running values that RESUME continues from (R361). -/
structure Resume where
  pc : Nat
  byte : Nat
  offS : W64
  offD : W64
  iters : Tab Nat
  crc : W32
  moved : Nat
  poisonMoved : Nat
  mismatches : Nat
  deriving DecidableEq, Repr

structure Channel where
  state : Nat := 0
  resume : Option Resume := none
  stopCause : Nat := 0
  pc : Nat := 0
  resumeByte : Nat := 0
  offS : W64 := 0
  offD : W64 := 0
  iters : Tab Nat := []
  crc : W32 := 0xFFFFFFFF
  bytes : Nat := 0
  poison : Nat := 0
  stop : Bool := false
  cmd : Option CmdRef := none
  die : Nat := 0xFF
  progAddr : Nat := 0
  progLen : Nat := 0
  /-- The instructions fetched, by PC, each with its poisoned unit (R352). -/
  prog : Tab (List Byte × Option Nat) := []
  /-- Destinations written since they were last read back, each with the last 64-byte unit written there (R357). -/
  dests : Tab Nat := []
  lease : Nat := 0
  moved : Nat := 0
  poisonMoved : Nat := 0
  mismatches : Nat := 0
  freeAt : Nat := 0
  deriving DecidableEq, Repr

structure Complex where
  busAddr : W64 := 0
  busTide : Nat := 0
  failed : Bool := false
  deriving DecidableEq, Repr

structure CheckUnit where
  algo : Nat := 0
  source : Nat := 0
  armed : Bool := false
  intEn : Bool := false
  unverifiable : Bool := false
  mismatch : Bool := false
  sourceNum : Nat := 0
  value : W64 := 0
  expect : W64 := 0
  bytes : Nat := 0
  lastTide : Nat := 0
  lastMatched : Bool := false
  limit : Nat := 0
  /-- EXPECT of the limited ARM that waits, whatever a COMPARE brings meanwhile (R366). -/
  armExpect : W64 := 0
  /-- Armed, or its CU_VALUE written, since reset: until then CU_RESULT reads its reset value (R364). -/
  used : Bool := false
  cmd : Option CmdRef := none
  /-- The command that armed it, whose source names what it consumes (R217): ring, SEQ and opcode. -/
  owner : Option (Nat × W16 × Nat) := none
  deadline : Option Nat := none
  deriving DecidableEq, Repr

/-- A replica sweep in progress (R370 to R373): the module's own results with their poison, what has come from the
root, and for REPAIR the two slots and the listed blocks (offset in the entry, bytes). -/
structure Sweep where
  cmd : CmdRef
  mode : Nat
  root : Bool
  collId : W32
  epoch : W16
  deadline : Nat
  layer : Nat := 0
  state0 : Nat := 0
  state1 : Nat := 0
  blocks : List (Nat × Nat) := []
  sums : List W64 := []
  poisoned : List Bool := []
  result : Nat := 0
  total : Nat := 0
  landed : Nat := 0
  got : List Byte := []
  staged : Bool := false
  /-- The reads of this module as (key, bytes), and whether they have not finished; the layers of the map, and whether a close
  has flipped one of them meanwhile; bytes of the result area (R370 to R372). -/
  reads : List (Nat × Nat) := []
  reading : Bool := false
  layers : List Nat := []
  void : Bool := false
  area : Nat := 0
  deriving DecidableEq, Repr

structure Dma where
  channels : Tab Channel := []
  complexes : Tab Complex := []
  units : Tab CheckUnit := []
  sweeps : List Sweep := []
  deriving DecidableEq, Repr

/-! ### Faults, log and management -/

structure LogRec where
  tide : Nat
  source : Nat
  code : Nat
  severity : Nat
  flags : Nat
  seq : Nat
  arg0 : Nat
  arg1 : Nat
  arg2 : Nat
  deriving DecidableEq, Repr

/-- Rate limit of R395 for a source and code: Tidemarks of recent records, and whether one was dropped. -/
structure LogRate where
  source : Nat
  code : Nat
  recent : List Nat := []
  dropped : Bool := false
  deriving DecidableEq, Repr

structure FaultClass where
  count : Nat := 0
  failed : Nat := 0
  longest : Nat := 0
  deriving DecidableEq, Repr

/-- A recovery in progress (R374). `noSpare`: its class has no spare left. -/
structure Recovery where
  cls : Nat
  unit : Nat
  since : Nat
  noSpare : Bool := false
  overlap : Bool := false
  source : Nat := 0
  deriving DecidableEq, Repr

structure Log where
  written : Nat := 0
  records : List LogRec := []
  select : W64 := 0
  data : List W64 := []
  intSeverity : Nat := 2
  fatal : Bool := false
  rates : List LogRate := []
  classes : Tab FaultClass := []
  recoveries : List Recovery := []
  deriving DecidableEq, Repr

/-- PLDM update state: 0 idle, 1 learn components, 2 ready to transfer, 3 download, 4 verify, 5 apply. -/
structure Mgmt where
  dynAddr : Option Nat := none
  eid : Byte := 0
  eventReceiver : Option Byte := none
  events : List LogRec := []
  spdmVersionSeen : Bool := false
  spdmNegotiated : Bool := false
  updState : Nat := 0
  updMax : Nat := 0
  updComponent : Option Nat := none
  updTable : List Nat := []
  updSize : Nat := 0
  updData : List Byte := []
  updImage : Option ImageIn := none
  code : Nat := 0
  response : List Byte := []
  deriving DecidableEq, Repr

/-- A pending CONFIG_COMMIT (R56). -/
structure CommitWait where
  cmd : CmdRef
  deadline : Nat
  deriving DecidableEq, Repr

/-- The staged set (R54): the configuration that an apply would leave, and the keys its items name
(TYPE × 256 + port or context). -/
structure Staged where
  conf : Conf
  keys : List Nat
  serial : Nat
  signed : Bool
  deriving DecidableEq, Repr

/-- The state of the module, and the queue of commands that wait, first in first out. -/
structure State where
  pending : List Instr := []
  fresh : Nat := 0
  tide : Nat := 0
  power : Power := {}
  pkg : Package := {}
  time : Time := {}
  commit : Commit := {}
  step : StepSt := {}
  skim : Skim := {}
  conf : Conf := {}
  staged : Option Staged := none
  commitWait : Option CommitWait := none
  signedSerial : Nat := 0
  host : HostPort := {}
  dies : Tab Die := []
  arrays : Tab ArrayState := []
  mem : List Host.Cell := []
  poison : List Nat := []
  farStacks : Tab Stack := []
  layers : Tab Layer := []
  ctxs : Tab Ctx := []
  ports : Tab Port := []
  seamTrain : Tab Train := []
  coll : Coll := {}
  dma : Dma := {}
  log : Log := {}
  mgmt : Mgmt := {}
  deriving DecidableEq, Repr

/-- Why a step could stop: no event of this block does (every row has an effect, log 9). The constructor exists so that
the type is not empty; nothing raises it. -/
inductive Fault where
  /-- Raised by nothing. Safe. -/
  | never
  deriving DecidableEq, Repr

/-- Refusals. -/
inductive Refusal where
  /-- Raised by Machine/Dispatch.lean alone, for a command without a meaning yet: safe. -/
  | notModelled (mnemonic : String)
  deriving DecidableEq, Repr

/-- The module right after reset: Off, unpowered, every register at the reset value the spec gives, else at the value
that log 4 and log 5 name, memory with nothing listed, the queue empty. -/
def State.reset : State := {}

end Sys2Proof.Machine
end

