-- ==== Sys2Proof/Machine/Table.lean ====
section
/-! DEFINITION. Sparse tables, bit fields and little-endian byte strings (R10). -/

namespace Sys2Proof.Machine

/-- What a table holds at a number; `d` is what an unlisted number holds. -/
def tabGet {α : Type} (d : α) : Tab α → Nat → α
  | [], _ => d
  | (k, v) :: t, n => if k = n then v else tabGet d t n

/-- What a table lists at a number. -/
def tabFind {α : Type} : Tab α → Nat → Option α
  | [], _ => none
  | (k, v) :: t, n => if k = n then some v else tabFind t n

/-- The table with a value at a number. -/
def tabSet {α : Type} : Tab α → Nat → α → Tab α
  | [], n, v => [(n, v)]
  | (k, w) :: t, n, v =>
    if n < k then (n, v) :: (k, w) :: t
    else if n = k then (n, v) :: t
    else (k, w) :: tabSet t n v

/-- The table with a number no longer listed. -/
def tabDel {α : Type} (t : Tab α) (n : Nat) : Tab α := t.filter (fun e => e.1 != n)

/-- The table with the value at a number changed. -/
def tabMod {α : Type} (d : α) (t : Tab α) (n : Nat) (f : α → α) : Tab α := tabSet t n (f (tabGet d t n))

/-- Bits `lo` to `lo + len - 1` of a number (R10). -/
def bits (x lo len : Nat) : Nat := (x >>> lo) % 2 ^ len

/-- One bit of a number. -/
def bit (x i : Nat) : Bool := x.testBit i

def b2n (b : Bool) : Nat := if b then 1 else 0

/-- A counter of `w` bits that saturates. -/
def satAdd (w x k : Nat) : Nat := min (2 ^ w - 1) (x + k)

/-- The number that bytes spell, little-endian (R10). -/
def ofBytes : List Byte → Nat
  | [] => 0
  | b :: bs => b.toNat + 256 * ofBytes bs

/-- A number as `n` bytes, little-endian (R10). -/
def toBytes : Nat → Nat → List Byte
  | 0, _ => []
  | n + 1, x => BitVec.ofNat 8 x :: toBytes n (x / 256)

/-- Field of `len` bytes at byte `at_` of a packet or frame; bytes past the end read as zero. -/
def fieldAt (bs : List Byte) (at_ len : Nat) : Nat := ofBytes ((bs.drop at_).take len)

/-- A byte string cut or extended with zeros to `n` bytes. -/
def padTo (n : Nat) (bs : List Byte) : List Byte := (bs ++ List.replicate (n - bs.length) 0).take n

/-- A number of `w` bits read as two's complement. -/
def signed (w x : Nat) : Int := if x % 2 ^ w < 2 ^ (w - 1) then (x % 2 ^ w : Nat) else (x % 2 ^ w : Nat) - (2 ^ w : Nat)

/-- An integer as `w` bits, two's complement. -/
def unsigned (w : Nat) (x : Int) : Nat := (x % (2 ^ w : Nat)).toNat

/-- Numbers whose bit is set, below `n`. -/
def bitsSet (x n : Nat) : List Nat := (List.range n).filter (fun i => x.testBit i)

/-- The number with one bit given. -/
def withBit (x : W64) (i : Nat) (b : Bool) : W64 :=
  if b then x ||| BitVec.ofNat 64 (2 ^ i) else x &&& ~~~(BitVec.ofNat 64 (2 ^ i))

/-- A list with the element at a position changed. -/
def listMod {α : Type} (l : List α) (i : Nat) (f : α → α) : List α := l.modify i f

/-- Sum of a list of numbers. -/
def sumNat (l : List Nat) : Nat := l.foldr (· + ·) 0

end Sys2Proof.Machine
end

