-- ==== Sys2Proof/Machine/Memory.lean ====
section
/-! DEFINITION. Memory: one sparse byte list over the normalised addresses of R204, and the poison marks of R213/R214.
An address that is not listed reads 0 (DESIGN CHOICE, log 4, unsafe). -/

namespace Sys2Proof.Machine

/-- The canonical form: addresses strictly rising, no entry equal to what an unlisted address reads as. -/
def Memory.wf : List Host.Cell → Bool
  | [] => true
  | [(_, v)] => v != 0
  | (a, v) :: (b, w) :: t => v != 0 && decide (a < b) && Memory.wf ((b, w) :: t)

/-- What an address reads as. -/
def memRead : List Host.Cell → Nat → Byte
  | [], _ => 0
  | (k, v) :: t, a => if k = a then v else memRead t a

/-- Memory with one byte written, in canonical form again. -/
def memWrite : List Host.Cell → Nat → Byte → List Host.Cell
  | [], a, v => if v = 0 then [] else [(a, v)]
  | (k, w) :: t, a, v =>
    if a < k then (if v = 0 then (k, w) :: t else (a, v) :: (k, w) :: t)
    else if a = k then (if v = 0 then t else (a, v) :: t)
    else (k, w) :: memWrite t a v

/-- Consecutive bytes written, lowest address first. -/
def memWriteBytes (m : List Host.Cell) (a : Nat) : List Byte → List Host.Cell
  | [] => m
  | b :: bs => memWriteBytes (memWrite m a b) (a + 1) bs

/-- Consecutive bytes read. -/
def memReadBytes (m : List Host.Cell) (a n : Nat) : List Byte := (List.range n).map (fun i => memRead m (a + i))

/-- A little-endian number read (R10). -/
def memReadNat (m : List Host.Cell) (a n : Nat) : Nat := ofBytes (memReadBytes m a n)

/-- The list of poisoned units with one added; strictly rising. -/
def poisonAdd : List Nat → Nat → List Nat
  | [], u => [u]
  | k :: t, u => if u < k then u :: k :: t else if u = k then k :: t else k :: poisonAdd t u

/-- Size of the poison unit at an address (R213, R214): a 64-byte codeword in the far tier, else an 8-byte word. -/
def poisonUnit (a : Nat) : Nat := if a / 2 ^ 60 = 2 then 64 else 8

/-- The poison units that a range of bytes touches, in rising order. -/
def unitsOf (a n : Nat) : List Nat :=
  if n = 0 then [] else
    let u := poisonUnit a
    (List.range ((a + n - 1) / u + 1 - a / u)).map (fun i => (a / u + i) * u)

/-- The poison units of the 64-byte units that a frame's payload covers (R314). -/
def frameUnits (a n : Nat) : List Nat := if n = 0 then [] else unitsOf (a / 64 * 64) ((a + n + 63) / 64 * 64 - a / 64 * 64)

/-- The poison units that a range of bytes covers whole. -/
def wholeUnitsOf (a n : Nat) : List Nat :=
  (unitsOf a n).filter (fun w => decide (a ≤ w) && decide (w + poisonUnit a ≤ a + n))

/-- Key of the accumulator space 0xF, and of the far tier 0x2, in the flat memory. -/
def spaceKey (space : Nat) : Nat := space * 2 ^ 60

/-- Key of a host-memory address as the module writes it: above every normalised address. -/
def hostKey (addr : Nat) : Nat := 2 ^ 64 + addr % 2 ^ 64

/-- Far-tier stack of a far-tier offset (R26). -/
def farStackOf (nStacks a : Nat) : Nat :=
  let block := a / 512
  let group := block / nStacks
  let lane := block % nStacks
  let fold := bits group 18 9 ^^^ bits group 9 9 ^^^ bits group 0 9
  (lane + fold % nStacks) % nStacks

/-- Address within its stack (R26). -/
def farWithin (nStacks a : Nat) : Nat := a / 512 / nStacks * 512 + a % 512

/-- Logical channel of an address within a stack (R208). -/
def farChannelOf (within : Nat) : Nat := within / 512 % 16
def farChannelAddr (within : Nat) : Nat := within / 2 ^ 13 * 512 + within % 512

/-- Far-tier stacks that a population has (R2): 0 -M, 1 -B, 2 -N. -/
def popStacks (suffix : Nat) : Nat := if suffix = 0 then 16 else if suffix = 1 then 12 else if suffix = 2 then 8 else 0

/-- Whether an address lies in a far-tier channel in the failed state (R222). -/
def State.farFailed (s : State) (a : Nat) : Bool :=
  a / 2 ^ 60 == 2 &&
    (let n := popStacks s.pkg.suffix
     let off := a % 2 ^ 60
     let st := tabGet {} s.farStacks (farStackOf n off)
     (tabGet {} st.channels (farChannelOf (farWithin n off))).state == 2)

/-- Whether a unit reads as poisoned: marked, or in a failed far-tier channel (R213, R222). -/
def State.unitPoisoned (s : State) (u : Nat) : Bool := s.poison.contains u || s.farFailed u

/-- Memory with one byte written, unless a failed channel discards it (R222). -/
def State.writeByte (s : State) (m : List Host.Cell) (a : Nat) (b : Byte) : List Host.Cell :=
  if s.farFailed a then m else memWrite m a b

/-- Consecutive bytes written, lowest address first. -/
def State.writeBytes (s : State) (m : List Host.Cell) (a : Nat) : List Byte → List Host.Cell
  | [] => m
  | b :: bs => s.writeBytes (s.writeByte m a b) (a + 1) bs

/-- Bytes written by the module: a unit covered whole loses its poison, one covered in part keeps it (R218). -/
def State.write (s : State) (a : Nat) (bs : List Byte) : State :=
  { s with
    mem := s.writeBytes s.mem a bs
    poison := s.poison.filter (fun u => !(wholeUnitsOf a bs.length).contains u) }

/-- Units marked poisoned (R213). -/
def State.markPoison (s : State) (us : List Nat) : State :=
  { s with poison := us.foldl poisonAdd s.poison }

/-- Bytes read by the module. -/
def State.read (s : State) (a n : Nat) : List Byte := memReadBytes s.mem a n

def State.readNat (s : State) (a n : Nat) : Nat := memReadNat s.mem a n

/-- Whether a read of these bytes meets poison (R213). -/
def State.poisoned (s : State) (a n : Nat) : Bool := (unitsOf a n).any (fun u => s.unitPoisoned u)

/-- The lowest poisoned unit of a range. -/
def State.firstPoison (s : State) (a n : Nat) : Option Nat := (unitsOf a n).find? (fun u => s.unitPoisoned u)

/-- Units of the destination that poisoned units of the source reach when `n` bytes move (R217). -/
def State.movedPoison (s : State) (src dst n : Nat) : List Nat :=
  ((unitsOf src n).filter (fun u => s.unitPoisoned u)).flatMap (fun u =>
    let lo := max u src
    let hi := min (u + poisonUnit src) (src + n)
    unitsOf (dst + (lo - src)) (hi - lo))

/-- Bytes moved with their poison (R217). -/
def State.copy (s : State) (src dst n : Nat) : State :=
  (s.write dst (s.read src n)).markPoison (s.movedPoison src dst n)

/-- Bytes written to host memory (R60): write-back records, landed data, skim records. -/
def State.writeHost (s : State) (addr : Nat) (bs : List Byte) : State :=
  { s with mem := memWriteBytes s.mem (hostKey addr) bs }

/-- Bytes of host memory as the module last wrote them. -/
def State.readHost (s : State) (addr n : Nat) : List Byte := memReadBytes s.mem (hostKey addr) n

end Sys2Proof.Machine
end

