-- ==== Sys2Proof/Machine/Float.lean ====
section
/-! DEFINITION. Number formats, exact arithmetic and rounding (04). Values are exact dyadic numbers (`Num`) that are
rounded only at the points of R100. -/

namespace Sys2Proof.Machine

/-- Layout of a floating-point element format (R87): exponent bits, fraction bits, bias, code (without sign) of the
largest finite value, code of infinity and of the canonical NaN. -/
structure Layout where
  eb : Nat
  mb : Nat
  bias : Nat
  maxCode : Nat
  infCode : Option Nat
  nanCode : Option Nat
  deriving DecidableEq, Repr

def layFp32 : Layout := ⟨8, 23, 127, 0x7F7FFFFF, some 0x7F800000, some 0x7FC00000⟩
def layBf16 : Layout := ⟨8, 7, 127, 0x7F7F, some 0x7F80, some 0x7FC0⟩
def layFp16 : Layout := ⟨5, 10, 15, 0x7BFF, some 0x7C00, some 0x7E00⟩
def layE4m3 : Layout := ⟨4, 3, 7, 0x7E, none, some 0x7F⟩
def layE5m2 : Layout := ⟨5, 2, 15, 0x7B, some 0x7C, some 0x7E⟩
def layE3m2 : Layout := ⟨3, 2, 3, 0x1F, none, none⟩
def layE2m1 : Layout := ⟨2, 1, 1, 0x7, none, none⟩

/-- Element layout of a format code of R86 (MX and WIRE8 elements as their element format). -/
def layoutOf (fmt : Nat) : Layout :=
  if fmt = 0 then layFp32 else if fmt = 1 then layBf16 else if fmt = 2 then layFp16
  else if fmt = 4 then layE5m2 else if fmt = 6 then layE3m2 else if fmt = 7 then layE2m1 else layE4m3

/-- Bits of storage of one element (R86). -/
def fmtBits (fmt : Nat) : Nat :=
  if fmt = 0 then 32 else if fmt = 1 then 16 else if fmt = 2 then 16 else if fmt = 6 then 6
  else if fmt = 7 then 4 else if fmt = 9 then 64 else 8

/-- Formats whose blocks of 32 carry a scale in memory (R86, R91). -/
def fmtIsMx (fmt : Nat) : Bool := fmt = 5 || fmt = 6 || fmt = 7

/-- Codes that R86 rejects. -/
def fmtDefined (fmt : Nat) : Bool := decide (fmt ≤ 0xA)

/-- Bytes of `n` elements (R88, R92). -/
def fmtBytes (fmt n : Nat) : Nat := (n * fmtBits fmt + 7) / 8

def Num.zero : Num := .fin false 0 0
def numOne : Num := .fin false 1 0

/-- The value of a code of a layout (R87, R88). -/
def decodeFloat (l : Layout) (code : Nat) : Num :=
  let mag := code % 2 ^ (l.eb + l.mb)
  let neg := code.testBit (l.eb + l.mb)
  if l.infCode = some mag then .inf neg
  else if l.maxCode < mag then .nan
  else
    let e := mag / 2 ^ l.mb
    let f := mag % 2 ^ l.mb
    if e = 0 then .fin neg f (1 - (l.bias : Int) - l.mb)
    else .fin neg (2 ^ l.mb + f) ((e : Int) - l.bias - l.mb)

/-- INT8 (R93). -/
def decodeInt8 (code : Nat) : Num :=
  let i := signed 8 code
  .fin (decide (i < 0)) i.natAbs 0

/-- The value of one element code, without any block scale. -/
def decodeElem (fmt code : Nat) : Num := if fmt = 8 then decodeInt8 code else decodeFloat (layoutOf fmt) code

/-- A value times 2^k. -/
def numScale (k : Int) : Num → Num
  | .fin n m e => .fin n m (e + k)
  | x => x

/-- A value under an E8M0 scale byte (R87, R91). -/
def applyScale (scale : Nat) (x : Num) : Num := if scale = 0xFF then .nan else numScale ((scale : Int) - 127) x

/-- The exact product, with the IEEE 754 rules for non-finite values (R96, R104). -/
def numMul : Num → Num → Num
  | .nan, _ => .nan
  | _, .nan => .nan
  | .inf a, .inf b => .inf (a != b)
  | .inf a, .fin b m _ => if m = 0 then .nan else .inf (a != b)
  | .fin a m _, .inf b => if m = 0 then .nan else .inf (a != b)
  | .fin a m e, .fin b n f => .fin (a != b) (m * n) (e + f)

/-- A finite value as an integer multiple of 2^k, for k no larger than its exponent. -/
def numInt (neg : Bool) (m : Nat) (e k : Int) : Int :=
  let v : Int := (m : Int) * 2 ^ (e - k).toNat
  if neg then -v else v

/-- The exact sum (R90, R104). -/
def numAdd : Num → Num → Num
  | .nan, _ => .nan
  | _, .nan => .nan
  | .inf a, .inf b => if a = b then .inf a else .nan
  | .inf a, .fin _ _ _ => .inf a
  | .fin _ _ _, .inf b => .inf b
  | .fin a m e, .fin b n f =>
    if m = 0 then (if n = 0 then .fin (a && b) 0 0 else .fin b n f)
    else if n = 0 then .fin a m e
    else
      let k := min e f
      let v := numInt a m e k + numInt b n f k
      if v = 0 then .fin false 0 0 else .fin (decide (v < 0)) v.natAbs k

def numNeg : Num → Num
  | .fin a m e => .fin (!a) m e
  | .inf a => .inf (!a)
  | .nan => .nan

def numAbs : Num → Num
  | .fin _ m e => .fin false m e
  | .inf _ => .inf false
  | .nan => .nan

def numIsFinite : Num → Bool
  | .fin _ _ _ => true
  | _ => false

def numIsZero : Num → Bool
  | .fin _ m _ => m = 0
  | _ => false

/-- Whether a magnitude m * 2^e is less than n * 2^f. -/
def magLt (m : Nat) (e : Int) (n : Nat) (f : Int) : Bool :=
  let k := min e f
  decide (m * 2 ^ (e - k).toNat < n * 2 ^ (f - k).toNat)

/-- IEEE 754 less-than; false with a NaN. -/
def numLt : Num → Num → Bool
  | .nan, _ => false
  | _, .nan => false
  | .inf a, .inf b => a && !b
  | .inf a, .fin _ _ _ => a
  | .fin _ _ _, .inf b => !b
  | .fin a m e, .fin b n f =>
    if m = 0 && n = 0 then false
    else if m = 0 then !b
    else if n = 0 then a
    else if a != b then a
    else if a then magLt n f m e else magLt m e n f

/-- Rounding of a magnitude m * 2^e to `p` significant bits, not finer than 2^emin, to nearest, ties to even. `sticky`
says that the value lies strictly above m * 2^e (by less than 2^e). -/
def roundMag (p : Nat) (emin : Option Int) (m : Nat) (e : Int) (sticky : Bool) : Nat × Int :=
  let natural : Int := e + (m.log2 + 1 : Nat) - p
  let te := match emin with
    | none => natural
    | some k => max natural k
  if te ≤ e then (m * 2 ^ (e - te).toNat, te)
  else
    let d := (te - e).toNat
    let q := m / 2 ^ d
    let r := m % 2 ^ d
    let half := 2 ^ (d - 1)
    let up := decide (half < r) || (decide (r = half) && (sticky || q % 2 == 1))
    (if up then q + 1 else q, te)

/-- A finite value rounded to `p` significant bits with no bound on its exponent (R100, the column wave). -/
def roundSig (p : Nat) : Num → Num
  | .fin a m e => if m = 0 then .fin a 0 0 else
      let r := roundMag p none m e false
      .fin a r.1 r.2
  | x => x

/-- The code of a magnitude that a rounding has brought to `mb + 1` bits or to the subnormal grid; codes past the
largest finite one are those of an exponent range extended upward (R101). -/
def magCode (l : Layout) (q : Nat) (te : Int) : Nat :=
  let emin : Int := 1 - (l.bias : Int) - l.mb
  if q < 2 ^ l.mb then q else (te - emin).toNat * 2 ^ l.mb + q

/-- A signed code. -/
def withSign (l : Layout) (neg : Bool) (mag : Nat) : Nat := mag + (if neg then 2 ^ (l.eb + l.mb) else 0)

/-- What a magnitude past the largest finite value becomes (R101): infinity where `wide` (BF16, FP16, FP32), else the
largest finite magnitude and one saturation. -/
def overflowCode (l : Layout) (wide : Bool) (mag : Nat) : Nat × Bool :=
  if mag ≤ l.maxCode then (mag, false)
  else if wide then (l.infCode.getD l.maxCode, false)
  else (l.maxCode, true)

/-- BF16, FP16 and FP32 overflow to infinity (R101). -/
def fmtWide (fmt : Nat) : Bool := decide (fmt ≤ 2)

/-- Conversion of a finite value to an element code, to nearest even (R100, R101): code, and whether it saturated. -/
def encodeFinite (l : Layout) (wide neg : Bool) (m : Nat) (e : Int) (sticky : Bool) : Nat × Bool :=
  if m = 0 then (withSign l neg 0, false)
  else
    let r := roundMag (l.mb + 1) (some (1 - (l.bias : Int) - l.mb)) m e sticky
    let o := overflowCode l wide (magCode l r.1 r.2)
    (withSign l neg o.1, o.2)

/-- Stochastic rounding of R103 with random number `r`: the neighbours are those toward and away from zero. -/
def encodeStochastic (l : Layout) (wide neg : Bool) (m : Nat) (e : Int) (r : Nat) : Nat × Bool :=
  if m = 0 then (withSign l neg 0, false)
  else
    let emin : Int := 1 - (l.bias : Int) - l.mb
    let te := max (e + (m.log2 + 1 : Nat) - (l.mb + 1 : Nat)) emin
    if te ≤ e then
      let o := overflowCode l wide (magCode l (m * 2 ^ (e - te).toNat) te)
      (withSign l neg o.1, o.2)
    else
      let d := (te - e).toNat
      let q := m / 2 ^ d
      let rem := m % 2 ^ d
      if rem = 0 then
        let o := overflowCode l wide (magCode l q te)
        (withSign l neg o.1, o.2)
      else
        let above := if neg then 2 ^ d - rem else rem
        let f := 65536 * above / 2 ^ d
        let takeUpper := decide (r < f)
        let away := if neg then !takeUpper else takeUpper
        let o := overflowCode l wide (magCode l (if away then q + 1 else q) te)
        (withSign l neg o.1, o.2)

/-- FP32 bits of a value, rounded to nearest even; NaN is canonical (R89, R100). -/
def toF32 : Num → W32
  | .nan => 0x7FC00000#32
  | .inf n => if n then 0xFF800000#32 else 0x7F800000#32
  | .fin n m e => BitVec.ofNat 32 (encodeFinite layFp32 true n m e false).1

/-- The value of FP32 bits (R87, R88). -/
def ofF32 (w : W32) : Num := decodeFloat layFp32 w.toNat

/-- FP32 arithmetic of one operation each (R100). -/
def f32Add (a b : W32) : W32 := toF32 (numAdd (ofF32 a) (ofF32 b))
def f32Mul (a b : W32) : W32 := toF32 (numMul (ofF32 a) (ofF32 b))
def f32Fma (a b c : W32) : W32 := toF32 (numAdd (numMul (ofF32 a) (ofF32 b)) (ofF32 c))
def f32Neg (a : W32) : W32 := toF32 (numNeg (ofF32 a))
def f32Sub (a b : W32) : W32 := toF32 (numAdd (ofF32 a) (numNeg (ofF32 b)))

/-- FP32 infinity or NaN. -/
def f32NonFinite (a : W32) : Bool := a.toNat / 2 ^ 23 % 256 == 255

/-- FP32 of a quotient of magnitudes, one rounding. -/
def divToF32 (neg : Bool) (a b : Nat) (e : Int) : W32 :=
  let sh := 64 + b.log2
  let n := a * 2 ^ sh
  BitVec.ofNat 32 (encodeFinite layFp32 true neg (n / b) (e - sh) (n % b != 0)).1

/-- The correctly rounded quotient of two values (R104 for the non-finite cases of IEEE 754). -/
def numDivF32 : Num → Num → W32
  | .nan, _ => 0x7FC00000#32
  | _, .nan => 0x7FC00000#32
  | .inf _, .inf _ => 0x7FC00000#32
  | .inf a, .fin b _ _ => toF32 (.inf (a != b))
  | .fin a _ _, .inf b => toF32 (.fin (a != b) 0 0)
  | .fin a m e, .fin b n f =>
    if n = 0 then (if m = 0 then 0x7FC00000#32 else toF32 (.inf (a != b)))
    else if m = 0 then toF32 (.fin (a != b) 0 0)
    else divToF32 (a != b) m n (e - f)

/-- The correctly rounded square root (IEEE 754: NaN below zero, the zero's own sign). -/
def numSqrtF32 : Num → W32
  | .nan => 0x7FC00000#32
  | .inf n => if n then 0x7FC00000#32 else 0x7F800000#32
  | .fin n m e =>
    if m = 0 then toF32 (.fin n 0 0)
    else if n then 0x7FC00000#32
    else
      let e0 := e - 80
      let adj : Int := if e0 % 2 = 0 then 0 else 1
      let e1 := e0 - adj
      let v := m * 2 ^ (80 + adj.toNat)
      let r := v.sqrt
      BitVec.ofNat 32 (encodeFinite layFp32 true false r (e1 / 2) (r * r != v)).1

/-- The correctly rounded reciprocal square root: 1/sqrt(m * 2^e), with the zero's sign on infinity. -/
def numRsqrtF32 : Num → W32
  | .nan => 0x7FC00000#32
  | .inf n => if n then 0x7FC00000#32 else 0#32
  | .fin n m e =>
    if m = 0 then toF32 (.inf n)
    else if n then 0x7FC00000#32
    else
      let adj : Int := if e % 2 = 0 then 0 else 1
      let m1 := m * 2 ^ adj.toNat
      let e1 := (e - adj) / 2
      let sh := 64 + m1.log2
      let num := 2 ^ (2 * sh)
      let r := (num / m1).sqrt
      BitVec.ofNat 32 (encodeFinite layFp32 true false r (-e1 - sh) (r * r * m1 != num)).1

/-- The nearest integer, ties to even. -/
def roundInt (neg : Bool) (m : Nat) (e : Int) : Int :=
  let mag : Nat :=
    if 0 ≤ e then m * 2 ^ e.toNat
    else
      let d := (-e).toNat
      let q := m / 2 ^ d
      let r := m % 2 ^ d
      let half := 2 ^ (d - 1)
      if half < r || (r == half && q % 2 == 1) then q + 1 else q
  if neg then -(mag : Int) else mag

/-- Conversion to INT8 (R101, R104): code, and whether it saturated. -/
def encodeInt8 : Num → Nat × Bool
  | .nan => (0, false)
  | .inf n => (if n then 0x80 else 0x7F, true)
  | .fin n m e =>
    let i := roundInt n m e
    if i < -128 then (0x80, true) else if 127 < i then (0x7F, true) else (unsigned 8 i, false)

/-- Conversion of one value to a format without a block scale, or to an MX or WIRE8 element already divided by its
scale (R100, R101, R103, R104): code, and whether it saturated. `rnd` is the random number of a stochastic rounding.
Non-finite values of MXFP6 and MXFP4 are the block's business (R104). -/
def encodeElem (fmt : Nat) (rnd : Option Nat) (x : Num) : Nat × Bool :=
  if fmt = 8 then encodeInt8 x
  else
    let l := layoutOf fmt
    match x with
    | .nan => (l.nanCode.getD 0, false)
    | .inf n =>
      match l.infCode with
      | some c => (withSign l n c, false)
      | none => (l.nanCode.getD 0, false)
    | .fin n m e =>
      match rnd with
      | none => encodeFinite l (fmtWide fmt) n m e false
      | some r => encodeStochastic l (fmtWide fmt) n m e r

/-- The largest element exponent of an MX format (R102). -/
def mxEmax (fmt : Nat) : Int := if fmt = 6 then 4 else if fmt = 7 then 2 else 8

/-- The exponent of the leading bit of a finite nonzero value. -/
def numLog2 : Num → Int
  | .fin _ m e => (m.log2 : Int) + e
  | _ => 0

/-- The scale exponent of an MX block (R102): from its finite values; a block of zeros gets byte 0x7F. DESIGN CHOICE
(log 60): so does an MXFP8 block whose values are all NaN or infinity, for which R102 gives no `m`. -/
def mxScaleExp (fmt : Nat) (xs : List Num) : Int :=
  let ls := (xs.filter (fun x => numIsFinite x && !numIsZero x)).map numLog2
  match ls with
  | [] => 0
  | l :: rest => max (-127) (min 127 (rest.foldl max l - mxEmax fmt))

/-- Quantisation of a block of 32 values (R102 to R104): scale byte, element codes, saturations. -/
def encodeMx (fmt : Nat) (rnd : List (Option Nat)) (xs : List Num) : Nat × List Nat × Nat :=
  if fmt != 5 && xs.any (fun x => !numIsFinite x) then (0xFF, xs.map (fun _ => 0), 0)
  else
    let k := mxScaleExp fmt xs
    let rs := (xs.zip rnd).map (fun p => encodeElem fmt p.2 (numScale (-k) p.1))
    ((k + 127).toNat, rs.map (·.1), (rs.filter (·.2)).length)

/-- WIDE64 bits of a pair (R94). -/
def wide64 (hi lo : W32) : W64 := BitVec.append lo hi

def wideHi (w : W64) : W32 := w.truncate 32
def wideLo (w : W64) : W32 := (w >>> 32).truncate 32

/-- The value of WIDE64 bits (R94). -/
def wideNum (w : W64) : Num :=
  if f32NonFinite (wideHi w) then ofF32 (wideHi w) else numAdd (ofF32 (wideHi w)) (ofF32 (wideLo w))

/-- An exact value as a normalised pair: HI nearest, LO the rest rounded (R94, R100, R104). -/
def toWide (x : Num) : W64 :=
  let hi := toF32 x
  if f32NonFinite hi then wide64 hi 0
  else wide64 hi (toF32 (numAdd x (numNeg (ofF32 hi))))

/-- Elements of a plane, packed without gaps, little-endian within it (R88, R92). -/
def packElems (width : Nat) (codes : List Nat) : List Byte :=
  toBytes ((codes.length * width + 7) / 8) (codes.foldr (fun c acc => c % 2 ^ width + acc * 2 ^ width) 0)

/-- Element `i` of a plane. -/
def unpackElem (width : Nat) (plane : List Byte) (i : Nat) : Nat :=
  let first := i * width / 8
  let last := (i * width + width - 1) / 8
  fieldAt plane first (last + 1 - first) / 2 ^ (i * width - 8 * first) % 2 ^ width

/-! ### WIRE8 (R95, R101, R104) -/

/-- Quantisation of one finite value to a WIRE8 element under a scale-table entry. A non-finite value is sent as 0. -/
def encodeWire (scale : Nat) (x : Num) : Nat × Bool :=
  if numIsFinite x then encodeElem 0xA none (numScale (127 - (scale : Int)) x) else (0, false)

/-- The value of a WIRE8 element: codes 0x7F and 0xFF count as 0 and raise the block's flag (R95). -/
def decodeWire (scale code : Nat) : Num × Bool :=
  if code % 128 = 0x7F then (Num.zero, true) else (applyScale scale (decodeElem 0xA code), false)

end Sys2Proof.Machine
end

