-- ==== Sys2Proof/Machine/Ops.lean ====
section
/-! DEFINITION. The operations that every family shares: time, free values, signals, interrupts, the trouble log, and
the life of a command from readiness to completion (02, 03, 17, 20). -/

namespace Sys2Proof.Machine

/-! ### Time (R36, R37) -/

/-- Ticks that the slew adds or withholds while `dt` ticks pass: at most one in every 10,000 (R37). -/
def slewTicks (t : Time) (dt : Nat) : Nat := min t.slew.natAbs ((t.slewPhase + dt) / 10000)

/-- The time base after `dt` ticks. -/
def timeAfter (t : Time) (dt : Nat) : Time :=
  let k := slewTicks t dt
  { t with
    slewPhase := (t.slewPhase + dt) % 10000
    slew := if t.slew < 0 then t.slew + k else t.slew - k }

/-- Tidemark after `dt` ticks: it only advances (R36), slewing by at most 100 ppm (R37). -/
def tideAfter (t : Time) (tide dt : Nat) : Nat :=
  let k := slewTicks t dt
  if t.slew < 0 then tide + (dt - k) else tide + dt + k

/-- The time between two commands passes (log 2). -/
def State.advance (s : State) (dt : Nat) : State :=
  { s with tide := tideAfter s.time s.tide dt, time := timeAfter s.time dt }

/-- The low 32 bits of the Tidemark, as many registers hold it. -/
def low32 (t : Nat) : Nat := t % 2 ^ 32

/-! ### Free values (log 3) -/

/-- The next value that the spec leaves open, and the state that has used it. -/
def State.draw (s : State) : W64 × State := (Config.freeValue s.fresh, { s with fresh := s.fresh + 1 })

/-- `n` fresh values of 16 bits: the random numbers of R103. -/
def State.draws (s : State) (n : Nat) : List Nat × State :=
  ((List.range n).map (fun i => (Config.freeValue (s.fresh + i)).toNat % 65536), { s with fresh := s.fresh + n })

/-! ### Objects at their reset values -/

/-- Serving core of a ring at start-up (R62). -/
def coreOfRing (r : Nat) : Nat := if r = 0 then 0 else (r - 1) / 4 + 1

def ringReset (r : Nat) : Ring := { vector := r, core := coreOfRing r }

def State.ring (s : State) (r : Nat) : Ring := tabGet (ringReset r) s.host.rings r

def State.setRing (s : State) (r : Nat) (x : Ring) : State :=
  { s with host := { s.host with rings := tabSet s.host.rings r x } }

def State.modRing (s : State) (r : Nat) (f : Ring → Ring) : State := s.setRing r (f (s.ring r))

def slotKey (r slot : Nat) : Nat := r * 1024 + slot

def State.slot (s : State) (r slot : Nat) : Option Slot := tabFind s.host.slots (slotKey r slot)

def State.setSlot (s : State) (r slot : Nat) (x : Slot) : State :=
  { s with host := { s.host with slots := tabSet s.host.slots (slotKey r slot) x } }

def State.freeSlot (s : State) (r slot : Nat) : State :=
  { s with host := { s.host with slots := tabDel s.host.slots (slotKey r slot) } }

def State.die (s : State) (n : Nat) : Die := tabGet {} s.dies n
def State.modDie (s : State) (n : Nat) (f : Die → Die) : State := { s with dies := tabMod {} s.dies n f }

def arrayKey (die a : Nat) : Nat := die * 32 + a

def State.array (s : State) (die a : Nat) : ArrayState := tabGet { phys := a } s.arrays (arrayKey die a)

def State.modArray (s : State) (die a : Nat) (f : ArrayState → ArrayState) : State :=
  { s with arrays := tabSet s.arrays (arrayKey die a) (f (s.array die a)) }

def State.stack (s : State) (f : Nat) : Stack := tabGet {} s.farStacks f
def State.modStack (s : State) (f : Nat) (g : Stack → Stack) : State := { s with farStacks := tabMod {} s.farStacks f g }

def State.layer (s : State) (l : Nat) : Layer := tabGet {} s.layers l
def State.modLayer (s : State) (l : Nat) (f : Layer → Layer) : State := { s with layers := tabMod {} s.layers l f }

def State.ctx (s : State) (k : Nat) : Ctx := tabGet {} s.ctxs k
def State.modCtx (s : State) (k : Nat) (f : Ctx → Ctx) : State := { s with ctxs := tabMod {} s.ctxs k f }

def State.port (s : State) (p : Nat) : Port := tabGet {} s.ports p
def State.modPort (s : State) (p : Nat) (f : Port → Port) : State := { s with ports := tabMod {} s.ports p f }

def State.portItem (s : State) (p : Nat) : PortItem := tabGet {} s.conf.ports p
def State.ctxItem (s : State) (k : Nat) : CtxItem := tabGet {} s.conf.ctxs k

def State.tile (s : State) (x : Nat) : Tile := tabGet {} s.coll.tiles x
def State.modTile (s : State) (x : Nat) (f : Tile → Tile) : State :=
  { s with coll := { s.coll with tiles := tabMod {} s.coll.tiles x f } }

def State.channel (s : State) (c : Nat) : Channel := tabGet {} s.dma.channels c
def State.modChannel (s : State) (c : Nat) (f : Channel → Channel) : State :=
  { s with dma := { s.dma with channels := tabMod {} s.dma.channels c f } }

def State.complex (s : State) (d : Nat) : Complex := tabGet {} s.dma.complexes d
def State.modComplex (s : State) (d : Nat) (f : Complex → Complex) : State :=
  { s with dma := { s.dma with complexes := tabMod {} s.dma.complexes d f } }

def State.unit (s : State) (u : Nat) : CheckUnit := tabGet {} s.dma.units u
def State.modUnit (s : State) (u : Nat) (f : CheckUnit → CheckUnit) : State :=
  { s with dma := { s.dma with units := tabMod {} s.dma.units u f } }

/-! ### Population (R2, R14, R453) -/

/-- I/O dies and causeway ports that a population has (R2). -/
def popIoDies (suffix : Nat) : Nat := if suffix = 0 then 2 else if suffix = 1 then 4 else if suffix = 2 then 6 else 0
def popPorts (suffix : Nat) : Nat := 4 * popIoDies suffix
def popFarGib (suffix : Nat) : Nat := 64 * popStacks suffix

def State.nStacks (s : State) : Nat := popStacks s.pkg.suffix
def State.nIoDies (s : State) : Nat := popIoDies s.pkg.suffix
def State.nPorts (s : State) : Nat := popPorts s.pkg.suffix

/-! ### Signals (R68) -/

def State.signal (s : State) (j : Nat) : Bool := s.host.signals.toNat.testBit j

/-- A signal is set; the Tidemark is kept for R43 (log 11). -/
def State.setSignal (s : State) (j : Nat) : State :=
  { s with
    host := { s.host with
      signals := withBit s.host.signals j true
      signalTide := if s.signal j then s.host.signalTide else tabSet s.host.signalTide j s.tide } }

def State.setSignals (s : State) (mask : W64) : State :=
  (bitsSet mask.toNat 64).foldl (fun st j => st.setSignal j) s

def State.clearSignals (s : State) (mask : W64) : State :=
  { s with host := { s.host with signals := s.host.signals &&& ~~~mask } }

/-! ### Interrupts (R462) -/

/-- Vectors that the configuration allows; bits 17:0 always (R416, INT_ENABLE). -/
def State.vectorEnabled (s : State) (v : Nat) : Bool := decide (v < 18) || s.conf.vectorEnable.toNat.testBit v

/-- One cause of a vector: sent, collected in the pending bit while masked, or neither where disabled. -/
def State.raise (s : State) (v : Nat) : State :=
  if !s.vectorEnabled v then s
  else if s.host.functionMask || s.host.vectorMask.toNat.testBit v then
    { s with host := { s.host with pba := withBit s.host.pba v true } }
  else { s with host := { s.host with msixSent := s.host.msixSent ++ [v] } }

/-! ### Trouble log (R395 to R398) -/

/-- Severities of R397. -/
def sevInfo : Nat := 0
def sevWarning : Nat := 1
def sevError : Nat := 2
def sevFatal : Nat := 3

/-- The rate-limit entry of a source and code (R395). -/
def findRate (rs : List LogRate) (source code : Nat) : LogRate :=
  (rs.find? (fun r => r.source == source && r.code == code)).getD { source := source, code := code }

def putRate (rs : List LogRate) (r : LogRate) : List LogRate :=
  r :: rs.filter (fun x => !(x.source == r.source && x.code == r.code))

/-- FAULT_N by phase (R438): released while start-up runs, low while FATAL is 1 in service, low once stopped. -/
def State.refreshFault (s : State) : State :=
  { s with power := { s.power with faultLow := match s.power.phase with
      | .off => false
      | .starting => false
      | .serving => s.log.fatal
      | .stopped => true } }

/-- The die pauses its broadcasts (R404, R405). -/
def State.diePaused (s : State) (die : Nat) : Bool :=
  s.power.paused.toNat.testBit die || s.power.thermPaused.toNat.testBit die

/-- A unit of a fault class is in recovery (R374, R375). -/
def State.recovering (s : State) (cls unit : Nat) : Bool := s.log.recoveries.any (fun r => r.cls == cls && r.unit == unit)

/-- An array is held by the recovery of an array fault (R383). -/
def State.arrayHeld (s : State) (die a : Nat) : Bool := s.recovering 5 (die * 256 + a)

/-- An array's feeder is held by the recovery of an array or cell-row fault (R126, R382, R383). -/
def State.arrayPaused (s : State) (die a : Nat) : Bool :=
  s.arrayHeld die a || s.log.recoveries.any (fun r => r.cls == 6 && r.unit / 256 == die * 256 + a)

/-- The record itself, with its interrupt, FAULT_N and platform event, which leaves by an in-band interrupt with the
dynamic address (R396, R397, R424, R440). -/
def State.writeLog (s : State) (r : LogRec) : State :=
  let s := { s with log := { s.log with
      written := s.log.written + 1
      records := (s.log.records ++ [r]).drop (s.log.records.length + 1 - 8192)
      fatal := s.log.fatal || r.severity == sevFatal } }
  let s := if decide (sevError ≤ r.severity) && s.mgmt.eventReceiver.isSome && s.mgmt.dynAddr.isSome then
      { s with mgmt := { s.mgmt with events := s.mgmt.events ++ [r] } } else s
  let s := s.refreshFault
  if s.log.intSeverity ≤ r.severity then s.raise 25 else s

/-- A record of the trouble log: at most 64 of one code by one source in any 1 ms, the next one after a drop marked
SUPPRESSED (R395). -/
def State.logFlag (s : State) (overlap : Bool) (source code severity arg0 arg1 arg2 : Nat) : State :=
  let rate := findRate s.log.rates source code
  let recent := rate.recent.filter (fun t => decide (s.tide < t + 1000000))
  if 64 ≤ recent.length then
    { s with log := { s.log with rates := putRate s.log.rates { rate with recent := recent, dropped := true } } }
  else
    let flags := b2n rate.dropped + 2 * b2n overlap
    let s := { s with log := { s.log with
        rates := putRate s.log.rates { rate with recent := s.tide :: recent, dropped := false } } }
    s.writeLog { tide := s.tide, source := source, code := code, severity := severity, flags := flags,
                 seq := s.log.written % 65536, arg0 := arg0 % 2 ^ 64, arg1 := arg1 % 2 ^ 32, arg2 := arg2 % 2 ^ 32 }

def State.logRec (s : State) (source code severity arg0 arg1 arg2 : Nat) : State :=
  s.logFlag false source code severity arg0 arg1 arg2

/-- DISCARDED_WRITE (R453, R398). -/
def State.discardedWrite (s : State) (offset : Nat) (value : W64) : State :=
  s.logRec 0x050 0x0004 sevWarning offset (low32 value.toNat) 0

/-- Source numbers of R47. -/
def srcDie (n : Nat) : Nat := 0x010 + n
def srcBase (b : Nat) : Nat := 0x020 + b
def srcIo (x : Nat) : Nat := 0x030 + x
def srcStack (f : Nat) : Nat := 0x040 + f
def srcHost : Nat := 0x050
def srcCtx (k : Nat) : Nat := 0x060 + k
def srcComplex (d : Nat) : Nat := 0x070 + d

/-- Source of a ring's commands (R62). -/
def srcRing (r : Nat) : Nat := if r = 0 then 0x050 else 0x060 + (r - 1)

/-! ### Status codes (R85) -/

def Status.code : Status → Nat
  | .ok => 0
  | .pending => 1
  | .deferred => 2
  | .busy => 3
  | .badParam => 4
  | .versionGone => 5
  | .noSpace => 6
  | .nonfinite => 7
  | .aborted => 8
  | .timeout => 9
  | .faulted => 0xA
  | .epochStale => 0xB
  | .notSupported => 0xC

/-! ### Ring registers and records (R74, R78, R79) -/

/-- The 16-byte write-back record (R78). -/
def writeBackRecord (completed : W32) (seq : W16) (st : Status) (tide : Nat) : List Byte :=
  toBytes 4 completed.toNat ++ toBytes 2 seq.toNat ++ toBytes 1 st.code ++ [0] ++ toBytes 8 tide

/-- The ring sends its vector, which clears its pending interrupts (R79). -/
def State.sendRingInt (s : State) (r : Nat) : State :=
  (s.modRing r (fun x => { x with pendingInts := 0 })).raise (s.ring r).vector

/-- A completion with FLAGS.INT becomes pending and is sent once COALESCE.COUNT are (R79). -/
def State.countInt (s : State) (r : Nat) : State :=
  let s := s.modRing r (fun x => { x with
    oldestInt := if x.pendingInts = 0 then s.tide else x.oldestInt
    pendingInts := x.pendingInts + 1 })
  let x := s.ring r
  if x.coalesceCount ≤ x.pendingInts then s.sendRingInt r else s

/-- The slot of a command becomes ready with its result (R74, R78). -/
def State.readySlot (s : State) (c : Cmd) (st : Status) (detail : Nat) (body : List Byte) : State :=
  match c.slot with
  | none => s
  | some k =>
    match s.slot c.ring k with
    | none => s
    | some x => s.setSlot c.ring k { x with
        ready := true
        marked := false
        late := c.late
        status := st
        startTide := c.start.getD 0
        doneTide := s.tide
        configEpoch := s.commit.configEpoch
        stepNumber := s.commit.stepNumber
        detail := detail
        body := padTo 64 body
        readyAt := (s.ring c.ring).everFetched }

/-- The slot of a completed command becomes ready, or is freed where a RELEASE marked it (R74, R77, R78). -/
def State.fillSlot (s : State) (c : Cmd) (st : Status) (detail : Nat) (body : List Byte) : State :=
  match c.slot.bind (fun k => (s.slot c.ring k).map (fun x => (k, x.marked))) with
  | none => s
  | some (k, true) => s.freeSlot c.ring k
  | some (_, false) => s.readySlot c st detail body

/-- RING_DONE, the write-back record, DONE_SIGNAL and the interrupt of one completion, in that order (R78, R79). -/
def State.announce (s : State) (c : Cmd) (st : Status) : State :=
  let s := s.modRing c.ring (fun x => { x with completed := x.completed + 1, lastTide := s.tide })
  let x := s.ring c.ring
  let s := if x.wbEn then s.writeHost x.wbAddr.toNat (writeBackRecord x.completed c.seq st s.tide) else s
  let s := match c.doneSignal with
    | some j => if st = .ok then s.setSignal j else s
    | none => s
  if c.int then s.countInt c.ring else s

/-- Commands after which nothing of the ring starts until they complete (R82, R258). -/
def cmdBlocks (c : Cmd) : Bool := c.opcode = 0x02 || c.opcode = 0x03 || c.opcode = 0x05 || c.opcode = 0x20

/-- The command leaves its ring, and the WAIT_TIDE that counts from it learns its DONE_TIDE (R82). -/
def State.dropCmd (s : State) (c : Cmd) : State :=
  s.modRing c.ring (fun x => { x with
    cmds := (x.cmds.filter (fun d => d.fetchOrder != c.fetchOrder)).map (fun d =>
      if d.prior = .running c.fetchOrder then { d with prior := .done s.tide } else d)
    prior := if x.prior = .running c.fetchOrder then .done s.tide else x.prior
    blockedUntil := if cmdBlocks c then s.tide else x.blockedUntil })

/-- Completion of a command (R45, R78): its result and its traces. A command started before a function-level reset or
PERST_N leaves no trace on the host side (R61). -/
def State.complete (s : State) (c : Cmd) (st : Status) (detail : Nat) (body : List Byte) : State :=
  let s := s.dropCmd c
  let s := if c.opcode = 0x40 then { s with step := { s.step with lastUpdate := s.tide } } else s
  if c.silent then s
  else (s.fillSlot c st detail body).announce c st

/-- BAD_PARAM at a byte of the parameter area (R465). -/
def State.badParam (s : State) (c : Cmd) (off : Nat) : State := s.complete c .badParam (64 + off) []

/-! ### Readiness and starting (R43, R44, R69) -/

/-- Whether a ring's core is out of its duty for the moment: recovery or restart (R385, R428). -/
def State.ringPaused (s : State) (r : Nat) : Bool :=
  let core := (s.ring r).core
  s.log.recoveries.any (fun x => x.cls == 8 && x.unit == core) || s.host.restarting == some core ||
    s.host.failedCores.contains core

def Ring.started (x : Ring) : List Cmd := x.cmds.filter (fun c => c.start.isSome)
def Ring.unstarted (x : Ring) : List Cmd := x.cmds.filter (fun c => c.start.isNone)

/-- The oldest command of the ring that has not started. -/
def Ring.front (x : Ring) : Option Cmd := x.cmds.find? (fun c => c.start.isNone)

/-- The oldest unstarted command remembers since when it is the oldest (R70). -/
def markOldest (tide : Nat) : List Cmd → List Cmd
  | [] => []
  | c :: cs =>
    if c.start.isNone then
      (if c.oldestSince.isNone then { c with oldestSince := some tide } else c) :: cs
    else c :: markOldest tide cs

def State.refreshOldest (s : State) (r : Nat) : State :=
  s.modRing r (fun x => { x with cmds := markOldest s.tide x.cmds })

/-- A command changed in its ring. -/
def State.modCmd (s : State) (ref : CmdRef) (f : Cmd → Cmd) : State :=
  s.modRing ref.ring (fun x => { x with cmds := x.cmds.map (fun c => if c.fetchOrder = ref.id then f c else c) })

def Cmd.ref (c : Cmd) : CmdRef := ⟨c.ring, c.fetchOrder⟩

def State.findCmd (s : State) (ref : CmdRef) : Option Cmd := (s.ring ref.ring).cmds.find? (fun c => c.fetchOrder == ref.id)

/-- The oldest started command of a ring with a SEQ. -/
def State.findSeq (s : State) (r : Nat) (seq : W16) : Option Cmd :=
  (s.ring r).cmds.find? (fun c => c.seq == seq && c.start.isSome)

/-- The oldest command of a ring with a SEQ, started or not. -/
def State.findAny (s : State) (r : Nat) (seq : W16) : Option Cmd := (s.ring r).cmds.find? (fun c => c.seq == seq)

/-- The command has finished and waits for its completion to be recorded (R73). -/
def State.finish (s : State) (ref : CmdRef) (st : Status) (detail : Nat) (body : List Byte) : State :=
  s.modCmd ref (fun c => { c with work := .finished st detail body, finishedAt := s.tide })

def State.setWork (s : State) (ref : CmdRef) (w : Work) : State := s.modCmd ref (fun c => { c with work := w })

def State.setWait (s : State) (ref : CmdRef) (w : WaitFor) (deadline : Option Nat) : State :=
  s.modCmd ref (fun c => { c with work := .waiting w, deadline := deadline })

/-- A command that is not yet finished. -/
def Cmd.live (c : Cmd) : Bool :=
  match c.work with
  | .finished _ _ _ => false
  | _ => true

/-- Every accepted command that has not completed. -/
def State.allCmds (s : State) : List Cmd := s.host.rings.flatMap (fun e => e.2.cmds)

/-! ### Parameters (R80, R465) -/

/-- Field of a command's parameter area. -/
def Cmd.param (c : Cmd) (off len : Nat) : Nat := fieldAt c.params off len

/-- The first failing check, in the order given (R465): each check is its outcome and the offset it names. -/
def firstFail : List (Bool × Nat) → Option Nat
  | [] => none
  | (ok, off) :: rest => if ok then firstFail rest else some off

/-- The failing check with the lowest offset, where a chapter gives no order (R465). -/
def lowestFail (checks : List (Bool × Nat)) : Option Nat :=
  match (checks.filter (fun c => !c.1)).map (fun c => c.2) with
  | [] => none
  | o :: os => some (os.foldl min o)

/-- Nonzero reserved bytes of a parameter area, as one failing check each; `used` lists (offset, length) of the fields.
-/
def reservedBytes (c : Cmd) (size : Nat) (used : List (Nat × Nat)) : List (Bool × Nat) :=
  ((List.range size).filter (fun i => used.all (fun u => decide (i < u.1) || decide (u.1 + u.2 ≤ i)))).map
    (fun i => (c.param i 1 == 0, i))

/-- One check for the reserved bytes (R11, R80): the lowest nonzero one. -/
def reservedFail (c : Cmd) (size : Nat) (used : List (Nat × Nat)) : List (Bool × Nat) :=
  match lowestFail (reservedBytes c size used) with
  | none => []
  | some o => [(false, o)]

/-- `size` bytes with fields laid into them, each by its offset, its length in bytes and its value; every other byte is
zero. -/
def layBytes (size : Nat) (fields : List (Nat × Nat × Nat)) : List Byte :=
  fields.foldl (fun b f => (b.take f.1) ++ toBytes f.2.1 f.2.2 ++ b.drop (f.1 + f.2.1)) (List.replicate size 0)

/-- A 64-byte BODY from fields at offsets. -/
def bodyOf (fields : List (Nat × Nat × Nat)) : List Byte := layBytes 64 fields

/-- The next state of a command that always completes an event. -/
abbrev Result := Host.Outcome State Fault Refusal

/-! ### Commands that touch nothing but time -/

/-- A row whose trigger does not hold changes nothing but the time (log 9). -/
def State.idle (s : State) : Result := .next s

end Sys2Proof.Machine
end

