-- ==== Sys2Proof/Machine/Ready.lean ====
section
/-! DEFINITION. When a command is ready, the resources it names, and its start (02, R43, R44, R46; 03, R69, R70; 06,
R144; 13, R288; 15, R319, R320; 16, R350). -/

namespace Sys2Proof.Machine

/-! ### Trees and contexts that name a tile (R319, R320) -/

/-- This module's view of a tree: parent port, child ports, tile of the context (R320). -/
structure View where
  parent : Option Nat
  kids : List Nat
  tile : Nat
  deriving DecidableEq, Repr

/-- The in-service tile at an I/O die or at the next higher one, wrapping to X0 (R320, R386). -/
def State.placeTile (s : State) (x : Nat) : Nat :=
  let n := max 1 s.nIoDies
  ((List.range n).map (fun i => (x + i) % n)).find? (fun y => (s.tile y).inService) |>.getD x

def State.view (s : State) (collId : W32) : View :=
  let t := tabGet {} s.coll.trees (collId.toNat % 64)
  let kids := bitsSet t.children.toNat 24
  let parent := if t.parent = 0x1F then none else some t.parent
  { parent := parent, kids := kids, tile := s.placeTile ((parent.getD (kids.headD 0)) / 4) }

def CollCtx.is (c : CollCtx) (kind : Nat) (collId : W32) (step : W32) (epoch : W16) : Bool :=
  c.kind == kind && c.collId == collId && c.step == step && c.epoch == epoch

/-- Two contexts carry one identity. -/
def CollCtx.same (a b : CollCtx) : Bool := a.is b.kind b.collId b.step b.epoch

def State.findColl (s : State) (kind : Nat) (collId step : W32) (epoch : W16) : Option CollCtx :=
  s.coll.ctxs.find? (fun c => c.is kind collId step epoch)

/-- The barrier open under a COLL_ID: its frames carry no epoch (R319, R334; log 41). -/
def State.findBarrier (s : State) (collId : W32) : Option CollCtx :=
  s.coll.ctxs.find? (fun c => c.kind == 2 && c.collId == collId)

/-- Open contexts of a tile. -/
def State.openOn (s : State) (x : Nat) : Nat := (s.coll.ctxs.filter (fun c => c.tile == x)).length

/-! ### Resources (R69) -/

/-- Arrays of a gang (R141). -/
def gangSize (shape : Nat) : Nat := if shape ≤ 1 then 1 else if shape ≤ 3 then 2 else 4

/-- The edge ports of an array command's arrays are free since (R144); a command that names no such gang of the die
names no ports. -/
def State.arrayResources (s : State) (c : Cmd) : Option Nat :=
  let die := c.param 0 1
  let shape := c.param 2 1
  let gang := if shape ≤ 4 ∧ die < 12 then ((List.range (gangSize shape)).map (fun i => c.param 1 1 + i)).filter
      (fun a => decide (a < 32)) else []
  if gang.all (fun a => (s.array die a).edgeQ.isEmpty) then
    some (gang.foldl (fun t a => max t (s.array die a).edgeFree) 0)
  else none

/-- A context of the tile is free, or already open under this identity (R319; log 41): since when. -/
def State.contextFree (s : State) (isOpen : Option CollCtx) (collId : W32) : Option Nat :=
  let x := (s.view collId).tile
  if isOpen.isSome then some 0
  else if s.openOn x < 16 then some (s.tile x).freeSince
  else none

/-- The channel that a DMA_START names is free since then, `none` while it is held (R350, R69). -/
def State.channelFree (s : State) (c : Cmd) : Option Nat :=
  let n := c.param 0 2
  if 192 ≤ n then some 0
  else match (s.channel n).cmd with
    | none => some (s.channel n).freeAt
    | some ref => if (s.findCmd ref).isSome then none else some (s.channel n).freeAt

/-- STEP_COMMIT is not ready until the verdict for its STEP has arrived (R288). -/
def State.commitResources (s : State) (c : Cmd) : Option Nat :=
  (s.commit.verdicts.find? (fun v => v.1.toNat == c.param 0 4)).map (·.2)

def Layer.slot (l : Layer) (i : Nat) : VSlot := tabGet {} l.slots i

/-- The slot in a state, of a state that only one slot of a layer can be in (R224). -/
def Layer.stateIdx (l : Layer) (st : VState) : Option Nat := (List.range 8).find? (fun i => (l.slot i).state == st)

/-- The part of an UPDATE_LAYER belongs to the open step: it has not run in it and STEP_VERDICT has not started (R270,
R271). -/
def State.ofOpenStep (s : State) (c : Cmd) : Bool :=
  let l := s.layer (c.param 2 2)
  !(l.parts.any (fun x => x.part == c.param 4 2)) && (l.stateIdx .provisional).isNone && !s.step.started

/-- An UPDATE_LAYER that has started, has not completed and belongs to the open step (R270, R287). -/
def State.updateOfStep (s : State) (c : Cmd) : Bool :=
  c.opcode == 0x40 && c.start.isSome && (c.work != .waiting .update || s.ofOpenStep c)

/-- What keeps an UPDATE_LAYER from running, as an idle cause (R271): a part that already ran or a version that it does
not belong to, no FREE slot, a started verdict, an unread skim record. -/
def updateCause (s : State) (c : Cmd) : Option Nat :=
  let l := s.layer (c.param 2 2)
  if l.parts.any (fun p => p.part == c.param 4 2) || (l.stateIdx .provisional).isSome then some 0xB
  else if (l.stateIdx .writing).isNone && (l.stateIdx .free).isNone then some 3
  else if s.step.started then some 0xB
  else if l.skimPending then some 6
  else none

/-! ### Waits of the update engine (R271, R274) -/

/-- The wait of a part under R271: the ticks counted, since when its present condition has held or been absent, whether
one holds, and whether one held past the TIMEOUT. -/
def Cmd.updWait (c : Cmd) : Nat × Nat × Bool × Bool :=
  match c.aux with
  | [ticks, since, held, late] => (ticks, since, held == 1, late == 1)
  | _ => (0, 0, false, false)

/-- Ticks that a part has spent waiting under R271, which a busy engine's are not. -/
def State.updWaited (s : State) (c : Cmd) : Nat :=
  let (ticks, since, held, _) := c.updWait
  if held then ticks + (s.tide - since) else ticks

/-- A part that is still waiting under R271 once its TIMEOUT has passed (R271). -/
def State.updLate (s : State) (c : Cmd) : Bool :=
  let (_, _, held, late) := c.updWait
  late || (held && c.deadline.any (fun d => decide (d < s.tide)))

/-- The wait of a part as it stands from now on. -/
def State.updMark (s : State) (c : Cmd) (held : Bool) : List Nat :=
  [s.updWaited c, s.tide, b2n held, b2n (s.updLate c)]

/-- The conditions of R271 have come or gone for a part that waits: the ticks of the wait are counted up to here. -/
def State.tickUpdate (s : State) (c : Cmd) : Cmd :=
  let held := (updateCause s c).isSome
  if c.opcode == 0x40 && c.work == .waiting .update && c.updWait.2.2.1 != held then { c with aux := s.updMark c held } else c

/-- Every part that waits follows a change of what R271 names. -/
def State.tickUpdates (s : State) : State :=
  { s with host := { s.host with rings := s.host.rings.map (fun e =>
      (e.1, { e.2 with cmds := e.2.cmds.map s.tickUpdate })) } }

/-- STEP_VERDICT is not ready while an update of the step runs or a version that has not failed is WRITING (R287). -/
def State.verdictReady (s : State) (c : Cmd) : Option Nat :=
  if c.param 0 4 ≠ s.commit.stepNumber.toNat then some 0
  else if s.allCmds.any s.updateOfStep || s.layers.any (fun e => !e.2.failed && (e.2.stateIdx .writing).isSome) then none
  else some s.step.lastUpdate

/-- Tidemark since which the resources that a command names are free, `none` while one is not (R69). -/
def State.resourcesOf (s : State) (c : Cmd) : Option Nat :=
  let op := c.opcode
  if op = 0x10 ∨ op = 0x11 ∨ op = 0x12 ∨ op = 0x13 then s.arrayResources c
  else if op = 0x41 then s.verdictReady c
  else if op = 0x42 then s.commitResources c
  else if op = 0x50 then
    (let id := BitVec.ofNat 32 (c.param 4 4)
     s.contextFree (s.findColl 0 id (BitVec.ofNat 32 (c.param 8 4)) (BitVec.ofNat 16 (c.param 0x0C 2))) id)
  else if op = 0x51 then
    (let id := BitVec.ofNat 32 (c.param 4 4)
     if c.param 1 1 = 2 then some 0 else s.contextFree (s.findColl 1 id 0 (BitVec.ofNat 16 (c.param 8 2))) id)
  else if op = 0x53 then (let id := BitVec.ofNat 32 (c.param 4 4); s.contextFree (s.findBarrier id) id)
  else if op = 0x60 then s.channelFree c
  else if op = 0x62 then
    (let id := BitVec.ofNat 32 (c.param 4 4)
     if (s.view id).parent.isNone then some 0 else s.contextFree (s.findColl 1 id 0 s.commit.layoutEpoch) id)
  else some 0

/-! ### Readiness (R43, R44, R46, R69, R70) -/

/-- Tidemark since which the front command's own conditions hold, `none` while one does not (R43, R69). -/
def State.readySince (s : State) (c : Cmd) : Option Nat :=
  let x := s.ring c.ring
  let waits := bitsSet c.waitMask.toNat 64
  let earlier := x.cmds.takeWhile (fun d => d.fetchOrder != c.fetchOrder)
  match c.oldestSince, s.resourcesOf c with
  | some t0, some tr =>
    if waits.all (fun j => s.signal j) && (!c.afterPrior || earlier.isEmpty)
        && !(earlier.any (fun d => cmdBlocks d)) then
      let ts := waits.foldl (fun m j => max m (tabGet 0 s.host.signalTide j)) (max t0 tr)
      some (max (max ts x.blockedUntil) (if c.afterPrior then x.lastTide else 0))
    else none
  | _, _ => none

/-- The Tidemark that follows an event, 0 where there was none: what the event causes is stamped no earlier (R46). -/
def afterEvent (t : Nat) : Nat := if t = 0 then 0 else t + 1

/-- The events whose outcome the start takes as input lie before it: the signals it waits for, the completion that it
follows, the release of its resources (R46). -/
def State.causesPast (s : State) (c : Cmd) : Bool :=
  let x := s.ring c.ring
  (bitsSet c.waitMask.toNat 64).all (fun j => decide (afterEvent (tabGet 0 s.host.signalTide j) ≤ s.tide)) &&
    decide (afterEvent x.blockedUntil ≤ s.tide) && (!c.afterPrior || decide (afterEvent x.lastTide ≤ s.tide)) &&
    decide (afterEvent ((s.resourcesOf c).getD 0) ≤ s.tide)

/-- Last Tidemark at which the command may start (R70). -/
def Cmd.limit (c : Cmd) : Option Nat :=
  if c.waitTimeout = 0 then none else some (c.oldestSince.getD 0 + 1000 * c.waitTimeout)

/-- The command became ready, its launch Tidemark included, before its wait timed out (R70). -/
def State.inTime (s : State) (c : Cmd) : Bool :=
  match s.readySince c, c.limit with
  | none, _ => false
  | some _, none => true
  | some t, some l => decide (max t c.launch ≤ l)

/-- The front command of the ring may start now: the module is ready, the core serves, the command is ready, its launch
Tidemark has come, and its wait has not timed out (R43, R44, R46, R69, R70). -/
def State.mayStart (s : State) (c : Cmd) : Bool :=
  s.power.ready && !s.ringPaused c.ring && decide (c.launch ≤ s.tide) && s.inTime c && s.causesPast c

/-- A command of a lower source that may start now would consume one of the signals that this one would (R69). -/
def State.yields (s : State) (c : Cmd) : Bool :=
  c.waitConsume && (List.range c.ring).any (fun r => match (s.ring r).front with
    | none => false
    | some d => d.waitConsume && (c.waitMask &&& d.waitMask) != 0 && s.mayStart d)

/-- The command starts (R43, R69): its start Tidemark, a late launch counted, the signals of WAIT_MASK consumed where
it says so; the next command becomes the oldest. -/
def State.begin (s : State) (c : Cmd) (readyAt : Nat) : Cmd × State :=
  let late := decide (c.launch ≠ 0) && decide (c.launch < readyAt)
  let c' := { c with start := some s.tide, startOrder := s.host.nextStart, late := late }
  let s := { s with
    host := { s.host with nextStart := s.host.nextStart + 1 }
    time := if late then { s.time with lateLaunches := satAdd 32 s.time.lateLaunches 1 } else s.time }
  let s := s.modCmd c.ref (fun _ => c')
  let s := if c.waitConsume then s.clearSignals c.waitMask else s
  (c', s.refreshOldest c.ring)

/-- The front command of a ring, started, if it has this opcode and may start. -/
def State.take (s : State) (r opcode : Nat) : Option (Cmd × State) :=
  match (s.ring r).front with
  | none => none
  | some c =>
    if c.opcode = opcode && s.mayStart c && !s.yields c then some (s.begin c ((s.readySince c).getD 0)) else none

end Sys2Proof.Machine
end

