-- ==== Sys2Proof/Machine/Crc.lean ====
section
/-! DEFINITION. The check-value algorithms of R364. The running value is the CRC register before the final XOR. -/

namespace Sys2Proof.Machine

/-- One bit of a reflected 32-bit CRC. -/
def crcShiftR (poly c : Nat) : Nat := if c % 2 = 1 then (c / 2) ^^^ poly else c / 2

/-- One bit of an unreflected 64-bit CRC. -/
def crcShiftL (poly c : Nat) : Nat :=
  if c / 2 ^ 63 % 2 = 1 then (c * 2 % 2 ^ 64) ^^^ poly else c * 2 % 2 ^ 64

def crcRepeat (f : Nat → Nat) : Nat → Nat → Nat
  | 0, c => c
  | n + 1, c => crcRepeat f n (f c)

/-- One byte absorbed by an algorithm of R364: 0 CRC-32C, 1 CRC-32, 2 CRC-64. -/
def crcByte (algo c : Nat) (b : Byte) : Nat :=
  if algo = 2 then crcRepeat (crcShiftL 0x42F0E1EBA9EA3693) 8 (c ^^^ (b.toNat * 2 ^ 56))
  else crcRepeat (crcShiftR (if algo = 1 then 0xEDB88320 else 0x82F63B78)) 8 (c ^^^ b.toNat)

def crcAbsorb (algo c : Nat) (bs : List Byte) : Nat := bs.foldl (crcByte algo) c

def crcInit (algo : Nat) : Nat := if algo = 2 then 0 else 0xFFFFFFFF

/-- Result of a running value: the final XOR (R364). -/
def crcResult (algo c : Nat) : Nat := if algo = 2 then c else c ^^^ 0xFFFFFFFF

/-- CRC-32C of a byte string (R362). -/
def crc32c (bs : List Byte) : Nat := crcResult 0 (crcAbsorb 0 (crcInit 0) bs)

end Sys2Proof.Machine
end

