-- ==== Sys2Proof/Machine/Rings.lean ====
section
/-! DEFINITION. Rings, packets, result slots, and the resets of the host side (03). -/

namespace Sys2Proof.Machine

/-! ### The opcode table (R80) -/

/-- Rings on which an opcode is allowed. -/
inductive RingClass where
  | any | zero | stage
  deriving DecidableEq, Repr

def ringAllowed (k : RingClass) (r : Nat) : Bool :=
  match k with
  | .any => true
  | .zero => r = 0
  | .stage => r != 0

/-- The opcodes with their rings and parameter lengths in units of 64 bytes (R80). -/
def opcodeTable : List (Nat × RingClass × Nat) :=
  [(0x01, .any, 0), (0x02, .any, 1), (0x03, .any, 1), (0x04, .any, 1), (0x05, .any, 1),
   (0x10, .stage, 2), (0x11, .stage, 2), (0x12, .stage, 2), (0x13, .stage, 2), (0x14, .stage, 2), (0x15, .stage, 1),
   (0x20, .stage, 1), (0x21, .stage, 1), (0x22, .stage, 1), (0x23, .stage, 1),
   (0x30, .stage, 1), (0x31, .stage, 1), (0x32, .stage, 2), (0x33, .stage, 1)] ++
  [(0x40, .stage, 2), (0x41, .zero, 1), (0x42, .zero, 1), (0x43, .zero, 1), (0x44, .zero, 1),
   (0x50, .stage, 2), (0x51, .stage, 2), (0x52, .zero, 2), (0x53, .any, 1),
   (0x60, .any, 1), (0x61, .any, 1), (0x62, .zero, 1),
   (0x70, .zero, 2), (0x71, .zero, 1), (0x72, .zero, 1), (0x73, .zero, 1), (0x74, .zero, 1),
   (0x80, .zero, 1), (0x81, .zero, 0), (0x82, .zero, 2),
   (0xF0, .any, 1), (0xF1, .any, 1), (0xF2, .any, 1)]

def opcodeInfo (op : Nat) : Option (RingClass × Nat) := (opcodeTable.find? (fun e => e.1 == op)).map (·.2)

/-! ### The packet header (R67) -/

/-- Reserved bits of the header, as masks of its bytes in ascending order (R67). -/
def headerReserved : List (Nat × Nat) :=
  [(1, 0xF8), (5, 0xFC), (28, 0x40), (29, 0xFE), (30, 0xFF), (31, 0xFF)] ++
  (List.range 20).map (fun i => (40 + i, 0xFF))

/-- Lowest header byte that carries a nonzero reserved bit (R465). -/
def headerReservedAt (p : List Byte) : Option Nat :=
  (headerReserved.find? (fun m => fieldAt p m.1 1 &&& m.2 != 0)).map (·.1)

/-- Whether CHECK matches: CRC-32C over the whole packet with the field zeroed (R67). -/
def checkMatches (p : List Byte) : Bool :=
  crc32c (p.take 60 ++ [0, 0, 0, 0] ++ p.drop 64) == fieldAt p 60 4

/-- The command of a packet (R67). -/
def packetCmd (r : Nat) (p : List Byte) (tide order : Nat) (prior : Prior) : Cmd :=
  let flags := fieldAt p 1 1
  let slot := fieldAt p 6 2
  { ring := r
    seq := BitVec.ofNat 16 (fieldAt p 2 2)
    opcode := fieldAt p 0 1
    int := flags.testBit 0
    afterPrior := flags.testBit 1
    slot := if slot = 0xFFFF then none else some slot
    launch := fieldAt p 8 8
    waitMask := BitVec.ofNat 64 (fieldAt p 16 8)
    waitTimeout := fieldAt p 24 4
    doneSignal := if (fieldAt p 28 1).testBit 7 then some (fieldAt p 28 1 % 64) else none
    waitConsume := (fieldAt p 29 1).testBit 0
    cookie := BitVec.ofNat 64 (fieldAt p 32 8)
    params := p.drop 64
    fetchTide := tide
    fetchOrder := order
    prior := prior }

/-- Checks 6 and 7 of R71, in the order of R465: status and DETAIL of the first that fails. -/
def headerCheck (r : Nat) (p : List Byte) : Option (Status × Nat) :=
  match opcodeInfo (fieldAt p 0 1) with
  | none => some (.notSupported, 0)
  | some (k, len) =>
    if !ringAllowed k r then some (.badParam, 0)
    else if fieldAt p 5 1 % 4 != len then some (.badParam, 5)
    else if fieldAt p 4 1 != (if r = 0 then 0xFF else r - 1) then some (.badParam, 4)
    else (headerReservedAt p).map (fun o => (.badParam, o))

/-! ### Fetching (R64, R65, R71 to R73, R77) -/

/-- Accepted commands that have not completed and leave a trace (R73, R61). -/
def Ring.inFlight (x : Ring) : Nat := (x.cmds.filter (fun c => !c.silent)).length

/-- The ring halts: it stops fetching and raises vector 17 (R65). -/
def State.halt (s : State) (r cause : Nat) : State :=
  (s.modRing r (fun x => { x with halted := true, haltCause := cause })).raise 17

/-- Ready slots whose ring has fetched 65,536 further packets are freed (R77). -/
def State.wrapSlots (s : State) (r : Nat) : State :=
  { s with host := { s.host with slots := s.host.slots.filter (fun e =>
      !(e.1 / 1024 == r && e.2.ready && decide (e.2.readyAt + 65536 ≤ (s.ring r).everFetched))) } }

/-- A packet is consumed (R72). -/
def State.consume (s : State) (r units : Nat) : State :=
  (s.modRing r (fun x => { x with
    head := x.head + BitVec.ofNat 32 units
    fetched := x.fetched + 1
    everFetched := x.everFetched + 1
    nextSeq := x.nextSeq + 1 })).wrapSlots r

/-- A rejected packet (R72). -/
def State.reject (s : State) (r : Nat) (p : List Byte) (st : Status) : State :=
  (s.modRing r (fun x => { x with
    rejects := satAdd 16 x.rejects 1
    reject := { seq := BitVec.ofNat 16 (fieldAt p 2 2), status := st.code, opcode := fieldAt p 0 1,
                slot := fieldAt p 6 2 } })).raise 17

/-- The named slot becomes pending (R72, R74). -/
def State.pendSlot (s : State) (c : Cmd) : State :=
  match c.slot with
  | none => s
  | some k => s.setSlot c.ring k { seq := c.seq, opcode := c.opcode, cookie := c.cookie }

/-- An accepted command joins its ring, as the latest consumed packet (R72, R82). -/
def State.accept (s : State) (c : Cmd) : State :=
  let s := { s with host := { s.host with nextFetch := s.host.nextFetch + 1 } }
  let s := s.pendSlot c
  let s := s.modRing c.ring (fun x => { x with cmds := x.cmds ++ [c], prior := .running c.fetchOrder })
  s.refreshOldest c.ring

/-- A whole packet passes through checks 2 to 7 of R71. It counts toward the 65,536 of R77 before its own check 5 (the
model's choice, log 59). -/
def State.checkPacket (s : State) (r : Nat) (p : List Byte) (units : Nat) : State :=
  let slot := fieldAt p 6 2
  if (fieldAt p 1 1).testBit 2 && !checkMatches p then s.halt r 2
  else if fieldAt p 2 2 != (s.ring r).nextSeq.toNat then s.halt r 1
  else
    let s := s.consume r units
    if slot != 0xFFFF && decide (1023 < slot) then s.reject r p .badParam
    else if slot != 0xFFFF && (s.slot r slot).isSome then s.reject r p .busy
    else
      let c := packetCmd r p s.tide s.host.nextFetch (s.ring r).prior
      let s' := s.accept c
      match headerCheck r p with
      | none => s'
      | some (st, detail) => s'.complete c st detail []

/-- Whether the ring fetches: enabled, not halted, served, with units below TAIL and room for a command (R62 to R65,
R73, R385). -/
def State.fetching (s : State) (r : Nat) : Bool :=
  let x := s.ring r
  x.enable && !x.halted && s.power.ready && !s.ringPaused r && x.tail != x.head && decide (x.inFlight < 256)

/-- Host address of unit u of a ring (R62). -/
def Ring.unitAddr (x : Ring) (u : W32) : Nat := (x.base.toNat + 64 * (u.toNat % 2 ^ x.sizeLog2)) % 2 ^ 64

/-- The first `n` units from HEAD, as host memory answers for their addresses; `none` where one read fails. -/
def Ring.readUnits (x : Ring) (host : List (Nat × List Byte)) (n : Nat) : Option (List Byte) :=
  ((List.range n).map (fun i => ((host.find? (fun u => u.1 == x.unitAddr (x.head + BitVec.ofNat 32 i))).map
    (fun u => padTo 64 u.2)))).foldr (fun u acc => u.bind (fun b => acc.map (fun bs => b ++ bs))) (some [])

/-- PACKET_FETCH (R62, R64, R65, R71): `host` is what host memory holds at the addresses that answer; a read of any
other address ends in an error or a timeout. -/
def execPacketFetch (dt : Nat) (ring : Fin 17) (host : List (Nat × List Byte)) (s : State) : Result :=
  let s := s.advance dt
  if !s.fetching ring then s.idle
  else
    let x := s.ring ring
    match x.readUnits host 1 with
    | none => .next (s.halt ring 5)
    | some h =>
      let units := 1 + fieldAt h 5 1 % 4
      if units = 4 then .next (s.halt ring 3)
      else if (x.tail - x.head).toNat < units then s.idle
      else match x.readUnits host units with
        | none => .next (s.halt ring 5)
        | some p => .next (s.checkPacket ring p units)

/-- COALESCE_TIMEOUT (R79). -/
def execCoalesceTimeout (dt : Nat) (ring : Fin 17) (s : State) : Result :=
  let s := s.advance dt
  let x := s.ring ring
  if x.pendingInts = 0 || x.coalesceTime = 0 || decide (s.tide < x.oldestInt + 1000 * x.coalesceTime) then s.idle
  else .next (s.sendRingInt ring)

/-! ### Ring registers (R62 to R66) -/

def ringControlWord (x : Ring) : Nat := b2n x.enable + x.sizeLog2 * 2 ^ 8 + x.vector * 2 ^ 16 + b2n x.wbEn * 2 ^ 24

def ringHeadWord (x : Ring) : Nat := x.head.toNat + x.fetched.toNat * 2 ^ 32

def ringStatusWord (x : Ring) : Nat :=
  b2n (x.enable && !x.halted) + 2 * b2n x.halted + x.haltCause * 2 ^ 4 + x.core * 2 ^ 8 + x.nextSeq.toNat * 2 ^ 16 +
    x.rejects * 2 ^ 32 + min x.inFlight 256 * 2 ^ 48

def ringRejectWord (x : Ring) : Nat :=
  x.reject.seq.toNat + x.reject.status * 2 ^ 16 + x.reject.opcode * 2 ^ 24 + x.reject.slot * 2 ^ 32

def ringDoneWord (x : Ring) : Nat := x.completed.toNat + low32 x.lastTide * 2 ^ 32

/-- Registers of the ring block (R62); RESET reads 0, a reset being whole. -/
def ringWord (x : Ring) (off : Nat) : Nat :=
  if off = 0x00 then x.base.toNat
  else if off = 0x08 then ringControlWord x
  else if off = 0x18 then ringHeadWord x
  else if off = 0x20 then ringStatusWord x
  else if off = 0x28 then ringRejectWord x
  else if off = 0x30 then x.wbAddr.toNat
  else if off = 0x38 then x.coalesceCount + x.coalesceTime * 2 ^ 16
  else if off = 0x40 then ringDoneWord x
  else 0

/-- A dropped command's slot becomes ready with ABORTED, one that a RELEASE marked too: a ring reset frees no slot. The
drop has no other trace (R66, R77, log 23). -/
def State.dropUnstarted (s : State) (r : Nat) : State :=
  let gone := (s.ring r).unstarted
  let s := s.modRing r (fun x => { x with cmds := x.started })
  gone.foldl (fun st c => st.readySlot c .aborted 0 []) s

/-- Ring reset (R66). The model's own choices (log 59): HALT_CAUSE clears with HALTED, pending completion interrupts
stay, and the feeders of started array commands go on (R66 lets started commands run to completion, R122 would stop
them). -/
def State.resetRing (s : State) (r : Nat) : State :=
  (s.dropUnstarted r).modRing r (fun x => { x with
    enable := false, head := 0, tail := 0, fetched := 0, nextSeq := 0, rejects := 0, completed := 0,
    halted := false, haltCause := 0, prior := .none })

/-- A doorbell (R64). On a ring that is halted an overrun changes nothing more (the model's choice, log 59). -/
def State.doorbell (s : State) (r : Nat) (tail : W32) : State :=
  let x := s.ring r
  if x.tail = tail then s
  else
    let s := s.modRing r (fun x => { x with tail := tail })
    if decide (2 ^ x.sizeLog2 < (tail - x.head).toNat) && !x.halted then s.halt r 4 else s

/-- A write's value and mask as seen by its 64-bit register: the register's offset, the value and the mask. -/
def regPart (off size : Nat) (v : W64) : Nat × W64 × W64 :=
  if size = 8 then (off, v, BitVec.allOnes 64)
  else if off % 8 = 4 then (off - 4, v <<< 32, BitVec.ofNat 64 0xFFFFFFFF00000000)
  else (off, v &&& BitVec.ofNat 64 0xFFFFFFFF, BitVec.ofNat 64 0xFFFFFFFF)

/-- The value a register takes from a masked write. -/
def maskedWrite (old v mask : W64) : W64 := (old &&& ~~~mask) ||| (v &&& mask)

/-- A write of RING_CONTROL (R63, R66): SIZE_LOG2 only while ENABLE is 0; ENABLE only while READY is 1 and SIZE_LOG2
lies in 6 to 16; RESET after the other fields. -/
def State.writeRingControl (s : State) (r off : Nat) (v mask : W64) : State :=
  let x := s.ring r
  let new := (maskedWrite (BitVec.ofNat 64 (ringControlWord x)) v mask).toNat
  let size := bits new 8 5
  let s := if x.enable && size != x.sizeLog2 then s.discardedWrite off v else s
  let s := s.modRing r (fun x => { x with
    sizeLog2 := if x.enable then x.sizeLog2 else size
    vector := bits new 16 6
    wbEn := new.testBit 24 })
  let x := s.ring r
  let want := new.testBit 0
  let refuse := want && !x.enable && !(s.power.ready && decide (6 ≤ x.sizeLog2) && decide (x.sizeLog2 ≤ 16))
  let s := if refuse then s.discardedWrite off v else s
  let s := s.modRing r (fun x => { x with enable := want && !refuse })
  if (v &&& mask).toNat.testBit 1 then s.resetRing r else s

/-- A write to a ring block; `none` where it is discarded (R453 to R456). A COALESCE.COUNT lowered to the pending count
or below sends nothing until the next completion or the time limit (the model's choice, log 59). -/
def State.writeRing (s : State) (r off size : Nat) (value : W64) : Option State :=
  let (reg, v, mask) := regPart (off % 0x100) size value
  if reg = 0x00 then
    (if size = 8 && !(s.ring r).enable then
      some (s.modRing r (fun x => { x with base := v &&& ~~~(BitVec.ofNat 64 0xFFF) })) else none)
  else if reg = 0x08 then some (s.writeRingControl r off v mask)
  else if reg = 0x10 then (if off % 8 = 4 then some s else some (s.doorbell r (v.truncate 32)))
  else if reg = 0x30 then
    (if size = 8 then some (s.modRing r (fun x => { x with wbAddr := v &&& ~~~(BitVec.ofNat 64 0x3F) })) else none)
  else if reg = 0x38 then
    some (s.modRing r (fun x =>
      let w := (maskedWrite (BitVec.ofNat 64 (x.coalesceCount + x.coalesceTime * 2 ^ 16)) v mask).toNat
      { x with coalesceCount := bits w 0 16, coalesceTime := bits w 16 16 }))
  else none

/-! ### Result slots (R74 to R77) -/

/-- The sixteen words of a slot (R74, R75). -/
def slotWords (r : Nat) : Option Slot → List W64
  | none => BitVec.ofNat 64 1 :: List.replicate 15 0
  | some x =>
    let state := if x.ready then 2 else if x.marked then 3 else 1
    let head := x.seq.toNat * 2 ^ 16 + x.opcode * 2 ^ 32 + r * 2 ^ 40 + x.readCount * 2 ^ 48 + state * 2 ^ 8
    if x.ready then
      ([head + x.status.code + b2n x.late * 2 ^ 10, x.startTide, x.doneTide, x.configEpoch.toNat + x.stepNumber.toNat * 2 ^ 32,
        x.cookie.toNat, x.detail, 0, 0] ++ (List.range 8).map (fun i => fieldAt x.body (8 * i) 8)).map (BitVec.ofNat 64)
    else
      [BitVec.ofNat 64 (head + 1), 0, 0, 0, x.cookie] ++ List.replicate 11 0

/-- A read of offset 0x00 of a slot: READ_COUNT, and the snapshot of R76. -/
def State.readSlot0 (s : State) (r slot : Nat) : State :=
  let x := (s.slot r slot).map (fun y => { y with readCount := satAdd 16 y.readCount 1 })
  let s := match x with
    | none => s
    | some y => s.setSlot r slot y
  s.modRing r (fun y => { y with window := some (slot, slotWords r x) })

/-- What word `i` of a slot reads as at an offset other than 0x00 (R76). -/
def State.slotWord (s : State) (r slot i : Nat) : W64 :=
  match (s.ring r).window with
  | some (k, ws) => if k = slot then ws.getD i 0 else (slotWords r (s.slot r slot)).getD i 0
  | none => (slotWords r (s.slot r slot)).getD i 0

/-! ### Function-level reset and PERST_N (R61, R457) -/

/-- The host-port side of a reset: rings, slots, signals and pending interrupts. Started commands go on without a
trace. The core that serves a ring is not a matter of the reset (R62). -/
def State.hostReset (s : State) : State :=
  let rings := s.host.rings.map (fun e =>
    (e.1, { ringReset e.1 with
      core := e.2.core
      cmds := e.2.started.map (fun c => { c with silent := true })
      everFetched := e.2.everFetched }))
  { s with host := { s.host with rings := rings, slots := [], signals := 0, signalTide := [], held := [] } }

end Sys2Proof.Machine
end

