-- ==== Sys2Proof/Machine/Basic.lean ====
section
/-! DEFINITION. The opcodes that 03 itself defines, NOP to RELEASE, and the Tidemark registers that QUERY reads (02). -/

namespace Sys2Proof.Machine

/-! ### Tidemark and commit registers (02) -/

def tideStatusWord (s : State) : Nat :=
  b2n s.time.aligned + s.time.source * 2 + b2n s.conf.isReference * 2 ^ 3 + min s.time.errorEst 255 * 2 ^ 8 +
    s.time.alignLosses * 2 ^ 16 + low32 s.time.lastAlignChange * 2 ^ 32

def tideConfigWord (s : State) : Nat :=
  s.conf.sourceSelect + b2n s.conf.isReference * 2 ^ 2 + b2n s.conf.syncOutEn * 2 ^ 3 + s.conf.refPort * 2 ^ 4 +
    s.conf.syncInDelay * 2 ^ 16

/-- The five COMMIT_STATE registers as they stand (R53). -/
def commitWords (s : State) : List W64 :=
  ([s.commit.lastCommitTide, s.commit.stepNumber.toNat, s.commit.lastStepClose, s.commit.layoutEpoch.toNat,
    s.commit.configEpoch.toNat + low32 s.commit.lastConfigTide * 2 ^ 32] : List Nat).map (BitVec.ofNat 64)

/-! ### NOP, FENCE, WAIT_TIDE, SIGNAL, WAIT_SIGNAL (R81, R82) -/

/-- NOP completes as soon as it starts (R82). -/
def execNop (dt : Nat) (ring : Fin 17) (s : State) : Result :=
  let s := s.advance dt
  match s.take ring 0x01 with
  | none => s.idle
  | some (c, s) => .next (s.complete c .ok 0 [])

/-- Fetched before: by fetch Tidemark, then by ring, then in ring order (R82). -/
def fetchedBefore (a b : Cmd) : Bool :=
  if a.ring = b.ring then decide (a.fetchOrder < b.fetchOrder)
  else decide (a.fetchTide < b.fetchTide) || (a.fetchTide == b.fetchTide && decide (a.ring < b.ring))

/-- Rings that a FENCE names (R81). -/
def fenceNames (c : Cmd) (r : Nat) : Bool :=
  let mask := c.param 0 4
  if mask = 0 then r = c.ring else mask.testBit r

/-- Every command of the named rings that was fetched before the FENCE has completed (R82). -/
def State.fenceDone (s : State) (c : Cmd) : Bool :=
  s.allCmds.all (fun d => !(fenceNames c d.ring && fetchedBefore d c))

/-- The latest completions of the named rings lie before the FENCE's own (R46). -/
def State.fencePast (s : State) (c : Cmd) : Bool :=
  s.host.rings.all (fun e => !fenceNames c e.1 || decide (afterEvent e.2.lastTide ≤ s.tide))

def execFence (dt : Nat) (ring : Fin 17) (s : State) : Result :=
  let s := s.advance dt
  match s.take ring 0x02 with
  | none => s.idle
  | some (c, s) =>
    match lowestFail ((decide (c.param 0 4 < 2 ^ 17), 0) :: reservedBytes c 64 [(0, 4)]) with
    | some o => .next (s.badParam c o)
    | none =>
      if s.fenceDone c && s.fencePast c then .next (s.complete c .ok 0 [])
      else .next (s.setWait c.ref .fence none)

/-- Tidemark at which a WAIT_TIDE completes, once it is known (R82). -/
def Cmd.waitTarget (c : Cmd) : Option Nat :=
  if c.param 8 1 = 0 then some (c.param 0 8)
  else match c.prior with
    | .none => some (c.start.getD 0 + c.param 0 8)
    | .running _ => none
    | .done t => some (t + c.param 0 8)

/-- Whether a Tidemark that may not be known yet has come. -/
def reached (tide : Nat) : Option Nat → Bool
  | none => false
  | some t => decide (t ≤ tide)

def execWaitTide (dt : Nat) (ring : Fin 17) (s : State) : Result :=
  let s := s.advance dt
  match s.take ring 0x03 with
  | none => s.idle
  | some (c, s) =>
    match lowestFail ((decide (c.param 8 1 ≤ 1), 8) :: reservedBytes c 64 [(0, 9)]) with
    | some o => .next (s.badParam c o)
    | none =>
      if reached s.tide c.waitTarget then .next (s.complete c .ok 0 [])
      else .next (s.setWait c.ref (.tide c.waitTarget) c.waitTarget)

/-- WAIT_TIDE_TARGET: the target of the ring's running WAIT_TIDE arrives (R82). -/
def execWaitTideTarget (dt : Nat) (ring : Fin 17) (s : State) : Result :=
  let s := s.advance dt
  match (s.ring ring).started.find? (fun c => c.opcode == 0x03) with
  | none => s.idle
  | some c => if reached s.tide c.waitTarget then .next (s.complete c .ok 0 []) else s.idle

/-- SIGNAL applies its clears, then its sets, and completes (R81, R82). -/
def execSignal (dt : Nat) (ring : Fin 17) (s : State) : Result :=
  let s := s.advance dt
  match s.take ring 0x04 with
  | none => s.idle
  | some (c, s) =>
    match lowestFail (reservedBytes c 64 [(0, 16)]) with
    | some o => .next (s.badParam c o)
    | none =>
      let s := s.clearSignals (BitVec.ofNat 64 (c.param 0 8))
      let s := s.setSignals (BitVec.ofNat 64 (c.param 8 8))
      .next (s.complete c .ok 0 [])

/-- A WAIT_SIGNAL's mask is satisfied (R81). -/
def State.signalsHold (s : State) (c : Cmd) : Bool :=
  let js := bitsSet (c.param 0 8) 64
  if (c.param 8 1).testBit 0 then js.any (fun j => s.signal j) else js.all (fun j => s.signal j)

/-- The setting of the signals that hold it lies before the completion of a WAIT_SIGNAL (R46). -/
def State.signalsPast (s : State) (c : Cmd) : Bool :=
  let past (j : Nat) : Bool := decide (afterEvent (tabGet 0 s.host.signalTide j) ≤ s.tide)
  let js := (bitsSet (c.param 0 8) 64).filter (fun j => s.signal j)
  if (c.param 8 1).testBit 0 then js.any past else js.all past

/-- Completion of a WAIT_SIGNAL: all 64 signals in BODY, then CONSUME (R81, R82). -/
def State.endWaitSignal (s : State) (c : Cmd) : State :=
  let body := toBytes 8 s.host.signals.toNat
  let s := if (c.param 8 1).testBit 1 then s.clearSignals (BitVec.ofNat 64 (c.param 0 8)) else s
  s.complete c .ok 0 body

def execWaitSignal (dt : Nat) (ring : Fin 17) (s : State) : Result :=
  let s := s.advance dt
  match s.take ring 0x05 with
  | none => s.idle
  | some (c, s) =>
    match lowestFail ([(c.param 0 8 != 0, 0), (decide (c.param 8 1 < 4), 8)] ++ reservedBytes c 64 [(0, 9)]) with
    | some o => .next (s.badParam c o)
    | none => if s.signalsHold c && s.signalsPast c then .next (s.endWaitSignal c) else .next (s.setWait c.ref .signals none)

/-! ### QUERY (R83) -/

/-- The answer of a QUERY, or the parameter that fails. -/
def queryAnswer (s : State) (code arg : Nat) : Except Nat (List Byte) :=
  if code = 1 then
    (if 16 < arg then .error 2
     else
      let x := s.ring arg
      .ok (toBytes 8 (ringHeadWord x) ++ toBytes 8 (ringStatusWord x) ++ toBytes 8 (ringDoneWord x)))
  else if code = 2 then
    (let r := arg % 32
     if 16 < r || arg &&& 0xFEE0 != 0 then .error 2
     else
      let half := bits arg 8 1
      .ok (toBytes 64 ((List.range 512).foldl
        (fun acc i => if (s.slot r (512 * half + i)).isSome then acc + 2 ^ i else acc) 0)))
  else if code = 3 then
    (if arg != 0 then .error 2 else .ok ((commitWords s).flatMap (fun w => toBytes 8 w.toNat)))
  else if code = 4 then
    (if arg != 0 then .error 2
     else .ok (toBytes 8 s.host.signals.toNat ++ toBytes 8 s.tide ++ toBytes 8 (tideStatusWord s)))
  else .error 0

/-- A close of the open step whose Tidemark has come and that is not yet applied (R52). -/
def State.closeDue (s : State) : Bool :=
  (s.ring 0).cmds.any (fun c =>
    c.start.isNone && (c.opcode == 0x42 || c.opcode == 0x43) && c.launch != 0 && decide (c.launch ≤ s.tide) &&
      c.param 0 4 == s.commit.stepNumber.toNat)

/-! ### RELEASE (R77, R84) -/

/-- One named slot: freed, marked or already free; the counts so far in that order (R84). -/
def releaseOne (r : Nat) (own : Option Nat) (acc : State × Nat × Nat × Nat) (slot : Nat) : State × Nat × Nat × Nat :=
  let (s, freed, marked, free) := acc
  if own = some slot then acc
  else match s.slot r slot with
    | none => (s, freed, marked, free + 1)
    | some x =>
      if x.ready then (s.freeSlot r slot, freed + 1, marked, free)
      else (s.setSlot r slot { x with marked := true }, freed, marked + 1, free)

def execRelease (dt : Nat) (ring : Fin 17) (s : State) : Result :=
  let s := s.advance dt
  match s.take ring 0xF2 with
  | none => s.idle
  | some (c, s) =>
    let r := c.param 0 1
    let first := c.param 2 2
    let count := c.param 4 2
    match lowestFail ([(decide (r ≤ 16) && (ring.val == 0 || r == ring.val), 0), (decide (first < 1024), 2),
        (decide (1 ≤ count) && decide (count ≤ 1024), 4)] ++ reservedBytes c 64 [(0, 1), (2, 4)]) with
    | some o => .next (s.badParam c o)
    | none =>
      let own := if r = ring.val then c.slot else none
      let (s, freed, marked, free) :=
        ((List.range count).map (fun i => (first + i) % 1024)).foldl (releaseOne r own) (s, 0, 0, 0)
      .next (s.complete c .ok 0 (toBytes 2 freed ++ toBytes 2 marked ++ toBytes 2 free))

end Sys2Proof.Machine
end

