-- ==== Sys2Proof/Machine/Operands.lean ====
section
/-! DEFINITION. Operand forms: address spaces (R133, R171, R204, R267, R349), the far-tier interleave (R26, R208), the
near-tier channels (R206), the diagonal tiled layout (R137 to R139), and the operands of array commands (06, 09). -/

namespace Sys2Proof.Machine

/-! ### Address spaces -/

def nearBytes : Nat := 12 * 2 ^ 30
def storeBytes : Nat := 48 * 2 ^ 20
def landBytes : Nat := 64 * 2 ^ 20

/-- Key of a byte of a compute die's near tier, operand store or landing buffer (SPACE 4, 5 or 6). -/
def dieKey (space die off : Nat) : Nat := space * 2 ^ 60 + die * 2 ^ 56 + off

/-- Key of a far-tier offset. -/
def farKey (off : Nat) : Nat := 2 * 2 ^ 60 + off

/-- Key of a byte of an accumulator memory (SPACE 0xF, R204). -/
def accKey (die array off : Nat) : Nat := 0xF * 2 ^ 60 + die * 2 ^ 56 + array * 2 ^ 48 + off

def addrSpace (a : Nat) : Nat := a / 2 ^ 60
def addrOffset (a : Nat) : Nat := a % 2 ^ 60

/-- Size of a die-local space: near tier, operand store, landing buffer. -/
def dieSpaceBytes (space : Nat) : Nat :=
  if space = 4 then nearBytes else if space = 5 then storeBytes else landBytes

/-- The key of `n` bytes at a command's address, if its SPACE is accepted and the access stays inside the space (R204);
`die` is the command's compute die for SPACE 0 and 1. Host memory (0x7) is keyed apart and ends at offset 2^60
(R349). -/
def State.resolve (s : State) (allowed : List Nat) (die : Option Nat) (addr n : Nat) : Option Nat :=
  let sp := addrSpace addr
  let off := addrOffset addr
  if !allowed.contains sp then none
  else if sp = 0 || sp = 1 then
    match die with
    | none => none
    | some d => if d < 12 && decide (off + n ≤ dieSpaceBytes (sp + 4)) then some (dieKey (sp + 4) d off) else none
  else if sp = 2 then
    (if off + n ≤ popFarGib s.pkg.suffix * 2 ^ 30 then some (farKey off) else none)
  else if sp = 4 || sp = 5 || sp = 6 then
    (let d := addr / 2 ^ 56 % 16
     let o := addr % 2 ^ 56
     if d < 12 && decide (o + n ≤ dieSpaceBytes sp) then some (dieKey sp d o) else none)
  else if sp = 7 then (if off + n ≤ 2 ^ 60 then some (hostKey off) else none)
  else none

/-- Compute die of a key in a die-local space. -/
def keyDie (k : Nat) : Option Nat :=
  let sp := k / 2 ^ 60
  if sp = 4 || sp = 5 || sp = 6 then some (k / 2 ^ 56 % 16) else none

/-- DIE_REPAIR holds the die of a key: accesses to it wait (R205, R391). -/
def State.keyRepaired (s : State) (k : Nat) : Bool :=
  match keyDie k with
  | some d => (s.die d).service == 3
  | none => false

/-- An access to a die that is out of service ends its command with FAULTED, except while DIE_REPAIR holds the die
(R205). -/
def State.keyServed (s : State) (k : Nat) : Bool :=
  match keyDie k with
  | some d => !(s.die d).outOfService || (s.die d).service == 3
  | none => true

/-! ### Routes (R14, R21, R24, R301, R379) -/

/-- Base die of each West far-tier stack of a population (R14, R15). -/
def westStackBase (suffix : Nat) : List Nat :=
  if suffix = 0 then [0, 0, 0, 0, 2, 2, 2, 2] else if suffix = 1 then [0, 0, 2, 2, 2, 2] else [0, 0, 2, 2]

/-- Base die that carries a far-tier stack. -/
def stackBase (suffix f : Nat) : Nat :=
  let west := westStackBase suffix
  if f < west.length then west.getD f 0 else west.getD (f - west.length) 0 + 3

/-- Base die that carries an I/O die (R14, R15). -/
def ioBase (suffix x : Nat) : Nat :=
  let west := if suffix = 0 then [1] else if suffix = 1 then [0, 1] else [0, 1, 2]
  if x < west.length then west.getD x 0 else west.getD (x - west.length) 0 + 3

/-- Base die of an address, where the spec gives its route: a compute die's, or a far-tier stack's. -/
def State.keyBase (s : State) (key : Nat) : Option Nat :=
  if key / 2 ^ 60 = 2 then some (stackBase s.pkg.suffix (farStackOf s.nStacks (key % 2 ^ 60)))
  else (keyDie key).map (fun d => d / 2)

/-- The state of the seam link between two base dies, `none` within a half (R21). -/
def State.seamBetween (s : State) (a b : Nat) : Option LState :=
  if a / 3 = b / 3 then none else some (tabGet {} s.seamTrain (b % 3)).state

/-- State of the seam link that a request from a base die crosses: that of the destination's row; `none` within a half
(R21). -/
def State.crosses (s : State) (b key : Nat) : Option LState :=
  match s.keyBase key with
  | none => none
  | some e => s.seamBetween b e

/-- A link that trains: its ends hold what is routed over it (R24, R379). -/
def LState.trains : LState → Bool
  | .off => false
  | .active => false
  | .down => false
  | _ => true

/-- Traffic from one base die to another does not go on now: the seam link on its route trains, or is DOWN (R21, R24,
R301, R379). -/
def State.baseStops (s : State) (a b : Nat) : Bool := (s.seamBetween a b).any (fun st => st.trains || st == .down)

/-- One key in each 256-byte unit of a range, up to 1,024 units, which meet every stack and channel of the far tier's
interleave (R26) and every channel of a near tier (R206). -/
def blockKeys (key n : Nat) : List Nat :=
  (List.range (min 1024 ((key % 256 + n + 255) / 256))).map (fun i => if i = 0 then key else key / 256 * 256 + 256 * i)

/-- Near-tier channel of an offset (R206). -/
def nearChannelOf (a : Nat) : Nat :=
  let u := a / 256
  bits u 0 6 ^^^ bits u 6 6 ^^^ bits u 12 6 ^^^ bits u 18 6

/-- The near-tier channel of a key pauses while a bank's addresses are redirected (R219, R375, R381). -/
def State.keyPaused (s : State) (key : Nat) : Bool :=
  key / 2 ^ 60 == 4 &&
    !(tabGet ({} : NearChannel) (s.die (key / 2 ^ 56 % 16)).channels (nearChannelOf (key % 2 ^ 56))).paused.isEmpty

/-- The far-tier channel of a key is in its in-service retrain (R222). -/
def State.keyRetrains (s : State) (key : Nat) : Bool :=
  key / 2 ^ 60 == 2 &&
    (let off := key % 2 ^ 60
     let st := s.stack (farStackOf s.nStacks off)
     (tabGet ({} : FarChannel) st.channels (farChannelOf (farWithin s.nStacks off))).state == 1)

/-- The memory of a key takes no access for now: its far-tier channel retrains, or its near-tier channel pauses (R219,
R222). -/
def State.keyHeld (s : State) (key : Nat) : Bool := s.keyRetrains key || s.keyPaused key

/-- An access by a requester at a base die is held for now: its seam link or far-tier channel retrains, its near-tier
channel pauses, or its die is being repaired (R24, R205, R219, R222, R379, R381, R391). -/
def State.rangeWaits (s : State) (b key n : Nat) : Bool :=
  (blockKeys key n).any (fun k => s.keyRepaired k || s.keyHeld k || (s.crosses b k).any LState.trains)

/-- The access crosses a seam link that is DOWN (R301, R359). -/
def State.rangeCut (s : State) (b key n : Nat) : Bool := (blockKeys key n).any (fun k => s.crosses b k == some .down)

/-- An access that does not go on now: it is held, or its route is cut and its traffic stops (R301). -/
def State.rangeStops (s : State) (b key n : Nat) : Bool := s.rangeWaits b key n || s.rangeCut b key n

/-- An access with no requester of its own on the base network is held while what it reaches is (R205, R222, R391). -/
def State.ownStops (s : State) (key n : Nat) : Bool := s.rangeStops ((s.keyBase key).getD 0) key n

/-- Any of several accesses of a requester at a base die does not go on now. -/
def State.anyStops (s : State) (b : Nat) (ranges : List (Nat × Nat)) : Bool := ranges.any (fun r => s.rangeStops b r.1 r.2)

/-- A copy within the package does not go on now: what either end reaches is held, or the route from the source to the
destination is (R21, R24, R205, R222, R379). -/
def State.copyStops (s : State) (src dst n : Nat) : Bool :=
  s.ownStops src n || s.ownStops dst n || (blockKeys src n).any (fun k => s.rangeStops ((s.keyBase k).getD 0) dst n)

/-- A command that names the die completes with FAULTED: the die is DRAINING, or DRAINED (R205, R389). -/
def State.dieRefuses (s : State) (d : Nat) : Bool :=
  (s.die d).service == 1 || ((s.die d).outOfService && (s.die d).service != 3)

/-- A command that names the die waits: DIE_REPAIR holds the die (R205, R391). -/
def State.dieWaits (s : State) (d : Nat) : Bool := (s.die d).service == 3

/-- Number of a far-tier bank (R208). -/
def farBankOf (nStacks a : Nat) : Nat :=
  let w := farWithin nStacks a
  farStackOf nStacks a * 256 + farChannelOf w * 16 + farChannelAddr w / 2 ^ 28

def nearWithin (a : Nat) : Nat := a / 2 ^ 14 * 256 + a % 256

/-! ### Formats in their places (R97, R98) -/

def fmtsTileMm : List Nat := [1, 2, 3, 4, 5, 6, 7, 8]
def fmtsDgradWeight : List Nat := [1, 2, 3, 4, 5, 6, 7]
def fmtsWgradStash : List Nat := [1, 3, 4, 5, 6, 7]
def fmtsForward : List Nat := [0, 1, 2, 3, 4, 5, 6, 7, 8]
def fmtsStash : List Nat := [1, 3, 4, 5, 6, 7]
def fmtsWork : List Nat := [1, 2, 3, 4, 5, 6, 7]

/-- INT8 pairs only with INT8 (R98). -/
def fmtPair (a b : Nat) : Bool := (a == 8) == (b == 8)

/-- MACs per cell per step (R98). -/
def macsOf (a b : Nat) : Nat :=
  if a = 7 && b = 7 then 4 else if a = 1 || a = 2 || b = 1 || b = 2 then 1 else 2

/-- Elements per stationary granule (R137). -/
def granuleOf (fmt : Nat) : Nat := if fmt = 1 || fmt = 2 then 1 else if fmt = 7 then 4 else 2

/-- Bytes of a DTL tile (R137). -/
def tileBytes (fmt : Nat) : Nat := if fmt = 6 then 6144 else 8192

/-- Bytes of a DTL tile's scale plane: 2g for each of 64 columns (R139). -/
def tileScaleBytes (fmt : Nat) : Nat := 128 * granuleOf fmt

/-! ### Parameters of the array commands (R151, R195) -/

/-- The fields of an array command, decoded; `kind` is 0 TILE_MM, 1 TILE_CONV, 2 TILE_DGRAD, 3 TILE_WGRAD. -/
structure ArrParams where
  kind : Nat
  die : Nat
  array : Nat
  shape : Nat
  fa : Nat
  fb : Nat
  slot : Nat
  op : Nat
  trans : Bool
  blockK : Bool
  modeHigh : Nat
  spill : Nat
  m : Nat
  k : Nat
  bAddr : Nat
  bPass : Nat
  bK : Nat
  bN : Nat
  bScale : Nat
  spillAddr : Nat
  deriving DecidableEq, Repr

def arrKind (opcode : Nat) : Nat := opcode - 0x10

def arrParams (c : Cmd) : ArrParams :=
  { kind := arrKind c.opcode
    die := c.param 0x00 1
    array := c.param 0x01 1
    shape := c.param 0x02 1
    fa := c.param 0x03 1 % 16
    fb := c.param 0x03 1 / 16
    slot := c.param 0x04 1
    op := c.param 0x05 1 % 4
    trans := (c.param 0x05 1).testBit 2
    blockK := (c.param 0x05 1).testBit 3
    modeHigh := c.param 0x05 1 / 16
    spill := c.param 0x06 2
    m := c.param 0x08 2
    k := c.param 0x0C 4
    bAddr := c.param 0x10 8
    bPass := c.param 0x18 4
    bK := c.param 0x1C 4
    bN := c.param 0x20 4
    bScale := c.param 0x28 8
    spillAddr := c.param 0x30 8 }

/-- Arrays of a chain: 2 in K128 and Q128. -/
def chainLen (shape : Nat) : Nat := if shape = 2 || shape = 4 then 2 else 1
/-- Column halves: 2 in N128 and Q128. -/
def colHalves (shape : Nat) : Nat := if shape = 3 || shape = 4 then 2 else 1
/-- Columns that the accumulator of an output array writes: 32 in HALF (R142). -/
def outCols (shape : Nat) : Nat := if shape = 1 then 32 else 64
/-- Output arrays (R141). -/
def outArrays (array shape : Nat) : List Nat :=
  if shape = 2 then [array + 1] else if shape = 3 then [array, array + 1]
  else if shape = 4 then [array + 1, array + 3] else [array]

/-- MACs per cell per step of an array command (R98, R189). -/
def arrMacs (p : ArrParams) : Nat := if 2 ≤ p.kind then 1 else macsOf p.fa p.fb
def kPerArray (p : ArrParams) : Nat := 64 * arrMacs p
def kPerPass (p : ArrParams) : Nat := kPerArray p * chainLen p.shape
def passCount (p : ArrParams) : Nat := (p.k + kPerPass p - 1) / kPerPass p
/-- Slots of each output array, ⌈M / 64⌉ (R147). -/
def slotCount (p : ArrParams) : Nat := (p.m + 63) / 64

/-- Position of a gang array: chain position u and column half v (R141). -/
def gangPos (shape i : Nat) : Nat × Nat :=
  if shape = 2 then (i, 0) else if shape = 3 then (0, i) else if shape = 4 then (i % 2, i / 2) else (0, 0)

/-! ### Reading elements (R136, R137 to R139) -/

/-- An element as it enters a cell, and the poisoned words met on the way: DETAIL of R136 and operand address of each.
-/
abbrev Fed := Num × List (Nat × Nat)

/-- Bits of memory, little-endian within the byte string. -/
def State.readBits (s : State) (key bitOff width : Nat) : Nat :=
  let first := bitOff / 8
  let last := (bitOff + width - 1) / 8
  s.readNat (key + first) (last + 1 - first) / 2 ^ (bitOff % 8) % 2 ^ width

/-- The poisoned word met by such a read, as an operand address. -/
def State.poisonBits (s : State) (key addr bitOff width : Nat) : Option Nat :=
  let first := bitOff / 8
  let last := (bitOff + width - 1) / 8
  (s.firstPoison (key + first) (last + 1 - first)).map (fun u => u + addr - key)

/-- Key of a feeder's operand address (R133). -/
def feederKey (die addr : Nat) : Nat := dieKey (addrSpace addr % 2 + 4) die (addrOffset addr)

/-- The poisoned words met by such a read, all of them, as operand addresses. -/
def State.poisonAll (s : State) (key addr bitOff width : Nat) : List Nat :=
  let first := bitOff / 8
  let last := (bitOff + width - 1) / 8
  ((unitsOf (key + first) (last + 1 - first)).filter (fun u => s.unitPoisoned u)).map (fun u => u + addr - key)

/-- One element at a bit offset from an operand address; a poisoned word gives the canonical NaN (R136). -/
def State.fedElem (s : State) (die addr bitOff fmt detail : Nat) : Fed :=
  let key := feederKey die addr
  match s.poisonAll key addr bitOff (fmtBits fmt) with
  | [] => (decodeElem fmt (s.readBits key bitOff (fmtBits fmt)), [])
  | us => (.nan, us.map (fun a => (detail, a)))

/-- The element under an MX scale byte at a byte offset (R91, R96, R136). -/
def State.fedScaled (s : State) (die scaleAddr byteOff : Nat) (x : Fed) : Fed :=
  let key := feederKey die scaleAddr
  match s.poisonAll key scaleAddr (8 * byteOff) 8 with
  | [] => (applyScale (s.readBits key (8 * byteOff) 8) x.1, x.2)
  | us => (.nan, x.2 ++ us.map (fun a => (3, a)))

/-- Bit offset of element q of granule (i, j) of a DTL tile (R137, R139). -/
def dtlBit (fmt i j q : Nat) : Nat :=
  granuleOf fmt * fmtBits fmt * (64 * ((i + j) % 64) + i) + q * fmtBits fmt

/-- Element q of granule (i, j) of a tile at an operand address, with its scale plane (R137 to R139). -/
def State.tileElem (s : State) (die addr scaleAddr fmt i j q detail : Nat) : Fed :=
  let x := s.fedElem die addr (dtlBit fmt i j q) fmt detail
  if fmtIsMx fmt then s.fedScaled die scaleAddr (2 * granuleOf fmt * j + (i * granuleOf fmt + q) / 32) x else x

/-- Address of the stationary tile that serves pass `pass` at chain position u and column half v, as an offset from
B_ADDR (R147, R192, R194). `wsub` is W_SUB of TILE_DGRAD. -/
def tileOffset (p : ArrParams) (wsub pass u v : Nat) : Nat :=
  let l := chainLen p.shape
  let j := pass * l + u
  if p.kind ≤ 1 then
    let t := j / (granuleOf p.fb / arrMacs p)
    t / l * p.bPass + t % l * p.bK + v * p.bN
  else if p.kind = 2 then j * p.bK + (wsub + v) / granuleOf p.fb * p.bN
  else j / granuleOf p.fb * p.bK + v * p.bN

/-- Scale-plane offset of a tile: the element strides × 2e / (64 g) (R151). DESIGN CHOICE (log 29): an MXFP6 offset that
is no multiple of 24 has no whole scale offset, and is rounded down. -/
def tileScaleOffset (p : ArrParams) (off : Nat) : Nat := off * tileScaleBytes p.fb / tileBytes p.fb

/-- Whether row r of a pass lies inside the K extent (R147, R194). -/
def rowActive (p : ArrParams) (pass u r : Nat) : Bool :=
  decide (pass * kPerPass p + u * kPerArray p + r * arrMacs p < p.k)

/-- Element n of the edge word of row r for array column col (R147, R192, R193). -/
def State.edgeElem (s : State) (p : ArrParams) (wsub pass u v r col n : Nat) : Fed :=
  let off := tileOffset p wsub pass u v
  let addr := p.bAddr + off
  let saddr := p.bScale + tileScaleOffset p off
  let g := granuleOf p.fb
  let j := pass * chainLen p.shape + u
  if p.kind ≤ 1 then
    let e := arrMacs p
    let kk := j % (g / e) * 64 * e + r * e + n
    if p.trans then s.tileElem p.die addr saddr p.fb col r (kk % g) 2
    else s.tileElem p.die addr saddr p.fb (kk / g) col (kk % g) 2
  else if p.kind = 2 then
    let kf := 64 * ((wsub + v) % g) + col
    s.tileElem p.die addr saddr p.fb (kf / g) r (kf % g) 2
  else
    let tok := 64 * (j % g) + r
    s.tileElem p.die addr saddr p.fb (tok / g) col (tok % g) 2

/-- The edge word of a row: the elements of each of 64 columns, of an inactive row too. HALF issues zero in columns 32
to 63 and reads nothing for them (R142). -/
def State.edgeWord (s : State) (p : ArrParams) (wsub pass u v r : Nat) : List (List Fed) :=
  (List.range 64).map (fun col =>
    (List.range (arrMacs p)).map (fun n =>
      if outCols p.shape ≤ col then (Num.zero, [])
      else s.edgeElem p wsub pass u v r col n))

/-! ### Broadcast vectors (R147, R150, R194) -/

/-- The parameters of TILE_CONV beyond the common part (R151). -/
structure ConvParams where
  xAddr : Nat
  xScale : Nat
  img : Nat
  row : Nat
  pix : Nat
  cIn : Nat
  h : Nat
  w : Nat
  pOut : Nat
  qOut : Nat
  rK : Nat
  sK : Nat
  strideH : Nat
  strideW : Nat
  dilH : Nat
  dilW : Nat
  padT : Nat
  padL : Nat
  mFirst : Nat
  nImg : Nat
  deriving DecidableEq, Repr

def convParams (c : Cmd) : ConvParams :=
  { xAddr := c.param 0x40 8
    xScale := c.param 0x48 8
    img := c.param 0x50 4
    row := c.param 0x54 4
    pix := c.param 0x58 2
    cIn := c.param 0x5A 2
    h := c.param 0x5C 2
    w := c.param 0x5E 2
    pOut := c.param 0x60 2
    qOut := c.param 0x62 2
    rK := c.param 0x64 1
    sK := c.param 0x65 1
    strideH := c.param 0x66 1
    strideW := c.param 0x67 1
    dilH := c.param 0x68 1
    dilW := c.param 0x69 1
    padT := c.param 0x6A 1
    padL := c.param 0x6B 1
    mFirst := c.param 0x6C 4
    nImg := c.param 0x70 2 }

/-- Input position of element k of output position mm (R150): image, row, column, channel; `none` where it is padding.
-/
def convPos (q : ConvParams) (kTotal mm k : Nat) : Option (Nat × Nat × Nat × Nat) :=
  let n := mm / (q.pOut * q.qOut)
  let p := mm / q.qOut % q.pOut
  let col := mm % q.qOut
  let c := k % q.cIn
  let sx := k / q.cIn % q.sK
  let r := k / (q.cIn * q.sK)
  let h := p * q.strideH + r * q.dilH
  let w := col * q.strideW + sx * q.dilW
  if kTotal ≤ k || decide (h < q.padT) || decide (q.h ≤ h - q.padT) || decide (w < q.padL)
      || decide (q.w ≤ w - q.padL) then none
  else some (n, h - q.padT, w - q.padL, c)

/-- Whether an element of a broadcast is injected as zero without a read (R147, R150, R194). -/
def fedInjected (c : Cmd) (p : ArrParams) (pass u m i : Nat) : Bool :=
  let k := pass * kPerPass p + u * kPerArray p + i
  if p.kind = 1 then (convPos (convParams c) p.k ((convParams c).mFirst + m) k).isNone
  else if p.kind = 0 then decide (p.k ≤ k)
  else decide (p.k ≤ 64 * (pass * chainLen p.shape + u))

/-- Element i of the part of vector m that goes to chain position u in a pass (R147, R150, R194). -/
def State.broadcastElem (s : State) (c : Cmd) (p : ArrParams) (pass u m i : Nat) : Fed :=
  if fedInjected c p pass u m i then (Num.zero, [])
  else
    let k := pass * kPerPass p + u * kPerArray p + i
    if p.kind = 0 then
      let addr := c.param 0x40 8 + m * c.param 0x48 4
      let x := s.fedElem p.die addr (k * fmtBits p.fa) p.fa 1
      if fmtIsMx p.fa then s.fedScaled p.die (c.param 0x50 8 + m * c.param 0x4C 4) (k / 32) x else x
    else if p.kind = 1 then
      let q := convParams c
      match convPos q p.k (q.mFirst + m) k with
      | none => (Num.zero, [])
      | some (n, h, w, ch) =>
        let addr := q.xAddr + n * q.img + h * q.row + w * q.pix
        let x := s.fedElem p.die addr (ch * fmtBits p.fa) p.fa 1
        if fmtIsMx p.fa then
          s.fedScaled p.die q.xScale (((n * q.h + h) * q.w + w) * (q.cIn / 32) + ch / 32) x
        else x
    else
      let j := pass * chainLen p.shape + u
      let gAddr := c.param 0x40 8
      let tok := c.param 0x48 4
      let feat := c.param 0x4C 4
      if p.kind = 2 then s.tileElem p.die (gAddr + m / 64 * tok + j * feat) 0 1 (m % 64) i 0 1
      else s.tileElem p.die (gAddr + j * tok + m / 64 * feat) 0 1 i (m % 64) 0 1

/-- The elements of one array's part of a broadcast. -/
def State.broadcastVector (s : State) (c : Cmd) (p : ArrParams) (pass u m : Nat) : List Fed :=
  (List.range (kPerArray p)).map (fun i => s.broadcastElem c p pass u m i)

/-! ### Parameters of DRAIN (R186) -/

structure DrainP where
  die : Nat
  array : Nat
  slot : Nat
  kind : Nat
  src : Nat
  srcFmt : Nat
  rows : Nat
  cols : Nat
  act : Nat
  mb : Nat
  steps : Nat
  out : Nat
  preCtl : Nat
  postCtl : Nat
  array2 : Nat
  slot2 : Nat
  auxFmt : Nat
  resFmt : Nat
  scaleIn : W32
  scaleOut : W32
  eps : W32
  normCount : Nat
  dest : Nat
  destScale : Nat
  dest2 : Nat
  preOff : Nat
  preScaleOff : Nat
  postOff : Nat
  postScaleOff : Nat
  srcAddr : Nat
  bias : Nat
  res : Nat
  aux : Nat
  rowState : Nat
  stride : Nat
  idxBase : Nat
  dtlK : Nat
  qPos : Nat
  kPos : Nat
  deriving DecidableEq, Repr

/-- A scale factor: the pattern 0 is read as 1.0 (R186). -/
def scaleOr1 (x : Nat) : W32 := if x = 0 then 0x3F800000#32 else BitVec.ofNat 32 x

def drainP (c : Cmd) : DrainP :=
  { die := c.param 0x00 1
    array := c.param 0x01 1
    slot := c.param 0x02 1
    kind := c.param 0x03 1 % 4
    src := c.param 0x03 1 / 4 % 4
    srcFmt := c.param 0x03 1 / 16
    rows := c.param 0x04 1
    cols := c.param 0x05 1
    act := c.param 0x06 1
    mb := c.param 0x07 1
    steps := c.param 0x08 2
    out := c.param 0x0A 1
    preCtl := c.param 0x0B 1
    postCtl := c.param 0x0C 1
    array2 := c.param 0x0D 1
    slot2 := c.param 0x0E 1
    auxFmt := c.param 0x0F 1 % 16
    resFmt := c.param 0x0F 1 / 16
    scaleIn := scaleOr1 (c.param 0x10 4)
    scaleOut := scaleOr1 (c.param 0x14 4)
    eps := BitVec.ofNat 32 (c.param 0x18 4)
    normCount := c.param 0x1C 4
    dest := c.param 0x20 8
    destScale := c.param 0x28 8
    dest2 := c.param 0x30 8
    preOff := c.param 0x38 4
    preScaleOff := c.param 0x3C 4
    postOff := c.param 0x40 4
    postScaleOff := c.param 0x44 4
    srcAddr := c.param 0x48 8
    bias := c.param 0x50 8
    res := c.param 0x58 8
    aux := c.param 0x60 8
    rowState := c.param 0x68 8
    stride := c.param 0x70 4
    idxBase := c.param 0x74 2
    dtlK := c.param 0x76 2
    qPos := c.param 0x78 4
    kPos := c.param 0x7C 4 }

/-- Bits of STEPS. -/
def DrainP.on (p : DrainP) (i : Nat) : Bool := p.steps.testBit i
def sBias : Nat := 0
def sResidual : Nat := 1
def sMask : Nat := 2
def sNormStats : Nat := 3
def sNormApply : Nat := 4
def sNormLayer : Nat := 5
def sOnline : Nat := 6
def sAccum : Nat := 7
def sFinalDiv : Nat := 8
def sRowDot : Nat := 9
def sSoftmaxBwd : Nat := 10
def sDeriv : Nat := 11
def sInit : Nat := 12

/-- A gated function (R176); in a ROW_EXPORT, ACT is a reduction. -/
def DrainP.gated (p : DrainP) : Bool := decide (p.kind ≤ 1) && decide (0x10 ≤ p.act) && decide (p.act ≤ 0x14)
/-- A gated FORWARD reads a second source slot (R173); a gated DERIV writes DEST2. -/
def DrainP.gatedFwd (p : DrainP) : Bool := p.gated && p.kind == 0
def DrainP.gatedBwd (p : DrainP) : Bool := p.gated && p.kind == 1 && p.on sDeriv
def DrainP.destEn (p : DrainP) : Bool := p.out.testBit 7
def DrainP.destFmt (p : DrainP) : Nat := p.out % 16
def DrainP.destDtl (p : DrainP) : Bool := p.out.testBit 4
def DrainP.writesDest2 (p : DrainP) : Bool := p.destEn && (p.kind == 3 || p.gatedBwd)
def DrainP.preUsed (p : DrainP) : Bool := p.preCtl.testBit 7 && (p.kind == 0 || (p.kind == 1 && p.on sDeriv))
/-- STASH_POST is written. DESIGN CHOICE (log 71): a stash enable bit in a kind that has no such tap is ignored, as a
field that no selected step uses is; R172 calls the tap not allowed there, and R187 checks STEPS alone. -/
def DrainP.postUsed (p : DrainP) : Bool := p.postCtl.testBit 7 && p.kind == 0
/-- Steps that use the row-state entry (R177). -/
def DrainP.usesRow (p : DrainP) : Bool :=
  p.on sNormStats || p.on sNormApply || p.on sOnline || p.on sAccum || p.on sFinalDiv || p.on sRowDot || p.on sSoftmaxBwd

/-- The step reads or writes the entry: with ROWSTATE_INIT it is not read (R177, R180), and an entry that is not used is
ignored (R186). -/
def DrainP.touchesRow (p : DrainP) : Bool :=
  p.usesRow && (!p.on sInit || p.on sNormStats || p.on sRowDot || p.on sOnline)
/-- The command reads and modifies, or overwrites, an ACCUM destination (R177, R180). -/
def DrainP.accums (p : DrainP) : Bool := p.on sAccum && p.destEn

/-- Addresses that the selected steps use, with their offsets in the parameter area. -/
def DrainP.addrs (p : DrainP) : List (Nat × Nat) :=
  (if p.destEn then [(p.dest, 0x20)] else []) ++
  (if p.destEn && fmtIsMx p.destFmt then [(p.destScale, 0x28)] else []) ++
  (if p.writesDest2 then [(p.dest2, 0x30)] else []) ++
  (if p.src = 1 || p.src = 3 then [(p.srcAddr, 0x48)] else []) ++
  (if p.on sBias || p.on sNormApply then [(p.bias, 0x50)] else []) ++
  (if p.on sResidual then [(p.res, 0x58)] else []) ++
  (if p.on sRowDot || p.on sSoftmaxBwd then [(p.aux, 0x60)] else [])

/-- Whether the command names a stash reservation (R171): its MB field is ignored otherwise (R186). -/
def DrainP.usesStash (p : DrainP) : Bool := p.preUsed || p.postUsed || p.addrs.any (fun a => addrSpace a.1 == 3)

/-! ### Accumulator slots (R152) -/

/-- Byte offset of an element of a slot. -/
def slotOffset (slot row col : Nat) : Nat := 16384 * slot + 4 * (64 * row + col)

def slotElemKey (die a slot row col : Nat) : Nat := accKey die a (slotOffset slot row col)

/-- FP32 bits of a slot element. -/
def State.slotElem (s : State) (die a slot row col : Nat) : W32 :=
  BitVec.ofNat 32 (s.readNat (slotElemKey die a slot row col) 4)

def State.slotElemPoison (s : State) (die a slot row col : Nat) : Bool :=
  s.poisoned (slotElemKey die a slot row col) 4

/-- The first columns of a slot row. -/
def State.slotRow (s : State) (die a slot row cols : Nat) : List W32 :=
  (List.range cols).map (fun col => s.slotElem die a slot row col)

/-- Columns of a slot row whose word is poisoned. -/
def State.slotRowPoison (s : State) (die a slot row cols : Nat) : List Nat :=
  (List.range cols).filter (fun col => s.slotElemPoison die a slot row col)

def f32Bytes (xs : List W32) : List Byte := xs.flatMap (fun x => toBytes 4 x.toNat)

/-- The first columns of a slot row written; whole words lose their poison (R169, R218). -/
def State.writeSlotRow (s : State) (die a slot row : Nat) (xs : List W32) : State :=
  s.write (slotElemKey die a slot row 0) (f32Bytes xs)

end Sys2Proof.Machine
end

