-- ==== Sys2Proof/Machine/Flags.lean ====
section
/-! DEFINITION. The flags and event counts that several families set: the step's non-finite and abort bits (R106, R272,
R286, R287), consumed poison (R217), and the counters with a Tidemark. -/

namespace Sys2Proof.Machine

/-- A non-finite event of the open step (R106). One that comes after STEP_VERDICT has started does not change the
verdict and is recorded (R287). -/
def State.noteNonfinite (s : State) (source : Nat) : State :=
  let late := s.step.started
  let s := { s with step := { s.step with localNonfinite := true } }
  if late then s.logRec source 0x0050 sevError 0 s.commit.stepNumber.toNat source else s

/-- The module's abort request for the open step (R272, R286). -/
def State.requestAbort (s : State) : State := { s with step := { s.step with localAbort := true } }

/-- POISON_CONSUMED: the command's source, the first poisoned address, the command (R217, R398). -/
def State.poisonConsumed (s : State) (c : Cmd) (addr : Nat) : State :=
  s.logRec (srcRing c.ring) 0x0021 sevError addr (c.ring * 65536 + c.seq.toNat) c.opcode

/-- Counters of a die that go with the Tidemark of the latest event. -/
def State.countFeedPoison (s : State) (die n : Nat) : State :=
  if n = 0 then s else
    s.modDie die (fun d => { d with feedPoison := satAdd 32 d.feedPoison n, feedPoisonTide := s.tide })

def State.countAccPoison (s : State) (die n : Nat) : State :=
  if n = 0 then s else
    s.modDie die (fun d => { d with accPoison := satAdd 32 d.accPoison n, accPoisonTide := s.tide })

def State.countDrainPoison (s : State) (die n : Nat) : State :=
  if n = 0 then s else
    s.modDie die (fun d => { d with drainPoison := satAdd 32 d.drainPoison n, drainPoisonTide := s.tide })

def State.countDrainNonfinite (s : State) (die n : Nat) : State :=
  if n = 0 then s else
    s.modDie die (fun d => { d with drainNonfinite := satAdd 32 d.drainNonfinite n, drainNonfiniteTide := s.tide })

/-- Whether a value is NaN or infinite. -/
def numNonFinite (x : Num) : Bool := !numIsFinite x

/-! ### MAX and MIN (R104, R164) -/

/-- Whether a contender beats another: NaN wins under both, equal values (two NaNs, both zeros) tie to the lower index.
-/
def beats (isMax : Bool) (a b : W32 × Nat) : Bool :=
  let x := ofF32 a.1
  let y := ofF32 b.1
  if x = .nan && y = .nan then decide (a.2 < b.2)
  else if x = .nan then true
  else if y = .nan then false
  else if numLt x y then !isMax
  else if numLt y x then isMax
  else decide (a.2 < b.2)

/-- The winner among contenders; a NaN is delivered as the canonical NaN (R104). -/
def winner (isMax : Bool) (first : W32 × Nat) (rest : List (W32 × Nat)) : W32 × Nat :=
  let w := rest.foldl (fun best c => if beats isMax c best then c else best) first
  (if ofF32 w.1 = .nan then 0x7FC00000#32 else w.1, w.2)

/-- Row sum in ascending column order, rounded after each addition (R166). -/
def rowSum : List W32 → W32
  | [] => 0
  | x :: xs => xs.foldl f32Add x

end Sys2Proof.Machine
end

