-- ==== Sys2Proof/Machine/Send.lean ====
section
/-! DEFINITION. What leaves the module on the causeways, and the check units that watch the streams (R310 to R314, R364
to R368). -/

namespace Sys2Proof.Machine

/-! ### Check units (R364 to R368) -/

/-- Result of a unit's running value (R364); CU_RESULT is 0 at reset. -/
def unitResult (u : CheckUnit) : Nat := if !u.used then 0 else crcResult u.algo u.value.toNat % 2 ^ (if u.algo = 2 then 64 else 32)

/-- BODY of CHECK_ARM (R366). -/
def unitBody (u : CheckUnit) : List Byte := toBytes 8 (unitResult u) ++ toBytes 8 u.value.toNat ++ toBytes 8 u.bytes

/-- Outcome of a compare: status and DETAIL (R366, R368). -/
def compareOutcome (u : CheckUnit) (expect : W64) : Status × Nat :=
  if u.unverifiable then (.faulted, 3)
  else if unitResult u = expect.toNat then (.ok, 0)
  else (.faulted, 2)

/-- A compare of a unit: CU_LAST, MISMATCH and vector 23 (R366). -/
def State.compareUnit (s : State) (n : Nat) (expect : W64) : State × (Status × Nat) :=
  let u := s.unit n
  let o := compareOutcome u expect
  let s := s.modUnit n (fun u => { u with
    expect := expect, lastTide := s.tide, lastMatched := o.1 == .ok, mismatch := o.2 == 2 })
  (if o.2 = 2 && u.intEn then s.raise 23 else s, o)

/-- A limited ARM compares with its own EXPECT once BYTE_LIMIT bytes have been absorbed, and disarms (R366). -/
def State.limitUnit (s : State) (n : Nat) : State :=
  let u := s.unit n
  if u.armed && u.limit != 0 && decide (u.limit ≤ u.bytes) then
    let (s, st, detail) := s.compareUnit n u.armExpect
    let body := unitBody (s.unit n)
    let s := s.modUnit n (fun u => { u with armed := false, limit := 0, cmd := none, deadline := none })
    match u.cmd with
    | none => s
    | some ref => s.finish ref st detail body
  else s

/-- POISON_CONSUMED of a check unit that becomes unverifiable: the command that armed it, and the first poisoned address
(R217, R368; log 65). -/
def State.unitConsumed (s : State) (u : CheckUnit) (addr : Nat) : State :=
  match u.owner with
  | some (ring, seq, op) => s.logRec (srcRing ring) 0x0021 sevError addr (ring * 65536 + seq.toNat) op
  | none => s.logRec 0 0x0021 sevError addr 0 0

/-- One unit absorbs bytes, a limited one no more than its limit; `poison` is the offset of the first poisoned one among
them, with its address (R366, R368). -/
def State.absorbUnit (s : State) (n : Nat) (bs : List Byte) (poison : Option (Nat × Nat)) : State :=
  let u := s.unit n
  let taken := if u.limit = 0 then bs else bs.take (u.limit - u.bytes)
  let poison := poison.filter (fun a => decide (a.1 < taken.length))
  let s := match poison with
    | some a => if u.unverifiable then s else s.unitConsumed u a.2
    | none => s
  let s := s.modUnit n (fun u => { u with
    value := BitVec.ofNat 64 (crcAbsorb u.algo u.value.toNat taken)
    bytes := u.bytes + taken.length
    unverifiable := u.unverifiable || poison.isSome })
  s.limitUnit n

/-- Every unit attached to a stream absorbs its bytes: SOURCE 0 a DMA channel, 1 and 2 a port, 3 the skim stream. -/
def State.absorb (s : State) (source num : Nat) (bs : List Byte) (poison : Option (Nat × Nat)) : State :=
  (List.range 64).foldl (fun st n =>
    let u := st.unit n
    if u.armed && u.source == source && (source == 3 || u.sourceNum == num) then st.absorbUnit n bs poison else st) s

/-! ### Frames out (R310 to R314) -/

/-- A frame with POISON set names no address: the record of a unit that absorbs it gives 0 (log 65). -/
def poisonAt (hdr : FrameHdr) : Option (Nat × Nat) := if hdr.poison then some (0, 0) else none

/-- Payload bytes of a frame (R311). -/
def framePayload : FrameBody → List Byte
  | .data f => f.payload
  | .reduce f => f.payload ++ f.flags
  | .gather f => f.payload
  | .permute f => f.payload
  | .checkpoint f => f.payload
  | .seq f => f.payload
  | _ => []

/-- Slots of a frame: the header slot, then the payload (R311). -/
def frameSlots (f : Frame) : Nat := 1 + ((framePayload f.body).length + 63) / 64

/-- Codewords that carry a frame, ten slots each; the rest of the last one is pads (R311, log 12). -/
def frameCodewords (f : Frame) : Nat := (frameSlots f + 9) / 10

/-- CREDIT, TIME, VERDICT, SHARD and BARRIER frames go ahead of frames that have not begun (R313). -/
def frameUrgent : FrameBody → Bool
  | .credit _ => true
  | .time _ => true
  | .verdict _ => true
  | .shard _ => true
  | .barrier _ => true
  | _ => false

/-- A frame joins a port's queue (R313). -/
def enqueue (q : List Frame) (f : Frame) : List Frame :=
  if frameUrgent f.body then q.takeWhile (fun g => frameUrgent g.body) ++ f :: q.dropWhile (fun g => frameUrgent g.body)
  else q ++ [f]

/-- Frames leave while the port is ACTIVE and holds fewer than 256 unacknowledged codewords (R310); `fuel` bounds them.
-/
def State.pumpN (s : State) (p : Nat) : Nat → State
  | 0 => s
  | fuel + 1 =>
    let x := s.port p
    match x.queue with
    | [] => s
    | f :: rest =>
      if x.train.state = .active && decide (x.unacked + frameCodewords f ≤ 256) then
        let f := if f.hdr.sendTide = 0 then { f with hdr := { f.hdr with sendTide := s.tide } } else f
        let n := frameCodewords f
        let s := s.modPort p (fun x => { x with
          queue := rest
          sent := x.sent ++ [f]
          framesTx := x.framesTx + 1
          poisoned := if f.hdr.poison then satAdd 32 x.poisoned 1 else x.poisoned
          txSeq := (x.txSeq + n) % 512
          unacked := x.unacked + n })
        (s.absorb 2 p (framePayload f.body) (poisonAt f.hdr)).pumpN p fuel
      else s

def State.pump (s : State) (p : Nat) : State := s.pumpN p ((s.port p).queue.length)

/-- A frame is queued on a port and leaves when the link lets it (R313). -/
def State.send (s : State) (p : Nat) (hdr : FrameHdr) (body : FrameBody) : State :=
  (s.modPort p (fun x => { x with
    queue := enqueue x.queue ⟨{ hdr with srcModule := s.conf.address, sendTide := 0 }, body⟩ })).pump p

/-- A frame passed on unchanged, its sender and SEND_TIDE included (R338). -/
def State.forward (s : State) (p : Nat) (hdr : FrameHdr) (body : FrameBody) : State :=
  (s.modPort p (fun x => { x with queue := enqueue x.queue ⟨hdr, body⟩ })).pump p

/-- The role of a port in force (R298): 0 NONE, 1 PIPE_PREV, 2 PIPE_NEXT, 3 DATA, 4 SEQUENCE, 5 SHARD, 6 CHECKPOINT. -/
def State.roleOf (s : State) (p : Nat) : Nat := (s.portItem p).role

/-- SW_DISCARD (R321, R328, R333, R338, R339). -/
def State.swDiscard (s : State) (x : Nat) : State := s.modTile x (fun t => { t with discard := satAdd 32 t.discard 1 })

/-- The port through which a rank of the shard axis is reached, where its entry is valid (R338). -/
def State.rankPort (s : State) (rank : Nat) : Option Nat :=
  let m := tabGet {} s.coll.shardMap rank
  if m.valid && decide (m.port < s.nPorts) && s.roleOf m.port == 5 then some m.port else none

/-- A frame to a rank of the shard axis, through the port that SHARD_MAP gives; without a valid entry it is discarded and
counted (R338), by the tile of X0 for a frame of this module's own, which has come through no port (DESIGN CHOICE, log
45). -/
def State.sendToRank (s : State) (rank : Nat) (poison : Bool) (body : FrameBody) : State :=
  match s.rankPort rank with
  | some p => s.send p { poison := poison, dstModule := (tabGet {} s.coll.shardMap rank).module } body
  | none => s.swDiscard 0

/-- Offsets and lengths of the payloads that carry `total` bytes (R311). -/
def payloadParts (total : Nat) : List (Nat × Nat) :=
  (List.range ((total + 16255) / 16256)).map (fun i => (16256 * i, min 16256 (total - 16256 * i)))

end Sys2Proof.Machine
end

