-- ==== Sys2Proof/Machine/Version.lean ====
section
/-! DEFINITION. Weight versions: slots, pins, holds, retirement, the layer table and SHARD_GATHER (11). -/

namespace Sys2Proof.Machine

/-! ### Slots (R223 to R227) -/

/-- Serial order of R50 for 16 bits: `a` is newer than `b`. -/
def serialNewer (a b : W16) : Bool := decide (1 ≤ (a - b).toNat) && decide ((a - b).toNat < 2 ^ 15)

/-- The live slot that carries a serial; a RECEIVING slot is never selected (R224). After a layout switch OLD and
CURRENT carry one serial (R344), and it names the newer slot (DEDUCED, log 26). -/
def Layer.liveIdx (l : Layer) (serial : W16) : Option Nat :=
  let carries (i : Nat) : Bool :=
    let x := l.slot i
    x.state != .free && x.state != .receiving && x.serial == serial
  ((List.range 8).find? (fun i => carries i && (l.slot i).state != .old)).or ((List.range 8).find? carries)

/-- Some live slot carries a serial, a RECEIVING one too (R224). -/
def Layer.carries (l : Layer) (serial : W16) : Bool := l.slots.any (fun e => e.2.state != .free && e.2.serial == serial)

/-- The slot that carries a hold of a module, else the one that its serial names (R238). -/
def Layer.holdIdx (l : Layer) (serial m : W16) (reqId : Nat) : Option Nat :=
  ((List.range 8).find? (fun i => (l.slot i).serial == serial && (l.slot i).holds.any (fun h =>
    h.1 == m && h.2.1 == reqId))).or (l.liveIdx serial)

/-- The newest complete version: PROVISIONAL if there is one, else CURRENT (R224, R232). -/
def Layer.newestIdx (l : Layer) : Option Nat := (l.stateIdx .provisional).or (l.stateIdx .current)

def State.modVSlot (s : State) (l i : Nat) (f : VSlot → VSlot) : State :=
  s.modLayer l (fun x => { x with slots := tabMod {} x.slots i f })

/-- OLD slots without pins and holds retire, once their grace time has passed (R227). -/
def retireSlots (t : Tab VSlot) : Tab VSlot :=
  t.filter (fun e => !(e.2.state == .old && e.2.pins == 0 && e.2.holds.isEmpty && !e.2.grace))

def State.retire (s : State) (l : Nat) : State :=
  (s.modLayer l (fun x => { x with slots := retireSlots x.slots })).tickUpdates

/-- Address of a slot's working copy and of its scale plane (R223). -/
def Layer.workOf (l : Layer) (i : Nat) : Nat := l.workAddr.toNat + i * l.workStride
def Layer.scaleOf (l : Layer) (i : Nat) : Nat := l.scaleAddr.toNat + i * l.scaleStride

/-- Key of an address whose space was checked when it was taken (SPACE 0x2, 0x4 and 0x5 only). -/
def addrKey (a : Nat) : Nat := a

/-- CURRENT becomes OLD as a newer version becomes CURRENT (R226, R227). -/
def Layer.supersede (l : Layer) (tide : Nat) : Layer :=
  { l with slots := l.slots.map (fun e =>
      if e.2.state = .current then
        (e.1, { e.2 with state := .old, grace := decide (1 < l.shards), graceEnd := tide + 200000 })
      else e) }

/-! ### Shard-axis frames (R238, R339) -/

/-- Ranks of the owners of a layer's other shards (R338). -/
def Layer.owners (l : Layer) : List Nat := (List.range l.shards).filter (fun r => r != l.ownShard)

/-- A SHARD frame to one owner. -/
def State.sendShard (s : State) (kind layer : Nat) (serial : W16) (reqId rank : Nat) : State :=
  s.sendToRank rank false
    (.shard { kind := kind, layer := layer, serial := serial, dstRank := rank, epoch := s.commit.layoutEpoch,
              reqId := reqId })

/-- A SHARD frame to the owner of every other shard. -/
def State.sendShards (s : State) (kind layer : Nat) (serial : W16) (reqId : Nat) : State :=
  (s.layer layer).owners.foldl (fun st r => st.sendShard kind layer serial reqId r) s

/-! ### Pins (R231 to R233, R238) -/

inductive Pick where
  | take (i : Nat) | wait | gone
  deriving DecidableEq, Repr

/-- The version that MODE selects (R232). -/
def Layer.pick (l : Layer) (mode : Nat) (serial : W16) : Pick :=
  if mode = 0 then (match l.newestIdx with | some i => .take i | none => .gone)
  else if mode = 1 then (match l.stateIdx .current with | some i => .take i | none => .gone)
  else if mode = 2 then
    (match l.liveIdx serial with
     | some i =>
       let x := l.slot i
       if x.state = .writing then .wait
       else if x.state = .old && x.grace && x.pins == 0 then .gone
       else .take i
     | none => if serialNewer serial l.newest then .wait else .gone)
  else
    match l.newestIdx with
    | some i =>
      let x := (l.slot i).serial
      if x = serial || serialNewer x serial then .take i else .wait
    | none => .gone

def State.mb (s : State) (k m : Nat) : Mb := tabGet {} (s.ctx k).mbs m
def State.modMb (s : State) (k m : Nat) (f : Mb → Mb) : State :=
  s.modCtx k (fun x => { x with mbs := tabMod {} x.mbs m f })

/-- The serial that a micro-batch pins on a layer. -/
def Mb.pinOn (m : Mb) (layer : Nat) : Option W16 := (m.pins.find? (fun p => p.1 == layer)).map (·.2.1)

/-- The version slot that a micro-batch pins on a layer. -/
def Mb.pinSlot (m : Mb) (layer : Nat) : Option Nat := (m.pins.find? (fun p => p.1 == layer)).map (·.2.2)

/-- Admitted: FORWARD, BACKWARD or RELEASING (MB_HOLD.VALID). -/
def Mb.admitted (m : Mb) : Bool := m.state == .forward || m.state == .backward || m.state == .releasing

/-- Dropped and not admitted again: every command that starts and names it completes with ABORTED (R250). A rewound
micro-batch is in FORWARD and goes on (R263; DEDUCED, log 26). -/
def Mb.gone (m : Mb) : Bool := m.state == .free && m.dropped

/-- Pinned to a PROVISIONAL version, or admitted from a SPEC entry (R231, R262). -/
def State.mbPinSpec (s : State) (m : Mb) : Bool :=
  m.pins.any (fun p => ((s.layer p.1).slot p.2.2).state == .provisional)

def State.mbSpec (s : State) (m : Mb) : Bool := s.mbPinSpec m || m.inherited.isSome

/-- The answer to a pin request: the first layer that fails, a wait, or the slots to pin (R233). -/
inductive PinAnswer where
  | bad (layer : Nat)
  | gone (layer : Nat)
  | wait
  | grant (picks : List (Nat × Nat))
  deriving DecidableEq, Repr

def pinLayer (s : State) (m : Mb) (mode : Nat) (serial : W16) (acc : PinAnswer) (layer : Nat) : PinAnswer :=
  match acc with
  | .bad l => .bad l
  | .gone l => .gone l
  | _ =>
    let l := s.layer layer
    if !l.defined then .bad layer
    else match l.pick mode serial with
      | .gone => .gone layer
      | .wait => .wait
      | .take i =>
        if (m.pinOn layer).isSome && m.pinOn layer != some (l.slot i).serial then .bad layer
        else match acc with
          | .grant picks => .grant (picks ++ [(layer, i)])
          | other => other

def State.pinAnswer (s : State) (k mb mode : Nat) (serial : W16) (layer count : Nat) : PinAnswer :=
  ((List.range count).map (fun i => layer + i)).foldl (pinLayer s (s.mb k mb) mode serial) (.grant [])

/-- Holds for a version whose PINS rises from 0 (R238). -/
def State.placeHolds (s : State) (ref : CmdRef) (layer i : Nat) : State :=
  let l := s.layer layer
  let serial := (l.slot i).serial
  let id := s.coll.nextReq
  let s := s.modVSlot layer i (fun x => { x with reqId := id, renewAt := s.tide + 20000000 })
  let s := { s with coll := { s.coll with
      nextReq := (id + 1) % 2 ^ 32
      holdReqs := s.coll.holdReqs ++ [(⟨ref, id, layer, serial, l.owners, [], s.tide⟩ : HoldReq)] } }
  s.sendShards 0 layer serial id

/-- A further request on a slot whose holds are not all acknowledged waits for the same acknowledgements (R238). -/
def State.shareHolds (s : State) (ref : CmdRef) (layer i : Nat) : State :=
  let x := (s.layer layer).slot i
  match s.coll.holdReqs.find? (fun h => h.reqId == x.reqId && h.layer == layer && !h.waiting.isEmpty) with
  | some h => { s with coll := { s.coll with holdReqs := s.coll.holdReqs ++ [{ h with cmd := ref }] } }
  | none => s

/-- One pin taken; the layers newly pinned are listed (R231, R233, R238). -/
def pinOne (ref : CmdRef) (k mb : Nat) (acc : State × List Nat) (p : Nat × Nat) : State × List Nat :=
  let (s, taken) := acc
  if ((s.mb k mb).pinOn p.1).isSome then acc
  else
    let l := s.layer p.1
    let x := l.slot p.2
    let s := s.modMb k mb (fun m => { m with pins := m.pins ++ [(p.1, x.serial, p.2)] })
    let s := s.modVSlot p.1 p.2 (fun x => { x with pins := x.pins + 1 })
    (if l.shards ≤ 1 then s else if x.pins = 0 then s.placeHolds ref p.1 p.2 else s.shareHolds ref p.1 p.2, taken ++ [p.1])

def State.takePins (s : State) (ref : CmdRef) (k mb : Nat) (picks : List (Nat × Nat)) : State × List Nat :=
  picks.foldl (pinOne ref k mb) (s, [])

/-- One pin of a version released: the owners learn it at the last one, and the version may retire (R227, R238). -/
def State.unpinSlot (s : State) (layer i : Nat) : State :=
  let l := s.layer layer
  let x := l.slot i
  let s := s.modVSlot layer i (fun x => { x with pins := x.pins - 1, reqId := if x.pins ≤ 1 then 0 else x.reqId })
  let s := if x.pins = 1 && decide (1 < l.shards) then s.sendShards 1 layer x.serial x.reqId else s
  s.retire layer

/-- The further pin of a TILE_DGRAD is released, unless the version has left its slot: an abort frees a slot with every
pin on it (R197, R228). -/
def State.unpinSerial (s : State) (layer i : Nat) (serial : W16) : State :=
  let x := (s.layer layer).slot i
  if x.serial == serial && x.state != .free && decide (0 < x.pins) then s.unpinSlot layer i else s

/-- A micro-batch's pin on a layer released (R235). -/
def State.unpinMb (s : State) (k mb layer : Nat) : State :=
  match (s.mb k mb).pinSlot layer with
  | none => s
  | some i => (s.modMb k mb (fun m => { m with pins := m.pins.filter (fun p => p.1 != layer) })).unpinSlot layer i

def State.unpinLayers (s : State) (k mb : Nat) (layers : List Nat) : State :=
  layers.foldl (fun st l => st.unpinMb k mb l) s

/-- Whether every hold of a command has been acknowledged (R238). -/
def State.holdsDone (s : State) (ref : CmdRef) : Bool :=
  s.coll.holdReqs.all (fun h => h.cmd != ref || h.waiting.isEmpty)

/-- The bookkeeping of a command's holds ends. -/
def State.dropHolds (s : State) (ref : CmdRef) : State :=
  { s with coll := { s.coll with holdReqs := s.coll.holdReqs.filter (fun h => h.cmd != ref) } }

/-- Stage context of a ring (R62). -/
def ctxOfRing (r : Nat) : Nat := r - 1

/-! ### VERSION_PIN (R234) -/

def pinParams (c : Cmd) : Nat × Nat × Nat × W16 × Nat :=
  (c.param 0 1, c.param 1 1, c.param 2 2, BitVec.ofNat 16 (c.param 4 2), c.param 6 2)

/-- BODY of an OK VERSION_PIN (R234). -/
def State.pinBody (s : State) (c : Cmd) : List Byte :=
  let (mb, _, layer, _, count) := pinParams c
  let m := s.mb (ctxOfRing c.ring) mb
  let l := s.layer layer
  let serial := (m.pinOn layer).getD 0
  bodyOf [(0, 2, serial.toNat), (2, 1, b2n (s.mbSpec m)), (4, 2, count),
          (8, 8, l.workOf ((m.pinSlot layer).getD 0))]

/-- The request is tried: granted whole, failed, or left waiting (R233, R234). `first` is the try at its start. -/
def State.tryPin (s : State) (c : Cmd) (first : Bool) : State :=
  let (mb, mode, layer, serial, count) := pinParams c
  let k := ctxOfRing c.ring
  match s.pinAnswer k mb mode serial layer count with
  | .bad l => s.complete c .badParam 0x42 (bodyOf [(6, 2, l)])
  | .gone l => s.complete c .versionGone l []
  | .wait =>
    if !first then s
    else if c.param 8 4 = 0 then s.complete c .timeout 0 []
    else s.setWait c.ref .pins (some (s.tide + 1000 * c.param 8 4))
  | .grant picks =>
    let (s, taken) := s.takePins c.ref k mb picks
    if s.holdsDone c.ref then (s.dropHolds c.ref).complete c .ok 0 (s.pinBody c)
    else (s.modCmd c.ref (fun c => { c with aux := taken })).setWait c.ref .holds none

/-- VERSION_PIN; a step close whose Tidemark has come is applied first (R236). -/
def execVersionPin (dt : Nat) (ring : Fin 17) (s : State) : Result :=
  let s := s.advance dt
  match (if s.closeDue then none else s.take ring 0x30) with
  | none => s.idle
  | some (c, s) =>
    let (mb, mode, layer, serial, count) := pinParams c
    let m := s.mb (ctxOfRing ring) mb
    let checks := [(decide (mb < 64) && (m.admitted || m.gone), 0), (decide (mode ≤ 3), 1),
      (decide (layer < 4096), 2), (decide (2 ≤ mode) || serial == 0, 4),
      (decide (1 ≤ count) && decide (layer + count ≤ 4096) && (mode != 2 || count == 1), 6)] ++
      reservedFail c 64 [(0, 12)]
    match lowestFail checks with
    | some o => .next (s.badParam c o)
    | none => if m.gone then .next (s.complete c .aborted 0 []) else .next (s.tryPin c true)

/-- A started command of an opcode that waits in a given way. -/
def State.findWait (s : State) (r : Nat) (seq : W16) (w : WaitFor) : Option Cmd :=
  (s.ring r).cmds.find? (fun c => c.seq == seq && c.start.isSome && c.work == .waiting w)

/-- Whether a deadline has passed: what becomes available at its very Tidemark is still granted (R257, R264). -/
def State.past (s : State) : Option Nat → Bool
  | none => false
  | some t => decide (t < s.tide)

/-- PIN_GRANT (R233): a waiting request is tried again, after a close that is due (R236). -/
def execPinGrant (dt : Nat) (ring : Fin 17) (seq : W16) (s : State) : Result :=
  let s := s.advance dt
  match s.findWait ring seq .pins with
  | none => s.idle
  | some c => if s.closeDue || s.past c.deadline then s.idle else .next (s.tryPin c false)

/-- Whether a deadline has come. -/
def State.due (s : State) (deadline : Option Nat) : Bool := reached s.tide deadline

/-- PIN_TIMEOUT (R234). -/
def execPinTimeout (dt : Nat) (ring : Fin 17) (seq : W16) (s : State) : Result :=
  let s := s.advance dt
  match s.findWait ring seq .pins with
  | none => s.idle
  | some c => if s.due c.deadline then .next (s.complete c .timeout 0 []) else s.idle

/-- VERSION_UNPIN (R235): it is turned away while MB_STATE.DROPPED is set, of a rewound micro-batch too. -/
def execVersionUnpin (dt : Nat) (ring : Fin 17) (s : State) : Result :=
  let s := s.advance dt
  match s.take ring 0x31 with
  | none => s.idle
  | some (c, s) =>
    let k := ctxOfRing ring
    let mb := c.param 0 1
    let layer := c.param 2 2
    let count := c.param 6 2
    let m := s.mb k mb
    let checks := [(decide (mb < 64) && (m.admitted || m.gone), 0), (decide (layer < 4096), 2),
      (decide (1 ≤ count) && decide (layer + count ≤ 4096), 6)] ++ reservedFail c 64 [(0, 1), (2, 2), (6, 2)]
    match lowestFail checks with
    | some o => .next (s.badParam c o)
    | none =>
      if m.dropped then .next (s.complete c .aborted 0 [])
      else
        let held := ((List.range count).map (fun i => layer + i)).filter (fun l => (m.pinOn l).isSome)
        .next ((s.unpinLayers k mb held).complete c .ok 0 (bodyOf [(0, 2, held.length), (2, 2, count - held.length)]))

/-- GRACE_EXPIRY (R227). -/
def execGraceExpiry (dt : Nat) (layer : Fin 4096) (slot : Fin 8) (s : State) : Result :=
  let s := s.advance dt
  let x := (s.layer layer).slot slot
  if x.state = .old && x.grace && decide (x.graceEnd ≤ s.tide) then
    .next ((s.modVSlot layer slot (fun x => { x with grace := false })).retire layer)
  else s.idle

/-- A pin request whose holds fail takes nothing: its pins are released, with their holds (R238). MB_ADMIT returns its
number, entry and reservation as well: `undo` does it (12). -/
def State.undoPins (s : State) (c : Cmd) (k mb : Nat) : State :=
  (s.unpinLayers k mb c.aux).dropHolds c.ref

/-- HOLD_RENEWAL (R387). -/
def execHoldRenewal (dt : Nat) (layer : Fin 4096) (slot : Fin 8) (s : State) : Result :=
  let s := s.advance dt
  let l := s.layer layer
  let x := l.slot slot
  if x.state != .free && decide (0 < x.pins) && decide (1 < l.shards) && decide (x.renewAt ≤ s.tide) then
    .next ((s.modVSlot layer slot (fun x => { x with renewAt := s.tide + 20000000 })).sendShards 0 layer x.serial x.reqId)
  else s.idle

/-! ### SHARD_GATHER (R237, R239, R240, R340) -/

/-- The planes of a layer: their number, address in a slot and size. -/
def Layer.planes (l : Layer) (i : Nat) : List (Nat × Nat × Nat) :=
  (0, l.workOf i, l.workBytes) :: (if fmtIsMx l.workFmt then [(1, l.scaleOf i, l.scaleBytes)] else [])

/-- A version's slot cannot be read now (R205, R222, R379, R381, R391). -/
def State.planesHeld (s : State) (l : Layer) (i : Nat) : Bool :=
  (l.planes i).any (fun pl => s.ownStops (addrKey pl.2.1) pl.2.2)

/-- A version's shard sent to a requester, plane by plane, in ascending OFFSET (R340). -/
def State.sendShardData (s : State) (req : GatherF) (i : Nat) : State :=
  let l := s.layer req.layer
  (l.planes i).foldl (fun st pl =>
    (payloadParts pl.2.2).foldl (fun st part =>
      let key := addrKey (pl.2.1 + part.1)
      st.sendToRank req.rank (st.poisoned key part.2)
        (.gather { collId := req.collId, kind := 4, plane := pl.1, epoch := s.commit.layoutEpoch, rank := l.ownShard,
                   dstRank := req.rank, layer := req.layer, serial := req.serial, shard := l.ownShard,
                   offset := part.1, payload := st.read key part.2, total := pl.2.2 })) st) s

/-- A get has everything: each shard's elements and its scale plane (R240). -/
def ShardGet.done (g : ShardGet) (l : Layer) : Bool :=
  (List.range g.count).all (fun i =>
    let x := tabGet (0, 0) g.got (g.first + i)
    x.1 == l.workBytes && (!fmtIsMx l.workFmt || x.2 == l.scaleBytes))

/-- Destination key of a plane of a shard (R239, R240). -/
def gatherDest (s : State) (c : Cmd) (g : ShardGet) (plane shard : Nat) : Nat :=
  let base := if plane = 0 then c.param 0x10 8 else c.param 0x18 8
  let stride := if plane = 0 then c.param 0x20 4 else c.param 0x24 4
  (s.resolve [0, 1] (some (c.param 0 1)) (base + (shard - g.first) * stride) 0).getD 0

def State.modGet (s : State) (ref : CmdRef) (f : ShardGet → ShardGet) : State :=
  { s with coll := { s.coll with gets := s.coll.gets.map (fun g => if g.cmd = ref then f g else g) } }

def State.dropGet (s : State) (ref : CmdRef) : State :=
  { s with coll := { s.coll with gets := s.coll.gets.filter (fun g => g.cmd != ref) } }

/-- Shards written whole. -/
def ShardGet.written (g : ShardGet) (l : Layer) : Nat :=
  ((List.range g.count).filter (fun i =>
    let x := tabGet (0, 0) g.got (g.first + i)
    x.1 == l.workBytes && (!fmtIsMx l.workFmt || x.2 == l.scaleBytes))).length

/-- The own shard of a gather cannot be copied now: its planes, or the way to their destinations, are held (R21, R24,
R205, R379, R380, R391). -/
def State.ownHeld (s : State) (c : Cmd) (g : ShardGet) : Bool :=
  let l := s.layer g.layer
  (l.planes g.slot).any (fun pl => s.copyStops (addrKey pl.2.1) (gatherDest s c g pl.1 l.ownShard) pl.2.2)

/-- The own shard is copied once its version is complete, and while neither end nor the way between them is held (R237).
-/
def State.gatherOwn (s : State) (g : ShardGet) : State :=
  let l := s.layer g.layer
  match s.findCmd g.cmd with
  | some c =>
    let i := g.slot
    let x := l.slot i
    if x.serial ≠ g.serial || x.state = .free || x.state = .receiving || x.state = .writing ||
        decide (l.ownShard < g.first) || decide (g.first + g.count ≤ l.ownShard)
        || (tabFind g.got l.ownShard).isSome || s.ownHeld c g then s
    else
      let s := (l.planes i).foldl (fun st pl =>
        st.copy (addrKey pl.2.1) (gatherDest s c g pl.1 l.ownShard) pl.2.2) s
      s.modGet g.cmd (fun g => { g with got := tabSet g.got l.ownShard (l.workBytes, l.scaleBytes) })
  | none => s

/-- BODY of SHARD_GATHER: the shards written, as they stand or as the gather left them when its last shard came (R240).
-/
def State.getBody (s : State) (ref : CmdRef) : List Byte :=
  match s.coll.gets.find? (fun g => g.cmd == ref) with
  | some g => bodyOf [(0, 2, g.written (s.layer g.layer))]
  | none => (match s.findCmd ref with
    | some c => (match c.work with
      | .finished _ _ body => if c.opcode = 0x32 then body else []
      | _ => [])
    | none => [])

/-- A finished gather leaves its result (R240). -/
def State.endGet (s : State) (ref : CmdRef) (st : Status) : State :=
  match s.coll.gets.find? (fun g => g.cmd == ref) with
  | none => s
  | some _ => (s.finish ref st 0 (s.getBody ref)).dropGet ref

def State.checkGet (s : State) (ref : CmdRef) : State :=
  match s.coll.gets.find? (fun g => g.cmd == ref) with
  | none => s
  | some g => if g.done (s.layer g.layer) then s.endGet ref .ok else s

/-- A REFUSE of the shard kinds, to the requester (R340). -/
def State.refuseShard (s : State) (f : GatherF) (st : Status) : State :=
  s.sendToRank f.rank false
    (.gather { collId := f.collId, kind := 2, status := st.code, epoch := s.commit.layoutEpoch, rank := s.coll.ownRank,
               dstRank := f.rank, layer := f.layer, serial := f.serial, shard := f.shard })

/-- A slot holds a version whole: an owner answers from it (R240). -/
def VSlot.whole (x : VSlot) : Bool := x.state == .provisional || x.state == .current || x.state == .old

/-- The slot from which a waiting request is answered now: its version is whole and nothing holds its planes (R240,
R379, R380). -/
def State.servable (s : State) (w : ShardWait) : Option Nat :=
  let l := s.layer w.req.layer
  (l.liveIdx w.req.serial).filter (fun i => (l.slot i).whole && !s.planesHeld l i)

/-- A version became PROVISIONAL, or a pause has ended: requests that waited are answered, local gathers copy their own
shard (R237, R240). -/
def State.serveShards (s : State) : State :=
  let due := s.coll.waits
  let retired (w : ShardWait) : Bool :=
    let l := s.layer w.req.layer
    (l.liveIdx w.req.serial).isNone && !serialNewer w.req.serial l.newest
  let s' := { s with coll := { s.coll with waits := due.filter (fun w => (s.servable w).isNone && !retired w) } }
  let s := due.foldl (fun st w => match s.servable w with
    | some i => st.sendShardData w.req i
    | none => if retired w then st.refuseShard w.req .versionGone else st) s'
  s.coll.gets.foldl (fun st g => (st.gatherOwn g).checkGet g.cmd) s

/-- Whether a compute die is bound to a stage context (R251, R252). -/
def State.dieBound (s : State) (k die : Nat) : Bool := decide (die < 12) && (s.ctxItem k).dieMask.toNat.testBit die

/-- An address range of a command in SPACE 0 or 1 of its die stays inside. -/
def State.inSpace (s : State) (allowed : List Nat) (die : Option Nat) (addr n : Nat) : Bool :=
  (s.resolve allowed die addr n).isSome

/-- Check 1 of R240. -/
def gatherChecks (s : State) (c : Cmd) : List (Bool × Nat) :=
  let die := c.param 0 1
  let layer := c.param 2 2
  let l := s.layer layer
  let first := c.param 6 2
  let count := c.param 8 2
  let ends (base stride n : Nat) := s.inSpace [0, 1] (some die) base ((count - 1) * stride + n)
  [(s.dieBound (ctxOfRing c.ring) die, 0), (decide (layer < 4096) && l.defined, 2), (decide (first < l.shards), 6),
   (decide (1 ≤ count) && decide (first + count ≤ l.shards), 8),
   (ends (c.param 0x10 8) (c.param 0x20 4) l.workBytes, 0x10), (decide (l.workBytes ≤ c.param 0x20 4), 0x20)] ++
  (if fmtIsMx l.workFmt then
    [(ends (c.param 0x18 8) (c.param 0x24 4) l.scaleBytes, 0x18), (decide (l.scaleBytes ≤ c.param 0x24 4), 0x24)]
   else []) ++
  reservedFail c 128 [(0, 0x0A), (0x10, 0x1C)]

/-- The gather starts: its own shard is copied, the others are asked for (R237, R340). -/
def State.startGather (s : State) (c : Cmd) (slot : Nat) : State :=
  let layer := c.param 2 2
  let l := s.layer layer
  let g : ShardGet :=
    { cmd := c.ref, collId := BitVec.ofNat 32 (c.param 0x28 4), layer := layer,
      serial := BitVec.ofNat 16 (c.param 4 2), slot := slot, first := c.param 6 2, count := c.param 8 2 }
  let s := { s with coll := { s.coll with gets := s.coll.gets ++ [g] } }
  let s := s.setWait c.ref .owners none
  let s := s.gatherOwn g
  let s := (((List.range g.count).map (fun i => g.first + i)).filter (fun r => r != l.ownShard)).foldl (fun st r =>
    st.sendToRank r false
      (.gather { collId := g.collId, kind := 3, epoch := s.commit.layoutEpoch, rank := s.coll.ownRank, dstRank := r,
                 layer := layer, serial := g.serial, shard := r })) s
  s.checkGet c.ref

/-- The local slot from which the gather copies its own shard, if it names it, is on no die out of service (R205). -/
def State.ownServed (s : State) (c : Cmd) : Bool :=
  let l := s.layer (c.param 2 2)
  decide (l.ownShard < c.param 6 2) || decide (c.param 6 2 + c.param 8 2 ≤ l.ownShard) ||
    (s.keyServed l.workAddr.toNat && (!fmtIsMx l.workFmt || s.keyServed l.scaleAddr.toNat))

/-- The slot that a gather reads: the one that its micro-batch pins, else the one that SERIAL names (R240, R344). -/
def State.gatherSlot (s : State) (k mb layer : Nat) (serial : W16) : Option Nat :=
  let m := s.mb k mb
  if decide (mb < 64) && m.pinOn layer == some serial then m.pinSlot layer else (s.layer layer).liveIdx serial

/-- SHARD_GATHER: check 1 of R240, then the drop of R250, then the rest of R240; a DIE_REPAIR of its die holds it
(R391). -/
def execShardGather (dt : Nat) (ring : Fin 17) (s : State) : Result :=
  let before := s.advance dt
  let s := before
  match s.take ring 0x32 with
  | none => s.idle
  | some (c, s) =>
    match lowestFail (gatherChecks s c) with
    | some o => .next (s.badParam c o)
    | none =>
      let l := s.layer (c.param 2 2)
      let serial := BitVec.ofNat 16 (c.param 4 2)
      let mb := c.param 1 1
      let m := s.mb (ctxOfRing ring) mb
      if mb ≠ 0xFF && decide (mb < 64) && m.gone then .next (s.complete c .aborted 0 [])
      else match s.gatherSlot (ctxOfRing ring) mb (c.param 2 2) serial with
      | none => .next (s.complete c .versionGone 0 [])
      | some i =>
        if (l.slot i).epoch ≠ s.commit.layoutEpoch then .next (s.complete c .epochStale 0 [])
        else if mb ≠ 0xFF && !(decide (mb < 64) && m.admitted && m.pinOn (c.param 2 2) == some serial) then
          .next (s.badParam c 1)
        else if s.dieRefuses (c.param 0 1) || !s.ownServed c then .next (s.complete c .faulted 0 [])
        else if s.dieWaits (c.param 0 1) then before.idle
        else .next (s.startGather c i)

/-! ### The layer table (R223, R229) -/

/-- Slots of a layer lie inside their space. -/
def State.slotsFit (s : State) (addr bytes stride : Nat) : Bool :=
  s.inSpace [2, 4, 5] none addr (7 * stride + bytes)

/-- The field checks of DEFINE (R229). -/
def State.defineOk (s : State) (l : Layer) : Bool :=
  fmtsWork.contains l.workFmt && decide (1 ≤ l.shards) && decide (l.shards ≤ 4096) && decide (l.ownShard < l.shards) &&
  decide (1 ≤ l.workBytes) && decide (l.workBytes ≤ l.workStride) && l.workStride % 256 == 0 &&
  l.workAddr.toNat % 256 == 0 && s.slotsFit l.workAddr.toNat l.workBytes l.workStride &&
  (!fmtIsMx l.workFmt ||
    (decide (1 ≤ l.scaleBytes) && decide (l.scaleBytes ≤ l.scaleStride) && l.scaleStride % 256 == 0 &&
      l.scaleAddr.toNat % 256 == 0 && s.slotsFit l.scaleAddr.toNat l.scaleBytes l.scaleStride))

/-- The RW fields of word 0 (R229). -/
def Layer.withWord0 (l : Layer) (v : Nat) : Layer :=
  { l with workFmt := bits v 8 4, initSerial := BitVec.ofNat 16 (bits v 16 16), shards := bits v 32 16,
           ownShard := bits v 48 16 }

def Layer.word0 (l : Layer) : Nat :=
  b2n l.defined + l.defError * 2 ^ 4 + l.workFmt * 2 ^ 8 + l.initSerial.toNat * 2 ^ 16 + l.shards * 2 ^ 32 +
    l.ownShard * 2 ^ 48

def VState.code : VState → Nat
  | .free => 0
  | .writing => 1
  | .provisional => 2
  | .current => 3
  | .old => 4
  | .receiving => 5

def VSlot.word (x : VSlot) : Nat :=
  x.serial.toNat + x.state.code * 2 ^ 16 + b2n x.grace * 2 ^ 19 + x.pins * 2 ^ 20 + x.holds.length * 2 ^ 36 +
    x.epoch.toNat * 2 ^ 48

/-- Registers of a layer-table entry. -/
def Layer.word (l : Layer) (off : Nat) : Nat :=
  if off = 0x00 then l.word0
  else if off = 0x08 then l.workAddr.toNat
  else if off = 0x10 then l.workBytes + l.workStride * 2 ^ 32
  else if off = 0x18 then l.scaleAddr.toNat
  else if off = 0x20 then l.scaleBytes + l.scaleStride * 2 ^ 32
  else if 0x40 ≤ off then (l.slot ((off - 0x40) / 8)).word
  else 0

/-- The layer becomes defined: slot 0 CURRENT with INIT_SERIAL and the layout epoch in force (R229). -/
def Layer.define (l : Layer) (epoch : W16) : Layer :=
  { l with
    defined := true
    defError := 0
    newest := l.initSerial
    slots := [(0, { serial := l.initSerial, state := .current, epoch := epoch })]
    stateSel := false
    prov := false
    failed := false
    skimPending := false
    partsDone := 0
    lastCommit := 0
    partsTotal := none
    parts := [] }

/-- An UPDATE_LAYER or SHARD_GATHER that names the layer has started and not completed (R229). -/
def State.layerBusy (s : State) (layer : Nat) : Bool :=
  s.allCmds.any (fun c => c.start.isSome && (c.opcode == 0x40 || c.opcode == 0x32) && c.param 2 2 == layer)

/-- Whether UNDEFINE may clear DEFINED (R229). -/
def State.mayUndefine (s : State) (layer : Nat) : Bool :=
  let l := s.layer layer
  l.slots.all (fun e => e.2.state == .free || (e.2.state == .current && e.2.pins == 0 && e.2.holds.isEmpty)) &&
    !s.layerBusy layer

/-- A write of word 0 of an entry (R229, R456); `none` where RW fields are discarded. -/
def State.writeLayer0 (s : State) (layer : Nat) (v mask : W64) : Option State :=
  let l := s.layer layer
  let set := (v &&& mask).toNat
  let new := (maskedWrite (BitVec.ofNat 64 l.word0) v mask).toNat
  let l' := if l.defined then l else l.withWord0 new
  if set.testBit 1 && set.testBit 2 then
    some (s.modLayer layer (fun l => { l with defError := 1 }))
  else if set.testBit 1 then
    (if l.defined then some (s.modLayer layer (fun l => { l with defError := 2 }))
     else if s.defineOk l' then some (s.modLayer layer (fun _ => l'.define s.commit.layoutEpoch))
     else some (s.modLayer layer (fun _ => { l' with defError := 1 })))
  else if set.testBit 2 then
    (if !l.defined then some (s.modLayer layer (fun l => { l with defError := 0 }))
     else if s.mayUndefine layer then
       some (s.modLayer layer (fun l => { l with defined := false, defError := 0, slots := [] }))
     else some (s.modLayer layer (fun l => { l with defError := 2 })))
  else if l.defined then none
  else some (s.modLayer layer (fun _ => l'))

/-- A write to a layer-table entry; `none` where it is discarded (R229). -/
def State.writeLayer (s : State) (layer off size : Nat) (value : W64) : Option State :=
  let (reg, v, mask) := regPart off size value
  let l := s.layer layer
  let field (old : Nat) : Nat := (maskedWrite (BitVec.ofNat 64 old) v mask).toNat
  if reg = 0x00 then s.writeLayer0 layer v mask
  else if l.defined then none
  else if reg = 0x08 then
    (if size = 8 then some (s.modLayer layer (fun l => { l with workAddr := v })) else none)
  else if reg = 0x10 then
    some (s.modLayer layer (fun l =>
      let w := field (l.word 0x10)
      { l with workBytes := bits w 0 32, workStride := bits w 32 32 }))
  else if reg = 0x18 then
    (if size = 8 then some (s.modLayer layer (fun l => { l with scaleAddr := v })) else none)
  else if reg = 0x20 then
    some (s.modLayer layer (fun l =>
      let w := field (l.word 0x20)
      { l with scaleBytes := bits w 0 32, scaleStride := bits w 32 32 }))
  else none

end Sys2Proof.Machine
end

