-- ==== Sys2Proof/Machine/Stage.lean ====
section
/-! DEFINITION. Stage contexts: sluices, credits, admission, sends, releases, drops and rewinds, registers (12). -/

namespace Sys2Proof.Machine

/-! ### Sluices and credits (R251 to R255) -/

def roundUp (x m : Nat) : Nat := (x + m - 1) / m * m

/-- Landing address, entry size and depth of a sluice of this context. -/
def CtxItem.land (x : CtxItem) (bwd : Bool) : Nat := if bwd then x.bwdLand else x.fwdLand
def CtxItem.entryBytes (x : CtxItem) (bwd : Bool) : Nat := if bwd then x.bwdEntryBytes else x.fwdEntryBytes
def CtxItem.depth (x : CtxItem) (bwd : Bool) : Nat := if bwd then x.bwdDepth else x.fwdDepth

/-- The peer that fills a sluice: kind, port, module and context; the next stage for the backward sluice (R254). -/
def CtxItem.sender (x : CtxItem) (bwd : Bool) : Nat × Nat × W16 × Nat :=
  if bwd then (x.nextKind, x.nextPort, x.nextModule, x.nextCtx) else (x.prevKind, x.prevPort, x.prevModule, x.prevCtx)

/-- Landing address of an entry (R251). -/
def CtxItem.entryAddr (x : CtxItem) (bwd : Bool) (e : Nat) : Nat := x.land bwd + e * roundUp (x.entryBytes bwd) 256

def Ctx.sluice (x : Ctx) (bwd : Bool) : Tab Entry := if bwd then x.bwd else x.fwd

/-- The geometries of this context and of its peer on one side differ (R253); `prev` the previous side. -/
def Ctx.mismatch (x : Ctx) (prev : Bool) : Bool := if prev then x.prevMismatch else x.nextMismatch

/-- CTX_BIND.PEER_MISMATCH (R253). -/
def Ctx.peerMismatch (x : Ctx) : Bool := x.prevMismatch || x.nextMismatch

def State.entry (s : State) (k : Nat) (bwd : Bool) (e : Nat) : Entry := tabGet {} ((s.ctx k).sluice bwd) e

def State.modSluice (s : State) (k : Nat) (bwd : Bool) (f : Tab Entry → Tab Entry) : State :=
  s.modCtx k (fun x => if bwd then { x with bwd := f x.bwd } else { x with fwd := f x.fwd })

def State.modEntry (s : State) (k : Nat) (bwd : Bool) (e : Nat) (f : Entry → Entry) : State :=
  s.modSluice k bwd (fun t => tabMod {} t e f)

/-- Credits of a context toward a peer: `toPrev` toward the previous stage's backward sluice. -/
def State.modCredits (s : State) (k : Nat) (toPrev : Bool) (f : W64 → W64) : State :=
  s.modCtx k (fun x =>
    if toPrev then { x with prevCredits := f x.prevCredits } else { x with nextCredits := f x.nextCredits })

/-- The credit of an entry goes back to its sender (R255). -/
def State.returnCredit (s : State) (k : Nat) (bwd : Bool) (e : Nat) : State :=
  let (kind, port, m, peer) := (s.ctxItem k).sender bwd
  if kind = 2 then s.modCredits peer bwd (fun w => withBit w e true)
  else if kind = 1 then
    s.send port { srcCtx := k, dstCtx := peer, dstModule := m } (.credit { bwd := bwd, entryMask := withBit 0 e true })
  else s

/-- The entry becomes EMPTY and its credit returns. -/
def State.emptyEntry (s : State) (k : Nat) (bwd : Bool) (e : Nat) : State :=
  (s.modSluice k bwd (fun t => tabDel t e)).returnCredit k bwd e

/-- A discarded entry is counted (R250, R253, R263). -/
def State.discardEntry (s : State) (k : Nat) (bwd : Bool) (e : Nat) : State :=
  (s.modCtx k (fun x =>
    if bwd then { x with bwdDiscarded := satAdd 32 x.bwdDiscarded 1 }
    else { x with fwdDiscarded := satAdd 32 x.fwdDiscarded 1 })).emptyEntry k bwd e

/-- ENTRIES_DISCARDED (R398). -/
def State.logDiscards (s : State) (k : Nat) (bwd : Bool) (n : Nat) : State :=
  s.logRec (srcCtx k) 0x0040 sevWarning 0 n (2 * k + b2n bwd)

/-- A forward entry returns to READY ahead of every entry that was not returned (R250). -/
def State.returnEntry (s : State) (k : Nat) (e : Nat) : State :=
  s.modEntry k false e (fun x => { x with state := .ready, returned := true, mb := 0, freeStep := 0 })

/-- The outcome of a step in the module's record of the last 256 closes (R263). -/
def State.outcome (s : State) (step : W32) : Option Bool :=
  (s.commit.outcomes.find? (fun o => o.1 == step)).map (·.2)

/-- `a` is a newer step than `b` (R50, 32 bits). -/
def stepNewer (a b : W32) : Bool := decide (1 ≤ (a - b).toNat) && decide ((a - b).toNat < 2 ^ 31)

/-- A frame's step number is stale against `b`: older, or at the distance at which neither is newer (R50). -/
def stepStale (a b : W32) : Bool := stepNewer b a || decide ((b - a).toNat = 2 ^ 31)

/-- An entry whose arrival completes becomes READY, and a SPEC mark of a closed step is settled by its outcome (R254,
R263). -/
def State.arriveEntry (s : State) (k : Nat) (bwd : Bool) (e : Nat) : State :=
  let x := s.entry k bwd e
  let order := (s.ctx k).arrivals
  let s := s.modCtx k (fun c => { c with arrivals := c.arrivals + 1 })
  let s := s.modEntry k bwd e (fun y => { y with state := .ready, order := order })
  if x.discard then s.discardEntry k bwd e
  else if !x.spec then s
  else match s.outcome x.specStep with
    | some true => s.modEntry k bwd e (fun y => { y with spec := false })
    | some false => s.discardEntry k bwd e
    | none =>
      if stepStale x.specStep s.commit.stepNumber then (s.discardEntry k bwd e).logDiscards k bwd 1 else s

/-- Payload written where a frame lands it; POISON marks every poison unit of the 64-byte units that it covers (R314).
-/
def State.landPayload (s : State) (key : Nat) (bs : List Byte) (poison : Bool) : State :=
  let s := s.write key bs
  if poison then s.markPoison (frameUnits key bs.length) else s

/-- Entries of a sluice, as numbers, that satisfy a test. -/
def State.entriesWhere (s : State) (k : Nat) (bwd : Bool) (p : Entry → Bool) : List Nat :=
  (((s.ctx k).sluice bwd).filter (fun e => p e.2)).map (·.1)

/-- The sends of a context arrive whole and in order (R259), so a frame of another entry shows that the send of an entry
still ARRIVING was aborted: the entry is discarded, and its credit returns (R260, R264; DEDUCED, log 27). -/
def State.dropStalled (s : State) (k : Nat) (f : DataF) : State :=
  (s.entriesWhere k f.bwd (fun x => x.state == .arriving)).foldl (fun st e =>
    if e = f.entry then st else st.discardEntry k f.bwd e) s

/-- A DATA frame's payload, or a local send, reaches an entry, which is READY once the frame with LAST has arrived and
every byte is written (R254, R314, R315). -/
def State.arriveData (s : State) (k : Nat) (f : DataF) (poison : Bool) : State :=
  let item := s.ctxItem k
  let key := item.entryAddr f.bwd f.entry + f.offset
  let s := s.modEntry k f.bwd f.entry (fun x => { x with
    state := .arriving
    tag := f.tag
    spec := f.spec
    specStep := f.specStep
    poison := x.poison || poison
    last := x.last || f.last
    bytes := x.bytes + f.payload.length
    total := f.totalBytes })
  let s := s.landPayload key f.payload poison
  let x := s.entry k f.bwd f.entry
  if x.last && decide (x.total ≤ x.bytes) then s.arriveEntry k f.bwd f.entry else s

/-! ### The geometry exchange (R253) -/

/-- What a context compares on one side with its peer (R253): its own sluice that the peer fills, and its items about
the peer's sluice. -/
def CtxItem.ownSide (i : CtxItem) (prev : Bool) : (Nat × Nat) × (Nat × Nat) :=
  if prev then ((i.fwdEntryBytes, i.fwdDepth), (i.prevEntryBytes, i.prevDepth))
  else ((i.bwdEntryBytes, i.bwdDepth), (i.nextEntryBytes, i.nextDepth))

/-- A context and its local peer name each other, and each end's items are the other's geometry (R253). -/
def State.localAgree (s : State) (k : Nat) (prev : Bool) : Bool :=
  let i := s.ctxItem k
  let j := s.ctxItem (if prev then i.prevCtx else i.nextCtx)
  let (own, items) := i.ownSide prev
  let (peerOwn, peerItems) := j.ownSide (!prev)
  (if prev then j.nextKind == 2 && j.nextCtx == k else j.prevKind == 2 && j.prevCtx == k) &&
    own == peerItems && peerOwn == items

/-- The geometry exchange of one side (R253). What a peer on a causeway sends, and its own verdict, is open (log 40):
entry bytes in bits 31:0 of a free value, depth in bits 38:32, and bit 39 where the peer finds that they differ. -/
def State.compareSide (s : State) (k : Nat) (prev : Bool) : State :=
  let i := s.ctxItem k
  let kind := if prev then i.prevKind else i.nextKind
  let (bad, s) :=
    if kind = 0 then (false, s)
    else if kind = 2 then (!s.localAgree k prev, s)
    else
      let (w, s) := s.draw
      let peer := (w.toNat % 2 ^ 32, w.toNat / 2 ^ 32 % 2 ^ 7)
      (peer != (i.ownSide prev).2 || w.getLsbD 39, s)
  if (s.ctx k).mismatch prev = bad then s
  else s.modCtx k (fun x => if prev then { x with prevMismatch := bad } else { x with nextMismatch := bad })

/-- The sides of contexts whose causeway peer may have started up or applied a configuration of its own send their
geometry anew (R253). Whether the peer did is open: bit 40 of a free value says so (log 40). -/
def State.hearPeer (s : State) (k : Nat) (prev : Bool) : State :=
  let i := s.ctxItem k
  if (if prev then i.prevKind else i.nextKind) != 1 then s
  else
    let (w, s) := s.draw
    if w.getLsbD 40 then s.compareSide k prev else s

/-- Every causeway peer that `p` names is heard (R253): at the close of a step, where its apply falls, and at its port's
training, where its start-up does. -/
def State.hearPeers (s : State) (p : Nat → Bool) : State :=
  (List.range 16).foldl (fun st k =>
    let i := st.ctxItem k
    let st := if p i.prevPort then st.hearPeer k true else st
    if p i.nextPort then st.hearPeer k false else st) s

/-! ### Commands that name a micro-batch (R250, R261) -/

/-- The micro-batch that a command's MB field names; array commands name none (R250). -/
def Cmd.namesMb (c : Cmd) : Option Nat :=
  if c.opcode = 0x14 then (if (drainP c).usesStash then some (drainP c).mb else none)
  else if c.opcode = 0x20 || c.opcode = 0x21 || c.opcode = 0x22 || c.opcode = 0x23 || c.opcode = 0x30 || c.opcode = 0x31 then
    some (c.param 0 1)
  else if c.opcode = 0x32 then some (c.param 1 1)
  else none

/-- Started commands of a context that name a micro-batch. -/
def State.mbCmds (s : State) (k m : Nat) : List Cmd :=
  (s.ring (k + 1)).started.filter (fun c => c.namesMb == some m)

/-- A DRAIN that names the stash reservation of a micro-batch through SPACE 0x3 holds it (R203). -/
def State.stashHeld (s : State) (k m : Nat) : Bool := (s.mbCmds k m).any (fun c => c.opcode == 0x14)

/-- The reservation is freed, or its release waits for the DRAINs that hold it (R203, R248). -/
def State.freeReservation (s : State) (k m : Nat) : State :=
  if s.stashHeld k m then s.modMb k m (fun x => { x with releasing := true })
  else s.modMb k m (fun x => { x with releasing := false, baseUnits := 0, sizeUnits := 0 })

/-! ### Aborted commands (R250, R264) -/

/-- Frames of a send: its two segments in payloads of at most 16,256 bytes (R259, R311). -/
def Cmd.sendCount (c : Cmd) : Nat := (payloadParts (c.param 4 4)).length + (payloadParts (c.param 0x10 4)).length

/-- The peer's sluice that a send fills, as its own side and credits: SEND_GRAD toward the previous stage. -/
def Cmd.sendsBack (c : Cmd) : Bool := c.opcode == 0x22

/-- A frame of a send of context `k` into an entry of its peer's sluice. -/
def frameOfSend (f : Frame) (k : Nat) (back : Bool) (e : Nat) : Bool :=
  match f.body with
  | .data d => d.entry == e && d.bwd == back && f.hdr.srcCtx == k
  | _ => false

/-- An aborted send over a causeway that has claimed an entry (R260, R264; log 27). Its unsent frames are withdrawn.
Where none had left, the entry is still EMPTY and its credit is back at once; else the receiver discards what arrived,
and the credit comes back with its CREDIT frame, once the entry is EMPTY again (R255). -/
def State.abortSend (s : State) (k : Nat) (c : Cmd) : State :=
  let item := s.ctxItem k
  let kind := if c.sendsBack then item.prevKind else item.nextKind
  match c.work, c.aux with
  | .waiting .peer, [_, _, e, _] =>
    if kind = 1 then
      let port := if c.sendsBack then item.prevPort else item.nextPort
      let mine (f : Frame) : Bool := frameOfSend f k c.sendsBack e
      let unsent := ((s.port port).queue.filter mine).length
      let s := s.modPort port (fun x => { x with queue := x.queue.filter (fun f => !mine f) })
      if unsent = c.sendCount then s.modCredits k c.sendsBack (fun w => withBit w e true) else s
    else s
  | _, _ => s

/-- A started command that names a dropped or rewound micro-batch completes with ABORTED (R250, R263). A VERSION_PIN that
waits for its holds has taken no pin (R238). -/
def State.abortCmd (s : State) (c : Cmd) : State :=
  let s := if c.opcode = 0x21 || c.opcode = 0x22 then s.abortSend (ctxOfRing c.ring) c
    else if c.opcode = 0x30 && c.work == .waiting .holds then s.undoPins c (ctxOfRing c.ring) (c.param 0 1)
    else s
  let body := s.getBody c.ref
  ((s.dropGet c.ref).dropHolds c.ref).complete c .aborted 0 body

def State.abortMbCmds (s : State) (k m : Nat) : State := (s.mbCmds k m).foldl (fun st c => st.abortCmd c) s

/-! ### Drops and rewinds (R250, R263) -/

/-- DROPS and the drop signal. -/
def State.noteDrop (s : State) (k : Nat) : State :=
  let s := s.modCtx k (fun x => { x with drops := satAdd 16 x.drops 1 })
  let x := s.ctx k
  if x.dropSignalEn then s.setSignal x.dropSignal else s

/-- A drop, whole at one Tidemark (R250). -/
def State.dropMb (s : State) (k m : Nat) : State :=
  let x := s.mb k m
  let s := s.unpinLayers k m (x.pins.map (·.1))
  let s := s.abortMbCmds k m
  let s := match x.bwdEntry with
    | some e => s.discardEntry k true e
    | none => s
  let s := match x.fwdEntry with
    | some e => if (s.entry k false e).spec then s.discardEntry k false e else s.returnEntry k e
    | none => s
  let s := s.modMb k m (fun y => { y with
    state := .free, dropped := true, inherited := none, bwdSpec := none, fwdEntry := none, bwdEntry := none,
    tag := 0, pins := [] })
  (s.freeReservation k m).noteDrop k

/-- A rewind: the backward entry is discarded, pins and reservation are kept (R263). -/
def State.rewindMb (s : State) (k m : Nat) : State :=
  let x := s.mb k m
  let s := s.abortMbCmds k m
  let s := match x.bwdEntry with
    | some e => s.discardEntry k true e
    | none => s
  (s.modMb k m (fun y => { y with state := .forward, dropped := true, bwdSpec := none, bwdEntry := none })).noteDrop k

/-- Admitted micro-batches of a context. -/
def State.admittedMbs (s : State) (k : Nat) : List Nat :=
  ((s.ctx k).mbs.filter (fun e => e.2.admitted)).map (·.1)

/-- One sluice at a step abort: steps 3 to 5 of R263. -/
def State.abortSluice (s : State) (k : Nat) (bwd : Bool) (step : W32) : State :=
  let marked := s.entriesWhere k bwd (fun x =>
    (x.state == .ready || x.state == .freeing) && x.spec && x.specStep == step)
  let s := marked.foldl (fun st e => st.discardEntry k bwd e) s
  let s := s.modSluice k bwd (fun t => t.map (fun e =>
    if e.2.state = .arriving && e.2.spec && e.2.specStep == step then (e.1, { e.2 with discard := true }) else e))
  let freed := s.entriesWhere k bwd (fun x => x.state == .freeing && !x.spec && x.freeStep == step)
  freed.foldl (fun st e => if bwd then st.discardEntry k bwd e else st.returnEntry k e) s

/-- Micro-batches of a context that hold something or wait for it: every one that is not FREE. -/
def State.usedMbs (s : State) (k : Nat) : List Nat := ((s.ctx k).mbs.filter (fun e => e.2.state != .free)).map (·.1)

/-- A stage context at a step abort (R263). Pin speculation is tied to the open step; an admission that has taken a
provisional pin and waits for its holds is dropped like an admitted micro-batch. -/
def State.abortCtx (s : State) (step : W32) (k : Nat) (pinned : List Nat) : State :=
  let dropped := (s.usedMbs k).filter (fun m => pinned.contains m || (s.mb k m).inherited == some step)
  let s := dropped.foldl (fun st m => st.dropMb k m) s
  let rewound := (s.admittedMbs k).filter (fun m => (s.mb k m).bwdSpec == some step)
  let s := rewound.foldl (fun st m => st.rewindMb k m) s
  (s.abortSluice k false step).abortSluice k true step

/-- A stage context at a step commit (R263). -/
def State.commitCtx (s : State) (step : W32) (k : Nat) : State :=
  let settle (s : State) (bwd : Bool) : State :=
    let s := s.modSluice k bwd (fun t => t.map (fun e =>
      if e.2.spec && e.2.specStep == step then (e.1, { e.2 with spec := false }) else e))
    (s.entriesWhere k bwd (fun x => x.state == .freeing && x.freeStep == step)).foldl
      (fun st e => st.emptyEntry k bwd e) s
  let s := settle (settle s false) true
  s.modCtx k (fun x => { x with mbs := x.mbs.map (fun e => (e.1, { e.2 with
    inherited := if e.2.inherited = some step then none else e.2.inherited
    bwdSpec := if e.2.bwdSpec = some step then none else e.2.bwdSpec })) })

/-! ### Admission (R244 to R246, R256 to R258) -/

/-- 64 KiB units of a footprint (R244). -/
def footprintUnits (bytes : Nat) : Nat := (bytes + 65535) / 65536

/-- Reserved runs of a pool. -/
def Ctx.runs (x : Ctx) : List (Nat × Nat) :=
  (x.mbs.filter (fun e => e.2.sizeUnits != 0)).map (fun e => (e.2.baseUnits, e.2.sizeUnits))

def runFree (runs : List (Nat × Nat)) (base n : Nat) : Bool :=
  runs.all (fun r => decide (base + n ≤ r.1) || decide (r.1 + r.2 ≤ base))

/-- The lowest-offset run of free units that is long enough (R245): it begins at the pool's start or where a reservation
ends. -/
def Ctx.firstFit (x : Ctx) (n : Nat) : Option Nat :=
  let starts := x.poolBase :: x.runs.map (fun r => r.1 + r.2)
  let ok := starts.filter (fun b => decide (x.poolBase ≤ b) && decide (b + n ≤ x.poolBase + x.poolSize) && runFree x.runs b n)
  match ok with
  | [] => none
  | b :: bs => some (bs.foldl min b)

/-- The entry that a forward admission takes: returned entries first, then the order in which they became READY. -/
def State.oldestReady (s : State) (k : Nat) : Option Nat :=
  let ready := ((s.ctx k).fwd.filter (fun e => e.2.state == .ready))
  let best (a b : Nat × Entry) : Nat × Entry :=
    if b.2.returned && !a.2.returned then b
    else if a.2.returned && !b.2.returned then a
    else if b.2.order < a.2.order then b else a
  match ready with
  | [] => none
  | e :: es => some (es.foldl best e).1

/-- The backward entry whose TAG is the micro-batch's, the lowest index (R256). -/
def State.taggedReady (s : State) (k : Nat) (tag : W32) : Option Nat :=
  ((s.ctx k).bwd.find? (fun e => e.2.state == .ready && e.2.tag == tag)).map (·.1)

/-- BODY of an admission (R258). -/
def State.admitBody (s : State) (k m : Nat) (bwd : Bool) (entry : Option Nat) (pins : Nat) : List Byte :=
  let x := s.mb k m
  let e := match entry with
    | some i => s.entry k bwd i
    | none => {}
  bodyOf [(0, 8, 65536 * x.baseUnits), (8, 4, x.sizeUnits), (12, 4, x.tag.toNat), (16, 1, entry.getD 0xFF),
    (17, 1, b2n (s.mbSpec x) + 2 * b2n x.bwdSpec.isSome + 4 * b2n e.poison), (18, 2, pins), (20, 4, e.total),
    (24, 8, match entry with | some i => (s.ctxItem k).entryAddr bwd i | none => 0)]

def State.reserve (s : State) (k m base n : Nat) : State :=
  let s := s.modMb k m (fun x => { x with baseUnits := base, sizeUnits := n })
  s.modCtx k (fun x => { x with peakUnits := max x.peakUnits (sumNat (x.runs.map (·.2))) })

/-- What a forward admission lacks: 0 entry, 2 reservation, 3 pin (R246, R266). -/
inductive AdmitAnswer where
  | noSpace
  | lacks (cause : Nat)
  | bad (layer : Nat)
  | gone (layer : Nat)
  | grant (entry : Option Nat) (base : Nat) (picks : List (Nat × Nat))
  deriving DecidableEq, Repr

def State.admitAnswer (s : State) (c : Cmd) : AdmitAnswer :=
  let k := ctxOfRing c.ring
  let m := c.param 0 1
  let x := s.ctx k
  let units := footprintUnits (c.param 0x10 8)
  let needsEntry := (s.ctxItem k).prevKind != 0
  let entry := if needsEntry then s.oldestReady k else none
  let base := if units = 0 then some 0 else x.firstFit units
  if x.poolSize < units then .noSpace
  else if needsEntry && entry.isNone then .lacks 0
  else match base with
    | none => .lacks 2
    | some b =>
      if (s.mb k m).releasing then .lacks 2
      else match s.pinAnswer k m (c.param 2 1) (BitVec.ofNat 16 (c.param 8 2)) (c.param 4 2) (c.param 6 2) with
        | .bad l => .bad l
        | .gone l => .gone l
        | .wait => .lacks 3
        | .grant picks => .grant entry b picks

/-- A forward admission that does not succeed leaves its number FREE (R249). -/
def State.endAdmit (s : State) (c : Cmd) (st : Status) (detail : Nat) : State :=
  let k := ctxOfRing c.ring
  (s.modMb k (c.param 0 1) (fun x => { x with state := .free })).complete c st detail []

/-- The admission is granted whole: the number is in FORWARD (R249, R250). -/
def State.enterForward (s : State) (k m : Nat) : State :=
  (s.modMb k m (fun x => { x with state := .forward, dropped := false })).modCtx k (fun x =>
    { x with admissions := x.admissions + 1 })

/-- The grant of a forward admission takes everything at one Tidemark (R246, R256); the number stays in ADMITTING while
holds of its pins wait for their acknowledgements (R238, R249). -/
def State.grantAdmit (s : State) (c : Cmd) (entry : Option Nat) (base : Nat) (picks : List (Nat × Nat)) : State :=
  let k := ctxOfRing c.ring
  let m := c.param 0 1
  let e := match entry with
    | some i => s.entry k false i
    | none => { tag := BitVec.ofNat 32 (c.param 0x0C 4) }
  let s := s.modMb k m (fun x => { x with
    tag := e.tag, fwdEntry := entry, bwdEntry := none, pins := [], bwdSpec := none,
    inherited := if e.spec then some e.specStep else none })
  let s := match entry with
    | some i => s.modEntry k false i (fun y => { y with state := .taken, mb := m })
    | none => s
  let s := s.reserve k m base (footprintUnits (c.param 0x10 8))
  let (s, taken) := s.takePins c.ref k m picks
  if s.holdsDone c.ref then
    (let s := (s.dropHolds c.ref).enterForward k m
     s.complete c .ok 0 (s.admitBody k m false entry picks.length))
  else (s.modCmd c.ref (fun c => { c with aux := taken })).setWait c.ref .holds none

/-- A forward admission is tried; `first` is the try at its start. -/
def State.tryAdmit (s : State) (c : Cmd) (first : Bool) : State :=
  match s.admitAnswer c with
  | .noSpace => s.endAdmit c .noSpace 0
  | .bad _ => s.endAdmit c .badParam 0x44
  | .gone l => s.endAdmit c .versionGone l
  | .lacks _ => if first then s.setWait c.ref .admission c.deadline else s
  | .grant e b picks => s.grantAdmit c e b picks

/-- A backward admission is tried (R256). -/
def State.tryAdmitBack (s : State) (c : Cmd) (first : Bool) : State :=
  let k := ctxOfRing c.ring
  let m := c.param 0 1
  if (s.ctxItem k).nextKind = 0 then
    let s := s.modMb k m (fun x => { x with state := .backward, dropped := false })
    s.complete c .ok 0 (s.admitBody k m true none 0)
  else match s.taggedReady k (s.mb k m).tag with
    | none => if first then s.setWait c.ref .admission c.deadline else s
    | some i =>
      let e := s.entry k true i
      let s := s.modMb k m (fun x => { x with
        state := .backward, dropped := false, bwdEntry := some i, bwdSpec := if e.spec then some e.specStep else none })
      let s := s.modEntry k true i (fun y => { y with state := .taken, mb := m })
      s.complete c .ok 0 (s.admitBody k m true (some i) 0)

def State.tryAnyAdmit (s : State) (c : Cmd) (first : Bool) : State :=
  if c.param 1 1 = 0 then s.tryAdmit c first else s.tryAdmitBack c first

/-- Parameter checks of MB_ADMIT (R258). -/
def admitChecks (s : State) (c : Cmd) : List (Bool × Nat) :=
  let k := ctxOfRing c.ring
  let dir := c.param 1 1
  let mode := c.param 2 1
  let layer := c.param 4 2
  let count := c.param 6 2
  let foot := c.param 0x10 8
  [(decide (c.param 0 1 < 64), 0), (decide (dir ≤ 1), 1), (decide (mode ≤ 3), 2),
   (count == 0 || decide (layer < 4096), 4),
   (decide (count ≤ 4096) && (count == 0 || decide (layer + count ≤ 4096)) && (mode != 2 || decide (count ≤ 1)) &&
     (dir == 0 || count == 0), 6),
   (decide (2 ≤ mode) || c.param 8 2 == 0, 8),
   (((s.ctxItem k).prevKind == 0 && dir == 0) || c.param 0x0C 4 == 0, 0x0C),
   (decide (foot ≤ 64 * 2 ^ 30) && (dir == 0 || foot == 0), 0x10)] ++
  reservedFail c 64 [(0, 3), (4, 6), (0x0C, 0x10)]

/-- MB_ADMIT (R256 to R258); a step close whose Tidemark has come is applied first (R264). -/
def execMbAdmit (dt : Nat) (ring : Fin 17) (s : State) : Result :=
  let s := s.advance dt
  match (if s.closeDue then none else s.take ring 0x20) with
  | none => s.idle
  | some (c, s) =>
    match lowestFail (admitChecks s c) with
    | some o => .next (s.badParam c o)
    | none =>
      let k := ctxOfRing ring
      let m := c.param 0 1
      let x := s.mb k m
      let t := c.param 0x18 4
      let c := { c with deadline := if t = 0 then none else some (s.tide + 1000 * t) }
      if c.param 1 1 = 0 then
        (if x.state ≠ .free then .next (s.complete c .busy 0 [])
         else .next ((s.modMb k m (fun x => { x with state := .admitting })).tryAnyAdmit c true))
      else if x.state = .forward then .next (s.tryAnyAdmit c true)
      else if x.dropped then .next (s.complete c .aborted 0 [])
      else .next (s.badParam c 0)

/-- The MB_ADMIT of a context that waits. -/
def State.waitingAdmit (s : State) (k : Nat) : Option Cmd :=
  (s.ring (k + 1)).cmds.find? (fun c => c.opcode == 0x20 && c.work == .waiting .admission)

/-- ADMISSION_GRANT (R246): after a close that is due (R264), and not once the admission has timed out (R257). -/
def execAdmissionGrant (dt : Nat) (ctx : Fin 16) (s : State) : Result :=
  let s := s.advance dt
  match s.waitingAdmit ctx with
  | none => s.idle
  | some c => if s.closeDue || s.past c.deadline then s.idle else .next (s.tryAnyAdmit c false)

/-- ADMIT_TIMEOUT (R257): what becomes available at the very Tidemark is granted. -/
def execAdmitTimeout (dt : Nat) (ctx : Fin 16) (s : State) : Result :=
  let s := s.advance dt
  match s.waitingAdmit ctx with
  | none => s.idle
  | some c =>
    if s.closeDue || !s.due c.deadline then s.idle
    else
      let s := if s.past c.deadline then s else s.tryAnyAdmit c false
      match s.waitingAdmit ctx with
      | none => .next s
      | some c => if c.param 1 1 = 0 then .next (s.endAdmit c .timeout 0) else .next (s.complete c .timeout 0 [])

/-! ### Holds of pin requests and admissions (R238) -/

/-- A pin request or an admission whose holds fail takes nothing (R238). -/
def State.failHolds (s : State) (c : Cmd) (st : Status) (detail : Nat) : State :=
  let k := ctxOfRing c.ring
  let m := c.param 0 1
  let s := s.undoPins c k m
  if c.opcode = 0x20 then
    let x := s.mb k m
    let s := match x.fwdEntry with
      | some e => s.modEntry k false e (fun y => { y with state := .ready, mb := 0 })
      | none => s
    let s := s.modMb k m (fun x => { x with
      state := .free, inherited := none, fwdEntry := none, tag := 0, baseUnits := 0, sizeUnits := 0 })
    s.finish c.ref st detail []
  else s.finish c.ref st detail []

/-- The last acknowledgement has come: the request is complete. -/
def State.settleHolds (s : State) (ref : CmdRef) : State :=
  match s.findCmd ref with
  | none => s.dropHolds ref
  | some c =>
    if c.work = .waiting .holds && s.holdsDone ref then
      let s := s.dropHolds ref
      let k := ctxOfRing c.ring
      let m := c.param 0 1
      if c.opcode = 0x20 then
        (let s := s.enterForward k m
         s.finish ref .ok 0 (s.admitBody k m false (s.mb k m).fwdEntry (c.param 6 2)))
      else s.finish ref .ok 0 (s.pinBody c)
    else s

/-- HOLD_TIMEOUT (R238). -/
def execHoldTimeout (dt : Nat) (ring : Fin 17) (seq : W16) (s : State) : Result :=
  let s := s.advance dt
  match s.findWait ring seq .holds with
  | none => s.idle
  | some c =>
    if s.coll.holdReqs.any (fun h => h.cmd == c.ref && !h.waiting.isEmpty && decide (h.sentAt + 1000000 ≤ s.tide)) then
      .next (s.failHolds c .faulted 0)
    else s.idle

/-! ### Sending (R259, R260, R262) -/

/-- The side of a send: the peer's kind, port, module and context, and its entry size. -/
def sendSide (item : CtxItem) (back : Bool) : Nat × Nat × W16 × Nat × Nat :=
  if back then (item.prevKind, item.prevPort, item.prevModule, item.prevCtx, item.prevEntryBytes)
  else (item.nextKind, item.nextPort, item.nextModule, item.nextCtx, item.nextEntryBytes)

/-- The segments of a send: key, bytes and offset within the entry (R259). -/
def sendSegments (s : State) (c : Cmd) : List (Nat × Nat × Nat) :=
  let die := some (c.param 1 1)
  let n := c.param 4 4
  let n2 := c.param 0x10 4
  let key (a len : Nat) : Nat := (s.resolve [0, 1, 2, 4, 5] die a len).getD 0
  (key (c.param 8 8) n, n, 0) :: (if n2 = 0 then [] else [(key (c.param 0x18 8) n2, n2, roundUp n 256)])

/-- The payloads of a send, in ascending offset: key, bytes, offset in the entry. -/
def sendParts (s : State) (c : Cmd) : List (Nat × Nat × Nat) :=
  (sendSegments s c).flatMap (fun g => (payloadParts g.2.1).map (fun p => (g.1 + p.1, p.2, g.2.2 + p.1)))

/-- The freed entry becomes EMPTY, or FREEING where the micro-batch is speculative, forward or backward, until the step
that the speculation is tied to closes (R259, R262, R263; DEDUCED, log 40). -/
def State.freeEntry (s : State) (k m : Nat) (bwd : Bool) : State :=
  let x := s.mb k m
  match if bwd then x.bwdEntry else x.fwdEntry with
  | none => s
  | some e =>
    let spec := s.mbSpec x || x.bwdSpec.isSome
    let s := s.modMb k m (fun y => if bwd then { y with bwdEntry := none } else { y with fwdEntry := none })
    if spec then
      s.modEntry k bwd e (fun y => { y with state := .freeing, freeStep := (x.inherited.or x.bwdSpec).getD s.commit.stepNumber })
    else s.emptyEntry k bwd e

/-- The receiver has marked the entry READY: FREE_IN, and the result (R259, R260). -/
def State.endSend (s : State) (c : Cmd) : State :=
  let s := if (c.param 2 1).testBit 0 then s.freeEntry (ctxOfRing c.ring) (c.param 0 1) c.sendsBack else s
  match c.aux with
  | [_, _, e, t] => s.complete c .ok 0 (bodyOf [(0, 4, e), (8, 8, t)])
  | _ => s.complete c .ok 0 []

/-- The frames of a send, with LAST on the last one (R315). -/
def sendFrames (s : State) (c : Cmd) (e : Nat) (spec : Bool) (step : W32) : List (Bool × DataF) :=
  let parts := sendParts s c
  let tag := (s.mb (ctxOfRing c.ring) (c.param 0 1)).tag
  let total := c.param 4 4 + c.param 0x10 4
  (parts.zipIdx).map (fun p =>
    (s.poisoned p.1.1 p.1.2.1,
     { tag := tag, entry := e, bwd := c.sendsBack, spec := spec, last := p.2 + 1 == parts.length, specStep := step,
       offset := p.1.2.2, payload := s.read p.1.1 p.1.2.1, totalBytes := total }))

/-- A send takes the lowest credit and transfers (R255, R315). -/
def State.transfer (s : State) (c : Cmd) (e : Nat) : State :=
  let k := ctxOfRing c.ring
  let (kind, port, m, peer, _) := sendSide (s.ctxItem k) c.sendsBack
  let (spec, step) := match c.aux with
    | x :: y :: _ => (x == 1, BitVec.ofNat 32 y)
    | _ => (false, (0 : W32))
  let frames := sendFrames s c e spec step
  let s := s.modCredits k c.sendsBack (fun w => withBit w e false)
  let c := { c with aux := [b2n spec, step.toNat, e, s.tide] }
  let s := s.modCmd c.ref (fun d => { d with aux := c.aux })
  if kind = 2 then (frames.foldl (fun st f => st.arriveData peer f.2 f.1) s).endSend c
  else
    let s := s.setWait c.ref .peer none
    frames.foldl (fun st f =>
      st.send port { poison := f.1, srcCtx := k, dstCtx := peer, dstModule := m } (.data f.2)) s

/-- A send into entry `e` is held for now: its source, as the dies that carry it to the port see it, or the copy into a
local peer's entry (R21, R24, R205, R379). -/
def State.sendHeld (s : State) (c : Cmd) (e : Nat) : Bool :=
  let (kind, port, _, peer, _) := sendSide (s.ctxItem (ctxOfRing c.ring)) c.sendsBack
  let dest := (s.ctxItem peer).entryAddr c.sendsBack e
  (sendSegments s c).any (fun g =>
    if kind = 1 then s.rangeStops (ioBase s.pkg.suffix (port / 4)) g.1 g.2.1 else s.copyStops g.1 (dest + g.2.2) g.2.1)

/-- The lowest credit a send may take: an older send of the same context and direction goes first (R259), and a held
source or destination keeps the send from transferring. -/
def State.sendCredit (s : State) (c : Cmd) : Option Nat :=
  let x := s.ctx (ctxOfRing c.ring)
  let w := if c.sendsBack then x.prevCredits else x.nextCredits
  let older := (s.ring c.ring).cmds.any (fun d =>
    d.opcode == c.opcode && decide (d.fetchOrder < c.fetchOrder) && d.work == .waiting .credit)
  if older then none else (bitsSet w.toNat 64).head?.filter (fun e => !s.sendHeld c e)

def State.trySend (s : State) (c : Cmd) (first : Bool) : State :=
  match s.sendCredit c with
  | some e => s.transfer c e
  | none => if first then s.setWait c.ref .credit c.deadline else s

/-- The states in which a micro-batch may send (R259, R260). -/
def Mb.sendable (m : Mb) (back : Bool) : Bool := m.state == .backward || (m.state == .forward && !back)

/-- Parameter checks of a send (R260). The peer's kind comes first, at the offset of OPCODE. -/
def sendChecks (s : State) (c : Cmd) : List (Bool × Nat) :=
  let k := ctxOfRing c.ring
  let m := c.param 0 1
  let x := s.mb k m
  let n := c.param 4 4
  let n2 := c.param 0x10 4
  let (_, _, _, _, room) := sendSide (s.ctxItem k) c.sendsBack
  let die := c.param 1 1
  let stateOk := x.sendable c.sendsBack || x.dropped
  [(decide (m < 64) && stateOk, 0), (s.dieBound k die, 1), (decide (c.param 2 1 < 2), 2),
   (decide (1 ≤ n) && decide (n ≤ room), 4), (s.inSpace [0, 1, 2, 4, 5] (some die) (c.param 8 8) n, 8),
   (n2 == 0 || decide (roundUp n 256 + n2 ≤ room), 0x10),
   (n2 == 0 || s.inSpace [0, 1, 2, 4, 5] (some die) (c.param 0x18 8) n2, 0x18)] ++
  reservedFail c 64 [(0, 3), (4, 0x1C)]

/-- SEND_ACT and SEND_GRAD from their start (R259, R260, R262). One that names a die that DIE_REPAIR holds waits, as it
stood in `before` (R391). -/
def State.startSend (s before : State) (c : Cmd) : Result :=
  let k := ctxOfRing c.ring
  let x := s.mb k (c.param 0 1)
  let (kind, _, _, _, _) := sendSide (s.ctxItem k) c.sendsBack
  if kind = 0 then .next (s.complete c .badParam 0 [])
  else match lowestFail (sendChecks s c) with
    | some o => .next (s.badParam c o)
    | none =>
      if !x.sendable c.sendsBack then .next (s.complete c .aborted 0 [])
      else if (s.ctx k).mismatch c.sendsBack then .next (s.complete c .faulted 0 [])
      else if s.dieRefuses (c.param 1 1) || (sendSegments s c).any (fun g => !s.keyServed g.1) then
        .next (s.complete c .faulted 0 [])
      else if s.dieWaits (c.param 1 1) then before.idle
      else
        let spec := s.mbSpec x || (c.sendsBack && x.bwdSpec.isSome)
        let t := c.param 0x14 4
        let c := { c with
          aux := [b2n spec, s.commit.stepNumber.toNat]
          deadline := if t = 0 then none else some (s.tide + 1000 * t) }
        .next ((s.modCmd c.ref (fun d => { d with aux := c.aux })).trySend c true)

def execSendAct (dt : Nat) (ring : Fin 17) (s : State) : Result :=
  let before := s.advance dt
  match before.take ring 0x21 with
  | none => before.idle
  | some (c, s) => s.startSend before c

def execSendGrad (dt : Nat) (ring : Fin 17) (s : State) : Result :=
  let before := s.advance dt
  match before.take ring 0x22 with
  | none => before.idle
  | some (c, s) => s.startSend before c

/-- SEND_CREDIT_TAKE (R255), not once the send has timed out (R260, R264). -/
def execSendCreditTake (dt : Nat) (ring : Fin 17) (seq : W16) (s : State) : Result :=
  let s := s.advance dt
  match s.findWait ring seq .credit with
  | none => s.idle
  | some c => if s.past c.deadline then s.idle else .next (s.trySend c false)

/-- SEND_TIMEOUT (R260, R264): a credit that returns at the very Tidemark is taken, one that returns later is not. -/
def execSendTimeout (dt : Nat) (ring : Fin 17) (seq : W16) (s : State) : Result :=
  let s := s.advance dt
  match s.findWait ring seq .credit with
  | none => s.idle
  | some c =>
    if !s.due c.deadline then s.idle
    else match (if s.past c.deadline then none else s.sendCredit c) with
      | some e => .next (s.transfer c e)
      | none => .next (s.complete c .timeout 0 [])

/-- Codewords that carried a list of frames. -/
def codewordsOf (fs : List Frame) : Nat := sumNat (fs.map frameCodewords)

/-- Every frame of a causeway send has been acknowledged by the peer's receiver (R310; DEDUCED, log 28). -/
def State.sendDelivered (s : State) (c : Cmd) : Bool :=
  let k := ctxOfRing c.ring
  let (_, port, _, _, _) := sendSide (s.ctxItem k) c.sendsBack
  let p := s.port port
  let mine (f : Frame) : Bool := match c.aux with
    | [_, _, e, _] => frameOfSend f k c.sendsBack e
    | _ => false
  let lastTail := p.sent.reverse.takeWhile (fun f => !mine f)
  c.work == .waiting .peer && !(p.queue.any mine) && decide (p.unacked ≤ codewordsOf lastTail)

/-! ### Release (R248, R261) -/

/-- MB_RELEASE (R261). -/
def execMbRelease (dt : Nat) (ring : Fin 17) (s : State) : Result :=
  let s := s.advance dt
  match s.take ring 0x23 with
  | none => s.idle
  | some (c, s) =>
    let k := ctxOfRing ring
    let m := c.param 0 1
    let x := s.mb k m
    let ok := decide (m < 64) && (x.state == .forward || x.state == .backward || x.gone)
    match lowestFail ((ok, 0) :: reservedFail c 64 [(0, 1)]) with
    | some o => .next (s.badParam c o)
    | none =>
      if x.gone then .next (s.complete c .aborted 0 [])
      else .next ((s.modMb k m (fun x => { x with state := .releasing })).setWait c.ref .release none)

/-- RELEASE_EFFECT (R261). -/
def execReleaseEffect (dt : Nat) (ctx : Fin 16) (mb : Fin 64) (s : State) : Result :=
  let s := s.advance dt
  let x := s.mb ctx mb
  let cmds := s.mbCmds ctx mb
  match cmds.find? (fun c => c.opcode == 0x23) with
  | none => s.idle
  | some c =>
    if x.state ≠ .releasing || cmds.length != 1 || s.mbSpec x || x.bwdSpec.isSome then s.idle
    else
      let body := bodyOf [(0, 2, x.pins.length), (4, 4, x.sizeUnits)]
      let s := s.unpinLayers ctx mb (x.pins.map (·.1))
      let s := match x.fwdEntry with
        | some e => s.emptyEntry ctx false e
        | none => s
      let s := match x.bwdEntry with
        | some e => s.emptyEntry ctx true e
        | none => s
      let s := s.modMb ctx mb (fun y => { y with
        state := .free, inherited := none, bwdSpec := none, fwdEntry := none, bwdEntry := none, tag := 0 })
      .next ((s.freeReservation ctx mb).complete c .ok 0 body)

/-- RESERVATION_RELEASE (R248). -/
def execReservationRelease (dt : Nat) (ctx : Fin 16) (mb : Fin 64) (s : State) : Result :=
  let s := s.advance dt
  if (s.mb ctx mb).releasing && !s.stashHeld ctx mb then .next (s.freeReservation ctx mb) else s.idle

/-! ### Registers of a stage context (12) -/

/-- CTX_BIND: an item that its side does not use reads back as given, cut to its field (R466). -/
def CtxItem.bindWord (x : CtxItem) (mismatch : Bool) : Nat :=
  x.dieMask.toNat + x.prevKind % 4 * 2 ^ 12 + x.nextKind % 4 * 2 ^ 14 + x.prevPort % 32 * 2 ^ 16 +
    x.nextPort % 32 * 2 ^ 21 + b2n mismatch * 2 ^ 26 + x.prevModule.toNat * 2 ^ 32 + x.prevCtx % 16 * 2 ^ 48 +
    x.nextCtx % 16 * 2 ^ 52

/-- A geometry word: entry size and depth, each cut to its field (R251, R466). -/
def geometryWord (bytes depth : Nat) : Nat := bytes % 2 ^ 32 + depth % 2 ^ 7 * 2 ^ 32

def EState.code : EState → Nat
  | .empty => 0
  | .arriving => 1
  | .ready => 2
  | .taken => 3
  | .freeing => 4

def MState.code : MState → Nat
  | .free => 0
  | .admitting => 1
  | .forward => 2
  | .backward => 3
  | .releasing => 4

def countStates (t : Tab Entry) (p : EState → Bool) : Nat := (t.filter (fun e => p e.2.state)).length

/-- FWD_STATUS and BWD_STATUS. -/
def Ctx.statusWord (x : Ctx) (bwd : Bool) : Nat :=
  let t := x.sluice bwd
  let credits := (bitsSet (if bwd then x.prevCredits else x.nextCredits).toNat 64).length
  countStates t (· == .ready) + countStates t (· == .arriving) * 2 ^ 8 +
    countStates t (fun e => e == .taken || e == .freeing) * 2 ^ 16 + credits * 2 ^ 24 +
    (if bwd then x.bwdDiscarded else x.fwdDiscarded) * 2 ^ 32

def State.ctxStatusWord (s : State) (k : Nat) : Nat :=
  let x := s.ctx k
  (s.admittedMbs k).length +
    (x.mbs.filter (fun e => e.2.admitted && (s.mbSpec e.2 || e.2.bwdSpec.isSome))).length * 2 ^ 8 +
    x.drops * 2 ^ 16 + x.admissions.toNat * 2 ^ 32

def Entry.word (e : Entry) : Nat :=
  e.tag.toNat + e.state.code * 2 ^ 32 + b2n e.spec * 2 ^ 35 + b2n e.poison * 2 ^ 36 + e.mb * 2 ^ 38 +
    min 0xFFFFF ((e.bytes + 255) / 256) * 2 ^ 44

def State.mbStateWord (s : State) (k m : Nat) : Nat :=
  let x := s.mb k m
  x.state.code + b2n (s.mbSpec x) * 2 ^ 3 + b2n x.bwdSpec.isSome * 2 ^ 4 + b2n x.dropped * 2 ^ 5 +
    x.fwdEntry.getD 0x7F * 2 ^ 8 + x.bwdEntry.getD 0x7F * 2 ^ 16 + x.tag.toNat * 2 ^ 32

def State.mbHoldWord (s : State) (k m : Nat) : Nat :=
  let x := s.mb k m
  x.baseUnits + x.sizeUnits * 2 ^ 24 + b2n (s.mbSpec x) * 2 ^ 60 +
    b2n (x.releasing || (x.state == .releasing && s.stashHeld k m)) * 2 ^ 61 + b2n x.admitted * 2 ^ 63

/-- The twelve IDLE counters and IDLE_TOTAL as they stand, or as latched (R455). -/
def Ctx.idleWords (x : Ctx) : List Nat := (List.range 12).map (fun c => tabGet 0 x.idle c) ++ [x.idleTotal]
def Ctx.idleWord (x : Ctx) (i : Nat) : Nat := if x.idleLatch.isEmpty then x.idleWords.getD i 0 else x.idleLatch.getD i 0

/-- Registers of a stage-context block. -/
def State.ctxWord (s : State) (k off : Nat) : Nat :=
  let i := s.ctxItem k
  let x := s.ctx k
  if off = 0x000 then i.bindWord x.peerMismatch
  else if off = 0x008 then i.nextModule.toNat
  else if off = 0x010 then i.fwdLand % 2 ^ 64
  else if off = 0x018 then geometryWord i.fwdEntryBytes i.fwdDepth
  else if off = 0x020 then i.bwdLand % 2 ^ 64
  else if off = 0x028 then geometryWord i.bwdEntryBytes i.bwdDepth
  else if off = 0x030 then geometryWord i.nextEntryBytes i.nextDepth
  else if off = 0x038 then geometryWord i.prevEntryBytes i.prevDepth
  else if off = 0x040 then x.statusWord false
  else if off = 0x048 then x.statusWord true
  else if off = 0x050 then s.ctxStatusWord k
  else if off = 0x058 then x.dropSignal + b2n x.dropSignalEn * 2 ^ 7
  else if off = 0x100 then x.lastSample
  else if 0x108 ≤ off && off ≤ 0x168 then x.idleWord ((off - 0x108) / 8)
  else if 0x180 ≤ off && off < 0x1A0 then
    sumNat ((List.range 16).map (fun j => tabGet 0xF x.causes (16 * ((off - 0x180) / 8) + j) * 2 ^ (4 * j)))
  else if 0x200 ≤ off && off < 0x400 then
    (let e := (off - 0x200) / 8
     if e < i.fwdDepth then (s.entry k false e).word else 0)
  else if 0x400 ≤ off && off < 0x600 then
    (let e := (off - 0x400) / 8
     if e < i.bwdDepth then (s.entry k true e).word else 0)
  else if 0x600 ≤ off && off < 0x800 then s.mbStateWord k ((off - 0x600) / 8)
  else if off = 0x800 then x.poolBase + x.poolSize * 2 ^ 32
  else if off = 0x808 then sumNat (x.runs.map (·.2)) + x.peakUnits * 2 ^ 32
  else if 0x900 ≤ off && off < 0xB00 then s.mbHoldWord k ((off - 0x900) / 8)
  else 0

/-- Whether a STASH_POOL write may take effect (R243). -/
def State.poolOk (s : State) (k base size : Nat) : Bool :=
  let x := s.ctx k
  x.runs.isEmpty && (s.waitingAdmit k).isNone && decide ((base + size) * 65536 ≤ popFarGib s.pkg.suffix * 2 ^ 30) &&
    (List.range 16).all (fun j => j == k || size == 0 || (s.ctx j).poolSize == 0 ||
      decide (base + size ≤ (s.ctx j).poolBase) || decide ((s.ctx j).poolBase + (s.ctx j).poolSize ≤ base))

/-- A write to a stage-context block; `none` where it is discarded (R456). -/
def State.writeCtx (s : State) (k off size : Nat) (value : W64) : Option State :=
  let (reg, v, mask) := regPart off size value
  let new := (maskedWrite (BitVec.ofNat 64 (s.ctxWord k reg)) v mask).toNat
  if reg = 0x058 then
    some (s.modCtx k (fun x => { x with dropSignal := bits new 0 6, dropSignalEn := new.testBit 7 }))
  else if 0x180 ≤ reg && reg < 0x1A0 then
    some (s.modCtx k (fun x =>
      let put (t : Tab Nat) (j : Nat) : Tab Nat := tabSet t (16 * ((reg - 0x180) / 8) + j) (bits new (4 * j) 4)
      { x with causes := (List.range 16).foldl put x.causes }))
  else if reg = 0x800 then
    (if s.poolOk k (bits new 0 24) (bits new 32 24) then
      some (s.modCtx k (fun x => { x with poolBase := bits new 0 24, poolSize := bits new 32 24, peakUnits := 0 }))
     else none)
  else none

end Sys2Proof.Machine
end

