-- ==== Sys2Proof/Machine/Tile.lean ====
section
/-! DEFINITION. The tensor arrays: the array commands, the wet edge, broadcasts, waves, the accumulator and its spills
(05, 06, 07, 09). -/

namespace Sys2Proof.Machine

/-! ### Checks of the array commands (R145, R149, R151, R196) -/

/-- Chunks of K that reach active rows: gradient tiles of later ones are not read (R194). -/
def chunkCount (p : ArrParams) : Nat := (p.k + kPerArray p - 1) / kPerArray p

/-- Chunks of K whose edge words the passes issue, active rows or not (R147, R194). -/
def edgeChunks (p : ArrParams) : Nat := passCount p * chainLen p.shape

/-- Tile indices whose offset can be the largest: the last two. -/
def lastTwo (n : Nat) : List Nat := if n ≤ 1 then [0] else [n - 2, n - 1]

/-- Largest stationary tile offset that the strides reach. -/
def maxTileOffset (p : ArrParams) (wsub : Nat) : Nat :=
  let l := chainLen p.shape
  let v := colHalves p.shape - 1
  if p.kind ≤ 1 then
    let q := granuleOf p.fb / arrMacs p
    let t := (edgeChunks p + q - 1) / q
    ((lastTwo t).map (fun i => i / l * p.bPass + i % l * p.bK)).foldl max 0 + v * p.bN
  else if p.kind = 2 then (edgeChunks p - 1) * p.bK + (wsub + v) / granuleOf p.fb * p.bN
  else (edgeChunks p - 1) / granuleOf p.fb * p.bK + v * p.bN

/-- Strides that move a tile base off its 256-byte alignment (R137), with their offsets. -/
def strideChecks (p : ArrParams) (wsub : Nat) : List (Bool × Nat) :=
  let l := chainLen p.shape
  let t := if p.kind ≤ 1 then (edgeChunks p + granuleOf p.fb / arrMacs p - 1) / (granuleOf p.fb / arrMacs p)
    else if p.kind = 2 then edgeChunks p else (edgeChunks p - 1) / granuleOf p.fb + 1
  let usesN := if p.kind = 2 then decide (1 ≤ (wsub + colHalves p.shape - 1) / granuleOf p.fb) else colHalves p.shape == 2
  let usesK := if p.kind ≤ 1 then l == 2 && decide (2 ≤ t) else decide (2 ≤ t)
  [(p.bPass % 256 == 0 || !(decide (p.kind ≤ 1) && decide (l < t)), 0x18), (p.bK % 256 == 0 || !usesK, 0x1C),
   (p.bN % 256 == 0 || !usesN, 0x20)]

/-- A feeder operand range (R133). -/
def State.fedFits (s : State) (p : ArrParams) (addr n : Nat) : Bool := s.inSpace [0, 1] (some p.die) addr n

/-- The largest address offset that TILE_CONV reads, for elements and for the scale plane (R149, R150); `none` where
every element is padding. -/
def convReach (q : ConvParams) (m eltBytes : Nat) : Option (Nat × Nat) :=
  let hs (p : Nat) : List Nat := ((List.range q.rK).filter (fun r =>
    let h := p * q.strideH + r * q.dilH
    decide (q.padT ≤ h) && decide (h - q.padT < q.h))).map (fun r => p * q.strideH + r * q.dilH - q.padT)
  let ws (p : Nat) : List Nat := ((List.range q.sK).filter (fun r =>
    let w := p * q.strideW + r * q.dilW
    decide (q.padL ≤ w) && decide (w - q.padL < q.w))).map (fun r => p * q.strideW + r * q.dilW - q.padL)
  ((List.range m).filterMap (fun i =>
    let mm := q.mFirst + i
    let n := mm / (q.pOut * q.qOut)
    match hs (mm / q.qOut % q.pOut), ws (mm % q.qOut) with
    | h :: hr, w :: wr =>
      let h := hr.foldl max h
      let w := wr.foldl max w
      some (n * q.img + h * q.row + w * q.pix + eltBytes, ((n * q.h + h) * q.w + w) * (q.cIn / 32) + q.cIn / 32)
    | _, _ => none)).foldl (fun acc x => match acc with
      | none => some x
      | some y => some (max y.1 x.1, max y.2 x.2)) none

/-- The broadcast operand's checks (check 6 of R145). -/
def broadcastChecks (s : State) (c : Cmd) (p : ArrParams) : List (Bool × Nat) :=
  if p.kind = 0 then
    [(s.fedFits p (c.param 0x40 8) ((p.m - 1) * c.param 0x48 4 + fmtBytes p.fa p.k), 0x40),
     (!fmtIsMx p.fa || s.fedFits p (c.param 0x50 8) ((p.m - 1) * c.param 0x4C 4 + (p.k + 31) / 32), 0x50)]
  else if p.kind = 1 then
    (let q := convParams c
     let reach := convReach q p.m (fmtBytes p.fa q.cIn)
     let (n, ns) := reach.getD (0, 0)
     [(s.fedFits p q.xAddr n, 0x40), (!fmtIsMx p.fa || s.fedFits p q.xScale ns, 0x48)])
  else []

/-- Check 6 of R145. -/
def addrChecks (s : State) (c : Cmd) (p : ArrParams) : List (Bool × Nat) :=
  let wsub := if p.kind = 2 then c.param 0x50 1 else 0
  let far := maxTileOffset p wsub
  let spillBytes := 32768 * ((outArrays p.array p.shape).length * slotCount p)
  [(s.fedFits p p.bAddr (far + tileBytes p.fb) && p.bAddr % 256 == 0, 0x10), (decide (p.kind ≤ 1) || p.bPass == 0, 0x18)] ++
  strideChecks p wsub ++
  [(!fmtIsMx p.fb || s.fedFits p p.bScale (tileScaleOffset p far + tileScaleBytes p.fb), 0x28),
   (p.spill == 0 || (addrSpace p.spillAddr == 0 && p.spillAddr % 256 == 0 && s.fedFits p p.spillAddr spillBytes), 0x30)] ++
  broadcastChecks s c p

/-- Check 3 of R145 and R196. -/
def fmtChecks (p : ArrParams) : List (Bool × Nat) :=
  if p.kind ≤ 1 then
    [(fmtsTileMm.contains p.fa && fmtsTileMm.contains p.fb && fmtPair p.fa p.fb, 0x03), (!fmtIsMx p.fa || p.blockK, 0x05)]
  else
    [(p.fa == 1 && (if p.kind = 2 then fmtsDgradWeight else fmtsWgradStash).contains p.fb, 0x03),
     (p.trans == (p.kind == 2) && !p.blockK && decide (p.op ≤ 1), 0x05)]

/-- Check 5: whether K must be a multiple of 32. -/
def kBlocked (p : ArrParams) : Bool :=
  if p.kind ≤ 1 then fmtIsMx p.fa || (fmtIsMx p.fb && !p.trans) else p.kind == 3 && fmtIsMx p.fb

/-- Check 8: reserved bytes and bits. -/
def arrReserved (c : Cmd) (p : ArrParams) : List (Bool × Nat) :=
  let used := if p.kind = 0 then [(0, 0x0A), (0x0C, 0x18), (0x28, 0x10), (0x40, 0x18)]
    else if p.kind = 1 then [(0, 0x0A), (0x0C, 0x18), (0x28, 0x10), (0x40, 0x32)]
    else [(0, 0x0A), (0x0C, 0x18), (0x28, 0x10), (0x40, 0x13), (0x54, 4)]
  (p.modeHigh == 0, 0x05) :: (if p.kind ≤ 1 then [] else [(decide (c.param 0x52 1 < (if p.kind = 2 then 2 else 1)), 0x52)]) ++
    reservedFail c 128 used

/-- The conditions of R149 and R151 that only TILE_CONV has. -/
def convChecks (c : Cmd) (p : ArrParams) : List (Bool × Nat) :=
  let q := convParams c
  [(p.k == q.rK * q.sK * q.cIn, 0x0C), (decide (fmtBytes p.fa q.cIn ≤ q.pix), 0x58),
   (q.cIn != 0 && q.cIn % arrMacs p == 0 && (!fmtIsMx p.fa || q.cIn % 32 == 0), 0x5A), (q.h != 0, 0x5C), (q.w != 0, 0x5E),
   (q.pOut != 0, 0x60), (q.qOut != 0, 0x62), (q.rK != 0, 0x64), (q.sK != 0, 0x65), (q.strideH != 0, 0x66),
   (q.strideW != 0, 0x67), (q.dilH != 0, 0x68), (q.dilW != 0, 0x69),
   (decide (q.mFirst + p.m ≤ q.nImg * q.pOut * q.qOut), 0x6C), (q.nImg != 0, 0x70)]

/-- Checks 9 and 10 of R196. -/
def gradChecks (s : State) (c : Cmd) (p : ArrParams) : List (Bool × Nat) :=
  let g := c.param 0x40 8
  let tok := c.param 0x48 4
  let feat := c.param 0x4C 4
  let mt := (p.m - 1) / 64
  let jt := chunkCount p - 1
  let far := if p.kind = 2 then mt * tok + jt * feat else jt * tok + mt * feat
  let (usesTok, usesFeat) := if p.kind = 2 then (mt != 0, jt != 0) else (jt != 0, mt != 0)
  [(if p.kind = 2 then decide (c.param 0x50 1 < granuleOf p.fb) else c.param 0x50 1 == 0, 0x50),
   (s.fedFits p g (far + 8192) && g % 256 == 0, 0x40), (!usesTok || tok % 256 == 0, 0x48),
   (!usesFeat || feat % 256 == 0, 0x4C)]

/-- The lowest failing offset within each check, the checks in order (R145, R465). -/
def firstGroup : List (List (Bool × Nat)) → Option Nat
  | [] => none
  | g :: gs => (lowestFail g).or (firstGroup gs)

/-- Checks 1 to 10 of R145 and R196, and those of R149 after them (DEDUCED, log 29). -/
def arrFail (s : State) (c : Cmd) (p : ArrParams) : Option Nat :=
  let g := gangSize p.shape
  let pairMode := decide (2 ≤ p.op)
  firstGroup ([
    [(s.dieBound (ctxOfRing c.ring) p.die, 0x00)],
    [(decide (p.array ≤ 31) && (decide (4 < p.shape) || (p.array % g == 0 && decide (p.array + g ≤ 32))), 0x01),
     (decide (p.shape ≤ 4), 0x02)],
    fmtChecks p,
    [(if pairMode then decide (p.slot ≤ 62)
      else decide (p.slot + (if 1 ≤ p.m ∧ p.m ≤ 4096 then slotCount p else 1) ≤ 64), 0x04),
     (decide (1 ≤ p.m) && decide (p.m ≤ 4096) && (!pairMode || decide (p.m ≤ 64)), 0x08)],
    [(decide (1 ≤ p.k) && decide (p.k ≤ 16777216) && p.k % arrMacs p == 0 && (!kBlocked p || p.k % 32 == 0), 0x0C)],
    addrChecks s c p,
    [(decide (p.spill ≤ 4096) && (p.spill == 0 || !pairMode), 0x06)],
    arrReserved c p] ++
    (if p.kind = 1 then [convChecks c p] else []) ++
    (if 2 ≤ p.kind then (gradChecks s c p).map (fun x => [x]) else []))

/-! ### Starting an array command (R144, R197) -/

def gangOf (p : ArrParams) : List Nat := (List.range (gangSize p.shape)).map (fun i => p.array + i)

/-- Outcome of check 11 of R196. -/
inductive VCheck where
  | pass
  | bad (off : Nat)
  | gone
  deriving DecidableEq, Repr

def vcheckOn (c : Cmd) : Bool := c.opcode == 0x12 && (c.param 0x52 1).testBit 0

/-- The version check of R197. -/
def State.versionCheck (s : State) (c : Cmd) : VCheck :=
  if !vcheckOn c then .pass
  else
    let layer := c.param 0x54 2
    let serial := BitVec.ofNat 16 (c.param 0x56 2)
    let mb := c.param 0x51 1
    let m := s.mb (ctxOfRing c.ring) mb
    let l := s.layer layer
    if 4096 ≤ layer || !l.defined then .bad 0x54
    else if !l.carries serial then .gone
    else if decide (mb < 64) && m.admitted && m.pinOn layer == some serial then .pass else .bad 0x51

def newJob (p : ArrParams) : ArrayJob :=
  let outs := outArrays p.array p.shape
  let spills := if p.spill = 0 then 0 else outs.length * slotCount p * ((passCount p + p.spill - 1) / p.spill)
  { op := p.kind, die := p.die, lead := p.array, gang := gangOf p, outs := outs, chain := chainLen p.shape,
    passes := passCount p, m := p.m, slot := p.slot, mode := p.op, spill := p.spill,
    tagBase := (gangOf p).map (fun _ => none), edgePos := (gangOf p).map (fun _ => 0),
    accPos := outs.map (fun _ => 0), spillsLeft := spills }

/-- The command takes its arrays in start order (R144), and one more pin where its version check passed (R197); `aux`
keeps the version slot and its serial. -/
def State.startArray (s : State) (c : Cmd) (p : ArrParams) : State :=
  let s := (gangOf p).foldl (fun st a => st.modArray p.die a (fun x => { x with
    edgeQ := x.edgeQ ++ [c.ref], bcastQ := x.bcastQ ++ [c.ref] })) s
  let s := s.setWork c.ref (.array (newJob p))
  if vcheckOn c then
    let layer := c.param 0x54 2
    match (s.mb (ctxOfRing c.ring) (c.param 0x51 1)).pinSlot layer with
    | none => s
    | some i => (s.modVSlot layer i (fun x => { x with pins := x.pins + 1 })).modCmd c.ref (fun c =>
        { c with aux := [i, ((s.layer layer).slot i).serial.toNat] })
  else s

/-- The four array commands (R145, R196). One that names a die that DIE_REPAIR holds waits to start (R391). -/
def State.arrayCommand (before : State) (ring opcode : Nat) : Result :=
  let s := before
  match s.take ring opcode with
  | none => s.idle
  | some (c, s) =>
    let p := arrParams c
    match arrFail s c p with
    | some o => .next (s.badParam c o)
    | none =>
      match s.versionCheck c with
      | .bad o => .next (s.badParam c o)
      | .gone => .next (s.complete { c with start := none } .versionGone 0 [])
      | .pass =>
        if s.dieRefuses p.die then .next (s.complete c .faulted 0 [])
        else if s.dieWaits p.die then before.idle
        else .next (s.startArray c p)

def execTileMm (dt : Nat) (ring : Fin 17) (s : State) : Result := (s.advance dt).arrayCommand ring 0x10
def execTileConv (dt : Nat) (ring : Fin 17) (s : State) : Result := (s.advance dt).arrayCommand ring 0x11
def execTileDgrad (dt : Nat) (ring : Fin 17) (s : State) : Result := (s.advance dt).arrayCommand ring 0x12
def execTileWgrad (dt : Nat) (ring : Fin 17) (s : State) : Result := (s.advance dt).arrayCommand ring 0x13

/-! ### Jobs -/

/-- An array command that runs, with its progress. -/
def State.job (s : State) (ref : CmdRef) : Option (Cmd × ArrayJob) :=
  match s.findCmd ref with
  | some c => (match c.work with
    | .array j => some (c, j)
    | _ => none)
  | none => none

def State.setJob (s : State) (ref : CmdRef) (j : ArrayJob) : State := s.setWork ref (.array j)

/-- The first poisoned word that the command met (R136). -/
def ArrayJob.poison (j : ArrayJob) (xs : List (Nat × Nat)) : ArrayJob :=
  match xs with
  | [] => j
  | (kind, addr) :: _ => if j.poisonKind = 0 then { j with poisonKind := kind, poisonAddr := addr } else j

/-- Poisoned words of a read, each counted once (R136). -/
def poisonWords (xs : List Fed) : List (Nat × Nat) := (xs.flatMap (·.2)).eraseDups

/-! ### The wet edge (R118 to R122) -/

def cellKey (row col : Nat) : Nat := row * 64 + col

def ArrayState.cell (x : ArrayState) (row col : Nat) : Cell := tabGet {} x.cells (cellKey row col)

def ArrayState.setCell (x : ArrayState) (row col : Nat) (c : Cell) : ArrayState :=
  { x with cells := tabSet x.cells (cellKey row col) c }

/-- NXT becomes CUR where CUR is not VALID or is done (R119). -/
def Cell.promote (c : Cell) : Cell :=
  if c.nxt.valid && (!c.cur.valid || c.curDone) then
    { c with cur := c.nxt, curDone := false, nxt := { c.nxt with valid := false } }
  else c

/-- An edge word reaches a cell: it writes NXT, which is promoted at once where CUR is free (R118, R119). -/
def Cell.writeNext (c : Cell) (w : Weights) : Cell := ({ c with nxt := w } : Cell).promote

/-- Whether a word may write its row: NXT is VALID in no cell of it (R118). -/
def ArrayState.rowOpen (x : ArrayState) (row : Nat) : Bool :=
  (List.range 64).all (fun col => !(x.cell row col).nxt.valid)

def ArrayState.writeRow (x : ArrayState) (row : Nat) (words : List Weights) : ArrayState :=
  (List.range 64).foldl (fun y col => y.setCell row col ((y.cell row col).writeNext (words.getD col {}))) x

/-- The edge word of a row of a pass for gang member `i`, before any word of it is kept from an earlier read. -/
def State.wordOf (s : State) (c : Cmd) (i pass r : Nat) : List (List Fed) :=
  let p := arrParams c
  let (u, v) := gangPos p.shape i
  s.edgeWord p (if p.kind = 2 then c.param 0x50 1 else 0) pass u v r

/-- The edge words that one read gives: the stash granule row of TILE_WGRAD gives e_s consecutive ones (R193), every
other word has its own access (R147, R192). -/
def State.wordsOf (s : State) (c : Cmd) (i pass r : Nat) : List (List (List Fed)) :=
  let p := arrParams c
  (List.range (if p.kind = 3 then granuleOf p.fb else 1)).map (fun n => s.wordOf c i pass (r + n))

/-- The weights that an edge word carries (R110, R118). -/
def wordWeights (c : Cmd) (tag : Bool) (u pass r : Nat) (word : List (List Num)) : List Weights :=
  word.map (fun es =>
    { elems := es, tag := tag, active := rowActive (arrParams c) pass u r, valid := true, owner := some c.ref, pass := pass })

/-- One edge word of gang member `i` of a command issued (R118, R147, R194). -/
def State.issueWord (s : State) (c : Cmd) (j : ArrayJob) (a i : Nat) : State :=
  let p := arrParams c
  let pos := j.edgePos.getD i 0
  let pass := pos / 64
  let r := pos % 64
  let (u, _) := gangPos p.shape i
  let base := (j.tagBase.getD i none).getD (s.array p.die a).passes
  let kept := tabGet [] j.held i
  let fed := if kept.isEmpty then s.wordsOf c i pass r else []
  let poison := poisonWords (fed.flatten.flatten)
  let ready := kept ++ fed.map (fun w => w.map (fun es => es.map (·.1)))
  let words := wordWeights c ((base + pass) % 2 == 1) u pass r (ready.headD [])
  let last := pos + 1 == 64 * j.passes
  let s := s.modArray p.die a (fun x =>
    let x := x.writeRow r words
    { x with
      passes := max x.passes (base + pass + 1)
      edgeQ := if last then x.edgeQ.filter (fun q => q != c.ref) else x.edgeQ
      edgeFree := if last then s.tide else x.edgeFree })
  let j := { j with
    tagBase := j.tagBase.set i (some base), edgePos := j.edgePos.set i (pos + 1), held := tabSet j.held i (ready.drop 1) }
  (s.setJob c.ref (j.poison poison)).countFeedPoison p.die poison.length

/-- An operand of a feeder lies in the near tier, so that its reads can be late (R134, R135). -/
def nearOperand (addr : Nat) : Bool := addrSpace addr == 0

/-- The next edge word of gang member `i` can be late: it needs a near-tier read, and none of it is kept from an earlier
one (R135, R193). -/
def edgeMayWait (p : ArrParams) (j : ArrayJob) (i : Nat) : Bool :=
  (tabGet [] j.held i).isEmpty && (nearOperand p.bAddr || (fmtIsMx p.fb && nearOperand p.bScale))

/-- Some element of a vector's parts at these chain positions is read, not injected as zero (R147, R150, R194). -/
def castReads (c : Cmd) (p : ArrParams) (pass m : Nat) (us : List Nat) : Bool :=
  us.any (fun u => (List.range (kPerArray p)).any (fun i => !fedInjected c p pass u m i))

/-- A broadcast can be late: it needs a near-tier read (R135). -/
def castMayWait (c : Cmd) (p : ArrParams) (pass m : Nat) (us : List Nat) : Bool :=
  castReads c p pass m us &&
    (nearOperand (c.param 0x40 8) || (fmtIsMx p.fa && nearOperand (if p.kind = 1 then c.param 0x48 8 else c.param 0x50 8)))

/-- A step period in which `n` arrays of a command wait for a late near-tier read (R135, R146). -/
def State.countFeedWait (s : State) (ref : CmdRef) (j : ArrayJob) (n : Nat) : State :=
  (s.modDie j.die (fun d => { d with feedWaitSteps := d.feedWaitSteps + n })).setJob ref
    { j with feedWait := j.feedWait + n, feedLate := true }

/-- EDGE_WORD_WRITE: the feeder's next edge word of an array reaches its row, or waits there (R118), or for a near-tier
read that is `late` (R135). -/
def execEdgeWordWrite (dt : Nat) (die : Fin 12) (f : FeedStep) (s : State) : Result :=
  let ⟨array, late⟩ := f
  let s := s.advance dt
  let x := s.array die array
  match x.edgeQ with
  | [] => s.idle
  | ref :: _ =>
    match s.job ref with
    | none => s.idle
    | some (c, j) =>
      let i := array.val - j.lead
      let pos := j.edgePos.getD i 0
      if s.arrayPaused die array || decide (j.passes * 64 ≤ pos) then s.idle
      else if late && edgeMayWait (arrParams c) j i then .next (s.countFeedWait ref j 1)
      else if !x.rowOpen (pos % 64) then s.idle
      else .next (s.issueWord c { j with feedLate := false } array i)

/-! ### Broadcasts (R111, R112, R142, R144) -/

/-- The weight register of a cell that a broadcast meets: VALID, with its TAG (R111); the owner differs only after an
abort (log 30). -/
def Cell.weightsFor (c : Cell) (tag : Bool) (ref : CmdRef) : Option Weights :=
  if c.cur.valid && c.cur.tag == tag && c.cur.owner == some ref then some c.cur
  else if c.nxt.valid && c.nxt.tag == tag && c.nxt.owner == some ref then some c.nxt
  else none

def allCells : List (Nat × Nat) := (List.range 64).flatMap (fun r => (List.range 64).map (fun col => (r, col)))

def ArrayState.hasWeights (x : ArrayState) (tag : Bool) (ref : CmdRef) : Bool :=
  allCells.all (fun rc => ((x.cell rc.1 rc.2).weightsFor tag ref).isSome)

def ArrayState.hasRoom (x : ArrayState) : Bool := allCells.all (fun rc => decide ((x.cell rc.1 rc.2).prods.length < 2))

/-- One cell latches its elements and writes its products, in ascending k; a row that is not active writes none but
takes the entry (R111). -/
def Cell.receive (c : Cell) (tag : Bool) (ref : CmdRef) (xs : List Num) (last chainIn chainOut : Bool) : Cell :=
  let w := (c.weightsFor tag ref).getD {}
  let terms := if w.active then List.zipWith numMul xs w.elems else []
  { c with latch := xs, prods := c.prods ++ [{ terms := terms, tag := tag, last := last, chainIn := chainIn, chainOut := chainOut }] }

/-- Every cell of an array latches its row's elements of a vector. -/
def ArrayState.latchAll (x : ArrayState) (tag : Bool) (ref : CmdRef) (e : Nat) (vec : List Num) (last ci co : Bool) :
    ArrayState :=
  allCells.foldl (fun y rc =>
    y.setCell rc.1 rc.2 ((y.cell rc.1 rc.2).receive tag ref ((vec.drop (rc.1 * e)).take e) last ci co)) x

/-- TAG of a pass of a command on its gang member `i` (R120). -/
def ArrayJob.tagOf (j : ArrayJob) (i pass : Nat) : Bool := ((j.tagBase.getD i none).getD 0 + pass) % 2 == 1

/-- One array of the gang takes a broadcast. -/
def State.latchArray (s : State) (c : Cmd) (j : ArrayJob) (a pass m : Nat) (vec : List Num) : State :=
  let p := arrParams c
  let i := a - j.lead
  let (u, _) := gangPos p.shape i
  let upper := j.chain == 2 && u == 0
  let f : Flight := { cmd := c.ref, pass := pass, vec := m, fromUpper := u == 1, toLower := upper }
  s.modArray p.die a (fun x =>
    let x := x.latchAll (j.tagOf i pass) c.ref (arrMacs p) vec (m + 1 == j.m) (u == 1) upper
    { x with flight := if upper then x.flight else x.flight ++ [f] })

/-- A completed broadcast of the gang (R111, R142). -/
def State.completeBroadcast (s : State) (c : Cmd) (j : ArrayJob) : State :=
  let p := arrParams c
  let pass := j.bcastPos / j.m
  let m := j.bcastPos % j.m
  let vecs := (List.range j.chain).map (fun u => s.broadcastVector c p pass u m)
  let poison := poisonWords vecs.flatten
  let zero := (List.range j.chain).all (fun u => (List.range (kPerArray p)).all (fun i => fedInjected c p pass u m i))
  let s := j.gang.foldl (fun st a =>
    let (u, _) := gangPos p.shape (a - j.lead)
    st.latchArray c j a pass m ((vecs.getD u []).map (·.1))) s
  let s := s.modDie p.die (fun d => { d with
    broadcastSteps := d.broadcastSteps + j.gang.length
    zeroVectors := if zero then d.zeroVectors + 1 else d.zeroVectors })
  let done := j.bcastPos + 1 == j.passes * j.m
  let s := if done then j.gang.foldl (fun st a =>
      st.modArray p.die a (fun x => { x with bcastQ := x.bcastQ.filter (fun q => q != c.ref) })) s else s
  let j := { j with
    bcastPos := j.bcastPos + 1
    zeroVectors := if zero && p.kind == 1 then j.zeroVectors + 1 else j.zeroVectors }
  (s.setJob c.ref (j.poison poison)).countFeedPoison p.die poison.length

/-- A broadcast that waits for weights is counted for each of `n` arrays (R122, R146). -/
def State.countEdgeWait (s : State) (c : Cmd) (j : ArrayJob) (n : Nat) : State :=
  (s.modDie j.die (fun d => { d with edgeWaitSteps := d.edgeWaitSteps + n })).setJob c.ref
    { j with edgeWait := j.edgeWait + n }

/-- A broadcast repeated after a repair, on one array alone (R126, R128): it waits as the first one did (R122, R135),
and its reads meet poison as the first ones did (R136). -/
def State.replayOne (s : State) (die a : Nat) (f : Flight) (rest : List Flight) (late : Bool) : State :=
  match s.job f.cmd with
  | none => s.modArray die a (fun x => { x with replay := rest })
  | some (c, j) =>
    let x := s.array die a
    let i := a - j.lead
    let p := arrParams c
    let (u, _) := gangPos p.shape i
    if late && castMayWait c p f.pass f.vec [u] then s.countFeedWait f.cmd j 1
    else if !x.hasWeights (j.tagOf i f.pass) f.cmd then s.countEdgeWait c j 1
    else if !x.hasRoom then s
    else
      let fed := s.broadcastVector c p f.pass u f.vec
      let poison := poisonWords fed
      let s := s.modArray die a (fun x => { x with replay := rest })
      let s := (s.latchArray c j a f.pass f.vec (fed.map (·.1))).modDie die (fun d =>
        { d with broadcastSteps := d.broadcastSteps + 1 })
      (s.setJob f.cmd (({ j with feedLate := false } : ArrayJob).poison poison)).countFeedPoison die poison.length

/-- Step rate of R130 in M steps/s, from the process factor in hundredths, the core voltage in mV and Tj in °C. -/
def nominalRate (p mv tj : Nat) : Nat := 15 * p * (mv - 360) * (10350 - 5 * tj) / (360 * 10000)

/-- A completed step period is measured: within 2% of the formula of R130 and never below 1.35 G steps/s; where within
that is a free value (log 3). New work ends an idle voltage (R416). -/
def State.measureRate (s : State) (die : Nat) : State :=
  let d := s.die die
  let mv := if s.power.voltLowered.toNat.testBit die then d.idleFrom.getD d.coreMv else s.conf.coreMaxMv
  let n := nominalRate d.process mv d.tj
  let (v, s) := s.draw
  let rate := max 1350 (n * 98 / 100 + v.toNat % (n * 4 / 100 + 1))
  s.modDie die (fun d => { d with
    rate := rate, rateMin := min d.rateMin rate, coreMv := mv, idleSince := none, idleFrom := none })

/-- An array has stopped broadcasting: its bottom stage refuses waves (R126). -/
def State.castStopped (s : State) (die a : Nat) : Bool := (s.array die a).refusing

/-- BROADCAST: the gang of the command at the front of an array's broadcast port completes its next broadcast, or the
broadcast waits (R111, R112, R142), or a near-tier read is `late` (R135). A repaired array first repeats what was
refused. -/
def execBroadcast (dt : Nat) (die : Fin 12) (f : FeedStep) (s : State) : Result :=
  let ⟨array, late⟩ := f
  let s := s.advance dt
  let x := s.array die array
  if s.diePaused die then .next (s.modDie die (fun d => { d with pausedSteps := satAdd 32 d.pausedSteps 1 }))
  else if s.arrayPaused die array || s.castStopped die array then s.idle
  else match x.replay with
    | f :: rest =>
      if f.toLower && (s.array die (array + 1)).refusing then s.idle else .next (s.replayOne die array f rest late)
    | [] =>
      match x.bcastQ with
      | [] => s.idle
      | ref :: _ =>
        match s.job ref with
        | none => s.idle
        | some (c, j) =>
          let pass := j.bcastPos / j.m
          let front := j.gang.all (fun a =>
            (s.array die a).bcastQ.head? == some ref && (s.array die a).replay.isEmpty && !s.arrayPaused die a && !s.castStopped die a)
          if !front || decide (j.passes * j.m ≤ j.bcastPos) then s.idle
          else if late && castMayWait c (arrParams c) pass (j.bcastPos % j.m) (List.range j.chain) then
            .next (s.countFeedWait ref j j.gang.length)
          else if !(j.gang.all (fun a => (s.array die a).hasWeights (j.tagOf (a - j.lead) pass) ref)) then
            .next (s.countEdgeWait c j j.gang.length)
          else if !(j.gang.all (fun a => (s.array die a).hasRoom)) then s.idle
          else .next ((s.completeBroadcast c { j with feedLate := false }).measureRate die)

/-! ### Waves (R113 to R117) -/

/-- The products of an entry added into a wave in ascending k; the first that meets an EMPTY wave becomes its value,
each addition is rounded to a 40-bit significand (R113). -/
def addTerms (val : Option Num) (terms : List Num) : Option Num :=
  terms.foldl (fun v t => match v with
    | none => some t
    | some x => some (roundSig 40 (numAdd x t))) val

/-- What the bottom stage holds: the wave rounded once to FP32, unrounded where it goes on to the lower array (R113,
R117). -/
def bottomVal (chainOut : Bool) (v : Option Num) : Option Num :=
  if chainOut then v else v.map (fun x => ofF32 (toF32 x))

/-- The wave at a cell: at row 0 it starts EMPTY, or comes from the upper array's bottom stage with its TAG and LAST
(R113, R117). -/
def State.waveAt (s : State) (die a row col : Nat) (p : Product) : Option Wave :=
  if row = 0 then
    (if p.chainIn then ((tabFind (s.array die (a - 1)).bottom col).filter (·.toLower)).map (fun w => { w with toLower := false })
     else some { val := none, tag := p.tag, last := p.last })
  else ((s.array die a).cell row col).wave

/-- A cell's own part of a wave: its products added, CUR_DONE set by the LAST wave, its oldest entry freed, promotion
(R113, R119). A wave handed down by the upper array keeps that array's TAG (R117), and the parities of two arrays can
differ (R120): CUR is then compared by the TAG of the cell's own entry (DEDUCED, log 40). -/
def Cell.pass (c : Cell) (w : Wave) (p : Product) : Cell :=
  let tag := if p.chainIn then p.tag else w.tag
  ({ c with
      prods := c.prods.drop 1
      wave := none
      curDone := c.curDone || (w.last && c.cur.valid && tag == c.cur.tag) } : Cell).promote

/-- A wave reaches the bottom stage. One that carries CHECK_FAIL is refused, with every later wave of the array, and with
those for the accumulator that other columns had brought of its vector (R125). A wave on its way to the lower array that
stands there is an earlier one, or of the refused vector, which both arrays replay (R117, R126). -/
def ArrayState.bottomTakes (x : ArrayState) (col : Nat) (w : Wave) : ArrayState :=
  if w.checkFail || x.refusing then
    { x with refusing := true, bottom := x.bottom.filter (fun e => e.2.toLower) }
  else { x with bottom := tabSet x.bottom col w }

/-- A check of a cell that does arithmetic fails: the first one locates the row (R125, R126). -/
def ArrayState.noteFail (x : ArrayState) (row : Nat) : ArrayState := { x with failRow := x.failRow.or (some row) }

/-- WAVE_HOP (R113): the cell adds its oldest products into the wave and hands it to the next row, or to the bottom
stage, when that is free. `checkFails`: a residue check of the cell fails (R125). -/
def execWaveHop (dt : Nat) (die : Fin 12) (array : Fin 32) (row : Fin 64) (cell : HopCell) (s : State) : Result :=
  let ⟨col, checkFails⟩ := cell
  let s := s.advance dt
  let x := s.array die array
  let c := x.cell row col
  match c.prods with
  | [] => s.idle
  | p :: _ =>
    match s.waveAt die array row col p with
    | none => s.idle
    | some w =>
      let free := if row.val = 63 then (tabFind x.bottom col).isNone else (x.cell (row + 1) col).wave.isNone
      if !free || s.arrayHeld die array then s.idle
      else
        let fails := checkFails && !p.terms.isEmpty
        let w' : Wave := { w with val := addTerms w.val p.terms, checkFail := w.checkFail || fails }
        let s := if row.val = 0 && p.chainIn then
            s.modArray die (array - 1) (fun y => { y with bottom := tabDel y.bottom col }) else s
        .next (s.modArray die array (fun y =>
          let y := (if fails then y.noteFail row else y).setCell row col (c.pass w p)
          if row.val = 63 then y.bottomTakes col { w' with val := bottomVal p.chainOut w'.val, toLower := p.chainOut }
          else y.setCell (row + 1) col { y.cell (row + 1) col with wave := some w' }))

/-! ### Which commands access a slot or a spill entry (R155, R199) -/

/-- Slots that a command accesses: die, array, first slot and count. -/
def Cmd.slots (c : Cmd) : List (Nat × Nat × Nat × Nat) :=
  if 0x10 ≤ c.opcode && c.opcode ≤ 0x13 then
    (let p := arrParams c
     (outArrays p.array p.shape).map (fun a => (p.die, a, p.slot, if 2 ≤ p.op then 2 else slotCount p)))
  else if c.opcode = 0x15 then
    [(c.param 0 1, c.param 1 1, c.param 2 1, if 2 ≤ c.param 4 1 then 2 else c.param 3 1)]
  else if c.opcode = 0x14 then
    (let p := drainP c
     (if p.src = 0 then [(p.die, p.array, p.slot, 1)]
      else if p.src = 2 then
        (p.die, p.array, p.slot, 2) :: (if p.array2 = 0xFF then [] else [(p.die, p.array2, p.slot2, 2)])
      else []) ++ (if p.gatedFwd then [(p.die, p.array2, p.slot2, 1)] else []))
  else []

/-- Spill entries that a command accesses: die, near-tier offset of the first and their number. -/
def Cmd.entries (c : Cmd) : List (Nat × Nat × Nat) :=
  if 0x10 ≤ c.opcode && c.opcode ≤ 0x13 then
    (let p := arrParams c
     if p.spill = 0 then [] else [(p.die, addrOffset p.spillAddr, (outArrays p.array p.shape).length * slotCount p)])
  else if c.opcode = 0x15 then
    (if c.param 4 1 ≤ 1 then [(c.param 0 1, addrOffset (c.param 8 8), c.param 3 1)] else [])
  else if c.opcode = 0x14 then
    (let p := drainP c
     if p.src = 1 then [(p.die, addrOffset p.srcAddr, 1)] else [])
  else []

def isArrayCmd (c : Cmd) : Bool := 0x10 ≤ c.opcode && c.opcode ≤ 0x13

/-- Started commands with an earlier start that have not finished. -/
def State.earlierCmds (s : State) (order : Nat) : List Cmd :=
  s.allCmds.filter (fun c => c.start.isSome && decide (c.startOrder < order) && c.live)

def slotsMeet (x y : Nat × Nat × Nat × Nat) : Bool :=
  x.1 == y.1 && x.2.1 == y.2.1 && decide (x.2.2.1 < y.2.2.1 + y.2.2.2) && decide (y.2.2.1 < x.2.2.1 + x.2.2.2)

/-- Waves of an output array after which slot `i` of a command gets no more of them (R147, R163). -/
def ArrayJob.lastWave (j : ArrayJob) (i : Nat) : Nat :=
  if 2 ≤ j.mode then j.passes * j.m else (j.passes - 1) * j.m + min j.m (64 * (i + 1))

/-- Slots of a command on each output array (R147, R163). -/
def ArrayJob.slotNum (j : ArrayJob) : Nat := if 2 ≤ j.mode then 2 else (j.m + 63) / 64

/-- An array command still has an access to slot `i` of its slots on an output array: a wave to come, or a row to be
copied for a spill (R155, R159). -/
def State.jobAwaits (s : State) (ref : CmdRef) (j : ArrayJob) (a i : Nat) : Bool :=
  decide (j.accPos.getD (j.outs.idxOf a) 0 < j.lastWave i) ||
    (s.array j.die a).spillQ.any (fun q => q.cmd == ref && q.slot == j.slot + i)

/-- A command still has an access to one of these slots (R155). -/
def State.cmdAwaits (s : State) (d : Cmd) (y : Nat × Nat × Nat × Nat) : Bool :=
  match d.work with
  | .array j => j.outs.any (fun a => (List.range j.slotNum).any (fun i =>
      slotsMeet (j.die, a, j.slot + i, 1) y && s.jobAwaits d.ref j a i))
  | _ => d.slots.any (fun x => slotsMeet x y)

/-- An earlier-started command still has an access to one of these slots before it (R155). -/
def State.slotBusy (s : State) (order : Nat) (slots : List (Nat × Nat × Nat × Nat)) : Bool :=
  (s.earlierCmds order).any (fun d => slots.any (fun y => s.cmdAwaits d y))

def entriesMeet (x y : Nat × Nat × Nat) : Bool :=
  x.1 == y.1 && decide (x.2.1 < y.2.1 + 32768 * y.2.2) && decide (y.2.1 < x.2.1 + 32768 * x.2.2)

/-- An array command still has an access to the spill entry of slot `i` on an output array (R159, R199). -/
def State.jobAwaitsEntry (s : State) (ref : CmdRef) (j : ArrayJob) (a i : Nat) : Bool :=
  s.jobAwaits ref j a i || ((s.array j.die a).staging.any (fun b => b.cmd == ref && b.slot == j.slot + i))

/-- A command still has an access to one of these spill entries (R199). -/
def State.cmdAwaitsEntry (s : State) (d : Cmd) (y : Nat × Nat × Nat) : Bool :=
  match d.work with
  | .array j =>
    let p := arrParams d
    p.spill != 0 && j.outs.zipIdx.any (fun o => (List.range j.slotNum).any (fun i =>
      entriesMeet (p.die, addrOffset p.spillAddr + 32768 * (o.2 * j.slotNum + i), 1) y && s.jobAwaitsEntry d.ref j o.1 i))
  | _ => d.entries.any (fun x => entriesMeet x y)

/-- An earlier-started command still has an access to one of these spill entries before it (R199). -/
def State.entryBusy (s : State) (order : Nat) (entries : List (Nat × Nat × Nat)) : Bool :=
  (s.earlierCmds order).any (fun d => entries.any (fun y => s.cmdAwaitsEntry d y))

/-! ### The accumulator (R153, R163 to R165, R168, R169) -/

/-- PARTIAL of slots set or cleared. -/
def State.setPartial (s : State) (die a : Nat) (slots : List Nat) (b : Bool) : State :=
  s.modArray die a (fun x => { x with part := slots.foldl (fun w k => withBit w k b) x.part })

/-- A write of a slot by OVERWRITE, ADD or a spill disarms the pairs that hold it (R165). -/
def State.disarm (s : State) (die a slot : Nat) : State :=
  s.modArray die a (fun x =>
    let w := withBit x.armed slot false
    { x with armed := if slot = 0 then w else withBit w (slot - 1) false })

/-- Units of a slot row that hold poison. -/
def State.slotRowUnits (s : State) (die a slot row cols : Nat) : List Nat :=
  (unitsOf (slotElemKey die a slot row 0) (4 * cols)).filter (fun u => s.poison.contains u)

/-- One row of waves added into a slot: poisoned words stay poisoned and are counted (R153, R169). -/
def State.addSlotRow (s : State) (die a slot row : Nat) (xs : List W32) : State :=
  let bad := s.slotRowUnits die a slot row xs.length
  let old := s.slotRow die a slot row xs.length
  ((s.writeSlotRow die a slot row (List.zipWith f32Add old xs)).markPoison bad).countAccPoison die bad.length

/-- Arming a pair (R165). -/
def State.armPair (s : State) (die a slot : Nat) (isMin : Bool) (base : Nat) : State :=
  let first : W32 := if isMin then 0x7F800000#32 else 0xFF800000#32
  let s := (List.range 64).foldl (fun st m =>
    (st.writeSlotRow die a slot m [first]).writeSlotRow die a (slot + 1) m [0xFFFF#32]) s
  let s := s.modArray die a (fun x => { x with
    armed := withBit x.armed slot true
    armedMin := withBit x.armedMin slot isMin
    base := tabSet x.base slot base })
  s.setPartial die a [slot, slot + 1] false

def ArrayState.armedFor (x : ArrayState) (slot : Nat) (isMin : Bool) : Bool :=
  x.armed.toNat.testBit slot && x.armedMin.toNat.testBit slot == isMin

/-- The reducer writes one row's winner into a pair (R163, R164). DESIGN CHOICE (log 61): in a poisoned word of the pair
the stored bytes compete as they are, the 4-byte write leaves the word poisoned, and nothing is counted. -/
def State.reduceRow (s : State) (die a slot row : Nat) (isMin : Bool) (cOff : Nat) (xs : List W32) : State :=
  let s := if (s.array die a).armedFor slot isMin then s else s.armPair die a slot isMin 0
  let base := tabGet 0 (s.array die a).base slot
  let stored := (s.slotElem die a slot row 0, (s.slotElem die a (slot + 1) row 0).toNat % 65536)
  let contenders := xs.zipIdx.map (fun p => (p.1, (base + cOff + p.2) % 65536))
  let w := winner (!isMin) stored contenders
  (s.writeSlotRow die a slot row [w.1]).writeSlotRow die a (slot + 1) row [BitVec.ofNat 32 w.2]

/-- One row of a compare tile written or added to; its values after it (R163). -/
def State.compareRow (s : State) (die a row : Nat) (first : Bool) (xs : List W32) : State × List W32 :=
  let x := s.array die a
  let new := xs.zipIdx.map (fun p => if first then p.1 else f32Add (tabGet 0 x.compare (cellKey row p.2)) p.1)
  let t := new.zipIdx.foldl (fun t p => tabSet t (cellKey row p.2) p.1) x.compare
  (s.modArray die a (fun x => { x with compare := t }), new)

/-! ### Spill staging (R156 to R159) -/

/-- A row copied to the staging buffer and cleared (R159); poisoned words are counted (R169). -/
def State.copyRow (s : State) (die a slot row cols : Nat) : State × SpillRow :=
  let bad := s.slotRowUnits die a slot row cols
  let r : SpillRow :=
    { row := row, cols := cols, vals := s.slotRow die a slot row cols, poisoned := s.slotRowPoison die a slot row cols }
  ((s.writeSlotRow die a slot row (List.replicate cols 0)).countAccPoison die bad.length, r)

/-- The spill that takes another row of the same slot and interval. -/
def SpillJob.takes (b : SpillJob) (ref : CmdRef) (slot row : Nat) : Bool :=
  b.cmd == ref && b.slot == slot && !(b.rows.any (fun r => r.row == row))

/-- The row of an interval's end goes to the staging buffer, or waits for it (R159). -/
def State.stageRow (s : State) (die a : Nat) (new : SpillJob) (row cols : Nat) : State :=
  let x := s.array die a
  let pendingRow : SpillRow := { row := row, cols := cols, vals := [], poisoned := [] }
  match x.staging with
  | none =>
    let (s, r) := s.copyRow die a new.slot row cols
    s.modArray die a (fun x => { x with staging := some { new with rows := [r] } })
  | some b =>
    if b.takes new.cmd new.slot row && b.write == new.write && x.spillQ.isEmpty then
      let (s, r) := s.copyRow die a new.slot row cols
      s.modArray die a (fun x => { x with staging := some { b with rows := b.rows ++ [r] } })
    else match x.spillQ.find? (fun q => q.takes new.cmd new.slot row) with
      | some _ => s.modArray die a (fun x => { x with spillQ := x.spillQ.map (fun q =>
          if q.takes new.cmd new.slot row then { q with rows := q.rows ++ [pendingRow] } else q) })
      | none => s.modArray die a (fun x => { x with spillQ := x.spillQ ++ [{ new with rows := [pendingRow] }] })

/-- A row that waits to be copied (R159). -/
def ArrayState.rowPending (x : ArrayState) (slot row : Nat) : Bool :=
  x.spillQ.any (fun q => q.slot == slot && q.rows.any (fun r => r.row == row))

/-- The next waiting spill enters the free staging buffer. -/
def State.nextStaging (s : State) (die a : Nat) : State :=
  match (s.array die a).spillQ with
  | [] => s.modArray die a (fun x => { x with staging := none })
  | q :: rest =>
    let (s, rows) := q.rows.foldl (fun (acc : State × List SpillRow) r =>
      let (s, done) := acc
      let (s, r) := s.copyRow die a q.slot r.row r.cols
      (s, done ++ [r])) (s, [])
    s.modArray die a (fun x => { x with staging := some { q with rows := rows }, spillQ := rest })

/-- One WIDE64 addition (R158): the new pair. A HI that is or becomes non-finite follows the slot rule (R104, R160).
DESIGN CHOICE (log 69): where HI is finite and HI + x is infinite, the steps of R158 would give NaN; the pair becomes
(infinity, +0), as a slot element would become infinite. -/
def spillAdd (hi lo x : W32) : W32 × W32 :=
  let sum := f32Add hi x
  let e := f32Add (f32Sub hi (f32Sub sum (f32Sub sum hi))) (f32Sub x (f32Sub sum hi))
  let t := f32Add lo e
  let newHi := f32Add sum t
  let newLo := f32Sub t (f32Sub newHi sum)
  if f32NonFinite sum then (sum, 0) else (newHi, if f32NonFinite newHi then 0 else newLo)

/-- One element spilled into its entry word; the word is poisoned where the element or, when read, the word was (R158,
R160). The count is of poisoned words written. -/
def spillElem (die entry : Nat) (write : Bool) (acc : State × Nat) (e : Nat × W32 × Bool) : State × Nat :=
  let (s, n) := acc
  let key := dieKey 4 die (entry + 8 * e.1)
  let bad := e.2.2 || (!write && s.poisoned key 8)
  let hi := BitVec.ofNat 32 (s.readNat key 4)
  let lo := BitVec.ofNat 32 (s.readNat (key + 4) 4)
  let (nh, nl) := if write then (e.2.1, 0) else spillAdd hi lo e.2.1
  let s := s.write key (toBytes 4 nh.toNat ++ toBytes 4 nl.toNat)
  if bad then (s.markPoison [key], n + 1) else (s, n)

/-- The elements of a copied row: their numbers in the entry, values and poison. -/
def SpillRow.elems (r : SpillRow) : List (Nat × W32 × Bool) :=
  r.vals.zipIdx.map (fun p => (64 * r.row + p.2, p.1, r.poisoned.contains p.2))

/-! ### Completion of an array command (R136, R146, R159, R164) -/

/-- BODY of an array command (R146). -/
def ArrayJob.body (j : ArrayJob) : List Byte :=
  bodyOf [(0, 4, j.passes), (4, 4, j.passes * j.m), (8, 4, j.edgeWait), (12, 4, j.feedWait), (16, 4, j.zeroVectors),
    (20, 8, j.poisonAddr)]

/-- N of a shape, by which BASE advances (R164). -/
def shapeN (shape : Nat) : Nat := if shape = 1 then 32 else if shape = 3 || shape = 4 then 128 else 64

/-- BASE of a pair advances: on each output array when the command's last row there is reduced, so that the next command
on that array finds it advanced whatever the other array of the gang has done (R164; DEDUCED, log 61). -/
def State.advanceBase (s : State) (die a slot n : Nat) : State :=
  s.modArray die a (fun x => { x with base := tabMod 0 x.base slot (fun b => (b + n) % 65536) })

/-- The further pin of TILE_DGRAD is released when the command completes (R197). -/
def State.endArrayPin (s : State) (c : Cmd) : State :=
  if vcheckOn c then (match c.aux with
    | [i, serial] => s.unpinSerial (c.param 0x54 2) i (BitVec.ofNat 16 serial)
    | _ => s)
  else s

/-- The accumulator has finished with the command's last wave and spill (R146, R159). -/
def State.checkArray (s : State) (ref : CmdRef) : State :=
  match s.job ref with
  | none => s
  | some (c, j) =>
    if j.accPos.all (fun n => n == j.passes * j.m) && j.spillsLeft == 0 then
      let s := if j.poisonKind = 0 then s else s.poisonConsumed c j.poisonAddr
      s.finish ref (if j.poisonKind = 0 then .ok else .faulted) j.poisonKind j.body
    else s

/-- One row of waves taken by the accumulator, in the order of R167; MODE applies to the first pass that writes the slot
(R148, R153, R156, R163). -/
def State.takeRow (s : State) (c : Cmd) (j : ArrayJob) (o a : Nat) (f : Flight) (xs : List W32) : State :=
  let p := arrParams c
  let cols := xs.length
  let slot := j.slot + f.vec / 64
  let row := f.vec % 64
  let lastPass := f.pass + 1 == j.passes
  let s := s.setJob c.ref { j with accPos := j.accPos.set o (f.pass * j.m + f.vec + 1) }
  if 2 ≤ j.mode then
    let (s, new) := s.compareRow j.die a row (f.pass == 0) xs
    if !lastPass then s
    else
      let s := s.reduceRow j.die a j.slot row (j.mode == 3) (64 * o) new
      if f.vec + 1 = j.m then s.advanceBase j.die a j.slot (shapeN p.shape) else s
  else
    let s := s.disarm j.die a slot
    let s := if j.mode = 0 && f.pass = 0 then (s.writeSlotRow j.die a slot row xs).setPartial j.die a [slot] false
      else s.addSlotRow j.die a slot row xs
    if j.spill ≠ 0 && ((f.pass + 1) % j.spill == 0 || lastPass) then
      s.stageRow j.die a
        { cmd := c.ref, slot := slot, addr := addrOffset p.spillAddr + 32768 * (o * slotCount p + f.vec / 64),
          write := j.mode == 0 && decide (f.pass < j.spill), want := min 64 (j.m - 64 * (f.vec / 64)) } row cols
    else s

/-- Slots that a wave accesses: both of a pair, at the last pass (R163). -/
def waveSlots (j : ArrayJob) (a : Nat) (f : Flight) : List (Nat × Nat × Nat × Nat) :=
  if j.mode < 2 then [(j.die, a, j.slot + f.vec / 64, 1)]
  else if f.pass + 1 = j.passes then [(j.die, a, j.slot, 2)] else []

/-- WAVE_ACCUMULATE (R153, R154): the accumulator takes the wave of all 64 columns of its oldest row, or holds it. -/
def execWaveAccumulate (dt : Nat) (die : Fin 12) (array : Fin 32) (s : State) : Result :=
  let s := s.advance dt
  let x := s.array die array
  match x.flight with
  | [] => s.idle
  | f :: rest =>
    let waves := (List.range 64).filterMap (fun col => (tabFind x.bottom col).filter (fun w => !w.toLower))
    if waves.length ≠ 64 || s.arrayHeld die array then s.idle
    else
      let drop (s : State) : State := s.modArray die array (fun x => { x with flight := rest, bottom := [] })
      match s.job f.cmd with
      | none => .next (drop s)
      | some (c, j) =>
        let o := j.outs.idxOf array.val
        if f.pass * j.m + f.vec < j.accPos.getD o 0 then .next (drop s)
        else if s.slotBusy c.startOrder (waveSlots j array f) then
          .next (s.modDie die (fun d => { d with slotWaitSteps := d.slotWaitSteps + 1 }))
        else if decide (j.mode < 2) && x.rowPending (j.slot + f.vec / 64) (f.vec % 64) then
          .next (s.modDie die (fun d => { d with spillWaitSteps := d.spillWaitSteps + 1 }))
        else
          let xs := (waves.take (outCols (arrParams c).shape)).map (fun w => toF32 (w.val.getD Num.zero))
          .next (((drop s).takeRow c j o array f xs).checkArray f.cmd)

/-- SPILL_WRITEBACK (R158, R159): the staged slot is added into its entry. -/
def execSpillWriteback (dt : Nat) (die : Fin 12) (array : Fin 32) (s : State) : Result :=
  let s := s.advance dt
  match (s.array die array).staging with
  | none => s.idle
  | some b =>
    match s.job b.cmd with
    | none => .next (s.nextStaging die array)
    | some (c, j) =>
      if s.arrayHeld die array || b.rows.length < b.want || s.entryBusy c.startOrder [(die.val, b.addr, 1)] then s.idle
      else
        let (s, _) := (b.rows.flatMap SpillRow.elems).foldl (spillElem die b.addr b.write) (s, 0)
        let s := s.modDie die (fun d => { d with spills := d.spills + 1 })
        let s := s.setJob b.cmd { j with spillsLeft := j.spillsLeft - 1 }
        .next ((s.nextStaging die array).checkArray b.cmd)

/-! ### SPILL_FLUSH (R161, R162) -/

def flushChecks (s : State) (c : Cmd) : List (Bool × Nat) :=
  let die := c.param 0 1
  let slot := c.param 2 1
  let count := c.param 3 1
  let op := c.param 4 1
  let arm := decide (2 ≤ op)
  let addr := c.param 8 8
  [(s.dieBound (ctxOfRing c.ring) die, 0), (decide (c.param 1 1 < 32), 1),
   (if op = 2 || op = 3 then decide (slot ≤ 62) else decide (slot ≤ 63), 2),
   (if op = 2 || op = 3 then count == 1 else decide (1 ≤ count) && decide (slot + count ≤ 64), 3), (decide (op ≤ 3), 4),
   (c.param 5 1 == 0, 5), (c.param 6 1 == 0, 6), (c.param 7 1 == 0, 7),
   (arm || (addrSpace addr == 0 && addr % 256 == 0 && s.inSpace [0] (some die) addr (32768 * count)), 8),
   (arm || c.param 0x10 2 == 0, 0x10)] ++ reservedFail c 64 [(0, 0x12)]

/-- One slot spilled whole and cleared (R162). -/
def flushSlot (die a entry : Nat) (write : Bool) (acc : State × Nat) (slot : Nat) : State × Nat :=
  let (s, n) := acc
  let (s, n) := (List.range 64).foldl (fun (acc : State × Nat) row =>
    let (s, r) := acc.1.copyRow die a slot row 64
    r.elems.foldl (spillElem die entry write) (s, acc.2)) (s, n)
  (s.disarm die a slot, n)

/-- A SPILL_FLUSH cannot run now: DIE_REPAIR holds its die, or a pause its array or its entries (R375, R381, R391). -/
def State.flushHeld (s : State) (c : Cmd) : Bool :=
  let die := c.param 0 1
  s.dieWaits die || s.arrayHeld die (c.param 1 1) ||
    c.entries.any (fun e => s.rangeWaits (die / 2) (dieKey 4 die e.2.1) (32768 * e.2.2))

/-- SPILL_FLUSH runs once every earlier access to its slots and entries is done (R155, R162, R199). -/
def State.runFlush (s : State) (c : Cmd) : State :=
  let die := c.param 0 1
  let a := c.param 1 1
  let slot := c.param 2 1
  let count := c.param 3 1
  let op := c.param 4 1
  if s.slotBusy c.startOrder c.slots || s.entryBusy c.startOrder c.entries || s.flushHeld c then
    s.setWait c.ref .slotOrder none
  else if (s.die die).outOfService then s.complete c .faulted 0 []
  else if 2 ≤ op then (s.armPair die a slot (op == 3) (c.param 0x10 2)).complete c .ok 0 []
  else if (List.range count).any (fun i => (s.array die a).part.toNat.testBit (slot + i)) then s.complete c .aborted 0 []
  else
    let (s, n) := (List.range count).foldl (fun acc i =>
      flushSlot die a (addrOffset (c.param 8 8) + 32768 * i) (op == 1) acc (slot + i)) (s, 0)
    let s := s.modDie die (fun d => { d with spills := d.spills + count })
    s.complete c .ok 0 (bodyOf [(0, 2, count), (4, 4, n)])

/-- A command that starts by this event, or that has started and waits for earlier accesses: `start` begins it, `go`
runs it. -/
def State.startOrGo (s : State) (ring : Nat) (seq : W16) (opcode : Nat) (start : Cmd → State → State)
    (go : Cmd → State → State) : Result :=
  match (s.ring ring).cmds.find? (fun c => c.seq == seq && c.opcode == opcode && c.start.isSome && c.live) with
  | some c => .next (go c s)
  | none =>
    if (s.ring ring).front.map (·.seq) = some seq then
      (match s.take ring opcode with
       | none => s.idle
       | some (c, s) => .next (start c s))
    else s.idle

/-- SPILL_FLUSH (R161). -/
def execSpillFlush (dt : Nat) (ring : Fin 17) (seq : W16) (s : State) : Result :=
  (s.advance dt).startOrGo ring seq 0x15
    (fun c s => match firstFail (flushChecks s c) with
      | some o => s.badParam c o
      | none =>
        if s.dieRefuses (c.param 0 1) then s.complete c .faulted 0 []
        else if s.dieWaits (c.param 0 1) then s.setWait c.ref .slotOrder none
        else s.runFlush c)
    (fun c s => s.runFlush c)

/-! ### Aborts and repairs (R122, R126, R128, R168) -/

/-- Slots that an array command has written on one output array. -/
def ArrayJob.written (j : ArrayJob) (o : Nat) : List Nat :=
  let n := j.accPos.getD o 0
  if n = 0 then []
  else if 2 ≤ j.mode then (if (j.passes - 1) * j.m < n then [j.slot, j.slot + 1] else [])
  else (List.range ((min n j.m + 63) / 64)).map (fun i => j.slot + i)

/-- Weights of a command that ended early leave the cells (log 30). -/
def Cell.release (c : Cell) (ref : CmdRef) : Cell :=
  ({ c with
      cur := if c.cur.owner = some ref then { c.cur with valid := false } else c.cur
      nxt := if c.nxt.owner = some ref then { c.nxt with valid := false } else c.nxt } : Cell).promote

/-- A started array command ends early: its feeder stops, its later waves and spills are discarded, what it wrote is
PARTIAL (R122, R168). DESIGN CHOICE (log 61): so it is where the command ends with FAULTED because its die leaves
service, an end that R168 does not name; and BASE of a MAX or MIN pair stays as it was on an output array whose last row
was not reduced, which R164 leaves open. -/
def State.abortArray (s : State) (c : Cmd) (j : ArrayJob) (st : Status) : State :=
  let s := j.gang.foldl (fun s a => s.modArray j.die a (fun x => { x with
    edgeQ := x.edgeQ.filter (fun q => q != c.ref)
    bcastQ := x.bcastQ.filter (fun q => q != c.ref)
    edgeFree := if x.edgeQ.contains c.ref then s.tide else x.edgeFree
    replay := x.replay.filter (fun f => f.cmd != c.ref)
    spillQ := x.spillQ.filter (fun q => q.cmd != c.ref)
    cells := x.cells.map (fun e => (e.1, e.2.release c.ref)) })) s
  let s := j.outs.zipIdx.foldl (fun s p => s.setPartial j.die p.1 (j.written p.2) true) s
  let s := j.outs.foldl (fun s a => match (s.array j.die a).staging with
    | some b => if b.cmd = c.ref then s.nextStaging j.die a else s
    | none => s) s
  (s.complete c st 0 j.body).endArrayPin c

/-- Broadcast order of flights: start order of their commands, then pass and vector. -/
def State.flightBefore (s : State) (f g : Flight) : Bool :=
  let order (r : CmdRef) : Nat := match s.findCmd r with
    | some c => c.startOrder
    | none => 0
  if f.cmd = g.cmd then decide (f.pass < g.pass) || (f.pass == g.pass && decide (f.vec ≤ g.vec))
  else decide (order f.cmd ≤ order g.cmd)

def State.insertFlight (s : State) (f : Flight) : List Flight → List Flight
  | [] => [f]
  | g :: t => if s.flightBefore f g then f :: g :: t else g :: s.insertFlight f t

def State.sortFlights (s : State) (fl : List Flight) : List Flight := fl.foldr s.insertFlight []

/-- First edge word that a command must issue again on an array: that of its oldest pass still needed. -/
def ArrayJob.rewind (j : ArrayJob) (ref : CmdRef) (i : Nat) (flights : List Flight) : Nat :=
  let oldest := ((flights.filter (fun f => f.cmd == ref)).map (·.pass)).foldl min (j.bcastPos / j.m)
  min (j.edgePos.getD i 0) (64 * oldest)

/-- An array loses what its cells held, reloads the weights that its commands still need with full edges, and replays
what was refused (R128): `flights` are the broadcasts whose waves had not been accumulated. -/
def State.refeed (s : State) (die a : Nat) (flights : List Flight) : State :=
  let flights := s.sortFlights flights
  let refs := ((flights.map (·.cmd)) ++ (s.array die a).bcastQ).eraseDups
  let s := s.modArray die a (fun x => { x with
    cells := [], bottom := [], flight := [], edgeQ := [], replay := flights, refusing := false, failRow := none })
  refs.foldl (fun s ref => match s.job ref with
    | none => s
    | some (_, j) =>
      let i := a - j.lead
      let pos := j.rewind ref i flights
      let s := s.setJob ref { j with edgePos := j.edgePos.set i pos, held := tabDel j.held i }
      if pos < 64 * j.passes then s.modArray die a (fun x => { x with edgeQ := x.edgeQ ++ [ref] }) else s) s

/-- The flights of a lower array that came through the upper one, as the upper one replays them (R117). -/
def upperFlights (fl : List Flight) : List Flight :=
  (fl.filter (fun f => f.fromUpper)).map (fun f => { f with fromUpper := false, toLower := true })

/-- Broadcasts of an array whose waves its accumulator has not taken. -/
def ArrayState.untaken (x : ArrayState) : List Flight := x.flight ++ x.replay

/-- A swapped array, with the other array of its chain where its waves pass through both (R117, R128). -/
def State.refeedChain (s : State) (die a : Nat) : State :=
  let chained (ref : CmdRef) : Bool := match s.job ref with
    | some (_, j) => j.chain == 2
    | none => false
  let upper := a / 2 * 2
  let fl := (s.array die (upper + 1)).untaken
  if (fl.any (fun f => f.fromUpper)) || ((s.array die a).bcastQ.any chained) then
    let own := (s.array die upper).untaken.filter (fun f => !f.toLower)
    (s.refeed die upper (own ++ upperFlights fl)).refeed die (upper + 1) fl
  else s.refeed die a (s.array die a).untaken

/-- Weights of a command's pass. -/
def Weights.ofPass (w : Weights) (ref : CmdRef) (pass : Nat) : Bool := w.valid && w.owner == some ref && w.pass == pass

/-- Every cell still holds the weights of a broadcast that is to be replayed. -/
def ArrayState.keeps (x : ArrayState) (f : Flight) : Bool :=
  allCells.all (fun rc =>
    let c := x.cell rc.1 rc.2
    c.cur.ofPass f.cmd f.pass || c.nxt.ofPass f.cmd f.pass)

/-- CUR is not done where its pass is replayed: its LAST wave will come again. -/
def Cell.rearm (flights : List Flight) (c : Cell) : Cell :=
  if flights.any (fun f => c.cur.ofPass f.cmd f.pass) then { c with curDone := false } else c

/-- The products and the wave of a cell that belong to chained waves leave it. -/
def Cell.dropChained (c : Cell) : Cell :=
  { c with
    wave := if c.prods.head?.any (fun p => p.chainOut) then none else c.wave
    prods := c.prods.filter (fun p => !p.chainOut) }

/-- The row's weights of one command and pass, reloaded with a one-word edge (R126). -/
def State.reloadWord (die a row : Nat) (s : State) (owner : CmdRef × Nat) : State :=
  match s.job owner.1 with
  | none => s
  | some (c, j) =>
    let fed := s.wordOf c (a - j.lead) owner.2 row
    let poison := poisonWords fed.flatten
    let fill (col : Nat) (w : Weights) : Weights :=
      if w.ofPass owner.1 owner.2 then { w with elems := (fed.getD col []).map (·.1) } else w
    let s := s.modArray die a (fun x => (List.range 64).foldl (fun y col =>
      y.setCell row col { y.cell row col with cur := fill col (y.cell row col).cur, nxt := fill col (y.cell row col).nxt }) x)
    (s.setJob owner.1 (j.poison poison)).countFeedPoison j.die poison.length

/-- CUR and NXT of a row reloaded from the feeder (R126). -/
def State.reloadRow (s : State) (die a row : Nat) : State :=
  let x := s.array die a
  let owners := ((List.range 64).flatMap (fun col => [(x.cell row col).cur, (x.cell row col).nxt])).filterMap (fun w =>
    if w.valid then w.owner.map (fun o => (o, w.pass)) else none)
  owners.eraseDups.foldl (State.reloadWord die a row) s

/-- The arrays that replay after a row's repair: the array that refuses waves, and the lower one of its chain, which
waits for the waves refused (R117, R125). -/
def State.refusers (s : State) (die a : Nat) : List Nat :=
  if (s.array die a).refusing then
    a :: (if a % 2 = 0 ∧ (s.array die (a + 1)).untaken.any (·.fromUpper) then [a + 1] else [])
  else []

/-- The refused waves of an array have run out: none but chained ones, which its upper array may not have sent, remain.
-/
def State.ranOut (s : State) (die a : Nat) : Bool := (s.array die a).cells.all (fun e => e.2.prods.all (fun p => p.chainIn))

/-- The feeder of an array replays from the first refused vector, in the original order (R126 step 4); the upper array
of a chain replays its part. -/
def State.replayRefused (s : State) (die a : Nat) : State :=
  let fl := (s.array die a).untaken
  let up := upperFlights fl
  let s := s.modArray die a (fun x => { x with
    cells := x.cells.map (fun e => (e.1, ({ e.2 with prods := [], wave := none } : Cell).rearm fl))
    bottom := x.bottom.filter (fun e => e.2.toLower), flight := [], replay := fl, refusing := false, failRow := none })
  if up.isEmpty then s
  else s.modArray die (a - 1) (fun x => { x with
    cells := x.cells.map (fun e => (e.1, e.2.dropChained.rearm up))
    bottom := x.bottom.filter (fun e => !e.2.toLower)
    replay := s.sortFlights (up ++ x.replay.filter (fun f => !f.toLower)) })

/-- A repaired row is fed again (R126). Where the cells still hold the weights of every refused vector, the row's CUR
and NXT are reloaded with one-word edges; where a LAST wave had already promoted later weights over them, the array is
fed with full edges as after a swap (DEDUCED, log 62). -/
def State.refeedRow (s : State) (die a row : Nat) : State :=
  let rs := s.refusers die a
  let kept := rs.all (fun r =>
    let fl := ((s.array die r).untaken).filter (fun f => (s.job f.cmd).isSome)
    fl.all (s.array die r).keeps && (upperFlights fl).all (s.array die (r - 1)).keeps)
  if kept then
    (rs.foldl (fun s r => s.replayRefused die r) (s.reloadRow die a row)).modArray die a (fun x => { x with failRow := none })
  else s.refeedChain die a

end Sys2Proof.Machine
end

