-- ==== Sys2Proof/Machine/Drain.lean ====
section
/-! DEFINITION. Drain and vector units: the DRAIN command (08). -/

namespace Sys2Proof.Machine

/-! ### Functions (R174, R176, R104) -/

/-- Fraction bits of the fixed-point arithmetic in which the functions' exact values are found. -/
def fxBits : Nat := 400

/-- A finite value in fixed point. -/
def toFx : Num → Int
  | .fin n m e =>
    let v : Int := if 0 ≤ e + (fxBits : Int) then (m : Int) * 2 ^ (e + fxBits).toNat else (m : Int) / 2 ^ (-(e + fxBits)).toNat
    if n then -v else v
  | _ => 0

def ofFx (v : Int) : Num := .fin (decide (v < 0)) v.natAbs (-(fxBits : Int))

def fxMul (a b : Int) : Int := a * b / (2 ^ fxBits : Nat)

/-- Terms of the exponential series of r, summed. -/
def expTerms (r : Int) : Nat → Nat → Int → Int → Int
  | 0, _, _, sum => sum
  | fuel + 1, n, term, sum =>
    let term := fxMul term r / ((n + 1 : Nat) : Int)
    expTerms r fuel (n + 1) term (sum + term)

def squareTimes : Nat → Int → Int
  | 0, v => v
  | n + 1, v => squareTimes n (fxMul v v)

/-- exp of a fixed-point argument of magnitude at most 128. -/
def fxExp (x : Int) : Int :=
  squareTimes 8 (expTerms (x / 256) 60 0 (2 ^ fxBits : Nat) (2 ^ fxBits : Nat))

/-- Where within 2 ulp of the exact FP32 result a unit's function lands: free, but the same on every die (R174, log 20).
-/
def within2 (fn : Nat) (arg center : W32) : W32 :=
  let k := Config.functionChoice fn arg % 5
  let mag := center.toNat % 2 ^ 31
  BitVec.ofNat 32 (center.toNat - mag + min 0x7F800000 (mag + k - 2))

/-- exp of a value, which may be unrounded inside a step (R100, R174). -/
def fnExp (x : Num) : W32 :=
  match x with
  | .nan => 0x7FC00000#32
  | .inf n => if n then 0 else 0x7F800000#32
  | y =>
    let v := toFx y
    let big : Int := (128 * 2 ^ fxBits : Nat)
    within2 0 (toF32 y) (if big < v then 0x7F800000#32 else if v < -big then 0 else toF32 (ofFx (fxExp v)))

/-- The logistic function (R174). -/
def fnSigmoid (x : W32) : W32 :=
  match ofF32 x with
  | .nan => 0x7FC00000#32
  | .inf n => if n then 0 else 0x3F800000#32
  | y =>
    let v := toFx y
    let big : Int := (128 * 2 ^ fxBits : Nat)
    let one : Int := (2 ^ fxBits : Nat)
    within2 1 x (if big < v then 0x3F800000#32 else if v < -big then 0
      else numDivF32 (ofFx one) (ofFx (one + fxExp (-v))))

/-- tanh (R174). -/
def fnTanh (x : W32) : W32 :=
  match ofF32 x with
  | .nan => 0x7FC00000#32
  | .inf n => if n then 0xBF800000#32 else 0x3F800000#32
  | y =>
    let v := toFx y
    let big : Int := (64 * 2 ^ fxBits : Nat)
    let one : Int := (2 ^ fxBits : Nat)
    within2 2 x (if numIsZero y then x else if big < v then 0x3F800000#32 else if v < -big then 0xBF800000#32
      else numDivF32 (ofFx (fxExp (2 * v) - one)) (ofFx (fxExp (2 * v) + one)))

/-- Reciprocal square root of a value, which may be unrounded inside a step (R100, R174). -/
def fnRsqrt (x : Num) : W32 :=
  let r := numRsqrtF32 x
  if f32NonFinite r || numIsZero (ofF32 r) then r else within2 3 (toF32 x) r

/-- Reciprocal (R174); at an infinity the limit is +0 (R104). -/
def fnRecip (x : Num) : W32 :=
  match x with
  | .inf _ => 0
  | y =>
    let r := numDivF32 numOne y
    if f32NonFinite r then r else within2 7 (toF32 y) r

/-- 1/√2, 2/√π and 1/√(2π) in fixed point. -/
def fxInvSqrt2 : Int := 1825926399513388693214341862702949855327090591045547291492489648599695885154568041590180595577579837943706962030434520948
def fxTwoOverSqrtPi : Int := 2913756966668194800300214067270034030186276855045544562015353861004409627435460814446341471088463227900768995815277951550
def fxInvSqrtTwoPi : Int := 1030168654930312834579443762448291520423692007902432556621662294693524574739340080541057368303018433395121189280430287636

def fxOne : Int := (2 ^ fxBits : Nat)

/-- The decimal constants of R176. -/
def fxDecimal (num places : Nat) : Int := fxOne * num / ((10 ^ places : Nat) : Int)

/-- Terms of the series of erf: `pow` is (−1)ⁿ x²ⁿ⁺¹ / n!. -/
def erfTerms (x2 : Int) : Nat → Nat → Int → Int → Int
  | 0, _, _, sum => sum
  | fuel + 1, n, pow, sum =>
    let pow := fxMul (-pow) x2 / ((n + 1 : Nat) : Int)
    erfTerms x2 fuel (n + 1) pow (sum + pow / ((2 * n + 3 : Nat) : Int))

/-- erf of a fixed-point argument; beyond ±6 it is ±1 in FP32. -/
def fxErf (x : Int) : Int :=
  if 6 * fxOne < x then fxOne else if x < -(6 * fxOne) then -fxOne
  else fxMul fxTwoOverSqrtPi (erfTerms (fxMul x x) 300 0 x x)

/-- A unit function's result inside R176's formulas: an FP32 pattern within 2 ulp of the exact FP32 result, free by
function and argument, the same on every die (R174, log 20). -/
def within2Fx (fn : Nat) (z : W32) (v : Int) : Int := toFx (ofF32 (within2 fn z (toF32 (ofFx v))))

def unitErf (z : W32) : Int := within2Fx 4 z (fxErf (fxMul (toFx (ofF32 z)) fxInvSqrt2))

/-- tanh of a fixed-point argument. -/
def fxTanh (u : Int) : Int :=
  if 64 * fxOne < u then fxOne else if u < -(64 * fxOne) then -fxOne
  else (fxExp (2 * u) - fxOne) * fxOne / (fxExp (2 * u) + fxOne)

/-- t of R176. -/
def unitTanhU (z : W32) : Int :=
  let x := toFx (ofF32 z)
  within2Fx 5 z (fxTanh (fxMul (fxDecimal 7978846 7) (x + fxMul (fxDecimal 44715 6) (fxMul x (fxMul x x)))))

/-- tanh, the one function of R174. -/
def unitTanh (z : W32) : Int := toFx (ofF32 (fnTanh z))

/-- exp(−z²/2) of the normal density. -/
def unitGauss (z : W32) : Int :=
  let x := toFx (ofF32 z)
  let v := -(fxMul x x) / 2
  within2Fx 6 z (if v < -(128 * fxOne) then 0 else fxExp v)

/-- sigmoid, the one function of R174. -/
def unitSigma (z : W32) : Int := toFx (ofF32 (fnSigmoid z))

/-- What f(z) multiplies z by: Φ(z), (1 + t)/2 or σ(z) (R176). -/
def actFactor (act : Nat) (z : W32) : Int :=
  if act = 2 then (fxOne + unitErf z) / 2
  else if act = 3 then (fxOne + unitTanhU z) / 2
  else unitSigma z

/-- f′(z) of R176 from the unit's functions, before its one rounding. -/
def actSlope (act : Nat) (z : W32) : Int :=
  let x := toFx (ofF32 z)
  if act = 2 then (fxOne + unitErf z) / 2 + fxMul x (fxMul fxInvSqrtTwoPi (unitGauss z))
  else if act = 3 then
    (let t := unitTanhU z
     (fxOne + t) / 2 + fxMul (fxMul x (fxOne - fxMul t t))
       (fxMul (fxDecimal 7978846 7) (fxOne + fxMul (fxDecimal 134145 6) (fxMul x x))) / 2)
  else if act = 4 then
    (let g := unitSigma z
     fxMul g (fxOne + fxMul x (fxOne - g)))
  else if act = 5 then (let t := unitTanh z; fxOne - fxMul t t)
  else (let g := unitSigma z; fxMul g (fxOne - g))

/-- The ungated function behind an ACT code. -/
def baseAct (act : Nat) : Nat :=
  if act = 0x10 then 1 else if act = 0x11 then 2 else if act = 0x12 then 3 else if act = 0x13 then 4
  else if act = 0x14 then 6 else act

/-- f(z) of R176 before the rounding that ends its step (R100, R172: DEDUCED, log 20), with the limits of R104. -/
def actNum (act : Nat) (z : W32) : Num :=
  let x := ofF32 z
  if x = .nan then .nan
  else if act = 0 then x
  else if act = 1 then (if numLt Num.zero x then x else Sys2Proof.Machine.Num.zero)
  else if act = 5 then ofF32 (fnTanh z)
  else if act = 6 then ofF32 (fnSigmoid z)
  else match x with
    | .inf n => if n then Sys2Proof.Machine.Num.zero else .inf false
    | _ => numMul x (ofFx (actFactor act z))

/-- f(z) of R176, rounded once. -/
def actFn (act : Nat) (z : W32) : W32 := toF32 (actNum act z)

/-- f'(z) of R176, rounded once, with the limits of R104. -/
def actDeriv (act : Nat) (z : W32) : W32 :=
  let x := ofF32 z
  if x = .nan then 0x7FC00000#32
  else if act = 0 then 0x3F800000#32
  else if act = 1 then (if numLt Num.zero x then 0x3F800000#32 else 0)
  else match x with
    | .inf n => if n || act = 5 || act = 6 then 0 else 0x3F800000#32
    | _ => toF32 (ofFx (actSlope act z))

def actKnown (act : Nat) : Bool := decide (act ≤ 6) || (decide (0x10 ≤ act) && decide (act ≤ 0x14))

/-! ### Tensors (R171, R182 to R184) -/

/-- A value read, and the poisoned words met. -/
abbrev Rd := W32 × List Nat

/-- Poisoned words of a range, as addresses. -/
def State.poisonedAt (s : State) (key addr n : Nat) : List Nat :=
  ((unitsOf key n).filter s.unitPoisoned).map (fun u => u + addr - key)

/-- Key of a drain's address (R171). -/
def State.drainKey (s : State) (k : Nat) (p : DrainP) (addr : Nat) : Nat :=
  let off := addrOffset addr
  match addrSpace addr with
  | 0 => dieKey 4 p.die off
  | 1 => dieKey 5 p.die off
  | 2 => farKey off
  | _ => farKey (65536 * (s.mb k p.mb).baseUnits + off)

/-- An access stays inside its space, or inside the reservation (R171, R247). -/
def State.drainFits (s : State) (k : Nat) (p : DrainP) (addr n : Nat) : Bool :=
  if addrSpace addr = 3 then decide (addrOffset addr + n ≤ 65536 * (s.mb k p.mb).sizeUnits)
  else s.inSpace [0, 1, 2] (some p.die) addr n

def stashAddr (off : Nat) : Nat := 3 * 2 ^ 60 + off

/-- A tensor of a drain: format, layout, addresses, row stride in elements, first column, and DTL_KPOS. -/
structure Tensor where
  fmt : Nat
  dtl : Bool
  addr : Nat
  scale : Nat
  stride : Nat
  col0 : Nat
  kpos : Nat
  deriving DecidableEq, Repr

/-- Bit offset of element (m, c) from the tensor's address (R182, R183). -/
def Tensor.bitOff (t : Tensor) (m c : Nat) : Nat :=
  if t.dtl then
    (let e := granuleOf t.fmt
     dtlBit t.fmt ((t.kpos + m) / e) c ((t.kpos + m) % e))
  else (m * t.stride + t.col0 + c) * fmtBits t.fmt

/-- Byte offset of the scale of element (m, c) (R182, R183, R139). -/
def Tensor.scaleOff (t : Tensor) (m c : Nat) : Nat :=
  if t.dtl then 2 * granuleOf t.fmt * c + (t.kpos + m) / 32 else m * t.stride / 32 + (t.col0 + c) / 32

/-- Bytes from the tensor's address to its end, elements and scales, for `rows` by `cols`. -/
def Tensor.bytes (t : Tensor) (rows cols : Nat) : Nat :=
  if t.dtl then tileBytes t.fmt else (((rows - 1) * t.stride + t.col0 + cols) * fmtBits t.fmt + 7) / 8

def Tensor.scaleBytes (t : Tensor) (rows cols : Nat) : Nat :=
  if t.dtl then tileScaleBytes t.fmt else (rows - 1) * t.stride / 32 + (t.col0 + cols + 31) / 32

/-- One element read, with its scale; a poisoned word of either gives the canonical NaN (R173). -/
def State.tensorElem (s : State) (k : Nat) (p : DrainP) (t : Tensor) (m c : Nat) : Rd :=
  let key := s.drainKey k p t.addr
  let bitOff := t.bitOff m c
  let skey := s.drainKey k p t.scale + t.scaleOff m c
  let bad := s.poisonAll key t.addr bitOff (fmtBits t.fmt) ++
    (if fmtIsMx t.fmt then s.poisonedAt skey (t.scale + t.scaleOff m c) 1 else [])
  if !bad.isEmpty then (0x7FC00000#32, bad)
  else
    let x := decodeElem t.fmt (s.readBits key bitOff (fmtBits t.fmt))
    (toF32 (if fmtIsMx t.fmt then applyScale (s.readNat skey 1) x else x), [])

/-- FP32 words at an address: bias, gamma, beta, row state. -/
def State.drainWord (s : State) (k : Nat) (p : DrainP) (addr : Nat) : Rd :=
  let key := s.drainKey k p addr
  let bad := s.poisonedAt key addr 4
  (if bad.isEmpty then BitVec.ofNat 32 (s.readNat key 4) else 0x7FC00000#32, bad)

/-- A matrix of values, with the poisoned words met in row order. -/
def readMat (rows cols : Nat) (f : Nat → Nat → Rd) : List (List W32) × List Nat :=
  let m := (List.range rows).map (fun r => (List.range cols).map (fun c => f r c))
  (m.map (fun row => row.map (·.1)), m.flatten.flatMap (·.2))

def elemAt (m : List (List W32)) (r c : Nat) : W32 := (m.getD r []).getD c 0

/-- What a conversion leaves: codes by row, scales by (row, column) of their block, saturations and non-finite values
written. -/
structure Converted where
  codes : List (List Nat)
  scales : List (Nat × Nat × Nat) := []
  sats : Nat := 0
  nonfinite : Nat := 0
  deriving DecidableEq, Repr

/-- Whether a written code is NaN or infinite; INT8 has none (R104). -/
def codeNonFinite (fmt code : Nat) : Bool := fmt != 8 && numNonFinite (decodeElem fmt code)

/-- Conversion of a matrix to a format without blocks (R101, R104). -/
def convertPlain (fmt : Nat) (rnd : List Nat) (m : List (List W32)) : Converted :=
  let cols := (m.getD 0 []).length
  let rs := m.zipIdx.map (fun row => row.1.zipIdx.map (fun x =>
    encodeElem fmt (if rnd.isEmpty then none else some (rnd.getD (row.2 * cols + x.2) 0)) (ofF32 x.1)))
  { codes := rs.map (fun r => r.map (·.1))
    sats := (rs.flatten.filter (·.2)).length
    nonfinite := (rs.flatten.filter (fun x => codeNonFinite fmt x.1)).length }

/-- Non-finite values that a block leaves in memory: all of it under scale 0xFF, by R91 (R105). -/
def blockNonFinite (fmt scale : Nat) (codes : List Nat) : Nat :=
  if scale = 0xFF then codes.length else (codes.filter (codeNonFinite fmt)).length

/-- Conversion of one MX block of 32 values: scale, codes, saturations, non-finite values written. -/
def convertBlock (fmt : Nat) (rnd : List (Option Nat)) (xs : List W32) : Nat × List Nat × Nat × Nat :=
  let (scale, codes, sats) := encodeMx fmt rnd (xs.map ofF32)
  (scale, codes, sats, blockNonFinite fmt scale codes)

/-- Conversion to an MX format, blocks along the rows or, in DTL, along the columns (R102, R182, R183). -/
def convertMx (fmt : Nat) (alongRows : Bool) (rnd : List Nat) (m : List (List W32)) : Converted :=
  let rows := m.length
  let cols := (m.getD 0 []).length
  let at_ (r c : Nat) : W32 × Option Nat :=
    (elemAt m r c, if rnd.isEmpty then none else some (rnd.getD (r * cols + c) 0))
  let blocks : List (Nat × Nat × (Nat × List Nat × Nat × Nat)) :=
    if alongRows then
      (List.range rows).flatMap (fun r => (List.range (cols / 32)).map (fun b =>
        let xs := (List.range 32).map (fun i => at_ r (32 * b + i))
        (r, 32 * b, convertBlock fmt (xs.map (·.2)) (xs.map (·.1)))))
    else
      (List.range (rows / 32)).flatMap (fun b => (List.range cols).map (fun c =>
        let xs := (List.range 32).map (fun i => at_ (32 * b + i) c)
        (32 * b, c, convertBlock fmt (xs.map (·.2)) (xs.map (·.1)))))
  let code (r c : Nat) : Nat :=
    let (br, bc, i) := if alongRows then (r, c / 32 * 32, c % 32) else (r / 32 * 32, c, r % 32)
    match blocks.find? (fun b => b.1 == br && b.2.1 == bc) with
    | some b => b.2.2.2.1.getD i 0
    | none => 0
  { codes := (List.range rows).map (fun r => (List.range cols).map (fun c => code r c))
    scales := blocks.map (fun b => (b.1, b.2.1, b.2.2.1))
    sats := sumNat (blocks.map (fun b => b.2.2.2.2.1))
    nonfinite := sumNat (blocks.map (fun b => b.2.2.2.2.2)) }

/-- A DTL output: the whole range of 64 rows and 64 columns, zero beyond ROWS and COLS (R140, R183, R190). -/
def padTile (m : List (List W32)) : List (List W32) :=
  m.map (fun row => row ++ List.replicate (64 - row.length) 0) ++ List.replicate (64 - m.length) (List.replicate 64 0)

/-- Bits written at bit offsets from a key, bytes touched in part merged: consecutive bytes are one write (R218). -/
def State.writeElems (s : State) (key : Nat) (elems : List (Nat × Nat × Nat)) : State :=
  let val := elems.foldl (fun acc e => acc ||| ((e.2.2 % 2 ^ e.2.1) <<< e.1)) 0
  let mask := elems.foldl (fun acc e => acc ||| ((2 ^ e.2.1 - 1) <<< e.1)) 0
  let n := (mask.log2 + 8) / 8
  let (s, run) := (List.range n).foldl (fun (acc : State × List (Nat × Byte)) i =>
    let mb := mask >>> (8 * i) % 256
    if mb = 0 then
      (match acc.2 with
       | [] => acc
       | (a, _) :: _ => (acc.1.write (key + a) (acc.2.map (·.2)), []))
    else
      let old := (memRead acc.1.mem (key + i)).toNat
      (acc.1, acc.2 ++ [(i, BitVec.ofNat 8 ((old &&& (255 - mb)) ||| (val >>> (8 * i) % 256)))])) (s, [])
  match run with
  | [] => s
  | (a, _) :: _ => s.write (key + a) (run.map (·.2))

/-- A tensor written: elements, then scales (R182, R183). -/
def State.writeTensor (s : State) (k : Nat) (p : DrainP) (t : Tensor) (v : Converted) : State :=
  let key := s.drainKey k p t.addr
  let rowOf (r : List Nat × Nat) : List (Nat × Nat × Nat) :=
    r.1.zipIdx.map (fun x => (t.bitOff r.2 x.2, fmtBits t.fmt, x.1))
  let s := if t.dtl then s.writeElems key (v.codes.zipIdx.flatMap rowOf)
    else v.codes.zipIdx.foldl (fun st r => st.write (key + t.bitOff r.2 0 / 8) (packElems (fmtBits t.fmt) r.1)) s
  if fmtIsMx t.fmt then
    (let skey := s.drainKey k p t.scale
     s.writeElems skey (v.scales.map (fun b => (8 * t.scaleOff b.1 b.2.1, 8, b.2.2))))
  else s

/-! ### The command in progress -/

/-- What a DRAIN has counted so far (R188). -/
structure DrainAcc where
  elements : Nat := 0
  sats : Nat := 0
  nonfinite : Nat := 0
  gradNonfinite : Bool := false
  poison : List Nat := []
  stash : Nat := 0
  deriving DecidableEq, Repr

/-- Output of one tensor: converted, written and counted; `rounds` asks for stochastic rounding (R103). DESIGN CHOICE
(log 71): ELEMENTS counts the whole range that a DTL output writes, its zeros beyond ROWS and COLS too. -/
def State.putTensor (s : State) (k : Nat) (p : DrainP) (t : Tensor) (rounds main : Bool) (m : List (List W32))
    (acc : DrainAcc) : State × DrainAcc :=
  let m := if t.dtl then padTile m else m
  let n := m.length * (m.getD 0 []).length
  let (rnd, s) := if rounds then s.draws n else ([], s)
  let v := if fmtIsMx t.fmt then convertMx t.fmt (!t.dtl) rnd m else convertPlain t.fmt rnd m
  let bytes := (if addrSpace t.addr = 3 then fmtBytes t.fmt n else 0) +
    (if addrSpace t.scale = 3 then v.scales.length else 0)
  (s.writeTensor k p t v,
   { acc with
     elements := acc.elements + (if main then n else 0)
     sats := acc.sats + v.sats
     nonfinite := acc.nonfinite + v.nonfinite
     gradNonfinite := acc.gradNonfinite || (main && decide (0 < v.nonfinite))
     stash := acc.stash + bytes })

def DrainP.destTensor (p : DrainP) (second : Bool) : Tensor :=
  { fmt := p.destFmt, dtl := p.destDtl, addr := if second then p.dest2 else p.dest, scale := p.destScale,
    stride := p.stride, col0 := 0, kpos := p.dtlK }

/-- The STASH_PRE tensor, or its half of a gated function (R184): `half` 0 the gate, 1 the value. -/
def DrainP.preTensor (p : DrainP) (half : Nat) : Tensor :=
  let fmt := p.preCtl % 16
  let dtl := p.preCtl.testBit 4
  let g := p.gated
  { fmt := fmt, dtl := dtl
    addr := stashAddr (16 * p.preOff + (if dtl then half * tileBytes fmt else 0))
    scale := stashAddr (p.preScaleOff + (if dtl then half * tileScaleBytes fmt else 0))
    stride := if g && !dtl then 2 * p.stride else p.stride
    col0 := if dtl then 0 else 64 * half
    kpos := p.dtlK }

def DrainP.postTensor (p : DrainP) : Tensor :=
  { fmt := p.postCtl % 16, dtl := p.postCtl.testBit 4, addr := stashAddr (16 * p.postOff),
    scale := stashAddr p.postScaleOff, stride := p.stride, col0 := 0, kpos := p.dtlK }

def DrainP.rowMajor (p : DrainP) (fmt addr : Nat) : Tensor :=
  { fmt := fmt, dtl := false, addr := addr, scale := 0, stride := p.stride, col0 := 0, kpos := 0 }

/-! ### The source (R173) -/

def State.slotRd (s : State) (die a slot r c : Nat) : Rd :=
  let key := slotElemKey die a slot r c
  let bad := s.poisonedAt key key 4
  (if bad.isEmpty then s.slotElem die a slot r c else 0x7FC00000#32, bad)

def State.spillRd (s : State) (k : Nat) (p : DrainP) (r c : Nat) : Rd :=
  let addr := p.srcAddr + 8 * (64 * r + c)
  let key := s.drainKey k p addr
  let bad := s.poisonedAt key addr 8
  (if bad.isEmpty then toF32 (wideNum (BitVec.ofNat 64 (s.readNat key 8))) else 0x7FC00000#32, bad)

def State.sourceRd (s : State) (k : Nat) (p : DrainP) (r c : Nat) : Rd :=
  if p.src = 0 then s.slotRd p.die p.array p.slot r c
  else if p.src = 1 then s.spillRd k p r c
  else s.tensorElem k p (p.rowMajor p.srcFmt p.srcAddr) r c

/-! ### Row state (R177 to R181) -/

structure RowState where
  a : W32
  b : W32
  idx : Nat
  alpha : W32
  deriving DecidableEq, Repr

/-- A row's state as the step sees it (R177), with the poisoned words met. DESIGN CHOICE (log 71): a step reads all four
words of the entry, so that poison in one that it does not need counts too; and IDX of a poisoned word, which has no NaN,
is the low half of the NaN's pattern, 0, as is the index of a poisoned pair. -/
def State.rowState (s : State) (k : Nat) (p : DrainP) (m : Nat) : RowState × List Nat :=
  if p.on sInit then
    ({ a := if p.on sOnline then 0xFF800000#32 else 0, b := 0, idx := 0xFFFF, alpha := 0x3F800000#32 }, [])
  else
    let w (i : Nat) : Rd := s.drainWord k p (p.rowState + 16 * m + i)
    let idx := w 8
    ({ a := (w 0).1, b := (w 4).1, idx := idx.1.toNat % 65536, alpha := (w 12).1 },
     (w 0).2 ++ (w 4).2 ++ idx.2 ++ (w 12).2)

/-- A row's entry written back; its two reserved bytes stay (R177). -/
def State.putRowState (s : State) (k : Nat) (p : DrainP) (m : Nat) (r : RowState) : State :=
  let key := s.drainKey k p (p.rowState + 16 * m)
  s.write key (toBytes 4 r.a.toNat ++ toBytes 4 r.b.toNat ++ toBytes 2 r.idx ++ s.read (key + 10) 2 ++ toBytes 4 r.alpha.toNat)

/-- ONLINE on one row (R179). -/
def onlineRow (idxBase : Nat) (st : RowState) (xs : List W32) : RowState × List W32 :=
  let tagged := xs.zipIdx.map (fun x => (x.1, (idxBase + x.2) % 65536))
  match tagged with
  | [] => (st, xs)
  | t :: ts =>
    let tile := winner true t ts
    let best := winner true (st.a, st.idx) [tile]
    let low := best.1 == 0xFF800000#32
    let less (x : W32) : Num := numAdd (ofF32 x) (numNeg (ofF32 best.1))
    let alpha := if low then 0x3F800000#32 else fnExp (less st.a)
    let ys := xs.map (fun x => if low then 0 else fnExp (less x))
    ({ a := best.1, b := f32Fma st.b alpha (rowSum ys), idx := best.2, alpha := alpha }, ys)

/-- The larger of a value and zero, keeping NaN. -/
def numMax0 (x : Num) : Num := if numLt x Num.zero then Sys2Proof.Machine.Num.zero else x

/-- NORM_APPLY on one row, one step with one rounding at its end (R100, R172, R178); the divisions by n are products
with the unit's reciprocal of n (R174; DEDUCED, log 20). -/
def normRow (p : DrainP) (st : RowState) (gamma beta xs : List W32) : List W32 :=
  let rn := ofF32 (fnRecip (.fin false p.normCount 0))
  let mu := numMul (ofF32 st.a) rn
  let bn := numMul (ofF32 st.b) rn
  let eps := ofF32 p.eps
  let g (c : Nat) : Num := ofF32 (gamma.getD c 0)
  if p.on sNormLayer then
    (let r := ofF32 (fnRsqrt (numAdd (numMax0 (numAdd bn (numNeg (numMul mu mu)))) eps))
     xs.zipIdx.map (fun x =>
       toF32 (numAdd (numMul (numMul (numAdd (ofF32 x.1) (numNeg mu)) r) (g x.2)) (ofF32 (beta.getD x.2 0)))))
  else
    (let r := ofF32 (fnRsqrt (numAdd bn eps))
     xs.zipIdx.map (fun x => toF32 (numMul (numMul (ofF32 x.1) r) (g x.2))))

/-- The reducer's SUM over values that their step has not rounded: FP32 after each addition, in ascending column (R100,
R166). -/
def sumNums : List Num → W32
  | [] => 0
  | x :: xs => toF32 (xs.foldl (fun acc y => ofF32 (toF32 (numAdd acc y))) x)

/-- The row-state steps of one row, before the output: the row's values and its new state. -/
def rowStep (p : DrainP) (st : RowState) (aux gamma beta xs : List W32) : RowState × List W32 :=
  if p.on sNormStats then
    ({ st with a := f32Add st.a (rowSum xs), b := f32Add st.b (sumNums (xs.map (fun x => numMul (ofF32 x) (ofF32 x)))) }, xs)
  else if p.on sRowDot then
    ({ st with a := f32Add st.a (sumNums (List.zipWith (fun x y => numMul (ofF32 x) (ofF32 y)) xs aux)) }, xs)
  else if p.on sOnline then onlineRow p.idxBase st xs
  else if p.on sNormApply then (st, normRow p st gamma beta xs)
  else if p.on sFinalDiv then (st, xs.map (fun x => f32Mul x (fnRecip (ofF32 st.b))))
  else (st, xs)

/-- Steps that write the entry back. -/
def DrainP.writesRow (p : DrainP) : Bool := p.on sNormStats || p.on sRowDot || p.on sOnline

/-! ### The pipeline (R172) -/

def mapMat (m : List (List W32)) (f : Nat → Nat → W32 → W32) : List (List W32) :=
  m.zipIdx.map (fun r => r.1.zipIdx.map (fun x => f r.2 x.2 x.1))

/-- Steps 2 to 4 on a source (R172, R175). -/
def preSteps (p : DrainP) (bias : List W32) (m : List (List W32)) : List (List W32) :=
  mapMat m (fun r c x =>
    let x := f32Mul x p.scaleIn
    let x := if p.on sMask && decide (p.qPos + r < p.kPos + c) then 0xFF800000#32 else x
    if p.on sBias then f32Add x (bias.getD c 0) else x)

/-- FP32 words of consecutive columns. -/
def State.drainWords (s : State) (k : Nat) (p : DrainP) (addr n : Nat) : List W32 × List Nat :=
  let ws := (List.range n).map (fun c => s.drainWord k p (addr + 4 * c))
  (ws.map (·.1), ws.flatMap (·.2))

/-- The whole pipeline's values and side reads. -/
structure Pipe where
  pre : List (List W32) := []
  preB : List (List W32) := []
  post : List (List W32) := []
  out : List (List W32) := []
  out2 : List (List W32) := []
  rows : List RowState := []
  poison : List Nat := []
  deriving DecidableEq, Repr

/-- Steps 1 to 14 of FORWARD, INPUT_GRAD and WEIGHT_GRAD drains (R172). -/
def State.pipe (s : State) (k : Nat) (p : DrainP) : Pipe :=
  let src := readMat p.rows p.cols (s.sourceRd k p)
  let srcB := if p.gatedFwd then readMat p.rows p.cols (s.slotRd p.die p.array2 p.slot2) else ([], [])
  let bias := if p.on sBias then s.drainWords k p p.bias p.cols else ([], [])
  let biasB := if p.on sBias && p.gatedFwd then s.drainWords k p (p.bias + 256) p.cols else ([], [])
  let gamma := if p.on sNormApply then s.drainWords k p p.bias p.cols else ([], [])
  let beta := if p.on sNormApply && p.on sNormLayer then s.drainWords k p (p.bias + 256) p.cols else ([], [])
  let aux := if p.on sRowDot || p.on sSoftmaxBwd then readMat p.rows p.cols (s.tensorElem k p (p.rowMajor p.auxFmt p.aux))
    else ([], [])
  let res := if p.on sResidual then readMat p.rows p.cols (s.tensorElem k p (p.rowMajor p.resFmt p.res)) else ([], [])
  let deriv := p.kind == 1 && p.on sDeriv
  let za := if deriv then readMat p.rows p.cols (s.tensorElem k p (p.preTensor 0)) else ([], [])
  let zb := if p.gatedBwd then readMat p.rows p.cols (s.tensorElem k p (p.preTensor 1)) else ([], [])
  let states := if p.usesRow then (List.range p.rows).map (fun m => s.rowState k p m) else []
  let st (r : Nat) : RowState := (states.getD r (⟨0, 0, 0, 0⟩, [])).1
  let rowReads := aux.2 ++ states.flatMap (·.2)
  let x := preSteps p bias.1 src.1
  let xB := preSteps p biasB.1 srcB.1
  let act := baseAct p.act
  let y := if p.kind = 0 then
      (if p.gatedFwd then mapMat x (fun r c v => toF32 (numMul (actNum act v) (ofF32 (elemAt xB r c)))) else mapMat x (fun _ _ v => actFn act v))
    else x
  let y := if p.on sSoftmaxBwd then mapMat y (fun r c v =>
      toF32 (numMul (ofF32 (elemAt aux.1 r c)) (numAdd (ofF32 v) (numNeg (ofF32 (st r).a))))) else y
  let y2 := if p.gatedBwd then mapMat y (fun r c v => f32Mul v (actFn act (elemAt za.1 r c))) else []
  let y := if p.gatedBwd then
      mapMat y (fun r c v => f32Mul (f32Mul v (elemAt zb.1 r c)) (actDeriv act (elemAt za.1 r c)))
    else if deriv then mapMat y (fun r c v => f32Mul v (actDeriv act (elemAt za.1 r c)))
    else y
  let y := if p.on sResidual then mapMat y (fun r c v => f32Add v (elemAt res.1 r c)) else y
  let stepped := y.zipIdx.map (fun r => rowStep p (st r.2) (aux.1.getD r.2 []) gamma.1 beta.1 r.1)
  let z := stepped.map (·.2)
  let scaled (m : List (List W32)) : List (List W32) :=
    if p.kind ≤ 1 then mapMat m (fun _ _ v => f32Mul v p.scaleOut) else m
  { pre := x, preB := xB, post := z, out := scaled z, out2 := scaled y2, rows := stepped.map (·.1)
    poison := src.2 ++ srcB.2 ++ bias.2 ++ biasB.2 ++ (if p.on sSoftmaxBwd then rowReads else []) ++ za.2 ++ zb.2 ++
      res.2 ++ (if p.on sSoftmaxBwd then [] else rowReads) ++ gamma.2 ++ beta.2 }

/-- ACCUM: D becomes D × ALPHA + x, or x (R180). -/
def State.accumOut (s : State) (k : Nat) (p : DrainP) (v : Pipe) : List (List W32) × List Nat :=
  if !p.on sAccum || p.on sInit || !p.destEn then (v.out, [])
  else
    let d := readMat p.rows p.cols (s.tensorElem k p (p.rowMajor 0 p.dest))
    (mapMat v.out (fun r c x => f32Fma (elemAt d.1 r c) (v.rows.getD r ⟨0, 0, 0, 0⟩).alpha x), d.2)

/-- The writes of a drain that is not a ROW_EXPORT. -/
def State.drainWrites (s : State) (k : Nat) (p : DrainP) (v : Pipe) : State × DrainAcc :=
  let (out, more) := s.accumOut k p v
  let acc : DrainAcc := { poison := v.poison ++ more }
  let (s, acc) := if p.preUsed && p.kind == 0 then
      s.putTensor k p (p.preTensor 0) (p.preCtl.testBit 6) false v.pre acc else (s, acc)
  let (s, acc) := if p.preUsed && p.gatedFwd then
      s.putTensor k p (p.preTensor 1) (p.preCtl.testBit 6) false v.preB acc else (s, acc)
  let (s, acc) := if p.postUsed then s.putTensor k p p.postTensor (p.postCtl.testBit 6) false v.post acc else (s, acc)
  let (s, acc) := if p.destEn then s.putTensor k p (p.destTensor false) false true out acc else (s, acc)
  let (s, acc) := if p.gatedBwd && p.destEn then s.putTensor k p (p.destTensor true) false true v.out2 acc else (s, acc)
  let s := if p.writesRow then v.rows.zipIdx.foldl (fun st r => st.putRowState k p r.2 r.1) s else s
  (s, acc)

/-! ### Row export (R166, R185) -/

/-- One row's reduction: value, index and the poisoned words met. -/
def State.exportRow (s : State) (p : DrainP) (m : Nat) : W32 × Nat × List Nat :=
  if p.src = 2 then
    (let isMax := !(s.array p.die p.array).armedMin.toNat.testBit p.slot
     let pick (a slot : Nat) : (W32 × Nat) × List Nat :=
       let v := s.slotRd p.die a slot m 0
       let i := s.slotRd p.die a (slot + 1) m 0
       ((v.1, i.1.toNat % 65536), v.2 ++ i.2)
     let x := pick p.array p.slot
     if p.array2 = 0xFF then (x.1.1, x.1.2, x.2)
     else
       let y := pick p.array2 p.slot2
       let w := winner isMax x.1 [y.1]
       (w.1, w.2, x.2 ++ y.2))
  else
    let row := (List.range p.cols).map (fun c => s.slotRd p.die p.array p.slot m c)
    let xs := row.map (·.1)
    let bad := row.flatMap (·.2)
    if p.act = 0 then (rowSum xs, 0xFFFF, bad)
    else match xs.zipIdx.map (fun x => (x.1, (p.idxBase + x.2) % 65536)) with
      | [] => (0, 0xFFFF, bad)
      | t :: ts =>
        let w := winner (p.act == 1) t ts
        (w.1, w.2, bad)

def State.exportRows (s : State) (k : Nat) (p : DrainP) : State × DrainAcc :=
  let rows := (List.range p.rows).map (fun m => s.exportRow p m)
  let poison := rows.flatMap (fun r => r.2.2)
  if !p.destEn then (s, { poison := poison })
  else
    let s := s.write (s.drainKey k p p.dest) (rows.flatMap (fun r => toBytes 4 r.1.toNat))
    let s := s.write (s.drainKey k p p.dest2) (rows.flatMap (fun r => toBytes 2 r.2.1))
    let stash (addr n : Nat) : Nat := if addrSpace addr = 3 then n else 0
    (s, { elements := 2 * p.rows, poison := poison, nonfinite := (rows.filter (fun r => f32NonFinite r.1)).length,
          stash := stash p.dest (4 * p.rows) + stash p.dest2 (2 * p.rows) })

/-! ### Checks (R187) -/

/-- Bits of STEPS that a kind allows (R172). DESIGN CHOICE (log 71): NORM_LAYER and ROWSTATE_INIT, which are no steps of
R172's table, are allowed with the steps that they modify, NORM_LAYER in FORWARD only and ROWSTATE_INIT in no ROW_EXPORT.
-/
def stepsAllowed (kind : Nat) : List Nat :=
  if kind = 0 then [0, 1, 2, 3, 4, 5, 6, 7, 8, 9, 12]
  else if kind = 1 then [1, 3, 7, 9, 10, 11, 12]
  else if kind = 2 then [7, 12]
  else []

/-- Check 5 (R172, R178, R181). -/
def stepsOk (p : DrainP) : Bool :=
  (bitsSet p.steps 16).all (fun b => (stepsAllowed p.kind).contains b) &&
  decide (([3, 4, 6, 7, 8, 9, 10].filter (fun b => p.on b)).length ≤ 1) && !(p.on sBias && p.on sNormApply)

def dtlFmts : List Nat := [1, 2, 3, 4, 5, 6, 7]

/-- The reserved bits of OUT and of the used stash controls, in check 5 (R80, R186). -/
def drainBitChecks (p : DrainP) : List (Bool × Nat) :=
  [(p.out / 32 % 4 == 0, 0x0A), (!p.preUsed || !p.preCtl.testBit 5, 0x0B), (!p.postUsed || !p.postCtl.testBit 5, 0x0C)]

/-- Check 6. -/
def drainFmtChecks (p : DrainP) : List (Bool × Nat) :=
  let dest := if p.on sAccum || p.kind == 3 then p.destFmt == 0
    else if p.kind = 0 then fmtsForward.contains p.destFmt else p.destFmt == 1
  let layout := !p.destDtl || dtlFmts.contains p.destFmt
  let kindOk := p.kind != 1 && p.kind != 2 || !p.on sAccum || p.destFmt == 1
  [(p.src != 3 || decide (p.srcFmt ≤ 1), 0x03),
   ((!p.on sAccum || p.destFmt == 0) && (!p.destEn || (dest && layout && kindOk)), 0x0A),
   ((!p.preUsed || fmtsStash.contains (p.preCtl % 16)) && (!(p.kind == 1 && p.on sDeriv) || p.preCtl.testBit 7), 0x0B),
   (!p.postUsed || fmtsStash.contains (p.postCtl % 16), 0x0C),
   ((!(p.on sRowDot || p.on sSoftmaxBwd) || decide (p.auxFmt ≤ 4)) && (!p.on sResidual || decide (p.resFmt ≤ 2)), 0x0F)]

/-- Tensors in memory with the offset of their address and of their scale address in the parameter area. -/
def DrainP.tensors (p : DrainP) : List (Tensor × Nat × Nat) :=
  (if p.kind = 3 then []
   else
    (if p.destEn then [(p.destTensor false, 0x20, 0x28)] else []) ++
    (if p.gatedBwd && p.destEn then [(p.destTensor true, 0x30, 0x28)] else []) ++
    (if p.src = 3 then [(p.rowMajor p.srcFmt p.srcAddr, 0x48, 0x48)] else []) ++
    (if p.on sResidual then [(p.rowMajor p.resFmt p.res, 0x58, 0x58)] else []) ++
    (if p.on sRowDot || p.on sSoftmaxBwd then [(p.rowMajor p.auxFmt p.aux, 0x60, 0x60)] else [])) ++
  (if p.preUsed then [(p.preTensor 0, 0x38, 0x3C)] else []) ++
  (if p.preUsed && p.gated then [(p.preTensor 1, 0x38, 0x3C)] else []) ++
  (if p.postUsed then [(p.postTensor, 0x40, 0x44)] else [])

/-- Whether MB names an admitted micro-batch (check 9). -/
def State.drainMbOk (s : State) (k : Nat) (p : DrainP) : Bool := decide (p.mb < 64) && (s.mb k p.mb).admitted

/-- Check 7 for one range: where SPACE 0x3 is used with an invalid MB, check 9 speaks. -/
def State.drainRange (s : State) (k : Nat) (p : DrainP) (addr n : Nat) : Bool :=
  (addrSpace addr == 3 && !s.drainMbOk k p) || s.drainFits k p addr n

/-- Check 7. -/
def drainAddrChecks (s : State) (k : Nat) (p : DrainP) : List (Bool × Nat) :=
  (p.tensors.flatMap (fun t =>
    (s.drainRange k p t.1.addr (t.1.bytes p.rows p.cols) && (!t.1.dtl || t.1.addr % 256 == 0), t.2.1) ::
    (if fmtIsMx t.1.fmt then [(s.drainRange k p t.1.scale (t.1.scaleBytes p.rows p.cols), t.2.2)] else []))) ++
  (if p.kind = 3 && p.destEn then
    [(s.drainRange k p p.dest (4 * p.rows), 0x20), (s.drainRange k p p.dest2 (2 * p.rows), 0x30)] else []) ++
  (if p.src = 1 then
    [(addrSpace p.srcAddr == 0 && p.srcAddr % 256 == 0 && s.drainRange k p p.srcAddr 32768, 0x48)] else []) ++
  (if p.on sBias || p.on sNormApply then
    [(s.drainRange k p p.bias (if p.gatedFwd && p.on sBias || p.on sNormApply && p.on sNormLayer then 256 + 4 * p.cols
      else 4 * p.cols), 0x50)] else []) ++
  (if p.touchesRow then
    [(decide (addrSpace p.rowState ≤ 1) && p.rowState % 256 == 0 && s.drainRange k p p.rowState 1024, 0x68)] else []) ++
  (if p.tensors.any (fun t => t.1.dtl) then
    [(p.dtlK % 64 == 0 && (p.tensors.all (fun t => !t.1.dtl || decide (p.dtlK < 64 * granuleOf t.1.fmt))), 0x76)] else [])

/-- The checks of R187, in order. -/
def drainFail (s : State) (c : Cmd) : Option Nat :=
  let k := ctxOfRing c.ring
  let p := drainP c
  let pair := p.src == 2
  let second := pair && p.array2 != 0xFF
  let rowMajor := p.tensors.any (fun t => !t.1.dtl)
  firstGroup [
    [(s.dieBound k p.die, 0x00)],
    [(decide (p.array < 32), 0x01), (decide (p.slot < (if pair then 63 else 64)), 0x02),
     ((p.kind == 3) == pair || (p.kind == 3 && p.src == 0), 0x03),
     (decide (p.array2 < 32) || (p.array2 == 0xFF && !p.gatedFwd), 0x0D),
     ((!p.gatedFwd || decide (p.slot2 < 64)) && (!second || decide (p.slot2 < 63)), 0x0E)],
    [(decide (1 ≤ p.rows) && decide (p.rows ≤ 64), 0x04), (p.cols == 32 || p.cols == 64, 0x05)],
    [(if p.kind = 0 || (p.kind = 1 && p.on sDeriv) then actKnown p.act
      else p.kind != 3 || pair || decide (p.act ≤ 2), 0x06)],
    (stepsOk p, 0x08) :: (!p.on sNormApply || decide (1 ≤ p.normCount), 0x1C) :: drainBitChecks p,
    drainFmtChecks p,
    drainAddrChecks s k p,
    [(!rowMajor || (p.stride % 32 == 0 && decide (p.cols ≤ p.stride) &&
      (!(p.preUsed && p.gated && !p.preCtl.testBit 4) || decide (64 + p.cols ≤ 2 * p.stride))), 0x70)],
    [(!p.usesStash || s.drainMbOk k p || (s.mb k p.mb).gone, 0x07)]]

/-! ### Order among commands (R155, R170, R177, R199) -/

/-- What keeps a DRAIN waiting: an earlier command of its unit, slot, entry, row state or ACCUM destination. -/
def State.drainBlocked (s : State) (c : Cmd) : Bool :=
  let p := drainP c
  let k := ctxOfRing c.ring
  let earlier := s.allCmds.filter (fun d => d.start.isSome && decide (d.startOrder < c.startOrder))
  earlier.any (fun d =>
    if d.opcode = 0x14 then
      (let q := drainP d
       let kq := ctxOfRing d.ring
       (q.die == p.die && q.array / 2 == p.array / 2) ||
        (q.touchesRow && p.touchesRow && s.drainKey kq q q.rowState == s.drainKey k p p.rowState) ||
        (q.accums && p.accums && s.drainKey kq q q.dest == s.drainKey k p p.dest))
    else if isArrayCmd d || d.opcode = 0x15 then
      d.slots.any (fun x => c.slots.any (fun y => slotsMeet x y)) ||
        d.entries.any (fun x => c.entries.any (fun y => entriesMeet x y))
    else false)

/-- Whether a slot that a DRAIN reads is PARTIAL (R168). -/
def State.readsPartial (s : State) (c : Cmd) : Bool :=
  c.slots.any (fun x => (List.range x.2.2.2).any (fun i => (s.array x.1 x.2.1).part.toNat.testBit (x.2.2.1 + i)))

/-- The pairs of a PAIR source: armed, and for the same operation (R185). -/
def State.pairFail (s : State) (p : DrainP) : Option Nat :=
  if p.src ≠ 2 then none
  else
    let x := s.array p.die p.array
    let y := s.array p.die p.array2
    if !x.armed.toNat.testBit p.slot then some 0x02
    else if p.array2 = 0xFF then none
    else if !y.armed.toNat.testBit p.slot2 || x.armedMin.toNat.testBit p.slot != y.armedMin.toNat.testBit p.slot2 then
      some 0x0E
    else none

/-- Counts, poison report and completion (R173, R188, R106). -/
def State.endDrain (s : State) (c : Cmd) (p : DrainP) (acc : DrainAcc) : State :=
  let bad := acc.poison.eraseDups
  let first := bad.head?.getD 0
  let s := s.modDie p.die (fun d => { d with
    drainRows := d.drainRows + p.rows, drainSaturations := d.drainSaturations + acc.sats })
  let s := (s.countDrainNonfinite p.die acc.nonfinite).countDrainPoison p.die bad.length
  let s := if (p.kind == 1 || p.kind == 2) && acc.gradNonfinite then s.noteNonfinite (srcRing c.ring) else s
  let s := if bad.isEmpty then s else s.poisonConsumed c first
  s.complete c (if bad.isEmpty then .ok else .faulted) 0
    (bodyOf [(0, 4, acc.elements), (4, 4, acc.sats), (8, 4, acc.nonfinite), (12, 4, bad.length), (16, 8, first),
      (24, 4, acc.stash)])

/-- Memory that a DRAIN reads or writes: keys and sizes (R21, R171). -/
def State.drainRanges (s : State) (k : Nat) (p : DrainP) : List (Nat × Nat) :=
  (p.tensors.flatMap (fun t =>
    (s.drainKey k p t.1.addr, t.1.bytes p.rows p.cols) ::
    (if fmtIsMx t.1.fmt then [(s.drainKey k p t.1.scale, t.1.scaleBytes p.rows p.cols)] else []))) ++
  (if p.kind = 3 && p.destEn then [(s.drainKey k p p.dest, 4 * p.rows), (s.drainKey k p p.dest2, 2 * p.rows)] else []) ++
  (if p.on sBias || p.on sNormApply then [(s.drainKey k p p.bias, 512)] else []) ++
  (if p.src = 1 then [(s.drainKey k p p.srcAddr, 32768)] else []) ++
  (if p.touchesRow then [(s.drainKey k p p.rowState, 1024)] else [])

/-- The DRAIN runs once its order allows (R155, R170, R177, R199) and its accesses go on (R24, R222, R301, R375, R391). A
die that is out of service once its repair is over gives FAULTED (R205). -/
def State.runDrain (s : State) (c : Cmd) : State :=
  let k := ctxOfRing c.ring
  let p := drainP c
  if s.drainBlocked c || s.dieWaits p.die || c.slots.any (fun x => s.arrayHeld x.1 x.2.1) ||
      s.anyStops (p.die / 2) (s.drainRanges k p) then s.setWait c.ref .drainOrder none
  else if (s.die p.die).outOfService then s.complete c .faulted 0 []
  else if s.readsPartial c then s.complete c .aborted 0 []
  else match s.pairFail p with
    | some o => s.badParam c o
    | none =>
      let (s, acc) := if p.kind = 3 then s.exportRows k p else s.drainWrites k p (s.pipe k p)
      s.endDrain c p acc

/-- DRAIN (R172, R187): it starts, or runs where it waited for earlier commands. -/
def execDrain (dt : Nat) (ring : Fin 17) (seq : W16) (s : State) : Result :=
  (s.advance dt).startOrGo ring seq 0x14
    (fun c s => match drainFail s c with
      | some o => s.badParam c o
      | none =>
        let p := drainP c
        if p.usesStash && (s.mb (ctxOfRing ring) p.mb).gone then s.complete c .aborted 0 []
        else if s.dieRefuses p.die then s.complete c .faulted 0 []
        else s.runDrain c)
    (fun c s => s.runDrain c)

end Sys2Proof.Machine
end

