-- ==== Sys2Proof/Machine/Update.lean ====
section
/-! DEFINITION. The update engine: PREFETCH_STATE, UPDATE_LAYER, and the instructions of update programs (13, R267 to
R282). One instruction row executes the engine's instruction on one element, or on one block of 32 (R278). -/

namespace Sys2Proof.Machine

/-! ### The working copy of a part (R273, R282) -/

/-- Where a part lies in the working copy: layout, Kf, tile strides, elements (R273, R294). -/
structure WorkMap where
  dtl : Bool
  kf : Nat
  tileK : Nat
  tileN : Nat
  first : Nat
  count : Nat
  deriving DecidableEq, Repr

/-- Offset of the DTL tile of element e (R273). -/
def WorkMap.tileOff (w : WorkMap) (fmt e : Nat) : Nat :=
  e % w.kf / (64 * granuleOf fmt) * w.tileK + e / w.kf / 64 * w.tileN

/-- Position of an element's k within its tile. -/
def WorkMap.inTile (w : WorkMap) (fmt e : Nat) : Nat := e % w.kf % (64 * granuleOf fmt)

/-- Bit offset of element e in the working copy. -/
def WorkMap.bitOff (w : WorkMap) (fmt e : Nat) : Nat :=
  if w.dtl then
    (let kk := w.inTile fmt e
     8 * w.tileOff fmt e + dtlBit fmt (kk / granuleOf fmt) (e / w.kf % 64) (kk % granuleOf fmt))
  else e * fmtBits fmt

/-- Byte offset of the scale of element e in the scale plane (R139, R151). -/
def WorkMap.scaleOff (w : WorkMap) (fmt e : Nat) : Nat :=
  if w.dtl then
    w.tileOff fmt e * tileScaleBytes fmt / tileBytes fmt + 2 * granuleOf fmt * (e / w.kf % 64) + w.inTile fmt e / 32
  else e / 32

/-- The elements whose tiles lie farthest: the last one, and the last of the row before it. -/
def WorkMap.corners (w : WorkMap) : List Nat :=
  let last := w.first + w.count - 1
  if w.first / w.kf < last / w.kf then [last, last / w.kf * w.kf - 1] else [last]

/-- The tile strides that some element's tile uses: along K, along N. -/
def WorkMap.usesStride (w : WorkMap) (fmt : Nat) : Bool × Bool :=
  (w.corners.any (fun e => decide (1 ≤ e % w.kf / (64 * granuleOf fmt))), w.corners.any (fun e => decide (1 ≤ e / w.kf / 64)))

/-- A DTL working copy stays inside the layer's version slot (R274). -/
def WorkMap.tilesFit (w : WorkMap) (l : Layer) : Bool :=
  w.corners.all (fun e =>
    let off := w.tileOff l.workFmt e
    decide (off + tileBytes l.workFmt ≤ l.workBytes) &&
      (!fmtIsMx l.workFmt ||
        decide (off * tileScaleBytes l.workFmt / tileBytes l.workFmt + tileScaleBytes l.workFmt ≤ l.scaleBytes)))

/-- A linear working copy stays inside the layer's version slot (R274). -/
def WorkMap.linearFits (w : WorkMap) (l : Layer) : Bool :=
  decide ((w.first + w.count) * fmtBits l.workFmt ≤ 8 * l.workBytes) &&
    (!fmtIsMx l.workFmt || decide ((w.first + w.count) / 32 ≤ l.scaleBytes))

/-- Alignment of the tile strides: tiles start at multiples of 256 (R137), scale tiles at theirs (R151; DEDUCED, log
29). -/
def strideOk (fmt x : Nat) : Bool := x % 256 == 0 && (!fmtIsMx fmt || x * tileScaleBytes fmt % tileBytes fmt == 0)

/-- What a conversion to the working copy did: saturations and non-finite values. -/
abbrev Counted := Nat × Nat

/-- Elements written to the working copy, converted one by one, or as MX blocks of 32 (R282). -/
def State.putWork (s : State) (l : Layer) (slot : Nat) (w : WorkMap) (e0 : Nat) (vals : List W32)
    (rnd : List (Option Nat)) : State × Counted :=
  let fmt := l.workFmt
  let place (codes : List Nat) : List (Nat × Nat × Nat) :=
    codes.zipIdx.map (fun c => (w.bitOff fmt (e0 + c.2), fmtBits fmt, c.1))
  if fmtIsMx fmt then
    let (scale, codes, sats) := encodeMx fmt rnd (vals.map ofF32)
    let s := s.writeElems (l.workOf slot) (place codes)
    (s.write (l.scaleOf slot + w.scaleOff fmt e0) (toBytes 1 scale), sats, blockNonFinite fmt scale codes)
  else
    let rs := (vals.zip rnd).map (fun v => encodeElem fmt v.2 (ofF32 v.1))
    (s.writeElems (l.workOf slot) (place (rs.map (·.1))), (rs.filter (·.2)).length,
      (rs.filter (fun r => codeNonFinite fmt r.1)).length)

/-! ### Parameters (R273) -/

structure UpdP where
  die : Nat
  layer : Nat
  part : Nat
  parts : Nat
  prog : Nat
  landElem : Nat
  landBlk : Nat
  state0 : Nat
  state1 : Nat
  map : WorkMap
  deriving DecidableEq, Repr

def updP (c : Cmd) : UpdP :=
  { die := c.param 0x00 1
    layer := c.param 0x02 2
    part := c.param 0x04 2
    parts := c.param 0x06 2
    prog := c.param 0x10 8
    landElem := c.param 0x18 4
    landBlk := c.param 0x1C 4
    state0 := c.param 0x20 8
    state1 := c.param 0x28 8
    map := { dtl := (c.param 0x01 1).testBit 0, kf := c.param 0x30 4, tileK := c.param 0x34 4, tileN := c.param 0x38 4,
             first := c.param 0x08 4, count := c.param 0x0C 4 } }

/-- Committed and provisional state slots under STATE_SEL (R268). -/
def UpdP.committed (p : UpdP) (sel : Bool) : Nat := if sel then p.state1 else p.state0
def UpdP.provisional (p : UpdP) (sel : Bool) : Nat := if sel then p.state0 else p.state1

/-- Key of a byte of a die's landing buffer (R267). -/
def landKey (die off : Nat) : Nat := dieKey 6 die off

/-! ### Update programs (R278 to R281) -/

/-- Fields of an instruction word (R280). -/
def iOp (w : W32) : Nat := bits w.toNat 26 6
def iD (w : W32) : Nat := bits w.toNat 21 5
def iA (w : W32) : Nat := bits w.toNat 16 5
def iB (w : W32) : Nat := bits w.toNat 11 5
def iC (w : W32) : Nat := bits w.toNat 6 5
def iX (w : W32) : Nat := bits w.toNat 0 6

/-- Fields that an operation uses: D, A, B, C, X (R280). -/
def usesOf (op x : Nat) : Bool × Bool × Bool × Bool × Bool :=
  if op = 0x01 || op = 0x0A then (true, true, true, true, false)
  else if op = 0x02 || op = 0x03 || op = 0x04 || op = 0x08 || op = 0x09 then (true, true, true, false, false)
  else if op = 0x05 || op = 0x06 || op = 0x07 then (true, true, false, false, false)
  else if op = 0x0B then (true, true, true, true, true)
  else if op = 0x0C then (x == 4, true, true, false, true)
  else if op = 0x0D || op = 0x0E then (false, true, false, false, true)
  else (false, false, false, false, false)

/-- Largest X of an operation. -/
def xMax (op nstate : Nat) (block : Bool) : Nat :=
  if op = 0x0B then 5 else if op = 0x0C then (if block then 4 else 3) else if op = 0x0D then nstate - 1
  else if op = 0x0E then 1 else 0

/-- One word obeys R280 by itself. -/
def wordOk (w : W32) (nstate : Nat) (block : Bool) : Bool :=
  let (d, a, b, c, x) := usesOf (iOp w) (iX w)
  decide (iOp w ≤ 0x0F) && (if d then decide (iD w < 16) else iD w == 0) && (a || iA w == 0) && (b || iB w == 0) &&
    (c || iC w == 0) && (x || iX w == 0) && decide (iX w ≤ xMax (iOp w) nstate block)

/-- Word i of a program obeys R281. -/
def progWordOk (prog : List W32) (nstate : Nat) (block : Bool) (i : Nat) : Bool :=
  let w := prog.getD i 0
  let op := iOp w
  let before := prog.take i
  let later := prog.drop (i + 1)
  wordOk w nstate block && (op == 0) == (i + 1 == prog.length) &&
    !(op == 0x0F && before.any (fun v => iOp v == 0x0F)) &&
    !((op == 0x0D || op == 0x0E) && later.any (fun v => iOp v == 0x0F)) &&
    !(op == 0x0D && before.any (fun v => iOp v == 0x0D && iX v == iX w)) &&
    !(op == 0x0E && before.any (fun v => iOp v == 0x0E))

/-- Every state word and the working copy are stored. -/
def progStores (prog : List W32) (nstate : Nat) : Bool :=
  (List.range nstate).all (fun x => prog.any (fun w => iOp w == 0x0D && iX w == x)) && prog.any (fun w => iOp w == 0x0E)

/-- The first instruction that breaks R281; a missing store is found at END. -/
def progFail (prog : List W32) (nstate : Nat) (block : Bool) : Option Nat :=
  ((List.range prog.length).find? (fun i => !progWordOk prog nstate block i)).or
    (if progStores prog nstate then none else some (prog.length - 1))

/-- A program image: header and words (R278). -/
structure ProgImage where
  ninstr : Nat
  mode : Nat
  nstate : Nat
  headerOk : Bool
  consts : List W32
  words : List W32
  deriving DecidableEq, Repr

/-- NaN enters and leaves units as the canonical NaN (R89). -/
def canon (x : W32) : W32 := if ofF32 x = .nan then 0x7FC00000#32 else x

def State.progImage (s : State) (key : Nat) : ProgImage :=
  let h := s.read key 64
  let n := fieldAt h 0 1
  { ninstr := n
    mode := fieldAt h 1 1
    nstate := fieldAt h 2 1
    headerOk := decide (1 ≤ n) && decide (n ≤ 64) && decide (fieldAt h 1 1 ≤ 1) && decide (1 ≤ fieldAt h 2 1) &&
      decide (fieldAt h 2 1 ≤ 8) && fieldAt h 3 1 == 0 && fieldAt h 36 28 == 0
    consts := (List.range 8).map (fun i => canon (BitVec.ofNat 32 (fieldAt h (4 + 4 * i) 4)))
    words := (List.range (min n 64)).map (fun i => BitVec.ofNat 32 (s.readNat (key + 64 + 4 * i) 4)) }

/-- BODY byte 3 of a program that breaks R278 or R281. -/
def ProgImage.fail (p : ProgImage) : Option Nat :=
  if !p.headerOk then some 0xFF else progFail p.words p.nstate (p.mode == 1)

/-! ### UPDATE_LAYER: checks and waits (R270 to R274) -/

/-- Address of a state slot (R273, R277). -/
def State.stateKey (s : State) (addr n : Nat) : Option Nat :=
  if addr % 256 = 0 then s.resolve [2, 4] none addr n else none

/-- The checks of R274, in the order of the table of R273; the program image's own check stands at 0x10. -/
def updChecks (s : State) (c : Cmd) : List (Bool × Nat) :=
  let p := updP c
  let l := s.layer p.layer
  let m := p.map
  let key := s.resolve [0, 1] (some p.die) p.prog 64
  let img := s.progImage (key.getD 0)
  let whole := (s.resolve [0, 1] (some p.die) p.prog (64 + 4 * img.ninstr)).isSome
  let n := 4 * img.nstate * m.count
  [(s.dieBound (ctxOfRing c.ring) p.die, 0x00), (decide (c.param 0x01 1 < 2), 0x01),
   (decide (p.layer < 4096) && l.defined, 0x02), (decide (p.part < p.parts), 0x04),
   (decide (1 ≤ p.parts) && decide (p.parts ≤ 256), 0x06), (m.first % 32 == 0, 0x08),
   (m.count % 32 == 0 && decide (32 ≤ m.count) && (m.dtl || m.linearFits l), 0x0C),
   (p.prog % 64 == 0 && key.isSome && (!img.headerOk || whole) && img.fail.isNone, 0x10),
   (decide (p.landElem + m.count ≤ landBytes), 0x18), (decide (p.landBlk + m.count / 16 ≤ landBytes), 0x1C),
   ((s.stateKey p.state0 n).isSome, 0x20), ((s.stateKey p.state1 n).isSome, 0x28)] ++
  (if m.dtl then
    [(decide (1 ≤ m.kf) && (!fmtIsMx l.workFmt || m.kf % 32 == 0), 0x30),
     ((strideOk l.workFmt m.tileK || !(m.usesStride l.workFmt).1) && m.tilesFit l, 0x34),
     (strideOk l.workFmt m.tileN || !(m.usesStride l.workFmt).2, 0x38)]
   else []) ++
  reservedFail c 128 [(0, 0x50)]

/-- A part failed after its layer's version had begun (R272). -/
def State.failLayer (s : State) (layer : Nat) : State :=
  (s.modLayer layer (fun l => { l with failed := true })).requestAbort

/-- A part that has not run ends without OK: the layer fails where its version of the open step has begun (R272). -/
def State.failWaiting (s : State) (c : Cmd) : State :=
  let layer := (updP c).layer
  if s.ofOpenStep c && ((s.layer layer).stateIdx .writing).isSome then s.failLayer layer else s

/-- BODY of a part that never ran: the ticks spent waiting (R274). -/
def State.waitBody (s : State) (c : Cmd) : List Byte := bodyOf [(20, 4, min (2 ^ 32 - 1) (s.updWaited c))]

/-- A poisoned unit in a program image. -/
def State.progPoison (s : State) (p : UpdP) : Option Nat :=
  match s.resolve [0, 1] (some p.die) p.prog 64 with
  | none => none
  | some key => s.firstPoison key (64 + 4 * (s.progImage key).ninstr)

/-- The state slots and the version slot of a part lie on no die that is out of service (R205). -/
def State.partServed (s : State) (p : UpdP) : Bool :=
  let l := s.layer p.layer
  s.keyServed p.state0 && s.keyServed p.state1 && s.keyServed l.workAddr.toNat &&
    (!fmtIsMx l.workFmt || s.keyServed l.scaleAddr.toNat)

/-- UPDATE_LAYER: checked, then it waits for its run (R205, R271, R274, R390, R391). -/
def execUpdateLayer (dt : Nat) (ring : Fin 17) (s : State) : Result :=
  let before := s.advance dt
  let s := before
  match s.take ring 0x40 with
  | none => s.idle
  | some (c, s) =>
    let p := updP c
    match firstFail (updChecks s c) with
    | some o =>
      let key := s.resolve [0, 1] (some p.die) p.prog 64
      let idx := if o = 0x10 && key.isSome && p.prog % 64 == 0 then ((s.progImage (key.getD 0)).fail).getD 0 else 0
      .next ((s.failWaiting c).complete c .badParam (64 + o) (bodyOf [(3, 1, idx)]))
    | none =>
      if s.dieRefuses p.die || !s.partServed p then .next ((s.failWaiting c).complete c .faulted 0 [])
      else if s.dieWaits p.die then before.idle
      else match s.progPoison p with
        | some u => .next (((s.failWaiting c).poisonConsumed c u).complete c .faulted 0 (bodyOf [(12, 4, 1), (40, 8, u)]))
        | none =>
          let t := c.param 0x3C 4
          .next ((s.setWait c.ref .update (if t = 0 then none else some (s.tide + 1000 * t))).modCmd c.ref (fun d =>
            { d with aux := [0, s.tide, b2n (updateCause s c).isSome, 0] }))

/-! ### The engine -/

def State.setEngine (s : State) (die : Nat) (e : Option Engine) : State := s.modDie die (fun d => { d with engine := e })

/-- Elements handled by one instruction: one, or the 32 lanes of a block. -/
def Engine.lanes (e : Engine) : Nat := if e.block then 32 else 1

/-- Index of NEXTPASS. -/
def Engine.nextpassAt (e : Engine) : Option Nat := (e.prog.zipIdx.find? (fun w => iOp w.1 == 0x0F)).map (·.2)

/-- The pass that stores: the second one, or the only one. -/
def Engine.lastPass (e : Engine) : Bool := e.pass2 || e.nextpassAt.isNone

/-- First instruction of the present pass. -/
def Engine.passStart (e : Engine) : Nat := if e.pass2 then e.nextpassAt.getD 0 + 1 else 0

/-- Operand of a lane (R279, R284). -/
def Engine.operand (e : Engine) (code lane : Nat) : W32 :=
  if code < 0x10 then (tabGet [] e.regs code).getD lane 0
  else if code < 0x1C then e.consts.getD (code - 0x10) 0
  else if code = 0x1C then e.s12
  else if code = 0x1D then e.s13
  else if code = 0x1E then toF32 (.fin false 1 (-e.scale))
  else 0

/-- The poisoned words that a read meets. -/
def State.poisonMet (s : State) (a n : Nat) : List (Nat × Bool) :=
  ((unitsOf a n).filter (fun u => s.unitPoisoned u)).map (fun u => (u, false))

/-- Gradient element i of the part: value, poisoned words met, and whether it opens a block flagged as non-finite. A
block whose poison flag is set is one poisoned word, at its descriptor, whatever the ECC state of its bytes (R269,
R275). -/
def State.gradient (s : State) (p : UpdP) (i : Nat) : W32 × List (Nat × Bool) × Bool :=
  let elem := landKey p.die p.landElem
  let blk := landKey p.die p.landBlk
  let b := i / 32
  let desc := s.read (blk + 2 * b) 2
  let marked := (fieldAt desc 1 1).testBit 1
  let met := if marked then [(blk + 2 * b, true)] else s.poisonMet (blk + 2 * b) 2 ++ s.poisonMet (elem + i) 1
  (if met.isEmpty then toF32 (decodeWire (fieldAt desc 0 1) (s.readNat (elem + i) 1)).1 else 0x7FC00000#32, met,
    i % 32 == 0 && (fieldAt desc 1 1).testBit 0)

/-- State word w of element i, from the committed slot or its staged copy (R268, R275, R277). -/
def State.stateWord (s : State) (base count w i : Nat) : W32 × List (Nat × Bool) :=
  let key := base + 4 * (w * count + i)
  let met := s.poisonMet key 4
  (if met.isEmpty then canon (BitVec.ofNat 32 (s.readNat key 4)) else 0x7FC00000#32, met)

/-- Registers at the start of an element or block in a pass (R279); each poisoned word is counted when it is first met
(R274, R275). -/
def State.loadElem (s : State) (e : Engine) (p : UpdP) : Engine :=
  let base := e.staged.getD (p.committed (s.layer e.layer).stateSel)
  let idx := (List.range e.lanes).map (fun i => e.elem + i)
  let gs := idx.map (fun i => s.gradient p i)
  let ws := (List.range e.nstate).map (fun w => idx.map (fun i => s.stateWord base p.map.count w i))
  let met := ((gs.flatMap (·.2.1) ++ ws.flatMap (fun l => l.flatMap (·.2))).eraseDups).filter (fun u => !e.seen.contains u)
  { e with
    regs := (0, gs.map (·.1)) :: ws.zipIdx.map (fun x => (x.2 + 1, x.1.map (·.1)))
    pc := e.passStart
    poisons := e.poisons + met.length
    seen := e.seen ++ met
    poisonAddr := if e.poisons = 0 then (met.headD (0, false)).1 else e.poisonAddr
    flagged := e.flagged + (if e.pass2 then 0 else (gs.filter (·.2.2)).length) }

/-- The staging entry that the part uses (R277). DESIGN CHOICE (log 72): of several that match, the newest. -/
def stagedFor (d : Die) (p : UpdP) : Option StageEntry :=
  let ok := d.staging.filter (fun x => x.layer == p.layer && x.elemFirst == p.map.first && x.elemCount == p.map.count)
  match ok with
  | [] => none
  | x :: xs => some (xs.foldl (fun a b => if a.order < b.order then b else a) x)

/-- The provisional version begins with its first part (R225, R270). -/
def State.beginVersion (s : State) (p : UpdP) : State :=
  let l := s.layer p.layer
  match l.stateIdx .writing, l.stateIdx .free with
  | none, some i =>
    s.modLayer p.layer (fun l => { l with
      newest := l.newest + 1
      partsTotal := some p.parts
      slots := tabSet l.slots i { serial := l.newest + 1, state := .writing, epoch := s.commit.layoutEpoch } })
  | _, _ => s

/-- The part runs (R270, R271, R284). -/
def State.startPart (s : State) (c : Cmd) : State :=
  let p := updP c
  let s := s.beginVersion p
  let img := s.progImage ((s.resolve [0, 1] (some p.die) p.prog 64).getD 0)
  let s := s.modLayer p.layer (fun l => { l with
    parts := l.parts ++ [{ part := p.part, die := p.die, elemFirst := p.map.first, elemCount := p.map.count,
                           nstate := img.nstate, state0 := p.state0, state1 := p.state1 }] })
  let l := s.layer p.layer
  let slot := (l.stateIdx .writing).getD 0
  let st := stagedFor (s.die p.die) p
  let s := s.modDie p.die (fun d => match st with
    | none => d
    | some x => { d with staging := d.staging.filter (fun y => y.index != x.index) })
  let e : Engine :=
    { cmd := c.ref, prog := img.words, block := img.mode == 1, nstate := img.nstate,
      consts := img.consts ++ (List.range 4).map (fun i => canon (BitVec.ofNat 32 (c.param (0x40 + 4 * i) 4))),
      layer := p.layer, part := p.part, slotIndex := slot, serial := (l.slot slot).serial, scale := s.step.exp,
      staged := st.map (·.landAddr), waited := s.updWaited c }
  ((s.setWork c.ref .running).setEngine p.die (some (s.loadElem e p))).tickUpdates

/-- The state slots and the version slot of a part, as its die's engine reaches them. -/
def State.partRanges (s : State) (p : UpdP) (nstate : Nat) : List (Nat × Nat) :=
  let l := s.layer p.layer
  let n := 4 * nstate * p.map.count
  [(p.state0, n), (p.state1, n), (l.workAddr.toNat, 7 * l.workStride + l.workBytes)] ++
    (if fmtIsMx l.workFmt then [(l.scaleAddr.toNat, 7 * l.scaleStride + l.scaleBytes)] else [])

/-- An access of the part is held for now, or its route is cut (R24, R205, R222, R301, R379). -/
def State.partHeld (s : State) (p : UpdP) (nstate : Nat) : Bool := s.anyStops (p.die / 2) (s.partRanges p nstate)

/-- UPDATE_PART_RUN (R205, R270, R271): the waits have ended, in time, and the engine is free. -/
def execUpdatePartRun (dt : Nat) (ring : Fin 17) (seq : W16) (s : State) : Result :=
  let s := s.advance dt
  match s.findWait ring seq .update with
  | none => s.idle
  | some c =>
    let p := updP c
    if (updateCause s c).isSome || s.updLate c || (s.die p.die).engine.isSome then s.idle
    else if s.partHeld p (s.progImage ((s.resolve [0, 1] (some p.die) p.prog 64).getD 0)).nstate then s.idle
    else
      let total := (s.layer p.layer).partsTotal
      if total.isSome && total != some p.parts then
        .next ((s.failWaiting c).complete c .badParam (64 + 6) (s.waitBody c))
      else if !s.partServed p then .next ((s.failWaiting c).complete c .faulted 0 (s.waitBody c))
      else .next (s.startPart c)

/-- UPDATE_TIMEOUT (R271): for a part that a condition of R271 still holds, or held past the TIMEOUT. -/
def execUpdateTimeout (dt : Nat) (ring : Fin 17) (seq : W16) (s : State) : Result :=
  let s := s.advance dt
  match s.findWait ring seq .update with
  | none => s.idle
  | some c =>
    if s.updLate c || (s.due c.deadline && (updateCause s c).isSome) then
      .next ((s.failWaiting c).complete c .timeout 0 (s.waitBody c))
    else s.idle

/-- BODY of a part that ran (R274). -/
def Engine.body (e : Engine) (became : Bool) : List Byte :=
  bodyOf [(0, 2, e.serial.toNat), (2, 1, b2n became + 2 * b2n e.staged.isSome), (4, 4, min (2 ^ 32 - 1) e.nonfinite),
    (8, 4, min (2 ^ 32 - 1) e.saturations), (12, 4, min (2 ^ 32 - 1) e.poisons), (16, 4, e.flagged),
    (20, 4, min (2 ^ 32 - 1) e.waited), (24, 4, (e.norms.getD 0 0).toNat), (28, 4, (e.norms.getD 1 0).toNat),
    (32, 4, (e.norms.getD 2 0).toNat), (36, 4, (e.norms.getD 3 0).toNat), (40, 8, e.poisonAddr)]

/-- A running part ends without OK: its layer fails (R272). -/
def State.failEngine (s : State) (die : Nat) (st : Status) : State :=
  match (s.die die).engine with
  | none => s
  | some e => ((s.setEngine die none).failLayer e.layer).finish e.cmd st 0 (e.body false)

/-- Bits of a unit that a part's elements cover. -/
def coveredBits (u size count : Nat) (startBit : Nat → Nat) (width : Nat) : Nat :=
  sumNat ((List.range count).map (fun i =>
    min (8 * (u + size)) (startBit i + width) - max (8 * u) (startBit i)))

/-- Poisoned units that the part has written whole are clean once it ends (R218). -/
def State.cleanPart (s : State) (p : UpdP) (e : Engine) : State :=
  let l := s.layer e.layer
  let m := p.map
  let prov := p.provisional l.stateSel
  let work := l.workOf e.slotIndex
  { s with poison := s.poison.filter (fun u =>
      let z := poisonUnit u
      !(decide (prov ≤ u) && decide (u + z ≤ prov + 4 * e.nstate * m.count) ||
        decide (work ≤ u) && decide (u + z ≤ work + l.workBytes) &&
          coveredBits u z m.count (fun i => 8 * work + m.bitOff l.workFmt (m.first + i)) (fmtBits l.workFmt) == 8 * z)) }

/-- The part's last element is done: counts, poison, and the version where it was the last part (R226, R270, R275). -/
def State.endPart (s : State) (c : Cmd) (p : UpdP) (e : Engine) : State :=
  let s := (s.setEngine p.die none).cleanPart p e
  if e.poisons = 0 then
    let s := s.modLayer e.layer (fun l => { l with
      partsDone := l.partsDone + 1
      parts := l.parts.map (fun x => if x.part = e.part then { x with ok := true } else x) })
    let l := s.layer e.layer
    if l.partsTotal = some l.partsDone then
      let s := s.modLayer e.layer (fun l => { l with prov := true })
      let s := s.modVSlot e.layer e.slotIndex (fun x => { x with state := .provisional })
      s.serveShards.tickUpdates.finish e.cmd .ok 0 (e.body true)
    else s.finish e.cmd .ok 0 (e.body false)
  else ((s.poisonConsumed c e.poisonAddr).failLayer e.layer).finish e.cmd .faulted 0 (e.body false)

/-- The engine of a die executes its instruction, if that has the operation and no access of its part is held. -/
def State.engineStep (s : State) (die op : Nat) (f : Engine → Cmd → W32 → State) : Result :=
  match (s.die die).engine with
  | none => s.idle
  | some e =>
    match s.findCmd e.cmd with
    | none => s.idle
    | some c =>
      let w := e.prog.getD e.pc 0
      if iOp w = op && !s.partHeld (updP c) e.nstate then .next (f e c w) else s.idle

/-- An arithmetic instruction: every lane's result goes to register D (R280). -/
def State.alu (s : State) (die op : Nat) (f : W32 → W32 → W32 → W32 → Nat → W32) : Result :=
  s.engineStep die op (fun e _ w =>
    let vals := (List.range e.lanes).map (fun i =>
      f (e.operand (iA w) i) (e.operand (iB w) i) (e.operand (iC w) i) (e.operand (iD w) i) (iX w))
    s.setEngine die (some { e with regs := tabSet e.regs (iD w) vals, pc := e.pc + 1 }))

/-- IEEE 754 minimum and maximum: NaN propagates, and -0 is less than +0 (R280, R281). -/
def f32Less (a b : W32) : Bool :=
  numLt (ofF32 a) (ofF32 b) || (numIsZero (ofF32 a) && numIsZero (ofF32 b) && a.msb && !b.msb)

def f32Min (a b : W32) : W32 :=
  if ofF32 a = .nan || ofF32 b = .nan then 0x7FC00000#32 else if f32Less b a then b else a

def f32Max (a b : W32) : W32 :=
  if ofF32 a = .nan || ofF32 b = .nan then 0x7FC00000#32 else if f32Less a b then b else a

/-- The comparisons of SEL (R280); NaN makes every one false except NE. -/
def f32Cmp (x : Nat) (a b : W32) : Bool :=
  let p := ofF32 a
  let q := ofF32 b
  let nan := p = .nan || q = .nan
  let lt := numLt p q
  let gt := numLt q p
  if x = 0 then !nan && !lt && !gt
  else if x = 1 then nan || lt || gt
  else if x = 2 then lt
  else if x = 3 then !nan && !gt
  else if x = 4 then gt
  else !nan && !lt

def execFma (dt : Nat) (die : Fin 12) (s : State) : Result :=
  (s.advance dt).alu die 0x01 (fun a b c _ _ => f32Fma a b c)

def execMul (dt : Nat) (die : Fin 12) (s : State) : Result :=
  (s.advance dt).alu die 0x02 (fun a b _ _ _ => f32Mul a b)

def execAdd (dt : Nat) (die : Fin 12) (s : State) : Result :=
  (s.advance dt).alu die 0x03 (fun a b _ _ _ => f32Add a b)

def execSub (dt : Nat) (die : Fin 12) (s : State) : Result :=
  (s.advance dt).alu die 0x04 (fun a b _ _ _ => f32Sub a b)

def execRcp (dt : Nat) (die : Fin 12) (s : State) : Result :=
  (s.advance dt).alu die 0x05 (fun a _ _ _ _ => numDivF32 numOne (ofF32 a))

def execSqrt (dt : Nat) (die : Fin 12) (s : State) : Result :=
  (s.advance dt).alu die 0x06 (fun a _ _ _ _ => numSqrtF32 (ofF32 a))

def execRsqrt (dt : Nat) (die : Fin 12) (s : State) : Result :=
  (s.advance dt).alu die 0x07 (fun a _ _ _ _ => numRsqrtF32 (ofF32 a))

def execMin (dt : Nat) (die : Fin 12) (s : State) : Result :=
  (s.advance dt).alu die 0x08 (fun a b _ _ _ => f32Min a b)

def execMax (dt : Nat) (die : Fin 12) (s : State) : Result :=
  (s.advance dt).alu die 0x09 (fun a b _ _ _ => f32Max a b)

def execClamp (dt : Nat) (die : Fin 12) (s : State) : Result :=
  (s.advance dt).alu die 0x0A (fun a b c _ _ => f32Min (f32Max a b) c)

def execSel (dt : Nat) (die : Fin 12) (s : State) : Result :=
  (s.advance dt).alu die 0x0B (fun a b c d x => if f32Cmp x a b then c else d)

/-- The lane sum of X = 4: lane 0's product stays exact until lane 1's is added (R280). -/
def laneDot (a b : Nat → W32) : W32 :=
  let prod (i : Nat) : Num := numMul (ofF32 (a i)) (ofF32 (b i))
  let first := toF32 (numAdd (prod 0) (prod 1))
  (List.range 30).foldl (fun acc i => toF32 (numAdd (ofF32 acc) (prod (i + 2)))) first

/-- NACC (R280, R281). -/
def execNacc (dt : Nat) (die : Fin 12) (s : State) : Result :=
  let s := s.advance dt
  s.engineStep die 0x0C (fun e _ w =>
    let a := e.operand (iA w)
    let b := e.operand (iB w)
    if iX w = 4 then
      s.setEngine die (some { e with
        regs := tabSet e.regs (iD w) (List.replicate e.lanes (laneDot a b)), pc := e.pc + 1 })
    else
      let n := (List.range e.lanes).foldl (fun acc i => f32Fma (a i) (b i) acc) (e.norms.getD (iX w) 0)
      s.setEngine die (some { e with norms := e.norms.set (iX w) n, pc := e.pc + 1 }))

/-- Non-finite values written (R105, R106). -/
def State.countUpdNonfinite (s : State) (c : Cmd) (die n : Nat) : State :=
  if n = 0 then s
  else
    (s.modDie die (fun d => { d with updNonfinite := satAdd 32 d.updNonfinite n, updNonfiniteTide := s.tide })).noteNonfinite
      (srcRing c.ring)

/-- Each write to a far-tier bank renews its lease (R387). -/
def State.holdBanks (s : State) (banks : Tab Nat) (keys : List Nat) : Tab Nat :=
  keys.foldl (fun t k => if k / 2 ^ 60 = 2 then tabSet t (farBankOf s.nStacks (k % 2 ^ 60)) s.tide else t) banks

/-- Addresses that an STW of some elements writes: the first and last byte of each element, and the scale of a block
(R282, R387). -/
def WorkMap.stored (m : WorkMap) (l : Layer) (slot first last : Nat) : List Nat :=
  let fmt := l.workFmt
  (List.range (last + 1 - first)).flatMap (fun i =>
    let b := m.bitOff fmt (m.first + first + i)
    [l.workOf slot + b / 8, l.workOf slot + (b + fmtBits fmt - 1) / 8]) ++
    (if fmtIsMx fmt then [l.scaleOf slot + m.scaleOff fmt (m.first + first)] else [])

/-- STS: provisional state word X (R268, R280). -/
def execSts (dt : Nat) (die : Fin 12) (s : State) : Result :=
  let s := s.advance dt
  s.engineStep die 0x0D (fun e c w =>
    let p := updP c
    let vals := (List.range e.lanes).map (fun i => e.operand (iA w) i)
    let key := p.provisional (s.layer e.layer).stateSel + 4 * (iX w * p.map.count + e.elem)
    let bad := (vals.filter f32NonFinite).length
    let s := (s.write key (f32Bytes vals)).countUpdNonfinite c die bad
    s.setEngine die (some { e with
      pc := e.pc + 1, nonfinite := e.nonfinite + bad, banks := s.holdBanks e.banks [key, key + 4 * e.lanes - 1] }))

/-- STW: the working copy; MX blocks are converted whole (R282). -/
def execStw (dt : Nat) (die : Fin 12) (s : State) : Result :=
  let s := s.advance dt
  s.engineStep die 0x0E (fun e c w =>
    let p := updP c
    let l := s.layer e.layer
    let random := (iX w).testBit 0
    let vals := (List.range e.lanes).map (fun i => (e.elem + i, e.operand (iA w) i, random))
    let held := e.mxBlock ++ vals
    if fmtIsMx l.workFmt && decide (held.length < 32) then
      s.setEngine die (some { e with mxBlock := held, pc := e.pc + 1 })
    else
      let xs := held.map (·.2.1)
      let (rs, s) := if random then s.draws xs.length else ([], s)
      let rnd := if random then rs.map some else xs.map (fun _ => none)
      let (s, sats, bad) := s.putWork l e.slotIndex p.map (p.map.first + (held.headD (0, 0, false)).1) xs rnd
      let s := s.countUpdNonfinite c die bad
      s.setEngine die (some { e with
        mxBlock := [], pc := e.pc + 1, nonfinite := e.nonfinite + bad, saturations := e.saturations + sats,
        banks := s.holdBanks e.banks
          (p.map.stored l e.slotIndex (held.headD (0, 0, false)).1 (held.getLastD (0, 0, false)).1) }))

/-- NEXTPASS ends the element in pass 1; after the last one pass 2 begins (R279, R281). -/
def execNextpass (dt : Nat) (die : Fin 12) (s : State) : Result :=
  let s := s.advance dt
  s.engineStep die 0x0F (fun e c _ =>
    let p := updP c
    let n := e.elem + e.lanes
    let e := if n < p.map.count then { e with elem := n }
      else { e with elem := 0, pass2 := true, s12 := e.norms.getD 0 0, s13 := e.norms.getD 1 0 }
    s.setEngine die (some (s.loadElem e p)))

/-- END ends the element; after the last one the part is done (R280). -/
def execEndElem (dt : Nat) (die : Fin 12) (s : State) : Result :=
  let s := s.advance dt
  s.engineStep die 0x00 (fun e c _ =>
    let p := updP c
    let n := e.elem + e.lanes
    let s := s.modDie die (fun d => { d with updElements := (d.updElements + e.lanes) % 2 ^ 64 })
    if n < p.map.count then s.setEngine die (some (s.loadElem { e with elem := n } p))
    else s.endPart c p { e with elem := n })

/-! ### PREFETCH_STATE (R277) -/

/-- The checks of PREFETCH_STATE. -/
def prefetchChecks (s : State) (c : Cmd) : List (Bool × Nat) :=
  let die := c.param 0 1
  let layer := c.param 2 2
  let count := c.param 8 4
  let n := 4 * c.param 1 1 * count
  let land_ := c.param 0x20 8
  [(s.dieBound (ctxOfRing c.ring) die, 0), (decide (1 ≤ c.param 1 1) && decide (c.param 1 1 ≤ 8), 1),
   (decide (layer < 4096) && (s.layer layer).defined, 2), (c.param 4 4 % 32 == 0, 4),
   (decide (32 ≤ count) && count % 32 == 0, 8), ((s.stateKey (c.param 0x10 8) n).isSome, 0x10),
   ((s.stateKey (c.param 0x18 8) n).isSome, 0x18),
   (land_ % 256 == 0 && (s.resolve [6] none land_ n).isSome && keyDie land_ == some die, 0x20)] ++
  reservedFail c 64 [(0, 0x0C), (0x10, 0x1C)]

/-- Index of the staging entry to fill: a free one, else the oldest (R277). -/
def stageIndex (d : Die) : Nat :=
  match (List.range 16).find? (fun i => d.staging.all (fun x => x.index != i)) with
  | some i => i
  | none =>
    match d.staging with
    | [] => 0
    | x :: xs => (xs.foldl (fun a b => if b.order < a.order then b else a) x).index

/-- The copy, and its staging entry (R277); poison moves with it. -/
def State.stageCopy (s : State) (c : Cmd) : State :=
  let die := c.param 0 1
  let layer := c.param 2 2
  let n := c.param 1 1
  let count := c.param 8 4
  let sel := (s.layer layer).stateSel
  let s := s.copy (if sel then c.param 0x18 8 else c.param 0x10 8) (c.param 0x20 8) (4 * n * count)
  let s := s.modDie die (fun d =>
    let i := stageIndex d
    { d with
      stageOrder := d.stageOrder + 1
      staging := d.staging.filter (fun x => x.index != i) ++
        [({ layer := layer, elemFirst := c.param 4 4, elemCount := count, nstate := n, landAddr := c.param 0x20 8,
            stateSel := sel, order := d.stageOrder, index := i } : StageEntry)] })
  s.complete c .ok 0 []

/-- Neither the die of a PREFETCH_STATE nor the one of the committed slot that it copies is out of service (R205). -/
def State.stagedServed (s : State) (c : Cmd) : Bool :=
  s.keyServed (dieKey 6 (c.param 0 1) 0) && s.keyServed (if (s.layer (c.param 2 2)).stateSel then c.param 0x18 8 else c.param 0x10 8)

/-- The committed slot's planes are held for now, as the die reaches them, or DIE_REPAIR holds the die (R24, R205, R301,
R379, R391). -/
def State.stagedHeld (s : State) (c : Cmd) : Bool :=
  s.dieWaits (c.param 0 1) || s.rangeStops (c.param 0 1 / 2) (if (s.layer (c.param 2 2)).stateSel then c.param 0x18 8 else c.param 0x10 8)
    (4 * c.param 1 1 * c.param 8 4)

/-- The layer holds provisional state of the open step (R277). -/
def Layer.hasProvisional (l : Layer) : Bool := (l.stateIdx .writing).isSome || (l.stateIdx .provisional).isSome

/-- PREFETCH_STATE: it copies, or waits for the close, or while its source is held, and then copies (R277). -/
def execPrefetchState (dt : Nat) (ring : Fin 17) (seq : W16) (s : State) : Result :=
  (s.advance dt).startOrGo ring seq 0x33
    (fun c s =>
      match lowestFail (prefetchChecks s c) with
      | some o => s.badParam c o
      | none =>
        if s.dieRefuses (c.param 0 1) then s.complete c .faulted 0 []
        else if (s.layer (c.param 2 2)).hasProvisional || (s.stagedServed c && s.stagedHeld c) then
          let t := c.param 0x28 4
          s.setWait c.ref .prefetchClose (if t = 0 then none else some (s.tide + 1000 * t))
        else if !s.stagedServed c then s.complete c .faulted 0 []
        else s.stageCopy c)
    (fun c s =>
      if (s.layer (c.param 2 2)).hasProvisional || (s.stagedServed c && s.stagedHeld c) then s
      else if !s.stagedServed c then s.complete c .faulted 0 []
      else s.stageCopy c)

/-- PREFETCH_TIMEOUT (R277). -/
def execPrefetchTimeout (dt : Nat) (ring : Fin 17) (seq : W16) (s : State) : Result :=
  let s := s.advance dt
  match s.findWait ring seq .prefetchClose with
  | none => s.idle
  | some c => if s.due c.deadline then .next (s.complete c .timeout 0 []) else s.idle

/-! ### Registers (13) -/

def Layer.updWord (l : Layer) : Nat :=
  b2n l.stateSel + 2 * b2n l.prov + 4 * b2n l.failed + 8 * b2n l.skimPending + l.partsDone * 2 ^ 16 +
    l.lastCommit.toNat * 2 ^ 32

/-- STAGE_VALID. -/
def stageValid (d : Die) : Nat := (d.staging.map (fun x => 2 ^ x.index)).foldl (· ||| ·) 0

end Sys2Proof.Machine
end

