-- ==== Sys2Proof/Machine/FrameIn.lean ====
section
/-! DEFINITION. What every received frame passes through, and the DATA, CREDIT and CHECKPOINT frames (R311 to R318). -/

namespace Sys2Proof.Machine

/-- Port exists and carries codewords. -/
def State.portActive (s : State) (p : Nat) : Bool := decide (p < s.nPorts) && (s.port p).train.state == .active

/-- Roles that carry a frame type (R312): 1 PIPE_PREV, 2 PIPE_NEXT, 3 DATA, 4 SEQUENCE, 5 SHARD, 6 CHECKPOINT. -/
def frameRoles : FrameBody → List Nat
  | .data _ => [1, 2]
  | .credit _ => [1, 2, 6]
  | .time _ => [1, 2, 3, 4, 5, 6]
  | .reduce _ => [3]
  | .gather _ => [3, 5]
  | .permute _ => [5]
  | .verdict _ => [1, 2, 3, 4, 5]
  | .shard _ => [5]
  | .barrier _ => [1, 2, 3, 4, 5]
  | .checkpoint _ => [6]
  | .seq _ => [4]

/-- A frame discarded and counted by its port (R312, R315). -/
def State.discardFrame (s : State) (p : Nat) : State :=
  s.modPort p (fun x => { x with discarded := satAdd 32 x.discarded 1 })

/-- An accepted frame is counted, and the check units attached to the port's receive stream absorb its payload. -/
def State.acceptFrame (s : State) (p : Nat) (hdr : FrameHdr) (body : FrameBody) : State :=
  let s := s.modPort p (fun x => { x with
    framesRx := (x.framesRx + 1) % 2 ^ 64
    poisoned := if hdr.poison then satAdd 32 x.poisoned 1 else x.poisoned })
  s.absorb 1 p (framePayload body) (poisonAt hdr)

/-- What a frame causes is stamped later than its SEND_TIDE: it is taken once the module's own Tidemark is past it
(R46). TIME frames are what the Tidemark is aligned by, and wait for nothing. -/
def State.pastSend (s : State) (hdr : FrameHdr) : FrameBody → Bool
  | .time _ => true
  | _ => decide (hdr.sendTide < s.tide)

/-- A frame arrives on an ACTIVE port: discarded where the role does not carry its type or `ok` fails, else accepted. -/
def State.receive (s : State) (p : Nat) (hdr : FrameHdr) (body : FrameBody) (ok : Bool) (f : State → State) : Result :=
  if !s.portActive p || !s.pastSend hdr body then s.idle
  else if !(frameRoles body).contains (s.roleOf p) || !ok then .next (s.discardFrame p)
  else .next (f (s.acceptFrame p hdr body))

/-- A DATA frame names a context that has this port and sender as its peer, and an entry of its sluice (R315). -/
def State.dataFrameOk (s : State) (p : Nat) (hdr : FrameHdr) (f : DataF) : Bool :=
  let item := s.ctxItem hdr.dstCtx
  let (kind, port, m, _) := item.sender f.bwd
  hdr.dstModule == s.conf.address && kind == 1 && port == p && m == hdr.srcModule && decide (hdr.dstCtx < 16) &&
    decide (f.entry < item.depth f.bwd)

/-- What a port's frames write is held for now, as the port's I/O die reaches it, or its route is cut (R21, R24, R205,
R222, R301, R379): the frame waits in the port. -/
def State.landHeld (s : State) (p : Nat) (ranges : List (Nat × Nat)) : Bool :=
  s.anyStops (ioBase s.pkg.suffix (p / 4)) ranges

/-- Where the payload of a DATA frame lands (R315). -/
def State.dataKey (s : State) (hdr : FrameHdr) (f : DataF) : Nat :=
  (s.ctxItem hdr.dstCtx).entryAddr f.bwd f.entry + f.offset

/-- DATA_FRAME (R254, R315). -/
def execDataFrame (dt : Nat) (port : Fin 24) (hdr : FrameHdr) (f : DataF) (s : State) : Result :=
  let s := s.advance dt
  if s.dataFrameOk port hdr f && s.landHeld port [(s.dataKey hdr f, f.payload.length)] then s.idle
  else s.receive port hdr (.data f) (s.dataFrameOk port hdr f) (fun s => (s.dropStalled hdr.dstCtx f).arriveData hdr.dstCtx f hdr.poison)

/-- CREDIT_FRAME (R255, R316, R318). -/
def execCreditFrame (dt : Nat) (port : Fin 24) (hdr : FrameHdr) (f : CreditF) (s : State) : Result :=
  let s := s.advance dt
  s.receive port hdr (.credit f) true (fun s =>
    if s.roleOf port = 6 then s.modPort port (fun x => { x with ckptUnits := x.ckptUnits + f.ckptUnits })
    else
      let item := s.ctxItem hdr.dstCtx
      let (kind, p, m, peer, _) := sendSide item f.bwd
      if kind = 1 && p == port.val && m == hdr.srcModule && peer == hdr.srcCtx then
        s.modCredits hdr.dstCtx f.bwd (fun w => w ||| f.entryMask)
      else s)

/-- CHECKPOINT_FRAME (R318): its bytes leave the module's model with the check units that absorb them. -/
def execCheckpointFrame (dt : Nat) (port : Fin 24) (hdr : FrameHdr) (f : CheckpointF) (s : State) : Result :=
  let s := s.advance dt
  s.receive port hdr (.checkpoint f) true (fun s => s)

end Sys2Proof.Machine
end

