-- ==== Sys2Proof/Machine/Coll.lean ====
section
/-! DEFINITION. Collective trees, contexts, reductions and barriers (15, R319 to R332, R334, R345). -/

namespace Sys2Proof.Machine

/-! ### Trees (R320, R321) -/

/-- Roles that a collective's ports may have (R321): reduction, gather, verdict or barrier. -/
def reduceRoles : List Nat := [3]
def gatherRoles : List Nat := [3, 5]
def voteRoles : List Nat := [1, 2, 3, 4, 5]

/-- The entry of a collective is valid, and its ports exist and carry the frame type (R321). -/
def State.treeOk (s : State) (collId : W32) (roles : List Nat) : Bool :=
  let v := s.view collId
  (tabGet {} s.coll.trees (collId.toNat % 64)).valid &&
    (v.parent.toList ++ v.kids).all (fun p => decide (p < s.nPorts) && roles.contains (s.roleOf p))

/-- A collective frame sent on a port of the tree. -/
def State.sendTree (s : State) (p : Nat) (body : FrameBody) : State :=
  s.send p { dstModule := (s.portItem p).peerModule } body

def State.sendPorts (s : State) (ps : List Nat) (body : FrameBody) : State :=
  ps.foldl (fun st p => st.sendTree p body) s

/-- Refusals counted by their status (R345). -/
def State.countRefusal (s : State) (x : Nat) (st : Status) : State :=
  match st with
  | .epochStale => s.modTile x (fun t => { t with stale := satAdd 32 t.stale 1 })
  | .busy => s.modTile x (fun t => { t with busy := satAdd 32 t.busy 1 })
  | _ => s

/-- Whether a tile's logic is in recovery: ingress holds frames, and leases wait (R386, R388). -/
def State.tilePaused (s : State) (x : Nat) : Bool := s.log.recoveries.any (fun r => r.cls == 9 && r.unit == x)

/-- What a tile reads or writes for a collective is held for now: its logic is in recovery, an access is, as its I/O die
reaches it, or the route to a port of the tree is (R21, R24, R205, R222, R379, R386). -/
def State.tileHeld (s : State) (x : Nat) (collId : W32) (ranges : List (Nat × Nat)) : Bool :=
  let v := s.view collId
  let here := ioBase s.pkg.suffix x
  s.tilePaused x || s.anyStops here ranges ||
    (v.parent.toList ++ v.kids).any (fun p => s.baseStops here (ioBase s.pkg.suffix (p / 4)))

/-- Ingress holds a collective's frame: its tile's logic is in recovery, or no route leads to or from the tile for now
(R21, R24, R386). The frame waits in its port. -/
def State.ingressHeld (s : State) (collId : W32) : Bool := s.tileHeld (s.view collId).tile collId []

/-- `a` is an older layout epoch than `b`, or as far as any can be (R50). -/
def epochStale (a b : W16) : Bool := a != b && !serialNewer a b

/-- Status of the STATUS byte of a REFUSE of a reduction (R330): BUSY, EPOCH_STALE or FAULTED. -/
def refuseReduce (n : Nat) : Status := if n = 3 then .busy else if n = 0xB then .epochStale else .faulted

/-- Status of a GATHER frame's STATUS byte (R340, R372). -/
def refuseStatus (n : Nat) : Status :=
  if n = 2 then .deferred else if n = 3 then .busy else if n = 5 then .versionGone else if n = 0xB then .epochStale else .faulted

/-! ### Contexts (R319, R332) -/

def State.putColl (s : State) (c : CollCtx) : State :=
  { s with coll := { s.coll with ctxs := s.coll.ctxs.map (fun d => if d.same c then c else d) } }

/-- A context closes; a tile that had all 16 open is free for another from now (R319). -/
def State.closeColl (s : State) (c : CollCtx) : State :=
  let s := if 16 ≤ s.openOn c.tile then s.modTile c.tile (fun t => { t with freeSince := s.tide }) else s
  { s with coll := { s.coll with ctxs := s.coll.ctxs.filter (fun d => !d.same c) } }

/-- A context opens, unless its tile has 16 (R319, R332). -/
def State.openColl (s : State) (c : CollCtx) : Option State :=
  if 16 ≤ s.openOn c.tile then none else some { s with coll := { s.coll with ctxs := s.coll.ctxs ++ [c] } }

/-- A context that a frame opens is held for 60 s (R387). -/
def State.frameCtx (s : State) (kind : Nat) (collId step : W32) (epoch : W16) : CollCtx :=
  { kind := kind, tile := (s.view collId).tile, collId := collId, step := step, epoch := epoch,
    lease := s.tide + 60000000000 }

/-- The refusal of a context: REFUSE to every child and to the offending port; the local command, now or when it
starts, completes with the status (R331). `body` is the command's result so far. A REFUSE of a reduction carries
SCALE_CRC where this module holds the table (R326), and 0 before its command has started (DEDUCED, log 44). -/
def State.refuseColl (s : State) (c : CollCtx) (st : Status) (offender : Option Nat) (body : List Byte) : State :=
  let s := s.countRefusal c.tile st
  let kids := (s.view c.collId).kids
  let to_ := kids ++ (offender.toList.filter (fun p => !kids.contains p))
  let s := s.sendPorts to_ (match c.kind with
    | 0 => .reduce { collId := c.collId, step := c.step, epoch := c.epoch, kind := 2, status := st.code,
                     scaleCrc := if c.table.isEmpty then 0 else BitVec.ofNat 32 (crc32c c.table) }
    | 1 => .gather { collId := c.collId, epoch := c.epoch, kind := 2, status := st.code }
    | _ => .barrier { collId := c.collId, kind := 2, status := st.code })
  match c.cmd with
  | some ref => (s.closeColl c).finish ref st 0 body
  | none => s.putColl { c with refused := some st.code }

/-- A frame refused where no context is open (R331, R332, R345). -/
def State.turnAway (s : State) (p kind : Nat) (collId step : W32) (epoch : W16) (st : Status) : State :=
  let c := s.frameCtx kind collId step epoch
  (s.refuseColl c st (some p) []).closeColl c

/-! ### COLL_REDUCE (R323 to R329) -/

structure RedP where
  die : Nat
  collId : W32
  step : W32
  epoch : W16
  nContrib : Nat
  src : Nat
  blocks : Nat
  g : Nat
  scale : Nat
  landElem : Nat
  landBlk : Nat
  deriving DecidableEq, Repr

def redP (c : Cmd) : RedP :=
  { die := c.param 0x00 1
    collId := BitVec.ofNat 32 (c.param 0x04 4)
    step := BitVec.ofNat 32 (c.param 0x08 4)
    epoch := BitVec.ofNat 16 (c.param 0x0C 2)
    nContrib := c.param 0x0E 2
    src := c.param 0x10 8
    blocks := c.param 0x18 4 / 32
    g := c.param 0x1C 1
    scale := c.param 0x20 8
    landElem := c.param 0x28 4
    landBlk := c.param 0x2C 4 }

/-- Bytes of the scale table (R323). -/
def RedP.tableLen (p : RedP) : Nat := (p.blocks + 2 ^ p.g - 1) / 2 ^ p.g

/-- The first failing check, in order, with its status (R324). -/
def firstFailSt : List (Bool × Nat × Status) → Option (Nat × Status)
  | [] => none
  | (ok, off, st) :: rest => if ok then firstFailSt rest else some (off, st)

/-- The failing check with the lowest offset, with its status (R465). -/
def lowestFailSt (checks : List (Bool × Nat × Status)) : Option (Nat × Status) :=
  match checks.filter (fun c => !c.1) with
  | [] => none
  | c :: cs => some ((cs.foldl (fun a b => if b.2.1 < a.2.1 then b else a) c).2)

/-- The checks of R324, in the order of the table of R323. -/
def redChecks (s : State) (c : Cmd) : List (Bool × Nat × Status) :=
  let p := redP c
  let n := c.param 0x18 4
  let countOk := n % 32 == 0 && decide (32 ≤ n) && decide (n ≤ 2 ^ 28)
  let key := s.resolve [0, 1, 4, 5] (some p.die) p.scale p.tableLen
  let table := s.read (key.getD 0) (min p.tableLen 16384)
  let t := c.param 0x30 4
  let reserved (size used : Nat) : List (Bool × Nat × Status) :=
    (reservedFail c size [(0, used)]).map (fun x => (x.1, x.2, Status.badParam))
  [(s.dieBound (ctxOfRing c.ring) p.die, 0x00, .badParam)] ++ reserved 4 1 ++
  [(s.treeOk p.collId reduceRoles, 0x04, .badParam),
   (p.step == s.commit.stepNumber, 0x08, .badParam), (p.epoch == s.commit.layoutEpoch, 0x0C, .epochStale),
   (decide (1 ≤ p.nContrib) && decide (p.nContrib ≤ 4096), 0x0E, .badParam),
   (s.inSpace [0, 1, 2, 4, 5] (some p.die) p.src (if countOk then 2 * n else 0), 0x10, .badParam), (countOk, 0x18, .badParam),
   (decide (p.g ≤ 16) && decide (p.tableLen ≤ 16384), 0x1C, .badParam)] ++ reserved 0x20 0x1D ++
  [(key.isSome && table.all (fun b => decide (b.toNat ≤ 0xF6)), 0x20, .badParam),
   (decide (p.landElem + n ≤ landBytes), 0x28, .badParam), (decide (p.landBlk + 2 * p.blocks ≤ landBytes), 0x2C, .badParam),
   (decide (1 ≤ t) && decide (t ≤ 60000000), 0x30, .badParam)] ++
  reserved 128 0x34

/-- BODY of COLL_REDUCE (R324). -/
def CollCtx.redBody (c : CollCtx) : List Byte :=
  bodyOf [(0, 4, c.landed), (4, 4, c.satQuant), (8, 4, c.satRequant), (12, 4, c.flagged), (16, 2, c.rootContrib)]

/-- One quantised block: codes, non-finite and poison flags, saturations. -/
structure WireBlock where
  codes : List Nat
  nonfinite : Bool := false
  poison : Bool := false
  sats : Nat := 0
  deriving DecidableEq, Repr

/-- Key of the BF16 gradient of a reduction (R323). -/
def State.redSrc (s : State) (p : RedP) : Nat := (s.resolve [0, 1, 2, 4, 5] (some p.die) p.src 0).getD 0

/-- A node's local contribution to block b (R325); `scalePoison` says that its scale entry was read as poisoned, which
poisons the block (R217). -/
def State.localBlock (s : State) (c : Cmd) (scale : Nat) (scalePoison : Bool) (b : Nat) : WireBlock :=
  let p := redP c
  let key := s.redSrc p + 64 * b
  let xs := (List.range 32).map (fun i => decodeElem 1 (s.readNat (key + 2 * i) 2))
  let poison := s.poisoned key 64 || scalePoison
  let q := xs.map (encodeWire scale)
  { codes := q.map (·.1), nonfinite := poison || xs.any numNonFinite, poison := poison, sats := (q.filter (·.2)).length }

/-- A contribution enters a block (R327): the first one exactly, each later one with one rounding. -/
def RBlock.add (x : RBlock) (scale : Nat) (w : WireBlock) (contrib : Nat) : RBlock :=
  let vs := w.codes.map (decodeWire scale)
  let vals := vs.map (fun v => toF32 v.1)
  { x with
    sums := if x.sums.isEmpty then vals else List.zipWith f32Add x.sums vals
    nonfinite := x.nonfinite || w.nonfinite || w.poison || vs.any (·.2)
    poison := x.poison || w.poison
    contrib := x.contrib + contrib }

/-- Every contribution of a block has been added (R327). -/
def RBlock.complete (x : RBlock) (kids : List Nat) : Bool := x.local_ && kids.all (fun p => x.from_.contains p)

/-- Requantisation of a block's sums (R327). -/
def RBlock.requant (x : RBlock) (scale : Nat) : WireBlock :=
  let q := x.sums.map (fun v =>
    if f32NonFinite v then ((if v.msb then 0xFE else 0x7E), true) else encodeWire scale (ofF32 v))
  { codes := q.map (·.1), nonfinite := x.nonfinite || x.sums.any f32NonFinite, poison := x.poison,
    sats := (q.filter (·.2)).length }

/-- The flag area of a REDUCE frame (R330). -/
def flagArea (ws : List WireBlock) : List Byte :=
  toBytes ((ws.length + 3) / 4)
    (sumNat (ws.zipIdx.map (fun w => (b2n w.1.nonfinite + 2 * b2n w.1.poison) * 2 ^ (2 * w.2))))

def wirePayload (ws : List WireBlock) : List Byte := ws.flatMap (fun w => w.codes.map (BitVec.ofNat 8))

/-- The blocks that a REDUCE frame carries; the element codes 0x7F and 0xFF set a block's non-finite flag (R95, R330).
-/
def frameBlocks (f : ReduceF) : List WireBlock :=
  (List.range f.nblocks).map (fun i =>
    let fl := (f.flags.getD (i / 4) 0).toNat / 2 ^ (2 * (i % 4))
    let codes := (List.range 32).map (fun j => (f.payload.getD (32 * i + j) 0).toNat)
    { codes := codes, nonfinite := fl.testBit 0 || fl.testBit 1 || codes.any (fun x => x % 128 == 127),
      poison := fl.testBit 1 })

/-- Blocks landed in the landing buffer, with their descriptors; a flagged one sets the non-finite bit (R106, R329). -/
def State.landBlocks (s : State) (x : CollCtx) (p : RedP) (first : Nat) (ws : List WireBlock) : State :=
  ws.zipIdx.foldl (fun st w =>
    let b := first + w.2
    let st := st.write (landKey p.die (p.landElem + 32 * b)) (w.1.codes.map (BitVec.ofNat 8))
    let st := st.write (landKey p.die (p.landBlk + 2 * b))
      [x.table.getD (b / 2 ^ p.g) 0, BitVec.ofNat 8 (b2n w.1.nonfinite + 2 * b2n w.1.poison)]
    if w.1.nonfinite then st.noteNonfinite (srcIo x.tile) else st) s

def CollCtx.land (c : CollCtx) (ws : List WireBlock) : CollCtx :=
  { c with landed := c.landed + ws.length, flagged := c.flagged + (ws.filter (·.nonfinite)).length }

/-- The window of R328: blocks below this number may go up. -/
def CollCtx.window (c : CollCtx) (p : RedP) : Nat := min p.blocks (c.landed + 8192)

/-- The first poisoned source word of a reduction is recorded once (R217). -/
def State.notePoisonSource (s : State) (x : CollCtx) (c : Cmd) (todo : List Nat) : State × CollCtx :=
  match (if x.poisonLogged then none else todo.findSome? (fun b => s.firstPoison (s.redSrc (redP c) + 64 * b) 64)) with
  | none => (s, x)
  | some u => (s.poisonConsumed c u, { x with poisonLogged := true })

/-- Local contributions of every block inside the window that lacks one (R217, R325, R328). -/
def State.addLocals (s : State) (x : CollCtx) (c : Cmd) : State × CollCtx :=
  let p := redP c
  let todo := ((List.range (x.window p - x.up)).map (fun i => x.up + i)).filter (fun b => !(tabGet {} x.blocks b).local_)
  let ws := todo.map (fun b =>
    (b, s.localBlock c ((x.table.getD (b / 2 ^ p.g) 0).toNat) (x.tablePoison.contains (b / 2 ^ p.g)) b))
  let sats := sumNat (ws.map (fun w => w.2.sats))
  let (s, x) := s.notePoisonSource x c todo
  (s.modTile x.tile (fun t => { t with saturations := (t.saturations + sats) % 2 ^ 64 }),
   { x with
     satQuant := x.satQuant + sats
     blocks := ws.foldl (fun t w =>
       tabMod {} t w.1 (fun b => { b.add (x.table.getD (w.1 / 2 ^ p.g) 0).toNat w.2 1 with local_ := true })) x.blocks })

/-- Complete blocks from the next one on, of one contributor count, at most a frame of them (R328, R330). -/
def CollCtx.run (x : CollCtx) (p : RedP) (kids : List Nat) (root : Bool) : List RBlock :=
  let limit := if root then p.blocks else x.window p
  let cand := ((List.range (min 448 (limit - x.up))).map (fun i => tabGet {} x.blocks (x.up + i)))
  let first := cand.headD {}
  cand.takeWhile (fun b => b.complete kids && b.contrib == first.contrib)

/-- One frame's worth of complete blocks requantised and sent up, or turned round at the root (R327, R329). The flag
says whether anything moved. -/
def State.sendRun (s : State) (x : CollCtx) (c : Cmd) : Bool × State :=
  let p := redP c
  let v := s.view x.collId
  let run := x.run p v.kids v.parent.isNone
  if run.isEmpty then (false, s)
  else
    let contrib := (run.headD {}).contrib
    let first := x.up
    let ws := run.zipIdx.map (fun b => b.1.requant (x.table.getD ((first + b.2) / 2 ^ p.g) 0).toNat)
    let sats := sumNat (ws.map (·.sats))
    let s := s.modTile x.tile (fun t => { t with
      saturations := (t.saturations + sats) % 2 ^ 64
      flagged := satAdd 32 t.flagged (ws.filter (·.nonfinite)).length
      poisoned := satAdd 32 t.poisoned (ws.filter (·.poison)).length
      blocks := (t.blocks + ws.length) % 2 ^ 64 })
    let x := { x with
      up := first + run.length
      satRequant := x.satRequant + sats
      blocks := x.blocks.filter (fun e => decide (first + run.length ≤ e.1)) }
    let f : ReduceF :=
      { collId := x.collId, step := x.step, epoch := x.epoch, firstBlock := first, nblocks := ws.length,
        contrib := contrib, scaleCrc := BitVec.ofNat 32 (crc32c x.table), payload := wirePayload ws, flags := flagArea ws }
    match v.parent with
    | some q => (true, (s.putColl x).sendTree q (.reduce { f with kind := 0 }))
    | none =>
      let x := { x with rootContrib := contrib }
      if contrib != p.nContrib then (false, (s.putColl x).refuseColl x .faulted none x.redBody)
      else
        let s := s.sendPorts v.kids (.reduce { f with kind := 1 })
        (true, (s.landBlocks x p first ws).putColl (x.land ws))

/-- The reduction goes on as far as it can; `fuel` bounds the frames (R327 to R329). A source on a die that has left service
ends it with FAULTED (R205). -/
def State.runReduce (s : State) (collId step : W32) (epoch : W16) : Nat → State
  | 0 => s
  | fuel + 1 =>
    match s.findColl 0 collId step epoch with
    | none => s
    | some x =>
      match x.cmd.bind s.findCmd with
      | none => s
      | some c =>
        if !s.keyServed (s.redSrc (redP c)) then s.refuseColl x .faulted none x.redBody
        else
        let (s, x) := s.addLocals x c
        let s := s.putColl x
        if (redP c).blocks ≤ x.landed then (s.closeColl x).finish c.ref .ok 0 x.redBody
        else
          let (moved, s) := s.sendRun x c
          if moved then s.runReduce collId step epoch fuel else s

/-- Frames that all blocks of a reduction can fill, with the turns that land them. -/
def redFuel (c : Cmd) : Nat := 2 * (redP c).blocks + 2

/-- One REDUCE frame of an open context whose command has started (R326 to R331). -/
def State.absorbReduce (s : State) (x : CollCtx) (c : Cmd) (port : Nat) (f : ReduceF) : State :=
  let p := redP c
  let v := s.view x.collId
  let ws := frameBlocks f
  let last := f.firstBlock + f.nblocks
  if f.scaleCrc != BitVec.ofNat 32 (crc32c x.table) then s.refuseColl x .faulted (some port) x.redBody
  else
    let fresh := ((List.range f.nblocks).map (fun i => f.firstBlock + i)).all (fun b =>
      !(tabGet {} x.blocks b).from_.contains port)
    let upOk := f.kind == 0 && v.kids.contains port && decide (x.up ≤ f.firstBlock) && decide (last ≤ x.window p) && fresh
    let downOk := f.kind == 1 && v.parent == some port && f.firstBlock == x.landed && decide (last ≤ x.up)
    if !(decide (1 ≤ f.nblocks) && decide (f.nblocks ≤ 448) && (upOk || downOk)) then
      (s.swDiscard x.tile).refuseColl x .faulted (some port) x.redBody
    else if f.kind = 0 then
      let x := { x with blocks := ws.zipIdx.foldl (fun t w =>
        let b := f.firstBlock + w.2
        tabMod {} t b (fun y => { y.add (x.table.getD (b / 2 ^ p.g) 0).toNat w.1 f.contrib with
          from_ := y.from_ ++ [port] })) x.blocks }
      (s.putColl x).runReduce x.collId x.step x.epoch (redFuel c)
    else
      let s := s.sendPorts v.kids (.reduce f)
      let s := s.landBlocks x p f.firstBlock ws
      (s.putColl (x.land ws)).runReduce x.collId x.step x.epoch (redFuel c)

/-- The frames that waited, in their order (R332). -/
def State.drainReduce (s : State) (collId step : W32) (epoch : W16) (fs : List (Nat × ReduceF)) : State :=
  fs.foldl (fun st f =>
    match st.findColl 0 collId step epoch with
    | none => st
    | some x =>
      match x.cmd.bind st.findCmd with
      | none => st
      | some c => st.absorbReduce x c f.1 f.2) s

/-- Scale table of a reduction: its key and its bytes (R323). -/
def State.redTable (s : State) (p : RedP) : Nat × Nat :=
  ((s.resolve [0, 1, 4, 5] (some p.die) p.scale p.tableLen).getD 0, p.tableLen)

/-- Source and landing places of a reduction. -/
def State.redRanges (s : State) (p : RedP) : List (Nat × Nat) :=
  [(s.redSrc p, 64 * p.blocks), (landKey p.die p.landElem, 32 * p.blocks), (landKey p.die p.landBlk, 2 * p.blocks)]

/-- A context whose tile has come back, whose accesses are no longer held, or whose command has started, takes what
waits for it. -/
def State.wakeReduce (s : State) (x : CollCtx) : State :=
  match x.cmd.bind s.findCmd with
  | none => s
  | some c =>
    if s.tileHeld x.tile x.collId (s.redRanges (redP c)) then s
    else
      let fs := x.waiting
      let s := s.putColl { x with waiting := [] }
      (s.drainReduce x.collId x.step x.epoch fs).runReduce x.collId x.step x.epoch (redFuel c)

/-- The table of a reduction is read as its command starts: its poisoned entries, and the record of the first poisoned word
(R217). -/
def State.loadTable (s : State) (c : Cmd) (x : CollCtx) : State × CollCtx :=
  let (key, n) := s.redTable (redP c)
  let x := { x with
    table := s.read key n, tablePoison := (List.range n).filter (fun i => s.poisoned (key + i) 1) }
  match s.firstPoison key n with
  | none => (s, x)
  | some u => (s.poisonConsumed c u, x)

/-- COLL_REDUCE (R323, R324): not ready while its tile has 16 contexts open (R69, R319). Its table is read at its start,
which comes once that access is not held (log 64). -/
def execCollReduce (dt : Nat) (ring : Fin 17) (s : State) : Result :=
  let s := s.advance dt
  match s.take ring 0x50 with
  | none => s.idle
  | some (c, s') =>
    let before := s
    let s := s'
    let p := redP c
    let tile := (s.view p.collId).tile
    match firstFailSt (redChecks s c) with
    | some (o, st) =>
      .next ((s.countRefusal tile st).complete c st (if st = .badParam then 64 + o else 0) [])
    | none =>
      let keys := [s.resolve [0, 1, 2, 4, 5] (some p.die) p.src 0, s.resolve [0, 1, 4, 5] (some p.die) p.scale 0]
      if s.dieRefuses p.die || keys.any (fun k => !s.keyServed (k.getD 0)) then .next (s.complete c .faulted 0 [])
      else if s.dieWaits p.die || s.anyStops (ioBase s.pkg.suffix tile) [s.redTable p] then before.idle
      else
        let go (s : State) (x : CollCtx) : State :=
          let (s, x) := s.loadTable c { x with cmd := some c.ref, lease := s.tide + 1000 * c.param 0x30 4 }
          ((s.putColl x).setWait c.ref .coll none).wakeReduce x
        match s.findColl 0 p.collId p.step p.epoch with
        | some x =>
          (match x.refused, x.cmd with
           | some st, _ => .next ((s.closeColl x).complete c (refuseReduce st) 0 [])
           | none, some _ => .next (s.complete c .busy 0 [])
           | none, none => .next (go s x))
        | none =>
          let x := s.frameCtx 0 p.collId p.step p.epoch
          .next (go ((s.openColl x).getD s) x)

/-- A REDUCE frame that its port accepted (R321, R331, R332, R345). -/
def State.takeReduce (s : State) (port : Nat) (f : ReduceF) : State :=
  let v := s.view f.collId
  if !(tabGet {} s.coll.trees (f.collId.toNat % 64)).valid || !(v.parent.toList ++ v.kids).contains port then
    s.swDiscard v.tile
  else if f.kind = 2 then
    (if epochStale f.epoch s.commit.layoutEpoch then s.swDiscard v.tile
     else
      let found := s.findColl 0 f.collId f.step f.epoch
      let s := s.sendPorts v.kids (.reduce f)
      match found with
      | some x =>
        (match x.cmd with
         | some ref => (s.closeColl x).finish ref (refuseReduce f.status) 0 x.redBody
         | none => s.putColl { x with refused := some f.status })
      | none => (s.openColl { s.frameCtx 0 f.collId f.step f.epoch with refused := some f.status }).getD s)
  else if epochStale f.epoch s.commit.layoutEpoch then s.turnAway port 0 f.collId f.step f.epoch .epochStale
  else
    let opened := match s.findColl 0 f.collId f.step f.epoch with
      | some x => some (s, x)
      | none =>
        let x := s.frameCtx 0 f.collId f.step f.epoch
        (s.openColl x).map (fun s => (s, x))
    match opened with
    | none => s.turnAway port 0 f.collId f.step f.epoch .busy
    | some (s, x) =>
      if x.refused.isSome then s
      else
        let x := { x with waiting := x.waiting ++ [(port, f)] }
        (s.putColl x).wakeReduce x

/-- A REDUCE frame with POISON set treats every block as poisoned (R330). -/
def poisonReduce (hdr : FrameHdr) (f : ReduceF) : ReduceF :=
  if hdr.poison then { f with flags := List.replicate ((f.nblocks + 3) / 4) 0xFF } else f

/-- REDUCE_FRAME (R330). -/
def execReduceFrame (dt : Nat) (port : Fin 24) (hdr : FrameHdr) (f : ReduceF) (s : State) : Result :=
  let s := s.advance dt
  if s.ingressHeld f.collId then s.idle
  else s.receive port hdr (.reduce f) true (fun s => s.takeReduce port (poisonReduce hdr f))

/-! ### COLL_BARRIER (R334) -/

/-- The barrier's result. -/
def barrierBody (latest contrib : Nat) : List Byte := bodyOf [(0, 8, latest), (8, 2, contrib)]

/-- A barrier whose own command has started and whose children have all been heard goes up, or turns round (R322, R334).
-/
def State.runBarrier (s : State) (x : CollCtx) : State :=
  match x.cmd.bind s.findCmd with
  | none => s
  | some c =>
    let v := s.view x.collId
    if s.tileHeld x.tile x.collId [] || x.sentUp || !(v.kids.all (fun p => x.heard.contains p)) then s
    else match v.parent with
      | some q =>
        (s.putColl { x with sentUp := true }).sendTree q
          (.barrier { collId := x.collId, kind := 0, contrib := x.contrib + 1, latest := max x.latest (c.start.getD 0) })
      | none =>
        let n := x.contrib + 1
        let latest := max x.latest (c.start.getD 0)
        if n != c.param 8 2 then s.refuseColl x .faulted none (barrierBody latest n)
        else
          let s := s.sendPorts v.kids (.barrier { collId := x.collId, kind := 1, contrib := n, latest := latest })
          (s.closeColl x).finish c.ref .ok 0 (barrierBody latest n)

/-- COLL_BARRIER (R334): not ready while its tile has 16 contexts open. A REFUSE, whatever its status, ends it with FAULTED,
the one of its final statuses that is left for it (DEDUCED, log 44). -/
def execCollBarrier (dt : Nat) (ring : Fin 17) (s : State) : Result :=
  let s := s.advance dt
  match s.take ring 0x53 with
  | none => s.idle
  | some (c, s) =>
    let id : W32 := BitVec.ofNat 32 (c.param 4 4)
    match lowestFail ([(s.treeOk id voteRoles, 4)] ++ reservedFail c 64 [(4, 6), (0x0C, 4)]) with
    | some o => .next (s.badParam c o)
    | none =>
      let lease := s.tide + 1000 * c.param 0x0C 4
      let s := s.setWait c.ref .coll none
      match s.findBarrier id with
      | some x =>
        (match x.refused with
         | some _ => .next ((s.closeColl x).complete c .faulted 0 [])
         | none =>
          let x := { x with cmd := some c.ref, lease := lease }
          .next ((s.putColl x).runBarrier x))
      | none =>
        let x := { s.frameCtx 2 id 0 s.commit.layoutEpoch with cmd := some c.ref, lease := lease }
        .next (((s.openColl x).getD s).runBarrier x)

/-- BARRIER_FRAME (R334). -/
def execBarrierFrame (dt : Nat) (port : Fin 24) (hdr : FrameHdr) (f : BarrierF) (s : State) : Result :=
  let s := s.advance dt
  if s.ingressHeld f.collId then s.idle
  else s.receive port hdr (.barrier f) true (fun s =>
    let v := s.view f.collId
    let tree := tabGet {} s.coll.trees (f.collId.toNat % 64)
    let up := v.kids.contains port.val && f.kind == 0
    let down := v.parent == some port.val && (f.kind == 1 || f.kind == 2)
    if !tree.valid || !(up || down || (f.kind == 2 && v.kids.contains port.val)) then s.swDiscard v.tile
    else
      let opened := match s.findBarrier f.collId with
        | some x => some (s, x)
        | none =>
          let x := s.frameCtx 2 f.collId 0 s.commit.layoutEpoch
          (s.openColl x).map (fun s => (s, x))
      match opened with
      | none => s.turnAway port 2 f.collId 0 0 .busy
      | some (s, x) =>
        if f.kind = 0 then
          (if x.heard.contains port.val then s.swDiscard x.tile
           else
            let x := { x with heard := x.heard ++ [port.val], contrib := x.contrib + f.contrib, latest := max x.latest f.latest }
            (s.putColl x).runBarrier x)
        else
          let s := s.sendPorts v.kids (.barrier f)
          match x.cmd with
          | none => if f.kind = 2 then s.putColl { x with refused := some f.status } else s
          | some ref =>
            (s.closeColl x).finish ref (if f.kind = 1 then .ok else .faulted) 0
              (if f.kind = 1 then barrierBody f.latest f.contrib else []))

end Sys2Proof.Machine
end

