-- ==== Sys2Proof/Machine/Sweep.lean ====
section
/-! DEFINITION. The replica sweep (16, R370 to R373; 17, R393). -/

namespace Sys2Proof.Machine

/-! ### Parameters and map entries (R370) -/

structure SweepEntry where
  layer : Nat
  part : Nat
  nstate : Nat
  first : Nat
  count : Nat
  state0 : Nat
  state1 : Nat
  deriving DecidableEq, Repr

def sweepEntry (bs : List Byte) : SweepEntry :=
  { layer := fieldAt bs 0 2, part := fieldAt bs 2 2, nstate := fieldAt bs 4 1, first := fieldAt bs 8 4,
    count := fieldAt bs 12 4, state0 := fieldAt bs 16 8, state1 := fieldAt bs 24 8 }

/-- Bytes that an entry covers. -/
def SweepEntry.bytes (e : SweepEntry) : Nat := 4 * e.nstate * e.count

/-- Fields in the meanings of R268, of a layer that is defined (R223). -/
def SweepEntry.ok (s : State) (e : SweepEntry) : Bool :=
  decide (e.layer < 4096) && (s.layer e.layer).defined && decide (1 ≤ e.nstate) && decide (e.nstate ≤ 8) && e.first % 32 == 0 && e.count % 32 == 0 &&
    decide (32 ≤ e.count) && (s.stateKey e.state0 e.bytes).isSome && (s.stateKey e.state1 e.bytes).isSome

/-- Key of the committed slot (R370). -/
def SweepEntry.committed (s : State) (e : SweepEntry) : Nat :=
  (s.stateKey (if (s.layer e.layer).stateSel then e.state1 else e.state0) e.bytes).getD 0

structure SweepP where
  mode : Nat
  blockLog2 : Nat
  entry : Nat
  collId : W32
  mapAddr : Nat
  mapCount : Nat
  timeout : Nat
  result : Nat
  list : Nat
  listCount : Nat
  deriving DecidableEq, Repr

def sweepP (c : Cmd) : SweepP :=
  { mode := c.param 0 1, blockLog2 := c.param 1 1, entry := c.param 2 2, collId := BitVec.ofNat 32 (c.param 4 4)
    mapAddr := c.param 8 8, mapCount := c.param 0x10 2, timeout := c.param 0x14 4, result := c.param 0x18 8
    list := c.param 0x20 8, listCount := c.param 0x28 4 }

/-- Spaces of a sweep, of compute die 0. -/
def sweepSpaces : List Nat := [0, 1, 2, 4, 5]

def State.sweepKey (s : State) (addr n : Nat) : Option Nat := s.resolve sweepSpaces (some 0) addr n

def State.sweepMap (s : State) (p : SweepP) : List SweepEntry :=
  match s.sweepKey p.mapAddr (32 * p.mapCount) with
  | none => []
  | some key => (List.range p.mapCount).map (fun i => sweepEntry (s.read (key + 32 * i) 32))

/-- The map, and the list of a REPAIR, which the start of a sweep reads. -/
def State.sweepLists (s : State) (p : SweepP) : List (Nat × Nat) :=
  ((s.sweepKey p.mapAddr (32 * p.mapCount)).toList.map (fun k => (k, 32 * p.mapCount))) ++
    (if p.mode = 2 then (s.sweepKey p.list (4 * p.listCount)).toList.map (fun k => (k, 4 * p.listCount)) else [])

def SweepP.target (p : SweepP) (es : List SweepEntry) : SweepEntry := es.getD p.entry (sweepEntry [])

/-- Blocks of an entry (R371): offset and bytes. -/
def SweepEntry.blocks (e : SweepEntry) (log2 : Nat) : List (Nat × Nat) :=
  (List.range ((e.bytes + 2 ^ log2 - 1) / 2 ^ log2)).map (fun i => (i * 2 ^ log2, min (2 ^ log2) (e.bytes - i * 2 ^ log2)))

/-- The listed blocks of a REPAIR (R373). -/
def State.sweepList (s : State) (p : SweepP) : List Nat :=
  match s.sweepKey p.list (4 * p.listCount) with
  | none => []
  | some key => (List.range p.listCount).map (fun i => s.readNat (key + 4 * i) 4)

/-- What a sweep reads, as (key, bytes): entries, blocks of one entry, or listed blocks (R371, R373). -/
def State.sweepReads (s : State) (p : SweepP) (es : List SweepEntry) : List (Nat × Nat) :=
  let e := p.target es
  let bs := e.blocks p.blockLog2
  if p.mode = 0 then es.map (fun e => (e.committed s, e.bytes))
  else if p.mode = 1 then bs.map (fun b => (e.committed s + b.1, b.2))
  else (s.sweepList p).map (fun n => let b := bs.getD n (0, 0)
    (e.committed s + b.1, b.2))

/-- Bytes of the result area that a sweep may write (R371, R373). -/
def sweepArea (p : SweepP) (reads : List (Nat × Nat)) : Nat :=
  if p.mode = 0 then 16 * reads.length else if p.mode = 1 then 4 * reads.length else sumNat (reads.map (·.2))

def sweepChecks (s : State) (c : Cmd) (p : SweepP) (es : List SweepEntry) : List (Bool × Nat) :=
  let late := decide (1 ≤ p.mode)
  let e := p.target es
  [(decide (p.mode ≤ 2), 0), (!late || (decide (12 ≤ p.blockLog2) && decide (p.blockLog2 ≤ 26)), 1),
   (!late || decide (p.entry < p.mapCount), 2), (s.treeOk p.collId gatherRoles, 4),
   ((s.sweepKey p.mapAddr (32 * p.mapCount)).isSome && es.all (SweepEntry.ok s), 8),
   (decide (1 ≤ p.mapCount) && decide (p.mapCount ≤ 4096), 0x10),
   (decide (1 ≤ p.timeout) && decide (p.timeout ≤ 60000000), 0x14),
   ((s.sweepKey p.result (sweepArea p (s.sweepReads p es))).isSome, 0x18)] ++
  (if p.mode = 2 then
    [((s.sweepKey p.list (4 * p.listCount)).isSome &&
        (s.sweepList p).all (fun n => decide (n < (e.blocks p.blockLog2).length)), 0x20),
     (decide (1 ≤ p.listCount) && decide (p.listCount ≤ 65536), 0x28)] else []) ++
  reservedFail c 64 [(0, 0x12), (0x14, 0x18)]

/-! ### Progress -/

def State.findSweep (s : State) (ref : CmdRef) : Option Sweep := s.dma.sweeps.find? (fun w => w.cmd == ref)

def State.putSweep (s : State) (w : Sweep) : State :=
  { s with dma := { s.dma with sweeps := s.dma.sweeps.map (fun v => if v.cmd = w.cmd then w else v) } }

def State.dropSweep (s : State) (ref : CmdRef) : State :=
  { s with dma := { s.dma with sweeps := s.dma.sweeps.filter (fun w => w.cmd != ref) } }

def State.finishSweep (s : State) (ref : CmdRef) (st : Status) (body : List Byte) : State :=
  (s.dropSweep ref).finish ref st 0 body

/-- A result that takes effect at a commit point carries its Tidemark, also where the point is applied late (R51, R373). -/
def State.completeAt (s : State) (tide : Nat) (c : Cmd) (st : Status) (body : List Byte) : State :=
  { (({ s with tide := tide } : State).complete c st 0 body) with tide := s.tide }

def sweepBody (bad : List Nat) : List Byte := bodyOf [(0, 4, bad.length), (4, 4, bad.headD 0xFFFFFFFF)]

/-- Results that differ from the root's, or that were read as poisoned (R371, R393). -/
def Sweep.bad (w : Sweep) : List Nat :=
  (List.range w.sums.length).filter (fun i =>
    w.poisoned.getD i false || (!w.root && fieldAt w.got (8 * i) 8 != (w.sums.getD i 0).toNat))

/-- Mismatches reported: vector 24 and one record (R371). -/
def State.reportMismatch (s : State) (w : Sweep) (bad : List Nat) : State :=
  match bad with
  | [] => s
  | n :: _ => (s.raise 24).logRec (srcRing 0) 0x0061 sevError 0 n w.mode

/-- COMPARE and BISECT end: the results, or the numbers of the blocks, are written, and the command completes (R371). -/
def State.endCompare (s : State) (w : Sweep) : State :=
  let bad := w.bad
  let s := if w.root then s
    else if w.mode = 0 then
      s.write w.result ((List.range w.sums.length).flatMap (fun i =>
        toBytes 8 (w.sums.getD i 0).toNat ++ toBytes 8 (fieldAt w.got (8 * i) 8)))
    else s.write w.result (bad.flatMap (fun n => toBytes 4 n))
  (s.reportMismatch w bad).finishSweep w.cmd .ok (sweepBody bad)

/-- Payload of the root's broadcast in the result area, or in hand (R371, R373). -/
def State.sweepLand (s : State) (w : Sweep) (poison : Bool) (f : GatherF) : State × Sweep :=
  let n := f.payload.length
  if w.mode = 2 then
    let s := s.write (w.result + f.offset) f.payload
    (if poison then s.markPoison (unitsOf (w.result + f.offset) n) else s, { w with landed := w.landed + n })
  else
    let got := padTo (max w.got.length (f.offset + n)) w.got
    (s, { w with landed := w.landed + n, got := got.take f.offset ++ f.payload ++ got.drop (f.offset + n) })

/-- A participant that has all of the root's broadcast and its own reads: a repair is staged, a void sweep ends with
DEFERRED, any other with its results (R371 to R373). -/
def State.settleSweep (s : State) (x : CollCtx) (w : Sweep) : State :=
  if w.landed < w.total || w.reading then s.putSweep w
  else
    let s := (s.putSweep w).closeColl x
    if w.mode = 2 then s.putSweep { w with staged := true }
    else if w.void then s.finishSweep w.cmd .deferred (bodyOf []) else s.endCompare w

/-- A frame of the root's broadcast at another participant (R335, R371, R373). -/
def State.sweepDown (s : State) (x : CollCtx) (ref : CmdRef) (poison : Bool) (f : GatherF) : State :=
  match s.findSweep ref with
  | none => s
  | some w =>
    let s := (s.view x.collId).kids.foldl (fun st q =>
      st.send q { poison := poison, dstModule := (st.portItem q).peerModule } (.gather { f with kind := 1 })) s
    let (s, w) := s.sweepLand w poison f
    s.settleSweep x w

/-- Poison among the bytes `off` to `off + n - 1` of several ranges laid end to end (R314). -/
def State.rangesPoisoned (s : State) : List (Nat × Nat) → Nat → Nat → Bool
  | [], _, _ => false
  | r :: rs, off, n =>
    let here := min n (r.2 - off)
    (decide (0 < here) && s.poisoned (r.1 + off) here) || s.rangesPoisoned rs (off - r.2) (n - here)

/-- The root's broadcast; a frame of REPAIR carries POISON where a byte of it was read as poisoned (R314, R371, R373).
-/
def State.sweepSend (s : State) (w : Sweep) : State :=
  let reads := w.reads
  let bytes := if w.mode = 2 then reads.flatMap (fun r => s.read r.1 r.2) else w.sums.flatMap (fun x => toBytes 8 x.toNat)
  let poison (part : Nat × Nat) : Bool := decide (w.mode = 2) && s.rangesPoisoned reads part.1 part.2
  let kids := (s.view w.collId).kids
  (payloadParts bytes.length).foldl (fun st part =>
    kids.foldl (fun st q =>
      st.send q { poison := poison part, dstModule := (st.portItem q).peerModule }
        (.gather { collId := w.collId, kind := 1, epoch := w.epoch, offset := part.1,
                   payload := (bytes.drop part.1).take part.2, total := bytes.length })) st) s

/-- The reads of a sweep are done: the results of a COMPARE or BISECT, the record of the poison that it consumed; the root
broadcasts, and a participant goes on (R217, R371, R373). A die that has left service ends it with FAULTED (R205). -/
def State.finishReads (s : State) (w : Sweep) (c : Cmd) : State :=
  let ctx := (s.findColl 1 w.collId 0 w.epoch).filter (fun x => x.cmd == some w.cmd)
  if w.reads.any (fun r => !s.keyServed r.1) then
    (match ctx with
     | some x => s.closeColl x
     | none => s).finishSweep w.cmd .faulted (bodyOf [])
  else
    let w := { w with
      reading := false
      sums := if w.mode = 2 then [] else w.reads.map (fun r => BitVec.ofNat 64 (crcAbsorb 2 0 (s.read r.1 r.2)))
      poisoned := if w.mode = 2 then [] else w.reads.map (fun r => s.poisoned r.1 r.2) }
    let s := match (w.reads.filterMap (fun r => s.firstPoison r.1 r.2)).head? with
      | some u => s.poisonConsumed c u
      | none => s
    if w.root then
      let s := (s.putSweep w).sweepSend w
      if w.mode = 2 then s.finishSweep w.cmd .ok (bodyOf []) else s.endCompare w
    else match ctx with
      | some x => s.settleSweep x w
      | none => s.putSweep w

/-- A step close that flips STATE_SEL of a mapped layer before the reads of a sweep have finished makes it void: the root
sends REFUSE with DEFERRED and completes with it, a participant ends with DEFERRED once it hears from the root (R372). -/
def State.voidSweeps (s : State) (flipped : List Nat) : State :=
  (s.dma.sweeps.filter (fun w => w.reading && w.layers.any flipped.contains)).foldl (fun st w =>
    if w.root then
      (st.sendPorts (st.view w.collId).kids
        (.gather { collId := w.collId, epoch := w.epoch, kind := 2, status := Status.code .deferred })).finishSweep
          w.cmd .deferred (bodyOf [])
    else st.putSweep { w with reading := false, void := true }) s

/-- Staged blocks reach the committed slot, with their poison (R373). -/
def State.repairCopy (s : State) (w : Sweep) : State :=
  let slot := (s.stateKey (if (s.layer w.layer).stateSel then w.state1 else w.state0) 0).getD 0
  (w.blocks.foldl (fun (acc : State × Nat) b => (acc.1.copy (w.result + acc.2) (slot + b.1) b.2, acc.2 + b.2)) (s, 0)).1

/-- Sweeps that wait, staged, for the step close. -/
def State.stagedSweeps (s : State) : List Sweep :=
  s.dma.sweeps.filter (fun w => w.staged && (match s.findCmd w.cmd with
    | some c => c.live
    | none => false))

/-- What the close does to the staged repairs: `open_` names the layers that had provisional state at it. The command
completes at the close Tidemark (R373). -/
def State.closeSweeps (s : State) (open_ : List Nat) (tide : Nat) : State :=
  s.stagedSweeps.foldl (fun st w =>
    match st.findCmd w.cmd with
    | none => st
    | some c =>
      if open_.contains w.layer then (st.dropSweep w.cmd).completeAt tide c .deferred (bodyOf [])
      else ((st.repairCopy w).dropSweep w.cmd).completeAt tide c .ok (bodyOf [])) s

end Sys2Proof.Machine
end

