-- ==== Sys2Proof/Machine/Gather.lean ====
section
/-! DEFINITION. COLL_GATHER, the ring shift, shard-axis frames, COLL_PERMUTE, context leases and the switch registers (15,
R335 to R346; R238 to R240; R387). -/

namespace Sys2Proof.Machine

/-! ### COLL_GATHER (R335, R336) -/

structure GatP where
  die : Nat
  mode : Nat
  next : Nat
  prev : Nat
  collId : W32
  epoch : W16
  rank : Nat
  nRanks : Nat
  root : Nat
  src : Nat
  dest : Nat
  seg : Nat
  deriving DecidableEq, Repr

def gatP (c : Cmd) : GatP :=
  { die := c.param 0x00 1
    mode := c.param 0x01 1
    next := c.param 0x02 1
    prev := c.param 0x03 1
    collId := BitVec.ofNat 32 (c.param 0x04 4)
    epoch := BitVec.ofNat 16 (c.param 0x08 2)
    rank := c.param 0x0A 2
    nRanks := c.param 0x0C 2
    root := c.param 0x0E 2
    src := c.param 0x10 8
    dest := c.param 0x18 8
    seg := c.param 0x20 4 }

/-- Bytes that land at DEST_ADDR. -/
def GatP.total (p : GatP) : Nat := if p.mode = 0 then p.nRanks * p.seg else p.seg

/-- This module sends a segment of its own. -/
def GatP.sends (p : GatP) : Bool := p.mode != 1 || p.rank == p.root

def gatSpaces : List Nat := [0, 1, 2, 4, 5]

/-- The checks of COLL_GATHER; the lowest failing field is named (R465). -/
def gatChecks (s : State) (c : Cmd) : List (Bool × Nat × Status) :=
  let p := gatP c
  let t := c.param 0x24 4
  let seq (port : Nat) : Bool := p.mode != 2 || (decide (port < s.nPorts) && s.roleOf port == 4)
  [(s.dieBound (ctxOfRing c.ring) p.die, 0x00, .badParam), (decide (p.mode ≤ 2), 0x01, .badParam),
   (seq p.next, 0x02, .badParam), (seq p.prev, 0x03, .badParam),
   (p.mode == 2 || s.treeOk p.collId gatherRoles, 0x04, .badParam),
   (p.epoch == s.commit.layoutEpoch, 0x08, .epochStale), (decide (p.rank < p.nRanks), 0x0A, .badParam),
   (decide (1 ≤ p.nRanks) && decide (p.nRanks ≤ 4096), 0x0C, .badParam),
   (p.mode != 1 || decide (p.root < p.nRanks), 0x0E, .badParam),
   (!p.sends || s.inSpace gatSpaces (some p.die) p.src p.seg, 0x10, .badParam),
   (s.inSpace gatSpaces (some p.die) p.dest p.total, 0x18, .badParam),
   (p.seg % 256 == 0 && decide (256 ≤ p.seg), 0x20, .badParam),
   (decide (1 ≤ t) && decide (t ≤ 60000000), 0x24, .badParam)] ++
  (reservedFail c 128 [(0, 0x28)]).map (fun x => (x.1, x.2, Status.badParam))

def State.gatSrc (s : State) (p : GatP) : Nat := (s.resolve gatSpaces (some p.die) p.src 0).getD 0
def State.gatDest (s : State) (p : GatP) : Nat := (s.resolve gatSpaces (some p.die) p.dest 0).getD 0

/-- Landing place of a gather frame's payload. -/
def GatP.landOff (p : GatP) (f : GatherF) : Nat := (if p.mode = 0 then f.rank * p.seg else 0) + f.offset

/-- The command's result: bytes landed (R335). -/
def CollCtx.gatBody (x : CollCtx) : List Byte := bodyOf [(0, 8, x.bytesLanded)]

/-- Every expected byte has landed, and on a node below the root every down frame has passed (R322, R335). -/
def State.checkGather (s : State) (x : CollCtx) (c : Cmd) : State :=
  let p := gatP c
  if decide (p.total ≤ x.bytesLanded) && decide (p.total ≤ x.landed) then (s.closeColl x).finish c.ref .ok 0 x.gatBody
  else s

/-- Data on the down sweep: landed unless it is the module's own, and passed to every child (R322, R335). -/
def State.gatherDown (s : State) (x : CollCtx) (c : Cmd) (poison : Bool) (f : GatherF) : State :=
  let p := gatP c
  let own := p.sends && f.rank == p.rank
  let kids := (s.view x.collId).kids
  let s := kids.foldl (fun st q =>
    st.send q { poison := poison, dstModule := (st.portItem q).peerModule } (.gather { f with kind := 1 })) s
  let s := if own then s else s.landPayload (s.gatDest p + p.landOff f) f.payload poison
  let n := f.payload.length
  let x := { x with landed := x.landed + n, bytesLanded := if own then x.bytesLanded else x.bytesLanded + n }
  (s.putColl x).checkGather x c

/-- One GATHER frame of a tree whose command has started (R335, R371); a destination on a die that has left service ends it
with FAULTED (R205). -/
def State.absorbGather (s : State) (x : CollCtx) (c : Cmd) (poison : Bool) (f : GatherF) : State :=
  if c.opcode = 0x62 then s.sweepDown x c.ref poison f
  else if !s.keyServed (s.gatDest (gatP c)) then s.refuseColl x .faulted none x.gatBody
  else match f.kind, (s.view x.collId).parent with
  | 0, some q => s.send q { poison := poison, dstModule := (s.portItem q).peerModule } (.gather f)
  | _, _ => s.gatherDown x c poison f

/-- The module's own segment: copied locally and sent on its way (R335). -/
def State.sendOwn (s : State) (collId : W32) (epoch : W16) (c : Cmd) : State :=
  let p := gatP c
  match s.findColl 1 collId 0 epoch with
  | none => s
  | some x =>
    if !p.sends then s
    else
      let src := s.gatSrc p
      let s := s.copy src (s.gatDest p + if p.mode = 0 then p.rank * p.seg else 0) p.seg
      let s := s.putColl { x with bytesLanded := x.bytesLanded + p.seg }
      (payloadParts p.seg).foldl (fun st part =>
        match st.findColl 1 collId 0 epoch with
        | none => st
        | some x => st.absorbGather x c (st.poisoned (src + part.1) part.2)
          { collId := collId, kind := 0, epoch := epoch, rank := p.rank, offset := part.1,
            payload := st.read (src + part.1) part.2, total := p.seg }) s

/-- Source and destination of a gather. -/
def State.gatRanges (s : State) (p : GatP) : List (Nat × Nat) :=
  (if p.sends then [(s.gatSrc p, p.seg)] else []) ++ [(s.gatDest p, p.total)]

/-- Frames that waited for the local command, for the tile, or while its accesses were held (R332, R379, R386). -/
def State.wakeGather (s : State) (x : CollCtx) : State :=
  match x.cmd.bind s.findCmd with
  | none => s
  | some c =>
    if s.tileHeld x.tile x.collId (if c.opcode = 0x62 then [] else s.gatRanges (gatP c)) then s
    else
      x.waitingG.foldl (fun st f =>
        match st.findColl 1 x.collId 0 x.epoch with
        | none => st
        | some y => st.absorbGather y c f.2.1 f.2.2) (s.putColl { x with waitingG := [] })

/-! ### The ring shift (R337) -/

/-- A shift's own segment leaves once its GRANT has come (R337). -/
def State.sendShift (s : State) (c : Cmd) : State :=
  let p := gatP c
  let src := s.gatSrc p
  (payloadParts p.seg).foldl (fun st part =>
    st.send p.next { poison := st.poisoned (src + part.1) part.2, dstModule := (st.portItem p.next).peerModule }
      (.seq { collId := p.collId, kind := 1, offset := part.1, payload := st.read (src + part.1) part.2, total := p.seg })) s

def State.modShift (s : State) (collId : W32) (f : Shift → Shift) : State :=
  { s with coll := { s.coll with shifts := s.coll.shifts.map (fun h => if h.collId = collId then f h else h) } }

def State.dropShift (s : State) (collId : W32) : State :=
  { s with coll := { s.coll with shifts := s.coll.shifts.filter (fun h => h.collId != collId) } }

/-- The shift's own segment has been handed to the link whole, and the incoming one has landed. -/
def State.shiftDone (s : State) (c : Cmd) : Bool :=
  let p := gatP c
  let mine (f : Frame) : Bool := match f.body with
    | .seq q => q.collId == p.collId && q.kind == 1
    | _ => false
  s.coll.shifts.any (fun h => h.collId == p.collId && h.sent && decide (p.seg ≤ h.got)) && !((s.port p.next).queue.any mine)

/-- A shift moves on: its data leaves when granted, and it completes when both halves are done (R337). -/
def State.runShift (s : State) (c : Cmd) : State :=
  let p := gatP c
  match s.coll.shifts.find? (fun h => h.collId == p.collId) with
  | none => s
  | some h =>
    let held := s.landHeld p.next [(s.gatSrc p, p.seg)]
    let s := if h.grants.contains p.next && !h.sent && !held then (s.modShift p.collId (fun h => { h with sent := true })).sendShift c else s
    if s.shiftDone c then (s.dropShift p.collId).finish c.ref .ok 0 (bodyOf [(0, 8, p.seg)]) else s

/-- A ring shift from its start (R337). -/
def State.startShift (s : State) (c : Cmd) : State :=
  let p := gatP c
  let early := s.coll.shifts.any (fun h => h.collId == p.collId)
  let s := if early then s.modShift p.collId (fun h => { h with cmd := some c.ref, total := p.seg })
    else { s with coll := { s.coll with shifts := s.coll.shifts ++
      [({ cmd := some c.ref, collId := p.collId, total := p.seg } : Shift)] } }
  let s := s.setWait c.ref .coll (some (s.tide + 1000 * c.param 0x24 4))
  (s.send p.prev { dstModule := (s.portItem p.prev).peerModule } (.seq { collId := p.collId, kind := 0 })).runShift c

/-- COLL_GATHER (R335): not ready while its tile has 16 contexts open. Its own segment moves at its start, which comes
once neither the tile nor an access is held (log 64). -/
def execCollGather (dt : Nat) (ring : Fin 17) (s : State) : Result :=
  let s := s.advance dt
  match s.take ring 0x51 with
  | none => s.idle
  | some (c, s') =>
    let before := s
    let s := s'
    let p := gatP c
    match lowestFailSt (gatChecks s c) with
    | some (o, st) =>
      .next ((s.countRefusal (s.view p.collId).tile st).complete c st (if st = .badParam then 64 + o else 0) [])
    | none =>
      if s.dieRefuses p.die || (p.sends && !s.keyServed (s.gatSrc p)) || !s.keyServed (s.gatDest p) then
        .next (s.complete c .faulted 0 [])
      else if s.dieWaits p.die then before.idle
      else if p.mode = 2 then .next (s.startShift c)
      else if s.tileHeld (s.view p.collId).tile p.collId (s.gatRanges p) then before.idle
      else
        let lease := s.tide + 1000 * c.param 0x24 4
        let go (s : State) (x : CollCtx) : State :=
          let x := { x with cmd := some c.ref, lease := lease }
          let s := (s.putColl x).setWait c.ref .coll none
          (s.wakeGather x).sendOwn p.collId p.epoch c
        match s.findColl 1 p.collId 0 p.epoch with
        | some x =>
          (match x.refused with
           | some st => .next ((s.closeColl x).complete c (refuseStatus st) 0 [])
           | none => .next (go s x))
        | none =>
          let x := s.frameCtx 1 p.collId 0 p.epoch
          .next (go ((s.openColl x).getD s) x)

/-! ### Shard-axis frames (R338 to R340) -/

/-- Rank of a module on the shard axis. -/
def State.rankOf (s : State) (m : W16) : Option Nat :=
  (s.coll.shardMap.find? (fun e => e.2.valid && e.2.module == m)).map (·.1)

/-- A frame for another module goes on unchanged through the port of its rank; without a valid entry it is discarded and
counted (R338). -/
def State.forwardRank (s : State) (port : Nat) (hdr : FrameHdr) (body : FrameBody) (rank : Nat) : State :=
  match s.rankPort rank with
  | some p => s.forward p hdr body
  | none => s.swDiscard (port / 4)

/-- SHARD_REQ (R240, R340): it waits for a version still to come, and while the version's planes cannot be read (R379,
R380). -/
def State.takeShardReq (s : State) (port : Nat) (hdr : FrameHdr) (f : GatherF) : State :=
  let l := s.layer f.layer
  if f.epoch ≠ s.commit.layoutEpoch then (s.countRefusal (port / 4) .epochStale).refuseShard f .epochStale
  else if !l.defined then s.refuseShard f .versionGone
  else match l.liveIdx f.serial with
    | some i =>
      if (l.slot i).whole && !s.planesHeld l i then s.sendShardData f i
      else { s with coll := { s.coll with waits := s.coll.waits ++ [⟨port, hdr, f⟩] } }
    | none =>
      if serialNewer f.serial l.newest then { s with coll := { s.coll with waits := s.coll.waits ++ [⟨port, hdr, f⟩] } }
      else s.refuseShard f .versionGone

/-- SHARD_DATA (R240, R340); one that carries an older layout epoch is refused and counted (R345). -/
def State.takeShardData (s : State) (port : Nat) (poison : Bool) (f : GatherF) : State :=
  if epochStale f.epoch s.commit.layoutEpoch then (s.countRefusal (port / 4) .epochStale).refuseShard f .epochStale
  else match s.coll.gets.find? (fun g => g.collId == f.collId && g.layer == f.layer && g.serial == f.serial &&
      decide (g.first ≤ f.shard) && decide (f.shard < g.first + g.count)) with
  | none => s.swDiscard (port / 4)
  | some g =>
    match s.findCmd g.cmd with
    | none => s
    | some c =>
      let s := s.landPayload (gatherDest s c g f.plane f.shard + f.offset) f.payload poison
      let n := f.payload.length
      (s.modGet g.cmd (fun g =>
        let x := tabGet (0, 0) g.got f.shard
        { g with got := tabSet g.got f.shard (if f.plane = 0 then (x.1 + n, x.2) else (x.1, x.2 + n)) })).checkGet g.cmd

/-- A GATHER frame of a tree (R321, R331, R332, R345). -/
def State.takeTreeGather (s : State) (port : Nat) (poison : Bool) (f : GatherF) : State :=
  let v := s.view f.collId
  let up := f.kind == 0 && v.kids.contains port
  let down := f.kind == 1 && v.parent == some port
  let refuse := f.kind == 2 && (v.parent.toList ++ v.kids).contains port
  if !(tabGet {} s.coll.trees (f.collId.toNat % 64)).valid || !(up || down || refuse) then s.swDiscard v.tile
  else if epochStale f.epoch s.commit.layoutEpoch then
    (if refuse then s.swDiscard v.tile else s.turnAway port 1 f.collId 0 f.epoch .epochStale)
  else
    let opened := match s.findColl 1 f.collId 0 f.epoch with
      | some x => some (s, x)
      | none =>
        let x := s.frameCtx 1 f.collId 0 f.epoch
        (s.openColl x).map (fun s => (s, x))
    match opened with
    | none => if refuse then s else s.turnAway port 1 f.collId 0 f.epoch .busy
    | some (s, x) =>
      if refuse then
        let s := s.sendPorts v.kids (.gather f)
        match x.cmd with
        | some ref => (s.closeColl x).finish ref (refuseStatus f.status) 0 x.gatBody
        | none => s.putColl { x with refused := some f.status }
      else if x.refused.isSome then s
      else
        let x := { x with waitingG := x.waitingG ++ [(port, poison, f)] }
        (s.putColl x).wakeGather x

/-- Where the SHARD_DATA of a get lands. -/
def State.shardKey (s : State) (f : GatherF) : Option Nat :=
  (s.coll.gets.find? (fun g => g.collId == f.collId)).bind (fun g =>
    (s.findCmd g.cmd).map (fun c => gatherDest s c g f.plane f.shard + f.offset))

/-- A REFUSE that answers a SHARD_REQ of this module (R340). -/
def State.shardRefusal (s : State) (f : GatherF) : Bool := f.kind == 2 && s.coll.gets.any (fun g => g.collId == f.collId)

/-- What a GATHER frame reads or writes here is held for now, or its tile's ingress holds it (R21, R24, R205, R222, R379,
R386). -/
def State.gatherHeld (s : State) (port : Nat) (f : GatherF) : Bool :=
  if f.kind < 3 && !s.shardRefusal f then s.ingressHeld f.collId
  else if f.kind = 4 then s.landHeld port ((s.shardKey f).toList.map (fun k => (k, f.payload.length)))
  else false

/-- GATHER_FRAME (R336, R338). -/
def execGatherFrame (dt : Nat) (port : Fin 24) (hdr : FrameHdr) (f : GatherF) (s : State) : Result :=
  let s := s.advance dt
  if hdr.dstModule == s.conf.address && s.gatherHeld port f then s.idle
  else s.receive port hdr (.gather f) true (fun s =>
    if hdr.dstModule != s.conf.address then s.forwardRank port hdr (.gather f) f.dstRank
    else if f.kind = 3 then s.takeShardReq port hdr f
    else if f.kind = 4 then s.takeShardData port hdr.poison f
    else if s.shardRefusal f then
      (match s.coll.gets.find? (fun g => g.collId == f.collId) with
       | some g => s.endGet g.cmd (refuseStatus f.status)
       | none => s)
    else s.takeTreeGather port hdr.poison f)

/-- A hold accepted, or renewed by the same REQ_ID (R238, R387). -/
def VSlot.hold (x : VSlot) (m : W16) (reqId expiry : Nat) : VSlot :=
  { x with holds := x.holds.filter (fun h => !(h.1 == m && h.2.1 == reqId)) ++ [(m, reqId, expiry)] }

/-- SHARD_FRAME (R238, R339). -/
def execShardFrame (dt : Nat) (port : Fin 24) (hdr : FrameHdr) (f : ShardF) (s : State) : Result :=
  let s := s.advance dt
  s.receive port hdr (.shard f) true (fun s =>
    if hdr.dstModule ≠ s.conf.address then s.forwardRank port hdr (.shard f) f.dstRank
    else if f.epoch ≠ s.commit.layoutEpoch then s.swDiscard (port / 4)
    else
      let l := s.layer f.layer
      let answer (kind : Nat) (s : State) : State :=
        match s.rankOf hdr.srcModule with
        | none => s.swDiscard (port / 4)
        | some r => s.sendShard kind f.layer f.serial f.reqId r
      if f.kind = 0 then
        (match l.holdIdx f.serial hdr.srcModule f.reqId with
         | some i => answer 2 (s.modVSlot f.layer i (fun x => x.hold hdr.srcModule f.reqId (s.tide + 100000000)))
         | none => if l.defined && serialNewer f.serial l.newest then s else answer 3 s)
      else if f.kind = 1 then
        (match l.holdIdx f.serial hdr.srcModule f.reqId with
         | some i => (s.modVSlot f.layer i (fun x =>
             { x with holds := x.holds.filter (fun h => !(h.1 == hdr.srcModule && h.2.1 == f.reqId)) })).retire f.layer
         | none => s)
      else
        let mine := s.coll.holdReqs.filter (fun h => h.reqId == f.reqId && h.layer == f.layer && h.serial == f.serial)
        if f.kind = 2 then
          let r := s.rankOf hdr.srcModule
          let s := { s with coll := { s.coll with holdReqs := s.coll.holdReqs.map (fun (x : HoldReq) =>
            if x.reqId == f.reqId then
              { x with waiting := x.waiting.filter (fun w => some w != r), acked := x.acked ++ r.toList }
            else x) } }
          mine.foldl (fun st h => st.settleHolds h.cmd) s
        else mine.foldl (fun st h => match st.findCmd h.cmd with
          | some c => st.failHolds c .versionGone f.layer
          | none => st) s)

/-- Where the DATA of a shift lands. -/
def State.shiftKey (s : State) (f : SeqF) : Option Nat :=
  (((s.coll.shifts.find? (fun h => h.collId == f.collId)).bind (·.cmd)).bind s.findCmd).map (fun c =>
    s.gatDest (gatP c) + f.offset)

/-- SEQ_FRAME (R337). -/
def execSeqFrame (dt : Nat) (port : Fin 24) (hdr : FrameHdr) (f : SeqF) (s : State) : Result :=
  let s := s.advance dt
  if f.kind != 0 && s.landHeld port ((s.shiftKey f).toList.map (fun k => (k, f.payload.length))) then s.idle
  else s.receive port hdr (.seq f) true (fun s =>
    let found := s.coll.shifts.find? (fun h => h.collId == f.collId)
    let cmd := (found.bind (·.cmd)).bind s.findCmd
    if f.kind = 0 then
      (match found, cmd with
       | none, _ => { s with coll := { s.coll with shifts := s.coll.shifts ++
           [({ collId := f.collId, grants := [port.val] } : Shift)] } }
       | some _, none => s.modShift f.collId (fun h => { h with grants := h.grants ++ [port.val] })
       | some _, some c => (s.modShift f.collId (fun h => { h with grants := h.grants ++ [port.val] })).runShift c)
    else match cmd with
      | none => s
      | some c =>
        let p := gatP c
        if p.prev = port.val && decide (f.offset + f.payload.length ≤ p.seg) then
          let s := s.landPayload (s.gatDest p + f.offset) f.payload hdr.poison
          (s.modShift f.collId (fun h => { h with got := h.got + f.payload.length })).runShift c
        else s)

/-! ### COLL_PERMUTE (R341 to R346) -/

/-- A segment entry of SEND_LIST or RECV_LIST (R341). -/
def segEntry (s : State) (key i : Nat) : Nat × Nat × Nat × Nat :=
  let e := s.read (key + 32 * i) 32
  (fieldAt e 0 1, fieldAt e 2 2, fieldAt e 8 8, fieldAt e 16 8)

def permSpaces : List Nat := [2, 4, 5]

/-- A segment entry names memory that exists, or a defined sharded layer (R341). -/
def State.segOk (s : State) (e : Nat × Nat × Nat × Nat) : Bool :=
  let (kind, layer, addr, bytes) := e
  if kind = 0 then s.inSpace permSpaces none addr bytes
  else kind == 1 && decide (layer < 4096) && (s.layer layer).defined && decide (1 < (s.layer layer).shards)

/-- The permutation's entries. -/
def permEntries (s : State) (key n : Nat) : List Nat := (List.range n).map (fun i => s.readNat (key + 2 * i) 2)

def isPermutation (xs : List Nat) : Bool := (List.range xs.length).all (fun i => xs.contains i)

/-- The checks of COLL_PERMUTE (R341, R465). -/
def permChecks (s : State) (c : Cmd) : List (Bool × Nat × Status) :=
  let newEpoch : W16 := BitVec.ofNat 16 (c.param 0 2)
  let e := s.commit.layoutEpoch
  let n := c.param 2 2
  let segs := c.param 4 1
  let t := c.param 0x20 4
  let perm := s.resolve permSpaces none (c.param 8 8) (2 * n)
  let listOk (off : Nat) : Bool :=
    segs == 0 || (match s.resolve permSpaces none (c.param off 8) (32 * segs) with
      | none => false
      | some key => (List.range segs).all (fun i => s.segOk (segEntry s key i)))
  [(serialNewer newEpoch e, 0, .epochStale), (newEpoch == e + 1, 0, .badParam),
   (n == s.coll.nRanks, 2, .badParam),
   (perm.isSome && isPermutation (permEntries s (perm.getD 0) n) && decide (s.coll.ownRank < n), 8, .badParam),
   (listOk 0x10, 0x10, .badParam), (listOk 0x18, 0x18, .badParam),
   (decide (1 ≤ t) && decide (t ≤ 60000000), 0x20, .badParam)] ++
  (reservedFail c 128 [(0, 5), (8, 0x1C)]).map (fun x => (x.1, x.2, Status.badParam))

def State.modPermute (s : State) (f : Permute → Permute) : State :=
  { s with coll := { s.coll with permute := s.coll.permute.map f } }

def State.modSeg (s : State) (i : Nat) (f : Segment → Segment) : State :=
  s.modPermute (fun p => { p with segs := listMod p.segs i f })

/-- The rank to which this module's shard moves (R342). -/
def Permute.target (p : Permute) (own : Nat) : Nat := p.perm.getD own own

/-- The layer of a WORK segment may be sent: no WRITING or PROVISIONAL version (R342). -/
def State.layerSettled (s : State) (l : Nat) : Bool := !(s.layer l).hasProvisional

/-- A segment or plane sent as SEGMENT frames (R346). -/
def State.sendSegment (s : State) (p : Permute) (i plane key total : Nat) (serial : W16) : State :=
  let own := s.coll.ownRank
  (payloadParts total).foldl (fun st part =>
    st.sendToRank (p.target own) (st.poisoned (key + part.1) part.2)
      (.permute { newEpoch := p.newEpoch, plane := plane, dstRank := p.target own, fromRank := own, seg := i,
                  offset := part.1, payload := st.read (key + part.1) part.2, total := total, serial := serial })) s

/-- The segments of a starting permute that move at once: RAW ones, and WORK ones that stay in place (R342). -/
def State.startSegment (s : State) (i : Nat) (g : Segment) : State :=
  match s.coll.permute with
  | none => s
  | some p =>
    let stays := p.target s.coll.ownRank == s.coll.ownRank
    if stays then
      let s := if g.work || g.recvWork then s else s.copy g.sendAddr g.recvAddr g.sendBytes
      s.modSeg i (fun g => { g with sent := true, received := true })
    else if g.work then s
    else (s.sendSegment p i 0 g.sendAddr g.sendBytes 0).modSeg i (fun g =>
      { g with sent := true, received := !g.recvWork && g.recvBytes == 0 })

/-- The planes of a received WORK segment are whole. -/
def segWhole (l : Layer) (g : Segment) : Bool :=
  decide (l.workBytes ≤ g.got) && (!fmtIsMx l.workFmt || decide (l.scaleBytes ≤ g.gotScale))

/-- The highest-numbered FREE version slot (R342). -/
def Layer.highFree (l : Layer) : Option Nat := (List.range 8).reverse.find? (fun i => (l.slot i).state == .free)

/-- A SEGMENT frame of a RAW segment (R342). -/
def State.takeRaw (s : State) (f : PermuteF) (poison : Bool) (g : Segment) : State :=
  if f.total ≠ g.recvBytes then
    s.sendToRank f.fromRank false
      (.permute { newEpoch := f.newEpoch, kind := 1, status := Status.code .faulted, dstRank := f.fromRank,
                  fromRank := s.coll.ownRank, seg := f.seg })
  else
    let s := s.landPayload (g.recvAddr + f.offset) f.payload poison
    s.modSeg f.seg (fun g =>
      let got := g.got + f.payload.length
      { g with got := got, received := decide (f.total ≤ got) })

/-- The version slot of an incoming WORK segment: its own, else the one that another segment of the layer made
RECEIVING, since a layer has at most one (R224), else the highest-numbered FREE one (R342). -/
def Layer.recvSlot (l : Layer) (g : Segment) : Option Nat := (g.slot.or (l.stateIdx .receiving)).or l.highFree

/-- A SEGMENT frame of a WORK segment: its slot is RECEIVING from the first frame on; a new serial starts it again
(R342). Without a FREE slot the frame is held. -/
def State.takeWork (s : State) (f : PermuteF) (poison : Bool) (g : Segment) : State :=
  let l := s.layer g.recvLayer
  match l.recvSlot g with
  | none => s.modPermute (fun p => { p with held := p.held ++ [(f, poison)] })
  | some i =>
    let again := g.slot.isNone || (l.slot i).serial != f.serial
    let s := if again then
        ((s.modVSlot g.recvLayer i (fun _ => { serial := f.serial, state := .receiving, epoch := f.newEpoch })).tickUpdates).modSeg f.seg
          (fun g => { g with slot := some i, got := 0, gotScale := 0, received := false })
      else s
    let s := s.landPayload ((if f.plane = 0 then l.workOf i else l.scaleOf i) + f.offset) f.payload poison
    s.modSeg f.seg (fun g =>
      let n := f.payload.length
      let g := if f.plane = 0 then { g with got := g.got + n } else { g with gotScale := g.gotScale + n }
      { g with received := segWhole l g })

def State.takeSegment (s : State) (f : PermuteF) (poison : Bool) : State :=
  match s.coll.permute with
  | none => s
  | some p =>
    match p.segs[f.seg]? with
    | none => s.swDiscard 0
    | some g => if g.recvWork then s.takeWork f poison g else s.takeRaw f poison g

/-- WORK frames held for want of a FREE slot are tried again (R342). -/
def State.retryHeld (s : State) : State :=
  match s.coll.permute with
  | none => s
  | some p => p.held.foldl (fun st f => st.takeSegment f.1 f.2) (s.modPermute (fun p => { p with held := [] }))

/-- What a segment entry names lies on no die that is out of service (R205). -/
def State.segServed (s : State) (e : Nat × Nat × Nat × Nat) : Bool :=
  let (kind, layer, addr, _) := e
  let l := s.layer layer
  if kind = 0 then s.keyServed addr
  else s.keyServed l.workAddr.toNat && (!fmtIsMx l.workFmt || s.keyServed l.scaleAddr.toNat)

/-- The permutation, the lists and their segments lie on no die that is out of service (R205). -/
def State.permServed (s : State) (c : Cmd) : Bool :=
  let list (off : Nat) : Bool :=
    let key := (s.resolve permSpaces none (c.param off 8) 0).getD 0
    s.keyServed key && (List.range (c.param 4 1)).all (fun i => s.segServed (segEntry s key i))
  s.keyServed (c.param 8 8) && (c.param 4 1 == 0 || (list 0x10 && list 0x18))

/-- A segment that this module sends to itself: its two BYTES are equal (R342). -/
def Segment.fits (g : Segment) : Bool := g.work || g.recvWork || g.sendBytes == g.recvBytes

/-- What is sent to a rank is held for now, as the I/O die of its port reaches it (R21, R24, R205, R222, R379). -/
def State.sendStops (s : State) (rank key n : Nat) : Bool :=
  match s.rankPort rank with
  | some p => s.landHeld p [(key, n)]
  | none => s.ownStops key n

/-- What a permute reads and copies at its start is held for now: its lists, the segments that it copies in place, and the
RAW ones that it sends (R21, R24, R205, R222, R379). -/
def State.permHeldNow (s : State) (c : Cmd) (p : Permute) : Bool :=
  let target := p.target s.coll.ownRank
  s.ownStops (c.param 8 8) (2 * c.param 2 2) || s.ownStops (c.param 0x10 8) (32 * p.segs.length) ||
    s.ownStops (c.param 0x18 8) (32 * p.segs.length) ||
    p.segs.any (fun g => !g.work && (
      if target = s.coll.ownRank then !g.recvWork && s.copyStops g.sendAddr g.recvAddr g.sendBytes
      else s.sendStops target g.sendAddr g.sendBytes))

/-- COLL_PERMUTE (R205, R341, R342); its start comes once nothing that it reads is held (log 64). -/
def execCollPermute (dt : Nat) (s : State) : Result :=
  let s := s.advance dt
  match s.take 0 0x52 with
  | none => s.idle
  | some (c, s') =>
    let before := s
    let s := s'
    match lowestFailSt (permChecks s c) with
    | some (o, st) => .next (s.complete c st (if st = .badParam then 64 + o else 0) [])
    | none =>
      if s.coll.permute.isSome then .next (s.complete c .busy 0 [])
      else if !s.permServed c then .next (s.complete c .faulted 0 [])
      else
        let segs := c.param 4 1
        let key (off : Nat) : Nat := (s.resolve permSpaces none (c.param off 8) 0).getD 0
        let seg (i : Nat) : Segment :=
          let a := segEntry s (key 0x10) i
          let b := segEntry s (key 0x18) i
          { work := a.1 == 1, sendLayer := a.2.1, sendAddr := a.2.2.1, sendBytes := a.2.2.2, recvWork := b.1 == 1,
            recvLayer := b.2.1, recvAddr := b.2.2.1, recvBytes := b.2.2.2 }
        let p : Permute :=
          { cmd := c.ref, newEpoch := BitVec.ofNat 16 (c.param 0 2), perm := permEntries s (key 8) (c.param 2 2),
            segs := (List.range segs).map seg, deadline := s.tide + 1000 * c.param 0x20 4 }
        let stays := p.target s.coll.ownRank == s.coll.ownRank
        if s.permHeldNow c p then before.idle
        else if stays && !p.segs.all Segment.fits then .next (s.complete c .faulted 0 [])
        else
        let held := s.coll.permHeld.filter (fun f => f.1.newEpoch == p.newEpoch)
        let s := { s with coll := { s.coll with permute := some p, permHeld := [] } }
        let s := s.setWait c.ref .permute (some p.deadline)
        let s := p.segs.zipIdx.foldl (fun st g => st.startSegment g.2 g.1) s
        .next (held.foldl (fun st f => st.takeSegment f.1 f.2) s)

/-- PERMUTE_WORK_SEND (R342): a WORK segment is sent once its layer is settled, and again after a newer commit. What an
incoming WORK segment holds for want of a FREE slot is tried again too. -/
def execPermuteWorkSend (dt seg : Nat) (s : State) : Result :=
  let s := (s.advance dt).retryHeld
  match s.coll.permute with
  | none => s.idle
  | some p =>
    match p.segs[seg]? with
    | none => s.idle
    | some g =>
      let l := s.layer g.sendLayer
      match l.stateIdx .current with
      | none => s.idle
      | some i =>
        let serial := (l.slot i).serial
        if !g.work || p.target s.coll.ownRank == s.coll.ownRank || !s.layerSettled g.sendLayer ||
            (g.sent && g.sentSerial == serial) ||
            (l.planes i).any (fun pl => s.sendStops (p.target s.coll.ownRank) pl.2.1 pl.2.2) then s.idle
        else
          let s := (l.planes i).foldl (fun st pl => st.sendSegment p seg pl.1 pl.2.1 pl.2.2 serial) s
          .next (s.modSeg seg (fun g => { g with sent := true, sentSerial := serial }))

/-- A frame of the permute is still queued on some port. -/
def State.permuteQueued (s : State) : Bool :=
  s.ports.any (fun e => e.2.queue.any (fun f => match f.body with
    | .permute q => q.fromRank == s.coll.ownRank && f.hdr.srcModule == s.conf.address
    | _ => false))

/-- Ready for the switch (R343). -/
def State.permuteReady (s : State) : Bool :=
  match s.coll.permute with
  | none => false
  | some p =>
    p.segs.all (fun g => g.sent && g.received && (!g.work || s.layerSettled g.sendLayer) &&
      (!g.recvWork || s.layerSettled g.recvLayer)) && p.held.isEmpty && !s.permuteQueued &&
      s.coll.ctxs.all (fun c => c.epoch != s.commit.layoutEpoch)

/-- The RECEIVING slots of a permute become FREE (R344). -/
def State.freeReceiving (s : State) (p : Permute) : State :=
  p.segs.foldl (fun st g => match g.slot with
    | none => st
    | some i => st.modLayer g.recvLayer (fun l => { l with slots := tabDel l.slots i })) s

/-- PERMUTE_TIMEOUT (R344). -/
def execPermuteTimeout (dt : Nat) (s : State) : Result :=
  let s := s.advance dt
  match s.coll.permute with
  | none => s.idle
  | some p =>
    if p.contributed || decide (s.tide < p.deadline) then s.idle
    else match s.findCmd p.cmd with
      | none => s.idle
      | some c =>
        let s := s.freeReceiving p
        .next (({ s with coll := { s.coll with permute := none } } : State).complete c .deferred 0 [])

/-- Where a SEGMENT frame lands, as far as its segment is known. -/
def State.segmentRange (s : State) (f : PermuteF) : List (Nat × Nat) :=
  match s.coll.permute.bind (fun p => p.segs[f.seg]?) with
  | none => []
  | some g =>
    let l := s.layer g.recvLayer
    let key := if !g.recvWork then some g.recvAddr
      else (l.recvSlot g).map (fun i => if f.plane = 0 then l.workOf i else l.scaleOf i)
    key.toList.map (fun k => (k + f.offset, f.payload.length))

/-- PERMUTE_FRAME (R342, R346). -/
def execPermuteFrame (dt : Nat) (port : Fin 24) (hdr : FrameHdr) (f : PermuteF) (s : State) : Result :=
  let s := s.advance dt
  if hdr.dstModule == s.conf.address && s.landHeld port (s.segmentRange f) then s.idle
  else s.receive port hdr (.permute f) true (fun s =>
    if hdr.dstModule ≠ s.conf.address then s.forwardRank port hdr (.permute f) f.dstRank
    else match s.coll.permute with
      | none =>
        if f.kind = 0 && f.newEpoch == s.commit.layoutEpoch + 1 then
          { s with coll := { s.coll with permHeld := s.coll.permHeld ++ [(f, hdr.poison)] } }
        else s.swDiscard (port / 4)
      | some p =>
        if f.newEpoch ≠ p.newEpoch then s.swDiscard (port / 4)
        else if f.kind = 0 then s.retryHeld.takeSegment f hdr.poison
        else
          let s := s.freeReceiving p
          ({ s with coll := { s.coll with permute := none } } : State).finish p.cmd (refuseStatus f.status) 0 [])

/-- The layer after the switch: its incoming slot becomes CURRENT (R344). -/
def Layer.switchTo (l : Layer) (tide : Nat) (slot : Option Nat) (epoch : W16) (rank : Nat) : Layer :=
  let l := { l with ownShard := rank }
  match slot with
  | none => l
  | some i =>
    let l := l.supersede tide
    let x := l.slot i
    { l with
      newest := if serialNewer x.serial l.newest then x.serial else l.newest
      slots := tabSet l.slots i { x with state := .current, epoch := epoch } }

/-- Slot and layer of each incoming WORK segment. -/
def Permute.incoming (p : Permute) (layer : Nat) : Option Nat :=
  (p.segs.find? (fun g => g.recvWork && g.recvLayer == layer && g.slot.isSome)).bind (·.slot)

/-- The CURRENT slot of a WORK segment that stays in place takes the new epoch (R342, R344). -/
def Layer.stay (l : Layer) (epoch : W16) : Layer :=
  { l with slots := l.slots.map (fun e => if e.2.state = .current then (e.1, { e.2 with epoch := epoch }) else e) }

/-- The layout switch at a step close (R344, R53). -/
def State.layoutSwitch (s : State) (tide : Nat) : State :=
  match s.coll.permute with
  | none => s
  | some p =>
    let old := s.coll.ownRank
    let rank := (p.perm.zipIdx.find? (fun x => x.1 == old)).map (·.2) |>.getD old
    let map := s.coll.shardMap
    let newMap := ((List.range p.perm.length).map (fun r => (r, tabGet {} map (p.perm.getD r r)))) ++
      map.filter (fun e => decide (p.perm.length ≤ e.1))
    let named (l : Nat) : Bool := p.segs.any (fun g => g.recvWork && g.recvLayer == l)
    let layers := s.layers.map (fun e =>
      if e.2.defined && decide (1 < e.2.shards) then
        (e.1, let l := e.2.switchTo tide (p.incoming e.1) p.newEpoch rank
              if named e.1 && (p.incoming e.1).isNone then l.stay p.newEpoch else l)
      else e)
    let s := { s with
      layers := layers
      commit := { s.commit with layoutEpoch := p.newEpoch, lastCommitTide := max s.commit.lastCommitTide tide }
      coll := { s.coll with shardMap := newMap, ownRank := rank, permute := none } }
    let s := (layers.map (·.1)).foldl (fun st l => st.retire l) s
    match s.findCmd p.cmd with
    | none => s
    | some c => s.complete c .ok 0 (bodyOf [(0, 2, p.newEpoch.toNat), (2, 2, rank), (8, 8, tide)])

/-! ### Context leases (R387, R388) -/

/-- CONTEXT_LEASE_EXPIRY: the context closes, REFUSE with FAULTED is sent, the command completes with TIMEOUT; a ring
shift, which has no context, ends at its own TIMEOUT. -/
def execContextLeaseExpiry (dt : Nat) (tile : Fin 6) (collId : W32) (s : State) : Result :=
  let s := s.advance dt
  match s.coll.ctxs.find? (fun c => c.tile == tile.val && c.collId == collId && decide (c.lease ≤ s.tide)) with
  | some x =>
    if s.tilePaused tile then s.idle
    else
      let body := if x.kind = 0 then x.redBody else if x.kind = 1 then x.gatBody else []
      let s := (({ x with cmd := none } : CollCtx) |> fun y => (s.refuseColl y .faulted none []).closeColl y)
      let s := match x.cmd with
        | some ref => s.finish ref .timeout 0 body
        | none => s
      .next (s.logRec 0 0x0080 sevWarning x.lease 1 collId.toNat)
  | none =>
    match s.coll.shifts.find? (fun h => h.collId == collId) with
    | none => s.idle
    | some h =>
      match h.cmd.bind s.findCmd with
      | none => s.idle
      | some c =>
        if s.due c.deadline then .next ((s.dropShift collId).finish c.ref .timeout 0 (bodyOf [(0, 8, h.got)])) else s.idle

/-- Whether a tree's entry is used by an open context. -/
def State.treeInUse (s : State) (t : Nat) : Bool := s.coll.ctxs.any (fun c => c.collId.toNat % 64 == t)

/-! ### Registers (15) -/

def State.treeWord (s : State) (t : Nat) : Nat :=
  let e := tabGet {} s.coll.trees t
  e.parent + e.children.toNat * 2 ^ 8 + b2n e.valid * 2 ^ 32 + b2n (s.treeInUse t) * 2 ^ 33

def shardSelfWord (s : State) : Nat := s.coll.ownRank + s.coll.nRanks * 2 ^ 16

def permuteWord (s : State) : Nat :=
  match s.coll.permute with
  | none => 0
  | some p =>
    1 + 2 * b2n s.permuteReady + (p.segs.filter (·.sent)).length % 256 * 2 ^ 8 +
      (p.segs.filter (·.received)).length % 256 * 2 ^ 16 + p.newEpoch.toNat * 2 ^ 32

def ShardRoute.word (m : ShardRoute) : Nat := m.module.toNat + m.port * 2 ^ 16 + b2n m.valid * 2 ^ 32

/-- The switch block of an I/O die. -/
def State.tileWord (s : State) (x off : Nat) : Nat :=
  let t := s.tile x
  if s.nIoDies ≤ x then 0
  else if off = 0x00 then s.openOn x + b2n t.inService * 2 ^ 8 + low32 t.lastFault * 2 ^ 32
  else if off = 0x08 then t.saturations
  else if off = 0x10 then t.flagged + t.poisoned * 2 ^ 32
  else if off = 0x18 then t.stale + t.busy * 2 ^ 32
  else if off = 0x20 then t.discard
  else if off = 0x28 then t.blocks
  else 0

/-- Registers at 0x0040_8000 to 0x0041_1FFF, by their offset from 0x0040_8000. -/
def State.switchWord (s : State) (off : Nat) : Nat :=
  if off < 0x200 then s.treeWord (off / 8)
  else if off = 0x400 then shardSelfWord s
  else if off = 0x408 then permuteWord s
  else if 0x1000 ≤ off && off < 0x1600 then s.tileWord ((off - 0x1000) / 0x100) (off % 0x100)
  else if 0x2000 ≤ off && off < 0xA000 then (tabGet ({} : ShardRoute) s.coll.shardMap ((off - 0x2000) / 8)).word
  else 0

/-- SHARD_SELF and SHARD_MAP take writes only while no sharded layer is defined and no permute is pending. -/
def State.shardOpen (s : State) : Bool :=
  s.layers.all (fun e => !(e.2.defined && decide (1 < e.2.shards))) && s.coll.permute.isNone

/-- A write to these registers; `none` where it is discarded. -/
def State.writeSwitch (s : State) (off size : Nat) (value : W64) : Option State :=
  let (reg, v, mask) := regPart off size value
  let new := (maskedWrite (BitVec.ofNat 64 (s.switchWord reg)) v mask).toNat
  if reg < 0x200 then
    (if s.treeInUse (reg / 8) then none
     else
      let t : Tree := { parent := bits new 0 5, children := BitVec.ofNat 24 (bits new 8 24), valid := new.testBit 32 }
      some { s with coll := { s.coll with trees := tabSet s.coll.trees (reg / 8) t } })
  else if reg = 0x400 then
    (if s.shardOpen then some { s with coll := { s.coll with ownRank := bits new 0 16, nRanks := bits new 16 16 } } else none)
  else if 0x2000 ≤ reg && reg < 0xA000 then
    (if s.shardOpen then
      let m : ShardRoute := { module := BitVec.ofNat 16 (bits new 0 16), port := bits new 16 5, valid := new.testBit 32 }
      some { s with coll := { s.coll with shardMap := tabSet s.coll.shardMap ((reg - 0x2000) / 8) m } }
     else none)
  else none

end Sys2Proof.Machine
end

