-- ==== Sys2Proof/Machine/Verdict.lean ====
section
/-! DEFINITION. The step verdict, the loss scale and the step close (13, R283 to R290; R333). -/

namespace Sys2Proof.Machine

/-! ### LOSS_SCALE_SET (R283 to R285) -/

/-- LOSS_SCALE_SET registers a change for the next close. -/
def execLossScaleSet (dt : Nat) (s : State) : Result :=
  let s := s.advance dt
  match s.take 0 0x44 with
  | none => s.idle
  | some (c, s) =>
    let e := signed 8 (c.param 0 1)
    let flags := c.param 1 1
    let n := c.param 4 4
    match lowestFail ([(!flags.testBit 0 || (decide (-24 ≤ e) && decide (e ≤ 24)), 0), (decide (flags < 8), 1),
        (!flags.testBit 1 || (decide (1 ≤ n) && decide (n ≤ 1000000)), 4)] ++ reservedFail c 64 [(0, 2), (4, 4)]) with
    | some o => .next (s.badParam c o)
    | none =>
      let s := { s with step := { s.step with
        pendValid := true
        pendExp := if flags.testBit 0 then some e else none
        pendInterval := if flags.testBit 1 then some (BitVec.ofNat 32 n) else none
        pendReset := flags.testBit 2 } }
      .next (s.complete c .ok 0 [])

/-- EXP and CLEAN after a close, before a pending change (R283). -/
def closeScale (st : StepSt) (committed halve : Bool) : Int × W32 :=
  if committed then
    (if st.interval ≤ st.clean + 1 then (min (st.exp + 1) 24, 0) else (st.exp, st.clean + 1))
  else if halve then (max (st.exp - 1) (-24), 0)
  else (st.exp, st.clean)

/-- The step's record after a close: loss scale (R283, R285), both bits and the verdict cleared (R286, R289). -/
def StepSt.closed (st : StepSt) (committed halve : Bool) : StepSt :=
  let (e, c) := closeScale st committed halve
  { exp := st.pendExp.getD e
    interval := st.pendInterval.getD st.interval
    clean := if st.pendReset then 0 else c
    lastUpdate := st.lastUpdate }

/-! ### The verdict (R286, R287, R333) -/

/-- The STEP_VERDICT that waits for the job's verdict. -/
def State.verdictCmd (s : State) : Option Cmd :=
  (s.ring 0).cmds.find? (fun c => c.opcode == 0x41 && c.work == .waiting .verdict)

/-- BODY of STEP_VERDICT (R287). -/
def verdictBody (c : Cmd) (nonfinite abort : Bool) (tide : Nat) : List Byte :=
  bodyOf [(0, 1, b2n nonfinite + 2 * b2n abort + 4 * c.aux.getD 0 0 + 8 * c.aux.getD 1 0), (4, 4, c.param 0 4), (8, 8, tide)]

/-- The job's verdict arrives (R287, R333, R344). -/
def State.verdictArrives (s : State) (f : VerdictF) : State :=
  match s.verdictCmd with
  | none => s
  | some c =>
    let s := { s with
      step := { s.step with
        arrived := true, jobNonfinite := f.nonfinite, jobAbort := f.abort, permReady := f.permReady,
        permEpoch := f.newEpoch }
      commit := { s.commit with verdicts := (s.commit.stepNumber, s.tide) :: s.commit.verdicts } }
    let s := if f.permReady then s else s.modPermute (fun p => { p with contributed := false })
    let st := if f.nonfinite then Status.nonfinite else if f.abort then .aborted else .ok
    s.finish c.ref st 0 (verdictBody c f.nonfinite f.abort s.tide)

/-- The OR and AND of the contributions (R333). -/
def VerdictF.join (a b : VerdictF) : VerdictF :=
  { a with
    nonfinite := a.nonfinite || b.nonfinite, abort := a.abort || b.abort
    permPending := a.permPending || b.permPending, permReady := a.permReady && b.permReady
    newEpoch := if a.newEpoch = 0 then b.newEpoch else a.newEpoch, contrib := a.contrib + b.contrib }

/-- The node's own contribution and its children's go up once all are there; the root turns them round (R333). -/
def State.vote (s : State) : State :=
  match s.step.sampled with
  | none => s
  | some (nonfinite, abort, pend, ready) =>
    let v := s.view s.step.collId
    let ups := v.kids.map (fun p => (tabFind s.step.ups p).filter (fun f => f.collId == s.step.collId))
    if s.ingressHeld s.step.collId || !(ups.all (·.isSome)) then s
    else
      let own : VerdictF :=
        { collId := s.step.collId, step := s.commit.stepNumber, nonfinite := nonfinite, abort := abort, permPending := pend,
          permReady := ready, contrib := 1,
          newEpoch := if ready then (s.coll.permute.map (·.newEpoch)).getD 0 else 0 }
      let f := (ups.filterMap id).foldl VerdictF.join own
      let s := { s with step := { s.step with sampled := none } }
      match v.parent with
      | some q => s.sendTree q (.verdict { f with down := false })
      | none => (s.sendPorts v.kids (.verdict { f with down := true })).verdictArrives f

/-- STEP_VERDICT (R286, R287). -/
def execStepVerdict (dt : Nat) (s : State) : Result :=
  let s := s.advance dt
  match s.take 0 0x41 with
  | none => s.idle
  | some (c, s) =>
    let id : W32 := BitVec.ofNat 32 (c.param 8 4)
    match lowestFail ([(c.param 0 4 == s.commit.stepNumber.toNat, 0), (decide (c.param 4 1 < 2), 4),
        (s.treeOk id voteRoles, 8)] ++ reservedFail c 64 [(0, 5), (8, 8)]) with
    | some o => .next (s.badParam c o)
    | none =>
      if s.step.started then .next (s.complete c .busy 0 [])
      else
        let t := c.param 0x0C 4
        let s := if (c.param 4 1).testBit 0 then s.requestAbort else s
        let ready := s.permuteReady
        let s := s.modPermute (fun p => { p with contributed := ready })
        let s := { s with step := { s.step with
          started := true
          collId := id
          sampled := some (s.step.localNonfinite, s.step.localAbort, s.coll.permute.isSome, ready) } }
        let s := s.tickUpdates
        let s := s.modCmd c.ref (fun c => { c with aux := [b2n s.step.localNonfinite, b2n s.step.localAbort] })
        .next ((s.setWait c.ref .verdict (if t = 0 then none else some (s.tide + 1000 * t))).vote)

/-- VERDICT_FRAME (R333); ingress holds it while its tile recovers or no route leads to it (R21, R386). -/
def execVerdictFrame (dt : Nat) (port : Fin 24) (hdr : FrameHdr) (f : VerdictF) (s : State) : Result :=
  let s := s.advance dt
  if s.ingressHeld f.collId then s.idle
  else s.receive port hdr (.verdict f) true (fun s =>
    let v := s.view f.collId
    let up := !f.down && v.kids.contains port.val
    let down := f.down && v.parent == some port.val
    if !(tabGet {} s.coll.trees (f.collId.toNat % 64)).valid || f.step != s.commit.stepNumber || !(up || down) then
      s.swDiscard v.tile
    else if up then
      ({ s with step := { s.step with ups := tabSet s.step.ups port f } } : State).vote
    else (s.sendPorts v.kids (.verdict f)).verdictArrives f)

/-! ### The close (R289) -/

/-- A layer at a step close (R226, R228, R268, R289). -/
def Layer.close (l : Layer) (committed running : Bool) (step : W32) (tide : Nat) : Layer :=
  let l := if committed && l.prov then
      let l := l.supersede tide
      { l with
        slots := l.slots.map (fun e => if e.2.state = .provisional then (e.1, { e.2 with state := .current }) else e)
        stateSel := !l.stateSel, lastCommit := step, skimPending := running }
    else l
  { l with
    slots := l.slots.filter (fun e => e.2.state != .writing && e.2.state != .provisional)
    prov := false, failed := false, partsDone := 0, partsTotal := none, parts := [] }

/-- The skim records of a commit (R291). -/
def skimParts (s : State) : List SkimPart :=
  (s.layers.filter (fun e => e.2.prov)).flatMap (fun e =>
    let serial := ((e.2.stateIdx .provisional).map (fun i => (e.2.slot i).serial)).getD 0
    e.2.parts.map (fun p =>
      { layer := e.1, serial := serial, part := p.part, nstate := p.nstate, elemFirst := p.elemFirst,
        elemCount := p.elemCount, newSlot := if e.2.stateSel then p.state0 else p.state1,
        oldSlot := if e.2.stateSel then p.state1 else p.state0, die := p.die }))

def State.queueSkim (s : State) (parts : List SkimPart) (step : W32) : State :=
  if !s.skim.running then { s with skim := { s.skim with prevCommit := step } }
  else
    let base := s.skim.basePending
    let recs := .step base step (if base then 0xFFFFFFFF#32 else s.skim.prevCommit) s.step.exp s.step.clean
      s.step.interval parts.length :: parts.map (fun p => .part base p) ++ [.finish step]
    { s with skim := { s.skim with records := s.skim.records ++ recs, basePending := false, prevCommit := step } }

/-- A running part of the step at an abort: ABORTED, its engine stops, its writes are abandoned (R289). -/
def State.abortUpdate (s : State) (c : Cmd) : State :=
  let die := (updP c).die
  match (s.die die).engine with
  | some e =>
    if e.cmd = c.ref then (s.setEngine die none).complete c .aborted 0 (e.body false)
    else s.complete c .aborted 0 (s.waitBody c)
  | none => s.complete c .aborted 0 (s.waitBody c)

/-- Requests that waited for a version that an abort frees (R240, R340). -/
def State.dropVersionWaits (s : State) (layer : Nat) (serial : W16) : State :=
  let mine := s.coll.waits.filter (fun w => w.req.layer == layer && w.req.serial == serial)
  let s := { s with coll := { s.coll with
      waits := s.coll.waits.filter (fun w => !(w.req.layer == layer && w.req.serial == serial)) } }
  let s := mine.foldl (fun st w => st.refuseShard w.req .versionGone) s
  (s.coll.gets.filter (fun g => g.layer == layer && g.serial == serial)).foldl (fun st g => st.endGet g.cmd .versionGone) s

/-- Versions of the step that a close frees: layer and serial. -/
def State.openVersions (s : State) : List (Nat × W16) :=
  s.layers.flatMap (fun e =>
    (e.2.slots.filter (fun x => x.2.state == .writing || x.2.state == .provisional)).map (fun x => (e.1, x.2.serial)))

/-- WORK segments of a pending permute whose layer has committed are sent and received again (R342). -/
def State.resendSegments (s : State) (layers : List Nat) : State :=
  match s.coll.permute with
  | none => s
  | some p =>
    if p.target s.coll.ownRank == s.coll.ownRank then s
    else s.modPermute (fun p => { p with segs := p.segs.map (fun g => { g with
      sent := g.sent && !(g.work && layers.contains g.sendLayer)
      received := g.received && !(g.recvWork && layers.contains g.recvLayer) }) })

/-- The close of the open step, whole at its Tidemark (R289, R263, R226, R228, R283, R53). -/
def State.closeStep (s : State) (committed halve : Bool) (tide : Nat) : State :=
  let step := s.commit.stepNumber
  let s := match s.verdictCmd with
    | some c => s.complete c .aborted 0 (verdictBody c false false 0)
    | none => s
  let s := (s.allCmds.filter (fun c => s.updateOfStep c && c.live)).foldl (fun st c => st.abortUpdate c) s
  let permute := s.step.permReady
  let parts := if committed then skimParts s else []
  let s := if committed then (List.range 16).foldl (fun st k => st.commitCtx step k) s
    else
      let pinned := (List.range 16).map (fun k => (s.usedMbs k).filter (fun m => s.mbPinSpec (s.mb k m)))
      (List.range 16).foldl (fun st k => st.abortCtx step k (pinned.getD k [])) s
  let gone := if committed then [] else s.openVersions
  let provisional := (s.layers.filter (fun e => e.2.hasProvisional)).map (·.1)
  let flipped := (s.layers.filter (fun e => committed && e.2.prov)).map (·.1)
  let s : State := { s with
    layers := s.layers.map (fun (e : Nat × Layer) => (e.1, e.2.close committed s.skim.running step tide))
    dies := s.dies.map (fun (e : Nat × Die) =>
      (e.1, { e.2 with staging := e.2.staging.filter (fun x => !flipped.contains x.layer) }))
    step := s.step.closed committed halve
    commit := { s.commit with
      stepNumber := step + 1, lastStepClose := tide, lastCommitTide := max s.commit.lastCommitTide tide
      outcomes := ((step, committed) :: s.commit.outcomes).take 256 } }
  let s := (s.layers.map (·.1)).foldl (fun st l => st.retire l) s
  let s := gone.foldl (fun st g => st.dropVersionWaits g.1 g.2) s
  let s := if committed then s.queueSkim parts step else s
  let s := ((s.resendSegments flipped).voidSweeps flipped).closeSweeps provisional tide
  let s := if permute then s.layoutSwitch tide else (s.modPermute (fun p => { p with contributed := false })).retryHeld
  (s.hearPeers (fun _ => true)).tickUpdates

/-! ### Registers (13) -/

def lossScaleWord (s : State) : Nat :=
  unsigned 8 s.step.exp + unsigned 8 (s.step.pendExp.getD 0) * 2 ^ 8 + b2n s.step.pendValid * 2 ^ 16 + s.step.clean.toNat * 2 ^ 32

def lossIntervalWord (s : State) : Nat := s.step.interval.toNat + (s.step.pendInterval.getD 0).toNat * 2 ^ 32

def verdictWord (s : State) : Nat :=
  b2n s.step.localNonfinite + 2 * b2n s.step.localAbort + 4 * b2n s.step.started + 8 * b2n s.step.arrived +
    16 * b2n (s.step.arrived && s.step.jobNonfinite) + 32 * b2n (s.step.arrived && s.step.jobAbort) +
    s.commit.stepNumber.toNat * 2 ^ 32

end Sys2Proof.Machine
end

