-- ==== Sys2Proof/Machine/Skim.lean ====
section
/-! DEFINITION. The skim stream and TAKEOVER_LOAD (13, R291 to R295). -/

namespace Sys2Proof.Machine

/-! ### Records (R291) -/

/-- A 32-byte header closed by its CRC-32C. -/
def skimHeader (fields : List (Nat × Nat × Nat)) : List Byte :=
  let h := (bodyOf fields).take 28
  h ++ toBytes 4 (crc32c h)

/-- Bits that the largest word of a block needs. -/
def blockWidth (ws : List Nat) : Nat :=
  let m := ws.foldl max 0
  if m = 0 then 0 else m.log2 + 1

/-- A block of 32 words in its width byte and 4W bytes. A byte is poisoned where a word that it is formed from was read
as poisoned (R217, R314). -/
def skimBlock (ws : List (Nat × Bool)) : List (Byte × Bool) :=
  let w := blockWidth (ws.map (·.1))
  let marks := (List.range (4 * w)).map (fun j => (List.range 8).any (fun t => (ws.getD ((8 * j + t) / w) (0, false)).2))
  (toBytes 1 w).map (fun b => (b, ws.any (·.2))) ++ (packElems w (ws.map (·.1))).zip marks

/-- Word w of element i of a part, and whether it was read as poisoned: XOR of the new and the old slot, or the state
itself in a base record. -/
def skimWord (s : State) (base : Bool) (p : SkimPart) (w i : Nat) : Nat × Bool :=
  let off := 4 * (w * p.elemCount + i)
  let new := s.readNat (p.newSlot + off) 4
  (if base then new else new ^^^ s.readNat (p.oldSlot + off) 4,
   s.poisoned (p.newSlot + off) 4 || (!base && s.poisoned (p.oldSlot + off) 4))

/-- The padded body of a PART record. -/
def skimBody (s : State) (base : Bool) (p : SkimPart) : List (Byte × Bool) :=
  let raw := (List.range p.nstate).flatMap (fun w =>
    (List.range (p.elemCount / 32)).flatMap (fun b =>
      skimBlock ((List.range 32).map (fun i => skimWord s base p w (32 * b + i)))))
  raw ++ List.replicate (roundUp raw.length 8 - raw.length) (0, false)

/-- Bytes that the module forms, none of them from poison. -/
def cleanBytes (bs : List Byte) : List (Byte × Bool) := bs.map (fun b => (b, false))

/-- Bytes of a record; `pos` counts from the STEP header. -/
def skimBytes (s : State) (r : SkimRec) (pos : Nat) : List (Byte × Bool) :=
  match r with
  | .step base committed prev exp clean interval parts =>
    cleanBytes <| skimHeader [(0, 1, 1), (1, 1, b2n base), (4, 4, committed.toNat), (8, 4, prev.toNat), (12, 1, unsigned 8 exp),
      (16, 4, clean.toNat), (20, 4, interval.toNat), (24, 4, parts)]
  | .part base p =>
    let body := skimBody s base p
    let crc := toBytes 4 (crc32c (body.map (·.1)))
    cleanBytes (skimHeader [(0, 1, 2), (1, 1, p.nstate), (2, 2, p.layer), (4, 2, p.serial.toNat), (6, 2, p.part),
      (8, 4, p.elemFirst), (12, 4, p.elemCount), (16, 8, body.length)]) ++ body ++
      crc.map (fun b => (b, body.any (·.2))) ++ cleanBytes [0, 0, 0, 0]
  | .finish committed => cleanBytes (skimHeader [(0, 1, 3), (4, 4, committed.toNat), (8, 8, pos)])

/-- The slots that a record reads are held for now, as the die of its part reaches them, or the ring that it goes to is.
-/
def State.skimHeld (s : State) (r : SkimRec) : Bool :=
  (!s.skim.toPort && s.ownStops s.skim.ringAddr s.skim.ringBytes) ||
    (match r with
     | .part _ p => s.anyStops (p.die / 2) [(p.newSlot, 4 * p.nstate * p.elemCount), (p.oldSlot, 4 * p.nstate * p.elemCount)]
     | _ => false)

/-! ### Emission (R292, R293) -/

/-- The first poisoned unit in the slots that a record reads. -/
def State.skimPoisonAt (s : State) : SkimRec → Nat
  | .part base p =>
    let n := 4 * p.nstate * p.elemCount
    ((s.firstPoison p.newSlot n).or (if base then none else s.firstPoison p.oldSlot n)).getD 0
  | _ => 0

/-- Bytes that may be emitted now. -/
def State.skimRoom (s : State) : Nat :=
  if s.skim.toPort then 16256 * (s.port s.skim.port).ckptUnits
  else s.skim.ringBytes - (s.skim.wr - s.skim.rd).toNat

/-- Bytes written with their poison (R217). -/
def State.writeMarked (s : State) (key : Nat) (bs : List (Byte × Bool)) : State :=
  (s.write key (bs.map (·.1))).markPoison (((bs.zipIdx).filter (fun b => b.1.2)).flatMap (fun b => unitsOf (key + b.2) 1))

/-- Bytes into the memory ring, wrapping at RING_BYTES. -/
def State.skimToRing (s : State) (bs : List (Byte × Bool)) : State :=
  let at_ := s.skim.wr.toNat % s.skim.ringBytes
  let first := bs.take (s.skim.ringBytes - at_)
  let s := s.writeMarked (s.skim.ringAddr + at_) first
  if first.length < bs.length then s.writeMarked s.skim.ringAddr (bs.drop first.length) else s

/-- Bytes out through the checkpoint port, one unit a frame; a frame carries POISON for its own bytes (R314, R318). -/
def State.skimToPort (s : State) (bs : List (Byte × Bool)) : State :=
  let q := s.skim.port
  (payloadParts bs.length).foldl (fun st part =>
    let mine := (bs.drop part.1).take part.2
    (st.modPort q (fun x => { x with ckptUnits := x.ckptUnits - 1 })).send q
      { poison := mine.any (·.2), dstModule := (st.portItem q).peerModule }
      (.checkpoint { offset := (st.skim.wr.toNat + part.1) % 2 ^ 64, payload := mine.map (·.1) })) s

/-- What follows the last byte of a record (R292, R293). -/
def State.skimDone (s : State) (r : SkimRec) : State :=
  match r with
  | .step .. => s
  | .part _ p =>
    let more := s.skim.records.any (fun x => match x with
      | .part _ q => q.layer == p.layer
      | _ => false)
    if more then s else (s.modLayer p.layer (fun l => { l with skimPending := false })).tickUpdates
  | .finish step =>
    let s := { s with skim := { s.skim with last := step } }
    if s.skim.stopCmds.isEmpty then s
    else
      let refs := s.skim.stopCmds
      let s : State := { s with
        skim := { s.skim with running := false, stopCmds := [], records := [] }
        layers := s.layers.map (fun (e : Nat × Layer) => (e.1, { e.2 with skimPending := false })) }
      refs.foldl (fun st ref => st.finish ref .ok 0 []) s.tickUpdates

/-- SKIM_RECORD_EMIT: the record in hand, as far as room or credit allows. -/
def execSkimRecordEmit (dt : Nat) (s : State) : Result :=
  let s := s.advance dt
  match s.skim.records with
  | [] => s.idle
  | r :: rest =>
    if !s.skim.running || s.skimHeld r then s.idle
    else
      let s := if s.skim.out.isEmpty then
          let begins := match r with
            | .step .. => true
            | _ => false
          let start := if begins then s.skim.wr else s.skim.stepStart
          let bytes := skimBytes s r (s.skim.wr - start).toNat
          { s with skim := { s.skim with
            stepStart := start, out := bytes.map (·.1), outPoison := bytes.map (·.2) } }
        else s
      let bs := (s.skim.out.zip s.skim.outPoison).take s.skimRoom
      if bs.isEmpty then .next s
      else
        let s := if s.skim.toPort then s.skimToPort bs else s.skimToRing bs
        let s := s.absorb 3 0 (bs.map (·.1)) (if bs.any (·.2) then some (bs.findIdx (·.2), s.skimPoisonAt r) else none)
        let s := { s with skim := { s.skim with
          wr := s.skim.wr + BitVec.ofNat 64 bs.length, out := s.skim.out.drop bs.length,
          outPoison := s.skim.outPoison.drop bs.length } }
        if s.skim.out.isEmpty then
          .next (({ s with skim := { s.skim with records := rest } } : State).skimDone r)
        else .next s

/-- SKIM_START (R292). -/
def execSkimStart (dt : Nat) (s : State) : Result :=
  let s := s.advance dt
  match s.take 0 0x80 with
  | none => s.idle
  | some (c, s) =>
    let toPort := c.param 0 1 == 1
    let port := c.param 1 1
    let addr := c.param 8 8
    let n := c.param 0x10 8
    match lowestFail ([(decide (c.param 0 1 ≤ 1), 0), (!toPort || (decide (port < s.nPorts) && s.roleOf port == 6), 1),
        (decide (c.param 2 1 < 2), 2), (toPort || (addr % 4096 == 0 && s.inSpace [2, 4] none addr n), 8),
        (toPort || (n % 4096 == 0 && decide (2 ^ 20 ≤ n)), 0x10)] ++ reservedFail c 64 [(0, 3), (8, 0x10)]) with
    | some o => .next (s.badParam c o)
    | none =>
      if s.skim.running then .next (s.complete c .busy 0 [])
      else
        let s := { s with skim := { s.skim with
          running := true, toPort := toPort, port := port, basePending := (c.param 2 1).testBit 0, ringAddr := addr,
          ringBytes := n, wr := 0, rd := 0, stepStart := 0, records := [], out := [], outPoison := [],
          stopCmds := [] } }
        .next (s.complete c .ok 0 [])

/-- SKIM_STOP (R292): at once where no stream runs. -/
def execSkimStop (dt : Nat) (s : State) : Result :=
  let s := s.advance dt
  match s.take 0 0x81 with
  | none => s.idle
  | some (c, s) =>
    if !s.skim.running then .next (s.complete c .ok 0 [])
    else
      let s := { s with skim := { s.skim with stopCmds := s.skim.stopCmds ++ [c.ref] } }
      .next (s.setWait c.ref .skimEnd none)

/-! ### TAKEOVER_LOAD (R294, R295) -/

/-- An entry of the map (R294). -/
structure LoadEntry where
  layer : Nat
  part : Nat
  die : Nat
  map : WorkMap
  state0 : Nat
  state1 : Nat
  deriving DecidableEq, Repr

def loadEntry (bs : List Byte) : LoadEntry :=
  { layer := fieldAt bs 0 2, part := fieldAt bs 2 2, die := fieldAt bs 4 1
    map := { dtl := (fieldAt bs 5 1).testBit 0, kf := fieldAt bs 16 4, tileK := fieldAt bs 20 4, tileN := fieldAt bs 24 4,
             first := fieldAt bs 8 4, count := fieldAt bs 12 4 }
    state0 := fieldAt bs 32 8, state1 := fieldAt bs 40 8 }

/-- An entry obeys the rules of R273. -/
def LoadEntry.ok (s : State) (e : LoadEntry) : Bool :=
  let l := s.layer e.layer
  let m := e.map
  decide (e.die < 12) && m.first % 32 == 0 && m.count % 32 == 0 && decide (32 ≤ m.count) &&
    (s.stateKey e.state0 (4 * m.count)).isSome && (s.stateKey e.state1 (4 * m.count)).isSome &&
    (if m.dtl then decide (1 ≤ m.kf) && (!fmtIsMx l.workFmt || m.kf % 32 == 0) && m.tilesFit l else m.linearFits l)

/-- How far a load has come. -/
structure Load where
  st : State
  last : Option W32 := none
  exp : Int := 0
  clean : W32 := 0
  interval : W32 := 0
  parts : Nat := 0
  /-- Entries loaded, with the latest serial and step. -/
  done : List (LoadEntry × W16 × W32) := []
  base : Bool := false
  /-- PART records that the step in hand has still to give; none between an END and the next STEP. -/
  left : Option Nat := none
  /-- The stream is broken, and the poisoned unit that broke it, if one did. -/
  failed : Bool := false
  poison : Option Nat := none

/-- The load ends without effect. -/
def Load.fail (a : Load) (u : Option Nat) : Load := { a with failed := true, poison := u }

/-- Blocks of a PART body: the words of each, and what is left. -/
def parseBlocks : Nat → List Byte → Option (List Nat)
  | 0, _ => some []
  | n + 1, bs =>
    match bs with
    | [] => none
    | w :: rest =>
      let k := w.toNat
      if 32 < k || decide (rest.length < 4 * k) then none
      else (parseBlocks n (rest.drop (4 * k))).map (fun ws =>
        (List.range 32).map (fun i => unpackElem k (rest.take (4 * k)) i) ++ ws)

/-- Words XORed into a slot, in plane order; a base record onto zero (R295). -/
def State.xorWords (s : State) (key : Nat) (base : Bool) (ws : List Nat) : State :=
  let old (i : Nat) : Nat := if base then 0 else s.readNat (key + 4 * i) 4
  s.write key (ws.zipIdx.flatMap (fun w => toBytes 4 (w.1 ^^^ old w.2)))

/-- A PART record applied to the provisional slot of its map entry; poison in the words that it is XORed into breaks the
load (R295). -/
def Load.applyPart (a : Load) (entries : List LoadEntry) (h body : List Byte) : Load :=
  let nstate := fieldAt h 1 1
  let count := fieldAt h 12 4
  match entries.find? (fun e => e.layer == fieldAt h 2 2 && e.part == fieldAt h 6 2 && e.map.first == fieldAt h 8 4 &&
      e.map.count == count) with
  | none => a.fail none
  | some e =>
    let slot := if (a.st.layer e.layer).stateSel then e.state0 else e.state1
    let n := 4 * nstate * count
    if !(decide (1 ≤ nstate) && decide (nstate ≤ 8)) || (a.st.stateKey slot n).isNone then a.fail none
    else match (if a.base then none else a.st.firstPoison slot n), parseBlocks (nstate * count / 32) body with
      | some u, _ => a.fail (some u)
      | none, none => a.fail none
      | none, some ws =>
        { a with
          st := a.st.xorWords slot a.base ws
          parts := a.parts + 1
          done := a.done.filter (fun d => d.1 != e) ++ [(e, BitVec.ofNat 16 (fieldAt h 4 2), a.last.getD 0)] }

/-- The records of a stream that begins at a key, in order, up to the target step (R295). A broken record, poison or a
break in the step chain ends the load; what was replayed before it is counted. A step counts with all its PART records and
its END (R291, R394): DESIGN CHOICE (log 48), a stream that ends within a step is broken. -/
def runLoad (entries : List LoadEntry) (target : W32) : Nat → Nat → List Byte → Load → Load
  | 0, _, _, a => a.fail none
  | fuel + 1, key, bs, a =>
    let stop := if a.last.isSome && a.left.isNone then a else a.fail none
    if bs.isEmpty then stop
    else match a.st.firstPoison key (min 32 bs.length) with
    | some u => a.fail (some u)
    | none =>
      let h := bs.take 32
      let rest := bs.drop 32
      if h.length < 32 || fieldAt h 28 4 != crc32c (h.take 28) then a.fail none
      else if fieldAt h 0 1 = 1 then
        let step : W32 := BitVec.ofNat 32 (fieldAt h 4 4)
        let prev : W32 := BitVec.ofNat 32 (fieldAt h 8 4)
        let base := (fieldAt h 1 1).testBit 0
        if target != 0xFFFFFFFF#32 && stepNewer step target then stop
        else if a.left.isSome || !(match a.last with
            | none => base && prev == 0xFFFFFFFF#32
            | some l => !base && prev == l) then a.fail none
        else runLoad entries target fuel (key + 32) rest { a with
          last := some step, exp := signed 8 (fieldAt h 12 1), clean := BitVec.ofNat 32 (fieldAt h 16 4),
          interval := BitVec.ofNat 32 (fieldAt h 20 4), base := base, left := some (fieldAt h 24 4) }
      else if fieldAt h 0 1 = 2 then
        let n := fieldAt h 16 8
        let body := rest.take n
        if a.left.getD 0 = 0 || decide (rest.length < n + 8) then a.fail none
        else match a.st.firstPoison (key + 32) (n + 8) with
        | some u => a.fail (some u)
        | none =>
          if fieldAt rest n 4 != crc32c body then a.fail none
          else
            let b := ({ a with left := a.left.map (fun k => k - 1) } : Load).applyPart entries h body
            if b.failed then b else runLoad entries target fuel (key + n + 40) (rest.drop (n + 8)) b
      else if fieldAt h 0 1 = 3 && a.left == some 0 && a.last == some (BitVec.ofNat 32 (fieldAt h 4 4)) then
        runLoad entries target fuel (key + 32) rest { a with left := none }
      else a.fail none

/-- The working copy of an entry from word 0 of its new state, to nearest even (R295). -/
def State.rebuildWork (s : State) (l : Layer) (slot : Nat) (e : LoadEntry) (key : Nat) : State :=
  let n := e.map.count
  let word (i : Nat) : W32 := BitVec.ofNat 32 (s.readNat (key + 4 * i) 4)
  (List.range (n / 32)).foldl (fun st b =>
    (st.putWork l slot e.map (e.map.first + 32 * b) ((List.range 32).map (fun i => word (32 * b + i)))
      (List.replicate 32 none)).1) s

/-- One loaded layer takes effect (R295). -/
def State.loadLayer (s : State) (a : Load) (layer : Nat) : State :=
  let mine := a.done.filter (fun d => d.1.layer == layer)
  let l := s.layer layer
  match l.stateIdx .free, mine.getLast? with
  | some slot, some (_, serial, step) =>
    let s := mine.foldl (fun st d => st.rebuildWork l slot d.1 (if l.stateSel then d.1.state0 else d.1.state1)) s
    (s.modLayer layer (fun l =>
      let l := l.supersede s.tide
      { l with
        stateSel := !l.stateSel, newest := if serialNewer l.newest serial then l.newest else serial, lastCommit := step
        slots := tabSet l.slots slot { serial := serial, state := .current, epoch := s.commit.layoutEpoch } })).retire layer
  | _, _ => s

/-- Everything that a load changes, whole at its completion: a step-close commit point (R295). -/
def State.commitLoad (s : State) (a : Load) : State :=
  let layers := (a.done.map (fun d => d.1.layer)).eraseDups
  let s := layers.foldl (fun st l => st.loadLayer a l) s
  let last := a.last.getD 0
  { s with
    dies := s.dies.map (fun (e : Nat × Die) => (e.1, { e.2 with staging := e.2.staging.filter (fun x => !layers.contains x.layer) }))
    step := { s.step with
      exp := a.exp, clean := a.clean, interval := a.interval, localNonfinite := false, localAbort := false,
      started := false, arrived := false, jobNonfinite := false, jobAbort := false, permReady := false, sampled := none,
      ups := [] }
    skim := { s.skim with prevCommit := last }
    commit := { s.commit with
      stepNumber := last + 1, lastStepClose := s.tide, lastCommitTide := s.tide,
      verdicts := s.commit.verdicts.filter (fun v => stepStale v.1 (last + 1)) } }

/-- What turns a load away with BUSY (R294). -/
def State.loadBusy (s : State) (entries : List LoadEntry) : Bool :=
  entries.any (fun e =>
    let l := s.layer e.layer
    !l.defined || l.slots.any (fun x => decide (0 < x.2.pins)) || (l.stateIdx .free).isNone) ||
    (List.range 16).any (fun k => !(s.admittedMbs k).isEmpty) || !s.openVersions.isEmpty

/-- The stream, the map, the state slots and the version slots of a load lie on no die that is out of service (R205). -/
def State.loadServed (s : State) (key mapKey : Nat) (entries : List LoadEntry) : Bool :=
  s.keyServed key && s.keyServed mapKey && entries.all (fun e =>
    let l := s.layer e.layer
    s.keyServed e.state0 && s.keyServed e.state1 && s.keyServed l.workAddr.toNat &&
      (!fmtIsMx l.workFmt || s.keyServed l.scaleAddr.toNat))

/-- What a load reads and writes is held for now (R24, R205, R222, R391). -/
def State.loadHeld (s : State) (key n mapKey : Nat) (entries : List LoadEntry) : Bool :=
  s.ownStops key n || s.ownStops mapKey (64 * entries.length) || entries.any (fun e =>
    let l := s.layer e.layer
    let m := 4 * e.map.count
    s.anyStops (e.die / 2) [(e.state0, m), (e.state1, m), (l.workAddr.toNat, 7 * l.workStride + l.workBytes)])

/-- BODY of a load, whatever its status: the last step replayed and the PART records applied (R295). -/
def Load.body (a : Load) : List Byte := bodyOf [(0, 4, (a.last.getD 0).toNat), (4, 4, a.parts)]

/-- TAKEOVER_LOAD (R205, R294, R295). Its accesses are all made at its start, which comes once none is held (log 64).
DESIGN CHOICE (log 48): R294 gives the spaces of SRC_ADDR alone; MAP_ADDR takes the same, far tier and near tier. -/
def execTakeoverLoad (dt : Nat) (s : State) : Result :=
  let s := s.advance dt
  match s.take 0 0x82 with
  | none => s.idle
  | some (c, s') =>
    let before := s
    let s := s'
    let src := c.param 8 8
    let n := c.param 0x10 8
    let mapAddr := c.param 0x18 8
    let count := c.param 0x20 2
    let mapKey := s.resolve [2, 4] none mapAddr (64 * count)
    let entries := (List.range count).map (fun i => loadEntry (s.read (mapKey.getD 0 + 64 * i) 64))
    let busy := s.loadBusy entries
    match lowestFail ([(s.inSpace [2, 4] none src n, 8), (mapKey.isSome && (busy || entries.all (LoadEntry.ok s)), 0x18)] ++
        reservedFail c 128 [(4, 0x1E)]) with
    | some o => .next (s.badParam c o)
    | none =>
      let key := (s.resolve [2, 4] none src n).getD 0
      if busy then .next (s.complete c .busy 0 [])
      else if !s.loadServed key (mapKey.getD 0) entries then .next (s.complete c .faulted 0 [])
      else
        if s.loadHeld key n (mapKey.getD 0) entries then before.idle
        else
          let start : Load := { st := s }
          let a := match s.firstPoison (mapKey.getD 0) (64 * count) with
            | some u => start.fail (some u)
            | none => runLoad entries (BitVec.ofNat 32 (c.param 4 4)) (n / 32 + 1) key (s.read key n) start
          if a.failed then
            (let s := match a.poison with
              | some u => a.st.poisonConsumed c u
              | none => a.st
             .next (s.complete c .faulted 0 a.body))
          else .next ((a.st.commitLoad a).complete c .ok 0 a.body)

/-! ### Registers (13) -/

def skimControlWord (s : State) : Nat :=
  b2n s.skim.running + 2 * b2n s.skim.toPort + s.skim.port * 2 ^ 8 + b2n s.skim.basePending * 2 ^ 16

end Sys2Proof.Machine
end

