-- ==== Sys2Proof/Machine/Dma.lean ====
section
/-! DEFINITION. DMA channels and their programs (16, R349 to R363, R367), and the check units (R364 to R369). -/

namespace Sys2Proof.Machine

/-! ### Complexes (R349, R384) -/

def complexOf (n : Nat) : Nat := n / 32

/-- Partner of a complex (R384). -/
def partnerOf (d : Nat) : Nat := (d + 3) % 6

/-- The complex whose engines serve a channel: its own, or the partner that adopted it (R384). -/
def State.servingComplex (s : State) (n : Nat) : Nat :=
  if (s.complex (complexOf n)).failed then partnerOf (complexOf n) else complexOf n

/-- The channel waits for a recovery of its own complex or of the one that serves it (R375, R384). -/
def State.channelPaused (s : State) (n : Nat) : Bool :=
  s.log.recoveries.any (fun r => r.cls == 7 && (r.unit == complexOf n || r.unit == s.servingComplex n))

/-- Neither a channel's complex nor its partner serves (R384). -/
def State.channelOrphan (s : State) (n : Nat) : Bool :=
  (s.complex (complexOf n)).failed && (s.complex (partnerOf (complexOf n))).failed

/-! ### Requests (R21, R24, R359) -/

/-- The first request of an access that the complex cannot make (R359): a die out of service, or a seam link down. -/
def State.badRequest (s : State) (d key n : Nat) : Bool :=
  !s.keyServed key || s.rangeCut d key n

/-! ### Programs (R352) -/

/-- Bits of each byte that an instruction defines, by OP: bytes of 0xFF but for the flag bytes (R352). -/
def instrDefined (op i : Nat) : Nat :=
  if i = 0 then 0xFF
  else if op = 0 then (if i = 1 then 1 else if 8 ≤ i ∧ i < 16 then 0xFF else 0)
  else if op = 1 then (if i = 1 then 3 else if 4 ≤ i ∧ i < 24 then 0xFF else 0)
  else if op = 2 then (if 2 ≤ i ∧ i < 24 then 0xFF else 0)
  else if op = 3 then (if i = 1 then 7 else if 8 ≤ i ∧ i < 24 then 0xFF else 0)
  else if op = 4 then (if 8 ≤ i ∧ i < 24 then 0xFF else 0)
  else if op = 5 then (if i = 1 ∨ i = 2 then 0xFF else if i = 3 then 0x83 else if 8 ≤ i ∧ i < 16 then 0xFF else 0)
  else 0

/-- OP is defined, and every reserved bit is zero (R352). -/
def instrOk (bs : List Byte) : Bool :=
  decide (fieldAt bs 0 1 ≤ 5) &&
    (List.range 32).all (fun i => fieldAt bs i 1 &&& (255 - instrDefined (fieldAt bs 0 1) i) == 0)

def dmaSpaces : List Nat := [0, 1, 2, 4, 5, 7]

def Channel.dieOf (x : Channel) : Option Nat := if x.die < 12 then some x.die else none

/-! ### Stopping (R351, R359 to R361) -/

/-- BODY of DMA_START (R351). The running CRC is shown as the result of R364 (log 31). -/
def Channel.body (x : Channel) : List Byte :=
  bodyOf [(0, 8, x.moved), (8, 4, x.poisonMoved), (12, 2, x.pc), (16, 4, x.resumeByte),
    (20, 4, crcResult 0 x.crc.toNat), (24, 4, x.mismatches)]

def Channel.active (x : Channel) : Bool := x.state == 1 || x.state == 2

def Channel.resumePoint (x : Channel) : Resume :=
  { pc := x.pc, byte := x.resumeByte, offS := x.offS, offD := x.offD, iters := x.iters, crc := x.crc, moved := x.moved,
    poisonMoved := x.poisonMoved, mismatches := x.mismatches }

/-- The command of a channel finishes with what the channel reports. -/
def State.endDma (s : State) (n : Nat) (st : Status) (detail : Nat) : State :=
  let x := s.channel n
  match x.cmd with
  | none => s
  | some ref => s.finish ref st detail x.body

/-- A stop with a resume point (R360): cause 1 bus error, 2 STOP, 3 timeout, 4 lease revoked, 5 no complex left. -/
def State.stopChannel (s : State) (n cause : Nat) (st : Status) (detail : Nat) : State :=
  if !(s.channel n).active then s
  else
    (s.modChannel n (fun x => { x with
      state := 3, stopCause := if cause = 5 then 0 else cause, resume := some x.resumePoint, stop := false })).endDma
        n st detail

/-- A stop without a resume point (R352, R367). -/
def State.failChannel (s : State) (n : Nat) (st : Status) (detail : Nat) : State :=
  (s.modChannel n (fun x => { x with state := 0, stop := false })).endDma n st detail

/-- BAD_PARAM of a program (R352). -/
def State.badProgram (s : State) (n : Nat) : State := s.failChannel n .badParam 0x48

/-- A bus error of a complex (R359): every channel that it serves stops, with the address, the Tidemark, vector 22 and
one record. -/
def State.busError (s : State) (d : Nat) (addr : W64) : State :=
  let served := (List.range 192).filter (fun n => s.servingComplex n == d)
  let s := served.foldl (fun st n => st.stopChannel n 1 .faulted 1) s
  let s := ((served.map complexOf).eraseDups).foldl (fun st e =>
    st.modComplex e (fun x => { x with busAddr := addr, busTide := st.tide })) s
  (s.raise 22).logRec (srcComplex d) 0x0060 sevError addr.toNat d 0

/-- BUS_ERROR: an error response that reached the complex (R359); a complex that has failed makes no request. -/
def execBusError (dt : Nat) (complex : Fin 6) (addr : W64) (s : State) : Result :=
  let s := s.advance dt
  if (s.complex complex).failed then s.idle else .next (s.busError complex addr)

/-! ### DMA_START (R350, R351, R361) -/

def dmaChecks (s : State) (c : Cmd) : List (Bool × Nat) :=
  let n := c.param 0 2
  let die := c.param 2 1
  let addr := c.param 8 8
  let len := c.param 0x10 2
  let x := s.channel n
  let resume := (c.param 3 1).testBit 0
  let same (b : Bool) : Bool := !resume || x.resume.isNone || b
  [(decide (n < 192), 0), ((decide (die < 12) || die == 0xFF) && same (x.die == die), 2),
   (decide (c.param 3 1 < 2) && (!resume || x.resume.isSome), 3),
   (decide (1 ≤ c.param 4 4) && decide (c.param 4 4 ≤ 60000000), 4),
   (addr % 32 == 0 && s.inSpace dmaSpaces (if die < 12 then some die else none) addr (32 * len) &&
      same (x.progAddr == addr), 8),
   (decide (1 ≤ len) && decide (len ≤ 256) && same (x.progLen == len), 0x10)] ++
  reservedFail c 64 [(0, 0x12)]

/-- The program begins, or goes on from the resume point. -/
def Channel.launch (x : Channel) (ref : CmdRef) (resume : Bool) (die addr len lease : Nat) (prog : Tab (List Byte × Option Nat)) : Channel :=
  let x := { x with
    state := 1, stopCause := 0, stop := false, cmd := some ref, die := die, progAddr := addr, progLen := len,
    lease := lease, prog := prog, dests := [] }
  match resume, x.resume with
  | true, some r =>
    { x with
      pc := r.pc, resumeByte := r.byte, offS := r.offS, offD := r.offD, iters := r.iters, crc := r.crc, moved := r.moved
      poisonMoved := r.poisonMoved, mismatches := r.mismatches }
  | _, _ =>
    { x with
      resume := none, pc := 0, resumeByte := 0, offS := 0, offD := 0, iters := [], crc := 0xFFFFFFFF, moved := 0
      poisonMoved := 0, mismatches := 0 }

/-- One instruction fetched, unless an earlier one waits: a fetch that is held waits, one that fails is a bus error (R352,
R359). -/
def fetchInstr (n : Nat) (acc : State × Bool) (i : Nat) : State × Bool :=
  let (s, go) := acc
  let x := s.channel n
  let addr := x.progAddr + 32 * i
  if !go || !x.active || (tabFind x.prog i).isSome then (s, go && x.active)
  else match s.resolve dmaSpaces x.dieOf addr 32 with
    | none => (s, false)
    | some key =>
      let d := s.servingComplex n
      if s.rangeWaits d key 32 then (s, false)
      else if s.badRequest d key 32 then (s.busError d (BitVec.ofNat 64 addr), false)
      else (s.modChannel n (fun x => { x with prog := tabSet x.prog i (s.read key 32, s.firstPoison key 32) }), true)

/-- Instructions are fetched in order, up to 8 ahead of the one at the PC (R352). DESIGN CHOICE (log 73): each is fetched
as soon as it may be, and again after a jump away from it. A program in host memory is what DMA_START was given. -/
def State.fetchAhead (s : State) (n : Nat) : State :=
  let x := s.channel n
  if !x.active || addrSpace x.progAddr == 7 then s
  else
    let s := s.modChannel n (fun x => { x with prog := x.prog.filter (fun e => decide (x.pc ≤ e.1) && decide (e.1 ≤ x.pc + 8)) })
    ((((List.range 9).map (x.pc + ·)).filter (fun i => decide (i < x.progLen))).foldl (fetchInstr n) (s, true)).1

/-- DMA_START; `host` is the program where PROG_ADDR lies in host memory. -/
def execDmaStart (dt : Nat) (ring : Fin 17) (host : List Byte) (s : State) : Result :=
  let s := s.advance dt
  match s.take ring 0x60 with
  | none => s.idle
  | some (c, s) =>
    match firstFail (dmaChecks s c) with
    | some o => .next (s.badParam c o)
    | none =>
      let n := c.param 0 2
      let die := c.param 2 1
      let addr := c.param 8 8
      let len := c.param 0x10 2
      if die < 12 && (s.die die).service == 1 then .next (s.complete c .faulted 0 [])
      else if s.channelOrphan n then .next (s.complete c .faulted 5 [])
      else
        let image := padTo (32 * len) host
        let prog := if addrSpace addr = 7 then (List.range len).map (fun i => (i, ((image.drop (32 * i)).take 32, none))) else []
        let s := s.modChannel n (fun x =>
          x.launch c.ref ((c.param 3 1).testBit 0) die addr len (s.tide + 1000 * c.param 4 4) prog)
        .next ((s.setWait c.ref .channel none).fetchAhead n)

/-- CHANNEL_LEASE_EXPIRY: the channel stops at TIMEOUT, and its lease is revoked (R360, R361, R387, R388). The command ends
with TIMEOUT, by R350 and R361; R387's FAULTED with DETAIL 4 is that of a revocation by force (R369; DEDUCED, log 73). -/
def execChannelLeaseExpiry (dt : Nat) (channel : Fin 192) (s : State) : Result :=
  let s := s.advance dt
  let x := s.channel channel
  if !x.active || s.channelPaused channel || decide (s.tide < x.lease) then s.idle
  else .next ((s.stopChannel channel 3 .timeout 0).logRec 0 0x0080 sevWarning x.lease 0 channel)

/-- A lease revoked by force (R369, R388). -/
def State.revokeChannel (s : State) (n : Nat) : State :=
  let x := s.channel n
  if !x.active then s else (s.stopChannel n 4 .faulted 4).logRec 0 0x0080 sevWarning x.lease 0 n

/-- CH_CONTROL.STOP: at once, or at the end of a recovery of the complex (R360, R375). -/
def State.stopRequest (s : State) (n : Nat) : State :=
  if !(s.channel n).active then s
  else if s.channelPaused n then s.modChannel n (fun x => { x with stop := true })
  else s.stopChannel n 2 .aborted 0

/-! ### Channel instructions (R352 to R356) -/

/-- A channel that fetched a poisoned instruction stops when it comes to it, and the consumption is recorded (R217). -/
def State.poisonedInstr (s : State) (n u : Nat) : State :=
  (match (s.channel n).cmd.bind s.findCmd with
   | some c => s.poisonConsumed c u
   | none => s).failChannel n .faulted 0

/-- The instruction at the PC runs if it has been fetched and is of this OP; a broken program stops here whatever the OP.
-/
def State.chanStep (s : State) (n op : Nat) (f : Channel → List Byte → State) : Result :=
  let x := s.channel n
  if !x.active || s.channelPaused n then s.idle
  else if x.progLen ≤ x.pc then .next (s.badProgram n)
  else match tabFind x.prog x.pc with
    | none => .next (s.fetchAhead n)
    | some (_, some u) => .next (s.poisonedInstr n u)
    | some (bs, none) =>
      if !instrOk bs then .next (s.badProgram n)
      else if fieldAt bs 0 1 ≠ op then s.idle
      else .next ((f x bs).fetchAhead n)

/-- The destination of a write (R357): one die's near tier or operand store, one far-tier stack, or host memory. -/
def State.destOf (s : State) (key : Nat) : Nat :=
  if key / 2 ^ 60 = 2 then 0x200 + farStackOf s.nStacks (key % 2 ^ 60) else if key / 2 ^ 60 = 7 then 0x700 else key / 2 ^ 56

/-- The channel has written `n` bytes at a key. -/
def State.noteDest (s : State) (x : Channel) (key n : Nat) : Channel :=
  { x with dests := tabSet x.dests (s.destOf key) ((key + n - 1) / 64 * 64) }

/-- What follows once every earlier write of the channel is complete: the last unit written to each destination is read
back, which waits where an access does, and is a bus error where it cannot be made (R357, R359). -/
def State.readBack (s : State) (n : Nat) (go : State → State) : State :=
  let x := s.channel n
  let d := s.servingComplex n
  if x.dests.any (fun e => s.rangeWaits d e.2 64) then s
  else match x.dests.find? (fun e => s.badRequest d e.2 64) with
    | some e => s.busError d (BitVec.ofNat 64 e.2)
    | none => go (s.modChannel n (fun x => { x with dests := [] }))

/-- The next instruction. -/
def State.chanNext (s : State) (n : Nat) : State :=
  s.modChannel n (fun x => { x with pc := x.pc + 1, resumeByte := 0, state := 1 })

/-- Address of one side of an instruction: modulo 2^64 over the whole address (R353). -/
def sideAddr (fixed : Bool) (base : Nat) (off : W64) : Nat := (base + if fixed then 0 else off.toNat) % 2 ^ 64

/-- Bytes of the burst in hand: at most 4 KiB (R358), ending on a 64-byte unit of the source. -/
def burstBytes (src left : Nat) : Nat := min left (4096 - src % 64)

/-- Poisoned 64-byte units of a burst (R217, R351). -/
def State.poisonUnits64 (s : State) (src n : Nat) : Nat :=
  ((List.range ((src % 64 + n + 63) / 64)).filter (fun i => s.poisoned (max src ((src / 64 + i) * 64))
    (min (src + n) ((src / 64 + i + 1) * 64) - max src ((src / 64 + i) * 64)))).length

/-- One burst of a MOVE from `src` to `dst` (keys), the bytes as read (R354, R358, R363). -/
def State.moveBurst (s : State) (n src dst : Nat) (bytes : List Byte) (fromHost last : Bool) : State :=
  let len := bytes.length
  let bad := if fromHost then 0 else s.poisonUnits64 src len
  let marks := if fromHost then [] else s.movedPoison src dst len
  let s := (s.write dst bytes).markPoison marks
  let s := s.modChannel n (fun x => { s.noteDest x dst len with
    bytes := (x.bytes + len) % 2 ^ 64
    moved := x.moved + len
    poison := satAdd 32 x.poison bad
    poisonMoved := x.poisonMoved + bad
    crc := BitVec.ofNat 32 (crcAbsorb 0 x.crc.toNat bytes)
    resumeByte := x.resumeByte + len
    state := 1 })
  let s := s.absorb 0 n bytes (if bad = 0 then none else (s.firstPoison src len).map (fun u => (u - src, u)))
  if last then s.chanNext n else s

/-- The two ranges of one MOVE have a byte in common (R354). -/
def rangesMeet (a b n : Nat) : Bool := decide (a < b + n) && decide (b < a + n)

/-- MOVE: its next burst (R353, R354, R358); `host` is what host memory answers, from the burst's first byte. -/
def execMove (dt : Nat) (channel : Fin 192) (host : List Byte) (s : State) : Result :=
  let s := s.advance dt
  s.chanStep channel 1 (fun x bs =>
    let count := fieldAt bs 4 4
    let src := sideAddr ((fieldAt bs 1 1).testBit 0) (fieldAt bs 8 8) x.offS
    let dst := sideAddr ((fieldAt bs 1 1).testBit 1) (fieldAt bs 16 8) x.offD
    match s.resolve dmaSpaces x.dieOf src count, s.resolve dmaSpaces x.dieOf dst count with
    | some ks, some kd =>
      if count = 0 then s.badProgram channel
      else
        let ksb := ks + x.resumeByte
        let kdb := kd + x.resumeByte
        let len := burstBytes ksb (count - x.resumeByte)
        let d := s.servingComplex channel
        if s.rangeWaits d ksb len || s.rangeWaits d kdb len then s
        else if s.badRequest d ksb len then s.busError d (BitVec.ofNat 64 (src + x.resumeByte))
        else if s.badRequest d kdb len then s.busError d (BitVec.ofNat 64 (dst + x.resumeByte))
        else
          let fromHost := addrSpace src == 7
          let (bytes, s) := if rangesMeet ks kd count then
              let (vs, s) := s.draws len
              (vs.map (BitVec.ofNat 8), s)
            else (if fromHost then padTo len host else s.read ksb len, s)
          s.moveBurst channel ksb kdb bytes fromHost (decide (count ≤ x.resumeByte + len))
    | _, _ => s.badProgram channel)

/-- LOOP (R353). -/
def execLoop (dt : Nat) (channel : Fin 192) (s : State) : Result :=
  let s := s.advance dt
  s.chanStep channel 2 (fun x bs =>
    let target := fieldAt bs 2 2
    let count := fieldAt bs 4 4
    let stepS : W64 := BitVec.ofNat 64 (fieldAt bs 8 8)
    let stepD : W64 := BitVec.ofNat 64 (fieldAt bs 16 8)
    let iter := tabGet 0 x.iters x.pc
    if x.pc ≤ target || count = 0 then s.badProgram channel
    else if iter + 1 < count then
      if iter = 0 && decide (4 ≤ x.iters.length) then s.badProgram channel
      else s.modChannel channel (fun x => { x with
        iters := tabSet x.iters x.pc (iter + 1), offS := x.offS + stepS, offD := x.offD + stepD, pc := target
        resumeByte := 0, state := 1 })
    else
      let k : W64 := BitVec.ofNat 64 iter
      (s.modChannel channel (fun x => { x with
        iters := tabDel x.iters x.pc, offS := x.offS - k * stepS, offD := x.offD - k * stepD })).chanNext channel)

/-- WAIT: it goes on once its conditions are met (R355), later than the signals that meet them (R46); with WRITES, once
every earlier write is complete (R357). -/
def execWait (dt : Nat) (channel : Fin 192) (s : State) : Result :=
  let s := s.advance dt
  s.chanStep channel 3 (fun _ bs =>
    let flags := fieldAt bs 1 1
    let mask := fieldAt bs 8 8
    let tide := fieldAt bs 16 8
    let js := bitsSet mask 64
    let seen (j : Nat) : Bool := s.signal j && decide (afterEvent (tabGet 0 s.host.signalTide j) ≤ s.tide)
    let met := js.isEmpty || (if flags.testBit 0 then js.any seen else js.all seen)
    if met && (tide == 0 || decide (tide ≤ s.tide)) then
      let go (s : State) : State :=
        (if flags.testBit 1 then s.clearSignals (BitVec.ofNat 64 mask) else s).chanNext channel
      if flags.testBit 2 then s.readBack channel go else go s
    else s.modChannel channel (fun x => { x with state := 2 }))

/-- SIGNAL: after every earlier write, it clears, then sets (R355, R82). -/
def execDmaSignal (dt : Nat) (channel : Fin 192) (s : State) : Result :=
  let s := s.advance dt
  s.chanStep channel 4 (fun _ bs => s.readBack channel (fun s =>
    ((s.clearSignals (BitVec.ofNat 64 (fieldAt bs 8 8))).setSignals (BitVec.ofNat 64 (fieldAt bs 16 8))).chanNext channel))

/-! ### Check units (R364 to R367) -/

/-- The name of a command in POISON_CONSUMED records: ring, SEQ and opcode (R398). -/
def Cmd.owner (c : Cmd) : Nat × W16 × Nat := (c.ring, c.seq, c.opcode)

/-- A unit armed: its running value, counts and flags start anew (R366, R367). -/
def CheckUnit.arm (u : CheckUnit) (algo source num : Nat) (value : W64) (intEn : Bool)
    (owner : Option (Nat × W16 × Nat)) : CheckUnit :=
  { u with
    algo := algo, source := source, sourceNum := num, armed := true, intEn := intEn, unverifiable := false, value := value
    used := true, bytes := 0, limit := 0, cmd := none, owner := owner, deadline := none }

/-- A unit disarmed; a limited ARM that still waits completes with the status (R366). -/
def State.disarmUnit (s : State) (u : Nat) (st : Status) : State :=
  let x := s.unit u
  let s := s.modUnit u (fun x => { x with armed := false, limit := 0, cmd := none, deadline := none })
  match x.cmd with
  | none => s
  | some ref => s.finish ref st 0 (unitBody x)

def unitBytes (u : CheckUnit) : Nat := if u.algo = 2 then 8 else 4

/-- A write of an instruction to ADDR + OFF_D, counted in CH_BYTES: a bad address stops the program, an unreachable one
is a bus error. -/
def State.chanStore (s : State) (n : Nat) (addr : Nat) (bytes : List Byte) (f : State → State) : State :=
  let x := s.channel n
  match s.resolve dmaSpaces x.dieOf (sideAddr false addr x.offD) bytes.length with
  | none => s.badProgram n
  | some key =>
    let d := s.servingComplex n
    if s.rangeWaits d key bytes.length then s
    else if s.badRequest d key bytes.length then s.busError d (BitVec.ofNat 64 (sideAddr false addr x.offD))
    else f ((s.write key bytes).modChannel n (fun x =>
      { s.noteDest x key bytes.length with bytes := (x.bytes + bytes.length) % 2 ^ 64 }))

/-- CHECK (R367). -/
def execCheck (dt : Nat) (channel : Fin 192) (s : State) : Result :=
  let s := s.advance dt
  s.chanStep channel 5 (fun _ bs =>
    let u := fieldAt bs 1 1
    let action := fieldAt bs 2 1
    let algo := fieldAt bs 3 1 % 4
    let x := s.unit u
    if decide (64 ≤ u) || decide (3 < action) then s.badProgram channel
    else if action = 0 then
      if x.armed || algo = 3 then s.badProgram channel
      else
        let v : W64 := BitVec.ofNat 64 (crcInit algo)
        (s.modUnit u (fun y => y.arm algo 0 channel v false (((s.channel channel).cmd.bind s.findCmd).map Cmd.owner))).chanNext channel
    else if action = 1 then (s.disarmUnit u .aborted).chanNext channel
    else if action = 2 then
      let (s, st, detail) := s.compareUnit u (BitVec.ofNat 64 (fieldAt bs 8 8))
      let bad := decide (detail = 2)
      let s := if bad then s.modChannel channel (fun x => { x with mismatches := x.mismatches + 1 }) else s
      if bad && (fieldAt bs 3 1).testBit 7 then s.failChannel channel st 2 else s.chanNext channel
    else s.chanStore channel (fieldAt bs 8 8) (toBytes (unitBytes x) (unitResult x)) (fun s => s.chanNext channel))

/-- END: every earlier write is read back, then the CRC store is made, which is accepted only where its own read-back can be
made, and the command completes (R356, R357). -/
def execDmaEnd (dt : Nat) (channel : Fin 192) (s : State) : Result :=
  let s := s.advance dt
  s.chanStep channel 0 (fun x bs =>
    let done (s : State) : State :=
      (s.modChannel channel (fun x => { x with state := 0, stop := false, dests := [] })).endDma channel .ok 0
    s.readBack channel (fun s =>
      if (fieldAt bs 1 1).testBit 0 then
        s.chanStore channel (fieldAt bs 8 8) (toBytes 4 (crcResult 0 x.crc.toNat)) done
      else done s))

/-! ### CHECK_ARM (R366) -/

def armChecks (c : Cmd) : List (Bool × Nat) :=
  let arm := c.param 1 1 == 0
  let source := c.param 3 1
  let num := c.param 4 2
  [(decide (c.param 0 1 < 64), 0), (decide (c.param 1 1 ≤ 2), 1), (!arm || decide (c.param 2 1 < 3), 2),
   (!arm || decide (source ≤ 3), 3),
   (!arm || (if source = 0 then decide (num < 192) else if source = 3 then num == 0 else decide (num < 24)), 4),
   (decide (c.param 6 1 < 4), 6)] ++ reservedFail c 64 [(0, 7), (8, 0x1C)]

/-- An ARM with its limit and its wait (R366). -/
def State.armUnit (s : State) (c : Cmd) : State :=
  let u := c.param 0 1
  let algo := c.param 2 1
  let limit := c.param 0x18 8
  let flags := c.param 6 1
  let value := if flags.testBit 0 then c.param 8 8 % (if algo = 2 then 2 ^ 64 else 2 ^ 32) else crcInit algo
  let s := s.modUnit u (fun x => { x.arm algo (c.param 3 1) (c.param 4 2) (BitVec.ofNat 64 value) (flags.testBit 1) (some c.owner) with
    expect := BitVec.ofNat 64 (c.param 0x10 8), armExpect := BitVec.ofNat 64 (c.param 0x10 8) })
  if limit = 0 then s.complete c .ok 0 (unitBody (s.unit u))
  else
    let t := c.param 0x20 4
    let deadline := if t = 0 then none else some (s.tide + 1000 * t)
    (s.modUnit u (fun x => { x with limit := limit, cmd := some c.ref, deadline := deadline })).setWait
      c.ref .limitedArm deadline

def execCheckArm (dt : Nat) (ring : Fin 17) (s : State) : Result :=
  let s := s.advance dt
  match s.take ring 0x61 with
  | none => s.idle
  | some (c, s) =>
    let u := c.param 0 1
    match lowestFail (armChecks c) with
    | some o => .next (s.badParam c o)
    | none =>
      if c.param 1 1 = 0 then
        (if (s.unit u).armed then .next (s.complete c .busy 0 []) else .next (s.armUnit c))
      else if c.param 1 1 = 1 then
        .next ((s.disarmUnit u .aborted).complete c .ok 0 (unitBody (s.unit u)))
      else
        let (s, st, detail) := s.compareUnit u (BitVec.ofNat 64 (c.param 0x10 8))
        .next (s.complete c st detail (unitBody (s.unit u)))

/-- CHECK_ARM_TIMEOUT: the limited ARM ends, and its unit is disarmed with its running value (R366). -/
def execCheckArmTimeout (dt : Nat) (unit : Fin 64) (s : State) : Result :=
  let s := s.advance dt
  let x := s.unit unit
  if x.armed && x.cmd.isSome && s.due x.deadline then .next (s.disarmUnit unit .timeout) else s.idle

/-! ### Replica sweep (R370 to R373) -/

/-- What a sweep needs for its reads and its result is held for now (log 64). -/
def State.sweepHeld (s : State) (w : Sweep) : Bool :=
  s.tileHeld (s.view w.collId).tile w.collId (w.reads ++ [(w.result, w.area)])

/-- The oldest sweep whose reads have not finished. -/
def State.readingSweep (s : State) : Option (Sweep × Cmd) :=
  s.dma.sweeps.findSome? (fun w => if w.reading then (s.findCmd w.cmd).map (fun c => (w, c)) else none)

/-- A sweep that starts: a participant's context opens, or is the one that a frame has opened (R319, R370). -/
def State.startSweep (s : State) (c : Cmd) (w : Sweep) : State :=
  let s := ({ s with dma := { s.dma with sweeps := s.dma.sweeps ++ [w] } } : State).setWait c.ref .sweep (some w.deadline)
  if w.root then s
  else
    let go (s : State) (x : CollCtx) : State :=
      let x := { x with cmd := some c.ref, lease := w.deadline }
      (s.putColl x).wakeGather x
    match s.findColl 1 w.collId 0 w.epoch with
    | some x =>
      (match x.refused with
       | some st => ((s.closeColl x).dropSweep c.ref).complete c (refuseStatus st) 0 []
       | none => go s x)
    | none =>
      let x := s.frameCtx 1 w.collId 0 w.epoch
      go ((s.openColl x).getD s) x

/-- REPLICA_SWEEP: not ready while its tile has 16 contexts open (R69, R370). Its reads finish at a second event of this row,
which comes once none of its accesses is held; a step close can fall between the two (R372; log 49). -/
def execReplicaSweep (dt : Nat) (s : State) : Result :=
  let s := s.advance dt
  match s.readingSweep with
  | some (w, c) => if s.sweepHeld w then s.idle else .next (s.finishReads w c)
  | none =>
  let epoch := s.commit.layoutEpoch
  match s.take 0 0x62 with
  | none => s.idle
  | some (c, s') =>
    let before := s
    let s := s'
    let p := sweepP c
    let es := s.sweepMap p
    match lowestFail (sweepChecks s c p es) with
    | some o => .next (s.badParam c o)
    | none =>
      let reads := s.sweepReads p es
      let key := (s.sweepKey p.result 0).getD 0
      if (key :: reads.map (·.1)).any (fun k => !s.keyServed k) then .next (s.complete c .faulted 0 [])
      else if s.anyStops (ioBase s.pkg.suffix (s.view p.collId).tile) (s.sweepLists p) then before.idle
      else
        let e := p.target es
        let blocks := e.blocks p.blockLog2
        let root := (s.view p.collId).parent.isNone
        let mine := p.mode != 2 || root
        .next (s.startSweep c
          { cmd := c.ref, mode := p.mode, root := root, collId := p.collId, epoch := epoch
            deadline := s.tide + 1000 * p.timeout, layer := e.layer, state0 := e.state0, state1 := e.state1
            blocks := if p.mode = 2 then (s.sweepList p).map (fun n => blocks.getD n (0, 0)) else []
            reading := mine, reads := if mine then reads else [], layers := es.map (·.layer)
            result := key, area := sweepArea p reads
            total := if p.mode = 2 then sumNat (reads.map (·.2)) else 8 * reads.length })

/-- SWEEP_TIMEOUT (R370): the oldest sweep that is due. -/
def execSweepTimeout (dt : Nat) (s : State) : Result :=
  let s := s.advance dt
  match s.dma.sweeps.find? (fun w => decide (w.deadline ≤ s.tide) && (match s.findCmd w.cmd with
      | some c => c.live
      | none => false)) with
  | none => s.idle
  | some w =>
    let s := match s.findColl 1 w.collId 0 w.epoch with
      | some x => if x.cmd == some w.cmd then s.closeColl x else s
      | none => s
    .next (s.finishSweep w.cmd .timeout (bodyOf []))

/-! ### Registers (16) -/

/-- Channel block, by offset. -/
def State.channelWord (s : State) (n off : Nat) : Nat :=
  let x := s.channel n
  if off = 0x00 then x.state + 8 * b2n x.resume.isSome + 16 * x.stopCause + x.pc % 256 * 2 ^ 8 + x.resumeByte * 2 ^ 32
  else if off = 0x08 then x.offS.toNat
  else if off = 0x10 then x.offD.toNat
  else if 0x18 ≤ off ∧ off < 0x38 then
    (match x.iters[(off - 0x18) / 8]? with
     | some (pc, iter) => pc + 2 ^ 8 + iter * 2 ^ 32
     | none => 0)
  else if off = 0x38 then crcResult 0 x.crc.toNat
  else if off = 0x40 then (s.complex (complexOf n)).busAddr.toNat
  else if off = 0x48 then (s.complex (complexOf n)).busTide
  else if off = 0x50 then x.bytes
  else if off = 0x58 then x.poison
  else if off = 0x60 then b2n x.stop
  else 0

/-- A write to a channel block; `none` where it is discarded. -/
def State.writeChannel (s : State) (n off size : Nat) (value : W64) : Option State :=
  let (reg, v, _) := regPart off size value
  if reg = 0x60 then some (if v.toNat.testBit 0 then s.stopRequest n else s) else none

/-- Check-unit block, by offset. -/
def State.unitWord (s : State) (u off : Nat) : Nat :=
  let x := s.unit u
  if off = 0x00 then x.algo + 4 * x.source + 16 * b2n x.armed + 32 * b2n x.intEn + 64 * b2n x.unverifiable +
    128 * b2n x.mismatch + x.sourceNum % 256 * 2 ^ 8
  else if off = 0x08 then x.value.toNat
  else if off = 0x10 then unitResult x
  else if off = 0x18 then x.expect.toNat
  else if off = 0x20 then x.bytes
  else if off = 0x28 then low32 x.lastTide + b2n x.lastMatched * 2 ^ 32
  else 0

/-- A write to a check-unit block: MISMATCH, and VALUE while the unit is not armed, of which a 32-bit algorithm keeps bits
31:0 (R364). -/
def State.writeUnit (s : State) (u off size : Nat) (value : W64) : Option State :=
  let (reg, v, _) := regPart off size value
  if reg = 0x00 then some (if v.toNat.testBit 7 then s.modUnit u (fun x => { x with mismatch := false }) else s)
  else if reg = 0x08 && size == 8 && !(s.unit u).armed then
    some (s.modUnit u (fun x => { x with value := BitVec.ofNat 64 (v.toNat % (if x.algo = 2 then 2 ^ 64 else 2 ^ 32)), used := true }))
  else none

end Sys2Proof.Machine
end

