-- ==== Sys2Proof/Machine/Wire.lean ====
section
/-! DEFINITION. How training blocks, codewords and frames lie on the lanes: the layouts of 14 (R302, R303, R309 to R311,
R315 to R318) and of 15 (R330, R333, R334, R336, R337, R339, R346). -/

namespace Sys2Proof.Machine

/-! ### Training blocks (R302, R303) -/

/-- The 64 bits of a width word (R303). -/
def widthNat (w : WidthWord) : Nat :=
  w.trainId.toNat + w.attempt * 2 ^ 16 + b2n w.reset * 2 ^ 18 + b2n w.confirm * 2 ^ 19 + w.mask.toNat * 2 ^ 20 +
    b2n w.spareOk * 2 ^ 28 + w.agreed.toNat * 2 ^ 29 + w.role * 2 ^ 37 + w.module.toNat * 2 ^ 41 + w.port * 2 ^ 57

/-- `len` bits of a number from bit `lo` on. -/
def bitsAt (n lo len : Nat) : Nat := n / 2 ^ lo % 2 ^ len

/-- The width word that 64 bits carry (R303). -/
def widthOfNat (n : Nat) : WidthWord where
  trainId := BitVec.ofNat 16 (bitsAt n 0 16)
  attempt := bitsAt n 16 2
  reset := n.testBit 18
  confirm := n.testBit 19
  mask := BitVec.ofNat 8 (bitsAt n 20 8)
  spareOk := n.testBit 28
  agreed := BitVec.ofNat 8 (bitsAt n 29 8)
  role := bitsAt n 37 4
  module := BitVec.ofNat 16 (bitsAt n 41 16)
  port := bitsAt n 57 5

/-- Bytes 0 to 27 of a training block: marker, lane position, width word (R302). -/
def trainingFields (lane : Nat) (w : WidthWord) : List Byte := layBytes 28 [(0, 4, 0x5A5AC3C3), (4, 1, lane), (8, 8, widthNat w)]

/-- The training block that a lane position sends (R302). -/
def trainingBlock (lane : Nat) (w : WidthWord) : List Byte :=
  let b := trainingFields lane w
  b ++ toBytes 4 (crc32c b)

/-- The width word of a received block; none where the block is ignored: its CRC or its marker is wrong (R302). -/
def trainingWord (b : List Byte) : Option WidthWord :=
  if b.length = 32 ∧ fieldAt b 0 4 = 0x5A5AC3C3 ∧ fieldAt b 28 4 = crc32c (b.take 28) then some (widthOfNat (fieldAt b 8 8))
  else none

/-! ### Codewords (R309, R310) -/

/-- The 20 header bits (R310). -/
def cwSeq (c : CodewordIn) : Nat := bitsAt c.header.toNat 0 9
def cwAck (c : CodewordIn) : Nat := bitsAt c.header.toNat 9 9
def cwNak (c : CodewordIn) : Bool := c.header.getLsbD 18
def cwIdle (c : CodewordIn) : Bool := c.header.getLsbD 19

/-- The header bits of a codeword that is sent (R310). -/
def codewordHeader (seq ack : Nat) (nak idle : Bool) : BitVec 20 :=
  BitVec.ofNat 20 (seq % 512 + ack % 512 * 2 ^ 9 + b2n nak * 2 ^ 18 + b2n idle * 2 ^ 19)

/-- The 5,140 message bits as a number: the header, then byte j of the 640-byte body in bits 27 + 8j to 20 + 8j (R309).
-/
def messageBits (header : BitVec 20) (body : List Byte) : Nat := header.toNat + ofBytes (padTo 640 body) * 2 ^ 20

/-- The 544 symbols of a codeword: symbol i carries bits 10i + 9 to 10i, and the parity symbols follow (R309). -/
def codewordSymbols (header : BitVec 20) (body : List Byte) : List Nat :=
  let message := (List.range 514).map (fun i => bitsAt (messageBits header body) (10 * i) 10)
  message ++ Config.rsParity message

/-- The lane position that carries symbol i: the (i mod W)-th set bit of AGREED, counted from the lowest (R309). -/
def symbolLane (agreed : Byte) (i : Nat) : Option Nat :=
  let used := bitsSet agreed.toNat 8
  used[i % used.length]?

/-- The symbols that one lane position carries, in their order (R309). -/
def laneSymbols (agreed : Byte) (lane : Nat) (symbols : List Nat) : List Nat :=
  symbols.zipIdx.filterMap (fun x => if symbolLane agreed x.2 = some lane then some x.1 else none)

/-- Wrong symbols of a received codeword that one lane position carried. -/
def wrongOn (agreed : Byte) (c : CodewordIn) (lane : Nat) : Nat :=
  (c.errors.filter (fun i => symbolLane agreed i == some lane)).length

/-- RS(544,514) corrects up to 15 wrong symbols (R309). -/
def uncorrectable (c : CodewordIn) : Bool := decide (15 < c.errors.length)

/-- Corrected symbols of one lane position: an uncorrectable codeword has none. -/
def correctedOn (agreed : Byte) (c : CodewordIn) (lane : Nat) : Nat :=
  if uncorrectable c then 0 else wrongOn agreed c lane

/-! ### Frames (R311, R315 to R318; 15) -/

/-- TYPE of a frame (R312). -/
def frameType : FrameBody → Nat
  | .data _ => 1
  | .credit _ => 2
  | .time _ => 3
  | .reduce _ => 4
  | .gather _ => 5
  | .permute _ => 6
  | .verdict _ => 7
  | .shard _ => 8
  | .barrier _ => 9
  | .checkpoint _ => 0xA
  | .seq _ => 0xB

/-- The fields that the type gives bytes 16 to 59 of slot 0: offset, length, value. -/
def typeFields : FrameBody → List (Nat × Nat × Nat)
  | .data f =>
    [(16, 4, f.tag.toNat), (20, 1, f.entry), (21, 1, b2n f.bwd + 2 * b2n f.spec + 4 * b2n f.last), (24, 4, f.specStep.toNat),
     (32, 8, f.offset), (40, 4, f.payload.length), (44, 4, f.totalBytes)]
  | .credit f => [(16, 1, b2n f.bwd), (24, 8, f.entryMask.toNat), (32, 4, f.ckptUnits)]
  | .time f =>
    [(16, 8, f.echoSend), (24, 8, f.echoRx), (32, 1, f.hops), (33, 1, b2n f.aligned + 2 * b2n f.reference + 4 * b2n f.syncIn),
     (34, 1, f.errorEst)]
  | .reduce f =>
    [(16, 4, f.collId.toNat), (20, 4, f.step.toNat), (24, 2, f.epoch.toNat), (26, 1, f.kind), (27, 1, f.status),
     (28, 4, f.firstBlock), (32, 2, f.nblocks), (34, 2, f.contrib), (36, 4, f.scaleCrc.toNat)]
  | .gather f =>
    [(16, 4, f.collId.toNat), (20, 1, f.kind), (21, 1, f.status), (22, 1, f.plane), (24, 2, f.epoch.toNat), (26, 2, f.rank),
     (28, 2, f.dstRank), (30, 2, f.layer), (32, 2, f.serial.toNat), (34, 2, f.shard), (36, 8, f.offset),
     (44, 4, f.payload.length), (48, 4, f.total)]
  | .permute f =>
    [(16, 2, f.newEpoch.toNat), (18, 1, f.kind), (19, 1, f.status), (20, 1, f.plane), (22, 2, f.dstRank), (24, 2, f.fromRank),
     (26, 2, f.seg), (28, 8, f.offset), (36, 4, f.payload.length), (40, 8, f.total), (48, 2, f.serial.toNat)]
  | .verdict f =>
    [(16, 4, f.collId.toNat), (20, 4, f.step.toNat), (24, 1, b2n f.down),
     (25, 1, b2n f.nonfinite + 2 * b2n f.abort + 4 * b2n f.permPending + 8 * b2n f.permReady), (26, 2, f.newEpoch.toNat),
     (28, 2, f.contrib)]
  | .shard f =>
    [(16, 1, f.kind), (18, 2, f.layer), (20, 2, f.serial.toNat), (22, 2, f.dstRank), (24, 2, f.epoch.toNat), (28, 4, f.reqId)]
  | .barrier f => [(16, 4, f.collId.toNat), (20, 1, f.kind), (21, 1, f.status), (22, 2, f.contrib), (24, 8, f.latest)]
  | .checkpoint f => [(16, 8, f.offset), (24, 4, f.payload.length)]
  | .seq f => [(16, 4, f.collId.toNat), (20, 1, f.kind), (24, 8, f.offset), (32, 4, f.payload.length), (36, 4, f.total)]

/-- The payload slots: the payload, zero to whole slots (R311, R330). -/
def payloadSlots (f : Frame) : List Byte := padTo (64 * (frameSlots f - 1)) (framePayload f.body)

/-- Slot 0: the common header, the type's fields, and for a frame with payload slots their CRC-32C (R311). -/
def slotZero (f : Frame) : List Byte :=
  let h := f.hdr
  layBytes 64
    ([(0, 1, frameType f.body + 16 * b2n h.poison), (1, 1, frameSlots f), (2, 1, h.srcCtx % 16 + 16 * (h.dstCtx % 16)),
      (4, 2, h.srcModule.toNat), (6, 2, h.dstModule.toNat), (8, 8, h.sendTide)] ++ typeFields f.body ++
      (if 1 < frameSlots f then [(60, 4, crc32c (payloadSlots f))] else []))

/-- The slots of a frame as they go onto the lanes (R311). -/
def frameBytes (f : Frame) : List Byte := slotZero f ++ payloadSlots f

/-- The bodies of the codewords that carry a frame from slot 0 of the first one on; what is left of the last one are
pads, whose TYPE is 0 (R311, log 12). -/
def frameBodies (f : Frame) : List (List Byte) :=
  (List.range (frameCodewords f)).map (fun i => padTo 640 ((frameBytes f).drop (640 * i)))

end Sys2Proof.Machine
end

