-- ==== Sys2Proof/Machine/Links.lean ====
section
/-! DEFINITION. Links: training, the width-agreement exchange, codewords, lane faults and TIME frames (14; 02, R36 to
R42; R374, R377). -/

namespace Sys2Proof.Machine

/-! ### Faults declared (R374 to R377) -/

def State.modClass (s : State) (cls : Nat) (f : FaultClass → FaultClass) : State :=
  { s with log := { s.log with classes := tabMod {} s.log.classes cls f } }

/-- A fault declared: counted, recorded, and its recovery begins (R374, R376, R377). -/
def State.declareFault (s : State) (source cls unit : Nat) (noSpare : Bool) : State :=
  let overlap := s.log.recoveries.any (fun r => r.cls == cls && r.unit == unit)
  let s := s.modClass cls (fun c => { c with count := satAdd 16 c.count 1 })
  let s := s.logFlag overlap source 0x0070 sevWarning 0 cls unit
  { s with log := { s.log with recoveries := s.log.recoveries ++
      [{ cls := cls, unit := unit, since := s.tide, noSpare := noSpare, overlap := overlap, source := source }] } }

/-! ### The training of a link -/

def State.train (s : State) : Link → Train
  | .port p => (s.port p).train
  | .seam k => tabGet {} s.seamTrain k

def State.modTrain (s : State) (l : Link) (f : Train → Train) : State :=
  match l with
  | .port p => s.modPort p (fun x => { x with train := f x.train })
  | .seam k => { s with seamTrain := tabMod {} s.seamTrain k f }

/-- Whether the link exists: the port is one of the population's (R16). -/
def State.hasLink (s : State) : Link → Bool
  | .port p => decide (p.val < s.nPorts)
  | .seam _ => true

/-- A new training state; a port's change into or out of ACTIVE raises vector 21. -/
def State.setTrain (s : State) (l : Link) (st : LState) : State :=
  let old := (s.train l).state
  if old = st then s
  else
    let s := s.modTrain l (fun t => { t with state := st, lastChange := s.tide })
    match l with
    | .port _ => if old = .active || st = .active then s.raise 21 else s
    | .seam _ => s

def Train.lane (t : Train) (i : Nat) : Lane := tabGet {} t.lanes i

def Train.failLane (t : Train) (i : Nat) : Train := { t with lanes := tabMod {} t.lanes i (fun x => { x with failed := true }) }

/-- MASK of the width word: positions usable at this end, before steering (R303). -/
def Train.mask (t : Train) : Byte :=
  BitVec.ofNat 8 (sumNat ((List.range 8).map (fun i => if (t.lane i).failed then 0 else 2 ^ i)))

/-- SPARE_OK of the width word (R303). -/
def State.spareOk (s : State) : Link → Bool
  | .port p => (s.portItem p).spare.isSome && !(s.port p).train.spareFailed
  | .seam _ => false

/-- The lowest `n` set bits of a mask, counted from bit `i`. -/
def lowestBits (m : Nat) : Nat → Nat → Nat → Nat
  | 0, _, _ => 0
  | fuel + 1, i, n =>
    if n = 0 then 0
    else if m.testBit i then 2 ^ i + lowestBits m fuel (i + 1) (n - 1)
    else lowestBits m fuel (i + 1) n

/-- The largest of 8, 4, 2 and 1 that does not exceed a number of lanes, 0 for none (R304). -/
def portWidth (n : Nat) : Nat := if 8 ≤ n then 8 else if 4 ≤ n then 4 else if 2 ≤ n then 2 else if 1 ≤ n then 1 else 0

/-- C of R304, and the position steered onto the spare. -/
def steer (own peer : Byte) (spare : Bool) : Nat × Option Nat :=
  let c := (own &&& peer).toNat
  match (List.range 8).find? (fun i => !c.testBit i) with
  | some i => if spare then (c + 2 ^ i, some i) else (c, none)
  | none => (c, none)

/-- AGREED of an attempt (R304), and of the fallback exchange (R305). -/
def agreedOf (seam fallback : Bool) (c : Nat) : Byte :=
  let n := (bitsSet c 8).length
  BitVec.ofNat 8 (if fallback then lowestBits c 8 0 1 else if seam then c else lowestBits c 8 0 (portWidth n))

/-- The role that the peer port must have (R298). -/
def peerRole (role : Nat) : Nat := if role = 1 then 2 else if role = 2 then 1 else role

/-- The roles pair; those of a seam link always do. -/
def State.rolesPair (s : State) (l : Link) (w : WidthWord) : Bool :=
  match l with
  | .port p => w.role == peerRole (s.roleOf p)
  | .seam _ => true

def seamOf : Link → Option Nat
  | .seam k => some k
  | .port _ => none

def linkSource : Link → Nat
  | .port p => srcIo (p.val / 4)
  | .seam k => srcBase k

/-- ARG2 of WIDTH_FALLBACK. -/
def linkArg : Link → Nat
  | .port p => p
  | .seam k => 0x100 + k

/-- The width word that this end sends: an offer, or the confirm of its AGREED (R303, R304). -/
def State.ownWord (s : State) (l : Link) : WidthWord :=
  let t := s.train l
  let (role, module, port) := match l with
    | .port p => (s.roleOf p, s.conf.address, p.val)
    | .seam k => (0xF, 0xFFFF, k.val)
  { trainId := t.trainId, attempt := t.attempt, reset := t.reset, confirm := t.ownAgreed.isSome, mask := t.mask
    spareOk := s.spareOk l, agreed := t.ownAgreed.getD 0, role := role, module := module, port := port }

/-- The training block that a lane of the link sends: one that is not failed, in ALIGN, WIDTH and ROLE_WAIT (R302). -/
def State.ownBlock (s : State) (l : Link) (lane : Fin 8) : Option (List Byte) :=
  let t := s.train l
  if (t.state = .align || t.state = .width || t.state = .roleWait) && (!(t.lane lane).failed || t.sparePos == some lane.val)
  then some (trainingBlock lane (s.ownWord l)) else none

/-- ALIGN with the attempt and the serial that follow it. -/
def State.alignWith (s : State) (l : Link) (attempt : Nat) (id : W16) : State :=
  (s.modTrain l (fun t => { t with
    attempt := attempt, trainId := id, peerOffer := none, peerConfirm := none, ownAgreed := none })).setTrain l .align

/-- ALIGN by this end's own decision: its attempt has a newer serial, but an end that has reset keeps TRAIN_ID 0 (R305,
R306, R308). -/
def State.toAlign (s : State) (l : Link) (attempt : Nat) : State :=
  let t := s.train l
  s.alignWith l attempt (if t.reset then 0 else t.trainId + 1)

/-- The fallback exchange's marks (R305). -/
def State.noteFallback (s : State) (l : Link) : State :=
  let t := s.train l
  let c := match t.peerOffer with
    | some w => (steer t.mask w.mask (s.spareOk l && w.spareOk)).1
    | none => 0
  let width := if c = 0 then 0 else 1
  let s := match l with
    | .port p => (s.modPort p (fun x => { x with train := { x.train with
        fallback := true, fallbacks := satAdd 8 x.train.fallbacks 1 } })).raise 21
    | .seam k => { s with
        seamTrain := tabMod {} s.seamTrain k (fun t => { t with fallback := true, fallbacks := satAdd 8 t.fallbacks 1 })
        pkg := { s.pkg with seams := tabMod {} s.pkg.seams k (fun x => { x with fallbacks := satAdd 4 x.fallbacks 1 }) } }
  s.logRec (linkSource l) 0x0031 sevWarning 0 width (linkArg l)

/-- DOWN; a seam link in service changes to WIDTH 0 and writes a fatal record (R301). A change of width that the fallback
exchange (attempt 0) has counted is not counted again (R24, log 51). -/
def State.linkDown (s : State) (l : Link) : State :=
  let counted := (s.train l).attempt = 0
  let s := s.setTrain l .down
  match l with
  | .port _ => s
  | .seam k =>
    let s := { s with pkg := { s.pkg with seams := tabMod {} s.pkg.seams k (fun x => { x with
      mask := 0, width := 0, lastChange := s.tide
      fallbacks := if x.width = 0 || counted then x.fallbacks else satAdd 4 x.fallbacks 1 }) } }
    s.logRec (srcBase k) 0x0030 sevFatal 0 0 k

/-- The recovery of a lane or sub-link is of this link. -/
def Recovery.ofLink (r : Recovery) : Link → Bool
  | .port p => r.cls == 1 && r.unit / 256 == p.val
  | .seam k => r.cls == 2 && r.unit / 256 == k.val

/-- An attempt that fails during the recovery of a lane or sub-link counts as a second fault of it (R376). -/
def State.attemptFault (s : State) (l : Link) : State :=
  match s.log.recoveries.find? (fun r => r.ofLink l) with
  | some r => s.declareFault r.source r.cls r.unit r.noSpare
  | none => s

/-- What follows a failed attempt: the next one, the fallback exchange, or DOWN (R305). `next` takes up the attempt that
is given. -/
def State.afterFailure (s : State) (l : Link) (next : State → Nat → State) : State :=
  let a := (s.train l).attempt
  let s := s.attemptFault l
  if a = 0 then s.linkDown l
  else if a < 3 then next s (a + 1)
  else next (s.noteFallback l) 0

/-- A new attempt in WIDTH (R305). -/
def State.nextAttempt (s : State) (l : Link) (attempt : Nat) : State :=
  s.modTrain l (fun t => { t with
    attempt := attempt, trainId := t.trainId + 1, attemptStart := s.tide
    peerOffer := none, peerConfirm := none, ownAgreed := none })

/-- An agreement in force: VERIFY begins; a seam's status shows its width (R304, R24). -/
def State.toVerify (s : State) (l : Link) (agreed : Byte) (sparePos : Option Nat) : State :=
  let s := s.modTrain l (fun t => { t with
    agreed := agreed, sparePos := sparePos, roleMismatch := false, verifyLeft := 64, verifyCorrected := [] })
  s.setTrain l .verify

/-- Both confirms are held: the attempt succeeds, waits for the roles, or fails (R304, R305). -/
def State.judge (s : State) (l : Link) : State :=
  let t := s.train l
  match t.ownAgreed, t.peerOffer, t.peerConfirm with
  | some own, some offer, some w =>
    if own ≠ w.agreed then s.afterFailure l (fun s a => s.nextAttempt l a)
    else if own = 0 then s
    else if s.rolesPair l w then
      s.toVerify l own (steer t.mask offer.mask (s.spareOk l && offer.spareOk)).2
    else
      (s.modTrain l (fun t => { t with roleMismatch := true })).setTrain l .roleWait
  | _, _, _ => s

/-- A width word of the current attempt is accepted (R302 to R304). -/
def State.acceptWord (s : State) (l : Link) (w : WidthWord) : State :=
  let s := s.modTrain l (fun t => { t with peerModule := w.module, peerPort := w.port })
  let t := s.train l
  if w.confirm then (s.modTrain l (fun t => { t with peerConfirm := some w })).judge l
  else
    let c := (steer t.mask w.mask (s.spareOk l && w.spareOk)).1
    (s.modTrain l (fun t => { t with
      peerOffer := some w, ownAgreed := some (agreedOf (seamOf l).isSome (t.attempt == 0) c) })).judge l

/-- The newer of two serials (R50). -/
def newerOf (a b : W16) : W16 := if serialNewer a b then a else b

/-- The attempt and serial that a width word makes an end take up in place of its own: a fresh attempt after RESET, or a
newer serial (R306); none where the word does neither. -/
def Train.adopts (t : Train) (w : WidthWord) : Option (Nat × W16) :=
  if w.reset then some (1, newerOf t.trainId w.trainId + 1)
  else if serialNewer w.trainId t.trainId then some (w.attempt, w.trainId)
  else none

/-- An end that adopts its peer's fallback exchange has fallen back with it (R305). -/
def State.noteAdopted (s : State) (l : Link) (attempt : Nat) : State := if attempt = 0 then s.noteFallback l else s

/-- A width word in WIDTH or ROLE_WAIT (R306). A RESET offer that is already answered is the same word again. -/
def State.takeWord (s : State) (l : Link) (w : WidthWord) : State :=
  let t := s.train l
  if w.reset && t.peerOffer == some w then s
  else match t.adopts w with
    | some (attempt, id) =>
      let s := (s.noteAdopted l attempt).modTrain l (fun t => { t with
        trainId := id, attempt := attempt, reset := false, attemptStart := s.tide
        peerOffer := if w.reset then some w else none, peerConfirm := none, ownAgreed := none })
      if w.reset then s else s.acceptWord l w
    | none => if w.trainId ≠ t.trainId then s else s.acceptWord l w

/-! ### PORT_DETECT, CALIBRATION_DONE, SYMBOL_LOCK, ROLE_WAIT_RETRY, WIDTH_ATTEMPT_TIMEOUT (R301, R305) -/

/-- Step 10 ends: the host port is up, and the wait of step 11 begins (R406, R408). -/
def State.linkReady (s : State) : State :=
  { s with power := { s.power with step := 10, linkUp := true, startTide := s.tide } }

/-- Step 9 of start-up ends once every port with a role is ACTIVE, or 2 s after it began: PWR_GOOD rises, and the module is
in the phase Serving (R301, R406, R438). An event that finds the 2 s over ends the step (log 51). -/
def State.endStep9 (s : State) : State :=
  let up := (List.range s.nPorts).all (fun p => s.roleOf p == 0 || (s.port p).train.state == .active)
  if s.power.phase = .starting && s.power.step = 8 && (up || decide (s.power.startTide + 2000000000 ≤ s.tide)) then
    let s := ({ s with power := { s.power with step := 9, phase := .serving, pwrGood := true } } : State).refreshFault
    if s.power.perstReleased && s.power.refclkOk then s.linkReady else s
  else s

/-- PORT_DETECT: the port looks for its peer, every 1 ms in DETECT and in DOWN (R301). -/
def execPortDetect (dt : Nat) (port : Fin 24) (present : Bool) (s : State) : Result :=
  let s := s.advance dt
  let t := s.train (.port port)
  if !(t.state = .detect || t.state = .down) || !s.hasLink (.port port) ||
      t.lastLook.any (fun at_ => decide (s.tide < at_ + 1000000)) then .next s.endStep9
  else
    let s := s.modTrain (.port port) (fun t => { t with lastLook := some s.tide })
    .next (if present then s.setTrain (.port port) .calibrate else s).endStep9

/-- CALIBRATION_DONE: eye margins of positions 0 to 7, and the spare's ninth; a lane below the margin fails. -/
def execCalibrationDone (dt : Nat) (link : Link) (margins : List Nat) (s : State) : Result :=
  let s := s.advance dt
  if (s.train link).state ≠ .calibrate then s.idle
  else
    let s := s.modTrain link (fun t =>
      let t := (List.range 8).foldl (fun (t : Train) i =>
        let m := margins.getD i 0
        { t with lanes := tabMod {} t.lanes i (fun x => { x with
          margin := m, failed := x.failed || decide (m < Config.eyeMargin) }) }) t
      { t with spareFailed := t.spareFailed || decide (margins.getD 8 0 < Config.eyeMargin) })
    .next (s.toAlign link 1)

/-- SYMBOL_LOCK: ALIGN is done, and the attempt begins. -/
def execSymbolLock (dt : Nat) (link : Link) (s : State) : Result :=
  let s := s.advance dt
  if (s.train link).state ≠ .align then s.idle
  else .next ((s.modTrain link (fun t => { t with attemptStart := s.tide })).setTrain link .width)

/-- ROLE_WAIT_RETRY: the exchange is repeated, 1 ms after it began (R301, R300). -/
def execRoleWaitRetry (dt : Nat) (port : Fin 24) (s : State) : Result :=
  let s := s.advance dt
  let t := s.train (.port port)
  if t.state ≠ .roleWait || decide (s.tide < t.attemptStart + 1000000) then s.idle else .next (s.nextAttempt (.port port) 1)

/-- WIDTH_ATTEMPT_TIMEOUT: 20 µs without agreement (R305). -/
def execWidthAttemptTimeout (dt : Nat) (link : Link) (s : State) : Result :=
  let s := s.advance dt
  let t := s.train link
  if t.state ≠ .width || decide (s.tide < t.attemptStart + 20000) then s.idle
  else .next (s.afterFailure link (fun s a => s.nextAttempt link a))

/-! ### Retrains (R300, R308) -/

/-- A partial retrain is counted by its port (R300, R308). -/
def State.countRetrain (s : State) (l : Link) : State :=
  match l with
  | .port p => s.modPort p (fun x => { x with retrains := satAdd 16 x.retrains 1 })
  | .seam _ => s

/-- A partial retrain of a port: it keeps its calibration and its failed lanes (R300, R308). -/
def State.partialRetrain (s : State) (p : Nat) : State :=
  if h : p < 24 then (s.countRetrain (.port ⟨p, h⟩)).toAlign (.port ⟨p, h⟩) 1 else s

/-- A training block on a link that has left WIDTH: an ACTIVE link enters ALIGN, as its peer has (R308); a verifying one
does so only where the word makes it take up another attempt (R306). -/
def State.blockInService (s : State) (l : Link) (w : WidthWord) : State :=
  let t := s.train l
  if t.state = .active then (s.countRetrain l).alignWith l 1 t.trainId
  else match t.adopts w with
    | some (attempt, id) => (s.noteAdopted l attempt).alignWith l attempt id
    | none => s

/-- TRAINING_BLOCK_RECEIVE: bytes 0 to 27 of a block, and its CRC in bytes 28 to 31; a block whose CRC fails is ignored
(R302). -/
def execTrainingBlockReceive (dt : Nat) (link : Link) (fields : List Byte) (crc : W32) (s : State) : Result :=
  let s := s.advance dt
  let st := (s.train link).state
  match trainingWord (fields ++ toBytes 4 crc.toNat) with
  | none => s.idle
  | some w =>
    if st = .active || st = .verify then .next (s.blockInService link w)
    else if st = .width || st = .roleWait then .next (s.takeWord link w)
    else s.idle

/-- A lane position whose lane has failed: the corrections of the last 1 ms were that lane's, and the lane that takes its
place starts without any (R307). -/
def Train.forget (t : Train) (i : Nat) : Train := { t with lanes := tabMod {} t.lanes i (fun x => { x with recent := [] }) }

/-- A lane fault (R307, R308): the lane, or the spare that carries its position, fails, and the port retrains. -/
def State.laneFault (s : State) (p lane : Nat) : State :=
  let t := (s.port p).train
  let onSpare := t.sparePos == some lane
  let noSpare := (s.portItem p).spare.isNone || t.spareFailed || t.sparePos.isSome
  let s := s.modPort p (fun x => { x with
    laneFaults := satAdd 16 x.laneFaults 1, failing := []
    train := (if onSpare then { x.train with spareFailed := true } else x.train.failLane lane).forget lane })
  (s.declareFault (srcIo (p / 4)) 1 (p * 256 + lane) noSpare).partialRetrain p

/-- LANE_FAULT: a lane of an ACTIVE port that is in use loses symbol lock (R307). -/
def execLaneFault (dt : Nat) (port : Fin 24) (lane : Fin 8) (s : State) : Result :=
  let s := s.advance dt
  if !s.portActive port || !(s.port port).train.agreed.toNat.testBit lane then s.idle
  else .next (s.laneFault port lane)

/-- SEAM_SUBLINK_FAULT: the sub-link fails, and the seam link retrains without it (R24, R374, R379). -/
def execSeamSublinkFault (dt : Nat) (seam : Fin 3) (sub : Fin 8) (s : State) : Result :=
  let s := s.advance dt
  let t := s.train (.seam seam)
  if t.state ≠ .active || !t.agreed.toNat.testBit sub then s.idle
  else
    let s := s.modTrain (.seam seam) (fun t => t.failLane sub)
    let s := s.declareFault (srcBase seam) 2 (seam * 256 + sub) false
    .next (s.toAlign (.seam seam) 1)

/-! ### VERIFY (R301) -/

/-- A context's collective goes on with what it holds (R386). -/
def State.wakeCtx (s : State) (c : CollCtx) : State :=
  match c.kind with
  | 0 => s.wakeReduce c
  | 1 => s.wakeGather c
  | _ => s.runBarrier c

/-- Accesses that a pause held go on once it has ended: the collectives of every open context, the ring shifts, and the
shards asked for (R24, R222, R301, R464). -/
def State.wakeHeld (s : State) : State :=
  let s := (s.coll.ctxs.foldl State.wakeCtx s).vote
  (s.coll.shifts.foldl (fun st h => match h.cmd.bind st.findCmd with
    | some c => st.runShift c
    | none => st) s).serveShards

/-- The status of a seam link that is ACTIVE: a change of its width is recorded, and counted where no fallback exchange
has counted it already (R24, R305; log 51). -/
def Seam.activate (x : Seam) (t : Train) (tide : Nat) : Seam :=
  let w := (bitsSet t.agreed.toNat 8).length
  if x.width = w then { x with mask := t.agreed }
  else { x with
    mask := t.agreed, width := w, lastChange := tide
    fallbacks := if t.attempt = 0 then x.fallbacks else satAdd 4 x.fallbacks 1 }

/-- The link carries traffic, and what it held goes on; the contexts of the two modules compare their sluices (R253). -/
def State.toActive (s : State) (l : Link) : State :=
  let s := s.setTrain l .active
  match l with
  | .port p => ((s.hearPeers (· == p)).pump p).endStep9
  | .seam k =>
    let t := s.train l
    { s with pkg := { s.pkg with seams := tabMod {} s.pkg.seams k (fun x => x.activate t s.tide) } }.wakeHeld

/-- The lane in use that carried the most wrong symbols of a codeword, the lowest of equals (log 34). -/
def worstLane (agreed : Byte) (cw : CodewordIn) : Option Nat :=
  let used := bitsSet agreed.toNat 8
  used.find? (fun i => used.all (fun j => decide (wrongOn agreed cw j ≤ wrongOn agreed cw i)))

/-- The lane that a failed VERIFY fails: one beyond 8 corrected symbols, or, for an uncorrectable codeword, the worst
one (R301; log 34). -/
def Train.verifyFailed (t : Train) (cw : CodewordIn) : Option Nat :=
  match (bitsSet t.agreed.toNat 8).find? (fun i => decide (8 < tabGet 0 t.verifyCorrected i)) with
  | some i => some i
  | none => if uncorrectable cw then worstLane t.agreed cw else none

/-- Corrected symbols of one lane position: the total, and those of the last 1 ms (R307). -/
def Lane.correct (x : Lane) (tide n : Nat) : Lane :=
  { x with
    corrected := satAdd 32 x.corrected n
    recent := (if n = 0 then [] else [(tide, n)]) ++ x.recent.filter (fun e => decide (tide < e.1 + 1000000)) }

/-- The corrections of one codeword, lane by lane (R307). -/
def Train.correct (t : Train) (tide : Nat) (cw : CodewordIn) : Train :=
  { t with lanes := (List.range 8).foldl (fun ls i =>
      let n := correctedOn t.agreed cw i
      if n = 0 && (tabGet {} ls i).recent.isEmpty then ls else tabMod {} ls i (fun x => x.correct tide n)) t.lanes }

/-- The corrections of one codeword on a link: LANE i, and FEC_CORRECTED of a port (R307). -/
def State.countFec (s : State) (l : Link) (cw : CodewordIn) : State :=
  let agreed := (s.train l).agreed
  let n := sumNat ((List.range 8).map (correctedOn agreed cw))
  let s := s.modTrain l (fun t => t.correct s.tide cw)
  match l with
  | .port p => s.modPort p (fun x => { x with fecCorrected := (x.fecCorrected + n) % 2 ^ 64 })
  | .seam _ => s

/-- A codeword that could not be corrected, or a payload CRC failure, in FEC_UNCORRECTABLE. -/
def State.countUncorr (s : State) (l : Link) : State :=
  match l with
  | .port p => s.modPort p (fun x => { x with fecUncorr := satAdd 32 x.fecUncorr 1, fecTide := s.tide })
  | .seam _ => s

/-- A test codeword (R301). -/
def State.verifyWord (s : State) (l : Link) (cw : CodewordIn) : State :=
  let s := s.countFec l cw
  let s := if uncorrectable cw then s.countUncorr l else s
  let s := s.modTrain l (fun t => { t with
    verifyLeft := t.verifyLeft - 1
    verifyCorrected := (List.range 8).map (fun i => (i, tabGet 0 t.verifyCorrected i + correctedOn t.agreed cw i)) })
  let t := s.train l
  match t.verifyFailed cw with
  | some i =>
    let s := s.modTrain l (fun t => if t.sparePos = some i then { t with spareFailed := true } else t.failLane i)
    s.afterFailure l (fun s a => s.toAlign l a)
  | none => if t.verifyLeft = 0 then s.toActive l else s

/-! ### Codewords (R307, R309, R310) -/

def codewordsSent (fs : List Frame) : Nat := sumNat (fs.map frameCodewords)

/-- Frames still held for replay while `n` codewords are unacknowledged: the shortest tail that holds them all. -/
def keepUnacked (n : Nat) : List Frame → List Frame
  | [] => []
  | f :: fs => if n ≤ codewordsSent fs then keepUnacked n fs else f :: fs

/-- ACK_SEQ: everything up to and including that number is acknowledged (R310). -/
def Port.acked (x : Port) (ack : Nat) : Port :=
  let oldest := (x.txSeq + 512 - x.unacked) % 512
  let n := (ack + 1 + 512 - oldest) % 512
  if x.unacked < n then x
  else { x with unacked := x.unacked - n, sent := keepUnacked (x.unacked - n) x.sent }

/-- The lane that has had more than 4,096 corrected symbols within 1 ms (R307). -/
def Train.tooMany (t : Train) : Option Nat :=
  (bitsSet t.agreed.toNat 8).find? (fun i => decide (4096 < sumNat ((t.lane i).recent.map (fun e => e.2))))

/-- The codeword that the receiver accepts next (R310). -/
def Port.expected (x : Port) : Nat := (x.rxSeq + 1) % 512

/-- A codeword that is refused: NAK is owed, and each codeword's failed replays are counted until it comes good (R307,
R310). Codewords after the one that is expected are discarded and fail no replay, and an IDLE one is never replayed. -/
def Port.refuse (x : Port) (cw : CodewordIn) : Port :=
  if cwIdle cw || cwSeq cw != x.expected then { x with nakOwed := true }
  else { x with
    nakOwed := true
    failing := tabSet x.failing (cwSeq cw) (((tabFind x.failing (cwSeq cw)).map (· + 1)).getD 0) }

/-- A codeword that is accepted: its number is the last good one, and its failing is over (R310). -/
def Port.accept (x : Port) (seq : Nat) : Port := { x with rxSeq := seq, nakOwed := false, failing := tabDel x.failing seq }

/-- A payload CRC failure: an uncorrectable codeword at the frame's first one, so that the replay begins there (R311).
-/
def Port.rewind (x : Port) (first : Nat) (cw : CodewordIn) : Port := { x.refuse cw with rxSeq := (first + 511) % 512 }

/-- What a good codeword's header acknowledges and asks for (R310). -/
def Port.header (x : Port) (cw : CodewordIn) : Port :=
  let x := x.acked (cwAck cw)
  if cwNak cw then { x with replays := satAdd 32 x.replays x.unacked } else x

/-- The body of a good codeword that the receiver expects: it is accepted, and its frames of a reserved TYPE are discarded
and counted (R312); or a payload CRC that fails in it rewinds the link, and its replay counts them (R311). -/
def State.takeBody (s : State) (p : Fin 24) (cw : CodewordIn) : State :=
  match cw.crcFirst with
  | none => s.modPort p (fun x => { x.accept (cwSeq cw) with discarded := satAdd 32 x.discarded cw.reserved })
  | some first => (s.countUncorr (.port p)).modPort p (fun x => x.rewind first cw)

/-- A codeword of an ACTIVE port (R310). -/
def State.portWord (s : State) (p : Fin 24) (cw : CodewordIn) : State :=
  let s := s.countFec (.port p) cw
  let s :=
    if uncorrectable cw then (s.countUncorr (.port p)).modPort p (fun x => x.refuse cw)
    else
      let s := s.modPort p (fun x => x.header cw)
      let s := if !cwIdle cw && cwSeq cw == (s.port p).expected then s.takeBody p cw else s
      s.pump p
  let x := s.port p
  match x.train.tooMany with
  | some i => s.laneFault p i
  | none =>
    if x.failing.any (fun e => decide (16 ≤ e.2)) then
      match worstLane x.train.agreed cw with
      | some i => s.laneFault p i
      | none => s
    else s

/-- CODEWORD_RECEIVE (R301, R307, R310). -/
def execCodewordReceive (dt : Nat) (link : Link) (cw : CodewordIn) (s : State) : Result :=
  let s := s.advance dt
  if (s.train link).state = .verify then .next (s.verifyWord link cw)
  else match link with
    | .port p => if s.portActive p then .next (s.portWord p cw) else s.idle
    | .seam _ => s.idle

/-! ### TIME frames and alignment (R38 to R42, R317) -/

/-- ERROR_EST and ALIGNED after a measurement (R41, R42): a loss is counted and recorded. -/
def State.setError (s : State) (est source : Nat) : State :=
  let was := s.time.aligned
  let now := decide (est ≤ 5)
  let s := { s with time := { s.time with
    errorEst := min 255 est, source := source, aligned := now
    alignLosses := if was && !now then satAdd 16 s.time.alignLosses 1 else s.time.alignLosses
    lastAlignChange := if was == now then s.time.lastAlignChange else s.tide } }
  if was && !now then s.logRec 0 0x0010 sevWarning 0 (min 255 est) source else s

/-- HOPS that this module's TIME frames carry (R317). -/
def ownHops (s : State) : Nat :=
  if s.conf.isReference || (s.time.aligned && s.time.source == 1) then 0
  else if s.time.aligned then s.time.hops else 0xFF

/-- TIME_FRAME_SEND (R40, R317); a port that is not ACTIVE has none to exchange. -/
def execTimeFrameSend (dt : Nat) (port : Fin 24) (s : State) : Result :=
  let s := s.advance dt
  if !s.portActive port || s.roleOf port = 0 then s.idle
  else
    let (es, er) := (s.port port).lastTime.getD (0, 0)
    .next (s.send port { dstModule := (s.portItem port).peerModule }
      (.time { echoSend := es, echoRx := er, hops := ownHops s, aligned := s.time.aligned,
               reference := s.conf.isReference, syncIn := s.time.source == 1, errorEst := s.time.errorEst }))

/-- Twice the link delay of R317, for a frame sent at `send` that arrives at `t`. -/
def doubleDelay (t send : Nat) (f : TimeF) : Int := ((t : Int) - f.echoSend) - ((send : Int) - f.echoRx)

/-- The port from which the module aligns (R317): REF_PORT, or the ACTIVE port with the lowest HOPS. -/
def State.timePort (s : State) : Option Nat :=
  if s.conf.refPort ≠ 0x1F then some s.conf.refPort
  else
    let ps := (List.range s.nPorts).filter (fun p => s.portActive p && decide ((s.port p).peerHops ≠ 0xFF))
    ps.find? (fun p => ps.all (fun q => decide ((s.port p).peerHops ≤ (s.port q).peerHops)))

/-- A limit of time that runs across the alignment step begins again there (log 51). -/
def Train.restart (t : Train) (tide : Nat) : Train :=
  { t with
    attemptStart := tide, lastLook := t.lastLook.map (fun _ => tide)
    lanes := t.lanes.map (fun (e : Nat × Lane) => (e.1, { e.2 with recent := e.2.recent.map (fun r => (tide, r.2)) })) }

/-- Tidemark set at the alignment step, and the module is ready (R37, R38, R406). What counts a time from the old
Tidemark counts it from the new one: a pulse at TIDE_SYNC_OUT ends 1,000 ns after it began (R446). -/
def State.reachReady (s : State) (tide : Nat) : State :=
  let left := s.power.syncOutUntil - s.tide
  let s := { s with
    tide := tide
    power := { s.power with syncOutUntil := tide + left }
    ports := s.ports.map (fun (e : Nat × Port) => (e.1, { e.2 with train := e.2.train.restart tide }))
    seamTrain := s.seamTrain.map (fun (e : Nat × Train) => (e.1, e.2.restart tide))
    log := { s.log with rates := s.log.rates.map (fun (r : LogRate) => { r with recent := r.recent.map (fun _ => tide) }) }
    commit := { s.commit with lastCommitTide := tide, lastConfigTide := tide }
    time := { s.time with lastAlignChange := tide } }
  let fw := s.power.fw.map (fun (e : Nat × FwState) =>
    let img := if e.2.activeB then e.2.imageB else e.2.imageA
    match img with
    | some i => (e.1, if i.raiseSvn && s.conf.raiseSvn then { e.2 with minSvn := max e.2.minSvn i.svn } else e.2)
    | none => e)
  { s with power := { s.power with step := 11, ready := true, phase := .serving, fw := fw } }

/-- The number nearest to `value` that is `phase` and a whole number of milliseconds: the pulse carries only the phase,
and time frames the count of milliseconds (R40). -/
def atPhase (phase value : Int) : Int := phase + 1000000 * ((value - phase + 500000) / 1000000)

/-- The alignment step: the module adopts the time that an aligned neighbour offers, whichever port it is on, the time
reference included (R38, R40). -/
def State.adoptTime (s : State) (tide hops est : Nat) : State :=
  let s := s.reachReady tide
  let s := { s with time := { s.time with hops := min 0xFF (hops + 1) } }
  if s.conf.isReference then s.setError 0 0 else s.setError (Config.alignError 0 est) 2

/-- The correction that a frame of the module's source port gives in service (R37, R40): the whole offset, or the
milliseconds alone where TIDE_SYNC_IN gives the phase. DESIGN CHOICE (log 51): the spec does not say when a source of pulses
that has stopped ceases to be the source; SOURCE_IN_USE stays at TIDE_SYNC_IN until a configuration excludes it. -/
def State.followTime (s : State) (offset : Int) (hops est : Nat) : State :=
  if s.conf.isReference || !s.power.ready || hops = 0xFF then s
  else if s.time.source = 1 then { s with time := { s.time with slew := atPhase s.time.slew offset } }
  else if s.conf.sourceSelect = 1 then s
  else { s with time := { s.time with slew := offset, hops := min 0xFF (hops + 1) } }.setError (Config.alignError offset est) 2

/-- ALIGNED changes by a frame. -/
def alignChanges (s : State) : Result → Bool
  | .next t => s.time.aligned != t.time.aligned
  | _ => false

/-- TIME_FRAME_RECEIVE (R317): the measurement, and the alignment that it gives. A frame that echoes nothing gives no
delay. A change of ALIGNED in service is stamped later than the frame's SEND_TIDE (R46). -/
def execTimeFrameReceive (dt : Nat) (port : Fin 24) (hdr : FrameHdr) (f : TimeF) (s : State) : Result :=
  let s := s.advance dt
  let r := s.receive port hdr (.time f) true (fun s =>
    let t := s.tide
    let echoed := f.echoSend != 0
    let d2 := doubleDelay t hdr.sendTide f
    let s := s.modPort port (fun x => { x with
      delay := if echoed then min 0xFFFF (5 * d2).toNat else x.delay
      peerHops := f.hops, peerAligned := f.aligned, lastRx := t, lastTime := some (hdr.sendTide, t) })
    if !echoed then s
    else if s.power.phase = .serving && s.power.step = 10 then
      (if f.aligned then s.adoptTime (hdr.sendTide + (d2 / 2).toNat) f.hops f.errorEst else s)
    else if s.timePort = some port.val then s.followTime ((hdr.sendTide : Int) + d2 / 2 - t) f.hops f.errorEst
    else s)
  if s.power.ready && decide (s.tide ≤ hdr.sendTide) && alignChanges s r then s.idle else r

/-! ### Registers (14) -/

def LState.code : LState → Nat
  | .off => 0
  | .detect => 1
  | .calibrate => 2
  | .align => 3
  | .width => 4
  | .roleWait => 5
  | .verify => 6
  | .active => 7
  | .down => 8

def laneWord (s : State) (p i : Nat) : Nat :=
  let t := (s.port p).train
  let x := t.lane i
  let spared := t.sparePos == some i
  let logical := if spared then 32 + (s.portItem p).spare.getD 0 else 8 * (p % 4) + i
  let state := if x.failed && !spared then 2 else if t.agreed != 0 && !t.agreed.toNat.testBit i then 1 else 0
  logical + state * 2 ^ 6 + min x.margin 255 * 2 ^ 8 + x.corrected * 2 ^ 32

/-- Port block, by offset; every register is read-only. -/
def State.portWordAt (s : State) (p off : Nat) : Nat :=
  let x := s.port p
  let t := x.train
  let i := s.portItem p
  if s.nPorts ≤ p then 0
  else if off = 0x000 then
    t.state.code + i.role * 2 ^ 4 + (bitsSet t.agreed.toNat 8).length * 2 ^ 8 + t.agreed.toNat * 2 ^ 12 +
      t.sparePos.getD 0 * 2 ^ 20 + b2n t.sparePos.isSome * 2 ^ 23 + b2n t.roleMismatch * 2 ^ 24 + b2n t.fallback * 2 ^ 25 +
      t.peerModule.toNat * 2 ^ 32 + t.peerPort * 2 ^ 48
  else if off = 0x008 then
    i.role + i.spare.getD 0 * 2 ^ 4 + b2n i.spare.isSome * 2 ^ 6 + i.peerModule.toNat * 2 ^ 16 + i.peerPort * 2 ^ 32
  else if off = 0x010 then t.trainId.toNat + t.attempt % 4 * 2 ^ 16 + t.fallbacks * 2 ^ 24 + low32 t.lastChange * 2 ^ 32
  else if off = 0x018 then x.fecCorrected
  else if off = 0x020 then x.fecUncorr + low32 x.fecTide * 2 ^ 32
  else if off = 0x028 then x.replays + x.laneFaults * 2 ^ 32 + x.retrains * 2 ^ 48
  else if off = 0x030 then x.delay + x.peerHops * 2 ^ 16 + b2n x.peerAligned * 2 ^ 24 + low32 x.lastRx * 2 ^ 32
  else if off = 0x038 then x.framesTx
  else if off = 0x040 then x.framesRx
  else if off = 0x048 then x.discarded + x.poisoned * 2 ^ 32
  else if 0x100 ≤ off ∧ off < 0x140 then laneWord s p ((off - 0x100) / 8)
  else 0

end Sys2Proof.Machine
end

