-- ==== Sys2Proof/Machine/ConfigCmd.lean ====
section
/-! DEFINITION. Configuration records, staging, quiescence and the apply (18, R415 to R419; 02, R54 to R57; 12, R251,
R253, R466). -/

namespace Sys2Proof.Machine

/-! ### Items (R416) -/

/-- Every byte but those listed as (offset, length) is zero. -/
def restZero (bs : List Byte) (used : List (Nat × Nat)) : Bool :=
  (List.range bs.length).all (fun i => used.any (fun u => decide (u.1 ≤ i) && decide (i < u.1 + u.2)) || fieldAt bs i 1 == 0)

/-- Population maximum (R402), in W. -/
def popMaxW (suffix : Nat) : Nat := if suffix = 0 then 3010 else if suffix = 1 then 3000 else 2990

/-- SPARE_ROUTE as the spare's q: none, or the default of R297, port 4x + q. -/
def spareOf (port route : Nat) : Option Nat :=
  if route ≤ 3 then some route else if route = 0xFF then some (port % 4) else none

def portItemOf (b : List Byte) : PortItem :=
  { role := fieldAt b 1 1, spare := spareOf (fieldAt b 0 1) (fieldAt b 2 1), peerModule := BitVec.ofNat 16 (fieldAt b 4 2)
    peerPort := fieldAt b 6 1 }

def ctxItemOf (b : List Byte) : CtxItem :=
  { dieMask := BitVec.ofNat 12 (fieldAt b 4 2), prevKind := fieldAt b 1 1 % 4, nextKind := fieldAt b 1 1 / 16 % 4
    prevPort := fieldAt b 2 1, nextPort := fieldAt b 3 1, prevModule := BitVec.ofNat 16 (fieldAt b 6 2)
    nextModule := BitVec.ofNat 16 (fieldAt b 8 2), prevCtx := fieldAt b 10 1, nextCtx := fieldAt b 11 1
    fwdLand := fieldAt b 16 8, fwdEntryBytes := fieldAt b 24 4, fwdDepth := fieldAt b 28 1
    bwdLand := fieldAt b 32 8, bwdEntryBytes := fieldAt b 40 4, bwdDepth := fieldAt b 44 1
    nextEntryBytes := fieldAt b 48 4, nextDepth := fieldAt b 52 1
    prevEntryBytes := fieldAt b 56 4, prevDepth := fieldAt b 60 1 }

/-- A sluice's geometry is in the ranges of R251. -/
def geometryOk (bytes depth : Nat) : Bool :=
  decide (256 ≤ bytes) && decide (bytes ≤ 2 ^ 30) && decide (1 ≤ depth) && decide (depth ≤ 64)

/-- A sluice in use: landing address and geometry (R251). -/
def State.sluiceOk (s : State) (land bytes depth : Nat) : Bool :=
  geometryOk bytes depth && land % 256 == 0 && s.inSpace [2, 4, 5] none land ((depth - 1) * roundUp bytes 256 + bytes)

/-- A peer of a side in use: for a causeway, a port that has the side's pipeline role in `conf`, the configuration that
results (R251, R298; log 40). -/
def State.peerOk (s : State) (conf : Conf) (role kind port ctx : Nat) : Bool :=
  (kind != 1 || (decide (port < s.nPorts) && (tabGet {} conf.ports port).role == role)) && decide (ctx < 16)

/-- Every item of a side in use lies in its range; a side of kind none is not checked (R251, R466). -/
def State.ctxItemOk (s : State) (conf : Conf) (i : CtxItem) : Bool :=
  decide (i.prevKind ≤ 2) && decide (i.nextKind ≤ 2) &&
    (i.prevKind == 0 || (s.sluiceOk i.fwdLand i.fwdEntryBytes i.fwdDepth && geometryOk i.prevEntryBytes i.prevDepth &&
      s.peerOk conf 1 i.prevKind i.prevPort i.prevCtx)) &&
    (i.nextKind == 0 || (s.sluiceOk i.bwdLand i.bwdEntryBytes i.bwdDepth && geometryOk i.nextEntryBytes i.nextDepth &&
      s.peerOk conf 2 i.nextKind i.nextPort i.nextCtx))

/-- LENGTH of an item type (R416). -/
def itemLength (type : Nat) : Option Nat :=
  if type = 1 ∨ type = 2 ∨ type = 3 then some 4
  else if type = 5 then some 64
  else if type = 4 ∨ type = 6 ∨ type = 7 ∨ type = 8 ∨ type = 9 then some 8
  else none

/-- An item's body has its length, its ranges and zeros elsewhere (R416); `conf` is the configuration that the whole set
gives. -/
def State.itemOk (s : State) (conf : Conf) (type : Nat) (b : List Byte) : Bool :=
  let f (o n : Nat) : Nat := fieldAt b o n
  itemLength type == some b.length &&
  (if type = 1 then decide (f 0 1 ≤ 2) && restZero b [(0, 1)]
   else if type = 2 then f 0 2 != 0xFFFF && restZero b [(0, 2)]
   else if type = 3 then decide (f 0 1 < 4) && restZero b [(0, 1)]
   else if type = 4 then
     decide (f 0 1 < s.nPorts) && decide (f 1 1 ≤ 6) && (decide (f 2 1 ≤ 3) || decide (0xFE ≤ f 2 1)) &&
       decide (f 6 1 < 32) && restZero b [(0, 3), (4, 3)]
   else if type = 5 then
     decide (f 0 1 < 16) && f 1 1 &&& 0xCC == 0 && decide (f 4 2 < 4096) && s.ctxItemOk conf (ctxItemOf b) &&
       restZero b [(0, 12), (16, 13), (32, 13), (48, 5), (56, 5)]
   else if type = 6 then
     decide (f 0 1 < 16) && f 0 1 % 4 != 3 && (decide (f 1 1 < 24) || f 1 1 == 0x1F) && restZero b [(0, 4)]
   else if type = 7 then
     decide (1000 ≤ f 0 2) && decide (f 0 2 ≤ popMaxW s.pkg.suffix) && decide (700 ≤ f 2 2) && decide (f 2 2 ≤ 780) &&
       restZero b [(0, 4)]
   else if type = 8 then f 0 8 % 2 ^ 18 == 2 ^ 18 - 1
   else decide (700 ≤ f 0 2) && decide (f 0 2 ≤ 780) && restZero b [(0, 2), (4, 4)])

/-- Key of an item: its type, and its port or context. -/
def itemKey (type : Nat) (b : List Byte) : Nat := type * 256 + if type = 4 ∨ type = 5 then fieldAt b 0 1 else 0

/-- The configuration with one item's values (R416). -/
def Conf.withItem (c : Conf) (type : Nat) (b : List Byte) : Conf :=
  let f (o n : Nat) : Nat := fieldAt b o n
  if type = 1 then { c with population := f 0 1 }
  else if type = 2 then { c with address := BitVec.ofNat 16 (f 0 2) }
  else if type = 3 then { c with stageSigned := (f 0 1).testBit 0, raiseSvn := (f 0 1).testBit 1 }
  else if type = 4 then { c with ports := tabSet c.ports (f 0 1) (portItemOf b) }
  else if type = 5 then { c with ctxs := tabSet c.ctxs (f 0 1) (ctxItemOf b) }
  else if type = 6 then
    { c with sourceSelect := f 0 1 % 4, isReference := (f 0 1).testBit 2, syncOutEn := (f 0 1).testBit 3, refPort := f 1 1
             syncInDelay := f 2 2 }
  else if type = 7 then { c with moduleLimitW := f 0 2, coreMaxMv := f 2 2 }
  else if type = 8 then { c with vectorEnable := BitVec.ofNat 64 (f 0 8) }
  else { c with idleMv := f 0 2, idleAfterUs := f 4 4 }

/-- The configuration with every item of a set (R418). -/
def Conf.withItems (c : Conf) (items : List (Nat × List Byte)) : Conf := items.foldl (fun c i => c.withItem i.1 i.2) c

/-- Items of an image, in order (R415): type and body, and whether an item ran past the end. -/
def splitItems : Nat → List Byte → List (Nat × List Byte) × Bool
  | 0, bs => ([], bs.isEmpty)
  | fuel + 1, bs =>
    if bs.isEmpty then ([], true)
    else
      let n := fieldAt bs 2 2
      if bs.length < 4 + n then ([], false)
      else
        let (rest, ok) := splitItems fuel (bs.drop (4 + n))
        ((fieldAt bs 0 2, (bs.drop 4).take n) :: rest, ok)

/-- Items of an image of TOTAL_BYTES. -/
def imageItems (img : List Byte) : List (Nat × List Byte) × Bool :=
  splitItems img.length ((img.take (fieldAt img 8 4)).drop 128)

/-- The header of an image read as `n` bytes (R415, R418). A count of items that the items do not bear out is a header
failure, unless the first item missing runs past the end. -/
def headerOk (img : List Byte) (n sig : Nat) : Bool :=
  let total := fieldAt img 8 4
  let items := imageItems img
  fieldAt img 0 4 == 0x4E524346 && fieldAt img 4 2 == 1 && fieldAt img 6 2 == 0 && decide (128 ≤ total) &&
    decide (total ≤ 65536) && decide (total + sig ≤ n) && restZero (img.take 128) [(0, 84)] &&
    (if items.2 then items.1.length == fieldAt img 80 4 else decide (items.1.length < fieldAt img 80 4))

def sigBytes : Nat := 4627

/-- "ONR-CONFIG" (R415). -/
def configContext : List Byte := [0x4F, 0x4E, 0x52, 0x2D, 0x43, 0x4F, 0x4E, 0x46, 0x49, 0x47]

/-- The owner key's signature directly after the items (R415). -/
def signatureOk (key img : List Byte) : Bool :=
  let total := fieldAt img 8 4
  Config.mlDsaVerify key configContext (img.take total) ((img.drop total).take sigBytes)

/-- OWNER_KEY_DIGEST names the enrolled owner key (R417). -/
def digestOk (key img : List Byte) : Bool := (img.drop 16).take 64 == Config.sha3 key

/-- The configuration of R417 before any item. -/
def Conf.default (suffix : Nat) : Conf := { population := suffix, moduleLimitW := popMaxW suffix }

/-- A configuration record is valid for this population (R417): the configuration it gives, or `none`. -/
def State.recordConf (s : State) (img : List Byte) : Option Conf :=
  let items := imageItems img
  let keys := items.1.map (fun i => itemKey i.1 i.2)
  let once (t : Nat) : Bool := (items.1.filter (fun i => i.1 == t)).length == 1
  let pop := match items.1.find? (fun i => i.1 == 1) with
    | some i => fieldAt i.2 0 1
    | none => 0
  let s' := { s with pkg := { s.pkg with suffix := pop } }
  let conf := (Conf.default pop).withItems items.1
  if headerOk img img.length sigBytes && items.2 && signatureOk s.power.ownerKey img && digestOk s.power.ownerKey img &&
      decide (s.power.lastRecordSerial ≤ fieldAt img 12 4) && once 1 && once 2 && once 3 &&
      keys.eraseDups.length == keys.length && items.1.all (fun i => s'.itemOk conf i.1 i.2) then some conf
  else none

/-! ### CONFIG_STAGE (R418) -/

/-- Index of the first item that may not be staged (R418). -/
def State.badItem (s : State) (items : List (Nat × List Byte) × Bool) : Option Nat :=
  let keys := items.1.map (fun i => itemKey i.1 i.2)
  let conf := s.conf.withItems items.1
  match (List.range items.1.length).find? (fun n =>
      let i := items.1.getD n (0, [])
      i.1 == 1 || i.1 == 3 || !s.itemOk conf i.1 i.2 || (keys.take n).contains (keys.getD n 0)) with
  | some n => some n
  | none => if items.2 then none else some items.1.length

/-- The image as checked: the failing status, DETAIL and BODY, or the staged set. -/
def State.checkImage (s : State) (img : List Byte) (sign : Bool) : Except (Nat × List Byte) Staged :=
  let items := imageItems img
  let serial := fieldAt img 12 4
  if !headerOk img img.length (if sign then sigBytes else 0) then .error (0x48, bodyOf [(0, 2, 0xFFFF)])
  else if (s.conf.stageSigned && !sign) || (sign && !(signatureOk s.power.ownerKey img && decide (s.signedSerial ≤ serial) &&
      digestOk s.power.ownerKey img)) then .error (0x40, [])
  else match s.badItem items with
    | some n => .error (0x48, bodyOf [(0, 2, n)])
    | none => .ok { conf := s.conf.withItems items.1
                    keys := items.1.map (fun i => itemKey i.1 i.2), serial := serial, signed := sign }

/-- CONFIG_STAGE; `host` is what host memory answers, `none` for an error completion or a timeout. -/
def execConfigStage (dt : Nat) (host : Option (List Byte)) (s : State) : Result :=
  let before := s.advance dt
  let s := before
  match s.take 0 0x70 with
  | none => s.idle
  | some (c, s) =>
    let addr := c.param 8 8
    let n := c.param 0x10 4
    match firstFail ([(decide (c.param 0 1 < 2), 0), (s.inSpace [2, 4, 5, 7] none addr n, 8),
        (decide (128 ≤ n) && decide (n ≤ 65536), 0x10)] ++ reservedFail c 128 [(0, 1), (8, 0xC)]) with
    | some o => .next (s.badParam c o)
    | none =>
      let key := (s.resolve [2, 4, 5, 7] none addr n).getD 0
      let fromHost := addrSpace addr == 7
      if s.commitWait.isSome then .next (s.complete c .busy 0 [])
      else if !fromHost && s.ownStops key n then before.idle
      else if (fromHost && host.isNone) || !s.keyServed key then .next (s.complete c .faulted 0 [])
      else match (if fromHost then none else s.firstPoison key n) with
        | some u => .next ((s.poisonConsumed c u).complete c .faulted 0 [])
        | none =>
          let img := if fromHost then padTo n (host.getD []) else s.read key n
          match s.checkImage img ((c.param 0 1).testBit 0) with
          | .error (detail, body) => .next (s.complete c .badParam detail body)
          | .ok staged => .next (({ s with staged := some staged } : State).complete c .ok 0 [])

/-! ### Quiescence (R55) -/

def Staged.hasKey (g : Staged) (k : Nat) : Bool := g.keys.contains k

/-- A reduction, gather or permute context of the module uses the port (R55). -/
def State.collOnPort (s : State) (p : Nat) : Bool :=
  s.coll.ctxs.any (fun x => let v := s.view x.collId
    x.kind != 2 && (v.kids.contains p || v.parent == some p)) ||
  s.coll.shifts.any (fun h => match h.cmd.bind s.findCmd with
    | some c => (gatP c).next == p || (gatP c).prev == p
    | none => false) ||
  (s.roleOf p == 5 && (s.coll.permute.isSome || !s.coll.gets.isEmpty))

/-- Every credit of a sluice of this depth. -/
def fullCredits (depth : Nat) : W64 := BitVec.ofNat 64 (2 ^ depth - 1)

/-- No credit of a sluice that uses the port is outstanding, as this end can tell. -/
def State.creditsHome (s : State) (p : Nat) : Bool :=
  (List.range 16).all (fun k =>
    let i := s.ctxItem k
    let x := s.ctx k
    (!(i.prevKind == 1 && i.prevPort == p) || (x.fwd.isEmpty && x.prevCredits == fullCredits i.prevDepth)) &&
    (!(i.nextKind == 1 && i.nextPort == p) || (x.bwd.isEmpty && x.nextCredits == fullCredits i.nextDepth)))

def State.portQuiet (s : State) (p : Nat) : Bool :=
  let x := s.port p
  x.queue.isEmpty && x.unacked == 0 && !s.collOnPort p && s.creditsHome p

def State.ctxQuiet (s : State) (k : Nat) : Bool :=
  (s.ring (k + 1)).started.isEmpty && (s.admittedMbs k).isEmpty

/-- A pin request of a sharded layer is outstanding: a VERSION_PIN or a forward MB_ADMIT that waits (R55, R234, R256). -/
def State.pinsOutstanding (s : State) : Bool :=
  s.allCmds.any (fun c => c.start.isSome && c.live &&
    (let (layer, count) := if c.opcode = 0x30 then (c.param 2 2, c.param 6 2)
       else if c.opcode = 0x20 then (c.param 4 2, c.param 6 2) else (0, 0)
     (List.range count).any (fun i => decide (1 < (s.layer (layer + i)).shards))))

/-- Quiescence for the module's own address. -/
def State.addressQuiet (s : State) : Bool :=
  ((List.range s.nPorts).filter (fun p => s.roleOf p != 0)).all s.portQuiet &&
    (List.range 16).all (fun k => (s.admittedMbs k).isEmpty) && s.coll.ctxs.isEmpty && s.coll.holdReqs.isEmpty && !s.pinsOutstanding &&
    s.layers.all (fun e => e.2.slots.all (fun x => x.2.holds.isEmpty && x.2.reqId == 0))

/-- Every affected set of the staged items is quiescent now (R55). -/
def State.quiescent (s : State) (g : Staged) : Bool :=
  (List.range 24).all (fun p => !g.hasKey (4 * 256 + p) || s.portQuiet p) &&
    (List.range 16).all (fun k => !g.hasKey (5 * 256 + k) || s.ctxQuiet k) &&
    (!g.hasKey (2 * 256) || s.addressQuiet)

/-! ### The apply (R57, R253, R300) -/

/-- The entries of a sluice that are EMPTY, as a mask over its depth (R255). -/
def emptyMask (t : Tab Entry) (depth : Nat) : W64 :=
  BitVec.ofNat 64 (sumNat ((List.range depth).map (fun e => if (tabGet {} t e).state = .empty then 2 ^ e else 0)))

/-- A sluice whose landing address, entry size or depth changes loses its entries, and its sender holds the credits of
its new depth (R253): a local sender at once; a sender on a causeway by a CREDIT frame of the entries discarded, its own
apply setting the rest (log 40). -/
def State.refitSluice (s : State) (old : Conf) (k : Nat) (bwd : Bool) : State :=
  let was := tabGet {} old.ctxs k
  let new := s.ctxItem k
  if was.land bwd == new.land bwd && was.entryBytes bwd == new.entryBytes bwd && was.depth bwd == new.depth bwd then s
  else
    let held := (s.ctx k).sluice bwd
    let n := held.length
    let s := s.modCtx k (fun x => if bwd then { x with bwd := [], bwdDiscarded := satAdd 32 x.bwdDiscarded n }
      else { x with fwd := [], fwdDiscarded := satAdd 32 x.fwdDiscarded n })
    let s := if n = 0 then s else s.logDiscards k bwd n
    let (kind, port, m, peer) := new.sender bwd
    if kind = 2 then s.modCredits peer bwd (fun _ => fullCredits (new.depth bwd))
    else if kind = 1 && n != 0 then
      s.send port { srcCtx := k, dstCtx := peer, dstModule := m }
        (.credit { bwd := bwd, entryMask := held.foldl (fun w e => withBit w e.1 true) 0 })
    else s

/-- Credits of one context toward its peer on one side after an apply that stages it (R255): the EMPTY entries of a
local peer's sluice, the whole depth of a peer on a causeway (log 40). -/
def State.sideCredits (s : State) (k : Nat) (toPrev : Bool) : W64 :=
  let i := s.ctxItem k
  let (kind, peer, depth) := if toPrev then (i.prevKind, i.prevCtx, i.prevDepth) else (i.nextKind, i.nextCtx, i.nextDepth)
  if kind = 0 then 0
  else if kind = 2 then emptyMask ((s.ctx peer).sluice toPrev) depth
  else fullCredits depth

/-- The credits of both sides of a context, set at an apply that stages it and at start-up (R255). -/
def State.refitCredits (s : State) (k : Nat) : State :=
  let next := s.sideCredits k false
  let prev := s.sideCredits k true
  s.modCtx k (fun x => { x with nextCredits := next, prevCredits := prev })

/-- PEER_MISMATCH of every context with a peer (R253). -/
def State.setMismatches (s : State) : State :=
  (List.range 16).foldl (fun st k => (st.compareSide k true).compareSide k false) s

/-- The bindings of contexts take effect: every sluice that changes is emptied, then the credits of every one of them
are set, then the geometries are exchanged (R253, R255). -/
def State.rebind (s : State) (old : Conf) (ks : List Nat) : State :=
  if ks.isEmpty then s
  else
    let s := ks.foldl (fun st k => (st.refitSluice old k false).refitSluice old k true) s
    (ks.foldl State.refitCredits s).setMismatches

/-- A port follows a change of its items, or of the module's address (R299 to R301). -/
def State.follow (s : State) (p : Nat) : State :=
  if h : p < 24 then
    let st := (s.port p).train.state
    let s := s.modPort p (fun x => { x with ckptUnits := 0 })
    if s.roleOf p = 0 then s.setTrain (.port ⟨p, h⟩) .off
    else if st = .off then s.setTrain (.port ⟨p, h⟩) .detect
    else if st = .detect || st = .calibrate || st = .down then s
    else s.partialRetrain p
  else s

/-- A configuration as bytes, for measurement 9 (R422; the layout is the model's, log 21). -/
def confBytes (c : Conf) : List Byte :=
  toBytes 1 c.population ++ toBytes 2 c.address.toNat ++ toBytes 1 (b2n c.stageSigned + 2 * b2n c.raiseSvn) ++
    c.ports.flatMap (fun e => toBytes 1 e.1 ++ toBytes 1 e.2.role ++ toBytes 1 (e.2.spare.getD 0xFE) ++
      toBytes 2 e.2.peerModule.toNat ++ toBytes 1 e.2.peerPort) ++
    c.ctxs.flatMap (fun e => let i := e.2
      toBytes 1 e.1 ++ toBytes 2 i.dieMask.toNat ++ toBytes 1 (i.prevKind + 16 * i.nextKind) ++ toBytes 1 i.prevPort ++
      toBytes 1 i.nextPort ++ toBytes 2 i.prevModule.toNat ++ toBytes 2 i.nextModule.toNat ++ toBytes 1 i.prevCtx ++
      toBytes 1 i.nextCtx ++ toBytes 8 i.fwdLand ++ toBytes 4 i.fwdEntryBytes ++ toBytes 1 i.fwdDepth ++ toBytes 8 i.bwdLand ++
      toBytes 4 i.bwdEntryBytes ++ toBytes 1 i.bwdDepth ++ toBytes 4 i.nextEntryBytes ++ toBytes 1 i.nextDepth ++
      toBytes 4 i.prevEntryBytes ++ toBytes 1 i.prevDepth) ++
    toBytes 1 (c.sourceSelect + 4 * b2n c.isReference + 8 * b2n c.syncOutEn) ++ toBytes 1 c.refPort ++
    toBytes 2 c.syncInDelay ++ toBytes 2 c.moduleLimitW ++ toBytes 2 c.coreMaxMv ++ toBytes 8 c.vectorEnable.toNat ++
    toBytes 2 c.idleMv ++ toBytes 4 c.idleAfterUs

/-- A measurement is recorded; none is removed before the next start-up (R413). -/
def State.record (s : State) (index : Nat) (bytes : List Byte) : State :=
  { s with power := { s.power with measurements := s.power.measurements ++ [(index, Config.sha3 bytes)] } }

/-- The configuration in force is measured (R422). -/
def State.measureConf (s : State) : State := s.record 9 (confBytes s.conf)

/-- The source of time that a new SOURCE_SELECT leaves in use (R37; log 33). -/
def Conf.keepsSource (c : Conf) (source : Nat) : Nat :=
  if (c.sourceSelect = 1 ∧ source = 2) ∨ (c.sourceSelect = 2 ∧ source = 1) then 0 else source

/-- The staged set applied whole at the present Tidemark: a commit point (R51, R57). -/
def State.applyConf (s : State) (g : Staged) : State :=
  let old := s.conf
  let s := { s with
    conf := g.conf, staged := none
    signedSerial := if g.signed then g.serial + 1 else s.signedSerial
    time := { s.time with source := g.conf.keepsSource s.time.source }
    commit := { s.commit with
      configEpoch := s.commit.configEpoch + 1, lastConfigTide := s.tide, lastCommitTide := max s.commit.lastCommitTide s.tide } }
  let s := s.rebind old ((List.range 16).filter (fun k => g.hasKey (5 * 256 + k)))
  let moved := old.address != g.conf.address
  let s := (List.range 24).foldl (fun st p =>
    if tabGet {} old.ports p != st.portItem p || (moved && st.roleOf p != 0) then st.follow p else st) s
  s.measureConf

/-! ### CONFIG_COMMIT (R56) -/

/-- The set is applied, or, where item `faultAt` does not take effect, every item keeps its old value (R57); the command
completes. DESIGN CHOICE (log 70): after FAULTED the staged set stays staged, as R56 has it after DEFERRED; R57 does not
say. -/
def State.applyOrRestore (s : State) (c : Cmd) (g : Staged) (faultAt : Option Nat) : State :=
  let s := { s with commitWait := none }
  if faultAt.any (fun i => decide (i < g.keys.length)) then s.complete c .faulted 0 []
  else (s.applyConf g).complete c .ok 0 []

/-- A pending CONFIG_COMMIT whose set could be applied now (R52, R56). -/
def State.applyDue (s : State) : Bool :=
  match s.commitWait, s.staged with
  | some w, some g => decide (s.tide ≤ w.deadline) && s.quiescent g
  | _, _ => false

end Sys2Proof.Machine
end

