-- ==== Sys2Proof/Machine/Power.lean ====
section
/-! DEFINITION. Start-up, power, resets, pins and the sources of time (18, R400 to R414; 19, R438 to R447; 01, R14 to
R33; 03, R61). -/

namespace Sys2Proof.Machine

/-! ### What survives (R409, R400) -/

/-- The module in Off: the secure flash and the pins stay, everything else is lost (R409, R410, R438). -/
def State.enterOff (s : State) : State :=
  { State.reset with
    pending := s.pending
    fresh := s.fresh
    power := { State.reset.power with
      pwrEn := s.power.pwrEn, modReset := s.power.modReset, perstReleased := s.power.perstReleased
      fw := s.power.fw.map (fun (e : Nat × FwState) => (e.1, { e.2 with fallback := false, svn := 0 }))
      configRecord := s.power.configRecord, ownerKey := s.power.ownerKey, ownerSerial := s.power.ownerSerial
      releasePending := s.power.releasePending, lastRecordSerial := s.power.lastRecordSerial } }

/-- Power leaves every die while the controller runs: MCTP, the log and the global block remain, and
THERM_ALERT_N stays low only after a thermal trip (R400, R405, R407, R438). -/
def State.stopDies (s : State) : State :=
  let off := s.enterOff
  ({ off with
    tide := s.tide, time := s.time, pkg := s.pkg, conf := s.conf, commit := s.commit, log := { s.log with recoveries := [] }
    mgmt := s.mgmt
    power := { s.power with
      phase := .stopped, ready := false, linkUp := false, pwrGood := false, diesPowered := false
      thermAlert := s.power.thermalTrip, thermLow := s.power.thermalTrip } } : State).refreshFault

/-- Start-up stops with the step last completed and the cause (R407). -/
def State.stopStart (s : State) (step cause : Nat) : State :=
  ({ s with power := { s.power with
    phase := .stopped, stopped := true, step := step, stopCause := cause, diesPowered := false, pwrGood := false } }
    : State).refreshFault

/-- POPULATION_MISMATCH (R17, R18, R25). -/
def State.logPopulation (s : State) (derived : Nat) : State :=
  s.logRec 0 0x0002 sevFatal 0 (if derived = 3 then 0xFF else derived) s.conf.population

/-! ### Images (R412 to R414) -/

/-- An image of its component that may be loaded: signature by a known key, and an SVN not below MIN_SVN. -/
def imageOk (minSvn : Nat) (i : ImageIn) : Bool :=
  Config.romKeyKnown i.key && Config.mlDsaVerify i.key [] (i.header ++ i.body) i.signature && decide (minSvn ≤ i.svn)

/-- What the flash holds of a component: an update's images, else those found. -/
def flashOf (f : FwState) (images : List (Nat × Bool × ImageIn)) (comp : Nat) : FwState :=
  let found (b : Bool) : Option ImageIn := (images.find? (fun i => i.1 == comp && i.2.1 == b)).map (·.2.2)
  { f with imageA := f.imageA.or (found false), imageB := f.imageB.or (found true) }

/-- A component loaded: the active slot first, then the other; `none` where both fail (R412). -/
def loadImage (f : FwState) : Option (FwState × ImageIn) :=
  let f := if f.pending then { f with activeB := !f.activeB, pending := false } else f
  let first := if f.activeB then f.imageB else f.imageA
  let second := if f.activeB then f.imageA else f.imageB
  let ok (i : Option ImageIn) : Option ImageIn := i.bind (fun x => if imageOk f.minSvn x then some x else none)
  match ok first, ok second with
  | some i, _ => some ({ f with fallback := false, svn := i.svn }, i)
  | none, some i => some ({ f with activeB := !f.activeB, fallback := true, svn := i.svn }, i)
  | none, none => none

/-- Bytes of an image, which its digest is made of (R412, R413). -/
def ImageIn.bytes (i : ImageIn) : List Byte := i.header ++ i.body ++ i.signature

/-- A component's image loaded and measured (R413); false where it cannot be. -/
def State.loadFw (s : State) (images : List (Nat × Bool × ImageIn)) (comp : Nat) : Bool × State :=
  match loadImage (flashOf (tabGet {} s.power.fw comp) images comp) with
  | none => (false, s)
  | some (f, i) =>
    (true, ({ s with power := { s.power with fw := tabSet s.power.fw comp f } } : State).record (comp + 2) (ImageIn.bytes i))

/-! ### The package (R14 to R17, R31 to R33) -/

/-- Fill of a half, from its ten sites (R14). -/
def halfFill (suffix : Nat) : List SiteFill :=
  let f := SiteFill.farStack
  let x := SiteFill.ioDie
  if suffix = 0 then [f, f, f, f, x, x, f, f, f, f]
  else if suffix = 1 then [f, f, x, x, x, x, f, f, f, f]
  else [f, f, x, x, x, x, x, x, f, f]

/-- Population derived from the sites: 3 where the fill matches none (R14, R17). -/
def derivePop (sites : List SiteFill) : Nat :=
  ((List.range 3).find? (fun p => sites == halfFill p ++ halfFill p)).getD 3

/-- Source numbers of the dies that a population has (R47). -/
def popSources (suffix : Nat) : List Nat :=
  [0] ++ (List.range 12).map srcDie ++ (List.range 6).map srcBase ++ (List.range (popIoDies suffix)).map srcIo ++
    (List.range (popStacks suffix)).map srcStack

/-- The feature floor: the AND of the words of the dies present, its extension bits zero (R32, R33). -/
def floorOf (reports : List DieReport) : W64 := reports.foldl (fun w r => w &&& r.features) 0x00000000FFFFFFFF

/-- A stack of the population that reports nothing, or fails its self-test (R18). -/
def stackFails (suffix : Nat) (reports : List DieReport) : Bool :=
  (List.range (popStacks suffix)).any (fun f => !reports.any (fun r => r.source == srcStack f && r.healthy))

/-- Extension bits of the dies present are recorded (R32). -/
def State.noteFeatures (s : State) (reports : List DieReport) : State :=
  reports.foldl (fun st r =>
    if r.features.toNat / 2 ^ 32 = 0 then st else st.logRec 0 0x0003 sevInfo r.features.toNat r.source 0) s

/-! ### Self-test (R123, R128, R129, R219) -/

/-- Outcome of a physical array: none listed means healthy. -/
def testOf (tests : List ArrayTest) (die phys : Nat) : Option ArrayTest :=
  tests.find? (fun t => t.die.val == die && t.phys.val == phys)

/-- A physical array may be assigned (R128). -/
def arrayUsable (tests : List ArrayTest) (die phys : Nat) : Bool :=
  match testOf tests die phys with
  | none => true
  | some t => t.healthy && decide (t.failedRows.length ≤ 2)

/-- A logical array on a physical one, with its repair map (R123). -/
def mapArray (tests : List ArrayTest) (die phys : Nat) : ArrayState :=
  let failed := match testOf tests die phys with
    | none => []
    | some t => t.failedRows
  let ok64 := !failed.contains 64
  let rows := failed.filter (fun r => decide (r < 64))
  let first := rows.head?
  let second := rows[1]?
  { phys := phys
    spare64 := if ok64 then first else none
    spare65 := if ok64 then second else first
    usable64 := ok64
    usable65 := !failed.contains 65 }

/-- A logical array takes another physical one, with its repair map. -/
def ArrayState.remap (y x : ArrayState) : ArrayState :=
  { y with phys := x.phys, spare64 := x.spare64, spare65 := x.spare65, usable64 := x.usable64, usable65 := x.usable65 }

/-- Array assignment of a die: healthy arrays in ascending order (R128, log 35); the die leaves service without 32. At
start-up that writes no record: the section of R129 has every exit from service recorded, R395 has the log empty after
every start-up, and the model takes the latter (DESIGN CHOICE, log 35). -/
def State.assignArrays (s : State) (found : List ArrayTest) (die : Nat) : State :=
  let tests := found.filter (fun t => t.die.val == die)
  let good := (List.range 34).filter (fun p => arrayUsable tests die p)
  let s := (good.take 32).zipIdx.foldl (fun (st : State) e =>
    let y := st.array die e.2
    let x := y.remap (mapArray tests die e.1)
    if x = y then st else st.modArray die e.2 (fun _ => x)) s
  let out := decide (good.length < 32)
  s.modDie die (fun d => { d with
    inService := min 32 good.length
    sparesFree := good.length - 32
    outOfService := out
    service := if out then 2 else 0
    tests := tests
    freeArrays := (good.drop 32).filterMap (fun p => if h : p < 34 then some ⟨p, h⟩ else none) })

/-- A spared bank takes a free spare of its channel, SPARE0 unless the controller picked SPARE1 (R219). -/
def NearChannel.spareBank (c : NearChannel) (bank : Nat) : NearChannel :=
  if c.toSecond && c.spare1 == 0x3F then { c with spare1 := bank, toSecond := false }
  else if c.spare0 = 0x3F then { c with spare0 := bank } else if c.spare1 = 0x3F then { c with spare1 := bank } else c

def State.assignBanks (s : State) (tests : List BankTest) (die : Nat) : State :=
  (tests.filter (fun t => t.die.val == die)).foldl (fun st t =>
    st.modDie die (fun d => { d with channels := tabMod {} d.channels t.channel (fun c => c.spareBank t.bank) })) s

/-- A compute die after self-test: what is measured is free, within the ranges of R130 (log 5). -/
def State.testDie (s : State) (inp : StartInput) (die : Nat) : State :=
  (((s.assignArrays inp.arrayTests die).assignBanks inp.bankTests die)).modDie die (fun d => { d with
    coreMv := s.conf.coreMaxMv
    tj := 25 + Config.measured 0 die % 81
    process := max 97 (min 102 (inp.processes.getD die 100)) })

/-! ### Temperatures (R405) -/

/-- THERM_ALERT_N: asserted at a threshold, released 3 °C below every one (R405, R438). -/
def State.refreshTherm (s : State) : State :=
  let hot := (List.range 12).any (fun n => decide (100 ≤ (s.die n).tj)) ||
    (List.range s.nStacks).any (fun f => decide (90 ≤ (s.stack f).temp))
  let cool := (List.range 12).all (fun n => decide ((s.die n).tj ≤ 97)) &&
    (List.range s.nStacks).all (fun f => decide ((s.stack f).temp ≤ 87))
  let alert := hot || (s.power.thermAlert && !cool)
  { s with power := { s.power with thermAlert := alert, thermLow := alert } }

/-- The pause of a compute die at 105 °C, until 103 °C (R405). -/
def State.thermPause (s : State) (n celsius : Nat) : State :=
  let was := s.power.thermPaused.toNat.testBit n
  let now := decide (105 ≤ celsius) || (was && decide (103 < celsius))
  if was = now then s
  else
    let b : BitVec 12 := BitVec.ofNat 12 (2 ^ n)
    { s with power := { s.power with
      thermPaused := if now then s.power.thermPaused ||| b else s.power.thermPaused &&& ~~~b
      throttleEvents := if now then satAdd 32 s.power.throttleEvents 1 else s.power.throttleEvents } }

/-- A compute die pauses by the temperature that it has. -/
def State.thermCheck (s : State) (n : Nat) : State := s.thermPause n (s.die n).tj

/-! ### Far-tier training (R221) -/

/-- A group after its eye sweep: the lane that its spare carries, 0x3F for none; `none` where a second lane fails, the
spare lane itself included (R221, R222). A failing spare lane alone leaves nothing to steer. -/
def steerGroup (spareLane spare : Nat) (failing : List Nat) : Option Nat :=
  match (failing.filter (fun l => l != spare)).eraseDups with
  | [] => some spare
  | [l] => if spare ≠ 0x3F then none else if l = spareLane then some 0x3F else some l
  | _ => none

/-- The command and address group, whose spare is lane 16, and a data group, whose spare is lane 33. -/
def steerCa (spare : Nat) (failing : List CaLane) : Option Nat := steerGroup 16 spare (failing.map (·.val))
def steerData (spare : Nat) (failing : List DataLane) : Option Nat := steerGroup 33 spare (failing.map (·.val))

/-- A physical channel trained (R221, steps 2 to 4): each group steers its one failing lane onto its spare, and the
pattern reads back; `none` where a group has two failing lanes or the pattern fails. A channel without a test has no
failing lane. -/
def trainChannel (tests : List ChannelTest) (f phys : Nat) : Option FarChannel :=
  match tests.find? (fun t => t.stack.val == f && t.phys.val == phys) with
  | none => some { phys := phys }
  | some t =>
    match steerCa 0x3F t.failCa, steerData 0x3F t.failD0, steerData 0x3F t.failD1 with
    | some ca, some d0, some d1 =>
      if t.pattern then some { phys := phys, spareCa := ca, spareD0 := d0, spareD1 := d1 } else none
    | _, _, _ => none

/-- A stack trained: the channel that does not work is replaced by physical channel 16; `none` where 16 cannot serve
(R221, step 5). -/
def trainStack (tests : List ChannelTest) (f : Nat) : Option Stack :=
  let works (p : Nat) : Bool := (trainChannel tests f p).isSome
  let bad := (List.range 16).filter (fun p => !works p)
  if 2 ≤ bad.length || (bad.length == 1 && !works 16) then none
  else
    some { trained := true
           spareUse := bad.headD 0x1F
           temp := 25 + Config.measured 1 f % 61
           channels := (List.range 16).map (fun c =>
             let p := if bad.contains c then 16 else c
             (c, (trainChannel tests f p).getD {})) }

/-! ### Seam links and ports at start-up (R23, R301) -/

/-- C of a seam link's ends, and what they agree on after the failed attempts: the fallback after three; nothing where
that fails too (R23, R304, R305). -/
def seamAgreed (x : SeamIn) : Byte :=
  if 4 ≤ x.failed then 0 else agreedOf true (x.failed == 3) (x.low &&& x.high).toNat

/-- A seam link trained at start-up (R23): the width-agreement exchange of its two ends. -/
def State.trainSeam (s : State) (x : SeamIn) (k : Fin 3) : State :=
  let lanes : Tab Lane := ((List.range 8).filter (fun i => !x.low.toNat.testBit i)).map (fun i => (i, { failed := true }))
  let agreed := seamAgreed x
  let offer : WidthWord := { mask := x.high }
  let train : Train := {
    state := if agreed = 0 then .down else .active
    trainId := BitVec.ofNat 16 (min 3 x.failed + 1)
    attempt := if x.failed < 3 then x.failed + 1 else 0
    reset := false
    peerOffer := some offer
    agreed := agreed
    lanes := lanes
    lastChange := s.tide }
  let s := { s with seamTrain := tabSet s.seamTrain k train }
  let s := if x.failed < 3 then s else s.noteFallback (.seam k)
  { s with pkg := { s.pkg with seams := tabMod {} s.pkg.seams k (fun y => { y with
    mask := agreed, width := (bitsSet agreed.toNat 8).length, lastChange := s.tide }) } }

/-! ### START_UP (R406, R407) -/

/-- Step 9 begins: the I/O dies' tiles serve, the ports with a role train and start-up waits for them, and the bindings of
the contexts take effect (R301, R253, R406). -/
def State.bringLinks (s : State) : State :=
  let tiles : Tab Tile := (List.range s.nIoDies).map (fun x => (x, { inService := true }))
  let s : State := { s with coll := { s.coll with tiles := tiles } }
  let s := (List.range s.nPorts).foldl (fun (st : State) p => if st.roleOf p = 0 then st else st.follow p) s
  let s := s.rebind (Conf.default s.pkg.suffix) (List.range 16)
  ({ s with power := { s.power with step := 8, startTide := s.tide } } : State).endStep9

/-- Step 8: the far tier is trained (R221, R18). -/
def State.bringFar (s : State) (inp : StartInput) : State :=
  let tiers := (List.range s.nStacks).map (fun f => trainStack inp.channelTests f)
  if tiers.any (fun x => x.isNone) then (s.logPopulation s.pkg.suffix).stopStart 7 5
  else ({ s with farStacks := tiers.zipIdx.map (fun (x : Option Stack × Nat) => (x.2, x.1.getD {})) } : State).refreshTherm.bringLinks

/-- Steps 6 and 7: the feature floor, which the dies have in common, then the seam links (R5, R31 to R34, R23). -/
def State.bringSeams (s : State) (inp : StartInput) (present : List DieReport) : State :=
  let s := { s with pkg := { s.pkg with
    reports := present.map (fun (r : DieReport) => (r.source, r)), featureFloor := floorOf present } }
  let s := s.noteFeatures present
  if present.any (fun (r : DieReport) => r.features.toNat % 2 ^ 32 != 2 ^ 32 - 1) then s.stopStart 5 4
  else
    let s := { s with power := { s.power with step := 6 } }
    let seam (k : Nat) : SeamIn := inp.seams.getD k {}
    let s := ([0, 1, 2] : List (Fin 3)).foldl (fun (st : State) (k : Fin 3) => st.trainSeam (seam k) k) s
    if (List.range 3).any (fun k => seamAgreed (seam k) == 0) then s.stopStart 6 6
    else ({ s with power := { s.power with step := 7 } } : State).bringFar inp

/-- Steps 4 and 5, for a module whose record and population are good: power, and the self-test (R18, R25, R123, R128).
-/
def State.bringUp (s : State) (inp : StartInput) : State :=
  let s := { s with power := { s.power with step := 4, diesPowered := true } }
  let present := inp.reports.filter (fun (r : DieReport) => (popSources s.pkg.suffix).contains r.source)
  if !inp.bridgesOk then (s.logPopulation s.pkg.suffix).stopStart 4 7
  else if stackFails s.pkg.suffix present then (s.logPopulation s.pkg.suffix).stopStart 4 5
  else
    let s := (List.range 12).foldl (fun st d => (st.testDie inp d).thermCheck d) s
    let s := s.refreshTherm
    ({ s with pkg := { s.pkg with mapFilled := true }, power := { s.power with step := 5 } } : State).bringSeams inp present

/-- Step 3: the population that the sites give, known from here on, and the record (R3, R17, R417, R460). -/
def State.loadRecord (s : State) (inp : StartInput) : State :=
  let derived := derivePop inp.sites
  let s := { s with pkg := { s.pkg with known := true, suffix := derived } }
  if s.power.ownerKey.isEmpty then s.stopStart 2 9
  else match (if s.power.configRecord.isEmpty then none else s.recordConf s.power.configRecord) with
    | none => s.stopStart 2 2
    | some conf =>
      let serial := fieldAt s.power.configRecord 12 4
      let s := { s with
        conf := conf
        power := { s.power with
          lastRecordSerial := serial
          fw := tabMod {} s.power.fw 6 (fun f => { f with svn := serial % 65536, pending := false }) } }
      let s := (s.record 8 s.power.configRecord).measureConf
      if derived ≠ conf.population then (s.logPopulation derived).stopStart 2 3
      else
        let cap := 75 * inp.millivolts / 1000
        let s := { s with power := { s.power with
          step := 3, popMax := popMaxW derived, inputCap := cap
          limit := min (min conf.moduleLimitW (popMaxW derived)) cap } }
        s.bringUp inp

/-- The glitch filter of PWR_EN and MOD_RESET_N: a level held for less than 1 µs is ignored, one held for 100 µs or more
is acted on, and between the two a free value decides (R441). -/
def State.pinActs (s : State) (heldNs : Nat) : Bool × State :=
  if heldNs < 1000 then (false, s)
  else if 100000 ≤ heldNs then (true, s)
  else
    let (v, s) := s.draw
    (v.toNat % 2 == 1, s)

/-- START_UP: a start edge, and steps 1 to 9; a release record accepted before takes effect here (R420). Start-up begins
at the later of the two edges (R441): while the other pin still holds the module Off, the edge is kept and nothing begins.
-/
def execStartUp (dt : Nat) (inp : StartInput) (s : State) : Result :=
  let s := s.advance dt
  let (acts, s) := s.pinActs inp.heldNs
  if s.power.phase ≠ .off || !acts then s.idle
  else if !inp.pwrEn || inp.modReset then
    .next { s with power := { s.power with pwrEn := inp.pwrEn, modReset := inp.modReset } }
  else
    let gone := s.power.releasePending
    let (key, s) := s.draw
    let s := { s with power := { s.power with
      phase := .starting, pwrEn := true, modReset := false, slotId := inp.slotId, startMs := min 65535 inp.startMs
      vin := inp.millivolts, refclkOk := inp.refclkOk, perstReleased := inp.perstReleased
      ownerKey := if gone then [] else s.power.ownerKey
      configRecord := if gone then [] else s.power.configRecord
      releasePending := false
      measurements := [(1, Config.bootRomDigest)]
      aliasKey := key } }
    if !inp.flashOk then .next (s.stopStart 0 8)
    else
      let (ok, s) := s.loadFw inp.images 0
      if !ok then .next (s.stopStart 0 1)
      else
        let s := { s with power := { s.power with step := 1 } }
        let (ok, s) := [1, 2, 3, 4, 5].foldl (fun (acc : Bool × State) c =>
          if acc.1 then acc.2.loadFw inp.images c else acc) (true, s)
        if !ok then .next (s.stopStart 1 1)
        else .next (({ s with power := { s.power with step := 2 } } : State).loadRecord inp)

/-- ALIGNMENT_WAIT_TIMEOUT: 2 s, or 300 µs for the reference, without an aligned TIME frame (R406, R38); before step 10 it
may end the wait of step 9 alone (R301). -/
def execAlignmentWaitTimeout (dt : Nat) (s : State) : Result :=
  let s := s.advance dt
  let wait := if s.conf.isReference then 300000 else 2000000000
  if s.power.phase ≠ .serving || s.power.step ≠ 10 || decide (s.tide < s.power.startTide + wait) then .next s.endStep9
  else
    let s := s.reachReady 0
    if s.conf.isReference then .next (s.setError 0 0) else .next s

/-! ### Off, faults and resets (R400, R409, R61, R408, R443) -/

/-- MOD_RESET_ASSERT, past the glitch filter (R409, R441). -/
def execModResetAssert (level : PinLevel) (s : State) : Result :=
  let (acts, s) := (s.advance level.dt).pinActs level.heldNs
  if !acts then s.idle
  else .next (({ s with power := { s.power with modReset := true } } : State).enterOff)

/-- PWR_EN_FALL, past the glitch filter (R409, R441, R448). -/
def execPwrEnFall (level : PinLevel) (s : State) : Result :=
  let (acts, s) := (s.advance level.dt).pinActs level.heldNs
  if !acts then s.idle
  else .next (({ s with power := { s.power with pwrEn := false } } : State).enterOff)

/-- INPUT_FAULT: an input of `mv` that has lasted `us` (R400). -/
def execInputFault (dt mv us : Nat) (s : State) : Result :=
  let s := s.advance dt
  let bad := (decide (mv < 38000) && decide (100 < us)) || (decide (50000 < mv) && decide (10 < us))
  if !bad || s.power.phase = .off then s.idle
  else .next (({ s with power := { s.power with vin := mv, inputFault := true } } : State).stopDies)

/-- INPUT_BELOW_30V: the controller is held in reset, the module is Off (R400, R438). -/
def execInputBelow30v (dt : Nat) (s : State) : Result := .next (s.advance dt).enterOff

/-- PERST_ASSERT: the host side is reset, and the link goes down; before ready, step 10 begins again (R61, R443). -/
def execPerstAssert (dt : Nat) (s : State) : Result :=
  let s := s.advance dt
  let s := s.hostReset
  .next { s with power := { s.power with
    perstReleased := false, linkUp := false
    step := if s.power.phase = .serving && s.power.step = 10 then 9 else s.power.step } }

/-- PERST_RELEASE: link training, once step 9 has ended (R408, R443). -/
def execPerstRelease (dt : Nat) (s : State) : Result :=
  let s := s.advance dt
  let s : State := { s with power := { s.power with perstReleased := true } }
  if s.power.phase = .starting then .next s.endStep9
  else if s.power.phase = .serving && s.power.step = 9 && s.power.refclkOk then .next s.linkReady
  else if s.power.ready && s.power.refclkOk then .next { s with power := { s.power with linkUp := true } }
  else .next s

/-- FUNCTION_LEVEL_RESET (R61, R457). -/
def execFunctionLevelReset (dt : Nat) (s : State) : Result := .next (s.advance dt).hostReset

/-! ### REFCLK and TIDE_SYNC (R445 to R447, R39) -/

/-- REFCLK_LOSS: Tidemark goes on from the module's own oscillator, the host link fails, and the estimate of the error of
an aligned module is made anew: alignment may be lost (R42, R445; log 33). -/
def execRefclkLoss (dt : Nat) (s : State) : Result :=
  let s := s.advance dt
  if !s.power.refclkOk || s.power.phase ≠ .serving then s.idle
  else
    let s : State := { s with power := { s.power with
      refclkOk := false, refclkLosses := satAdd 16 s.power.refclkLosses 1, linkUp := false } }
    .next (if s.conf.isReference || !s.time.aligned then s
      else s.setError (Config.oscillatorError s.power.refclkLosses s.time.errorEst) s.time.source)

/-- REFCLK_RETURN: Tidemark takes it without a step, the host port trains again (R445). -/
def execRefclkReturn (dt : Nat) (s : State) : Result :=
  let s := s.advance dt
  if s.power.refclkOk || s.power.phase ≠ .serving then s.idle
  else
    let s : State := { s with power := { s.power with
      refclkOk := true, linkUp := s.power.perstReleased && decide (10 ≤ s.power.step) } }
    .next (if s.power.perstReleased && s.power.step == 9 then s.linkReady else s)

/-- Distance, in tenths of a ns, from an edge to the nearest multiple of 1,000,000 ticks (R39). -/
def syncOffset (tenthsNow : Int) : Int :=
  let r := tenthsNow % 10000000
  if r < 5000000 then -r else 10000000 - r

/-- TIDE_SYNC_IN_EDGE: an edge `tenths` of a ns after the present tick gives the phase, and keeps the milliseconds that
frames have given (R39, R40, R447). -/
def execTideSyncInEdge (dt tenths : Nat) (s : State) : Result :=
  let s := s.advance dt
  if s.power.phase ≠ .serving then s.idle
  else
    let off := syncOffset ((10 * s.tide + tenths : Nat) - (s.conf.syncInDelay : Int))
    if s.time.aligned && decide (10000 < off.natAbs) then s.idle
    else
      let s := { s with power := { s.power with syncInEdges := s.power.syncInEdges + 1 } }
      if s.conf.sourceSelect = 2 || s.conf.isReference || !s.power.ready then .next s
      else
        let s := { s with time := { s.time with slew := atPhase (off / 10) s.time.slew, hops := 0 } }
        .next (s.setError (Config.alignError (off / 10) 0) 1)

/-- SYNC_OUT_PULSE: one rising edge at every Tidemark that is a multiple of 1,000,000 (R39, R446). -/
def execSyncOutPulse (dt : Nat) (s : State) : Result :=
  let s := s.advance dt
  if !s.conf.syncOutEn || s.power.phase ≠ .serving || s.tide % 1000000 ≠ 0 || s.power.syncOutUntil == s.tide + 1000 then s.idle
  else .next { s with power := { s.power with
    syncOutPulses := s.power.syncOutPulses + 1, syncOutUntil := s.tide + 1000 } }

/-- TIDE_SYNC_OUT is driven (R438, R446). -/
def State.syncOutDriven (s : State) : Bool :=
  s.power.phase == .serving && (s.conf.syncOutEn || decide (s.tide < s.power.syncOutUntil))

/-! ### TEMPERATURE_THRESHOLD (R405) -/

/-- TEMPERATURE_THRESHOLD: a die's temperature is now `celsius` (R405). -/
def execTemperatureThreshold (dt : Nat) (die : ThermDie) (celsius : Nat) (s : State) : Result :=
  let s := s.advance dt
  if !s.power.diesPowered then s.idle
  else
    let s := match die with
      | .compute n => (s.modDie n (fun d => { d with tj := celsius })).thermCheck n
      | .stack f => s.modStack f (fun x => { x with temp := celsius, refreshDoubled := decide (85 < celsius) })
      | .other src => { s with power := { s.power with otherTemps := tabSet s.power.otherTemps src celsius } }
    let s := s.refreshTherm
    if 120 ≤ celsius then
      let s := { s with power := { s.power with thermalTrip := true, inputFault := true } }
      let s := s.stopDies
      .next { s with power := { s.power with thermLow := true } }
    else .next s

/-! ### Power budgets (R402 to R404) -/

/-- Floors of R403: 110 W a compute die, and R402's figures for everything else. -/
def floorsW (suffix : Nat) : Nat := 12 * 110 + 180 + 25 * popStacks suffix + 45 * popIoDies suffix + 120 + 180

/-- Budget of a compute die: its floor, and its share of what is left in proportion to its request; floor and share
together never exceed the request, unless the floor alone does (R403, log 53). -/
def budgetOf (limit suffix : Nat) (request : List Nat) (n : Nat) : Nat :=
  let total := sumNat (request.take 12)
  let r := request.getD n 0
  let share := if total = 0 then 0 else (limit - floorsW suffix) * r / total
  min (110 + share) (max 110 r)

/-- Budgets of the dies that share nothing: R402's figures for a base die, an I/O die and a far-tier stack (R403). -/
def otherBudgets (suffix : Nat) : Tab Nat :=
  (List.range 6).map (fun b => (srcBase b, 20)) ++ (List.range (popIoDies suffix)).map (fun x => (srcIo x, 45)) ++
    (List.range (popStacks suffix)).map (fun f => (srcStack f, 25))

/-- The core voltage of a die, also of one that is idle: what an idle die returns to follows it (R404, R416). -/
def Die.setVoltage (d : Die) (mv idleMv : Nat) : Die :=
  match d.idleFrom with
  | none => { d with coreMv := mv }
  | some _ => { d with coreMv := min mv idleMv, idleFrom := some mv }

/-- One die follows its budget: voltage first, then pauses; reversed in the opposite order (R404). -/
def State.throttleDie (s : State) (n power budget : Nat) : State :=
  let b : BitVec 12 := BitVec.ofNat 12 (2 ^ n)
  let paused := s.power.paused.toNat.testBit n
  let now := (s.die n).coreMv
  let mv := (s.die n).idleFrom.getD now
  let idle := s.conf.idleMv
  let s := s.modDie n (fun d => { d with budget := budget, power := power })
  if budget < power then
    if 700 < now then
      let s := s.modDie n (fun d => d.setVoltage (max 700 (now - 5)) idle)
      { s with power := { s.power with voltLowered := s.power.voltLowered ||| b } }
    else if paused then s
    else { s with power := { s.power with
      paused := s.power.paused ||| b, throttleEvents := satAdd 32 s.power.throttleEvents 1 } }
  else if paused then { s with power := { s.power with paused := s.power.paused &&& ~~~b } }
  else if s.power.voltLowered.toNat.testBit n then
    let up := min s.conf.coreMaxMv (mv + 5)
    let s := s.modDie n (fun d => d.setVoltage up idle)
    if s.conf.coreMaxMv ≤ up then { s with power := { s.power with voltLowered := s.power.voltLowered &&& ~~~b } } else s
  else if s.conf.coreMaxMv < mv then s.modDie n (fun d => d.setVoltage s.conf.coreMaxMv idle)
  else s

/-- POWER_BUDGET_EXCHANGE: the input voltage, the power of each compute die (and, after them, of the others) and the
compute dies' requests (R401 to R404). -/
def execPowerBudgetExchange (dt mv : Nat) (power request : List Nat) (s : State) : Result :=
  let s := s.advance dt
  if !s.power.diesPowered then s.idle
  else
    let cap := 75 * mv / 1000
    let limit := min (min s.conf.moduleLimitW s.power.popMax) cap
    let total := sumNat power
    let s := { s with power := { s.power with
      vin := mv, pin := total, iin := if mv = 0 then 0 else total * 100000 / mv, inputCap := cap, limit := limit
      budgets := otherBudgets s.pkg.suffix } }
    .next ((List.range 12).foldl (fun st n =>
      st.throttleDie n (power.getD n 0) (budgetOf limit st.pkg.suffix request n)) s)

/-! ### Registers (18, 19, 01) -/

def startWord (s : State) : Nat :=
  s.power.step + b2n s.power.ready * 2 ^ 4 + b2n s.power.stopped * 2 ^ 5 + s.power.stopCause * 2 ^ 8 +
    (if s.power.ready then s.power.startMs else 0) * 2 ^ 16

def pwrInputWord (s : State) : Nat :=
  s.power.vin % 65536 + s.power.iin % 65536 * 2 ^ 16 + s.power.pin % 65536 * 2 ^ 32 + b2n s.power.inputFault * 2 ^ 48

def pwrLimitWord (s : State) : Nat := s.power.limit + s.power.inputCap % 65536 * 2 ^ 16 + s.power.popMax * 2 ^ 32

def pwrThrottleWord (s : State) : Nat :=
  s.power.voltLowered.toNat + (s.power.paused ||| s.power.thermPaused).toNat * 2 ^ 16 + b2n s.power.thermAlert * 2 ^ 28 +
    b2n s.power.thermalTrip * 2 ^ 29 + s.power.throttleEvents * 2 ^ 32

def sidebandWord (s : State) : Nat :=
  s.power.slotId + b2n s.power.perstReleased * 2 ^ 8 + b2n s.power.faultLow * 2 ^ 9 + b2n s.power.thermLow * 2 ^ 10 +
    b2n s.syncOutDriven * 2 ^ 11 + b2n s.power.refclkOk * 2 ^ 12 + s.power.refclkLosses * 2 ^ 16 +
    s.power.syncInEdges.toNat * 2 ^ 32

def fwWord (s : State) (i : Nat) : Nat :=
  let f := tabGet {} s.power.fw i
  b2n f.activeB + 2 * b2n f.pending + 4 * b2n f.fallback + f.svn * 2 ^ 16 + f.minSvn * 2 ^ 32

def ownerWord (s : State) : Nat :=
  b2n (!s.power.ownerKey.isEmpty) + 2 * b2n s.power.releasePending + s.power.lastRecordSerial * 2 ^ 32

def extAlgWord : Nat := Config.spdmRegistry.toNat + Config.spdmVendor.toNat * 2 ^ 16 + 2 ^ 48

end Sys2Proof.Machine
end

