-- ==== Sys2Proof/Machine/Bar.lean ====
section
/-! DEFINITION. BAR0: what every register reads as, what every write does, the latches and the held accesses (20, R452 to
R464; 00, R12; 02, R52). -/

namespace Sys2Proof.Machine

/-! ### Global block (R459 to R461; 01) -/

def populationWord (s : State) : Nat :=
  if !s.pkg.known then 0
  else if s.pkg.suffix = 3 then 3
  else s.pkg.suffix + s.nStacks * 2 ^ 8 + s.nIoDies * 2 ^ 16 + s.nPorts * 2 ^ 24 + popFarGib s.pkg.suffix * 2 ^ 32

def capsWord : Nat := 0xC + 0x20 * 2 ^ 4 + 0x10 * 2 ^ 10 + 0xC0 * 2 ^ 16 + 0x40 * 2 ^ 24 + 0x40 * 2 ^ 32 + 0x1000 * 2 ^ 40

def intEnableWord (s : State) : Nat := (s.conf.vectorEnable ||| 0x3FFFF).toNat

def seamWord (s : State) (k : Nat) : Nat :=
  let x := tabGet {} s.pkg.seams k
  x.mask.toNat + x.width * 2 ^ 8 + x.fallbacks * 2 ^ 12 + low32 x.lastChange * 2 ^ 32

/-- Lower site of an I/O die (R14, R15). -/
def ioSite (suffix x : Nat) : Nat :=
  let perHalf := popIoDies suffix / 2
  let first := if suffix = 0 then 4 else 2
  if x < perHalf then first + 2 * x else 10 + first + 2 * (x - perHalf)

/-- Physical number of a logical site (R4, R28). -/
def physSite (n : Nat) : Nat := if n < 10 then n else 29 - n

/-- Mirror-map entry (R4, R28 to R30): base dies, compute dies, sites, I/O dies. Before the self-test has filled the map, its
entries read 0: DESIGN CHOICE, log 5. -/
def mirrorEntry (s : State) (i : Nat) : Nat :=
  let entry (phys kind : Nat) (east : Bool) : Nat :=
    phys + kind * 2 ^ 8 + 2 ^ 16 + b2n east * 2 ^ 17 + b2n (east && kind == 3) * 2 ^ 18
  if !s.pkg.mapFilled then 0
  else if i < 6 then entry i 0 (decide (3 ≤ i))
  else if i < 18 then
    (let n := i - 6
     entry (if n < 6 then n else n ^^^ 1) 1 (decide (6 ≤ n)))
  else if i < 38 then entry (physSite (i - 18)) 2 (decide (28 ≤ i))
  else if i - 38 < s.nIoDies then
    entry (physSite (ioSite s.pkg.suffix (i - 38))) 3 (decide (s.nIoDies / 2 ≤ i - 38))
  else 0

/-- Die type of a source number. -/
def dieType (source : Nat) : Nat :=
  if source < 0x10 then 0 else if source < 0x20 then 1 else if source < 0x30 then 2 else if source < 0x40 then 3 else 4

/-- Revision word and feature word of a die identity entry (01). -/
def identityWord (s : State) (source : Nat) (feature : Bool) : Nat :=
  match tabFind s.pkg.reports source with
  | none => 0
  | some r =>
    if feature then r.features.toNat
    else r.stepping % 256 + r.minor % 256 * 2 ^ 8 + r.major % 256 * 2 ^ 16 + dieType source * 2 ^ 24 + b2n r.healthy * 2 ^ 31

/-- Registers of the global block, by offset. -/
def State.globalWord (s : State) (o : Nat) : Nat :=
  if o = 0x000 then 0x1260 + 2 ^ 16 + Config.boardRev.toNat * 2 ^ 32
  else if o = 0x008 then populationWord s
  else if o = 0x010 then capsWord
  else if o = 0x018 then s.pkg.featureFloor.toNat
  else if o = 0x020 then startWord s
  else if o = 0x028 then s.conf.address.toNat
  else if o = 0x030 then Config.moduleSerial.toNat
  else if o = 0x038 then intEnableWord s
  else if o = 0x040 then s.host.signals.toNat
  else if 0x100 ≤ o && o < 0x118 then seamWord s ((o - 0x100) / 8)
  else if o = 0x200 then pwrInputWord s
  else if o = 0x208 then pwrLimitWord s
  else if o = 0x210 then pwrThrottleWord s
  else if o = 0x218 then sidebandWord s
  else if 0x300 ≤ o && o < 0x340 then fwWord s ((o - 0x300) / 8)
  else if o = 0x340 then ownerWord s
  else if o = 0x348 then extAlgWord
  else if 0x400 ≤ o && o < 0x4B0 then mirrorEntry s ((o - 0x400) / 4) + mirrorEntry s ((o - 0x400) / 4 + 1) * 2 ^ 32
  else if 0x800 ≤ o && o < 0xD00 then identityWord s ((o - 0x800) / 16) (decide ((o - 0x800) % 16 = 8))
  else 0

/-! ### Tidemark block (02, 13, 17) -/

/-- The 32 bytes of a trouble-log record (R396). -/
def LogRec.bytes (r : LogRec) : List Byte :=
  toBytes 8 r.tide ++ toBytes 2 r.source ++ toBytes 2 r.code ++ toBytes 1 r.severity ++ toBytes 1 r.flags ++
    toBytes 2 r.seq ++ toBytes 8 r.arg0 ++ toBytes 4 r.arg1 ++ toBytes 4 r.arg2

/-- Record n, while the ring of 8,192 holds it (R395). -/
def Log.find (l : Log) (n : Nat) : Option LogRec :=
  if n < l.written && decide (l.written ≤ n + l.records.length) then l.records[n + l.records.length - l.written]? else none

/-- What a write of LOG_SELECT latches. -/
def Log.latch (l : Log) (n : Nat) : List W64 :=
  let bs := match l.find n with
    | some r => r.bytes
    | none => []
  (List.range 4).map (fun i => BitVec.ofNat 64 (fieldAt bs (8 * i) 8))

def faultClassWord (s : State) (cls : Nat) : Nat :=
  let x := tabGet {} s.log.classes cls
  x.count + x.failed * 2 ^ 16 + x.longest * 2 ^ 32

def State.tideWord (s : State) (o : Nat) : Nat :=
  if o = 0x1000 then s.tide
  else if o = 0x1008 then tideStatusWord s
  else if o = 0x1010 then tideConfigWord s
  else if o = 0x1018 then s.time.lateLaunches
  else if 0x1040 ≤ o && o < 0x1068 then
    (((if s.commit.latch.isEmpty then commitWords s else s.commit.latch).getD ((o - 0x1040) / 8) 0)).toNat
  else if o = 0x1080 then lossScaleWord s
  else if o = 0x1088 then lossIntervalWord s
  else if o = 0x1090 then verdictWord s
  else if o = 0x10C0 then skimControlWord s
  else if o = 0x10C8 then s.skim.wr.toNat
  else if o = 0x10D0 then s.skim.rd.toNat
  else if o = 0x10D8 then s.skim.last.toNat
  else if o = 0x1100 then s.log.written
  else if o = 0x1108 then s.log.select.toNat
  else if 0x1110 ≤ o && o < 0x1130 then (s.log.data.getD ((o - 0x1110) / 8) 0).toNat
  else if o = 0x1130 then s.log.intSeverity + b2n s.log.fatal * 2 ^ 8
  else if 0x1140 ≤ o && o < 0x1188 then faultClassWord s ((o - 0x1140) / 8 + 1)
  else 0

/-! ### Compute-die and far-stack blocks (05 to 08, 10, 13, 17, 18) -/

def poolWord (d : Die) : Nat :=
  d.inService + d.sparesFree * 2 ^ 8 + b2n d.outOfService * 2 ^ 16 + d.arraySwaps * 2 ^ 32 + d.rowRepairs * 2 ^ 48

def rateWord (d : Die) : Nat := d.rate + d.rateMin * 2 ^ 16 + d.coreMv * 2 ^ 32 + d.tj * 2 ^ 48 + d.process * 2 ^ 56

def ArrayState.mapWord (x : ArrayState) : Nat :=
  x.phys + (b2n x.spare64.isSome + b2n x.spare65.isSome) * 2 ^ 8 + x.spare64.getD 0x7F * 2 ^ 16 +
    x.spare65.getD 0x7F * 2 ^ 24 + low32 x.lastRepair * 2 ^ 32

/-- A saturating count with the Tidemark of the latest event. -/
def countWord (n tide : Nat) : Nat := n + low32 tide * 2 ^ 32

def NearChannel.word (c : NearChannel) : Nat :=
  c.spare0 + c.spare1 * 2 ^ 6 + b2n c.copying.isSome * 2 ^ 12 + low32 c.lastSpare * 2 ^ 32

/-- Registers of compute-die block n, by offset in the block; all read-only. -/
def State.dieWord (s : State) (n o : Nat) : Nat :=
  let d := s.die n
  if o = 0x080 then poolWord d
  else if o = 0x088 then rateWord d
  else if o = 0x090 then d.broadcastSteps
  else if o = 0x098 then d.edgeWaitSteps
  else if 0x100 ≤ o && o < 0x200 then (s.array n ((o - 0x100) / 8)).mapWord
  else if o = 0x200 then d.feedWaitSteps
  else if o = 0x208 then d.zeroVectors
  else if o = 0x210 then countWord d.feedPoison d.feedPoisonTide
  else if o = 0x300 then d.spills
  else if o = 0x308 then d.spillWaitSteps
  else if o = 0x310 then d.slotWaitSteps
  else if o = 0x318 then countWord d.accPoison d.accPoisonTide
  else if 0x400 ≤ o && o < 0x500 then (s.array n ((o - 0x400) / 8)).part.toNat
  else if 0x500 ≤ o && o < 0x600 then (s.array n ((o - 0x500) / 8)).armed.toNat
  else if 0x600 ≤ o && o < 0x700 then (s.array n ((o - 0x600) / 8)).armedMin.toNat
  else if o = 0x700 then d.drainRows
  else if o = 0x708 then d.drainSaturations
  else if o = 0x710 then countWord d.drainNonfinite d.drainNonfiniteTide
  else if o = 0x718 then countWord d.drainPoison d.drainPoisonTide
  else if o = 0x800 then d.nearEcc
  else if o = 0x808 then countWord d.nearUncorr d.nearUncorrTide
  else if o = 0x810 then d.nearPoisonOffset + d.nearPoisonSpace * 2 ^ 60
  else if 0x900 ≤ o && o < 0xB00 then (tabGet ({} : NearChannel) d.channels ((o - 0x900) / 8)).word
  else if o = 0xC00 then d.updElements
  else if o = 0xC08 then countWord d.updNonfinite d.updNonfiniteTide
  else if o = 0xC10 then stageValid d
  else if o = 0xE00 then d.budget + d.power * 2 ^ 16 + d.pausedSteps * 2 ^ 32
  else if o = 0xF00 then d.service + b2n d.repaired * 2 ^ 2 + low32 d.serviceTide * 2 ^ 32
  else 0

def FarChannel.word (c : FarChannel) : Nat :=
  c.phys + c.state * 2 ^ 5 + c.spareCa * 2 ^ 8 + c.spareD0 * 2 ^ 14 + c.spareD1 * 2 ^ 20 + low32 c.lastRetrain * 2 ^ 32

/-- Registers of far-stack block f; a stack that the population lacks reads zero (R453). -/
def State.stackWord (s : State) (f o : Nat) : Nat :=
  let x := s.stack f
  if s.nStacks ≤ f then 0
  else if o = 0x000 then
    1 + 2 * b2n x.trained + x.spareUse * 2 ^ 2 +
      sumNat ((List.range 16).map (fun c => b2n ((tabGet ({} : FarChannel) x.channels c).state == 2) * 2 ^ (8 + c))) +
      x.temp * 2 ^ 24 + x.scrubPass * 2 ^ 32
  else if o = 0x008 then x.corrected
  else if o = 0x010 then countWord x.uncorr x.uncorrTide
  else if o = 0x018 then x.poisonOffset
  else if o = 0x020 then x.retries + x.exhausted * 2 ^ 32 + x.retrains * 2 ^ 48
  else if 0x100 ≤ o && o < 0x180 then (tabGet ({} : FarChannel) x.channels ((o - 0x100) / 8)).word
  else 0

/-! ### MSI-X (R59, R462) -/

/-- The MSI-X table as the PCIe base specification lays it out: address, then data and vector control. -/
def State.msixWord (s : State) (o : Nat) : Nat :=
  let v := o / 16
  if o % 16 = 0 then (tabGet 0 s.host.msixAddr v).toNat
  else (tabGet (0 : W32) s.host.msixData v).toNat + b2n (s.host.vectorMask.toNat.testBit v) * 2 ^ 32

/-- One message for the causes that a vector collected, once neither mask holds it (R462). -/
def State.sendPending (s : State) (v : Nat) : State :=
  if s.host.pba.toNat.testBit v && !s.host.functionMask && !s.host.vectorMask.toNat.testBit v then
    ({ s with host := { s.host with pba := withBit s.host.pba v false } } : State).raise v
  else s

def State.unmask (s : State) : MsixTarget → State
  | .vector v => ({ s with host := { s.host with vectorMask := withBit s.host.vectorMask v false } } : State).sendPending v
  | .function => (List.range 64).foldl (fun st v => st.sendPending v)
      ({ s with host := { s.host with functionMask := false } } : State)

def State.writeMsix (s : State) (o : Nat) (v mask : W64) : State :=
  let i := o / 16
  let new := maskedWrite (BitVec.ofNat 64 (s.msixWord o)) v mask
  if o % 16 = 0 then { s with host := { s.host with msixAddr := tabSet s.host.msixAddr i new } }
  else
    let s : State := { s with host := { s.host with
      msixData := tabSet s.host.msixData i (new.truncate 32)
      vectorMask := withBit s.host.vectorMask i (new.toNat.testBit 32) } }
    s.sendPending i

/-! ### The map (R452, R453) -/

/-- The 64-bit register at an offset that is a multiple of 8; 0 where none is defined. -/
def State.barWord (s : State) (o : Nat) : W64 :=
  if o < 0x1000 then BitVec.ofNat 64 (s.globalWord o)
  else if o < 0x2000 then BitVec.ofNat 64 (s.tideWord o)
  else if 0x8000 ≤ o && o < 0x8400 then BitVec.ofNat 64 (s.msixWord (o - 0x8000))
  else if o = 0x9000 then s.host.pba
  else if 0x10000 ≤ o && o < 0x11100 then BitVec.ofNat 64 (ringWord (s.ring ((o - 0x10000) / 0x100)) (o % 0x100))
  else if 0x100000 ≤ o && o < 0x110000 then BitVec.ofNat 64 (s.ctxWord ((o - 0x100000) / 0x1000) (o % 0x1000))
  else if 0x200000 ≤ o && o < 0x2C0000 then BitVec.ofNat 64 (s.dieWord ((o - 0x200000) / 0x10000) (o % 0x10000))
  else if 0x300000 ≤ o && o < 0x30C000 then BitVec.ofNat 64 (s.channelWord ((o - 0x300000) / 0x100) (o % 0x100))
  else if 0x400000 ≤ o && o < 0x406000 then BitVec.ofNat 64 (s.portWordAt ((o - 0x400000) / 0x400) (o % 0x400))
  else if 0x408000 ≤ o && o < 0x412000 then BitVec.ofNat 64 (s.switchWord (o - 0x408000))
  else if 0x500000 ≤ o && o < 0x502000 then BitVec.ofNat 64 (s.unitWord ((o - 0x500000) / 0x80) (o % 0x80))
  else if 0x600000 ≤ o && o < 0x610000 then BitVec.ofNat 64 (s.stackWord ((o - 0x600000) / 0x1000) (o % 0x1000))
  else if 0x1000000 ≤ o && o < 0x1220000 then
    s.slotWord ((o - 0x1000000) / 0x20000) ((o - 0x1000000) % 0x20000 / 0x80) (o % 0x80 / 8)
  else if 0x2000000 ≤ o && o < 0x2080000 then BitVec.ofNat 64 ((s.layer ((o - 0x2000000) / 0x80)).word (o % 0x80))
  else if 0x2100000 ≤ o && o < 0x2108000 then BitVec.ofNat 64 ((s.layer ((o - 0x2100000) / 8)).updWord)
  else 0

/-- The accesses that latch (R455), and the state with the latch taken. -/
def State.latchFor (s : State) (off : Nat) : State :=
  if off = 0x1000 then { s with time := { s.time with latchHi := BitVec.ofNat 32 (s.tide / 2 ^ 32) } }
  else if off = 0x1040 then { s with commit := { s.commit with latch := commitWords s } }
  else if 0x100000 ≤ off && off < 0x110000 && off % 0x1000 == 0x100 then
    s.modCtx ((off - 0x100000) / 0x1000) (fun x => { x with idleLatch := x.idleWords ++ [x.lastSample] })
  else if 0x1000000 ≤ off && off < 0x1220000 && off % 0x80 == 0 then
    s.readSlot0 ((off - 0x1000000) / 0x20000) ((off - 0x1000000) % 0x20000 / 0x80)
  else s

/-- Bits 63:32 of a register as a 32-bit read returns them: latched for the two Tidemark reads (R455). -/
def State.barHigh (s : State) (o : Nat) : Nat :=
  if o = 0x1000 then s.time.latchHi.toNat
  else if 0x100000 ≤ o && o < 0x110000 && o % 0x1000 == 0x100 then
    (s.ctx ((o - 0x100000) / 0x1000)).idleLatch.getD 13 (s.ctx ((o - 0x100000) / 0x1000)).lastSample / 2 ^ 32
  else (s.barWord o).toNat / 2 ^ 32

/-- A read of BAR0 (R454, R455): the data reach the host, and the latches are taken. -/
def State.barRead (s : State) (off size : Nat) : State :=
  let s := s.latchFor off
  let v : W64 :=
    if size = 8 then s.barWord off
    else if off % 8 = 4 then BitVec.ofNat 64 (s.barHigh (off - 4))
    else s.barWord off &&& 0xFFFFFFFF
  { s with host := { s.host with readData := v } }

/-- A write of LOG_CONTROL: INT_SEVERITY, and FATAL, whose clearing releases FAULT_N (R397). -/
def State.writeLogControl (s : State) (v mask : W64) : State :=
  let new := (maskedWrite (BitVec.ofNat 64 s.log.intSeverity) v mask).toNat
  ({ s with log := { s.log with
      intSeverity := bits new 0 2
      fatal := s.log.fatal && !(v &&& mask).toNat.testBit 8 } } : State).refreshFault

/-- SKIM_RD, LOG_SELECT and LOG_CONTROL (R463, R454, R397). -/
def State.writeTide (s : State) (off size : Nat) (value : W64) : Option State :=
  let (reg, v, mask) := regPart off size value
  if reg = 0x10D0 then
    (if size = 8 && s.skim.rd.ule v && v.ule s.skim.wr then some { s with skim := { s.skim with rd := v } } else none)
  else if reg = 0x1108 then
    (if size = 8 then some { s with log := { s.log with select := v, data := s.log.latch v.toNat } } else none)
  else if reg = 0x1130 then some (s.writeLogControl v mask)
  else none

/-- A write of BAR0; `none` where it is discarded (R453, R456). -/
def State.tryWrite (s : State) (o size : Nat) (v : W64) : Option State :=
  if 0x1000 ≤ o && o < 0x2000 then s.writeTide o size v
  else if 0x8000 ≤ o && o < 0x8400 then
    (let (reg, w, mask) := regPart (o - 0x8000) size v
     some (s.writeMsix reg w mask))
  else if 0x10000 ≤ o && o < 0x11100 then s.writeRing ((o - 0x10000) / 0x100) o size v
  else if 0x100000 ≤ o && o < 0x110000 then s.writeCtx ((o - 0x100000) / 0x1000) (o % 0x1000) size v
  else if 0x300000 ≤ o && o < 0x30C000 then s.writeChannel ((o - 0x300000) / 0x100) (o % 0x100) size v
  else if 0x408000 ≤ o && o < 0x412000 then s.writeSwitch (o - 0x408000) size v
  else if 0x500000 ≤ o && o < 0x502000 then s.writeUnit ((o - 0x500000) / 0x80) (o % 0x80) size v
  else if 0x2000000 ≤ o && o < 0x2080000 then s.writeLayer ((o - 0x2000000) / 0x80) (o % 0x80) size v
  else none

/-- A discarded write is recorded, but for DEFINE and UNDEFINE, which are never recorded (R229, R453). -/
def State.barWrite (s : State) (o size : Nat) (v : W64) : State :=
  match s.tryWrite o size v with
  | some s => s
  | none => s.discardedWrite o v

/-! ### Held accesses (R52, R464) -/

/-- Registers of a stage context, but for the idle counts. -/
def ctxReg (o : Nat) : Bool :=
  decide (0x100000 ≤ o) && decide (o < 0x110000) && !(decide (0x100 ≤ o % 0x1000) && decide (o % 0x1000 < 0x180))

/-- Registers that a step close changes (R51, R52). -/
def closeReg (o : Nat) : Bool :=
  (decide (0x1040 ≤ o) && decide (o < 0x1098)) || (decide (0x408400 ≤ o) && decide (o < 0x408410)) ||
    (decide (0x40A000 ≤ o) && decide (o < 0x412000)) || (decide (0x2000000 ≤ o) && decide (o < 0x2080000)) ||
    (decide (0x2100000 ≤ o) && decide (o < 0x2108000)) || ctxReg o || (decide (0x10C0 ≤ o) && decide (o < 0x10C8)) ||
    (decide (0x200000 ≤ o) && decide (o < 0x2C0000) && decide (0xC10 ≤ o % 0x10000) && decide (o % 0x10000 < 0xC18))

/-- Registers that a configuration apply changes (R51, R52). -/
def configReg (o : Nat) : Bool :=
  (decide (0x28 ≤ o) && decide (o < 0x40) && (o < 0x30 || 0x38 ≤ o)) || (decide (0x200 ≤ o) && decide (o < 0x218)) ||
    (decide (0x218 ≤ o) && decide (o < 0x220)) || (decide (0x1008 ≤ o) && decide (o < 0x1018)) || (decide (0x1040 ≤ o) && decide (o < 0x1068)) || ctxReg o ||
    (decide (0x400000 ≤ o) && decide (o < 0x406000))

/-- An access waits: to a ring block, or a read of a slot, while the ring's core recovers or hands over (R464); a read
of what a close or a configuration apply changes while it is due (R52). -/
def State.accessHeld (s : State) (write : Bool) (o : Nat) : Bool :=
  (decide (0x10000 ≤ o) && decide (o < 0x11100) && s.ringPaused ((o - 0x10000) / 0x100)) ||
    (!write && decide (0x1000000 ≤ o) && decide (o < 0x1220000) && s.ringPaused ((o - 0x1000000) / 0x20000)) ||
    (!write && ((closeReg o && s.closeDue) || (configReg o && s.applyDue)))

/-- One BAR0 access through the host port (R12, R458). -/
def State.access (s : State) (write : Bool) (off size : Nat) (v : W64) : State :=
  if !((size == 4 || size == 8) && off % size == 0) then
    let s := s.logRec srcHost 0x0001 sevWarning off (size % 2 ^ 31 + b2n write * 2 ^ 31) 0
    if write then s else { s with host := { s.host with readData := 0 } }
  else if s.accessHeld write off then
    { s with host := { s.host with held := s.host.held ++ [(write, off, size, v)] } }
  else if write then s.barWrite off size v
  else s.barRead off size

/-- Accesses whose reason to wait has ended take place, in arrival order. -/
def State.replayHeldBar (s : State) : State :=
  s.host.held.foldl (fun st h => st.access h.1 h.2.1 h.2.2.1 h.2.2.2) { s with host := { s.host with held := [] } }

/-- What waited for a close goes on where an event has taken the close away: a reset of ring 0, a wait that timed out
(R52, R66, R70). -/
def State.afterClose (s before : State) : State := if before.closeDue && !s.closeDue then s.replayHeldBar else s

/-- BAR0 is reached while the host link is up (R408). -/
def State.host0 (s : State) (write : Bool) (off size : Nat) (v : W64) : Result :=
  if s.power.linkUp then .next ((s.access write off size v).afterClose s) else s.idle

/-- WAIT_TIMEOUT_EXPIRY (R70): a command that became ready in time has only its start to come. -/
def execWaitTimeoutExpiry (dt : Nat) (ring : Fin 17) (s : State) : Result :=
  let s := s.advance dt
  match (s.ring ring).front with
  | none => s.idle
  | some c =>
    match c.limit with
    | none => s.idle
    | some l =>
      if s.tide < l || s.inTime c then s.idle
      else .next (((s.complete c .timeout 0 []).refreshOldest ring).afterClose s)

/-! ### QUERY (R83) -/

/-- QUERY; one of the commit state waits for a close that is due, unless it stands before that close on ring 0, and one of
the commit state or of the Tidemark's for a configuration apply that is due (R52). -/
def execQuery (dt : Nat) (ring : Fin 17) (s : State) : Result :=
  let s := s.advance dt
  let waits (c : Cmd) : Bool :=
    (c.param 0 2 == 3 && ring.val != 0 && s.closeDue) || ((c.param 0 2 == 3 || c.param 0 2 == 4) && s.applyDue)
  match (s.take ring 0xF0).filter (fun x => !waits x.1) with
  | none => s.idle
  | some (c, s) =>
    match queryAnswer s (c.param 0 2) (c.param 2 2) with
    | .error o => .next (s.badParam c o)
    | .ok body =>
      match lowestFail (reservedBytes c 64 [(0, 4)]) with
      | some o => .next (s.badParam c o)
      | none => .next (s.complete c .ok 0 body)

/-! ### The commands -/

def widthOf (wide : Bool) : Nat := if wide then 8 else 4

/-- BAR_ACCESS: any access, in particular one of a wrong size or alignment (R12), or a read without a row of its own. -/
def execBarAccess (dt : Nat) (write : Bool) (offset size : Nat) (value : W64) (s : State) : Result :=
  (s.advance dt).host0 write offset size value

/-- REGISTER_WRITE (R453, R454, R456). -/
def execRegisterWrite (dt offset size : Nat) (value : W64) (s : State) : Result :=
  (s.advance dt).host0 true offset size value

/-- TIDE_NOW_READ (R36, R455). -/
def execTideNowRead (dt : Nat) (wide : Bool) (s : State) : Result :=
  (s.advance dt).host0 false 0x1000 (widthOf wide) 0

/-- LAST_COMMIT_TIDE_READ (R53, R455). -/
def execLastCommitTideRead (dt : Nat) (wide : Bool) (s : State) : Result :=
  (s.advance dt).host0 false 0x1040 (widthOf wide) 0

/-- IDLE_SNAP_TIDE_READ (R265, R455). -/
def execIdleSnapTideRead (dt : Nat) (ctx : Fin 16) (wide : Bool) (s : State) : Result :=
  (s.advance dt).host0 false (0x100000 + 0x1000 * ctx + 0x100) (widthOf wide) 0

/-- SLOT_READ (R76, R455). -/
def execSlotRead (dt : Nat) (ring : Fin 17) (slot : Fin 1024) (wide : Bool) (s : State) : Result :=
  (s.advance dt).host0 false (0x1000000 + 0x20000 * ring + 0x80 * slot) (widthOf wide) 0

/-- RING_DOORBELL (R64, R65). -/
def execRingDoorbell (dt : Nat) (ring : Fin 17) (tail : W32) (s : State) : Result :=
  (s.advance dt).host0 true (0x10000 + 0x100 * ring + 0x10) 4 (tail.zeroExtend 64)

/-- RING_ENABLE: a write of RING_CONTROL that does not reset (R63). -/
def execRingEnable (dt : Nat) (ring : Fin 17) (value : W32) (s : State) : Result :=
  let s := s.advance dt
  if value.toNat.testBit 1 then s.idle else s.host0 true (0x10000 + 0x100 * ring + 0x08) 4 (value.zeroExtend 64)

/-- RING_RESET: a write of RING_CONTROL that sets RESET (R66). -/
def execRingReset (dt : Nat) (ring : Fin 17) (value : W32) (s : State) : Result :=
  let s := s.advance dt
  if value.toNat.testBit 1 then s.host0 true (0x10000 + 0x100 * ring + 0x08) 4 (value.zeroExtend 64) else s.idle

/-- LAYER_DEFINE: a write of word 0 that sets DEFINE (R229). -/
def execLayerDefine (dt : Nat) (layer : Fin 4096) (value : W64) (s : State) : Result :=
  let s := s.advance dt
  if value.toNat.testBit 1 then s.host0 true (0x2000000 + 0x80 * layer) 8 value else s.idle

/-- LAYER_UNDEFINE: a write of word 0 that sets UNDEFINE (R229). -/
def execLayerUndefine (dt : Nat) (layer : Fin 4096) (value : W64) (s : State) : Result :=
  let s := s.advance dt
  if value.toNat.testBit 2 then s.host0 true (0x2000000 + 0x80 * layer) 8 value else s.idle

/-- SKIM_RD_WRITE (R463). -/
def execSkimRdWrite (dt : Nat) (value : W64) (s : State) : Result := (s.advance dt).host0 true 0x10D0 8 value

/-- CHANNEL_STOP: CH_CONTROL.STOP (R360). -/
def execChannelStop (dt : Nat) (channel : Fin 192) (s : State) : Result :=
  (s.advance dt).host0 true (0x300000 + 0x100 * channel + 0x60) 8 1

/-- LOG_SELECT_WRITE (R455). -/
def execLogSelectWrite (dt : Nat) (value : W64) (s : State) : Result := (s.advance dt).host0 true 0x1108 8 value

/-- FATAL_CLEAR: a write of LOG_CONTROL with FATAL set (R397). -/
def execFatalClear (dt : Nat) (value : W64) (s : State) : Result :=
  let s := s.advance dt
  if value.toNat.testBit 8 then s.host0 true 0x1130 8 value else s.idle

/-- MISMATCH_CLEAR: CU_STATUS.MISMATCH (R366). -/
def execMismatchClear (dt : Nat) (unit : Fin 64) (s : State) : Result :=
  (s.advance dt).host0 true (0x500000 + 0x80 * unit) 8 0x80

/-- MSIX_UNMASK (R462). -/
def execMsixUnmask (dt : Nat) (target : MsixTarget) (s : State) : Result := .next ((s.advance dt).unmask target)

end Sys2Proof.Machine
end

