-- ==== Sys2Proof/Machine/StepCommit.lean ====
section
/-! DEFINITION. The commit points that commands make: STEP_COMMIT, STEP_ABORT, the end of a verdict that does not come (13,
R288 to R290), and CONFIG_COMMIT (02, R53, R56, R57). -/

namespace Sys2Proof.Machine

/-- The checks that both share: a LAUNCH_TIDE, the open step, then the rest (R288, R465). -/
def State.closeChecks (s : State) (c : Cmd) (abort : Bool) : Option Nat :=
  if c.launch = 0 then some 8
  else (lowestFail ([(c.param 0 4 == s.commit.stepNumber.toNat, 0), (!abort || decide (c.param 4 1 < 2), 4)] ++
    reservedFail c 64 (if abort then [(0, 5)] else [(0, 4)]))).map (64 + ·)

/-- STEP_COMMIT: the close commits on a clean verdict, else aborts (R288, R289). -/
def execStepCommit (dt : Nat) (s : State) : Result :=
  let s := s.advance dt
  match s.take 0 0x42 with
  | none => s.idle
  | some (c, s) =>
    match s.closeChecks c false with
    | some detail => .next (s.complete c .badParam detail []).replayHeldBar
    | none =>
      let nonfinite := s.step.jobNonfinite
      let abort := s.step.jobAbort
      let st := if nonfinite then Status.nonfinite else if abort then .aborted else .ok
      let s := s.closeStep (!nonfinite && !abort) nonfinite c.launch
      .next ((s.complete c st 0 []).replayHeldBar)

/-- STEP_ABORT: the close aborts whatever the verdict (R288, R283). -/
def execStepAbort (dt : Nat) (s : State) : Result :=
  let s := s.advance dt
  match s.take 0 0x43 with
  | none => s.idle
  | some (c, s) =>
    match s.closeChecks c true with
    | some detail => .next (s.complete c .badParam detail []).replayHeldBar
    | none =>
      let halve := (c.param 4 1).testBit 0 || (s.step.arrived && s.step.jobNonfinite)
      .next (((s.closeStep false halve c.launch).complete c .ok 0 []).replayHeldBar)

/-- The STEP_COMMITs of the open step that wait are withdrawn (R290). -/
def State.withdrawClose (s : State) : State :=
  let mine := (s.ring 0).unstarted.filter (fun c => c.opcode == 0x42 && c.param 0 4 == s.commit.stepNumber.toNat)
  (mine.foldl (fun st c => st.complete c .timeout 0 []) s).refreshOldest 0

/-- VERDICT_TIMEOUT (R290). -/
def execVerdictTimeout (dt : Nat) (s : State) : Result :=
  let s := s.advance dt
  match s.verdictCmd with
  | none => s.idle
  | some c =>
    if !s.due c.deadline then s.idle
    else
      let s := s.complete c .timeout 0 (verdictBody c false false 0)
      let s := s.withdrawClose
      .next ((s.logRec 0 0x0051 sevFatal 0 s.commit.stepNumber.toNat 0).replayHeldBar)

/-! ### CONFIG_COMMIT (R53, R56, R57) -/

/-- CONFIG_COMMIT: it applies at once where everything is quiescent, waits, or is deferred. A step close that is due
goes first (R53). -/
def execConfigCommit (a : ApplyIn) (s : State) : Result :=
  let ⟨dt, faultAt⟩ := a
  let s := s.advance dt
  match s.take 0 0x71 with
  | none => s.idle
  | some (c, s) =>
    let t := c.param 0 4
    match lowestFail ((decide (t ≤ 60000000), 0) :: reservedFail c 64 [(0, 4)]) with
    | some o => .next (s.badParam c o)
    | none =>
      if s.commitWait.isSome then .next (s.complete c .busy 0 [])
      else match s.staged with
        | none => .next (s.complete c .ok 0 [])
        | some g =>
          if s.quiescent g && !s.closeDue then .next ((s.applyOrRestore c g faultAt).replayHeldBar)
          else if t = 0 && !s.closeDue then .next (s.complete c .deferred 0 [])
          else
            let deadline := s.tide + 1000 * t
            .next (({ s with commitWait := some { cmd := c.ref, deadline := deadline } } : State).setWait
              c.ref .quiescent (some deadline))

/-- CONFIG_APPLY: the first quiescent Tidemark of a pending commit, after a step close that is due (R53, R56, R57). -/
def execConfigApply (dt : Nat) (faultAt : Option Nat) (s : State) : Result :=
  let s := s.advance dt
  match s.commitWait, s.staged with
  | some w, some g =>
    if !s.applyDue || s.closeDue then s.idle
    else
      match s.findCmd w.cmd with
      | none => .next { s with commitWait := none }
      | some c => .next ((s.applyOrRestore c g faultAt).replayHeldBar)
  | _, _ => s.idle

/-- CONFIG_COMMIT_TIMEOUT: DEFERRED, and the set remains staged; a set that is quiescent at the very deadline is applied
(R56), after a step close that is due (R53). -/
def execConfigCommitTimeout (dt : Nat) (s : State) : Result :=
  let s := s.advance dt
  match s.commitWait with
  | none => s.idle
  | some w =>
    if decide (s.tide < w.deadline) || (s.tide == w.deadline && s.closeDue) then s.idle
    else
      match s.findCmd w.cmd with
      | none => .next { s with commitWait := none }
      | some c =>
        match s.staged.filter (fun _ => s.applyDue) with
        | some g => .next ((s.applyOrRestore c g none).replayHeldBar)
        | none => .next ((({ s with commitWait := none } : State).complete c .deferred 0 []).replayHeldBar)

end Sys2Proof.Machine
end

