-- ==== Sys2Proof/Machine/Service.lean ====
section
/-! DEFINITION. Drain, repair and return of a compute die, and LOG_READ (17, R388 to R392, R399). -/

namespace Sys2Proof.Machine

/-! ### A die leaves service (R383, R388, R389) -/

/-- Compute die that a command names by a DIE field (R389). -/
def Cmd.namesDie (c : Cmd) : Option Nat :=
  if (0x10 ≤ c.opcode && c.opcode ≤ 0x15) || c.opcode == 0x32 || c.opcode == 0x33 || c.opcode == 0x40 ||
      c.opcode == 0x50 || c.opcode == 0x51 then some (c.param 0 1)
  else if c.opcode = 0x21 || c.opcode = 0x22 then some (c.param 1 1)
  else if c.opcode = 0x60 then some (c.param 2 1)
  else none

/-- Started commands that name the die and have not finished. -/
def State.onDie (s : State) (die : Nat) : List Cmd :=
  s.allCmds.filter (fun c => c.start.isSome && c.live && c.namesDie == some die)

/-- A context whose lease is revoked by force: it closes, and REFUSE with FAULTED is sent (R387, R388). -/
def State.revokeColl (s : State) (x : CollCtx) : State :=
  let y : CollCtx := { x with cmd := none }
  ((s.refuseColl y .faulted none []).closeColl y).logRec 0 0x0080 sevWarning x.lease 1 x.collId.toNat

/-- A collective of the die: its context's lease is revoked, or its ring shift ends. -/
def State.endCollCmd (s : State) (c : Cmd) (st : Status) : State :=
  match s.coll.ctxs.find? (fun x => x.cmd == some c.ref) with
  | some x => (s.revokeColl x).complete c st 0 (if x.kind = 0 then x.redBody else x.gatBody)
  | none =>
    match s.coll.shifts.find? (fun h => h.cmd == some c.ref) with
    | some h => (s.dropShift h.collId).complete c st 0 (bodyOf [(0, 8, h.got)])
    | none => s.complete c st 0 []

/-- Bank leases of a part that is stopped by force (R388). -/
def State.revokeBanks (s : State) (e : Engine) : State :=
  e.banks.foldl (fun st b => st.logRec 0 0x0080 sevWarning (b.2 + 1000000) 3 b.1) s

/-- An update of the die: its part stops, its writes are abandoned, its layer fails (R272, R390). -/
def State.endUpdateCmd (s : State) (c : Cmd) (st : Status) : State :=
  let die := (updP c).die
  match (s.die die).engine.filter (fun e => e.cmd == c.ref) with
  | some e => (((s.setEngine die none).failLayer e.layer).revokeBanks e).complete c st 0 (e.body false)
  | none => (s.failWaiting c).complete c st 0 (s.waitBody c)

/-- A command that runs on a die ends early with a status; a channel's lease is revoked instead (R369, R388, R389). -/
def State.endOnDie (s : State) (c : Cmd) (st : Status) : State :=
  match c.work with
  | .array j => s.abortArray c j st
  | _ =>
    if c.opcode = 0x40 then s.endUpdateCmd c st
    else if c.opcode = 0x50 || c.opcode = 0x51 then s.endCollCmd c st
    else if c.opcode = 0x60 then s.revokeChannel (c.param 0 2)
    else
      let s := if c.opcode = 0x21 || c.opcode = 0x22 then s.abortSend (ctxOfRing c.ring) c else s
      let body := s.getBody c.ref
      ((s.dropGet c.ref).dropHolds c.ref).complete c st 0 body

/-- A change of DIE_SERVICE, recorded (R398). -/
def State.setService (s : State) (die state : Nat) : State :=
  (s.modDie die (fun d => { d with service := state, serviceTide := s.tide })).logRec (srcDie die) 0x0090 sevInfo 0 die state

/-- The die is DRAINED and out of service (R389). -/
def State.drained (s : State) (die : Nat) : State :=
  (s.modDie die (fun d => { d with outOfService := true, repaired := false })).setService die 2

/-- Micro-batches that commands name: stage context and number. -/
def mbsNamed (cs : List Cmd) : List (Nat × Nat) :=
  (cs.filterMap (fun c => if c.ring = 0 then none else c.namesMb.map (fun m => (ctxOfRing c.ring, m)))).eraseDups

/-- A die leaves service by force: what runs on it ends, the micro-batches named are dropped, leases are revoked (R389,
R383). The counts are those of DIE_DRAIN's BODY. -/
def State.dieLeaves (s : State) (die : Nat) (st : Status) : State × Nat × Nat :=
  let cs := s.onDie die
  let s := cs.foldl (fun st' c => match st'.findCmd c.ref with
    | some d => if d.live then st'.endOnDie d st else st'
    | none => st') s
  let mbs := (mbsNamed (cs.filter (fun c => c.opcode != 0x60))).filter (fun m => (s.mb m.1 m.2).admitted)
  let s := mbs.foldl (fun st' m => st'.dropMb m.1 m.2) s
  (s.drained die, (cs.filter (fun c => c.opcode != 0x60)).length, mbs.length)

/-! ### DIE_DRAIN (R389) -/

def drainBody (aborted dropped : Nat) : List Byte := bodyOf [(0, 4, aborted), (4, 2, dropped)]

/-- A DIE_DRAIN ends with OK once nothing runs on its die. -/
def State.endDieDrain (s : State) (c : Cmd) : State :=
  if (s.onDie (c.param 0 1)).isEmpty then (s.drained (c.param 0 1)).complete c .ok 0 (drainBody 0 0) else s

/-- The completions that a DIE_DRAIN waited for lie before its own: those of the rings that had work on the die when it
started (R46). -/
def State.drainPast (s : State) (c : Cmd) : Bool := c.aux.all (fun r => decide (afterEvent (s.ring r).lastTide ≤ s.tide))

def execDieDrain (dt : Nat) (s : State) : Result :=
  let s := s.advance dt
  match s.take 0 0x72 with
  | none => s.idle
  | some (c, s) =>
    let die := c.param 0 1
    let t := c.param 4 4
    match lowestFail ([(decide (die < 12), 0), (decide (c.param 1 1 < 2), 1), (decide (1 ≤ t) && decide (t ≤ 60000000), 4)] ++
        reservedFail c 64 [(0, 2), (4, 4)]) with
    | some o => .next (s.badParam c o)
    | none =>
      if (s.die die).service ≠ 0 then .next (s.complete c .busy 0 [])
      else
        let rings := ((s.onDie die).map (·.ring)).eraseDups
        let s := ((s.setService die 1).setWait c.ref .dieDrain (some (s.tide + 1000 * t))).modCmd c.ref (fun d => { d with
          aux := rings })
        .next (s.endDieDrain c)

/-- DRAIN_TIMEOUT: back to service, or out of it by force (R389). -/
def execDrainTimeout (dt : Nat) (die : Fin 12) (s : State) : Result :=
  let s := s.advance dt
  match (s.ring 0).cmds.find? (fun c => c.opcode == 0x72 && c.work == .waiting .dieDrain && c.param 0 1 == die.val) with
  | none => s.idle
  | some c =>
    if !s.due c.deadline then s.idle
    else if (s.onDie die).isEmpty then (if s.drainPast c then .next (s.endDieDrain c) else s.idle)
    else if (c.param 1 1).testBit 0 then
      let (s, aborted, dropped) := s.dieLeaves die .aborted
      .next (s.complete c .ok 0 (drainBody aborted dropped))
    else .next ((s.setService die 0).complete c .deferred 0 (drainBody 0 0))

/-! ### DIE_REPAIR and DIE_RETURN (R391, R392) -/

/-- DIE_REPAIR holds the die from its start; the self-test's findings take effect when it completes. -/
def execDieRepair (dt : Nat) (inp : RepairInput) (s : State) : Result :=
  let s := s.advance dt
  match s.take 0 0x73 with
  | none => s.idle
  | some (c, s) =>
    let die := c.param 0 1
    match lowestFail ([(decide (die < 12), 0), (decide (c.param 1 1 < 2), 1)] ++ reservedFail c 64 [(0, 2)]) with
    | some o => .next (s.badParam c o)
    | none =>
      if (s.die die).service ≠ 2 then .next (s.complete c .busy 0 [])
      else
        let s := (s.setService die 3).modDie die (fun d => { d with repairIn := some inp })
        .next (s.setWait c.ref .repair none)

/-- Destructive tests leave the near tier and the operand store as they are after start-up (R391, log 4). -/
def State.wipeDie (s : State) (die : Nat) : State :=
  let gone (a : Nat) : Bool := (a / 2 ^ 60 == 4 || a / 2 ^ 60 == 5) && a / 2 ^ 56 % 16 == die
  { s with mem := s.mem.filter (fun e => !gone e.1), poison := s.poison.filter (fun u => !gone u) }

/-- Banks served by spares on a die. -/
def Die.banksSpared (d : Die) : Nat :=
  sumNat (d.channels.map (fun e => b2n (e.2.spare0 != 0x3F) + b2n (e.2.spare1 != 0x3F)))

/-- The end of DIE_REPAIR: the assignment is rebuilt, the die is DRAINED again, and the accesses that waited go on
(R391). -/
def State.endRepair (s : State) (c : Cmd) : State :=
  let die := c.param 0 1
  match (s.die die).repairIn with
  | none => s
  | some inp =>
    let s := if (c.param 1 1).testBit 0 then s else s.wipeDie die
    let s := s.modDie die (fun d => { d with channels := [], bankErrors := [], repairIn := none })
    let s := (s.assignArrays inp.arrays die).assignBanks inp.banks die
    let d := s.die die
    let ok := decide (d.inService = 32)
    let s := (s.drained die).modDie die (fun d => { d with repaired := ok })
    (s.complete c (if ok then .ok else .faulted) 0
      (bodyOf [(0, 1, d.inService), (1, 1, d.sparesFree), (2, 2, d.banksSpared)])).wakeHeld

def execDieReturn (dt : Nat) (s : State) : Result :=
  let s := s.advance dt
  match s.take 0 0x74 with
  | none => s.idle
  | some (c, s) =>
    let die := c.param 0 1
    match lowestFail ([(decide (die < 12), 0)] ++ reservedFail c 64 [(0, 1)]) with
    | some o => .next (s.badParam c o)
    | none =>
      if (s.die die).service ≠ 2 || !(s.die die).repaired then .next (s.complete c .busy 0 [])
      else
        let s := (s.modDie die (fun d => { d with outOfService := false })).setService die 0
        .next (s.complete c .ok 0 [])

/-! ### LOG_READ (R399) -/

def logSpaces : List Nat := [2, 4, 5, 7]

/-- Numbers of the records that LOG_READ copies, and the number to use as FIRST next time. -/
def Log.pick (l : Log) (first count minSev : Nat) : List Nat × Nat :=
  let oldest := l.written - l.records.length
  let from_ := max first oldest
  let all := ((List.range (l.written - from_)).map (from_ + ·)).filter (fun n => match l.find n with
    | some r => decide (minSev ≤ r.severity)
    | none => false)
  let got := all.take count
  (got, if got.length = count then got.getLastD first + 1 else max first l.written)

/-- LOG_READ (R399); while its destination is held by a repair or a retrain it waits (R205, R222, R391; log 64). -/
def execLogRead (dt : Nat) (ring : Fin 17) (s : State) : Result :=
  let before := s.advance dt
  let s := before
  match s.take ring 0xF1 with
  | none => s.idle
  | some (c, s) =>
    let first := c.param 0 8
    let count := c.param 8 2
    let addr := c.param 0x10 8
    match lowestFail ([(decide (1 ≤ count) && decide (count ≤ 8192), 8), (s.inSpace logSpaces none addr (32 * count), 0x10)] ++
        reservedFail c 64 [(0, 0x0B), (0x10, 8)]) with
    | some o => .next (s.badParam c o)
    | none =>
      let key := (s.resolve logSpaces none addr (32 * count)).getD 0
      if s.ownStops key (32 * count) then before.idle
      else if !s.keyServed key then .next (s.complete c .faulted 0 [])
      else
        let (got, next) := s.log.pick first count (c.param 0x0A 1)
        let oldest := s.log.written - s.log.records.length
        let lost := if s.log.written ≤ first then 0 else oldest - first
        let bs := got.flatMap (fun n => ((s.log.find n).map (·.bytes)).getD [])
        let s := if addrSpace addr = 7 then s.writeHost (addrOffset addr) bs else s.write key bs
        .next (s.complete c .ok 0 (bodyOf [(0, 8, got.headD next), (8, 8, next), (16, 4, got.length), (20, 4, lost)]))

end Sys2Proof.Machine
end

