-- ==== Sys2Proof/Machine/Faults.lean ====
section
/-! DEFINITION. Memory errors, the single-fault classes and their recoveries, and the leases of holds and banks (10, R213
to R222; 05, R125 to R129; 17, R374 to R388). -/

namespace Sys2Proof.Machine

/-! ### Memory errors (R215, R216) -/

/-- Controller of an address: a compute die's (near tier, operand store, landing buffer), or a far stack's. -/
inductive Controller where
  | near (die space off : Nat)
  | far (stack off : Nat)
  deriving DecidableEq, Repr

def State.controllerOf (s : State) (a : Nat) : Option Controller :=
  let sp := a / 2 ^ 60
  let die := a / 2 ^ 56 % 16
  if sp = 2 then
    (if a % 2 ^ 60 < popFarGib s.pkg.suffix * 2 ^ 30 then some (.far (farStackOf s.nStacks (a % 2 ^ 60)) (a % 2 ^ 60)) else none)
  else if (sp = 4 || sp = 5 || sp = 6) && decide (die < 12) && decide (a % 2 ^ 56 < dieSpaceBytes sp) then
    some (.near die sp (a % 2 ^ 56))
  else none

/-- Code of a space in NEAR_POISON_ADDR and POISON_FOUND: 0 near tier, 1 operand store, 6 landing buffer. -/
def spaceCode (space : Nat) : Nat := if space = 6 then 6 else space - 4

/-- Bank of a near-tier offset within its channel: 32 banks of 6 MiB (R206). -/
def nearBankOf (off : Nat) : Nat := nearWithin off / (6 * 2 ^ 20)

/-- Ticks in 24 hours. -/
def dayTicks : Nat := 86400000000000

/-- A corrected error is counted, and remembered for its near-tier bank (R215, R219). -/
def State.noteCorrected (s : State) (a : Nat) : Controller → State
  | .far f _ => s.modStack f (fun x => { x with corrected := x.corrected + 1 })
  | .near die space off =>
    s.modDie die (fun d => { d with
      nearEcc := d.nearEcc + 1
      bankErrors := if space = 4 then
          tabMod [] d.bankErrors (nearChannelOf off * 32 + nearBankOf off) (fun l =>
            (a, s.tide) :: l.filter (fun e => e.1 != a && decide (s.tide < e.2 + dayTicks)))
        else d.bankErrors })

/-- A new uncorrectable error: the unit is written back as poisoned, counted, located, recorded and signalled (R216). -/
def State.noteUncorrectable (s : State) (u : Nat) : Controller → State
  | .far f off =>
    let s := (s.markPoison [u]).modStack f (fun x => { x with
      uncorr := satAdd 32 x.uncorr 1, uncorrTide := s.tide, poisonOffset := off / 64 * 64 })
    (s.logRec (srcStack f) 0x0020 sevError u f 0).raise 20
  | .near die space off =>
    let s := (s.markPoison [u]).modDie die (fun d => { d with
      nearUncorr := satAdd 32 d.nearUncorr 1, nearUncorrTide := s.tide, nearPoisonSpace := spaceCode space
      nearPoisonOffset := off / 8 * 8
      bankBad := if space = 4 then (nearChannelOf off * 32 + nearBankOf off) :: d.bankBad else d.bankBad })
    (s.logRec (srcDie die) 0x0020 sevError u (die * 16 + spaceCode space) 0).raise 20

/-- A byte of an accumulator memory (R152, R204). -/
def isAccKey (a : Nat) : Bool :=
  a / 2 ^ 60 == 0xF && decide (a / 2 ^ 56 % 16 < 12) && decide (a / 2 ^ 48 % 256 < 32) && decide (a % 2 ^ 48 < 2 ^ 20)

/-- What ECC makes of a unit (R213, R214). -/
inductive Ecc where
  | clean | corrected | uncorrectable
  | open_ (odd : Bool)
  deriving DecidableEq, Repr

/-- SECDED corrects one bad bit of a 64-bit word and detects two (R213); the far tier's code corrects up to 3 bad
symbols of a codeword and detects 4 or 5 (R214). What more does is not stated: a free value decides (DESIGN CHOICE, log
63). -/
def eccOf (far : Bool) (bad : Nat) (free : W64) : Ecc :=
  if bad = 0 then .clean
  else if far then
    (if bad ≤ 3 then .corrected else if bad ≤ 5 then .uncorrectable else .open_ (free.toNat % 2 == 1))
  else if bad = 1 then .corrected
  else if bad = 2 then .uncorrectable
  else .open_ (free.toNat % 2 == 1)

/-- The error that the controller reports. -/
def Ecc.reported : Ecc → Ecc
  | .open_ true => .uncorrectable
  | .open_ false => .corrected
  | x => x

/-- PATROL_SCRUB: a controller reads a unit of which `bad` bits (near tier, operand store, landing buffer) or symbols
(far tier) are wrong, by scrubbing or on an access (log 24); `passDone` ends a pass of a far stack (R213 to R216). A
word of an accumulator memory with an uncorrectable error is poisoned (R152). -/
def execPatrolScrub (dt : Nat) (addr : W64) (bad : Nat) (passDone : Bool) (s : State) : Result :=
  let s := s.advance dt
  let a := addr.toNat
  let u := a / poisonUnit a * poisonUnit a
  if !s.power.diesPowered then s.idle
  else if isAccKey a then
    (let (v, s') := s.draw
     let s := if bad ≤ 2 then s else s'
     .next (if (eccOf false bad v).reported = .uncorrectable then s.markPoison [u] else s))
  else match s.controllerOf a with
  | none => s.idle
  | some c =>
    if s.keyHeld a then s.idle
    else
    let far := match c with
      | .far _ _ => true
      | .near _ _ _ => false
    let (v, s') := s.draw
    let s := if bad ≤ (if far then 5 else 2) then s else s'
    let s := if s.unitPoisoned u then s else match (eccOf far bad v).reported with
      | .corrected => s.noteCorrected u c
      | .uncorrectable => s.noteUncorrectable u c
      | _ => s
    match c with
    | .far f _ => .next (if passDone then s.modStack f (fun x => { x with scrubPass := x.scrubPass + 1 }) else s)
    | .near _ _ _ => .next s

/-! ### Near-tier banks (R219, R381) -/

def bankUnit (die ch bank : Nat) : Nat := die * 65536 + ch * 256 + bank

/-- Spare banks of the channel that are free. -/
def NearChannel.spares (c : NearChannel) : Nat := b2n (c.spare0 == 0x3F) + b2n (c.spare1 == 0x3F)

/-- Banks of a channel whose sparing has been declared and whose copy has not ended: each takes a spare (R219, R376). -/
def State.pendingCopies (s : State) (die ch : Nat) : List Nat :=
  let c := tabGet ({} : NearChannel) (s.die die).channels ch
  ((s.log.recoveries.filter (fun r => r.cls == 4 && !r.noSpare && r.unit / 256 == die * 256 + ch)).map (fun r =>
    r.unit % 256)).filter (fun b => (tabFind c.paused b).isNone)

/-- A bank trips at an uncorrectable error, or at 32 corrected errors at distinct addresses within 24 hours (R219). -/
def State.bankTrips (s : State) (die ch bank : Nat) : Bool :=
  (s.die die).bankBad.contains (ch * 32 + bank) ||
  decide (32 ≤ ((tabGet [] (s.die die).bankErrors (ch * 32 + bank)).filter (fun e => decide (s.tide < e.2 + dayTicks))).length)

/-- NEAR_BANK_FAULT: the fault is declared, and the copy to a spare begins, unless the channel already copies or has no
spare (R219, R374). `second`: of two free spares the controller picks SPARE1; the rule leaves the pick open (log 5). -/
def execNearBankFault (dt : Nat) (die : Fin 12) (channel : Fin 64) (bank : Fin 32) (second : Bool) (s : State) :
    Result :=
  let s := s.advance dt
  if !s.power.diesPowered || !s.bankTrips die channel bank || s.recovering 4 (bankUnit die channel bank) then s.idle
  else
    let c := tabGet ({} : NearChannel) (s.die die).channels channel
    let spare := decide ((s.pendingCopies die channel).length < c.spares)
    let s := s.declareFault (srcDie die) 4 (bankUnit die channel bank) (!spare)
    .next (s.modDie die (fun d => { d with
      channels := if spare && c.copying.isNone then tabMod {} d.channels channel (fun c => { c with
        copying := some bank.val, toSecond := second })
        else d.channels
      bankErrors := tabDel d.bankErrors (channel.val * 32 + bank.val)
      bankBad := d.bankBad.filter (fun b => b != channel.val * 32 + bank.val) }))

/-- BANK_COPY_DONE: the bank's addresses are redirected, the sparing is recorded, and the channel pauses until RECOVERY_DONE
(R219, R381). -/
def execBankCopyDone (dt : Nat) (die : Fin 12) (channel : Fin 64) (s : State) : Result :=
  let s := s.advance dt
  let c := tabGet ({} : NearChannel) (s.die die).channels channel
  match c.copying with
  | none => s.idle
  | some b =>
    let c := { c.spareBank b with
      copying := ((s.pendingCopies die channel).filter (fun x => x != b)).head?, lastSpare := s.tide
      paused := tabSet c.paused b s.tide }
    .next (s.modDie die (fun d => { d with channels := tabSet d.channels channel c }))

/-! ### Far-tier channels (R220, R222, R380) -/

def farUnit (stack ch : Nat) : Nat := stack * 256 + ch

def State.modFar (s : State) (f ch : Nat) (g : FarChannel → FarChannel) : State :=
  s.modStack f (fun x => { x with channels := tabMod {} x.channels ch g })

/-- A transfer of the replay buffer is still being retried: each retry completes within 60 ns of its failure (R220). -/
def stillRetried (tide : Nat) (e : Nat × Nat × Nat) : Bool := decide (tide ≤ e.2.2 + 60)

/-- Tidemarks within the last 1 ms. -/
def withinMs (tide : Nat) (ts : List Nat) : List Nat := ts.filter (fun t => decide (tide < t + 1000000))

/-- A parity failure of a transfer: it is reissued, at most 4 times (R220). -/
def FarChannel.fails (c : FarChannel) (transfer tide : Nat) : FarChannel :=
  let live := c.replay.filter (stillRetried tide)
  let others := live.filter (fun e => e.1 != transfer)
  match live.find? (fun e => e.1 == transfer) with
  | none => { c with
      retries := c.retries + 1, replay := (transfer, 1, tide) :: others, recent := tide :: withinMs tide c.recent }
  | some e =>
    if 4 ≤ e.2.1 then { c with replay := others, exhausted := true }
    else { c with retries := c.retries + 1, replay := (transfer, e.2.1 + 1, tide) :: others }

/-- The failure is that of a transfer's fourth retry: its retries are exhausted (R220). -/
def FarChannel.exhausts (c : FarChannel) (transfer tide : Nat) : Bool :=
  c.replay.any (fun e => stillRetried tide e && e.1 == transfer && decide (4 ≤ e.2.1))

/-- FAR_PARITY_FAILURE: the transfer is reissued, or has failed its fourth retry (R220). -/
def execFarParityFailure (dt : Nat) (stack : Fin 16) (x : FarTransfer) (s : State) : Result :=
  let s := s.advance dt
  let ⟨channel, transfer⟩ := x
  let c := tabGet ({} : FarChannel) (s.stack stack).channels channel
  if s.nStacks ≤ stack.val || !s.power.diesPowered || c.state ≠ 0 then s.idle
  else
    let c' := c.fails transfer s.tide
    let s := s.modStack stack (fun x => { x with
      retries := if c.retries < c'.retries then satAdd 32 x.retries 1 else x.retries
      exhausted := if c.exhausts transfer s.tide then satAdd 16 x.exhausted 1 else x.exhausted })
    .next (s.modFar stack channel (fun _ => c'))

/-- FAR_CHANNEL_FAULT: a transfer has exhausted its retries, or the channel retried too often; the in-service retrain
finds these failing lanes (R220, R222). -/
def execFarChannelFault (dt : Nat) (stack channel : Fin 16) (failingCa : List CaLane)
    (failingD0 failingD1 : List DataLane) (s : State) : Result :=
  let s := s.advance dt
  let c := tabGet ({} : FarChannel) (s.stack stack).channels channel
  if s.nStacks ≤ stack.val || !s.power.diesPowered || c.state ≠ 0 ||
      !(c.exhausted || decide (256 < (withinMs s.tide c.recent).length)) then s.idle
  else
    let ok := (steerCa c.spareCa failingCa).isSome && (steerData c.spareD0 failingD0).isSome &&
      (steerData c.spareD1 failingD1).isSome
    let s := s.modStack stack (fun x => { x with retrains := satAdd 16 x.retrains 1 })
    let s := s.modFar stack channel (fun c => { c with
      state := 1, lastRetrain := s.tide, replay := [], recent := [], exhausted := false
      spareCa := (steerCa c.spareCa failingCa).getD c.spareCa
      spareD0 := (steerData c.spareD0 failingD0).getD c.spareD0
      spareD1 := (steerData c.spareD1 failingD1).getD c.spareD1 })
    .next (s.declareFault (srcStack stack) 3 (farUnit stack channel) (!ok))

/-- A part's leases of banks are revoked: it completes with FAULTED, its writes are abandoned, and each lease has its
record (R387, R388). -/
def State.revokePart (s : State) (die : Nat) (banks : List (Nat × Nat)) : State :=
  banks.foldl (fun st bank => st.logRec 0 0x0080 sevWarning (bank.2 + 1000000) 3 bank.1) (s.failEngine die .faulted)

/-- A far-tier channel fails: a fatal record, and the leases of its banks are revoked (R222, R388). -/
def State.farFails (s : State) (f ch : Nat) : State :=
  let s := (s.modFar f ch (fun c => { c with state := 2 })).logRec (srcStack f) 0x0022 sevFatal 0 0 (farUnit f ch)
  (List.range 12).foldl (fun st die =>
    let lost := (((st.die die).engine.map (·.banks)).getD []).filter (fun b => b.1 / 16 == f * 16 + ch)
    if lost.isEmpty then st else st.revokePart die lost) s

/-! ### Rows and arrays (R125 to R129, R382, R383) -/

/-- A spare row that the failing row was on is out. -/
def ArrayState.dropRow (x : ArrayState) (row : Nat) : ArrayState :=
  if x.spare64 = some row then { x with spare64 := none, usable64 := false }
  else if x.spare65 = some row then { x with spare65 := none, usable65 := false }
  else x

/-- Spare rows free for a failing row. -/
def ArrayState.freeRows (x : ArrayState) (row : Nat) : Nat :=
  let y := x.dropRow row
  b2n (y.usable64 && y.spare64.isNone) + b2n (y.usable65 && y.spare65.isNone)

/-- The failing row takes the first free spare row (R123, R126). -/
def ArrayState.takeRow (x : ArrayState) (row tide : Nat) : ArrayState :=
  let y := { x.dropRow row with lastRepair := tide }
  if y.usable64 && y.spare64.isNone then { y with spare64 := some row } else { y with spare65 := some row }

def State.dieServes (s : State) (die : Nat) : Bool := s.power.diesPowered && !(s.die die).outOfService

/-- CELL_ROW_FAULT: a wave that this row's cell failed was refused; the class is that of the repair that follows (R125,
R126, R374). A fault whose recovery runs is not declared again. -/
def execCellRowFault (dt : Nat) (die : Fin 12) (array : Fin 32) (row : Fin 64) (s : State) : Result :=
  let s := s.advance dt
  let x := s.array die array
  if !s.dieServes die || x.failRow != some row.val || (s.refusers die array).isEmpty || s.arrayPaused die array then s.idle
  else
    if 0 < x.freeRows row then
      .next (s.declareFault (srcDie die) 6 (die.val * 65536 + array.val * 256 + row.val) false)
    else .next (s.declareFault (srcDie die) 5 (die.val * 256 + array.val) (s.die die).freeArrays.isEmpty)

/-- ARRAY_FAULT: a handshake that did not complete within 1 µs (R127). -/
def execArrayFault (dt : Nat) (die : Fin 12) (array : Fin 32) (s : State) : Result :=
  let s := s.advance dt
  if !s.dieServes die then s.idle
  else .next (s.declareFault (srcDie die) 5 (die.val * 256 + array.val) (s.die die).freeArrays.isEmpty)

/-- A row repair ends: the spare row is mapped, and the row is fed again (R126). -/
def State.repairRow (s : State) (die a row : Nat) : State :=
  let s := s.modArray die a (fun x => x.takeRow row s.tide)
  (s.modDie die (fun d => { d with rowRepairs := satAdd 16 d.rowRepairs 1 })).refeedRow die a row

/-- Poisoned words of an array's accumulator memory, which the copy of a swap reads (R128, R169). -/
def State.accPoisonOf (s : State) (die a : Nat) : Nat :=
  (s.poison.filter (fun u => u / 2 ^ 48 == (accKey die a 0) / 2 ^ 48)).length

/-- A swap ends: the logical array is on a spare, which carries its slots on; the words of its accumulator memory
numbered in `bad` failed their ECC during the copy and arrive poisoned (R128, R169). -/
def State.swapArray (s : State) (die a : Nat) (p : Fin 34) (bad : List Nat) : State :=
  let x := mapArray (s.die die).tests die p
  let s := s.markPoison ((bad.filter (fun w => decide (w < 131072))).map (fun w => accKey die a (8 * w)))
  let s := s.countAccPoison die (s.accPoisonOf die a)
  let s := s.modArray die a (fun y => { y.remap x with lastRepair := s.tide })
  let s := s.modDie die (fun d => { d with
    freeArrays := d.freeArrays.drop 1, sparesFree := d.sparesFree - 1, arraySwaps := satAdd 16 d.arraySwaps 1 })
  s.refeedChain die a

/-- The recovery of an array: whether a spare was left, and the state after (R128, R129). -/
def State.recoverArray (s : State) (die a : Nat) (bad : List Nat) : Bool × State :=
  match (s.die die).freeArrays with
  | p :: _ => (true, s.swapArray die a p bad)
  | [] =>
    if (s.die die).outOfService then (false, s)
    else
      let s := s.modDie die (fun d => { d with inService := d.inService - 1 })
      (false, (s.dieLeaves die .faulted).1)

/-! ### DMA complexes, cores, switch tiles (R384 to R386) -/

def execDmaComplexFault (dt : Nat) (complex : Fin 6) (s : State) : Result :=
  let s := s.advance dt
  if (s.complex complex).failed || !s.power.diesPowered then s.idle
  else .next (s.declareFault (srcComplex complex) 7 complex (s.complex (partnerOf complex)).failed)

/-- The partner adopts the channels, or the channels of both stop (R384); stops that waited take effect (R360, R375). -/
def State.recoverComplex (s : State) (d : Nat) : Bool × State :=
  let s := s.modComplex d (fun x => { x with failed := true })
  let lost := (s.complex (partnerOf d)).failed
  let chans := List.range 192
  let s := if lost then
      (chans.filter (fun n => complexOf n == d || complexOf n == partnerOf d)).foldl (fun st n =>
        st.stopChannel n 5 .faulted 5) s
    else s
  (!lost, chans.foldl (fun st n =>
    if (st.channel n).stop && !st.channelPaused n then st.stopChannel n 2 .aborted 0 else st) s)

def execCoreFault (dt : Nat) (core : Fin 6) (s : State) : Result :=
  let s := s.advance dt
  if s.host.failedCores.contains core.val || !s.power.diesPowered then s.idle
  else .next (s.declareFault 0 8 core (s.host.standby.isNone || s.host.standby == some core.val))

/-- Rings that a core serves. -/
def State.ringsOf (s : State) (core : Nat) : List Nat := (List.range 17).filter (fun r => (s.ring r).core == core)

/-- A core's rings are handed to another (R385). -/
def State.handOver (s : State) (core to_ : Nat) : State :=
  (s.ringsOf core).foldl (fun st r => st.modRing r (fun x => { x with core := to_ })) s

/-- The serving core that has the fewest rings, the lower number among equals (R385). -/
def State.leastCore (s : State) (except : Nat) : Option Nat :=
  let able := (List.range 6).filter (fun c =>
    c != except && !s.host.failedCores.contains c && s.host.standby != some c && s.host.restarting != some c &&
      !s.recovering 8 c)
  able.find? (fun c => able.all (fun d => decide ((s.ringsOf c).length ≤ (s.ringsOf d).length)))

/-- The image of component 0x0002 that waits in the inactive slot (R425). -/
def FwState.waiting (f : FwState) : Option ImageIn := if f.activeB then f.imageA else f.imageB

/-- The rotation begins: the new image is measured before a core runs it, the standby core restarts, then each serving
core in ascending order, core 0 last (R413, R428). -/
def State.startRotation (s : State) : State :=
  match s.host.standby with
  | none => s
  | some x =>
    let serving := (List.range 6).filter (fun c => c != x && !s.host.failedCores.contains c)
    let s := match (tabGet ({} : FwState) s.power.fw 1).waiting with
      | some i => s.record 3 (ImageIn.bytes i)
      | none => s
    { s with host := { s.host with
      standby := none, restarting := some x, newImage := []
      rotation := some (serving.filter (· != 0) ++ serving.filter (· == 0)) } }

/-- The new image of component 0x0002 is in force (R428). -/
def State.endRotation (s : State) : State :=
  let f := tabGet ({} : FwState) s.power.fw 1
  let f := { f with activeB := !f.activeB, pending := false, fallback := false, svn := (f.waiting.map (·.svn)).getD f.svn }
  { s with
    host := { s.host with rotation := none }
    power := { s.power with fw := tabSet s.power.fw 1 f } }

/-- The rotation goes on: the next core hands its rings to the standby core and restarts; after the last one the image
is in force (R428). DESIGN CHOICE (log 54): where the core that restarted has failed and no core is standby, the rings
go to the serving core with the fewest; with no such core the rotation ends where it is. -/
def State.rotateOn (s : State) : State :=
  match s.host.rotation with
  | none => s
  | some l =>
    match l.filter (fun c => !s.host.failedCores.contains c) with
    | [] => s.endRotation
    | c :: rest =>
      match s.host.standby.or (s.leastCore c) with
      | none => { s with host := { s.host with rotation := none } }
      | some x =>
        let s := s.handOver c x
        { s with host := { s.host with standby := none, restarting := some c, rotation := some rest } }

/-- The rings of a core serve again from now on: a launch Tidemark inside the pause was late (R375). -/
def State.resumeRings (s : State) (core : Nat) : State :=
  (s.ringsOf core).foldl (fun st r => st.modRing r (fun x => { x with blockedUntil := max x.blockedUntil s.tide })) s

/-- The rings of a failed core go to the standby core, or are shared (R385); a rotation whose restarting core has failed
goes on without it (R428). -/
def State.recoverCore (s : State) (core : Nat) : Bool × State :=
  let s := (s.resumeRings core)
  let s := { s with host := { s.host with failedCores := s.host.failedCores ++ [core] } }
  if s.host.restarting = some core then
    (false, ({ s with host := { s.host with restarting := none } } : State).rotateOn)
  else if s.host.standby = some core then (true, { s with host := { s.host with standby := none } })
  else match s.host.standby with
    | some x =>
      let s := s.handOver core x
      (true, { s with host := { s.host with standby := none } })
    | none =>
      match s.leastCore core with
      | some x => (false, s.handOver core x)
      | none => (false, s)

def execSwitchTileFault (dt : Nat) (tile : Fin 6) (selfTestOk : Bool) (s : State) : Result :=
  let s := s.advance dt
  if s.nIoDies ≤ tile.val || !(s.tile tile).inService || !s.power.diesPowered then s.idle
  else
    let s := s.modTile tile (fun t => { t with lastFault := s.tide })
    .next (s.declareFault (srcIo tile) 9 tile (!selfTestOk))

/-- A tile that is back takes what its contexts hold; one that fails its self-test leaves service (R386, R388). -/
def State.recoverTile (s : State) (x : Nat) (ok : Bool) : State :=
  let mine := s.coll.ctxs.filter (fun c => c.tile == x)
  if ok then
    (mine.foldl State.wakeCtx s).vote
  else
    let s := s.modTile x (fun t => { t with inService := false })
    (mine.foldl (fun st c =>
      let body := if c.kind = 0 then c.redBody else if c.kind = 1 then c.gatBody else []
      (st.refuseColl c .faulted none body).logRec 0 0x0080 sevWarning c.lease 1 c.collId.toNat) s).vote

/-! ### RECOVERY_DONE (R377) -/

/-- Tidemark at which the channel of a bank fault paused, the present one where it does not (R381). -/
def Recovery.paused (r : Recovery) (s : State) : Nat :=
  tabGet s.tide (tabGet ({} : NearChannel) (s.die (r.unit / 65536)).channels (r.unit / 256 % 256)).paused (r.unit % 256)

/-- Interruption of a fault: for a bank, the pause of the channel alone (R374, R381). -/
def State.interruption (s : State) (r : Recovery) : Nat :=
  if r.cls = 4 then
    (if r.noSpare then 0
     else s.tide - r.paused s)
  else s.tide - r.since

/-- Counts and record of a recovery that ends after an interruption of `t` (R377, R398). -/
def State.recordRecovery (s : State) (t : Nat) (r : Recovery) (ok : Bool) : State :=
  let s := s.modClass r.cls (fun c => { c with
    failed := if ok then c.failed else satAdd 16 c.failed 1
    longest := max c.longest (min (2 ^ 32 - 1) t) })
  if ok then s.logFlag r.overlap r.source 0x0071 sevInfo r.since r.cls r.unit
  else s.logFlag r.overlap r.source 0x0072 (if r.cls = 3 then sevFatal else sevError) r.since r.cls r.unit

/-- Whether traffic can move again: the link is ACTIVE, the bank is redirected, or stays, the refused waves have run out
(R126, R219, R304, R308). -/
def State.mayResume (s : State) (r : Recovery) : Bool :=
  match r.cls with
  | 1 => (s.port (r.unit / 256)).train.state == .active
  | 2 =>
    let st := (tabGet ({} : Train) s.seamTrain (r.unit / 256)).state
    st == .active || st == .down
  | 4 =>
    let c := tabGet ({} : NearChannel) (s.die (r.unit / 65536)).channels (r.unit / 256 % 256)
    r.noSpare || (tabFind c.paused (r.unit % 256)).isSome
  | 6 =>
    let die := r.unit / 65536
    (s.refusers die (r.unit / 256 % 256)).all (fun a => s.ranOut die a)
  | _ => true

/-- The channel resumes after a bank's redirection (R219 step 3). -/
def State.resumeNear (s : State) (die ch bank : Nat) : State :=
  s.modDie die (fun d => { d with channels := tabMod {} d.channels ch (fun c => { c with paused := tabDel c.paused bank }) })

/-- The work of the recovery itself, and whether its class had a spare left (R374): a lane fault had one if the spare now
carries the position, else the width has dropped (R308). -/
def State.recover (s : State) (r : Recovery) (bad : List Nat) : Bool × State :=
  match r.cls with
  | 1 => ((s.port (r.unit / 256)).train.sparePos == some (r.unit % 256), s)
  | 2 => ((tabGet ({} : Train) s.seamTrain (r.unit / 256)).state == .active, s)
  | 3 =>
    let f := r.unit / 256
    let ch := r.unit % 256
    if r.noSpare then (false, s.farFails f ch) else (true, s.modFar f ch (fun c => { c with state := 0 }))
  | 4 => (!r.noSpare, s.resumeNear (r.unit / 65536) (r.unit / 256 % 256) (r.unit % 256))
  | 5 => s.recoverArray (r.unit / 256) (r.unit % 256) bad
  | 6 =>
    let die := r.unit / 65536
    let a := r.unit / 256 % 256
    (true, if (s.die die).outOfService then s else s.repairRow die a (r.unit % 256))
  | 7 => s.recoverComplex r.unit
  | 8 => s.recoverCore r.unit
  | 9 => (!r.noSpare, s.recoverTile r.unit (!r.noSpare))
  | _ => (!r.noSpare, s)

/-- RECOVERY_DONE: the oldest fault of the unit ends (R375 to R377); held accesses move again (R464). -/
def execRecoveryDone (dt : Nat) (cls : Nat) (x : Recovered) (s : State) : Result :=
  let s := s.advance dt
  let ⟨unit, bad⟩ := x
  match s.log.recoveries.find? (fun r => r.cls == cls && r.unit == unit) with
  | none => s.idle
  | some r =>
    if !s.mayResume r then s.idle
    else
      let s := { s with log := { s.log with recoveries := s.log.recoveries.erase r } }
      let (ok, t) := s.recover r bad
      .next (((t.recordRecovery (s.interruption r) r ok).wakeHeld).replayHeldBar)

/-! ### Leases of holds and banks (R387, R388) -/

/-- HOLD_LEASE_EXPIRY: a renewal at the Tidemark of expiry still keeps the lease. -/
def execHoldLeaseExpiry (dt : Nat) (layer : Fin 4096) (slot : Fin 8) (holder : W16) (s : State) : Result :=
  let s := s.advance dt
  let x := (s.layer layer).slot slot
  match x.holds.find? (fun h => h.1 == holder && decide (h.2.2 < s.tide)) with
  | none => s.idle
  | some h =>
    let s := s.modLayer layer (fun l => { l with
      slots := tabMod {} l.slots slot (fun x => { x with holds := x.holds.filter (fun g => g != h) }) })
    .next ((s.logRec 0 0x0080 sevWarning h.2.2 2 (layer.val * 65536 + x.serial.toNat)).retire layer)

/-- BANK_LEASE_EXPIRY: 1 ms after the part's latest write to a bank; an expiry that falls into a recovery pause of the part,
of the bank's channel or of the route to it, is moved to its end (R387, R388). -/
def execBankLeaseExpiry (dt : Nat) (die : Fin 12) (s : State) : Result :=
  let s := s.advance dt
  match (s.die die).engine with
  | none => s.idle
  | some e =>
    if (s.findCmd e.cmd).any (fun c => s.partHeld (updP c) e.nstate) then s.idle
    else match e.banks.find? (fun b => decide (b.2 + 1000000 < s.tide)) with
      | none => s.idle
      | some b => .next (s.revokePart die [b])

end Sys2Proof.Machine
end

