-- ==== Sys2Proof/Machine/Mgmt.lean ====
section
/-! DEFINITION. The management transport: I3C and MCTP, SPDM, PLDM sensors and firmware update, the OEM reads, and the
rotation of the command processor cores (18, R419 to R428). Message codes are those of the DMTF documents that R421, R424
and R425 name (PRESUMED, log 21 and log 22). -/

namespace Sys2Proof.Machine

/-- The module controller answers MCTP (R423). -/
def State.mctpUp (s : State) : Bool := s.power.phase != .off

/-- A response: its code, and what it carries. It leaves by an in-band interrupt with the dynamic address, and not at all
while the module has none (R440, log 21). -/
def State.reply (s : State) (code : Nat) (body : List Byte) : State :=
  if s.mgmt.dynAddr.isSome then { s with mgmt := { s.mgmt with code := code, response := body } } else s

/-- A request that the module controller serves while it runs. -/
def State.serve (s : State) (f : State → State) : Result := if s.mctpUp then .next (f s) else s.idle

def State.modMgmt (s : State) (f : Mgmt → Mgmt) : State := { s with mgmt := f s.mgmt }

/-! ### I3C and MCTP (R423) -/

/-- SETDASA takes effect where it names the static address 0x10 + SLOT_ID. -/
def execSetdasa (dt : Nat) (static dynamic : Nat) (s : State) : Result :=
  (s.advance dt).serve (fun s =>
    if static = 0x10 + s.power.slotId then s.modMgmt (fun m => { m with dynAddr := some dynamic }) else s)

def execEntdaa (dt : Nat) (dynamic : Nat) (s : State) : Result :=
  (s.advance dt).serve (fun s =>
    if s.mgmt.dynAddr.isNone then s.modMgmt (fun m => { m with dynAddr := some dynamic }) else s)

def execSetEndpointId (dt : Nat) (eid : Byte) (s : State) : Result :=
  (s.advance dt).serve (fun s => (s.modMgmt (fun m => { m with eid := eid })).reply 0 [eid])

/-- SET_EVENT_RECEIVER (R424). -/
def execSetEventReceiver (dt : Nat) (eid : Byte) (s : State) : Result :=
  (s.advance dt).serve (fun s => (s.modMgmt (fun m => { m with eventReceiver := some eid })).reply 0 [])

/-! ### SPDM (R421, R422) -/

def spdmError : Nat := 0x7F
def errInvalid : Byte := 0x01
def errUnexpected : Byte := 0x04
def errUnsupported : Byte := 0x07
def errNotReady : Byte := 0x42

/-- A request that needs the negotiation done. -/
def State.spdm (s : State) (f : State → State) : State :=
  if s.mgmt.spdmNegotiated then f s else s.reply spdmError [errUnexpected]

/-- GET_VERSION: SPDM 1.3; what was negotiated before is void. -/
def execGetVersion (dt : Nat) (s : State) : Result :=
  (s.advance dt).serve (fun s =>
    (s.modMgmt (fun m => { m with spdmVersionSeen := true, spdmNegotiated := false })).reply 0x04 [0x13])

/-- GET_CAPABILITIES: CERT_CAP, CHAL_CAP and MEAS_CAP with signature, nothing else. -/
def execGetCapabilities (dt : Nat) (s : State) : Result :=
  (s.advance dt).serve (fun s =>
    if s.mgmt.spdmVersionSeen then s.reply 0x61 (toBytes 4 0x16) else s.reply spdmError [errUnexpected])

/-- NEGOTIATE_ALGORITHMS: ML-DSA-87 and SHA3-512, both of which the requester must offer. -/
def execNegotiateAlgorithms (dt : Nat) (hashOffered asymOffered : Bool) (s : State) : Result :=
  (s.advance dt).serve (fun s =>
    if !s.mgmt.spdmVersionSeen then s.reply spdmError [errUnexpected]
    else if hashOffered && asymOffered then
      (s.modMgmt (fun m => { m with spdmNegotiated := true })).reply 0x63 (toBytes 8 extAlgWord)
    else s.reply spdmError [errInvalid])

/-- A measurement's value (R422): a digest, or the raw value of index 10. -/
def State.measurement (s : State) (i : Nat) : List Byte :=
  if i = 10 then
    toBytes 8 s.pkg.featureFloor.toNat ++ toBytes 1 (populationWord s % 4) ++
      (List.range 0x50).flatMap (fun n => toBytes 8 (identityWord s n false) ++ toBytes 8 (identityWord s n true))
  else ((s.power.measurements.filter (fun m => m.1 == i)).getLast?.map (·.2)).getD []

/-- What the log held of an index first: the measurement of the start-up. -/
def State.startMeasurement (s : State) (i : Nat) : List Byte :=
  ((s.power.measurements.find? (fun m => m.1 == i)).map (·.2)).getD []

/-- What is known of a slot's key: the identity key of slot 0, the alias key of this start-up in slot 1 (R421). -/
def State.slotKey (s : State) (slot : Nat) : W64 := if slot = 1 then s.power.aliasKey else 0

/-- A certificate slot's chain: that of slot 1 was made at start-up and carries measurements 1 to 8 (R421). -/
def State.chain (s : State) (slot : Nat) : List Byte :=
  Config.certChain slot (s.slotKey slot) (if slot = 1 then (List.range 8).map (fun i => s.startMeasurement (i + 1)) else [])

def execGetDigests (dt : Nat) (s : State) : Result :=
  (s.advance dt).serve (fun s => s.spdm (fun s =>
    s.reply 0x01 (Config.sha3 (s.chain 0) ++ Config.sha3 (s.chain 1))))

def execGetCertificate (dt : Nat) (slot offset length : Nat) (s : State) : Result :=
  (s.advance dt).serve (fun s => s.spdm (fun s =>
    if 1 < slot then s.reply spdmError [errInvalid]
    else s.reply 0x02 (((s.chain slot).drop offset).take length)))

/-- CHALLENGE: the chain's digest and a random number, signed with the requester's nonce (log 21). -/
def execChallenge (dt : Nat) (slot : Nat) (nonce : List Byte) (s : State) : Result :=
  (s.advance dt).serve (fun s => s.spdm (fun s =>
    if 1 < slot then s.reply spdmError [errInvalid]
    else
      let (v, s) := s.draw
      let body := Config.sha3 (s.chain slot) ++ toBytes 8 v.toNat
      s.reply 0x03 (body ++ Config.mlDsaSign slot (s.slotKey slot) (nonce ++ body))))

/-- Blocks that a GET_MEASUREMENTS names: none for 0 (the count alone), one, or all for 255. -/
def measuredBlocks (index : Nat) : List Nat :=
  if index = 0xFF then (List.range 10).map (· + 1) else if index = 0 then [] else [index]

/-- DMTFSpecMeasurementValueType of an index: immutable ROM, mutable firmware, firmware configuration, and for index 10
the raw bit with hardware configuration (PRESUMED, log 21). -/
def measurementType (i : Nat) : Nat :=
  if i = 1 then 0 else if i ≤ 7 then 1 else if i ≤ 9 then 3 else 0x82

/-- A measurement block in the DMTF measurement format: index, specification, size, and the value with its type and size
(R422; PRESUMED, log 21). -/
def State.measurementBlock (s : State) (i : Nat) : List Byte :=
  let v := s.measurement i
  toBytes 1 i ++ toBytes 1 1 ++ toBytes 2 (v.length + 3) ++ toBytes 1 (measurementType i) ++ toBytes 2 v.length ++ v

/-- GET_MEASUREMENTS; index 3 is not ready while the cores rotate (R422). The configuration in force is read past a
configuration apply that is due (R52). -/
def execGetMeasurements (dt : Nat) (slot index : Nat) (sign : Bool) (nonce : List Byte) (s : State) : Result :=
  let s := s.advance dt
  if (measuredBlocks index).contains 9 && s.applyDue then s.idle
  else s.serve (fun s => s.spdm (fun s =>
    let blocks := measuredBlocks index
    if 1 < slot || (decide (10 < index) && index != 0xFF) then s.reply spdmError [errInvalid]
    else if blocks.contains 3 && s.host.rotation.isSome then s.reply spdmError [errNotReady]
    else
      let body := if index = 0 then [10] else
        blocks.flatMap s.measurementBlock
      s.reply 0x60 (if sign then body ++ Config.mlDsaSign slot (s.slotKey slot) (nonce ++ body) else body)))

/-- SPDM_OTHER_REQUEST: ERROR UnsupportedRequest, with the request's code. -/
def execSpdmOtherRequest (dt : Nat) (code : Byte) (s : State) : Result :=
  (s.advance dt).serve (fun s => s.reply spdmError [errUnsupported, code])

/-! ### Sensors (R424) -/

def hottest (l : List Nat) : Nat := l.foldl max 0

def State.sensor (s : State) (n : Nat) : Option Nat :=
  if n = 1 then some s.power.vin
  else if n = 2 then some s.power.iin
  else if n = 3 then some s.power.pin
  else if n = 4 then some s.power.limit
  else if n = 5 then some (hottest ((List.range 12).map (fun i => (s.die i).tj)))
  else if n = 6 then some (hottest ((List.range s.nStacks).map (fun f => (s.stack f).temp)))
  else if 0x10 ≤ n && n < 0x1C then some (s.die (n - 0x10)).tj
  else if 0x20 ≤ n && n < 0x20 + s.nStacks then some (s.stack (n - 0x20)).temp
  else none

def execGetSensorReading (dt : Nat) (sensor : Nat) (s : State) : Result :=
  (s.advance dt).serve (fun s => match s.sensor sensor with
    | some v => s.reply 0 (toBytes 4 v)
    | none => s.reply 0x80 [])

/-! ### Firmware update (R425, R412, R414, R415, R417, R420) -/

def pldmInvalidData : Nat := 2
def pldmNotReady : Nat := 4
def pldmNotInUpdate : Nat := 0x80
def pldmInUpdate : Nat := 0x81
def pldmBadState : Nat := 0x84

/-- FW_STATE index of a component (R425). -/
def componentIndex (c : Nat) : Option Nat :=
  if 1 ≤ c && c ≤ 6 then some (c - 1) else if c = 0x10 then some 6 else if c = 0x11 then some 7 else none

/-- Component ID of a FW_STATE index. -/
def indexComponent (i : Nat) : Nat := if i < 6 then i + 1 else 0x10 + (i - 6)

def execQueryDeviceIdentifiers (dt : Nat) (s : State) : Result :=
  (s.advance dt).serve (fun s => s.reply 0 Config.deviceIdentifiers)

/-- GET_FIRMWARE_PARAMETERS: each component with its FW_STATE. -/
def execGetFirmwareParameters (dt : Nat) (s : State) : Result :=
  (s.advance dt).serve (fun s =>
    s.reply 0 ((List.range 8).flatMap (fun i => toBytes 2 (indexComponent i) ++ toBytes 8 (fwWord s i))))

/-- A request of one of these states of the update; another gives an error. -/
def State.update (s : State) (states : List Nat) (f : State → State) : State :=
  if states.contains s.mgmt.updState then f s
  else if s.mgmt.updState = 0 then s.reply pldmNotInUpdate []
  else s.reply pldmBadState []

def execRequestUpdate (dt : Nat) (maxTransfer : Nat) (s : State) : Result :=
  (s.advance dt).serve (fun s =>
    if s.mgmt.updState ≠ 0 then s.reply pldmInUpdate []
    else
      (s.modMgmt (fun m => { m with
        updState := 1, updMax := min maxTransfer 4096, updTable := [], updComponent := none, updData := [], updImage := none })).reply 0 [])

def execPassComponentTable (dt : Nat) (component : Nat) (s : State) : Result :=
  (s.advance dt).serve (fun s => s.update [1, 2] (fun s =>
    if (componentIndex component).isNone then s.reply pldmInvalidData []
    else (s.modMgmt (fun m => { m with updState := 2, updTable := m.updTable ++ [component] })).reply 0 []))

def execUpdateComponent (dt : Nat) (component size : Nat) (s : State) : Result :=
  (s.advance dt).serve (fun s => s.update [2] (fun s =>
    if !s.mgmt.updTable.contains component then s.reply pldmInvalidData []
    else (s.modMgmt (fun m => { m with
      updState := 3, updComponent := some component, updSize := size, updData := [] })).reply 0 []))

/-- A firmware image in the inactive slot of its component; the records have no slots (R412, R425). -/
def State.writeSlot (s : State) (img : Option ImageIn) : State :=
  match (s.mgmt.updComponent.bind componentIndex).filter (fun n => decide (n < 6)) with
  | none => s
  | some n => { s with power := { s.power with fw := tabMod {} s.power.fw n (fun f =>
      if f.activeB then { f with imageA := img, pending := false } else { f with imageB := img, pending := false }) } }

/-- REQUEST_FIRMWARE_DATA: the data that the module asked for, at most 4,096 bytes at a time; the image that the inactive
slot held is overwritten (R425). -/
def execRequestFirmwareData (dt offset : Nat) (data : List Byte) (s : State) : Result :=
  (s.advance dt).serve (fun s =>
    if s.mgmt.updState ≠ 3 || decide (s.mgmt.updMax < data.length) || decide (s.mgmt.updSize < offset + data.length) then s
    else (s.writeSlot none).modMgmt (fun m => { m with
      updData := padTo offset m.updData ++ data ++ m.updData.drop (offset + data.length) }))

/-- TRANSFER_COMPLETE: the whole image is there, or the component is given up. -/
def execTransferComplete (dt : Nat) (ok : Bool) (s : State) : Result :=
  (s.advance dt).serve (fun s => s.update [3] (fun s =>
    if ok && s.mgmt.updData.length == s.mgmt.updSize then (s.modMgmt (fun m => { m with updState := 4 })).reply 0 []
    else (s.modMgmt (fun m => { m with updState := 2, updComponent := none, updData := [] })).reply 1 []))

/-- An owner or release record that is accepted (R420); a release record carries no key (log 22). -/
def State.ownerOk (s : State) (i : ImageIn) : Bool :=
  let owned := !s.power.ownerKey.isEmpty
  let signed := Config.mlDsaVerify s.power.ownerKey [] (i.header ++ i.body) i.signature
  if i.key.isEmpty then owned && signed
  else i.key.length == 2592 && (!owned || (signed && decide (s.power.ownerSerial < i.svn)))

/-- A configuration record that is accepted (R415, R417). -/
def State.recordOk (s : State) (bytes : List Byte) : Bool :=
  !s.power.ownerKey.isEmpty && (s.recordConf bytes).isSome &&
    decide (fieldAt s.power.configRecord 12 4 ≤ fieldAt bytes 12 4)

/-- The check of a transferred image, whose parts `i` gives. -/
def State.verifyOk (s : State) (component : Nat) (i : ImageIn) : Bool :=
  i.header ++ i.body ++ i.signature == s.mgmt.updData &&
    (if component = 0x10 then s.recordOk s.mgmt.updData
     else if component = 0x11 then s.ownerOk i
     else match componentIndex component with
       | some n => imageOk (tabGet ({} : FwState) s.power.fw n).minSvn i
       | none => false)

/-- VERIFY_COMPLETE: the image lies in the inactive slot and is verified there (R412, R414, R417, R420, R425). -/
def execVerifyComplete (dt : Nat) (img : ImageIn) (s : State) : Result :=
  (s.advance dt).serve (fun s => s.update [4] (fun s =>
    let component := s.mgmt.updComponent.getD 0
    let s := s.writeSlot (if ImageIn.bytes img = s.mgmt.updData then some img else none)
    if s.verifyOk component img then
      (s.modMgmt (fun m => { m with updState := 5, updImage := some img })).reply 0 []
    else (s.modMgmt (fun m => { m with updState := 2, updComponent := none, updData := [] })).reply 1 []))

/-- The component applied: its image, in the inactive slot since it was verified, or the record waits for the next
start-up; an owner record takes effect at once (R425, R420). -/
def State.applyComponent (s : State) (component : Nat) (img : ImageIn) : State :=
  if component = 0x11 then
    (if img.key.isEmpty then { s with power := { s.power with releasePending := true } }
     else { s with power := { s.power with ownerKey := img.key, ownerSerial := img.svn } })
  else
    let n := (componentIndex component).getD 0
    { s with power := { s.power with
      fw := tabMod {} s.power.fw n (fun f => { f with pending := true })
      configRecord := if n = 6 then s.mgmt.updData else s.power.configRecord } }

/-- APPLY_COMPLETE (R425). -/
def execApplyComplete (dt : Nat) (s : State) : Result :=
  (s.advance dt).serve (fun s => s.update [5] (fun s =>
    let s := match s.mgmt.updImage with
      | some img => s.applyComponent (s.mgmt.updComponent.getD 0) img
      | none => s
    (s.modMgmt (fun m => { m with updState := 2, updComponent := none, updData := [], updImage := none })).reply 0 []))

/-- GET_STATUS. -/
def execGetStatus (dt : Nat) (s : State) : Result :=
  (s.advance dt).serve (fun s => s.reply 0 [BitVec.ofNat 8 s.mgmt.updState])

/-- CANCEL_UPDATE_COMPONENT. -/
def execCancelUpdateComponent (dt : Nat) (s : State) : Result :=
  (s.advance dt).serve (fun s => s.update [3, 4, 5] (fun s =>
    (s.modMgmt (fun m => { m with updState := 2, updComponent := none, updData := [], updImage := none })).reply 0 []))

/-- CANCEL_UPDATE. -/
def execCancelUpdate (dt : Nat) (s : State) : Result :=
  (s.advance dt).serve (fun s => s.update [1, 2, 3, 4, 5] (fun s =>
    (s.modMgmt (fun m => { m with
      updState := 0, updComponent := none, updTable := [], updData := [], updImage := none })).reply 0 []))

/-! ### ActivateFirmware (R425, R428) -/

/-- ACTIVATE_FIRMWARE: self-contained activation of component 0x0002 in service; the rest waits for the next start-up.
-/
def execActivateFirmware (dt : Nat) (selfContained : Bool) (s : State) : Result :=
  (s.advance dt).serve (fun s => s.update [2] (fun s =>
    let s := (s.modMgmt (fun m => { m with updState := 0, updTable := [] })).reply 0 []
    if selfContained && s.power.ready && (tabGet ({} : FwState) s.power.fw 1).pending && s.host.rotation.isNone then
      s.startRotation
    else s))

/-- CORE_RESTART_DONE: the core is the standby on the new image, and the rotation goes on; a core whose fault is being
recovered holds it up (R428, R385). -/
def execCoreRestartDone (dt : Nat) (core : Fin 6) (s : State) : Result :=
  let s := s.advance dt
  if s.host.restarting ≠ some core.val || s.log.recoveries.any (fun r => r.cls == 8) then s.idle
  else
    let s := { s with host := { s.host with
      restarting := none, standby := some core.val, newImage := s.host.newImage ++ [core.val] } }
    .next s.rotateOn.replayHeldBar

/-! ### OEM reads (R426, R427) -/

/-- OEM_LOG_READ. -/
def execOemLogRead (dt : Nat) (first count minSeverity : Nat) (s : State) : Result :=
  (s.advance dt).serve (fun s =>
    if count = 0 || decide (32 < count) then s.reply pldmInvalidData []
    else
      let (got, next) := s.log.pick first count minSeverity
      let lost := if s.log.written ≤ first then 0 else s.log.written - s.log.records.length - first
      let head := toBytes 8 (got.headD next) ++ toBytes 8 next ++ toBytes 4 got.length ++ toBytes 4 lost
      s.reply 0 (head ++ got.flatMap (fun n => ((s.log.find n).map (·.bytes)).getD [])))

/-- OEM_REGISTER_READ: it reads only (R427); step 3 has begun once step 2 is the last completed one. A read of what a
configuration apply that is due changes waits for it (R52). -/
def execOemRegisterRead (dt : Nat) (offset count : Nat) (s : State) : Result :=
  let s := s.advance dt
  if s.applyDue && (List.range count).any (fun i => configReg (offset + 8 * i)) then s.idle
  else s.serve (fun s =>
    if s.power.step < 2 then s.reply pldmNotReady []
    else if offset % 8 ≠ 0 || count = 0 || decide (64 < count) || decide (0x1000 < offset + 8 * count) then
      s.reply pldmInvalidData []
    else s.reply 0 ((List.range count).flatMap (fun i => toBytes 8 (s.globalWord (offset + 8 * i)))))

end Sys2Proof.Machine
end

