-- ==== Sys2Proof/Machine/Completion.lean ====
section
/-! DEFINITION. COMMAND_COMPLETION (03): the last engine of a command reports back and its result is recorded. -/

namespace Sys2Proof.Machine

/-- A finished DMA command leaves its channel, which is free for the next one from now (R69, R351). -/
def State.leaveChannel (s : State) (c : Cmd) : State :=
  if c.opcode = 0x60 then s.modChannel (c.param 0 2) (fun x => { x with cmd := none, freeAt := s.tide }) else s

/-- A ring shift whose two halves are done completes (R337). -/
def State.completeShift (s : State) (c : Cmd) : State :=
  (s.dropShift (gatP c).collId).complete c .ok 0 (bodyOf [(0, 8, (gatP c).seg)])

/-- The completion of a started command, if its engines are done with it; none where they are not (R78, R82, R259,
R337, R389, R391). It is stamped after the event that it reports (R46). -/
def State.completion (s : State) (c : Cmd) : Option State :=
  match c.work with
  | .finished st detail body =>
    if s.tide ≤ c.finishedAt then none else some (((s.leaveChannel c).complete c st detail body).endArrayPin c)
  | .waiting .fence => if s.fenceDone c && s.fencePast c then some (s.complete c .ok 0 []) else none
  | .waiting .signals => if s.signalsHold c && s.signalsPast c then some (s.endWaitSignal c) else none
  | .waiting (.tide _) => if reached s.tide c.waitTarget then some (s.complete c .ok 0 []) else none
  | .waiting .peer => if s.sendDelivered c then some (s.endSend c) else none
  | .waiting .coll => if c.opcode = 0x51 ∧ (gatP c).mode = 2 ∧ s.shiftDone c then some (s.completeShift c) else none
  | .waiting .dieDrain => if (s.onDie (c.param 0 1)).isEmpty && s.drainPast c then some (s.endDieDrain c) else none
  | .waiting .repair => some (s.endRepair c)
  | _ => none

/-- COMMAND_COMPLETION: the oldest started command of the ring with the SEQ whose engines are done completes (R73, R78);
while the ring's core is out, the report is queued (R385). -/
def execCommandCompletion (dt : Nat) (ring : Fin 17) (seq : W16) (s : State) : Result :=
  let s := s.advance dt
  if s.ringPaused ring then s.idle
  else match ((s.ring ring).cmds.filter (fun c => c.seq == seq && c.start.isSome)).findSome? s.completion with
  | none => s.idle
  | some s' => .next s'

end Sys2Proof.Machine
end

