-- ==== Sys2Proof/Machine/Idle.lean ====
section
/-! DEFINITION. Idle accounting of the stage contexts (12, R265, R266) and the idle voltage that follows it (18, R416). -/

namespace Sys2Proof.Machine

/-- What holds a command: `none` it does work, `some none` it waits without a cause, `some (some c)` cause c. -/
abbrev Held := Option (Option Nat)

/-- Cause of a wait for signals: SIGNAL_CAUSE of the lowest unset signal (R266). -/
def signalCause (s : State) (k : Nat) (mask : Nat) : Option Nat :=
  match (bitsSet mask 64).find? (fun j => !s.signal j) with
  | none => none
  | some j =>
    let c := tabGet 0xF (s.ctx k).causes j
    if c < 12 then some c else none

/-- The accesses on which a command that waits goes on, and the base die from which they are made: those of a send, of a
drain, of a part, of a staged copy, of a collective. -/
def heldRanges (s : State) (c : Cmd) : Nat × List (Nat × Nat) :=
  let k := ctxOfRing c.ring
  match c.work with
  | .waiting .credit =>
    let (kind, port, _, peer, _) := sendSide (s.ctxItem k) c.sendsBack
    let from_ := (sendSegments s c).map (fun g => (g.1, g.2.1))
    if kind = 1 then (ioBase s.pkg.suffix (port / 4), from_)
    else
      let w := if c.sendsBack then (s.ctx k).prevCredits else (s.ctx k).nextCredits
      (c.param 1 1 / 2, from_ ++ (match (bitsSet w.toNat 64).head? with
        | some e => (sendSegments s c).map (fun g => ((s.ctxItem peer).entryAddr c.sendsBack e + g.2.2, g.2.1))
        | none => []))
  | .waiting .drainOrder => ((drainP c).die / 2, s.drainRanges k (drainP c))
  | .waiting .update =>
    let p := updP c
    (p.die / 2, s.partRanges p (s.progImage ((s.resolve [0, 1] (some p.die) p.prog 64).getD 0)).nstate)
  | .waiting .coll =>
    match s.coll.ctxs.find? (fun x => x.cmd == some c.ref) with
    | some x => (ioBase s.pkg.suffix x.tile, if x.kind = 0 then s.redRanges (redP c) else if x.kind = 1 then s.gatRanges (gatP c) else [])
    | none => (0, [])
  | .running =>
    match s.dies.find? (fun e => e.2.engine.any (fun g => g.cmd == c.ref)) with
    | some e => (e.1 / 2, s.partRanges (updP c) ((e.2.engine.map (fun g => g.nstate)).getD 0))
    | none => (0, [])
  | _ => (0, [])

/-- A command is held by a single-fault recovery pause, or by a repair of its die: of its ring's core, of an array of
its gang, of its collective's tile, of its DMA complex, of the lanes that carry its send, of what it reads or writes
(R24, R222, R375, R391). -/
def heldByPause (s : State) (c : Cmd) : Bool :=
  let (base, ranges) := heldRanges s c
  ranges.any (fun r => s.rangeWaits base r.1 r.2) ||
  (match c.work with
   | .array j => j.gang.any (fun a => s.arrayPaused j.die a)
   | .running => false
   | .waiting .coll => s.coll.ctxs.any (fun x => x.cmd == some c.ref && s.recovering 9 x.tile) || s.ringPaused c.ring
   | .waiting .channel => s.recovering 7 (c.param 0 1 / 32) || s.ringPaused c.ring
   | .waiting .peer =>
     let (kind, port, _, _, _) := sendSide (s.ctxItem (ctxOfRing c.ring)) c.sendsBack
     (kind == 1 && s.log.recoveries.any (fun r => r.cls == 1 && r.unit / 256 == port)) || s.ringPaused c.ring
   | _ => s.ringPaused c.ring)

/-- An array command is held by the staging of its spills: the wave that an accumulator would take next goes into a row
that waits to be copied, or nothing is left but spills that wait for the staging buffer (R159, R266). -/
def heldBySpill (s : State) (c : Cmd) (j : ArrayJob) : Bool :=
  decide (j.mode < 2) && j.outs.any (fun a =>
    let x := s.array j.die a
    match x.flight.find? (fun f => f.cmd == c.ref) with
    | some f => x.flight.head? == some f && x.rowPending (j.slot + f.vec / 64) (f.vec % 64)
    | none => x.spillQ.any (fun q => q.cmd == c.ref) && j.accPos.all (fun n => n == j.passes * j.m))

/-- The engine of a running part waits for its state's reads or writes (R276). -/
def State.engineLate (s : State) (c : Cmd) : Bool :=
  s.dies.any (fun e => e.2.engine.any (fun g => g.cmd == c.ref && g.late))

/-- A started array command on a die whose broadcasts the power controller has paused (R404, R405). -/
def heldByPower (s : State) (c : Cmd) : Bool :=
  match c.work with
  | .array j => s.diePaused j.die
  | _ => false

/-- The oldest of several commands, by the order in which they were fetched (R81). -/
def oldestCmd : List Cmd → Option Cmd
  | [] => none
  | d :: ds => some (ds.foldl (fun m e => if fetchedBefore e m then e else m) d)

/-- What holds a command of a context, by the cause table (R266); `fuel` bounds the chain of commands that wait for
others. -/
def heldBy (s : State) (k : Nat) : Nat → Cmd → Held
  | 0, _ => some none
  | fuel + 1, c =>
    let ofOldest (ds : List Cmd) : Held :=
      match oldestCmd ds with
      | none => some none
      | some d => (match heldBy s k fuel d with
        | none => some none
        | h => h)
    let (base, ranges) := heldRanges s c
    if heldByPause s c then some (some 0xA)
    else if heldByPower s c then some (some 9)
    else if ranges.any (fun r => s.rangeCut base r.1 r.2) then some none
    else match c.work with
    | .array j => if j.feedLate || heldBySpill s c j then some (some 6) else none
    | .running => if s.engineLate c then some (some 6) else none
    | .waiting .fence => ofOldest (s.allCmds.filter (fun d => fenceNames c d.ring && fetchedBefore d c))
    | .waiting .signals => some (signalCause s k (c.param 0 8))
    | .waiting (.tide _) => some none
    | .waiting .admission =>
      if c.param 1 1 = 1 then some (some 1)
      else (match s.admitAnswer c with
        | .lacks n => some (some n)
        | _ => some none)
    | .waiting .pins => some (some 3)
    | .waiting .holds => some (some 3)
    | .waiting .credit => some (some 7)
    | .waiting .owners => some (some 5)
    | .waiting .coll => some (some 4)
    | .waiting .update => (updateCause s c).map some
    | .waiting .prefetchClose => some (some 0xB)
    | .waiting .release =>
      let x := s.mb k (c.param 0 1)
      if s.mbSpec x || x.bwdSpec.isSome then some (some 0xB) else none
    | .unstarted =>
      let earlier := (s.ring c.ring).cmds.takeWhile (fun d => d.fetchOrder != c.fetchOrder)
      if (bitsSet c.waitMask.toNat 64).any (fun j => !s.signal j) then some (signalCause s k c.waitMask.toNat)
      else if c.afterPrior && !earlier.isEmpty then ofOldest earlier
      else some none
    | _ => none

/-- Rules 1 to 4 of R266 for an idle sample. DESIGN CHOICE (log 74): rule 1 names commands held by a die drain, while a
command that names a DRAINING die completes with FAULTED once it starts (R389); taken as held are the commands that have
not started and name a DRAINING die. -/
def idleCause (s : State) (k : Nat) : Option Nat :=
  let cmds := (s.ring (k + 1)).cmds
  let names (c : Cmd) (p : Nat → Bool) : Bool := match c.namesDie with
    | some d => p d
    | none => false
  if cmds.any (heldByPause s) then some 0xA
  else if cmds.any (fun c => c.start.isNone && names c (fun d => (s.die d).service == 1)) then some 0xA
  else if cmds.any (fun c => c.start.isSome && c.live && names c (fun d =>
      (s.ctxItem k).dieMask.toNat.testBit d && s.diePaused d)) then some 9
  else match cmds.filter (fun c => c.start.isNone || (heldBy s k 20 c).isSome) with
    | c :: _ => (heldBy s k 20 c).join
    | [] => if cmds.isEmpty then some 8 else none

/-- Busy: a started command does work (R265). -/
def ctxBusy (s : State) (k : Nat) : Bool :=
  (s.ring (k + 1)).started.any (fun c => c.live && (heldBy s k 20 c).isNone)

/-- Whether the engines of a context's running parts wait for their state at a sample: a free value, the far tier's rate
being none of the model's (R276, log 3). -/
def State.sampleEngines (s : State) (k : Nat) : State :=
  s.dies.foldl (fun st e => match e.2.engine with
    | some g =>
      if g.cmd.ring = k + 1 then
        (let (v, st) := st.draw
         st.setEngine e.1 (some { g with late := v.toNat % 2 == 1 }))
      else st
    | none => st) s

def sampleCtx (s : State) (k : Nat) : State :=
  let s := s.sampleEngines k
  if ctxBusy s k then s.modCtx k (fun x => { x with lastSample := s.tide })
  else
    let cause := idleCause s k
    s.modCtx k (fun x => { x with
      lastSample := s.tide
      idleTotal := x.idleTotal + 16
      idle := match cause with
        | some c => if c < 12 then tabMod 0 x.idle c (fun n => n + 16) else x.idle
        | none => x.idle })

/-- IDLE_SAMPLE (R265): one sample of each stage context, at most every 16 ticks. -/
def execIdleSample (dt : Nat) (s : State) : Result :=
  let s := s.advance dt
  if !s.power.ready then s.idle
  else .next (((List.range 16).filter (fun k => decide ((s.ctx k).lastSample + 16 ≤ s.tide))).foldl sampleCtx s)

/-! ### The idle voltage (R416) -/

/-- Every stage context bound to a die is idle (R265, R416). -/
def State.dieIdle (s : State) (n : Nat) : Bool := (List.range 16).all (fun k => !s.dieBound k n || !ctxBusy s k)

/-- IDLE_VOLTAGE_TIMER: IDLE_AFTER_US of idleness lower the core voltage to IDLE_MV; new work brings it back, at the next
broadcast or at the first such event that finds the die at work (R416, log 53). The timer starts at the first such event
that finds the die idle. -/
def execIdleVoltageTimer (dt : Nat) (die : Fin 12) (s : State) : Result :=
  let s := s.advance dt
  if !s.power.ready || s.conf.idleAfterUs = 0 then s.idle
  else if !s.dieIdle die then
    .next (s.modDie die (fun d => { d with idleSince := none, coreMv := d.idleFrom.getD d.coreMv, idleFrom := none }))
  else match (s.die die).idleSince with
    | none => .next (s.modDie die (fun d => { d with idleSince := some s.tide }))
    | some t =>
      if s.tide < t + 1000 * s.conf.idleAfterUs then s.idle
      else .next (s.modDie die (fun d => { d with
        coreMv := min d.coreMv s.conf.idleMv, idleFrom := some (d.idleFrom.getD d.coreMv) }))

end Sys2Proof.Machine
end

