-- ==== Sys2Proof/Machine/Dispatch.lean ====
section
/-! DEFINITION. One arm per command: a direct call of its meaning. -/

namespace Sys2Proof.Machine

def exec (i : Instr) (s : State) : Host.Outcome State Fault Refusal :=
  match i with
  | .startUp dt inp => Sys2Proof.Machine.execStartUp dt inp s
  | .alignmentWaitTimeout dt => Sys2Proof.Machine.execAlignmentWaitTimeout dt s
  | .modResetAssert level => Sys2Proof.Machine.execModResetAssert level s
  | .pwrEnFall level => Sys2Proof.Machine.execPwrEnFall level s
  | .inputFault dt mv us => Sys2Proof.Machine.execInputFault dt mv us s
  | .perstAssert dt => Sys2Proof.Machine.execPerstAssert dt s
  | .perstRelease dt => Sys2Proof.Machine.execPerstRelease dt s
  | .functionLevelReset dt => Sys2Proof.Machine.execFunctionLevelReset dt s
  | .refclkLoss dt => Sys2Proof.Machine.execRefclkLoss dt s
  | .refclkReturn dt => Sys2Proof.Machine.execRefclkReturn dt s
  | .tideSyncInEdge dt tenths => Sys2Proof.Machine.execTideSyncInEdge dt tenths s
  | .syncOutPulse dt => Sys2Proof.Machine.execSyncOutPulse dt s
  | .timeFrameSend dt port => Sys2Proof.Machine.execTimeFrameSend dt port s
  | .timeFrameReceive dt port hdr f => Sys2Proof.Machine.execTimeFrameReceive dt port hdr f s
  | .temperatureThreshold dt die celsius => Sys2Proof.Machine.execTemperatureThreshold dt die celsius s
  | .powerBudgetExchange dt mv power request => Sys2Proof.Machine.execPowerBudgetExchange dt mv power request s
  | .idleVoltageTimer dt die => Sys2Proof.Machine.execIdleVoltageTimer dt die s
  | .barAccess dt write offset size value => Sys2Proof.Machine.execBarAccess dt write offset size value s
  | .registerWrite dt offset size value => Sys2Proof.Machine.execRegisterWrite dt offset size value s
  | .tideNowRead dt wide => Sys2Proof.Machine.execTideNowRead dt wide s
  | .lastCommitTideRead dt wide => Sys2Proof.Machine.execLastCommitTideRead dt wide s
  | .idleSnapTideRead dt ctx wide => Sys2Proof.Machine.execIdleSnapTideRead dt ctx wide s
  | .slotRead dt ring slot wide => Sys2Proof.Machine.execSlotRead dt ring slot wide s
  | .ringDoorbell dt ring tail => Sys2Proof.Machine.execRingDoorbell dt ring tail s
  | .ringEnable dt ring value => Sys2Proof.Machine.execRingEnable dt ring value s
  | .ringReset dt ring value => Sys2Proof.Machine.execRingReset dt ring value s
  | .layerDefine dt layer value => Sys2Proof.Machine.execLayerDefine dt layer value s
  | .layerUndefine dt layer value => Sys2Proof.Machine.execLayerUndefine dt layer value s
  | .skimRdWrite dt value => Sys2Proof.Machine.execSkimRdWrite dt value s
  | .channelStop dt channel => Sys2Proof.Machine.execChannelStop dt channel s
  | .logSelectWrite dt value => Sys2Proof.Machine.execLogSelectWrite dt value s
  | .fatalClear dt value => Sys2Proof.Machine.execFatalClear dt value s
  | .mismatchClear dt unit => Sys2Proof.Machine.execMismatchClear dt unit s
  | .msixUnmask dt target => Sys2Proof.Machine.execMsixUnmask dt target s
  | .packetFetch dt ring host => Sys2Proof.Machine.execPacketFetch dt ring host s
  | .waitTimeoutExpiry dt ring => Sys2Proof.Machine.execWaitTimeoutExpiry dt ring s
  | .commandCompletion dt ring seq => Sys2Proof.Machine.execCommandCompletion dt ring seq s
  | .coalesceTimeout dt ring => Sys2Proof.Machine.execCoalesceTimeout dt ring s
  | .nop dt ring => Sys2Proof.Machine.execNop dt ring s
  | .fence dt ring => Sys2Proof.Machine.execFence dt ring s
  | .waitTide dt ring => Sys2Proof.Machine.execWaitTide dt ring s
  | .waitTideTarget dt ring => Sys2Proof.Machine.execWaitTideTarget dt ring s
  | .signal dt ring => Sys2Proof.Machine.execSignal dt ring s
  | .waitSignal dt ring => Sys2Proof.Machine.execWaitSignal dt ring s
  | .tileMm dt ring => Sys2Proof.Machine.execTileMm dt ring s
  | .tileConv dt ring => Sys2Proof.Machine.execTileConv dt ring s
  | .tileDgrad dt ring => Sys2Proof.Machine.execTileDgrad dt ring s
  | .tileWgrad dt ring => Sys2Proof.Machine.execTileWgrad dt ring s
  | .drain dt ring seq => Sys2Proof.Machine.execDrain dt ring seq s
  | .spillFlush dt ring seq => Sys2Proof.Machine.execSpillFlush dt ring seq s
  | .mbAdmit dt ring => Sys2Proof.Machine.execMbAdmit dt ring s
  | .admissionGrant dt ctx => Sys2Proof.Machine.execAdmissionGrant dt ctx s
  | .admitTimeout dt ctx => Sys2Proof.Machine.execAdmitTimeout dt ctx s
  | .sendAct dt ring => Sys2Proof.Machine.execSendAct dt ring s
  | .sendGrad dt ring => Sys2Proof.Machine.execSendGrad dt ring s
  | .sendCreditTake dt ring seq => Sys2Proof.Machine.execSendCreditTake dt ring seq s
  | .sendTimeout dt ring seq => Sys2Proof.Machine.execSendTimeout dt ring seq s
  | .mbRelease dt ring => Sys2Proof.Machine.execMbRelease dt ring s
  | .releaseEffect dt ctx mb => Sys2Proof.Machine.execReleaseEffect dt ctx mb s
  | .reservationRelease dt ctx mb => Sys2Proof.Machine.execReservationRelease dt ctx mb s
  | .versionPin dt ring => Sys2Proof.Machine.execVersionPin dt ring s
  | .pinGrant dt ring seq => Sys2Proof.Machine.execPinGrant dt ring seq s
  | .pinTimeout dt ring seq => Sys2Proof.Machine.execPinTimeout dt ring seq s
  | .versionUnpin dt ring => Sys2Proof.Machine.execVersionUnpin dt ring s
  | .graceExpiry dt layer slot => Sys2Proof.Machine.execGraceExpiry dt layer slot s
  | .holdTimeout dt ring seq => Sys2Proof.Machine.execHoldTimeout dt ring seq s
  | .holdRenewal dt layer slot => Sys2Proof.Machine.execHoldRenewal dt layer slot s
  | .shardGather dt ring => Sys2Proof.Machine.execShardGather dt ring s
  | .prefetchState dt ring seq => Sys2Proof.Machine.execPrefetchState dt ring seq s
  | .prefetchTimeout dt ring seq => Sys2Proof.Machine.execPrefetchTimeout dt ring seq s
  | .updateLayer dt ring => Sys2Proof.Machine.execUpdateLayer dt ring s
  | .updatePartRun dt ring seq => Sys2Proof.Machine.execUpdatePartRun dt ring seq s
  | .updateTimeout dt ring seq => Sys2Proof.Machine.execUpdateTimeout dt ring seq s
  | .fma dt die => Sys2Proof.Machine.execFma dt die s
  | .mul dt die => Sys2Proof.Machine.execMul dt die s
  | .add dt die => Sys2Proof.Machine.execAdd dt die s
  | .sub dt die => Sys2Proof.Machine.execSub dt die s
  | .rcp dt die => Sys2Proof.Machine.execRcp dt die s
  | .sqrt dt die => Sys2Proof.Machine.execSqrt dt die s
  | .rsqrt dt die => Sys2Proof.Machine.execRsqrt dt die s
  | .min dt die => Sys2Proof.Machine.execMin dt die s
  | .max dt die => Sys2Proof.Machine.execMax dt die s
  | .clamp dt die => Sys2Proof.Machine.execClamp dt die s
  | .sel dt die => Sys2Proof.Machine.execSel dt die s
  | .nacc dt die => Sys2Proof.Machine.execNacc dt die s
  | .sts dt die => Sys2Proof.Machine.execSts dt die s
  | .stw dt die => Sys2Proof.Machine.execStw dt die s
  | .nextpass dt die => Sys2Proof.Machine.execNextpass dt die s
  | .endElem dt die => Sys2Proof.Machine.execEndElem dt die s
  | .stepVerdict dt => Sys2Proof.Machine.execStepVerdict dt s
  | .verdictTimeout dt => Sys2Proof.Machine.execVerdictTimeout dt s
  | .stepCommit dt => Sys2Proof.Machine.execStepCommit dt s
  | .stepAbort dt => Sys2Proof.Machine.execStepAbort dt s
  | .lossScaleSet dt => Sys2Proof.Machine.execLossScaleSet dt s
  | .skimRecordEmit dt => Sys2Proof.Machine.execSkimRecordEmit dt s
  | .collReduce dt ring => Sys2Proof.Machine.execCollReduce dt ring s
  | .collGather dt ring => Sys2Proof.Machine.execCollGather dt ring s
  | .collPermute dt => Sys2Proof.Machine.execCollPermute dt s
  | .permuteWorkSend dt seg => Sys2Proof.Machine.execPermuteWorkSend dt seg s
  | .permuteTimeout dt => Sys2Proof.Machine.execPermuteTimeout dt s
  | .collBarrier dt ring => Sys2Proof.Machine.execCollBarrier dt ring s
  | .contextLeaseExpiry dt tile collId => Sys2Proof.Machine.execContextLeaseExpiry dt tile collId s
  | .dmaStart dt ring host => Sys2Proof.Machine.execDmaStart dt ring host s
  | .channelLeaseExpiry dt channel => Sys2Proof.Machine.execChannelLeaseExpiry dt channel s
  | .move dt channel host => Sys2Proof.Machine.execMove dt channel host s
  | .loop dt channel => Sys2Proof.Machine.execLoop dt channel s
  | .wait dt channel => Sys2Proof.Machine.execWait dt channel s
  | .dmaSignal dt channel => Sys2Proof.Machine.execDmaSignal dt channel s
  | .check dt channel => Sys2Proof.Machine.execCheck dt channel s
  | .dmaEnd dt channel => Sys2Proof.Machine.execDmaEnd dt channel s
  | .busError dt complex addr => Sys2Proof.Machine.execBusError dt complex addr s
  | .checkArm dt ring => Sys2Proof.Machine.execCheckArm dt ring s
  | .checkArmTimeout dt unit => Sys2Proof.Machine.execCheckArmTimeout dt unit s
  | .replicaSweep dt => Sys2Proof.Machine.execReplicaSweep dt s
  | .sweepTimeout dt => Sys2Proof.Machine.execSweepTimeout dt s
  | .configStage dt host => Sys2Proof.Machine.execConfigStage dt host s
  | .configCommit a => Sys2Proof.Machine.execConfigCommit a s
  | .configApply dt faultAt => Sys2Proof.Machine.execConfigApply dt faultAt s
  | .configCommitTimeout dt => Sys2Proof.Machine.execConfigCommitTimeout dt s
  | .dieDrain dt => Sys2Proof.Machine.execDieDrain dt s
  | .drainTimeout dt die => Sys2Proof.Machine.execDrainTimeout dt die s
  | .dieRepair dt inp => Sys2Proof.Machine.execDieRepair dt inp s
  | .dieReturn dt => Sys2Proof.Machine.execDieReturn dt s
  | .skimStart dt => Sys2Proof.Machine.execSkimStart dt s
  | .skimStop dt => Sys2Proof.Machine.execSkimStop dt s
  | .takeoverLoad dt => Sys2Proof.Machine.execTakeoverLoad dt s
  | .query dt ring => Sys2Proof.Machine.execQuery dt ring s
  | .logRead dt ring => Sys2Proof.Machine.execLogRead dt ring s
  | .release dt ring => Sys2Proof.Machine.execRelease dt ring s
  | .broadcast dt die f => Sys2Proof.Machine.execBroadcast dt die f s
  | .waveHop dt die array row cell => Sys2Proof.Machine.execWaveHop dt die array row cell s
  | .edgeWordWrite dt die f => Sys2Proof.Machine.execEdgeWordWrite dt die f s
  | .waveAccumulate dt die array => Sys2Proof.Machine.execWaveAccumulate dt die array s
  | .spillWriteback dt die array => Sys2Proof.Machine.execSpillWriteback dt die array s
  | .patrolScrub dt addr bad passDone => Sys2Proof.Machine.execPatrolScrub dt addr bad passDone s
  | .nearBankFault dt die channel bank second => Sys2Proof.Machine.execNearBankFault dt die channel bank second s
  | .bankCopyDone dt die channel => Sys2Proof.Machine.execBankCopyDone dt die channel s
  | .farParityFailure dt stack t => Sys2Proof.Machine.execFarParityFailure dt stack t s
  | .farChannelFault dt stack channel failingCa failingD0 failingD1 => Sys2Proof.Machine.execFarChannelFault dt stack channel failingCa failingD0 failingD1 s
  | .cellRowFault dt die array row => Sys2Proof.Machine.execCellRowFault dt die array row s
  | .arrayFault dt die array => Sys2Proof.Machine.execArrayFault dt die array s
  | .laneFault dt port lane => Sys2Proof.Machine.execLaneFault dt port lane s
  | .seamSublinkFault dt seam sub => Sys2Proof.Machine.execSeamSublinkFault dt seam sub s
  | .dmaComplexFault dt complex => Sys2Proof.Machine.execDmaComplexFault dt complex s
  | .coreFault dt core => Sys2Proof.Machine.execCoreFault dt core s
  | .switchTileFault dt tile selfTestOk => Sys2Proof.Machine.execSwitchTileFault dt tile selfTestOk s
  | .recoveryDone dt cls r => Sys2Proof.Machine.execRecoveryDone dt cls r s
  | .holdLeaseExpiry dt layer slot holder => Sys2Proof.Machine.execHoldLeaseExpiry dt layer slot holder s
  | .bankLeaseExpiry dt die => Sys2Proof.Machine.execBankLeaseExpiry dt die s
  | .idleSample dt => Sys2Proof.Machine.execIdleSample dt s
  | .portDetect dt port present => Sys2Proof.Machine.execPortDetect dt port present s
  | .trainingBlockReceive dt link fields crc => Sys2Proof.Machine.execTrainingBlockReceive dt link fields crc s
  | .widthAttemptTimeout dt link => Sys2Proof.Machine.execWidthAttemptTimeout dt link s
  | .roleWaitRetry dt port => Sys2Proof.Machine.execRoleWaitRetry dt port s
  | .codewordReceive dt link cw => Sys2Proof.Machine.execCodewordReceive dt link cw s
  | .dataFrame dt port hdr f => Sys2Proof.Machine.execDataFrame dt port hdr f s
  | .creditFrame dt port hdr f => Sys2Proof.Machine.execCreditFrame dt port hdr f s
  | .reduceFrame dt port hdr f => Sys2Proof.Machine.execReduceFrame dt port hdr f s
  | .gatherFrame dt port hdr f => Sys2Proof.Machine.execGatherFrame dt port hdr f s
  | .permuteFrame dt port hdr f => Sys2Proof.Machine.execPermuteFrame dt port hdr f s
  | .verdictFrame dt port hdr f => Sys2Proof.Machine.execVerdictFrame dt port hdr f s
  | .shardFrame dt port hdr f => Sys2Proof.Machine.execShardFrame dt port hdr f s
  | .barrierFrame dt port hdr f => Sys2Proof.Machine.execBarrierFrame dt port hdr f s
  | .checkpointFrame dt port hdr f => Sys2Proof.Machine.execCheckpointFrame dt port hdr f s
  | .seqFrame dt port hdr f => Sys2Proof.Machine.execSeqFrame dt port hdr f s
  | .setdasa dt static dynamic => Sys2Proof.Machine.execSetdasa dt static dynamic s
  | .entdaa dt dynamic => Sys2Proof.Machine.execEntdaa dt dynamic s
  | .setEndpointId dt eid => Sys2Proof.Machine.execSetEndpointId dt eid s
  | .getVersion dt => Sys2Proof.Machine.execGetVersion dt s
  | .getCapabilities dt => Sys2Proof.Machine.execGetCapabilities dt s
  | .negotiateAlgorithms dt hashOffered asymOffered => Sys2Proof.Machine.execNegotiateAlgorithms dt hashOffered asymOffered s
  | .getDigests dt => Sys2Proof.Machine.execGetDigests dt s
  | .getCertificate dt slot offset length => Sys2Proof.Machine.execGetCertificate dt slot offset length s
  | .challenge dt slot nonce => Sys2Proof.Machine.execChallenge dt slot nonce s
  | .getMeasurements dt slot index sign nonce => Sys2Proof.Machine.execGetMeasurements dt slot index sign nonce s
  | .spdmOtherRequest dt code => Sys2Proof.Machine.execSpdmOtherRequest dt code s
  | .getSensorReading dt sensor => Sys2Proof.Machine.execGetSensorReading dt sensor s
  | .queryDeviceIdentifiers dt => Sys2Proof.Machine.execQueryDeviceIdentifiers dt s
  | .getFirmwareParameters dt => Sys2Proof.Machine.execGetFirmwareParameters dt s
  | .requestUpdate dt maxTransfer => Sys2Proof.Machine.execRequestUpdate dt maxTransfer s
  | .passComponentTable dt component => Sys2Proof.Machine.execPassComponentTable dt component s
  | .updateComponent dt component size => Sys2Proof.Machine.execUpdateComponent dt component size s
  | .requestFirmwareData dt offset data => Sys2Proof.Machine.execRequestFirmwareData dt offset data s
  | .transferComplete dt ok => Sys2Proof.Machine.execTransferComplete dt ok s
  | .verifyComplete dt img => Sys2Proof.Machine.execVerifyComplete dt img s
  | .applyComplete dt => Sys2Proof.Machine.execApplyComplete dt s
  | .activateFirmware dt selfContained => Sys2Proof.Machine.execActivateFirmware dt selfContained s
  | .coreRestartDone dt core => Sys2Proof.Machine.execCoreRestartDone dt core s
  | .getStatus dt => Sys2Proof.Machine.execGetStatus dt s
  | .cancelUpdateComponent dt => Sys2Proof.Machine.execCancelUpdateComponent dt s
  | .cancelUpdate dt => Sys2Proof.Machine.execCancelUpdate dt s
  | .oemLogRead dt first count minSeverity => Sys2Proof.Machine.execOemLogRead dt first count minSeverity s
  | .oemRegisterRead dt offset count => Sys2Proof.Machine.execOemRegisterRead dt offset count s
  | .inputBelow30v dt => Sys2Proof.Machine.execInputBelow30v dt s
  | .setEventReceiver dt eid => Sys2Proof.Machine.execSetEventReceiver dt eid s
  | .calibrationDone dt link margins => Sys2Proof.Machine.execCalibrationDone dt link margins s
  | .symbolLock dt link => Sys2Proof.Machine.execSymbolLock dt link s

end Sys2Proof.Machine
end

