-- ==== Sys2Proof/Machine/Step.lean ====
section
/-! DEFINITION. One step takes the command at the front of the queue and answers its outcome over the queue's rest; on
an empty queue the block idles (DESIGN CHOICE, log 1, safe). -/

namespace Sys2Proof.Machine

def step (s : State) : Host.Outcome State Fault Refusal :=
  match s.pending with
  | [] => .next s
  | i :: rest => exec i { s with pending := rest }

/-- The state with the command that a word spells at the front of its queue. The table gives no row any bits, so no
word spells a command and the state stays as it is. -/
def State.withFetchWord (s : State) (nbits w : Nat) : State :=
  match Sys2Proof.decodeTableWord nbits w with
  | none => s
  | some i => { s with pending := i :: s.pending }

end Sys2Proof.Machine
end

