-- ==== Sys2Proof/Safety.lean ====
section
/-! DEFINITION. What a sound state and a safe run are, in the terms that the statements use. -/

namespace Sys2Proof.Machine

/-- Numbers strictly rising. -/
def rising : List Nat → Bool
  | [] => true
  | [_] => true
  | a :: b :: t => decide (a < b) && rising (b :: t)

/-- The invariant of the state: memory in its canonical form, poison marks strictly rising. Every state that a run
reaches has it. -/
def State.Inv (s : State) : Prop := Memory.wf s.mem = true ∧ rising s.poison = true

/-- The step answers a next state: no fault, no refusal. -/
def SafeStep (s : State) : Prop := ∃ t, step s = .next t

/-- After `dt` ticks, the front command of a ring is one of this opcode, and it may start (R43, R69): `c` is the command
as started, `t` the state that has started it. -/
def Starts (s : State) (dt r op : Nat) (c : Cmd) (t : State) : Prop := (s.advance dt).take r op = some (c, t)

/-- A command of a ring that has started and waits for `w`, named by its SEQ. -/
def WaitsFor (s : State) (dt r : Nat) (seq : W16) (w : WaitFor) (c : Cmd) : Prop :=
  (s.advance dt).findWait r seq w = some c

/-- Everything but the secure flash and the pins is at its reset value (R409). -/
def LostAll (s t : State) : Prop :=
  t = { State.reset with pending := s.pending, fresh := s.fresh, power := t.power } ∧
    t.power.phase = .off ∧ t.power.step = 0 ∧ t.power.ready = false ∧ t.power.diesPowered = false ∧
    t.power.configRecord = s.power.configRecord ∧ t.power.ownerKey = s.power.ownerKey ∧
    t.power.fw.map (·.1) = s.power.fw.map (·.1)

/-- Two states that differ at most in the host port and in host memory. -/
def SameButHost (s t : State) : Prop := t = { s with host := t.host, mem := t.mem }

/-- The memory of two states agrees outside the `n` bytes at `a`. -/
def SameBut (s t : State) (a n : Nat) : Prop := ∀ x, x < a ∨ a + n ≤ x → memRead t.mem x = memRead s.mem x

end Sys2Proof.Machine
end

