-- ==== Sys2Proof/Certificates/Slice0/Obligations.lean ====
section
/-! DEFINITION. The statements for the provers (OBLIGATIONS.json), in the order of the chapters they rest on. -/

open Sys2Proof Sys2Proof.Machine

/-! ### The machine -/

/-- A step runs the command at the front of the queue over the queue's rest. On an empty queue the block idles (the
model's choice, log 1). -/
def Obligations.StepRunsTheFrontCommand : Prop :=
  (∀ (c : Instr) (rest : List Instr) (s : State), s.pending = c :: rest → step s = exec c { s with pending := rest }) ∧
  (∀ s : State, s.pending = [] → step s = .next s)

/-- Every command answers a next state in every state, and takes nothing but itself from the queue: nothing ends a run
(no stop is the model's reading of a row whose trigger does not hold, log 9). -/
def Obligations.EveryCommandGoesOn : Prop := ∀ (c : Instr) (s : State), ∃ t, exec c s = .next t ∧ t.pending = s.pending

/-- Every step keeps the invariant: memory in canonical form, poison marks strictly rising. -/
def Obligations.EveryStepKeepsInv : Prop := ∀ s t : State, s.Inv → step s = .next t → t.Inv

/-- The invariant holds at reset, and what reset leaves, by the reset columns of the register chapters: the module is
off, the queue is empty, every ring is disabled and empty, no signal is set, and the commit state, the loss scale and
the log are at their reset values. -/
def Obligations.ResetValues : Prop :=
  State.reset.Inv ∧ State.reset.pending = [] ∧ State.reset.power.phase = .off ∧ State.reset.power.ready = false ∧
    (∀ r, (State.reset.ring r).enable = false ∧ (State.reset.ring r).tail = 0 ∧ (State.reset.ring r).head = 0 ∧
      (State.reset.ring r).cmds = [] ∧ (State.reset.ring r).vector = r) ∧
    State.reset.host.signals = 0 ∧ State.reset.host.slots = [] ∧
    State.reset.commit.stepNumber = 0 ∧ State.reset.commit.configEpoch = 1 ∧ State.reset.commit.layoutEpoch = 0 ∧
    State.reset.step.exp = 16 ∧ State.reset.step.interval = 2000 ∧ State.reset.step.clean = 0 ∧
    State.reset.log.written = 0 ∧ State.reset.log.intSeverity = 2 ∧ State.reset.log.fatal = false ∧
    (∀ l, (State.reset.layer l).defined = false) ∧
    (∀ p, (State.reset.port p).train.state = .off) ∧ (∀ n, (State.reset.die n).rateMin = 0xFFFF)

/-! ### Time -/

/-- Passing time never takes Tidemark backward, and the correction is at most one tick in every 10,000; nothing but the
time base changes. -/
def Obligations.TimeOnlyAdvances : Prop :=
  ∀ (s : State) (dt : Nat),
    s.tide ≤ (s.advance dt).tide ∧
    (s.advance dt).tide ≤ s.tide + dt + (s.time.slewPhase + dt) / 10000 ∧
    s.tide + dt ≤ (s.advance dt).tide + (s.time.slewPhase + dt) / 10000 ∧
    (s.time.slew = 0 → (s.advance dt).tide = s.tide + dt) ∧
    (s.advance dt).time.slew.natAbs ≤ s.time.slew.natAbs ∧
    s.advance dt = { s with tide := (s.advance dt).tide, time := (s.advance dt).time }

/-! ### Memory and poison -/

/-- What the module writes outside failed far-tier channels reads back, in a state that keeps the invariant; every other
address keeps its byte, and the invariant stays. A failed far-tier channel discards writes and reads as poisoned. A
write that covers a whole unit cleans it, one that covers a unit in part leaves its poison. Bytes that are copied carry
their poison: every unit of the destination into which a byte of a poisoned unit is copied is poisoned afterwards, and
no unit beyond these becomes poisoned. -/
def Obligations.MemoryReadsBack : Prop :=
  ∀ (s : State) (a : Nat) (bs : List Byte),
    (s.Inv → (∀ i, i < bs.length → s.farFailed (a + i) = false) → (s.write a bs).read a bs.length = bs) ∧
    (s.Inv → (s.write a bs).Inv) ∧ SameBut s (s.write a bs) a bs.length ∧
    s.write a bs = { s with mem := (s.write a bs).mem, poison := (s.write a bs).poison } ∧
    ((∀ i, i < bs.length → s.farFailed (a + i) = true) → bs ≠ [] →
      (s.write a bs).mem = s.mem ∧ s.unitPoisoned a = true) ∧
    (∀ u : Nat, (u ∈ wholeUnitsOf a bs.length → u ∉ (s.write a bs).poison) ∧
      (u ∉ wholeUnitsOf a bs.length → (u ∈ (s.write a bs).poison ↔ u ∈ s.poison)) ∧
      (∀ us, u ∈ (s.markPoison us).poison ↔ u ∈ us ∨ u ∈ s.poison)) ∧
    (∀ src dst n i : Nat, i < n → (∀ j, j < n → poisonUnit (dst + j) = poisonUnit dst) →
      s.unitPoisoned ((src + i) / poisonUnit src * poisonUnit src) = true →
      (dst + i) / poisonUnit dst * poisonUnit dst ∈ s.movedPoison src dst n) ∧
    (∀ src dst n u : Nat, u ∈ s.movedPoison src dst n → (∀ j, j < n → poisonUnit (dst + j) = poisonUnit dst) →
      ∃ i, i < n ∧ u = (dst + i) / poisonUnit dst * poisonUnit dst ∧
        s.unitPoisoned ((src + i) / poisonUnit src * poisonUnit src) = true) ∧
    (∀ src dst n u : Nat, u ∈ (s.copy src dst n).poison ↔
      u ∈ s.movedPoison src dst n ∨ (u ∈ s.poison ∧ u ∉ wholeUnitsOf dst n))

/-! ### The life of a command -/

/-- A command that starts: it was the front command of its ring, with its opcode, its launch Tidemark, its signals and
the resources that it names there, and no command of a lower source was to take its signals; its start Tidemark is the
present one; and starting changes nothing but the host port's books and the count of late launches. -/
def Obligations.StartingTakesTheFront : Prop :=
  ∀ (s t : State) (dt r op : Nat) (c : Cmd), Starts s dt r op c t →
    ∃ d, ((s.advance dt).ring r).front = some d ∧ d.opcode = op ∧ (s.advance dt).mayStart d = true ∧
      (s.advance dt).yields d = false ∧ (s.advance dt).power.ready = true ∧ d.launch ≤ (s.advance dt).tide ∧
      ((s.advance dt).resourcesOf d).isSome = true ∧
      (∀ j, j < 64 → d.waitMask.toNat.testBit j = true → (s.advance dt).signal j = true) ∧
      c = { d with start := some (s.advance dt).tide, startOrder := (s.advance dt).host.nextStart, late := c.late } ∧
      t = { s.advance dt with host := t.host, time := { (s.advance dt).time with lateLaunches := t.time.lateLaunches } }

/-- A completion that leaves a trace: RING_DONE counts it at the present Tidemark, the named slot that is still pending
takes its result, one that a RELEASE marked while it was pending is freed instead, every other slot stays, and the
command has left its ring. -/
def Obligations.CompletionLeavesItsResult : Prop :=
  ∀ (s : State) (c : Cmd) (st : Status) (detail : Nat) (body : List Byte), c.silent = false →
    ((s.complete c st detail body).ring c.ring).completed = (s.ring c.ring).completed + 1 ∧
    ((s.complete c st detail body).ring c.ring).lastTide = s.tide ∧
    (∀ d ∈ ((s.complete c st detail body).ring c.ring).cmds, d.fetchOrder ≠ c.fetchOrder) ∧
    (∀ k x, c.slot = some k → s.slot c.ring k = some x → x.marked = false →
      (s.complete c st detail body).slot c.ring k = some { x with
        ready := true, late := c.late, status := st, startTide := c.start.getD 0, doneTide := s.tide,
        configEpoch := s.commit.configEpoch, stepNumber := s.commit.stepNumber, detail := detail,
        body := padTo 64 body, readyAt := (s.ring c.ring).everFetched }) ∧
    (∀ k x, c.slot = some k → s.slot c.ring k = some x → x.marked = true →
      (s.complete c st detail body).slot c.ring k = none) ∧
    (∀ r k, c.slot = none ∨ slotKey r k ≠ slotKey c.ring (c.slot.getD 0) →
      (s.complete c st detail body).slot r k = s.slot r k)

/-- The write-back record of a completion: COMPLETED, SEQ, STATUS and DONE_TIDE at the ring's write-back address, and no
other byte of memory changes; without WB_EN none does. And the frame of a completion: it changes its ring, the slots,
the signals, the interrupts and host memory, and for an UPDATE_LAYER the Tidemark that STEP_VERDICT counts from; a
command that a reset made silent leaves only its ring. -/
def Obligations.CompletionWritesBack : Prop :=
  ∀ (s : State) (c : Cmd) (st : Status) (detail : Nat) (body : List Byte),
    (s.Inv → c.silent = false → (s.ring c.ring).wbEn = true →
      (s.complete c st detail body).readHost (s.ring c.ring).wbAddr.toNat 16 =
        writeBackRecord ((s.ring c.ring).completed + 1) c.seq st s.tide) ∧
    (c.silent = false → (s.ring c.ring).wbEn = true →
      SameBut s (s.complete c st detail body) (hostKey (s.ring c.ring).wbAddr.toNat) 16) ∧
    ((s.ring c.ring).wbEn = false → (s.complete c st detail body).mem = s.mem) ∧
    s.complete c st detail body = { s with
      host := (s.complete c st detail body).host, mem := (s.complete c st detail body).mem,
      step := { s.step with lastUpdate := if c.opcode = 0x40 then s.tide else s.step.lastUpdate } } ∧
    (∀ r, r ≠ c.ring → (s.complete c st detail body).ring r = s.ring r) ∧
    (c.silent = true → (s.complete c st detail body).mem = s.mem ∧ (s.complete c st detail body).host.slots = s.host.slots ∧
      (s.complete c st detail body).host.signals = s.host.signals ∧
      (s.complete c st detail body).host.msixSent = s.host.msixSent)

/-- Signals: DONE_SIGNAL is set by a completion with OK and by no other, and no completion clears a signal; setting
signals sets them alone, clearing a mask clears it alone, and nothing but the signals changes. -/
def Obligations.SignalsSetAndClear : Prop :=
  (∀ (s : State) (c : Cmd) (st : Status) (detail : Nat) (body : List Byte) (j : Nat), c.silent = false → j < 64 →
    ((s.complete c st detail body).signal j = true ↔ s.signal j = true ∨ (st = .ok ∧ c.doneSignal = some j))) ∧
  (∀ (s : State) (j k : Nat) (m : W64), j < 64 → k < 64 →
    ((s.setSignal j).signal k = true ↔ k = j ∨ s.signal k = true) ∧
    ((s.clearSignals m).signal k = true ↔ s.signal k = true ∧ m.toNat.testBit k = false) ∧
    ((s.setSignals m).signal k = true ↔ s.signal k = true ∨ m.toNat.testBit k = true) ∧
    s.setSignals m = { s with host := { s.host with
      signals := (s.setSignals m).host.signals, signalTide := (s.setSignals m).host.signalTide } })

/-- A trouble-log record: while fewer than 64 of its code and source fell within the last 1 ms, it is written with the
present Tidemark and the next SEQ, over the oldest of 8,192 records where that many are held; a FATAL record sets FATAL
and drives FAULT_N low while the module serves; a dropped one writes nothing. LOG_READ and the OEM log read answer the
same records of the log: those held, from FIRST on, of the severity asked for or above, the lowest numbers first, every
one of them up to COUNT; and the number to go on from. -/
def Obligations.LogRecordsAreWrittenAndRead : Prop :=
  (∀ (s : State) (source code severity a0 a1 a2 : Nat), s.log.records.length ≤ 8192 →
    (((findRate s.log.rates source code).recent.filter (fun t => decide (s.tide < t + 1000000))).length < 64 →
      (s.logRec source code severity a0 a1 a2).log.written = s.log.written + 1 ∧
      (s.logRec source code severity a0 a1 a2).log.records =
        s.log.records.drop (if s.log.records.length = 8192 then 1 else 0) ++
        [{ tide := s.tide, source := source, code := code, severity := severity,
           flags := b2n (findRate s.log.rates source code).dropped, seq := s.log.written % 65536,
           arg0 := a0 % 2 ^ 64, arg1 := a1 % 2 ^ 32, arg2 := a2 % 2 ^ 32 }] ∧
      (s.logRec source code severity a0 a1 a2).log.fatal = (s.log.fatal || severity == sevFatal) ∧
      (severity = sevFatal → s.power.phase = .serving → (s.logRec source code severity a0 a1 a2).power.faultLow = true)) ∧
    (64 ≤ ((findRate s.log.rates source code).recent.filter (fun t => decide (s.tide < t + 1000000))).length →
      (s.logRec source code severity a0 a1 a2).log.records = s.log.records ∧
      (s.logRec source code severity a0 a1 a2).log.written = s.log.written)) ∧
  (∀ (l : Log) (first count sev : Nat), (l.pick first count sev).1.length ≤ count ∧
    (∀ n ∈ (l.pick first count sev).1, first ≤ n ∧ ∃ r, l.find n = some r ∧ sev ≤ r.severity) ∧
    (l.pick first count sev).1.Pairwise (· < ·) ∧
    (∀ n r, first ≤ n → l.find n = some r → sev ≤ r.severity → n ∈ (l.pick first count sev).1 ∨
      ((l.pick first count sev).1.length = count ∧ ∀ m ∈ (l.pick first count sev).1, m < n)) ∧
    (∀ n, 0 < count → (l.pick first count sev).1.length = count → (l.pick first count sev).1.getLast? = some n →
      (l.pick first count sev).2 = n + 1) ∧
    ((l.pick first count sev).1.length < count → (l.pick first count sev).2 = max first l.written)) ∧
  (∀ (dt : Nat) (r : Fin 17) (s u : State) (c : Cmd) (key next : Nat) (got : List Nat) (bs : List Byte),
    Starts s dt r 0xF1 c u → 1 ≤ c.param 8 2 → c.param 8 2 ≤ 8192 →
    u.resolve logSpaces none (c.param 0x10 8) (32 * c.param 8 2) = some key →
    u.ownStops key (32 * c.param 8 2) = false → u.keyServed key = true →
      (∀ i, (11 ≤ i ∧ i < 16) ∨ (24 ≤ i ∧ i < 64) → c.param i 1 = 0) →
    (got, next) = s.log.pick (c.param 0 8) (c.param 8 2) (c.param 0x0A 1) →
    bs = got.flatMap (fun n => ((s.log.find n).map (·.bytes)).getD []) →
    exec (.logRead dt r) s = .next ((if addrSpace (c.param 0x10 8) = 7 then u.writeHost (addrOffset (c.param 0x10 8)) bs
      else u.write key bs).complete c .ok 0 (bodyOf [(0, 8, got.headD next), (8, 8, next), (16, 4, got.length),
        (20, 4, if s.log.written ≤ c.param 0 8 then 0 else s.log.written - s.log.records.length - c.param 0 8)]))) ∧
  (∀ (dt first count sev next : Nat) (got : List Nat) (s : State), s.power.phase ≠ .off → s.mgmt.dynAddr.isSome = true →
    1 ≤ count → count ≤ 32 →
    (got, next) = s.log.pick first count sev →
    ∃ t, exec (.oemLogRead dt first count sev) s = .next t ∧ t.mgmt.code = 0 ∧
      t.mgmt.response.drop 24 = got.flatMap (fun n => ((s.log.find n).map (·.bytes)).getD []) ∧
      fieldAt t.mgmt.response 16 4 = got.length ∧ t = { s.advance dt with mgmt := t.mgmt })


/-! ### Power, resets and pins (18, 19, 03) -/

/-- Asserting MOD_RESET_N or dropping PWR_EN, for the 100 µs or more that the glitch filter always lets through, ends
service at once: everything but the secure flash and the pins is at its reset value, and the next start-up begins at
step 1 (R409). -/
def Obligations.ResetAndPowerOffLoseEverything : Prop :=
  ∀ (level : PinLevel) (s : State), 100000 ≤ level.heldNs →
    (∃ t, exec (.modResetAssert level) s = .next t ∧ LostAll s t ∧ t.power.modReset = true) ∧
    (∃ t, exec (.pwrEnFall level) s = .next t ∧ LostAll s t ∧ t.power.pwrEn = false)

/-- An input fault, a thermal trip and an input below 30 V: every die loses its power, PWR_GOOD falls, FAULT_N is low
until the module is Off, and the cause is kept. -/
def Obligations.FaultsOfTheInputStopTheDies : Prop :=
  ∀ (dt : Nat) (s : State),
    (∃ t, exec (.inputBelow30v dt) s = .next t ∧ LostAll s t) ∧
    (∀ mv us, s.power.phase ≠ .off → ((mv < 38000 ∧ 100 < us) ∨ (50000 < mv ∧ 10 < us)) →
      ∃ t, exec (.inputFault dt mv us) s = .next t ∧ t.power.phase = .stopped ∧ t.power.diesPowered = false ∧
        t.power.pwrGood = false ∧ t.power.linkUp = false ∧ t.power.faultLow = true ∧ t.power.inputFault = true ∧
        t.power.vin = mv ∧ t.mem = [] ∧ t.poison = [] ∧ t.host = State.reset.host ∧ t.log.records = s.log.records ∧
        t.conf = s.conf ∧ t.commit = s.commit) ∧
    (∀ (n : Fin 12) celsius, s.power.diesPowered = true → 120 ≤ celsius →
      ∃ t, exec (.temperatureThreshold dt (.compute n) celsius) s = .next t ∧ t.power.phase = .stopped ∧
        t.power.diesPowered = false ∧ t.power.pwrGood = false ∧ t.power.faultLow = true ∧ t.power.thermalTrip = true ∧
        t.power.inputFault = true ∧
        t.power.thermLow = true ∧ t.mem = [])

/-- A temperature below the trip: the die keeps it, pauses its broadcasts from 105 °C and resumes them at 103 °C, and
THERM_ALERT_N is low while a compute die stands at 100 °C or more; a far stack doubles its refresh above 85 °C. -/
def Obligations.TemperaturesAreHeldAndActedOn : Prop :=
  ∀ (dt : Nat) (s : State) (celsius : Nat), s.power.diesPowered = true → celsius < 120 →
    (∀ n : Fin 12, ∃ t, exec (.temperatureThreshold dt (.compute n) celsius) s = .next t ∧ (t.die n).tj = celsius ∧
      (105 ≤ celsius → t.power.thermPaused.toNat.testBit n = true) ∧
      (celsius ≤ 103 → t.power.thermPaused.toNat.testBit n = false) ∧
      (100 ≤ celsius → t.power.thermAlert = true ∧ t.power.thermLow = true) ∧
      (∀ m, m ≠ n.val → t.die m = s.die m) ∧
      t = { s.advance dt with dies := t.dies, power := { s.power with
        thermPaused := t.power.thermPaused, throttleEvents := t.power.throttleEvents, thermAlert := t.power.thermAlert,
        thermLow := t.power.thermLow } }) ∧
    (∀ f : Fin 16, ∃ t, exec (.temperatureThreshold dt (.stack f) celsius) s = .next t ∧ (t.stack f).temp = celsius ∧
      (t.stack f).refreshDoubled = decide (85 < celsius) ∧ (∀ g, g ≠ f.val → t.stack g = s.stack g) ∧
      t = { s.advance dt with farStacks := t.farStacks, power := { s.power with
        thermAlert := t.power.thermAlert, thermLow := t.power.thermLow } })

/-- A power exchange: the input registers, the limit as the lowest of the POWER item, the population's maximum and the
input cap of 75 A, and each die's budget; nothing but these, the dies' core voltages and the pauses changes. The
idle-voltage timer lowers the core voltage of a die that has been idle for IDLE_AFTER_US to IDLE_MV, starts with the
first event that finds the die idle, and where the die is at work it ends and the voltage from before returns (when it
starts is the model's choice, log 53). -/
def Obligations.PowerBudgets : Prop :=
  ∀ (dt : Nat) (s : State),
    (∀ (mv : Nat) (power request : List Nat), s.power.diesPowered = true →
      ∃ t, exec (.powerBudgetExchange dt mv power request) s = .next t ∧ t.power.vin = mv ∧ t.power.pin = sumNat power ∧
        t.power.inputCap = 75 * mv / 1000 ∧
        t.power.limit = min (min s.conf.moduleLimitW s.power.popMax) (75 * mv / 1000) ∧
        (∀ n, n < 12 → t.die n = { s.die n with
          budget := budgetOf t.power.limit s.pkg.suffix request n, power := power.getD n 0, coreMv := (t.die n).coreMv,
          idleFrom := (t.die n).idleFrom }) ∧
        t.power.budgets = otherBudgets s.pkg.suffix ∧
        t = { s.advance dt with dies := t.dies, power := { s.power with
          vin := t.power.vin, iin := t.power.iin, pin := t.power.pin, inputCap := t.power.inputCap, limit := t.power.limit,
          budgets := t.power.budgets,
          voltLowered := t.power.voltLowered, paused := t.power.paused, throttleEvents := t.power.throttleEvents } }) ∧
    (∀ (die : Fin 12), s.power.ready = true → s.conf.idleAfterUs ≠ 0 →
      ((s.advance dt).dieIdle die = true → (s.die die).idleSince = none → exec (.idleVoltageTimer dt die) s =
        .next ((s.advance dt).modDie die (fun d => { d with idleSince := some (s.advance dt).tide }))) ∧
      (∀ t0, (s.advance dt).dieIdle die = true → (s.die die).idleSince = some t0 →
        t0 + 1000 * s.conf.idleAfterUs ≤ (s.advance dt).tide → exec (.idleVoltageTimer dt die) s =
          .next ((s.advance dt).modDie die (fun d => { d with
            coreMv := min d.coreMv s.conf.idleMv, idleFrom := some (d.idleFrom.getD d.coreMv) }))) ∧
      ((s.advance dt).dieIdle die = false → exec (.idleVoltageTimer dt die) s =
        .next ((s.advance dt).modDie die (fun d => { d with
          idleSince := none, coreMv := d.idleFrom.getD d.coreMv, idleFrom := none }))))

/-- A function-level reset and PERST_N act on the host-port side alone: every ring is disabled and empty but for the
commands that have started, which go on without a trace, every slot is free, no signal is set; PERST_N also takes the
link down. -/
def Obligations.HostResets : Prop :=
  ∀ (dt : Nat) (s : State),
    (∃ t, exec (.functionLevelReset dt) s = .next t ∧ t = { s.advance dt with host := t.host } ∧
      t.host.slots = [] ∧ t.host.signals = 0 ∧
      (∀ r, t.ring r = { ringReset r with
        core := (s.ring r).core, everFetched := (s.ring r).everFetched,
        cmds := (s.ring r).started.map (fun c => { c with silent := true }) })) ∧
    (∃ t, exec (.perstAssert dt) s = .next t ∧ t.power.linkUp = false ∧ t.power.perstReleased = false ∧
      t.host.slots = [] ∧ t.host.signals = 0 ∧ (∀ r, (t.ring r).enable = false ∧ (t.ring r).tail = 0 ∧
        (t.ring r).cmds = (s.ring r).started.map (fun c => { c with silent := true })) ∧
      t = { s.advance dt with host := t.host, power := { s.power with
        linkUp := false, perstReleased := false, step := t.power.step } }) ∧
    (s.power.ready = true → s.power.phase = .serving → s.power.refclkOk = true → s.power.step ≠ 9 →
      exec (.perstRelease dt) s = .next { s.advance dt with power := { s.power with perstReleased := true, linkUp := true } }) ∧
    (s.power.phase = .serving → s.power.step = 9 → s.power.refclkOk = true →
      ∃ t, exec (.perstRelease dt) s = .next t ∧ t.power.linkUp = true ∧ t.power.step = 10 ∧
        t = { s.advance dt with power := t.power })

/-- REFCLK and the Tidemark pins, and the glitch filter of PWR_EN and MOD_RESET_N: a level held for less than 1 µs is
ignored. The loss of REFCLK takes the host link down and is counted, and an aligned module that is no reference takes a
new estimate of its error (a free value, log 33); its return brings the link back, and Tidemark takes no step at either;
a pulse of 1,000 ns leaves at each multiple of 1,000,000 while SYNC_OUT_EN is 1; an edge within 1 µs of where it is
expected gives the slew its phase and leaves its milliseconds, and Tidemark itself takes no step. -/
def Obligations.TidePins : Prop :=
  ∀ (dt : Nat) (s : State), s.power.phase = .serving →
    (∀ level : PinLevel, level.heldNs < 1000 → exec (.modResetAssert level) s = .next (s.advance level.dt) ∧
      exec (.pwrEnFall level) s = .next (s.advance level.dt)) ∧
    (∀ u : State, s.power.refclkOk = true → u = { s.advance dt with power := { s.power with
        refclkOk := false, refclkLosses := satAdd 16 s.power.refclkLosses 1, linkUp := false } } →
      exec (.refclkLoss dt) s = .next (if s.conf.isReference || !s.time.aligned then u
        else u.setError (Config.oscillatorError u.power.refclkLosses s.time.errorEst) s.time.source)) ∧
    (s.power.refclkOk = false → s.power.step ≠ 9 →
      exec (.refclkReturn dt) s = .next { s.advance dt with power := { s.power with
      refclkOk := true, linkUp := s.power.perstReleased && decide (10 ≤ s.power.step) } }) ∧
    (s.power.refclkOk = false → s.power.step = 9 → s.power.perstReleased = true →
      ∃ t, exec (.refclkReturn dt) s = .next t ∧ t.power.linkUp = true ∧ t.power.step = 10 ∧
        t = { s.advance dt with power := t.power }) ∧
    (s.conf.syncOutEn = true → (s.advance dt).tide % 1000000 = 0 →
      s.power.syncOutUntil ≠ (s.advance dt).tide + 1000 →
      exec (.syncOutPulse dt) s = .next { s.advance dt with power := { s.power with
        syncOutPulses := s.power.syncOutPulses + 1, syncOutUntil := (s.advance dt).tide + 1000 } }) ∧
    (∀ (tenths : Nat) (off : Int), off = syncOffset ((10 * (s.advance dt).tide + tenths : Nat) - (s.conf.syncInDelay : Int)) →
      off.natAbs ≤ 10000 → s.conf.sourceSelect ≠ 2 → s.conf.isReference = false → s.power.ready = true →
      ∃ t, exec (.tideSyncInEdge dt tenths) s = .next t ∧ t.tide = (s.advance dt).tide ∧
        t.time.slew = atPhase (off / 10) (s.advance dt).time.slew ∧
        t.time.hops = 0 ∧ t.time.source = 1 ∧ t.power.syncInEdges = s.power.syncInEdges + 1 ∧ t.mem = s.mem)

/-- START_UP in Off: while PWR_EN is low or MOD_RESET_N asserted the edge is only kept. Else the inputs are taken, and
it goes on until it is stopped, with FAULT_N low and the step last completed, or waits in step 9 for its ports, or
serves with step 9 done, PWR_GOOD high, and the population of its record found in the package; a flash that cannot be
read stops it before step 1. It passes step 8 where every check of R407 passes: each component has an image that loads,
the record is valid, the sites give its population, no bridge, stack, seam link or base feature bit fails; and serves at
once where no port has a role, else 2 s later at the latest. The end of the alignment wait: the module is ready at step
11, Tidemark is set to 0 (the wait ends without an aligned TIME frame), and the commit state takes that Tidemark. -/
def Obligations.StartUpServesOrStops : Prop :=
  (∀ (dt : Nat) (inp : StartInput) (s : State), s.power.phase = .off → 100000 ≤ inp.heldNs →
    (inp.pwrEn = false ∨ inp.modReset = true) → exec (.startUp dt inp) s =
      .next { s.advance dt with power := { s.power with pwrEn := inp.pwrEn, modReset := inp.modReset } }) ∧
  (∀ (dt : Nat) (inp : StartInput) (s : State), s.power.phase = .off → 100000 ≤ inp.heldNs → inp.pwrEn = true →
    inp.modReset = false →
    ∃ t, exec (.startUp dt inp) s = .next t ∧ t.power.pwrEn = true ∧ t.power.modReset = false ∧
      t.power.slotId = inp.slotId ∧ t.power.releasePending = false ∧
      ((t.power.phase = .stopped ∧ t.power.stopped = true ∧ t.power.step < 9 ∧ t.power.faultLow = true ∧
          t.power.pwrGood = false) ∨
        (t.power.phase = .starting ∧ t.power.step = 8 ∧ t.conf.population = t.pkg.suffix) ∨
        (t.power.phase = .serving ∧ 9 ≤ t.power.step ∧ t.power.step ≤ 10 ∧ t.power.pwrGood = true ∧
          t.conf.population = t.pkg.suffix)) ∧
      (inp.flashOk = false → t.power.phase = .stopped ∧ t.power.step = 0 ∧ t.power.stopCause = 8)) ∧
  (∀ (dt : Nat) (inp : StartInput) (conf : Conf) (present : List DieReport) (s : State), s.power.phase = .off →
    100000 ≤ inp.heldNs → inp.pwrEn = true → inp.modReset = false → s.power.releasePending = false →
      s.power.ownerKey ≠ [] → s.power.configRecord ≠ [] → inp.flashOk = true →
    (∀ c, c < 6 → (loadImage (flashOf (tabGet {} s.power.fw c) inp.images c)).isSome = true) →
    s.recordConf s.power.configRecord = some conf → derivePop inp.sites = conf.population → inp.bridgesOk = true →
    present = inp.reports.filter (fun r => (popSources conf.population).contains r.source) →
    stackFails conf.population present = false → (∀ r ∈ present, r.features.toNat % 2 ^ 32 = 2 ^ 32 - 1) →
    (∀ k, k < 3 → seamAgreed (inp.seams.getD k {}) ≠ 0) →
    (∀ f, f < popStacks conf.population → (trainStack inp.channelTests f).isSome = true) →
    ∃ t, exec (.startUp dt inp) s = .next t ∧
      t.power.diesPowered = true ∧ t.power.stopped = s.power.stopped ∧ t.conf = conf ∧
      ((t.power.phase = .starting ∧ t.power.step = 8) ∨ (t.power.phase = .serving ∧ t.power.pwrGood = true ∧
        t.power.step = (if inp.perstReleased && inp.refclkOk then 10 else 9))) ∧
      ((∀ p, p < t.nPorts → t.roleOf p = 0) → t.power.phase = .serving) ∧ t.pkg.suffix = conf.population ∧
      (∀ f, f < popStacks conf.population → some (t.stack f) = trainStack inp.channelTests f)) ∧
  (∀ (dt : Nat) (s : State), s.power.phase = .starting → s.power.step = 8 →
    s.power.startTide + 2000000000 ≤ (s.advance dt).tide →
    ∃ t, exec (.alignmentWaitTimeout dt) s = .next t ∧ t.power.phase = .serving ∧ t.power.pwrGood = true ∧
      t.power.step = (if s.power.perstReleased && s.power.refclkOk then 10 else 9) ∧
      t = { s.advance dt with power := t.power }) ∧
  (∀ (dt : Nat) (s : State), s.power.phase = .serving → s.power.step = 10 →
    s.power.startTide + (if s.conf.isReference then 300000 else 2000000000) ≤ (s.advance dt).tide →
    ∃ t, exec (.alignmentWaitTimeout dt) s = .next t ∧ t.power.ready = true ∧ t.power.step = 11 ∧ t.tide = 0 ∧
      t.commit = { s.commit with lastCommitTide := 0, lastConfigTide := 0 } ∧ t.mem = s.mem ∧ t.conf = s.conf)

/-! ### BAR0 (20, 02, 03) -/

/-- R12: an access that is not a naturally aligned one of 4 or 8 bytes reads as zero or is discarded, and is recorded.
-/
def Obligations.WrongAccessesDoNothing : Prop :=
  ∀ (dt off size : Nat) (v : W64) (s : State), s.power.linkUp = true → ¬((size = 4 ∨ size = 8) ∧ off % size = 0) →
    (∀ t, t = (s.advance dt).logRec srcHost 0x0001 sevWarning off (size % 2 ^ 31) 0 →
      exec (.barAccess dt false off size v) s = .next { t with host := { t.host with readData := 0 } }) ∧
    (exec (.barAccess dt true off size v) s =
      .next ((s.advance dt).logRec srcHost 0x0001 sevWarning off (size % 2 ^ 31 + 2 ^ 31) 0)) ∧
    (exec (.registerWrite dt off size v) s =
      .next ((s.advance dt).logRec srcHost 0x0001 sevWarning off (size % 2 ^ 31 + 2 ^ 31) 0))

/-- A read of 8 bytes answers the register's present value and changes nothing but the host's read data and what the
read latches; the reads that latch a snapshot answer what they latch. -/
def Obligations.ReadsAnswerTheRegister : Prop :=
  ∀ (dt : Nat) (s : State), s.power.linkUp = true →
    (∀ off v, off % 8 = 0 → (s.advance dt).accessHeld false off = false → (s.advance dt).latchFor off = s.advance dt →
      exec (.barAccess dt false off 8 v) s = .next { s.advance dt with host := { s.host with
        readData := (s.advance dt).barWord off } }) ∧
    (exec (.tideNowRead dt true) s = .next { s.advance dt with
        time := { (s.advance dt).time with latchHi := BitVec.ofNat 32 ((s.advance dt).tide / 2 ^ 32) }
        host := { s.host with readData := BitVec.ofNat 64 (s.advance dt).tide } }) ∧
    ((s.advance dt).closeDue = false → (s.advance dt).applyDue = false →
      exec (.lastCommitTideRead dt true) s = .next { s.advance dt with
        commit := { s.commit with latch := commitWords (s.advance dt) }
        host := { s.host with readData := BitVec.ofNat 64 s.commit.lastCommitTide } }) ∧
    (∀ k : Fin 16, ∃ t, exec (.idleSnapTideRead dt k true) s = .next t ∧
      t.host = { s.host with readData := BitVec.ofNat 64 (s.ctx k).lastSample } ∧
      (t.ctx k).idleLatch = (s.ctx k).idleWords ++ [(s.ctx k).lastSample] ∧
      t = { s.advance dt with ctxs := t.ctxs, host := t.host }) ∧
    (∀ (r : Fin 17) (k : Fin 1024) (x : Slot), (s.advance dt).ringPaused r = false → s.slot r k = some x →
      ∃ t, exec (.slotRead dt r k true) s = .next t ∧
        t.slot r k = some { x with readCount := satAdd 16 x.readCount 1 } ∧
        t.host.readData = (slotWords r (t.slot r k)).getD 0 0 ∧ t = { s.advance dt with host := t.host } ∧
        (∀ r' k', slotKey r' k' ≠ slotKey r k → t.slot r' k' = s.slot r' k'))

/-- R75: what a pending slot and a free slot read as; a read of a free slot is not counted. -/
def Obligations.PendingAndFreeSlots : Prop :=
  (∀ (r : Nat) (x : Slot), x.ready = false →
    slotWords r (some x) = BitVec.ofNat 64 (1 + (if x.marked then 3 else 1) * 2 ^ 8 + x.seq.toNat * 2 ^ 16 +
      x.opcode * 2 ^ 32 + r * 2 ^ 40 + x.readCount * 2 ^ 48) :: 0 :: 0 :: 0 :: x.cookie :: List.replicate 11 0) ∧
  (∀ r : Nat, slotWords r none = BitVec.ofNat 64 1 :: List.replicate 15 0) ∧
  (∀ (dt : Nat) (r : Fin 17) (k : Fin 1024) (s : State), s.power.linkUp = true → (s.advance dt).ringPaused r = false →
    s.slot r k = none → ∃ t, exec (.slotRead dt r k true) s = .next t ∧ t.host.slots = s.host.slots ∧ t.host.readData = 1)

/-- R63: RING_BASE and SIZE_LOG2 take a write only while ENABLE is 0; ENABLE is not set while SIZE_LOG2 lies outside 6
to 16, and that is recorded. -/
def Obligations.RingBaseAndSize : Prop :=
  ∀ (dt : Nat) (r : Fin 17) (s : State), s.power.linkUp = true → (s.advance dt).ringPaused r = false →
    (∀ v : W64, (s.ring r).enable = false → ∃ t, exec (.registerWrite dt (0x10000 + 0x100 * r) 8 v) s = .next t ∧
      t.ring r = { s.ring r with base := v &&& ~~~(BitVec.ofNat 64 0xFFF) } ∧ (∀ q, q ≠ r.val → t.ring q = s.ring q)) ∧
    (∀ v : W64, (s.ring r).enable = true →
      exec (.registerWrite dt (0x10000 + 0x100 * r) 8 v) s = .next ((s.advance dt).discardedWrite (0x10000 + 0x100 * r) v)) ∧
    (∀ v : W32, v.toNat.testBit 1 = false → ∃ t, exec (.ringEnable dt r v) s = .next t ∧
      ((s.ring r).enable = true → (t.ring r).sizeLog2 = (s.ring r).sizeLog2) ∧
      ((s.ring r).enable = false → (t.ring r).sizeLog2 = bits v.toNat 8 5) ∧
      ((s.ring r).enable = false → v.toNat.testBit 0 = true → ¬(6 ≤ bits v.toNat 8 5 ∧ bits v.toNat 8 5 ≤ 16) →
        (t.ring r).enable = false ∧ (t.log.written = s.log.written + 1 ∨ ∃ x ∈ t.log.rates, x.dropped = true)) ∧
      (s.power.ready = true → v.toNat.testBit 0 = true → 6 ≤ bits v.toNat 8 5 → bits v.toNat 8 5 ≤ 16 →
        (t.ring r).enable = true))

/-- A doorbell sets TAIL, and halts a ring whose queue would exceed its size; a reset of a ring returns its registers to
their reset values and drops what has not started, with ABORTED in the named slots; where that takes away a step close
that was due, the accesses that waited for it go on. -/
def Obligations.DoorbellsAndRingResets : Prop :=
  ∀ (dt : Nat) (r : Fin 17) (s : State), s.power.linkUp = true → (s.advance dt).ringPaused r = false →
    (∀ tail : W32, (tail - (s.ring r).head).toNat ≤ 2 ^ (s.ring r).sizeLog2 →
      ∃ t, exec (.ringDoorbell dt r tail) s = .next t ∧ t.ring r = { s.ring r with tail := tail } ∧
        (∀ q, q ≠ r.val → t.ring q = s.ring q) ∧ t = { s.advance dt with host := { s.host with rings := t.host.rings } }) ∧
    (∀ tail : W32, tail ≠ (s.ring r).tail → 2 ^ (s.ring r).sizeLog2 < (tail - (s.ring r).head).toNat →
      (s.ring r).halted = false →
      ∃ t, exec (.ringDoorbell dt r tail) s = .next t ∧ (t.ring r).halted = true ∧ (t.ring r).haltCause = 4 ∧
        (t.ring r).head = (s.ring r).head ∧ (t.ring r).cmds = (s.ring r).cmds) ∧
    (∀ v : W32, v.toNat.testBit 1 = true → exec (.ringReset dt r v) s =
      .next (((s.advance dt).access true (0x10000 + 0x100 * r + 0x08) 4 (v.zeroExtend 64)).afterClose (s.advance dt))) ∧
    (∀ v : W32, v.toNat.testBit 1 = true → (r.val ≠ 0 ∨ s.host.held = []) →
      ∃ t, exec (.ringReset dt r v) s = .next t ∧ (t.ring r).enable = false ∧
      (t.ring r).head = 0 ∧ (t.ring r).tail = 0 ∧ (t.ring r).fetched = 0 ∧ (t.ring r).nextSeq = 0 ∧
      (t.ring r).rejects = 0 ∧ (t.ring r).completed = 0 ∧ (t.ring r).halted = false ∧
      (t.ring r).cmds = (s.ring r).started ∧ (∀ q, q ≠ r.val → t.ring q = s.ring q) ∧ t.mem = s.mem ∧
      t.host.signals = s.host.signals ∧
      (∀ c ∈ (s.ring r).unstarted, ∀ k x, c.ring = r.val → c.slot = some k → s.slot r k = some x →
        ∃ y, t.slot r k = some y ∧ y.ready = true ∧ y.status = .aborted))

/-- LAYER_DEFINE and LAYER_UNDEFINE: a write of word 0 of an entry that is not defined and whose RW fields pass the
checks defines it, with its first version in slot 0; a defined entry of which no version is in use is undefined, one
that is in use stays with DEF_ERROR 2; no other layer changes. -/
def Obligations.LayersAreDefined : Prop :=
  (∀ (dt : Nat) (layer : Fin 4096) (v : W64) (s : State), s.power.linkUp = true → (s.layer layer).defined = false →
    (v.toNat.testBit 1 = true → v.toNat.testBit 2 = false →
      (s.advance dt).defineOk ((s.layer layer).withWord0 (maskedWrite (BitVec.ofNat 64 (s.layer layer).word0) v
        (BitVec.allOnes 64)).toNat) = true →
      ∃ t, exec (.layerDefine dt layer v) s = .next t ∧ (t.layer layer).defined = true ∧ (t.layer layer).defError = 0 ∧
        (t.layer layer).newest = BitVec.ofNat 16 (bits v.toNat 16 16) ∧
        (t.layer layer).slots = [(0, { serial := BitVec.ofNat 16 (bits v.toNat 16 16), state := .current,
                                       epoch := s.commit.layoutEpoch })] ∧
        (∀ l, l ≠ layer.val → t.layer l = s.layer l) ∧ t = { s.advance dt with layers := t.layers })) ∧
  (∀ (dt : Nat) (layer : Fin 4096) (v : W64) (s : State), s.power.linkUp = true → (s.layer layer).defined = true →
    v.toNat.testBit 2 = true → v.toNat.testBit 1 = false →
    ((s.advance dt).mayUndefine layer = true → exec (.layerUndefine dt layer v) s =
      .next ((s.advance dt).modLayer layer (fun l => { l with defined := false, defError := 0, slots := [] }))) ∧
    ((s.advance dt).mayUndefine layer = false → exec (.layerUndefine dt layer v) s =
      .next ((s.advance dt).modLayer layer (fun l => { l with defError := 2 }))))

/-- R463: SKIM_RD takes a value from its present one to SKIM_WR; any other is discarded and recorded; SKIM_STOP changes
neither counter, and SKIM_START sets both to 0. -/
def Obligations.SkimReadPointer : Prop :=
  (∀ (dt : Nat) (v : W64) (s : State), s.power.linkUp = true →
    (s.skim.rd.toNat ≤ v.toNat → v.toNat ≤ s.skim.wr.toNat →
      exec (.skimRdWrite dt v) s = .next { s.advance dt with skim := { s.skim with rd := v } }) ∧
    (v.toNat < s.skim.rd.toNat ∨ s.skim.wr.toNat < v.toNat →
      exec (.skimRdWrite dt v) s = .next ((s.advance dt).discardedWrite 0x10D0 v))) ∧
  (∀ (dt : Nat) (s t : State), exec (.skimStop dt) s = .next t → t.skim.wr = s.skim.wr ∧ t.skim.rd = s.skim.rd) ∧
  (∀ (dt : Nat) (s t u : State) (c : Cmd), Starts s dt 0 0x80 c u → exec (.skimStart dt) s = .next t →
    s.skim.running = false → t.skim.running = true → t.skim.wr = 0 ∧ t.skim.rd = 0)

/-- The log's registers: LOG_SELECT latches the record it names, or zeros, and FATAL clears with FAULT_N while the
module serves. CH_CONTROL.STOP stops an active channel with its resume point, and its command finishes with ABORTED; in
a pause of its complex the stop waits, and a channel that is not active keeps its state. A unit's MISMATCH clears alone.
Unmasking a vector, or the function, sends what each vector that is no longer masked has collected, and nothing else. -/
def Obligations.StopsClearsAndUnmasks : Prop :=
  (∀ (dt : Nat) (v : W64) (s : State), s.power.linkUp = true →
    exec (.logSelectWrite dt v) s = .next { s.advance dt with log := { s.log with select := v, data := s.log.latch v.toNat } } ∧
    (v.toNat.testBit 8 = true → ∃ t, exec (.fatalClear dt v) s = .next t ∧ t.log.fatal = false ∧
      t.log = { s.log with fatal := false, intSeverity := bits v.toNat 0 2 } ∧
      (s.power.phase = .serving → t.power.faultLow = false) ∧
      t = { s.advance dt with log := t.log, power := { s.power with faultLow := t.power.faultLow } })) ∧
  (∀ (dt : Nat) (s : State),
    (∀ n : Fin 192, s.power.linkUp = true → (s.channel n).active = true → (s.advance dt).channelPaused n = false →
      ∃ t, exec (.channelStop dt n) s = .next t ∧ (t.channel n).state = 3 ∧ (t.channel n).stopCause = 2 ∧
        (t.channel n).resume = some (s.channel n).resumePoint ∧ (∀ m, m ≠ n.val → t.channel m = s.channel m) ∧
        (∀ ref c, (s.channel n).cmd = some ref → s.findCmd ref = some c → t.findCmd ref =
          some { c with work := .finished .aborted 0 (t.channel n).body, finishedAt := (s.advance dt).tide }) ∧
        t = { s.advance dt with dma := t.dma, host := t.host }) ∧
    (∀ n : Fin 192, s.power.linkUp = true → (s.channel n).active = true → (s.advance dt).channelPaused n = true →
      exec (.channelStop dt n) s = .next ((s.advance dt).modChannel n (fun x => { x with stop := true }))) ∧
    (∀ n : Fin 192, s.power.linkUp = true → (s.channel n).active = false →
      exec (.channelStop dt n) s = .next (s.advance dt)) ∧
    (∀ u : Fin 64, s.power.linkUp = true →
      exec (.mismatchClear dt u) s = .next ((s.advance dt).modUnit u (fun x => { x with mismatch := false }))) ∧
    (∀ v : Fin 64, s.host.pba.toNat.testBit v = true → s.host.functionMask = false → s.vectorEnabled v = true →
      ∃ t, exec (.msixUnmask dt (.vector v)) s = .next t ∧ t.host.msixSent = s.host.msixSent ++ [v.val] ∧
        t.host.pba.toNat.testBit v = false ∧ t.host.vectorMask.toNat.testBit v = false ∧
        t = { s.advance dt with host := t.host }) ∧
    (∀ v : Fin 64, s.host.pba.toNat.testBit v = false ∨ s.host.functionMask = true →
      exec (.msixUnmask dt (.vector v)) s =
        .next { s.advance dt with host := { s.host with vectorMask := withBit s.host.vectorMask v false } }) ∧
    (∃ t, exec (.msixUnmask dt .function) s = .next t ∧ t.host.functionMask = false ∧
      t.host.msixSent = s.host.msixSent ++ (List.range 64).filter (fun v =>
        s.host.pba.toNat.testBit v && !s.host.vectorMask.toNat.testBit v && s.vectorEnabled v) ∧
      (∀ v, v < 64 → t.host.pba.toNat.testBit v = (s.host.pba.toNat.testBit v && s.host.vectorMask.toNat.testBit v)) ∧
      t = { s.advance dt with host := t.host }))

/-! ### Rings and the commands of 03 -/

/-- PACKET_FETCH of a whole packet that host memory gives at the addresses from HEAD on and that passes every check: it
is consumed and joins its ring as the last command, its slot, if it names one, becomes pending, and no other ring, no
memory and no signal changes. -/
def Obligations.PacketsAreAccepted : Prop :=
  ∀ (dt : Nat) (r : Fin 17) (host : List (Nat × List Byte)) (h p : List Byte) (n : Nat) (s : State),
    s.fetching r = true → (s.ring r).readUnits host 1 = some h → fieldAt h 5 1 % 4 ≠ 3 → n = 1 + fieldAt h 5 1 % 4 →
    n ≤ ((s.ring r).tail - (s.ring r).head).toNat → (s.ring r).readUnits host n = some p →
    ((fieldAt p 1 1).testBit 2 = true → checkMatches p = true) → fieldAt p 2 2 = (s.ring r).nextSeq.toNat →
    (fieldAt p 6 2 = 0xFFFF ∨ (fieldAt p 6 2 ≤ 1023 ∧ s.slot r (fieldAt p 6 2) = none)) → headerCheck r p = none →
    ∃ t, exec (.packetFetch dt r host) s = .next t ∧
      t.ring r = { s.ring r with
        head := (s.ring r).head + BitVec.ofNat 32 n,
        fetched := (s.ring r).fetched + 1, everFetched := (s.ring r).everFetched + 1, nextSeq := (s.ring r).nextSeq + 1,
        prior := .running s.host.nextFetch,
        cmds := markOldest (s.advance dt).tide ((s.ring r).cmds ++
          [packetCmd r p (s.advance dt).tide s.host.nextFetch (s.ring r).prior]) } ∧
      (∀ q, q ≠ r.val → t.ring q = s.ring q) ∧
      (fieldAt p 6 2 ≠ 0xFFFF → t.slot r (fieldAt p 6 2) = some {
        seq := BitVec.ofNat 16 (fieldAt p 2 2), opcode := fieldAt p 0 1, cookie := BitVec.ofNat 64 (fieldAt p 32 8) }) ∧
      t.host.signals = s.host.signals ∧ t = { s.advance dt with host := t.host }

/-- R65: a halt stops the fetching, keeps HEAD, NEXT_SEQ and the accepted commands, and raises vector 17; with
FETCH_ERROR for an error of the read, LENGTH_ERROR for PARAM_LEN 3, CHECK_MISMATCH and SEQ_GAP for the first two checks
of a whole packet. -/
def Obligations.RingsHalt : Prop :=
  ∀ (dt : Nat) (r : Fin 17) (s : State), s.fetching r = true →
    (∀ (host : List (Nat × List Byte)) (h p : List Byte) (n cause : Nat), n = 1 + fieldAt h 5 1 % 4 →
      (((s.ring r).readUnits host 1 = none ∧ cause = 5) ∨
        ((s.ring r).readUnits host 1 = some h ∧ n = 4 ∧ cause = 3) ∨
        ((s.ring r).readUnits host 1 = some h ∧ n ≠ 4 ∧ n ≤ ((s.ring r).tail - (s.ring r).head).toNat ∧
          (((s.ring r).readUnits host n = none ∧ cause = 5) ∨
            ((s.ring r).readUnits host n = some p ∧ (fieldAt p 1 1).testBit 2 = true ∧ checkMatches p = false ∧ cause = 2) ∨
            ((s.ring r).readUnits host n = some p ∧ (fieldAt p 1 1).testBit 2 = false ∧
              fieldAt p 2 2 ≠ (s.ring r).nextSeq.toNat ∧ cause = 1)))) →
      ∃ t, exec (.packetFetch dt r host) s = .next t ∧
        t.ring r = { s.ring r with halted := true, haltCause := cause } ∧ t.fetching r = false ∧
        (∀ q, q ≠ r.val → t.ring q = s.ring q) ∧
        (s.host.functionMask = false → s.host.vectorMask.toNat.testBit 17 = false →
          t.host.msixSent = s.host.msixSent ++ [17]) ∧
        (s.host.functionMask = true ∨ s.host.vectorMask.toNat.testBit 17 = true →
          t.host.pba.toNat.testBit 17 = true ∧ t.host.msixSent = s.host.msixSent))

/-- COMMAND_COMPLETION, WAIT_TIMEOUT_EXPIRY and COALESCE_TIMEOUT: a command whose engines have finished before completes
with its result, and a FENCE or WAIT_SIGNAL whose condition holds completes; while the ring's core is out, the reports
wait; a front command past its WAIT_TIMEOUT that did not become ready in time completes with TIMEOUT and the next
becomes the oldest; interrupts that have waited for COALESCE.TIME are sent. -/
def Obligations.RingEvents : Prop :=
  ∀ (dt : Nat) (r : Fin 17) (s : State),
    (∀ seq : W16, (s.advance dt).ringPaused r = true → exec (.commandCompletion dt r seq) s = .next (s.advance dt)) ∧
    (∀ (seq : W16) (c : Cmd) (rest : List Cmd), (s.advance dt).ringPaused r = false →
      (s.ring r).cmds.filter (fun c => c.seq == seq && c.start.isSome) = c :: rest →
      (∀ st detail body, c.work = .finished st detail body → c.finishedAt < (s.advance dt).tide → c.opcode ≠ 0x60 →
        exec (.commandCompletion dt r seq) s = .next (((s.advance dt).complete c st detail body).endArrayPin c)) ∧
      (c.work = .waiting .fence → (s.advance dt).fenceDone c = true → (s.advance dt).fencePast c = true →
        exec (.commandCompletion dt r seq) s = .next ((s.advance dt).complete c .ok 0 [])) ∧
      (c.work = .waiting .signals → (s.advance dt).signalsHold c = true → (s.advance dt).signalsPast c = true →
        exec (.commandCompletion dt r seq) s = .next ((s.advance dt).endWaitSignal c))) ∧
    (∀ (c : Cmd) (l : Nat), (s.ring r).front = some c → c.limit = some l → l ≤ (s.advance dt).tide →
      (s.advance dt).inTime c = false →
      exec (.waitTimeoutExpiry dt r) s =
        .next ((((s.advance dt).complete c .timeout 0 []).refreshOldest r).afterClose (s.advance dt))) ∧
    ((s.ring r).pendingInts ≠ 0 → (s.ring r).coalesceTime ≠ 0 →
      (s.ring r).oldestInt + 1000 * (s.ring r).coalesceTime ≤ (s.advance dt).tide →
      ∃ t, exec (.coalesceTimeout dt r) s = .next t ∧ t.ring r = { s.ring r with pendingInts := 0 } ∧
        (s.vectorEnabled (s.ring r).vector = true → s.host.functionMask = false →
          s.host.vectorMask.toNat.testBit (s.ring r).vector = false →
          t.host.msixSent = s.host.msixSent ++ [(s.ring r).vector]) ∧
        (∀ q, q ≠ r.val → t.ring q = s.ring q) ∧ t = { s.advance dt with host := t.host })

/-- The commands of 03 that wait for nothing but what they name: NOP completes as it starts; SIGNAL clears, then sets;
FENCE, WAIT_TIDE and WAIT_SIGNAL complete where their condition holds and wait where it does not; a reserved byte gives
BAD_PARAM. QUERY answers the ring registers, a map of the occupied slots of half a ring, the commit state, or the
signals and the time; RELEASE frees each of COUNT named slots that is ready, marks each that is pending, leaves its own
and every other slot; BODY holds the three counts. -/
def Obligations.SynchronisingCommands : Prop :=
  ∀ (dt : Nat) (r : Fin 17) (s u : State) (c : Cmd),
    (Starts s dt r 0x01 c u → exec (.nop dt r) s = .next (u.complete c .ok 0 [])) ∧
    (Starts s dt r 0x04 c u → (∀ i, 16 ≤ i → i < 64 → c.param i 1 = 0) →
      exec (.signal dt r) s = .next (((u.clearSignals (BitVec.ofNat 64 (c.param 0 8))).setSignals
        (BitVec.ofNat 64 (c.param 8 8))).complete c .ok 0 [])) ∧
    (Starts s dt r 0x02 c u → c.param 0 4 < 2 ^ 17 → (∀ i, 4 ≤ i → i < 64 → c.param i 1 = 0) →
      ((∀ d ∈ u.allCmds, fenceNames c d.ring = true → fetchedBefore d c = false) →
        u.fencePast c = true → exec (.fence dt r) s = .next (u.complete c .ok 0 [])) ∧
      ((∃ d ∈ u.allCmds, fenceNames c d.ring = true ∧ fetchedBefore d c = true) ∨ u.fencePast c = false →
        exec (.fence dt r) s = .next (u.setWait c.ref .fence none))) ∧
    (Starts s dt r 0x03 c u → (∀ i, 9 ≤ i → i < 64 → c.param i 1 = 0) →
      (c.param 8 1 = 0 → c.param 0 8 ≤ u.tide → exec (.waitTide dt r) s = .next (u.complete c .ok 0 [])) ∧
      (c.param 8 1 = 0 → u.tide < c.param 0 8 → exec (.waitTide dt r) s =
        .next (u.setWait c.ref (.tide (some (c.param 0 8))) (some (c.param 0 8)))) ∧
      (∀ t0, c.param 8 1 = 1 → c.prior = .done t0 → t0 + c.param 0 8 ≤ u.tide →
        exec (.waitTide dt r) s = .next (u.complete c .ok 0 []))) ∧
    (Starts s dt r 0x05 c u → c.param 0 8 ≠ 0 → c.param 8 1 < 4 → (∀ i, 9 ≤ i → i < 64 → c.param i 1 = 0) →
      (u.signalsHold c = true → u.signalsPast c = true → exec (.waitSignal dt r) s = .next (u.endWaitSignal c)) ∧
      (u.signalsHold c = false ∨ u.signalsPast c = false →
        exec (.waitSignal dt r) s = .next (u.setWait c.ref .signals none))) ∧
    (∀ d, (s.ring r).started.find? (fun c => c.opcode == 0x03) = some d → d.param 8 1 = 0 →
      d.param 0 8 ≤ (s.advance dt).tide → exec (.waitTideTarget dt r) s = .next ((s.advance dt).complete d .ok 0 [])) ∧
    (∀ i, 16 ≤ i → i < 64 → Starts s dt r 0x04 c u → (∀ j, 16 ≤ j → j < i → c.param j 1 = 0) →
      c.param i 1 ≠ 0 → exec (.signal dt r) s = .next (u.badParam c i)) ∧
    (Starts s dt r 0xF0 c u → (∀ i, 4 ≤ i → i < 64 → c.param i 1 = 0) →
      (∀ arg, arg ≤ 16 → c.param 0 2 = 1 → c.param 2 2 = arg → exec (.query dt r) s = .next (u.complete c .ok 0
        (toBytes 8 (ringHeadWord (u.ring arg)) ++ toBytes 8 (ringStatusWord (u.ring arg)) ++
          toBytes 8 (ringDoneWord (u.ring arg))))) ∧
      (∀ q h, q ≤ 16 → h < 2 → c.param 0 2 = 2 → c.param 2 2 = q + 256 * h → exec (.query dt r) s =
        .next (u.complete c .ok 0 (toBytes 64 ((List.range 512).foldl
          (fun acc i => if (u.slot q (512 * h + i)).isSome then acc + 2 ^ i else acc) 0)))) ∧
      (c.param 0 2 = 3 → c.param 2 2 = 0 → (r.val = 0 ∨ (s.advance dt).closeDue = false) →
        (s.advance dt).applyDue = false → exec (.query dt r) s =
        .next (u.complete c .ok 0 ((commitWords u).flatMap (fun w => toBytes 8 w.toNat)))) ∧
      (c.param 0 2 = 4 → c.param 2 2 = 0 → (s.advance dt).applyDue = false →
        exec (.query dt r) s = .next (u.complete c .ok 0
        (toBytes 8 u.host.signals.toNat ++ toBytes 8 u.tide ++ toBytes 8 (tideStatusWord u)))) ∧
      (4 < c.param 0 2 → exec (.query dt r) s = .next (u.badParam c 0))) ∧
    (∀ (q first n : Nat) (own named : Nat → Bool), Starts s dt r 0xF2 c u → q = c.param 0 1 → first = c.param 2 2 →
      n = c.param 4 2 → (q = r ∨ (r.val = 0 ∧ q ≤ 16)) → first < 1024 → 1 ≤ n → n ≤ 1024 →
      (∀ i, 6 ≤ i → i < 64 → c.param i 1 = 0) → c.param 1 1 = 0 →
      (∀ k, own k = (decide (q = r) && c.slot == some k)) →
      (∀ k, named k = (!own k && (List.range n).any (fun i => (first + i) % 1024 == k))) →
      ∃ v : State, exec (.release dt r) s = .next (v.complete c .ok 0
          (toBytes 2 ((List.range 1024).filter (fun k => named k && (u.slot q k).any (·.ready))).length ++
            toBytes 2 ((List.range 1024).filter (fun k => named k && (u.slot q k).any (fun x => !x.ready))).length ++
            toBytes 2 ((List.range 1024).filter (fun k => named k && (u.slot q k).isNone)).length)) ∧
        (∀ k, k < 1024 → v.slot q k = (match u.slot q k with
          | some x => if !named k then some x else if x.ready then none else some { x with marked := true }
          | none => none)) ∧
        (∀ p k, k < 1024 → p ≠ q → v.slot p k = u.slot p k) ∧
        v = { u with host := { u.host with slots := v.host.slots } })


/-! ### Arrays, drains and spills (05 to 09) -/

/-- The array commands: one that passes its checks, and its version check, on a die in service takes the edge port and
the broadcast port of every array of its gang, behind the commands before it, and runs; a failing check gives BAD_PARAM
at its offset, a version that is gone VERSION_GONE, a die that is draining or out of service FAULTED; one whose die a
repair holds waits to start; memory stays as it is. -/
def Obligations.ArrayCommandsStart : Prop :=
  ∀ (dt : Nat) (r : Fin 17) (s u : State) (c : Cmd) (i : Instr) (op : Nat),
    ((i = .tileMm dt r ∧ op = 0x10) ∨ (i = .tileConv dt r ∧ op = 0x11) ∨ (i = .tileDgrad dt r ∧ op = 0x12) ∨
      (i = .tileWgrad dt r ∧ op = 0x13)) →
    Starts s dt r op c u →
    (∀ o, arrFail u c (arrParams c) = some o → exec i s = .next (u.badParam c o)) ∧
    (∀ o, arrFail u c (arrParams c) = none → u.versionCheck c = .bad o → exec i s = .next (u.badParam c o)) ∧
    (arrFail u c (arrParams c) = none → u.versionCheck c = .gone →
      exec i s = .next (u.complete { c with start := none } .versionGone 0 [])) ∧
    (arrFail u c (arrParams c) = none → u.versionCheck c = .pass →
      u.dieRefuses (arrParams c).die = false → u.dieWaits (arrParams c).die = false →
      exec i s = .next (u.startArray c (arrParams c)) ∧ (u.startArray c (arrParams c)).mem = s.mem ∧
      (u.startArray c (arrParams c)).poison = s.poison ∧
      (∀ a ∈ gangOf (arrParams c), c.ref ∈ ((u.startArray c (arrParams c)).array (arrParams c).die a).edgeQ ∧
        c.ref ∈ ((u.startArray c (arrParams c)).array (arrParams c).die a).bcastQ) ∧
      (∀ a, a < 32 → a ∉ gangOf (arrParams c) →
        (u.startArray c (arrParams c)).array (arrParams c).die a = s.array (arrParams c).die a)) ∧
    (arrFail u c (arrParams c) = none → u.versionCheck c = .pass → u.dieRefuses (arrParams c).die = true →
      exec i s = .next (u.complete c .faulted 0 [])) ∧
    (arrFail u c (arrParams c) = none → u.versionCheck c = .pass → u.dieRefuses (arrParams c).die = false →
      u.dieWaits (arrParams c).die = true → exec i s = .next (s.advance dt))

/-- The events of an array: the feeder writes the next edge word where NXT of its row is free, and waits for a near-tier
read that is late; a broadcast reaches every array of the gang where its weights are there and every cell has room, and
is counted as waiting on each of them where they are not, or where its own read is late; a die that pauses counts the
step; the accumulator takes the wave of its oldest row; a full staged slot is written into its entry, element by element
in the order of its rows, by the model's own sum of a spill, where nothing else changes in the near tier, and the spill
is counted (what is counted is the model's choice, log 41). -/
def Obligations.ArrayEvents : Prop :=
  ∀ (dt : Nat) (die : Fin 12) (a : Fin 32) (s : State),
    (∀ (ref : CmdRef) (q : List CmdRef) (c : Cmd) (j : ArrayJob), (s.array die a).edgeQ = ref :: q →
      s.job ref = some (c, j) → s.arrayPaused die a = false → j.edgePos.getD (a.val - j.lead) 0 < j.passes * 64 →
      ((s.array die a).rowOpen (j.edgePos.getD (a.val - j.lead) 0 % 64) = true →
        ∃ t, exec (.edgeWordWrite dt die ⟨a, false⟩) s = .next t ∧
          t = (s.advance dt).issueWord c { j with feedLate := false } a (a.val - j.lead) ∧ t.mem = s.mem) ∧
      (edgeMayWait (arrParams c) j (a.val - j.lead) = true → exec (.edgeWordWrite dt die ⟨a, true⟩) s =
        .next ((s.advance dt).countFeedWait ref j 1))) ∧
    (∀ late, s.diePaused die = true → exec (.broadcast dt die ⟨a, late⟩) s =
      .next ((s.advance dt).modDie die (fun d => { d with pausedSteps := satAdd 32 d.pausedSteps 1 }))) ∧
    (∀ (ref : CmdRef) (q : List CmdRef) (c : Cmd) (j : ArrayJob), s.diePaused die = false →
      (s.array die a).replay = [] → (s.array die a).bcastQ = ref :: q → s.arrayPaused die a = false →
      s.job ref = some (c, j) → j.bcastPos < j.passes * j.m →
      s.castStopped die a = false →
      (∀ b ∈ j.gang, (s.array die b).bcastQ.head? = some ref ∧ (s.array die b).replay = [] ∧
        s.arrayPaused die b = false ∧ s.castStopped die b = false) →
      ((∀ b ∈ j.gang, (s.array die b).hasWeights (j.tagOf (b - j.lead) (j.bcastPos / j.m)) ref = true ∧
          (s.array die b).hasRoom = true) →
        exec (.broadcast dt die ⟨a, false⟩) s =
          .next (((s.advance dt).completeBroadcast c { j with feedLate := false }).measureRate die)) ∧
      (castMayWait c (arrParams c) (j.bcastPos / j.m) (j.bcastPos % j.m) (List.range j.chain) = true →
        exec (.broadcast dt die ⟨a, true⟩) s = .next ((s.advance dt).countFeedWait ref j j.gang.length)) ∧
      ((∃ b ∈ j.gang, (s.array die b).hasWeights (j.tagOf (b - j.lead) (j.bcastPos / j.m)) ref = false) →
        exec (.broadcast dt die ⟨a, false⟩) s = .next ((s.advance dt).countEdgeWait c j j.gang.length))) ∧
    (∀ (f : Flight) (rest : List Flight) (waves : List Wave) (c : Cmd) (j : ArrayJob),
      (s.array die a).flight = f :: rest → s.arrayHeld die a = false → s.job f.cmd = some (c, j) →
      waves = (List.range 64).filterMap (fun col => (tabFind (s.array die a).bottom col).filter (fun w => !w.toLower)) →
      waves.length = 64 →
      j.accPos.getD (j.outs.idxOf a.val) 0 ≤ f.pass * j.m + f.vec → s.slotBusy c.startOrder (waveSlots j a f) = false →
      (j.mode < 2 → (s.array die a).rowPending (j.slot + f.vec / 64) (f.vec % 64) = false) →
      exec (.waveAccumulate dt die a) s =
        .next (((((s.advance dt).modArray die a (fun x => { x with flight := rest, bottom := [] })).takeRow c j
          (j.outs.idxOf a.val) a f ((waves.take (outCols (arrParams c).shape)).map
            (fun w => toF32 (w.val.getD Machine.Num.zero))))).checkArray f.cmd)) ∧
    (∀ (b : SpillJob) (c : Cmd) (j : ArrayJob), (s.array die a).staging = some b → s.job b.cmd = some (c, j) →
      s.arrayHeld die a = false → b.want ≤ b.rows.length → s.entryBusy c.startOrder [(die.val, b.addr, 1)] = false →
      ∀ v, v = ((b.rows.flatMap SpillRow.elems).foldl (spillElem die b.addr b.write) (s.advance dt, 0)).1 →
      ∃ t, exec (.spillWriteback dt die a) s = .next t ∧
        t = (((v.modDie die (fun d => { d with spills := d.spills + 1 })).setJob b.cmd
          { j with spillsLeft := j.spillsLeft - 1 }).nextStaging die a).checkArray b.cmd ∧
        ((∀ e ∈ b.rows.flatMap SpillRow.elems, e.1 < 4096) →
          SameBut (s.advance dt) v (dieKey 4 die b.addr) 32768) ∧
        (t.die die).spills = (s.die die).spills + 1 ∧
        (∀ d, d ≠ die.val → t.die d = s.die d) ∧ t.commit = s.commit)

/-- WAVE_HOP: a cell adds its oldest products into the wave that stands before it, in ascending k, and hands the wave to
the next row, or from row 63, rounded once to FP32 unless it goes on to the lower array, to the bottom stage. At row 0
of a lower array a chained wave is taken from the upper array's bottom stage. A residue check that fails on the way
notes the row and makes the wave one that the bottom stage refuses, with every later wave of the array and with what
other columns had brought for the accumulator. -/
def Obligations.WavesHop : Prop :=
  ∀ (dt : Nat) (die : Fin 12) (a : Fin 32) (row col : Fin 64) (s : State) (p : Product) (ps : List Product) (w : Wave),
    ((s.array die a).cell row col).prods = p :: ps → s.waveAt die a row col p = some w → s.arrayHeld die a = false →
    (row.val < 63 → (p.chainIn = false ∨ 0 < row.val) → ((s.array die a).cell (row.val + 1) col).wave = none → ∀ bad,
      ∃ t, exec (.waveHop dt die a row ⟨col, bad⟩) s = .next t ∧
        ((t.array die a).cell (row.val + 1) col).wave =
          some { w with val := addTerms w.val p.terms, checkFail := w.checkFail || bad && !p.terms.isEmpty } ∧
        (t.array die a).failRow = (if bad && !p.terms.isEmpty then (s.array die a).failRow.or (some row.val)
          else (s.array die a).failRow) ∧
        (t.array die a).cell row col = ((s.array die a).cell row col).pass w p ∧
        (t.array die a).bottom = (s.array die a).bottom ∧
        (∀ b, b < 32 → b ≠ a.val → t.array die b = s.array die b) ∧ t = { s.advance dt with arrays := t.arrays }) ∧
    (row.val = 0 → p.chainIn = true → 0 < a.val → ((s.array die a).cell 1 col).wave = none → ∀ bad,
      ∃ t, exec (.waveHop dt die a row ⟨col, bad⟩) s = .next t ∧
        ((t.array die a).cell 1 col).wave =
          some { w with val := addTerms w.val p.terms, checkFail := w.checkFail || bad && !p.terms.isEmpty } ∧
        (t.array die a).cell row col = ((s.array die a).cell row col).pass w p ∧
        (t.array die a).bottom = (s.array die a).bottom ∧
        t.array die (a.val - 1) = { s.array die (a.val - 1) with
          bottom := tabDel (s.array die (a.val - 1)).bottom col } ∧
        (∀ b, b < 32 → b ≠ a.val → b ≠ a.val - 1 → t.array die b = s.array die b) ∧
        t = { s.advance dt with arrays := t.arrays }) ∧
    (row.val = 63 → tabFind (s.array die a).bottom col = none → w.checkFail = false → (s.array die a).refusing = false →
      ∃ t, exec (.waveHop dt die a row ⟨col, false⟩) s = .next t ∧
        tabFind (t.array die a).bottom col =
          some { w with val := bottomVal p.chainOut (addTerms w.val p.terms), toLower := p.chainOut } ∧
        (t.array die a).cell row col = ((s.array die a).cell row col).pass w p ∧
        (∀ b, b < 32 → b ≠ a.val → t.array die b = s.array die b) ∧ t = { s.advance dt with arrays := t.arrays }) ∧
    (∀ bad, row.val = 63 → tabFind (s.array die a).bottom col = none →
      (w.checkFail = true ∨ (s.array die a).refusing = true ∨ (bad && !p.terms.isEmpty) = true) →
      ∃ t, exec (.waveHop dt die a row ⟨col, bad⟩) s = .next t ∧ (t.array die a).refusing = true ∧
        (t.array die a).bottom = (s.array die a).bottom.filter (fun e => e.2.toLower) ∧
        (t.array die a).cell row col = ((s.array die a).cell row col).pass w p ∧
        (∀ b, b < 32 → b ≠ a.val → t.array die b = s.array die b) ∧ t = { s.advance dt with arrays := t.arrays })

/-- DRAIN and SPILL_FLUSH: the front command of its ring that passes its checks, on a die in service, with nothing
before it in the way and none of its accesses held, runs to its completion: a drain writes what its pipeline or its
export gives, a flush arms its pair or spills its slots whole. One with an earlier command or a held access in the way
waits; one that reads a PARTIAL slot is ABORTED; one that names a die that is draining or out of service ends with
FAULTED. -/
def Obligations.DrainsAndFlushes : Prop :=
  ∀ (dt : Nat) (r : Fin 17) (seq : W16) (s u : State) (c : Cmd),
    (∀ d ∈ (s.ring r).cmds, d.seq = seq → d.start = none) → c.seq = seq → c.ring = r.val →
    (∀ (p : DrainP) (k : Nat) (held : Bool), Starts s dt r 0x14 c u → p = drainP c → k = ctxOfRing r →
      held = (u.drainBlocked c || u.dieWaits p.die || c.slots.any (fun x => u.arrayHeld x.1 x.2.1) ||
        u.anyStops (p.die / 2) (u.drainRanges k p)) →
      (∀ o, drainFail u c = some o → exec (.drain dt r seq) s = .next (u.badParam c o)) ∧
      (drainFail u c = none → p.usesStash = true → (u.mb k p.mb).gone = true →
        exec (.drain dt r seq) s = .next (u.complete c .aborted 0 [])) ∧
      (drainFail u c = none → (p.usesStash = true → (u.mb k p.mb).gone = false) → u.dieRefuses p.die = true →
        exec (.drain dt r seq) s = .next (u.complete c .faulted 0 [])) ∧
      (drainFail u c = none → (p.usesStash = true → (u.mb k p.mb).gone = false) → u.dieRefuses p.die = false →
        (held = true → exec (.drain dt r seq) s = .next (u.setWait c.ref .drainOrder none)) ∧
        (held = false → u.readsPartial c = true → exec (.drain dt r seq) s = .next (u.complete c .aborted 0 [])) ∧
        (∀ o, held = false → u.readsPartial c = false → u.pairFail p = some o →
          exec (.drain dt r seq) s = .next (u.badParam c o)) ∧
        (held = false → u.readsPartial c = false → u.pairFail p = none → ∀ v acc,
          (v, acc) = (if p.kind = 3 then u.exportRows k p else u.drainWrites k p (u.pipe k p)) →
          exec (.drain dt r seq) s = .next (v.endDrain c p acc)))) ∧
    (Starts s dt r 0x15 c u → firstFail (flushChecks u c) = none → u.dieRefuses (c.param 0 1) = true →
      exec (.spillFlush dt r seq) s = .next (u.complete c .faulted 0 [])) ∧
    (Starts s dt r 0x15 c u → firstFail (flushChecks u c) = none → u.dieRefuses (c.param 0 1) = false →
      (u.slotBusy c.startOrder c.slots = true ∨ u.entryBusy c.startOrder c.entries = true ∨ u.flushHeld c = true) →
      exec (.spillFlush dt r seq) s = .next (u.setWait c.ref .slotOrder none)) ∧
    (Starts s dt r 0x15 c u → firstFail (flushChecks u c) = none → u.dieRefuses (c.param 0 1) = false →
      u.slotBusy c.startOrder c.slots = false → u.entryBusy c.startOrder c.entries = false → u.flushHeld c = false →
      ((∃ i, i < c.param 3 1 ∧ c.param 4 1 < 2 ∧
          (u.array (c.param 0 1) (c.param 1 1)).part.toNat.testBit (c.param 2 1 + i) = true) →
        exec (.spillFlush dt r seq) s = .next (u.complete c .aborted 0 [])) ∧
      (2 ≤ c.param 4 1 → exec (.spillFlush dt r seq) s = .next ((u.armPair (c.param 0 1) (c.param 1 1) (c.param 2 1)
        (c.param 4 1 == 3) (c.param 0x10 2)).complete c .ok 0 [])) ∧
      (c.param 4 1 < 2 → (∀ i, i < c.param 3 1 →
          (u.array (c.param 0 1) (c.param 1 1)).part.toNat.testBit (c.param 2 1 + i) = false) →
        ∀ v n, (v, n) = (List.range (c.param 3 1)).foldl (fun acc i => flushSlot (c.param 0 1) (c.param 1 1)
            (addrOffset (c.param 8 8) + 32768 * i) (c.param 4 1 == 1) acc (c.param 2 1 + i)) (u, 0) →
          exec (.spillFlush dt r seq) s = .next ((v.modDie (c.param 0 1) (fun d => { d with
            spills := d.spills + c.param 3 1 })).complete c .ok 0 (bodyOf [(0, 2, c.param 3 1), (4, 4, n)]))))

/-! ### Micro-batches and sends (12) -/

/-- Admission, with no step close due: a forward admission that finds an entry, a reservation and its pins takes all
three, and becomes FORWARD and is counted where no hold of its pins is to be awaited; one that lacks something waits as
ADMITTING, is granted up to its deadline, and its timeout returns it to FREE with TIMEOUT; a backward admission at the
last stage needs no entry. -/
def Obligations.MicroBatchesAreAdmitted : Prop :=
  ∀ (dt : Nat) (r : Fin 17) (s u : State) (c : Cmd) (k m : Nat), c.ring = r.val → k = ctxOfRing r → m = c.param 0 1 →
    (s.advance dt).closeDue = false →
    (Starts s dt r 0x20 c u → lowestFail (admitChecks u c) = none →
      (∀ e b picks, c.param 1 1 = 0 → (u.mb k m).state = .free →
        (u.modMb k m (fun x => { x with state := .admitting })).admitAnswer c = .grant e b picks →
        (∀ p ∈ picks, (u.layer p.1).shards ≤ 1) → (∀ h ∈ u.coll.holdReqs, h.cmd ≠ c.ref) →
        ∃ t, exec (.mbAdmit dt r) s = .next t ∧ (t.mb k m).state = .forward ∧ (t.mb k m).fwdEntry = e ∧
          (t.mb k m).baseUnits = b ∧ (t.mb k m).sizeUnits = footprintUnits (c.param 0x10 8) ∧
          (t.ctx k).admissions = (s.ctx k).admissions + 1 ∧
          (∀ i, e = some i → (t.entry k false i).state = .taken ∧ (t.entry k false i).mb = m) ∧
          (t.mb k m).pins = picks.map (fun p => (p.1, ((u.layer p.1).slot p.2).serial, p.2)) ∧
          (∀ p ∈ picks, (t.layer p.1).slot p.2 =
            { (u.layer p.1).slot p.2 with pins := ((u.layer p.1).slot p.2).pins + 1 }) ∧
          (∀ l, l ∉ picks.map (·.1) → t.layer l = s.layer l) ∧
          (∀ m', m' ≠ m → t.mb k m' = s.mb k m') ∧ (∀ k', k' ≠ k → t.ctx k' = s.ctx k')) ∧
      (∀ cause, c.param 1 1 = 0 → (u.mb k m).state = .free →
        (u.modMb k m (fun x => { x with state := .admitting })).admitAnswer c = .lacks cause →
        exec (.mbAdmit dt r) s = .next ((u.modMb k m (fun x => { x with state := .admitting })).setWait c.ref .admission
          (if c.param 0x18 4 = 0 then none else some (u.tide + 1000 * c.param 0x18 4)))) ∧
      (c.param 1 1 = 0 → (u.mb k m).state ≠ .free → exec (.mbAdmit dt r) s = .next (u.complete c .busy 0 [])) ∧
      (c.param 1 1 = 1 → (u.mb k m).state = .forward → (u.ctxItem k).nextKind = 0 →
        ∃ t, exec (.mbAdmit dt r) s = .next t ∧ (t.mb k m).state = .backward ∧
          (∀ m', m' ≠ m → t.mb k m' = s.mb k m'))) ∧
    (∀ (ctx : Fin 16), s.waitingAdmit ctx = some c → c.param 1 1 = 0 →
      (∀ e b picks, (s.advance dt).admitAnswer c = .grant e b picks → (s.advance dt).past c.deadline = false →
        exec (.admissionGrant dt ctx) s = .next ((s.advance dt).grantAdmit c e b picks)) ∧
      (∀ d cause, c.deadline = some d → d ≤ (s.advance dt).tide → (s.advance dt).admitAnswer c = .lacks cause →
        exec (.admitTimeout dt ctx) s = .next (((s.advance dt).modMb (ctxOfRing c.ring) (c.param 0 1)
          (fun x => { x with state := .free })).complete c .timeout 0 [])))

/-- SEND_ACT and SEND_GRAD: without a peer on its side it is BAD_PARAM, and with a geometry mismatch, a die that is
draining, or a source on a die out of service, FAULTED; one whose die a repair holds waits to start. One that passes its
checks takes the lowest credit of its side and transfers: over a causeway it waits for the peer's receiver, into a local
peer it lands its frames in the entry and completes. Without a credit it waits, takes one that comes up to its deadline,
and completes with TIMEOUT where none comes in time. -/
def Obligations.SendsTakeCredits : Prop :=
  ∀ (dt : Nat) (r : Fin 17) (s u : State) (c : Cmd) (k m : Nat), k = ctxOfRing c.ring → m = c.param 0 1 →
    (∀ (i : Instr) (op kind port : Nat) (peerModule : W16) (peer room : Nat),
      (i = .sendAct dt r ∧ op = 0x21) ∨ (i = .sendGrad dt r ∧ op = 0x22) → Starts s dt r op c u →
      sendSide (u.ctxItem k) c.sendsBack = (kind, port, peerModule, peer, room) →
      (kind = 0 → exec i s = .next (u.complete c .badParam 0 [])) ∧
      (kind ≠ 0 → lowestFail (sendChecks u c) = none → (u.mb k m).sendable c.sendsBack = true →
        ((u.ctx k).mismatch c.sendsBack = true → exec i s = .next (u.complete c .faulted 0 [])) ∧
        ((u.ctx k).mismatch c.sendsBack = false →
          (u.dieRefuses (c.param 1 1) = true ∨ ∃ g ∈ sendSegments u c, u.keyServed g.1 = false) →
          exec i s = .next (u.complete c .faulted 0 [])) ∧
        ((u.ctx k).mismatch c.sendsBack = false → u.dieRefuses (c.param 1 1) = false →
          (∀ g ∈ sendSegments u c, u.keyServed g.1 = true) →
          (u.dieWaits (c.param 1 1) = true → exec i s = .next (s.advance dt)) ∧
          (∀ (spec : Bool) (v : State) (c1 : Cmd), u.dieWaits (c.param 1 1) = false →
            spec = (u.mbSpec (u.mb k m) || (c.sendsBack && (u.mb k m).bwdSpec.isSome)) →
            c1 = { c with
              aux := [b2n spec, u.commit.stepNumber.toNat]
              deadline := if c.param 0x14 4 = 0 then none else some (u.tide + 1000 * c.param 0x14 4) } →
            v = u.modCmd c.ref (fun d => { d with aux := c1.aux }) →
            (v.sendCredit c1 = none → exec i s = .next (v.setWait c.ref .credit c1.deadline)) ∧
            (∀ e, v.sendCredit c1 = some e → e < 64 ∧ exec i s = .next (v.transfer c1 e) ∧
              (kind = 1 → ∃ t, t = v.transfer c1 e ∧
                (c.sendsBack = false → t.ctx k = { s.ctx k with nextCredits := withBit (s.ctx k).nextCredits e false }) ∧
                (c.sendsBack = true → t.ctx k = { s.ctx k with prevCredits := withBit (s.ctx k).prevCredits e false }) ∧
                (∀ k', k' ≠ k → t.ctx k' = s.ctx k') ∧ (∀ p, p ≠ port → t.port p = s.port p) ∧
                t.mem = s.mem ∧ t.commit = s.commit) ∧
              (kind = 2 → v.transfer c1 e =
                ((sendFrames v c1 e spec u.commit.stepNumber).foldl (fun st f => st.arriveData peer f.2 f.1)
                  ((v.modCredits k c.sendsBack (fun w => withBit w e false)).modCmd c.ref (fun d => { d with
                    aux := [b2n spec, u.commit.stepNumber.toNat, e, v.tide] }))).endSend { c1 with
                      aux := [b2n spec, u.commit.stepNumber.toNat, e, v.tide] })))))) ∧
    (∀ e, (u.sendCredit c) = some e → u.sendHeld c e = false ∧
      (c.sendsBack = false → (u.ctx k).nextCredits.toNat.testBit e = true ∧
        ∀ j, j < e → (u.ctx k).nextCredits.toNat.testBit j = false) ∧
      (c.sendsBack = true → (u.ctx k).prevCredits.toNat.testBit e = true ∧
        ∀ j, j < e → (u.ctx k).prevCredits.toNat.testBit j = false)) ∧
    (∀ seq : W16, s.findWait r seq .credit = some c →
      (∀ e, (s.advance dt).sendCredit c = some e → (s.advance dt).past c.deadline = false →
        exec (.sendCreditTake dt r seq) s = .next ((s.advance dt).transfer c e)) ∧
      (∀ d, c.deadline = some d → d ≤ (s.advance dt).tide →
        ((s.advance dt).sendCredit c = none ∨ d < (s.advance dt).tide) →
        exec (.sendTimeout dt r seq) s = .next ((s.advance dt).complete c .timeout 0 [])))

/-- DATA, CREDIT and CHECKPOINT frames: the payload of a DATA frame lands in the bytes of the entry it names, which is
ARRIVING until its last byte and then READY, while another entry of that sluice that is still ARRIVING is discarded (log
27); a CREDIT frame gives back the entries of its mask, and on a CHECKPOINT port units; a CHECKPOINT frame leaves memory
alone; each of the three that the role of the port does not carry, and a DATA frame for another module, is discarded and
counted. -/
def Obligations.DataAndCreditFrames : Prop :=
  ∀ (dt : Nat) (p : Fin 24) (hdr : FrameHdr) (s : State), s.portActive p = true → (∀ n, (s.unit n).armed = false) →
    hdr.sendTide < (s.advance dt).tide →
    (∀ (f : DataF) (key n k : Nat), (s.roleOf p = 1 ∨ s.roleOf p = 2) → key = s.dataKey hdr f → n = f.payload.length →
      k = hdr.dstCtx → (s.advance dt).landHeld p [(key, n)] = false → s.dataFrameOk p hdr f = true →
      ∃ t, exec (.dataFrame dt p hdr f) s = .next t ∧ (t.port p).framesRx = ((s.port p).framesRx + 1) % 2 ^ 64 ∧
        (f.last = true → f.totalBytes ≤ (s.entry k f.bwd f.entry).bytes + n → f.spec = false →
          (s.entry k f.bwd f.entry).discard = false → (t.entry k f.bwd f.entry).state = .ready ∧
          (t.entry k f.bwd f.entry).tag = f.tag) ∧
        (f.last = false → (s.entry k f.bwd f.entry).last = false → (t.entry k f.bwd f.entry).state = .arriving ∧
          (t.entry k f.bwd f.entry).tag = f.tag ∧
          (t.entry k f.bwd f.entry).bytes = (s.entry k f.bwd f.entry).bytes + n) ∧
        (∀ e, e ≠ f.entry → (s.entry k f.bwd e).state = .arriving → (t.entry k f.bwd e).state = .empty) ∧
        t.mem = (s.write key f.payload).mem ∧ SameBut s t key n ∧
        (s.Inv → (∀ i, i < n → s.farFailed (key + i) = false) → t.read key n = f.payload) ∧
        (hdr.poison = true → ∀ x ∈ frameUnits key n, x ∈ t.poison) ∧
        (∀ k', k' ≠ k → t.ctx k' = s.ctx k')) ∧
    (∀ f : DataF, hdr.dstModule ≠ s.conf.address ∨ (s.roleOf p ≠ 1 ∧ s.roleOf p ≠ 2 ∧
        (s.advance dt).landHeld p [(s.dataKey hdr f, f.payload.length)] = false) →
      exec (.dataFrame dt p hdr f) s = .next ((s.advance dt).modPort p (fun x => { x with
        discarded := satAdd 32 x.discarded 1 }))) ∧
    (∀ f : CreditF, s.roleOf p ≠ 1 → s.roleOf p ≠ 2 → s.roleOf p ≠ 6 →
      exec (.creditFrame dt p hdr f) s = .next ((s.advance dt).modPort p (fun x => { x with
        discarded := satAdd 32 x.discarded 1 }))) ∧
    (∀ f : CheckpointF, s.roleOf p ≠ 6 → exec (.checkpointFrame dt p hdr f) s = .next ((s.advance dt).modPort p (fun x =>
      { x with discarded := satAdd 32 x.discarded 1 }))) ∧
    (∀ f : CreditF, (s.roleOf p = 1 ∨ s.roleOf p = 2) → (sendSide (s.ctxItem hdr.dstCtx) f.bwd).1 = 1 →
      (sendSide (s.ctxItem hdr.dstCtx) f.bwd).2.1 = p.val → (sendSide (s.ctxItem hdr.dstCtx) f.bwd).2.2.1 = hdr.srcModule →
      (sendSide (s.ctxItem hdr.dstCtx) f.bwd).2.2.2.1 = hdr.srcCtx →
      ∃ t, exec (.creditFrame dt p hdr f) s = .next t ∧
        (f.bwd = false → t.ctx hdr.dstCtx = { s.ctx hdr.dstCtx with
          nextCredits := (s.ctx hdr.dstCtx).nextCredits ||| f.entryMask }) ∧
        (f.bwd = true → t.ctx hdr.dstCtx = { s.ctx hdr.dstCtx with
          prevCredits := (s.ctx hdr.dstCtx).prevCredits ||| f.entryMask }) ∧
        (∀ k, k ≠ hdr.dstCtx → t.ctx k = s.ctx k) ∧ t.mem = s.mem) ∧
    (∀ f : CreditF, s.roleOf p = 6 → ∃ t, exec (.creditFrame dt p hdr f) s = .next t ∧
      (t.port p).ckptUnits = (s.port p).ckptUnits + f.ckptUnits ∧ t.ctxs = s.ctxs ∧ t.mem = s.mem) ∧
    (∀ f : CheckpointF, s.roleOf p = 6 → exec (.checkpointFrame dt p hdr f) s =
      .next ((s.advance dt).modPort p (fun x => { x with
        framesRx := (x.framesRx + 1) % 2 ^ 64, poisoned := if hdr.poison then satAdd 32 x.poisoned 1 else x.poisoned })))

/-- MB_RELEASE, its effect and the release of the reservation: a micro-batch is RELEASING until no command and no
speculation holds it, and then FREE, with its reservation returned. A drop and a rewind, as a step abort and a forced
drain carry them out: a dropped micro-batch is FREE with no pin, its commands complete with ABORTED, its backward entry
is discarded, its forward entry discarded where it is speculative and else returned as READY ahead of the others; a
rewound one is in FORWARD with its forward entry and its reservation. FREE_IN empties an entry, or leaves it FREEING
where the micro-batch is speculative. An idle sample counts at most once in 16 ticks, into IDLE_TOTAL and the counter of
its cause; the causes of an empty ring, of a pause and of a lone command that waits are stated. -/
def Obligations.MicroBatchesAreReleased : Prop :=
  ∀ (dt : Nat) (s u : State) (c : Cmd),
    (∀ (r : Fin 17) (m : Nat), Starts s dt r 0x23 c u → m = c.param 0 1 → m < 64 →
      (∀ i, 1 ≤ i → i < 64 → c.param i 1 = 0) →
      ((u.mb (ctxOfRing r) m).state = .forward ∨ (u.mb (ctxOfRing r) m).state = .backward →
        exec (.mbRelease dt r) s = .next ((u.modMb (ctxOfRing r) m (fun x => { x with state := .releasing })).setWait
          c.ref .release none)) ∧
      ((u.mb (ctxOfRing r) m).gone = true → exec (.mbRelease dt r) s = .next (u.complete c .aborted 0 []))) ∧
    (∀ (k : Fin 16) (m : Fin 64), s.mbCmds k m = [c] → c.opcode = 0x23 → (s.mb k m).state = .releasing →
      s.mbSpec (s.mb k m) = false → (s.mb k m).bwdSpec = none →
      ∃ t, exec (.releaseEffect dt k m) s = .next t ∧ (t.mb k m).state = .free ∧ (t.mb k m).fwdEntry = none ∧
        (t.mb k m).bwdEntry = none ∧ (t.mb k m).sizeUnits = 0 ∧ (∀ m', m' ≠ m.val → t.mb k m' = s.mb k m') ∧
        SameBut s t (hostKey (s.ring c.ring).wbAddr.toNat) 16) ∧
    (∀ (k : Fin 16) (m : Fin 64), (s.mb k m).releasing = true → s.stashHeld k m = false →
      exec (.reservationRelease dt k m) s = .next ((s.advance dt).modMb k m (fun x => { x with
        releasing := false, baseUnits := 0, sizeUnits := 0 }))) ∧
    (∀ (k m : Nat) (t : State), (∀ d ∈ (s.ring (k + 1)).cmds, d.ring = k + 1) → t = s.dropMb k m →
      (t.mb k m).state = .free ∧ (t.mb k m).dropped = true ∧ (t.mb k m).pins = [] ∧ (t.mb k m).sizeUnits = 0 ∧
      (t.mb k m).fwdEntry = none ∧ (t.mb k m).bwdEntry = none ∧ (∀ m', m' ≠ m → t.mb k m' = s.mb k m') ∧
      (t.ctx k).drops = satAdd 16 (s.ctx k).drops 1 ∧
      (∀ d ∈ s.mbCmds k m, t.findCmd d.ref = none) ∧
      (∀ d ∈ s.mbCmds k m, ∀ j x, d.silent = false → d.slot = some j → s.slot (k + 1) j = some x → x.marked = false →
        ∃ y, t.slot (k + 1) j = some y ∧ y.ready = true ∧ y.status = .aborted) ∧
      (∀ e, (s.mb k m).bwdEntry = some e → (t.entry k true e).state = .empty) ∧
      (∀ e, (s.mb k m).fwdEntry = some e →
        ((s.entry k false e).spec = true → (t.entry k false e).state = .empty) ∧
        ((s.entry k false e).spec = false →
          (t.entry k false e).state = .ready ∧ (t.entry k false e).returned = true))) ∧
    (∀ (k m : Nat) (t : State), (∀ d ∈ (s.ring (k + 1)).cmds, d.ring = k + 1) → t = s.rewindMb k m →
      (t.mb k m).state = .forward ∧ (t.mb k m).dropped = true ∧ (t.mb k m).bwdEntry = none ∧
      (t.mb k m).fwdEntry = (s.mb k m).fwdEntry ∧ (t.mb k m).sizeUnits = (s.mb k m).sizeUnits ∧
      (t.mb k m).baseUnits = (s.mb k m).baseUnits ∧ (∀ m', m' ≠ m → t.mb k m' = s.mb k m') ∧
      (t.ctx k).drops = satAdd 16 (s.ctx k).drops 1 ∧ (∀ d ∈ s.mbCmds k m, t.findCmd d.ref = none) ∧
      (∀ e, (s.mb k m).bwdEntry = some e → (t.entry k true e).state = .empty) ∧
      ((∀ d ∈ s.mbCmds k m, d.work ≠ .waiting .holds) → (t.mb k m).pins = (s.mb k m).pins)) ∧
    (∀ (k m e : Nat) (bwd spec : Bool), spec = (s.mbSpec (s.mb k m) || (s.mb k m).bwdSpec.isSome) →
      (if bwd then (s.mb k m).bwdEntry else (s.mb k m).fwdEntry) = some e →
      ((s.freeEntry k m bwd).entry k bwd e).state = (if spec then .freeing else .empty)) ∧
    (s.power.ready = true →
      ∃ t, exec (.idleSample dt) s = .next t ∧
        t = { s.advance dt with ctxs := t.ctxs, dies := t.dies, fresh := t.fresh } ∧
        (∀ k : Fin 16, ((s.ctx k).lastSample + 16 ≤ (s.advance dt).tide → (t.ctx k).lastSample = (s.advance dt).tide) ∧
          ((s.advance dt).tide < (s.ctx k).lastSample + 16 → t.ctx k = s.ctx k))) ∧
    (∀ (k : Fin 16) (v : State), s.power.ready = true → v = (s.advance dt).sampleEngines k →
      (s.ctx k).lastSample + 16 ≤ (s.advance dt).tide →
      (∀ j, j < 16 → j ≠ k.val → (s.advance dt).tide < (s.ctx j).lastSample + 16) →
      ∃ t, exec (.idleSample dt) s = .next t ∧
        (ctxBusy v k = true → t.ctx k = { s.ctx k with lastSample := (s.advance dt).tide }) ∧
        (ctxBusy v k = false → (t.ctx k).idleTotal = (s.ctx k).idleTotal + 16 ∧
          (∀ n, tabGet 0 (t.ctx k).idle n =
            tabGet 0 (s.ctx k).idle n + (if idleCause v k = some n ∧ n < 12 then 16 else 0)))) ∧
    (∀ k : Nat, ((s.ring (k + 1)).cmds = [] → idleCause s k = some 8) ∧
      ((∃ d ∈ (s.ring (k + 1)).cmds, heldByPause s d = true) → idleCause s k = some 0xA) ∧
      ((s.ring (k + 1)).cmds = [c] → heldByPause s c = false → c.start.isSome = true →
        (∀ d, c.namesDie = some d → s.diePaused d = false) →
        (heldRanges s c).2.any (fun r => s.rangeCut (heldRanges s c).1 r.1 r.2) = false →
        (c.work = .waiting .admission → c.param 1 1 = 1 → idleCause s k = some 1) ∧
        (∀ n, c.work = .waiting .admission → c.param 1 1 = 0 → s.admitAnswer c = .lacks n → idleCause s k = some n) ∧
        (c.work = .waiting .pins ∨ c.work = .waiting .holds → idleCause s k = some 3) ∧
        (c.work = .waiting .coll → idleCause s k = some 4) ∧ (c.work = .waiting .owners → idleCause s k = some 5) ∧
        (c.work = .waiting .credit → idleCause s k = some 7) ∧
        (c.work = .waiting .prefetchClose → idleCause s k = some 0xB)))

/-! ### Weight versions and holds (11) -/

/-- VERSION_PIN, with no step close due: a request granted with no hold to wait for pins one slot of every layer it
names and completes with OK; one that must wait waits WAIT µs, is granted whole when it can be up to its deadline, and
completes with TIMEOUT when its time has come; a version that is gone gives VERSION_GONE. -/
def Obligations.PinsAreGrantedWhole : Prop :=
  ∀ (dt : Nat) (r : Fin 17) (s u : State) (c : Cmd) (mb mode layer count : Nat) (serial : W16), c.ring = r.val →
    pinParams c = (mb, mode, layer, serial, count) → (s.advance dt).closeDue = false →
    (Starts s dt r 0x30 c u → mb < 64 → (u.mb (ctxOfRing r) mb).admitted = true → mode ≤ 3 →
      (2 ≤ mode ∨ serial = 0) → 1 ≤ count → layer + count ≤ 4096 → (mode = 2 → count = 1) →
      (∀ i, 12 ≤ i → i < 64 → c.param i 1 = 0) →
      (∀ l, u.pinAnswer (ctxOfRing r) mb mode serial layer count = .gone l →
        exec (.versionPin dt r) s = .next (u.complete c .versionGone l [])) ∧
      (u.pinAnswer (ctxOfRing r) mb mode serial layer count = .wait → c.param 8 4 ≠ 0 →
        exec (.versionPin dt r) s = .next (u.setWait c.ref .pins (some (u.tide + 1000 * c.param 8 4)))) ∧
      (∀ picks v, u.pinAnswer (ctxOfRing r) mb mode serial layer count = .grant picks →
        v = (u.takePins c.ref (ctxOfRing r) mb picks).1 →
        (v.holdsDone c.ref = true → exec (.versionPin dt r) s = .next ((v.dropHolds c.ref).complete c .ok 0 (v.pinBody c))) ∧
        (v.holdsDone c.ref = false → exec (.versionPin dt r) s = .next ((v.modCmd c.ref (fun d => { d with
          aux := (u.takePins c.ref (ctxOfRing r) mb picks).2 })).setWait c.ref .holds none)) ∧
        ((∀ p ∈ picks, (u.layer p.1).shards ≤ 1 ∧ (u.mb (ctxOfRing r) mb).pinOn p.1 = none) →
          (∀ h ∈ u.coll.holdReqs, h.cmd ≠ c.ref) → v.holdsDone c.ref = true ∧
          (v.mb (ctxOfRing r) mb).pins = (s.mb (ctxOfRing r) mb).pins ++
            picks.map (fun p => (p.1, ((u.layer p.1).slot p.2).serial, p.2)) ∧
          picks.map (·.1) = (List.range count).map (fun i => layer + i) ∧
          (∀ p ∈ picks, (v.layer p.1).slot p.2 =
            { (u.layer p.1).slot p.2 with pins := ((u.layer p.1).slot p.2).pins + 1 }) ∧
          (∀ l', (l' < layer ∨ layer + count ≤ l') → v.layer l' = s.layer l')))) ∧
    (∀ (seq : W16) (d : Cmd), s.findWait r seq .pins = some d →
      (∀ l, (s.advance dt).past d.deadline = false →
        (s.advance dt).pinAnswer (ctxOfRing d.ring) (pinParams d).1 (pinParams d).2.1 (pinParams d).2.2.2.1
          (pinParams d).2.2.1 (pinParams d).2.2.2.2 = .gone l →
        exec (.pinGrant dt r seq) s = .next ((s.advance dt).complete d .versionGone l [])) ∧
      (∀ picks v, (s.advance dt).pinAnswer (ctxOfRing d.ring) (pinParams d).1 (pinParams d).2.1 (pinParams d).2.2.2.1
          (pinParams d).2.2.1 (pinParams d).2.2.2.2 = .grant picks →
        (s.advance dt).past d.deadline = false →
          v = ((s.advance dt).takePins d.ref (ctxOfRing d.ring) (pinParams d).1 picks).1 → v.holdsDone d.ref = true →
        exec (.pinGrant dt r seq) s = .next ((v.dropHolds d.ref).complete d .ok 0 (v.pinBody d))) ∧
      (∀ e, d.deadline = some e → e ≤ (s.advance dt).tide →
        exec (.pinTimeout dt r seq) s = .next ((s.advance dt).complete d .timeout 0 [])))

/-- VERSION_UNPIN and the lives of versions and holds: pins released are counted, a dropped or rewound micro-batch's
request is ABORTED; an OLD slot's grace ends at its
Tidemark; a hold that no owner acknowledges within 1 ms fails its request; a holder renews, and its lease ends with a
record where it does not. -/
def Obligations.VersionsRetire : Prop :=
  ∀ (dt : Nat) (s u : State) (c : Cmd),
    (∀ (r : Fin 17) (layer count mb : Nat) (held : List Nat), Starts s dt r 0x31 c u → mb = c.param 0 1 →
      layer = c.param 2 2 → count = c.param 6 2 → mb < 64 → (u.mb (ctxOfRing r) mb).admitted = true → 1 ≤ count →
      layer + count ≤ 4096 → (∀ i, i = 1 ∨ i = 4 ∨ i = 5 ∨ (8 ≤ i ∧ i < 64) → c.param i 1 = 0) →
      held = ((List.range count).map (fun i => layer + i)).filter (fun l => ((u.mb (ctxOfRing r) mb).pinOn l).isSome) →
      ((u.mb (ctxOfRing r) mb).dropped = false → exec (.versionUnpin dt r) s =
        .next ((u.unpinLayers (ctxOfRing r) mb held).complete c .ok 0
          (bodyOf [(0, 2, held.length), (2, 2, count - held.length)]))) ∧
      ((u.mb (ctxOfRing r) mb).dropped = true → exec (.versionUnpin dt r) s = .next (u.complete c .aborted 0 []))) ∧
    (∀ (l : Fin 4096) (i : Fin 8), ((s.layer l).slot i).state = .old → ((s.layer l).slot i).grace = true →
      ((s.layer l).slot i).graceEnd ≤ (s.advance dt).tide → exec (.graceExpiry dt l i) s =
        .next (((s.advance dt).modVSlot l i (fun x => { x with grace := false })).retire l)) ∧
    (∀ (r : Fin 17) (seq : W16) (h : HoldReq), s.findWait r seq .holds = some c → h ∈ s.coll.holdReqs → h.cmd = c.ref →
      h.waiting ≠ [] → h.sentAt + 1000000 ≤ (s.advance dt).tide →
      exec (.holdTimeout dt r seq) s = .next ((s.advance dt).failHolds c .faulted 0)) ∧
    (∀ (l : Fin 4096) (i : Fin 8), ((s.layer l).slot i).state ≠ .free → 0 < ((s.layer l).slot i).pins →
      1 < (s.layer l).shards → ((s.layer l).slot i).renewAt ≤ (s.advance dt).tide →
      ∃ t, exec (.holdRenewal dt l i) s = .next t ∧
        (t.layer l).slot i = { (s.layer l).slot i with renewAt := (s.advance dt).tide + 20000000 } ∧
        (∀ m, m ≠ l.val → t.layer m = s.layer m) ∧ t.mem = s.mem) ∧
    (∀ (l : Fin 4096) (i : Fin 8) (m : W16) (h : W16 × Nat × Nat), ((s.layer l).slot i).holds = [h] → h.1 = m →
      h.2.2 < (s.advance dt).tide →
      exec (.holdLeaseExpiry dt l i m) s = .next ((((s.advance dt).modVSlot l i (fun x => { x with holds := [] })).logRec
        0 0x0080 sevWarning h.2.2 2 (l.val * 65536 + ((s.layer l).slot i).serial.toNat)).retire l))

/-- SHARD_GATHER and SHARD frames: a gather that passes its checks over a version of the layout epoch in force copies
its own shard and asks the owners of the others; one that names a die that is draining or out of service ends with
FAULTED, one whose die a repair holds waits to start. HOLD of a live version is noted until 100 ms later and
acknowledged, of one that is gone refused, RELEASE ends it, and a frame of another epoch is discarded and counted by its
switch tile. -/
def Obligations.ShardsAreHeldAndGathered : Prop :=
  ∀ (dt : Nat) (s : State),
    (∀ (r : Fin 17) (c : Cmd) (u : State), Starts s dt r 0x32 c u → lowestFail (gatherChecks u c) = none →
      u.gatherSlot (ctxOfRing r) (c.param 1 1) (c.param 2 2) (BitVec.ofNat 16 (c.param 4 2)) = none →
      (c.param 1 1 = 0xFF ∨ (u.mb (ctxOfRing r) (c.param 1 1)).gone = false) →
      exec (.shardGather dt r) s = .next (u.complete c .versionGone 0 [])) ∧
    (∀ (r : Fin 17) (c : Cmd) (u : State) (i : Nat), Starts s dt r 0x32 c u → lowestFail (gatherChecks u c) = none →
      u.gatherSlot (ctxOfRing r) (c.param 1 1) (c.param 2 2) (BitVec.ofNat 16 (c.param 4 2)) = some i →
      (c.param 1 1 = 0xFF ∨ c.param 1 1 < 64 ∧ (u.mb (ctxOfRing r) (c.param 1 1)).admitted = true ∧
        (u.mb (ctxOfRing r) (c.param 1 1)).pinOn (c.param 2 2) = some (BitVec.ofNat 16 (c.param 4 2))) →
      (((u.layer (c.param 2 2)).slot i).epoch ≠ u.commit.layoutEpoch →
        exec (.shardGather dt r) s = .next (u.complete c .epochStale 0 [])) ∧
      (((u.layer (c.param 2 2)).slot i).epoch = u.commit.layoutEpoch →
        (u.dieRefuses (c.param 0 1) = true ∨ u.ownServed c = false →
          exec (.shardGather dt r) s = .next (u.complete c .faulted 0 [])) ∧
        (u.dieRefuses (c.param 0 1) = false → u.ownServed c = true →
          (u.dieWaits (c.param 0 1) = true → exec (.shardGather dt r) s = .next (s.advance dt)) ∧
          (u.dieWaits (c.param 0 1) = false → ∃ t, exec (.shardGather dt r) s = .next t ∧ t = u.startGather c i ∧
            (∀ rank q, c.param 6 2 ≤ rank → rank < c.param 6 2 + c.param 8 2 →
              rank ≠ (u.layer (c.param 2 2)).ownShard → u.rankPort rank = some q →
              ∃ h : FrameHdr, h.dstModule = (tabGet {} u.coll.shardMap rank).module ∧ h.srcModule = u.conf.address ∧
                ∀ g : Frame, g = ⟨h, .gather {
                  collId := BitVec.ofNat 32 (c.param 0x28 4), kind := 3, epoch := u.commit.layoutEpoch,
                  rank := u.coll.ownRank, dstRank := rank, layer := c.param 2 2,
                  serial := BitVec.ofNat 16 (c.param 4 2), shard := rank }⟩ →
                g ∈ (t.port q).queue ∨ g ∈ (t.port q).sent) ∧
            (∀ (l : Layer) (g : ShardGet), l = u.layer (c.param 2 2) → u.findCmd c.ref = some c →
              c.param 6 2 ≤ l.ownShard → l.ownShard < c.param 6 2 + c.param 8 2 →
              (l.slot i).serial = BitVec.ofNat 16 (c.param 4 2) → (l.slot i).whole = true → fmtIsMx l.workFmt = false →
              g = { cmd := c.ref, collId := BitVec.ofNat 32 (c.param 0x28 4), layer := c.param 2 2,
                    serial := BitVec.ofNat 16 (c.param 4 2), slot := i, first := c.param 6 2, count := c.param 8 2 } →
              u.ownHeld c g = false →
              t.mem = (u.copy (l.workOf i) (gatherDest u c g 0 l.ownShard) l.workBytes).mem ∧
              t.poison = (u.copy (l.workOf i) (gatherDest u c g 0 l.ownShard) l.workBytes).poison))))) ∧
    (∀ (p : Fin 24) (hdr : FrameHdr) (f : ShardF), s.portActive p = true → s.roleOf p = 5 →
      (∀ n, (s.unit n).armed = false) →
      hdr.dstModule = s.conf.address → hdr.sendTide < (s.advance dt).tide →
      (f.epoch ≠ s.commit.layoutEpoch → exec (.shardFrame dt p hdr f) s = .next
        (((s.advance dt).acceptFrame p hdr (.shard f)).modTile (p.val / 4) (fun x => { x with
          discard := satAdd 32 x.discard 1 }))) ∧
      (∀ i rank, f.epoch = s.commit.layoutEpoch → f.kind = 0 →
        (s.layer f.layer).holdIdx f.serial hdr.srcModule f.reqId = some i →
        s.rankOf hdr.srcModule = some rank →
        ∃ t, exec (.shardFrame dt p hdr f) s = .next t ∧
          (t.layer f.layer).slot i = ((s.layer f.layer).slot i).hold hdr.srcModule f.reqId
            ((s.advance dt).tide + 100000000) ∧
          (∀ q, s.rankPort rank = some q → ∃ h : FrameHdr, h.dstModule = (tabGet {} s.coll.shardMap rank).module ∧
            h.srcModule = s.conf.address ∧ ∀ g : Frame, g = ⟨h, .shard {
              kind := 2, layer := f.layer, serial := f.serial, dstRank := rank, epoch := s.commit.layoutEpoch,
              reqId := f.reqId }⟩ →
            g ∈ (t.port q).queue ∨ g ∈ (t.port q).sent) ∧
          (∀ l, l ≠ f.layer → t.layer l = s.layer l) ∧ t.mem = s.mem) ∧
      (∀ rank q, f.epoch = s.commit.layoutEpoch → f.kind = 0 →
        (s.layer f.layer).holdIdx f.serial hdr.srcModule f.reqId = none →
        ((s.layer f.layer).defined = false ∨ serialNewer f.serial (s.layer f.layer).newest = false) →
        s.rankOf hdr.srcModule = some rank → s.rankPort rank = some q →
        ∃ t, exec (.shardFrame dt p hdr f) s = .next t ∧ t.layers = s.layers ∧
          (∃ h : FrameHdr, h.dstModule = (tabGet {} s.coll.shardMap rank).module ∧ h.srcModule = s.conf.address ∧
            ∀ g : Frame, g = ⟨h, .shard {
              kind := 3, layer := f.layer, serial := f.serial, dstRank := rank, epoch := s.commit.layoutEpoch,
              reqId := f.reqId }⟩ →
            g ∈ (t.port q).queue ∨ g ∈ (t.port q).sent)) ∧
      (∀ i, f.epoch = s.commit.layoutEpoch → f.kind = 1 →
        (s.layer f.layer).holdIdx f.serial hdr.srcModule f.reqId = some i →
        ((s.layer f.layer).slot i).state ≠ .old →
        ∃ t, exec (.shardFrame dt p hdr f) s = .next t ∧ (t.layer f.layer).slot i = { (s.layer f.layer).slot i with
            holds := ((s.layer f.layer).slot i).holds.filter (fun h => !(h.1 == hdr.srcModule && h.2.1 == f.reqId)) } ∧
          (∀ l, l ≠ f.layer → t.layer l = s.layer l) ∧ t.mem = s.mem))

/-! ### The update engine (13) -/

/-- UPDATE_LAYER and PREFETCH_STATE: one that passes its checks waits for its run, or copies the committed state into
the landing buffer and leaves a staging entry, or waits for the close; one that names a die that is draining or out of
service, or memory there, ends with FAULTED, one whose die a repair holds waits to start. A part whose waits have ended
in time takes the engine, and its version begins; an engine that is busy leaves it waiting. A wait under R271 that is
over completes with TIMEOUT, and a part of the open step that ends so fails its layer. -/
def Obligations.UpdatesStartAndWait : Prop :=
  ∀ (dt : Nat) (r : Fin 17) (seq : W16) (s u : State) (c : Cmd),
    (Starts s dt r 0x40 c u →
      (∀ o, o ≠ 0x10 → firstFail (updChecks u c) = some o → exec (.updateLayer dt r) s =
        .next ((u.failWaiting c).complete c .badParam (64 + o) (bodyOf [(3, 1, 0)]))) ∧
      (firstFail (updChecks u c) = none →
        (u.dieRefuses (updP c).die = true ∨ u.partServed (updP c) = false →
          exec (.updateLayer dt r) s = .next ((u.failWaiting c).complete c .faulted 0 [])) ∧
        (u.dieRefuses (updP c).die = false → u.partServed (updP c) = true →
          (u.dieWaits (updP c).die = true → exec (.updateLayer dt r) s = .next (s.advance dt)) ∧
          (u.dieWaits (updP c).die = false → u.progPoison (updP c) = none → exec (.updateLayer dt r) s =
            .next ((u.setWait c.ref .update
              (if c.param 0x3C 4 = 0 then none else some (u.tide + 1000 * c.param 0x3C 4))).modCmd c.ref (fun d => { d with
                aux := [0, u.tide, b2n (updateCause u c).isSome, 0] })))))) ∧
    (∀ (die layer src dst n : Nat), Starts s dt r 0x33 c u → (∀ d ∈ (s.ring r).cmds, d.seq = seq → d.start = none) →
      c.seq = seq → lowestFail (prefetchChecks u c) = none → die = c.param 0 1 → layer = c.param 2 2 →
      src = (if (u.layer layer).stateSel then c.param 0x18 8 else c.param 0x10 8) → dst = c.param 0x20 8 →
      n = 4 * c.param 1 1 * c.param 8 4 →
      (u.dieRefuses die = true ∨ ((u.layer layer).hasProvisional = false ∧ u.stagedServed c = false) →
        exec (.prefetchState dt r seq) s = .next (u.complete c .faulted 0 [])) ∧
      (u.dieRefuses die = false → (u.layer layer).hasProvisional = false → u.stagedServed c = true →
        u.stagedHeld c = false → ∃ t, exec (.prefetchState dt r seq) s = .next t ∧ t = u.stageCopy c ∧
          SameBut (u.copy src dst n) t (hostKey (s.ring c.ring).wbAddr.toNat) 16 ∧
          (∃ x ∈ (t.die die).staging, x.layer = layer ∧ x.elemFirst = c.param 4 4 ∧ x.elemCount = c.param 8 4 ∧
            x.landAddr = dst ∧ x.stateSel = (u.layer layer).stateSel) ∧ (∀ d, d ≠ die → t.die d = s.die d)) ∧
      (u.dieRefuses die = false →
        ((u.layer layer).hasProvisional = true ∨ (u.stagedServed c = true ∧ u.stagedHeld c = true)) →
        exec (.prefetchState dt r seq) s = .next
          (u.setWait c.ref .prefetchClose (if c.param 0x28 4 = 0 then none else some (u.tide + 1000 * c.param 0x28 4))))) ∧
    (s.findWait r seq .prefetchClose = some c → ∀ d, c.deadline = some d → d ≤ (s.advance dt).tide →
      exec (.prefetchTimeout dt r seq) s = .next ((s.advance dt).complete c .timeout 0 [])) ∧
    (∀ (p : UpdP) (nstate : Nat), s.findWait r seq .update = some c → p = updP c →
      nstate = ((s.advance dt).progImage (((s.advance dt).resolve [0, 1] (some p.die) p.prog 64).getD 0)).nstate →
      (updateCause (s.advance dt) c = none → (s.advance dt).updLate c = false → (s.die p.die).engine = none →
        (s.advance dt).partHeld p nstate = false →
        ((∃ n, (s.layer p.layer).partsTotal = some n ∧ n ≠ p.parts) → exec (.updatePartRun dt r seq) s =
          .next (((s.advance dt).failWaiting c).complete c .badParam 0x46 ((s.advance dt).waitBody c))) ∧
        ((s.layer p.layer).partsTotal = some p.parts ∨ (s.layer p.layer).partsTotal = none →
          ((s.advance dt).partServed p = false → exec (.updatePartRun dt r seq) s =
            .next (((s.advance dt).failWaiting c).complete c .faulted 0 ((s.advance dt).waitBody c))) ∧
          ((s.advance dt).partServed p = true → ∃ t, exec (.updatePartRun dt r seq) s = .next t ∧
            t = (s.advance dt).startPart c ∧ t.mem = s.mem ∧
            (∃ e, (t.die p.die).engine = some e ∧ e.cmd = c.ref ∧ e.elem = 0 ∧ e.pc = 0 ∧ e.norms = [0, 0, 0, 0] ∧
              e.layer = p.layer ∧ e.part = p.part) ∧
            (∀ i, (s.layer p.layer).stateIdx .writing = none → (s.layer p.layer).stateIdx .free = some i →
              (t.layer p.layer).newest = (s.layer p.layer).newest + 1 ∧
              (t.layer p.layer).slot i = {
                serial := (s.layer p.layer).newest + 1, state := .writing, epoch := s.commit.layoutEpoch })))) ∧
      ((s.die p.die).engine.isSome = true ∨ (updateCause (s.advance dt) c).isSome = true ∨
          (s.advance dt).updLate c = true →
        exec (.updatePartRun dt r seq) s = .next (s.advance dt)) ∧
      ((s.advance dt).updLate c = true ∨
          ((∃ d, c.deadline = some d ∧ d ≤ (s.advance dt).tide) ∧ (updateCause (s.advance dt) c).isSome = true) →
        exec (.updateTimeout dt r seq) s =
          .next (((s.advance dt).failWaiting c).complete c .timeout 0 ((s.advance dt).waitBody c))) ∧
      (s.ofOpenStep c = true → (∃ i, (s.layer p.layer).stateIdx .writing = some i) →
        ((s.failWaiting c).layer p.layer).failed = true))

/-- The arithmetic of the update engine: each of the eleven instructions writes, lane by lane, its function of the
operands into register D and steps on; no other register, no memory, no other die and nothing else of the module
changes. -/
def Obligations.EngineArithmetic : Prop :=
  ∀ (dt : Nat) (die : Fin 12) (s : State) (e : Engine) (c : Cmd) (w : W32) (i : Instr) (op : Nat)
    (g : W32 → W32 → W32 → W32 → Nat → W32),
    (s.die die).engine = some e → s.findCmd e.cmd = some c → (s.advance dt).partHeld (updP c) e.nstate = false →
    w = e.prog.getD e.pc 0 → iOp w = op →
    ((i = .fma dt die ∧ op = 0x01 ∧ g = fun a b c _ _ => f32Fma a b c) ∨
      (i = .mul dt die ∧ op = 0x02 ∧ g = fun a b _ _ _ => f32Mul a b) ∨
      (i = .add dt die ∧ op = 0x03 ∧ g = fun a b _ _ _ => f32Add a b) ∨
      (i = .sub dt die ∧ op = 0x04 ∧ g = fun a b _ _ _ => f32Sub a b) ∨
      (i = .rcp dt die ∧ op = 0x05 ∧ g = fun a _ _ _ _ => numDivF32 numOne (ofF32 a)) ∨
      (i = .sqrt dt die ∧ op = 0x06 ∧ g = fun a _ _ _ _ => numSqrtF32 (ofF32 a)) ∨
      (i = .rsqrt dt die ∧ op = 0x07 ∧ g = fun a _ _ _ _ => numRsqrtF32 (ofF32 a)) ∨
      (i = .min dt die ∧ op = 0x08 ∧ g = fun a b _ _ _ => f32Min a b) ∨
      (i = .max dt die ∧ op = 0x09 ∧ g = fun a b _ _ _ => f32Max a b) ∨
      (i = .clamp dt die ∧ op = 0x0A ∧ g = fun a b c _ _ => f32Min (f32Max a b) c) ∨
      (i = .sel dt die ∧ op = 0x0B ∧ g = fun a b c d x => if f32Cmp x a b then c else d)) →
    ∃ t e', exec i s = .next t ∧ (t.die die).engine = some e' ∧
      (∀ lane, lane < e.lanes → (tabGet [] e'.regs (iD w)).getD lane 0 =
        g (e.operand (iA w) lane) (e.operand (iB w) lane) (e.operand (iC w) lane) (e.operand (iD w) lane) (iX w)) ∧
      (∀ k, k ≠ iD w → tabGet [] e'.regs k = tabGet [] e.regs k) ∧ e' = { e with regs := e'.regs, pc := e.pc + 1 } ∧
      (∀ m, m ≠ die.val → t.die m = s.die m) ∧ t.die die = { s.die die with engine := some e' } ∧
      t = { s.advance dt with dies := t.dies }

/-- The engine's sums, stores and ends: NACC adds into a norm, or the lane sum into register D; STS writes its state
word, counts and reports what is not finite, and touches no other byte; STW converts and writes, with free values as its
random bits where X asks for them, and one of an MX format holds its values until 32 are there; NEXTPASS and END go to
the next element, and after the last one to pass 2 or to the part's end. -/
def Obligations.EngineStores : Prop :=
  ∀ (dt : Nat) (die : Fin 12) (s : State) (e : Engine) (c : Cmd) (w : W32),
    (s.die die).engine = some e → s.findCmd e.cmd = some c → (s.advance dt).partHeld (updP c) e.nstate = false →
    w = e.prog.getD e.pc 0 →
    (iOp w = 0x0C → iX w < 4 → exec (.nacc dt die) s = .next ((s.advance dt).setEngine die (some { e with
      norms := e.norms.set (iX w) ((List.range e.lanes).foldl
        (fun acc i => f32Fma (e.operand (iA w) i) (e.operand (iB w) i) acc) (e.norms.getD (iX w) 0)),
      pc := e.pc + 1 }))) ∧
    (iOp w = 0x0C → iX w = 4 → exec (.nacc dt die) s = .next ((s.advance dt).setEngine die (some { e with
      regs := tabSet e.regs (iD w) (List.replicate e.lanes (laneDot (e.operand (iA w)) (e.operand (iB w))))
      pc := e.pc + 1 }))) ∧
    (∀ vals key, iOp w = 0x0D → vals = (List.range e.lanes).map (fun i => e.operand (iA w) i) →
      key = (updP c).provisional (s.layer e.layer).stateSel + 4 * (iX w * (updP c).map.count + e.elem) →
      ∃ t e', exec (.sts dt die) s = .next t ∧ t.mem = (s.write key (f32Bytes vals)).mem ∧
        SameBut s t key (4 * e.lanes) ∧ t.poison = (s.write key (f32Bytes vals)).poison ∧
        (t.die die).engine = some e' ∧ e'.pc = e.pc + 1 ∧ e'.regs = e.regs ∧
        e'.nonfinite = e.nonfinite + (vals.filter f32NonFinite).length ∧
        ((∀ v ∈ vals, f32NonFinite v = false) → t.step = s.step ∧ (t.die die).updNonfinite = (s.die die).updNonfinite) ∧
        ((∃ v ∈ vals, f32NonFinite v = true) → t.step.localNonfinite = true)) ∧
    (∀ (l : Layer) (held : List (Nat × W32 × Bool)), iOp w = 0x0E → iX w < 2 → l = s.layer e.layer →
      held = e.mxBlock ++ (List.range e.lanes).map (fun i => (e.elem + i, e.operand (iA w) i, decide (iX w = 1))) →
      (fmtIsMx l.workFmt = true → held.length < 32 →
        exec (.stw dt die) s = .next ((s.advance dt).setEngine die (some { e with mxBlock := held, pc := e.pc + 1 }))) ∧
      (∀ v rnd, fmtIsMx l.workFmt = false ∨ 32 ≤ held.length →
        ((iX w = 0 ∧ v = s.advance dt ∧ rnd = held.map (fun _ => none)) ∨
          (iX w = 1 ∧ v = ((s.advance dt).draws held.length).2 ∧
            rnd = ((s.advance dt).draws held.length).1.map some)) →
        ∃ t e', exec (.stw dt die) s = .next t ∧ t.mem = (v.putWork l e.slotIndex (updP c).map
            ((updP c).map.first + (held.headD (0, 0, false)).1) (held.map (·.2.1)) rnd).1.mem ∧
          (t.die die).engine = some e' ∧ e'.pc = e.pc + 1 ∧ e'.mxBlock = [] ∧ t.layers = s.layers)) ∧
    (iOp w = 0x0F → e.elem + e.lanes < (updP c).map.count → exec (.nextpass dt die) s =
      .next ((s.advance dt).setEngine die (some ((s.advance dt).loadElem { e with elem := e.elem + e.lanes } (updP c))))) ∧
    (iOp w = 0x0F → (updP c).map.count ≤ e.elem + e.lanes → exec (.nextpass dt die) s =
      .next ((s.advance dt).setEngine die (some ((s.advance dt).loadElem { e with
        elem := 0, pass2 := true, s12 := e.norms.getD 0 0, s13 := e.norms.getD 1 0 } (updP c))))) ∧
    (∀ v, iOp w = 0 → v = (s.advance dt).modDie die (fun d => { d with
        updElements := (d.updElements + e.lanes) % 2 ^ 64 }) →
      (e.elem + e.lanes < (updP c).map.count → exec (.endElem dt die) s =
        .next (v.setEngine die (some (v.loadElem { e with elem := e.elem + e.lanes } (updP c))))) ∧
      ((updP c).map.count ≤ e.elem + e.lanes → exec (.endElem dt die) s =
        .next (v.endPart c (updP c) { e with elem := e.elem + e.lanes })))

/-! ### Causeways and training (02, 14) -/

/-- TIME frames: one that is sent carries the latest frame's times, HOPS and the time state, with its own SEND_TIDE; one
that is received is kept, gives the link delay where it echoes, and outside the alignment step never moves Tidemark: on
the port that the module aligns from it gives the offset that is slewed away. In the alignment step an echoing frame of
an aligned neighbour gives Tidemark itself, and the module is ready. In service one that changes ALIGNED is taken only
after its SEND_TIDE. -/
def Obligations.TimeFramesAreExchanged : Prop :=
  ∀ (dt : Nat) (p : Fin 24) (s : State), s.portActive p = true → 1 ≤ s.roleOf p → s.roleOf p ≤ 6 →
    ((s.port p).queue = [] → (s.port p).unacked < 256 → (∀ n, (s.unit n).armed = false) →
      ∃ t, exec (.timeFrameSend dt p) s = .next t ∧
        (t.port p).sent = (s.port p).sent ++ [⟨{
            dstModule := (s.portItem p).peerModule, srcModule := s.conf.address, sendTide := (s.advance dt).tide },
          .time {
            echoSend := ((s.port p).lastTime.getD (0, 0)).1, echoRx := ((s.port p).lastTime.getD (0, 0)).2,
            hops := ownHops (s.advance dt), aligned := s.time.aligned, reference := s.conf.isReference,
            syncIn := s.time.source == 1, errorEst := s.time.errorEst }⟩] ∧
        (t.port p).framesTx = (s.port p).framesTx + 1 ∧ (t.port p).unacked = (s.port p).unacked + 1 ∧
        (∀ q, q ≠ p.val → t.port q = s.port q) ∧ t = { s.advance dt with ports := t.ports }) ∧
    (∀ (hdr : FrameHdr) (f : TimeF) (t : State), exec (.timeFrameReceive dt p hdr f) s = .next t → s.power.ready = true →
      t.time.aligned ≠ s.time.aligned → hdr.sendTide < (s.advance dt).tide) ∧
    (∀ (hdr : FrameHdr) (f : TimeF) (d2 : Int), d2 = doubleDelay (s.advance dt).tide hdr.sendTide f →
      (s.power.ready = false ∨ hdr.sendTide < (s.advance dt).tide) →
      ∃ t, exec (.timeFrameReceive dt p hdr f) s = .next t ∧ (t.port p).peerHops = f.hops ∧
        (t.port p).peerAligned = f.aligned ∧ (t.port p).lastRx = (s.advance dt).tide ∧
        (t.port p).lastTime = some (hdr.sendTide, (s.advance dt).tide) ∧
        (f.echoSend ≠ 0 → (t.port p).delay = min 0xFFFF (5 * d2).toNat) ∧
        (f.echoSend = 0 → (t.port p).delay = (s.port p).delay) ∧
        (s.power.step ≠ 10 → t.tide = (s.advance dt).tide ∧ ∀ q, q ≠ p.val → t.port q = s.port q) ∧
        (s.power.phase = .serving → s.power.step = 10 → f.echoSend ≠ 0 → f.aligned = true →
          t.tide = hdr.sendTide + (d2 / 2).toNat ∧ t.power.ready = true ∧ t.power.step = 11 ∧
          t.commit.lastCommitTide = t.tide ∧ t.time.hops = min 0xFF (f.hops + 1)) ∧
        (s.power.step ≠ 10 → s.power.ready = true → s.conf.refPort = p.val → s.conf.isReference = false →
          s.conf.sourceSelect ≠ 1 → s.time.source ≠ 1 → f.echoSend ≠ 0 → f.hops ≠ 0xFF →
          t.time.slew = (hdr.sendTide : Int) + d2 / 2 - (s.advance dt).tide ∧ t.time.hops = min 0xFF (f.hops + 1)) ∧
            t.mem = s.mem ∧ t.layers = s.layers)

/-- The training of a link: a look at the peer, at most every 1 ms, takes DETECT to CALIBRATE; then ALIGN with the first
attempt, where lanes below the margin fail; WIDTH after symbol lock; an offer of the attempt is answered with what both
ends agree on, and the confirm of the same lanes takes the link to VERIFY, or to ROLE_WAIT where the roles do not pair;
the last of its test codewords takes it to ACTIVE, and one that cannot be corrected fails its worst lane and the
attempt. The exchange begins again 1 ms after it began in ROLE_WAIT, or after 20 µs without agreement; after the third
failed attempt comes the fallback exchange, and after that DOWN, each failure counting as a second fault where the link
is in recovery. A training block whose CRC fails is ignored, a good one sends an ACTIVE port back to ALIGN and is taken
in WIDTH and ROLE_WAIT; a good codeword that is next in order is taken, and a bad one, or one that ends a frame with a
wrong CRC, asks for a replay. -/
def Obligations.LinksTrain : Prop :=
  ∀ (dt : Nat) (s : State),
    (∀ p : Fin 24, ((s.port p).train.state = .detect ∨ (s.port p).train.state = .down) → p.val < s.nPorts →
      (∀ t0, (s.port p).train.lastLook = some t0 → t0 + 1000000 ≤ (s.advance dt).tide) →
      ∃ t, exec (.portDetect dt p true) s = .next t ∧ (t.port p).train = { (s.port p).train with
          state := .calibrate, lastChange := (s.advance dt).tide, lastLook := some (s.advance dt).tide } ∧
        (∀ q, q ≠ p.val → t.port q = s.port q) ∧
        (s.power.phase ≠ .starting → t = { s.advance dt with ports := t.ports })) ∧
    (∀ (l : Link) (margins : List Nat), (s.train l).state = .calibrate →
      ∃ t, exec (.calibrationDone dt l margins) s = .next t ∧ (t.train l).state = .align ∧ (t.train l).attempt = 1 ∧
        (t.train l).peerOffer = none ∧ (∀ i, i < 8 → ((t.train l).lane i).margin = margins.getD i 0 ∧
          ((t.train l).lane i).failed =
            (((s.train l).lane i).failed || decide (margins.getD i 0 < Config.eyeMargin))) ∧
        (∀ m, m ≠ l → t.train m = s.train m) ∧ t.mem = s.mem) ∧
    (∀ l : Link, (s.train l).state = .align →
      ∃ t, exec (.symbolLock dt l) s = .next t ∧ t.train l = { s.train l with
          state := .width, attemptStart := (s.advance dt).tide, lastChange := (s.advance dt).tide } ∧
        (∀ m, m ≠ l → t.train m = s.train m)) ∧
    (∀ p : Fin 24, (s.port p).train.state = .roleWait → (s.port p).train.attemptStart + 1000000 ≤ (s.advance dt).tide →
      exec (.roleWaitRetry dt p) s = .next ((s.advance dt).nextAttempt (.port p) 1)) ∧
    (∀ l : Link, (s.train l).state = .width → (s.train l).attemptStart + 20000 ≤ (s.advance dt).tide →
      (∀ a, (s.train l).attempt = a → 1 ≤ a → a < 3 →
        exec (.widthAttemptTimeout dt l) s = .next (((s.advance dt).attemptFault l).nextAttempt l (a + 1))) ∧
      (3 ≤ (s.train l).attempt → exec (.widthAttemptTimeout dt l) s =
        .next ((((s.advance dt).attemptFault l).noteFallback l).nextAttempt l 0)) ∧
      ((s.train l).attempt = 0 → exec (.widthAttemptTimeout dt l) s =
        .next (((s.advance dt).attemptFault l).linkDown l) ∧
        ((((s.advance dt).attemptFault l).linkDown l).train l).state = .down) ∧
      ((∀ r ∈ s.log.recoveries, r.ofLink l = false) → (s.advance dt).attemptFault l = s.advance dt)) ∧
    (∀ (l : Link) (b : List Byte) (crc : W32), trainingWord (b ++ toBytes 4 crc.toNat) = none →
      exec (.trainingBlockReceive dt l b crc) s = .next (s.advance dt)) ∧
    (∀ (p : Fin 24) (b : List Byte) (crc : W32) (w : WidthWord), trainingWord (b ++ toBytes 4 crc.toNat) = some w →
      (s.port p).train.state = .active → ∃ t, exec (.trainingBlockReceive dt (.port p) b crc) s = .next t ∧
        (t.port p).train.state = .align ∧
        (t.port p).train.attempt = 1 ∧ (t.port p).retrains = satAdd 16 (s.port p).retrains 1 ∧
        (t.port p).train.lanes = (s.port p).train.lanes ∧ (∀ q, q ≠ p.val → t.port q = s.port q)) ∧
    (∀ (l : Link) (b : List Byte) (crc : W32) (w : WidthWord), trainingWord (b ++ toBytes 4 crc.toNat) = some w →
      ((s.train l).state = .width ∨ (s.train l).state = .roleWait) →
      exec (.trainingBlockReceive dt l b crc) s = .next ((s.advance dt).takeWord l w)) ∧
    (∀ (l : Link) (b : List Byte) (crc : W32) (w : WidthWord) (m : Nat × Option Nat),
      trainingWord (b ++ toBytes 4 crc.toNat) = some w → (s.train l).state = .width → w.reset = false →
      w.trainId = (s.train l).trainId →
      (w.confirm = false → (s.train l).peerConfirm = none →
        m = steer (s.train l).mask w.mask (s.spareOk l && w.spareOk) →
        ∃ t, exec (.trainingBlockReceive dt l b crc) s = .next t ∧ (t.train l).state = .width ∧
          (t.train l).peerOffer = some w ∧
          (t.train l).ownAgreed = some (agreedOf (seamOf l).isSome ((s.train l).attempt == 0) m.1)) ∧
      (∀ own offer, w.confirm = true → (s.train l).ownAgreed = some own → (s.train l).peerOffer = some offer →
        w.agreed = own → own ≠ 0 → m = steer (s.train l).mask offer.mask (s.spareOk l && offer.spareOk) →
        ∃ t, exec (.trainingBlockReceive dt l b crc) s = .next t ∧ (∀ k, k ≠ l → t.train k = s.train k) ∧
          (s.rolesPair l w = true → (t.train l).state = .verify ∧ (t.train l).agreed = own ∧
            (t.train l).sparePos = m.2 ∧ (t.train l).verifyLeft = 64) ∧
          (s.rolesPair l w = false → (t.train l).state = .roleWait ∧ (t.train l).roleMismatch = true))) ∧
    (∀ (l : Link) (cw : CodewordIn), (s.train l).state = .verify →
      (cw.errors = [] → (∀ i, i < 8 → tabGet 0 (s.train l).verifyCorrected i ≤ 8) →
        (2 ≤ (s.train l).verifyLeft → ∃ t, exec (.codewordReceive dt l cw) s = .next t ∧ (t.train l).state = .verify ∧
          (t.train l).verifyLeft = (s.train l).verifyLeft - 1) ∧
        ((s.train l).verifyLeft = 1 → ∃ t, exec (.codewordReceive dt l cw) s = .next t ∧ (t.train l).state = .active ∧
          (t.train l).agreed = (s.train l).agreed ∧ (∀ k, k ≠ l → (t.train k).state = (s.train k).state))) ∧
      (∀ i, uncorrectable cw = true → (∀ j, j < 8 → tabGet 0 (s.train l).verifyCorrected j ≤ 8) →
        worstLane (s.train l).agreed cw = some i → 1 ≤ (s.train l).attempt → (s.train l).attempt < 3 →
        ∃ t, exec (.codewordReceive dt l cw) s = .next t ∧ (t.train l).state = .align ∧
          (t.train l).attempt = (s.train l).attempt + 1 ∧
          ((s.train l).sparePos = some i → (t.train l).spareFailed = true) ∧
          ((s.train l).sparePos ≠ some i → ((t.train l).lane i).failed = true))) ∧
    (∀ (p : Fin 24) (cw : CodewordIn), s.portActive p = true → (s.port p).train.tooMany = none →
      (cw.errors = [] → (s.port p).queue = [] → cwNak cw = false → cwIdle cw = false →
        cwSeq cw = (s.port p).expected →
        (cw.crcFirst = none → (∀ e ∈ (s.port p).failing, e.2 < 16) →
          ∃ t, exec (.codewordReceive dt (.port p) cw) s = .next t ∧ (t.port p).rxSeq = cwSeq cw ∧
            (t.port p).nakOwed = false ∧ (t.port p).discarded = satAdd 32 (s.port p).discarded cw.reserved ∧
            (∀ q, q ≠ p.val → t.port q = s.port q) ∧ t = { s.advance dt with ports := t.ports }) ∧
        (∀ first, cw.crcFirst = some first → (∀ e ∈ (s.port p).failing, e.2 < 15) →
          ∃ t, exec (.codewordReceive dt (.port p) cw) s = .next t ∧ (t.port p).rxSeq = (first + 511) % 512 ∧
            (t.port p).nakOwed = true ∧ (t.port p).fecUncorr = satAdd 32 (s.port p).fecUncorr 1 ∧
            (t.port p).discarded = (s.port p).discarded ∧
            (∀ q, q ≠ p.val → t.port q = s.port q) ∧ t = { s.advance dt with ports := t.ports })) ∧
      (uncorrectable cw = true → (∀ e ∈ (s.port p).failing, e.2 < 15) →
        ∃ t, exec (.codewordReceive dt (.port p) cw) s = .next t ∧ (t.port p).rxSeq = (s.port p).rxSeq ∧
          (t.port p).nakOwed = true ∧ (t.port p).fecUncorr = satAdd 32 (s.port p).fecUncorr 1 ∧
          (t.port p).fecTide = (s.advance dt).tide ∧ (∀ q, q ≠ p.val → t.port q = s.port q) ∧
          t = { s.advance dt with ports := t.ports }))

/-! ### Steps, loss scale, skim stream (13) -/

/-- The verdict: LOSS_SCALE_SET registers its change for the next close; STEP_VERDICT samples the step's bits once, a
second one is BUSY; a child's contribution is kept until the module's own is there; the job's verdict that comes down is
kept with its Tidemark and finishes STEP_VERDICT; one that does not come in time leaves a
fatal record and completes with TIMEOUT. -/
def Obligations.VerdictsArrive : Prop :=
  ∀ (dt : Nat) (s u : State) (c : Cmd),
    (Starts s dt 0 0x44 c u → c.param 1 1 < 8 → (∀ i, i = 2 ∨ i = 3 ∨ (8 ≤ i ∧ i < 64) → c.param i 1 = 0) →
      ((c.param 1 1).testBit 0 = true → -24 ≤ signed 8 (c.param 0 1) ∧ signed 8 (c.param 0 1) ≤ 24) →
      ((c.param 1 1).testBit 1 = true → 1 ≤ c.param 4 4 ∧ c.param 4 4 ≤ 1000000) →
      exec (.lossScaleSet dt) s = .next (({ u with step := { u.step with
        pendValid := true
        pendExp := if (c.param 1 1).testBit 0 then some (signed 8 (c.param 0 1)) else none
        pendInterval := if (c.param 1 1).testBit 1 then some (BitVec.ofNat 32 (c.param 4 4)) else none
        pendReset := (c.param 1 1).testBit 2 } } : State).complete c .ok 0 [])) ∧
    (Starts s dt 0 0x41 c u → c.param 0 4 = s.commit.stepNumber.toNat → c.param 4 1 < 2 →
      u.treeOk (BitVec.ofNat 32 (c.param 8 4)) voteRoles = true →
      (∀ i, i = 5 ∨ i = 6 ∨ i = 7 ∨ (16 ≤ i ∧ i < 64) → c.param i 1 = 0) →
      (s.step.started = true → exec (.stepVerdict dt) s = .next (u.complete c .busy 0 [])) ∧
      (s.step.started = false → ∃ t, exec (.stepVerdict dt) s = .next t ∧ t.step.started = true ∧
        t.step.collId = BitVec.ofNat 32 (c.param 8 4) ∧ t.step.localNonfinite = s.step.localNonfinite ∧
        t.step.localAbort = (s.step.localAbort || (c.param 4 1).testBit 0) ∧
        t.commit = { s.commit with verdicts := t.commit.verdicts } ∧ t.mem = s.mem)) ∧
    (∀ (p : Fin 24) (hdr : FrameHdr) (f : VerdictF), s.portActive p = true → 1 ≤ s.roleOf p → s.roleOf p ≤ 5 →
      hdr.sendTide < (s.advance dt).tide →
      (tabGet {} s.coll.trees (f.collId.toNat % 64)).valid = true → f.step = s.commit.stepNumber → f.down = true →
      (s.view f.collId).parent = some p.val → s.verdictCmd = some c → (∀ n, (s.unit n).armed = false) →
      (s.advance dt).ingressHeld f.collId = false → ∀ st,
      st = (if f.nonfinite then Status.nonfinite else if f.abort then .aborted else .ok) →
      ∃ t, exec (.verdictFrame dt p hdr f) s = .next t ∧ t.step.arrived = true ∧
        t.step.jobNonfinite = f.nonfinite ∧ t.step.jobAbort = f.abort ∧ t.step.permReady = f.permReady ∧
        t.commit = { s.commit with verdicts := (s.commit.stepNumber, (s.advance dt).tide) :: s.commit.verdicts } ∧
        (∀ d, s.findCmd c.ref = some d → t.findCmd c.ref = some { d with
          work := .finished st 0 (verdictBody c f.nonfinite f.abort (s.advance dt).tide)
          finishedAt := (s.advance dt).tide }) ∧ t.mem = s.mem) ∧
    (∀ (p : Fin 24) (hdr : FrameHdr) (f : VerdictF), s.portActive p = true → 1 ≤ s.roleOf p → s.roleOf p ≤ 5 →
      hdr.sendTide < (s.advance dt).tide → (∀ n, (s.unit n).armed = false) → (s.advance dt).ingressHeld f.collId = false →
      (tabGet {} s.coll.trees (f.collId.toNat % 64)).valid = true → f.step = s.commit.stepNumber → f.down = false →
      p.val ∈ (s.view f.collId).kids → s.step.sampled = none →
      ∃ t, exec (.verdictFrame dt p hdr f) s = .next t ∧ t.step = { s.step with ups := tabSet s.step.ups p f } ∧
        t.commit = s.commit ∧ t.mem = s.mem) ∧
    (∀ d, s.verdictCmd = some c → c.deadline = some d → d ≤ (s.advance dt).tide →
      exec (.verdictTimeout dt) s = .next (((((s.advance dt).complete c .timeout 0 (verdictBody c false false
        0)).withdrawClose).logRec 0 0x0051 sevFatal 0 s.commit.stepNumber.toNat 0).replayHeldBar))

/-- The step close: STEP_COMMIT with a clean verdict commits, with any other aborts, and STEP_ABORT aborts; either
closes the step whole at its launch Tidemark: STEP_NUMBER advances by one, the close and its outcome are recorded, the
loss scale follows its rule or takes the change that waits, the step's bits and verdict clear, and its running updates
end. At a commit each layer whose version is complete takes it: PROVISIONAL becomes CURRENT, CURRENT becomes OLD with
its grace time where it is sharded, STATE_SEL flips, its staged copies go; speculation that is tied to the step ends and
FREEING entries empty. At an abort WRITING and PROVISIONAL slots are FREE, CURRENT ones stay, every micro-batch whose
speculation is tied to the step is dropped or rewound, and its READY entries are discarded. With PERMUTE_READY the
layout switches after either. -/
def Obligations.StepsClose : Prop :=
  ∀ (dt : Nat) (s u : State) (c : Cmd) (committed halve : Bool) (i : Instr) (st : Status),
    c.launch ≠ 0 → c.param 0 4 = s.commit.stepNumber.toNat → s.host.held = [] → (∀ i, 5 ≤ i → i < 64 → c.param i 1 = 0) →
    ((i = .stepCommit dt ∧ Starts s dt 0 0x42 c u ∧ c.param 4 1 = 0 ∧
        committed = (!s.step.jobNonfinite && !s.step.jobAbort) ∧ halve = s.step.jobNonfinite ∧
        st = (if s.step.jobNonfinite then .nonfinite else if s.step.jobAbort then .aborted else .ok)) ∨
      (i = .stepAbort dt ∧ Starts s dt 0 0x43 c u ∧ c.param 4 1 < 2 ∧ committed = false ∧ st = .ok ∧
        halve = ((c.param 4 1).testBit 0 || (s.step.arrived && s.step.jobNonfinite)))) →
    ∃ t, exec i s = .next t ∧ t = (u.closeStep committed halve c.launch).complete c st 0 [] ∧
      t.commit.stepNumber = s.commit.stepNumber + 1 ∧ t.commit.lastStepClose = c.launch ∧
      t.commit.lastCommitTide = max s.commit.lastCommitTide c.launch ∧
      t.commit.outcomes = ((s.commit.stepNumber, committed) :: s.commit.outcomes).take 256 ∧
      t.step.exp = s.step.pendExp.getD (closeScale s.step committed halve).1 ∧
      t.step.interval = s.step.pendInterval.getD s.step.interval ∧
      t.step.clean = (if s.step.pendReset then 0 else (closeScale s.step committed halve).2) ∧
      t.step.pendValid = false ∧ t.step.started = false ∧ t.step.arrived = false ∧ t.step.localNonfinite = false ∧
      t.step.localAbort = false ∧ t.conf = s.conf ∧ t.commit.configEpoch = s.commit.configEpoch ∧
      (∀ d ∈ s.allCmds, s.updateOfStep d = true → d.live = true → t.findCmd d.ref = none) ∧
      (∀ l n, s.step.permReady = false → (∀ p, s.coll.permute = some p → p.held = []) →
        ((s.layer l).slots.map (·.1)).Nodup →
        (committed = true → (s.layer l).prov = true → (t.layer l).stateSel = !(s.layer l).stateSel ∧
          (t.layer l).lastCommit = s.commit.stepNumber ∧ (t.layer l).prov = false ∧
          (((s.layer l).slot n).state = .provisional → (t.layer l).slot n = { (s.layer l).slot n with state := .current }) ∧
          (((s.layer l).slot n).state = .current → 1 < (s.layer l).shards → (t.layer l).slot n = {
            (s.layer l).slot n with state := .old, grace := true, graceEnd := c.launch + 200000 }) ∧
          (((s.layer l).slot n).state = .current → (s.layer l).shards ≤ 1 →
            ((t.layer l).slot n).state = (if ((s.layer l).slot n).pins = 0 ∧ ((s.layer l).slot n).holds = [] then .free
              else .old))) ∧
        (committed = false → (t.layer l).stateSel = (s.layer l).stateSel ∧ (t.layer l).prov = false ∧
          (((s.layer l).slot n).state = .writing ∨ ((s.layer l).slot n).state = .provisional →
            ((t.layer l).slot n).state = .free) ∧
          (((s.layer l).slot n).state = .current → ((t.layer l).slot n).state = .current ∧
            ((t.layer l).slot n).serial = ((s.layer l).slot n).serial))) ∧
      (committed = true → ∀ n, n < 12 → ∀ x ∈ (t.die n).staging, (s.layer x.layer).prov = false) ∧
      (committed = true → s.step.permReady = false → ∀ k m, k < 16 → t.mb k m = { s.mb k m with
        inherited := if (s.mb k m).inherited = some s.commit.stepNumber then none else (s.mb k m).inherited
        bwdSpec := if (s.mb k m).bwdSpec = some s.commit.stepNumber then none else (s.mb k m).bwdSpec }) ∧
      (committed = true → ∀ k bwd e, k < 16 → (s.entry k bwd e).state = .freeing →
        (s.entry k bwd e).freeStep = s.commit.stepNumber → (t.entry k bwd e).state = .empty) ∧
      (committed = false → ∀ k m, k < 16 → (s.mb k m).state ≠ .free →
        (s.mbPinSpec (s.mb k m) = true ∨ (s.mb k m).inherited = some s.commit.stepNumber →
          (t.mb k m).state = .free ∧ (t.mb k m).dropped = true) ∧
        (s.mbPinSpec (s.mb k m) = false → (s.mb k m).inherited ≠ some s.commit.stepNumber →
          (s.mb k m).admitted = true → (s.mb k m).bwdSpec = some s.commit.stepNumber →
          (t.mb k m).state = .forward ∧ (t.mb k m).dropped = true)) ∧
      (committed = false → ∀ k bwd e, k < 16 → (s.entry k bwd e).state = .ready → (s.entry k bwd e).spec = true →
        (s.entry k bwd e).specStep = s.commit.stepNumber → (∀ m, (s.mb k m).fwdEntry ≠ some e) →
        (t.entry k bwd e).state = .empty) ∧
      (∀ p, s.step.permReady = true → s.coll.permute = some p →
        t.commit.layoutEpoch = p.newEpoch ∧ t.coll.permute = none ∧
        (∀ n, n < p.perm.length → tabGet {} t.coll.shardMap n = tabGet {} s.coll.shardMap (p.perm.getD n n)) ∧
        (∀ l, (s.layer l).defined = true → 1 < (s.layer l).shards → (t.layer l).ownShard = t.coll.ownRank))

/-- The skim stream: SKIM_START sets it up, a second one is BUSY; SKIM_STOP completes at once where none runs and else
waits for the end of the records; bytes of the record in hand go out as far as the ring has room, and SKIM_WR counts
them; an END record whose last byte goes out gives the last step, and ends a stream that is to stop. TAKEOVER_LOAD of a
stream that its map fits XORs the words of each record into the provisional slot of its entry, and takes effect whole:
each loaded layer's new version is CURRENT with its serial, the one before it OLD, STATE_SEL flips, its working copy is
rebuilt, and the next step follows the last one loaded. -/
def Obligations.SkimStreamRuns : Prop :=
  ∀ (dt : Nat) (s u : State) (c : Cmd),
    (Starts s dt 0 0x80 c u → c.param 0 1 = 0 → c.param 2 1 < 2 → c.param 8 8 % 4096 = 0 →
      c.param 0x10 8 % 4096 = 0 → 2 ^ 20 ≤ c.param 0x10 8 → u.inSpace [2, 4] none (c.param 8 8) (c.param 0x10 8) = true →
      (∀ i, (3 ≤ i ∧ i < 8) ∨ (24 ≤ i ∧ i < 64) → c.param i 1 = 0) →
      (s.skim.running = true → exec (.skimStart dt) s = .next (u.complete c .busy 0 [])) ∧
      (s.skim.running = false → ∃ t, exec (.skimStart dt) s = .next t ∧ t.skim = { u.skim with
        running := true, toPort := false, port := c.param 1 1, basePending := (c.param 2 1).testBit 0,
        ringAddr := c.param 8 8, ringBytes := c.param 0x10 8, wr := 0, rd := 0, stepStart := 0, records := [], out := [],
        outPoison := [], stopCmds := [] })) ∧
    (Starts s dt 0 0x81 c u →
      (s.skim.running = false → exec (.skimStop dt) s = .next (u.complete c .ok 0 [])) ∧
      (s.skim.running = true → exec (.skimStop dt) s = .next (({ u with skim := { u.skim with
        stopCmds := u.skim.stopCmds ++ [c.ref] } } : State).setWait c.ref .skimEnd none))) ∧
    (∀ (r : SkimRec) (rest : List SkimRec) (bs : List Byte), s.skim.records = r :: rest → s.skim.running = true →
      s.skim.toPort = false → s.skim.out ≠ [] → s.skim.outPoison.length = s.skim.out.length →
      (s.advance dt).skimHeld r = false → bs = s.skim.out.take s.skimRoom → bs ≠ [] → bs ≠ s.skim.out →
      ∃ t, exec (.skimRecordEmit dt) s = .next t ∧ t.skim = { s.skim with
        wr := s.skim.wr + BitVec.ofNat 64 bs.length, out := s.skim.out.drop bs.length,
        outPoison := s.skim.outPoison.drop bs.length } ∧ t.layers = s.layers ∧
        (s.skim.wr.toNat % s.skim.ringBytes + bs.length ≤ s.skim.ringBytes →
          t.mem = (s.write (s.skim.ringAddr + s.skim.wr.toNat % s.skim.ringBytes) bs).mem) ∧
        t.commit = s.commit) ∧
    (∀ (step : W32) (rest : List SkimRec), s.skim.records = .finish step :: rest → s.skim.running = true →
      s.skim.toPort = false → s.skim.out ≠ [] → s.skim.outPoison.length = s.skim.out.length →
      (s.advance dt).skimHeld (.finish step) = false → s.skim.out.length ≤ s.skimRoom →
      ∃ t, exec (.skimRecordEmit dt) s = .next t ∧ t.skim.last = step ∧
        t.skim.wr = s.skim.wr + BitVec.ofNat 64 s.skim.out.length ∧
        (s.skim.stopCmds = [] → t.skim.running = true ∧ t.skim.records = rest ∧ t.layers = s.layers) ∧
        (s.skim.stopCmds ≠ [] → t.skim.running = false ∧ t.skim.records = [] ∧ t.skim.stopCmds = [] ∧
          (∀ l, (t.layer l).skimPending = false) ∧
          (∀ ref ∈ s.skim.stopCmds, ∀ d, s.findCmd ref = some d →
            ∃ d', t.findCmd ref = some d' ∧ d'.work = .finished .ok 0 []))) ∧
    (∀ (key : Nat) (base : Bool) (ws : List Nat), SameBut s (s.xorWords key base ws) key (4 * ws.length) ∧
      (s.Inv → (∀ i, i < 4 * ws.length → s.farFailed (key + i) = false) → ∀ i x, ws[i]? = some x →
        (s.xorWords key base ws).readNat (key + 4 * i) 4 =
          (x ^^^ (if base then 0 else s.readNat (key + 4 * i) 4)) % 2 ^ 32)) ∧
    (∀ (entries : List LoadEntry) (mapKey key : Nat) (a : Load), Starts s dt 0 0x82 c u →
      (∀ i, i < 4 ∨ (34 ≤ i ∧ i < 128) → c.param i 1 = 0) →
      u.resolve [2, 4] none (c.param 0x18 8) (64 * c.param 0x20 2) = some mapKey →
      u.resolve [2, 4] none (c.param 8 8) (c.param 0x10 8) = some key →
      entries = (List.range (c.param 0x20 2)).map (fun i => loadEntry (u.read (mapKey + 64 * i) 64)) →
      (∀ e ∈ entries, e.ok u = true) → u.loadBusy entries = false → u.loadServed key mapKey entries = true →
      u.loadHeld key (c.param 0x10 8) mapKey entries = false → u.firstPoison mapKey (64 * c.param 0x20 2) = none →
      runLoad entries (BitVec.ofNat 32 (c.param 4 4)) (c.param 0x10 8 / 32 + 1) key (u.read key (c.param 0x10 8))
        { st := u } = a → a.failed = false →
      ∃ t, exec (.takeoverLoad dt) s = .next t ∧ t.commit.stepNumber = a.last.getD 0 + 1 ∧ t.step.exp = a.exp ∧
        t.step.clean = a.clean ∧ t.step.interval = a.interval ∧ t.step.started = false ∧ t.skim.prevCommit = a.last.getD 0 ∧
        SameBut (((a.done.map (fun d => d.1.layer)).eraseDups).foldl (fun st l => st.loadLayer a l) a.st) t
          (hostKey (s.ring c.ring).wbAddr.toNat) 16 ∧
        (∀ l i e serial step, (u.layer l).stateIdx .free = some i →
          (a.done.filter (fun d => d.1.layer == l)).getLast? = some (e, serial, step) →
          (t.layer l).stateSel = !(u.layer l).stateSel ∧ (t.layer l).lastCommit = step ∧
          (t.layer l).slot i = { serial := serial, state := .current, epoch := s.commit.layoutEpoch } ∧
          (∀ j, ((u.layer l).slots.map (·.1)).Nodup → 1 < (u.layer l).shards → ((u.layer l).slot j).state = .current →
            ((t.layer l).slot j).state = .old)) ∧
        (∀ l, (∀ d ∈ a.done, d.1.layer ≠ l) → t.layer l = s.layer l))

/-! ### Collectives (15) -/

/-- The collective commands: one that passes its checks, with a die in service and memory that serves, opens its context
under its lease, or takes the one that frames have opened, and sends its own part; one whose context a REFUSE has
refused ends with its status, one that names a die that is draining, or memory on a die out of service, with FAULTED,
and one whose accesses are held waits to start. A ring shift asks its predecessor; a barrier whose children are heard
goes up; COLL_PERMUTE takes the permute that waits for the switch and moves the segments that go at once, and a second
one is BUSY; a failing check gives BAD_PARAM, or EPOCH_STALE, which its tile counts. -/
def Obligations.CollectivesStart : Prop :=
  ∀ (dt : Nat) (r : Fin 17) (s u v w : State) (c : Cmd) (x y : CollCtx),
    (∀ (p : RedP) (src scale : Nat), Starts s dt r 0x50 c u → p = redP c →
      (∀ o, firstFailSt (redChecks u c) = some (o, .badParam) →
        exec (.collReduce dt r) s = .next (u.complete c .badParam (64 + o) [])) ∧
      (∀ o, firstFailSt (redChecks u c) = some (o, .epochStale) →
        exec (.collReduce dt r) s = .next ((u.modTile (u.view p.collId).tile (fun t => { t with
          stale := satAdd 32 t.stale 1 })).complete c .epochStale 0 [])) ∧
      (firstFailSt (redChecks u c) = none → src = (u.resolve [0, 1, 2, 4, 5] (some p.die) p.src 0).getD 0 →
        scale = (u.resolve [0, 1, 4, 5] (some p.die) p.scale 0).getD 0 →
        (u.dieRefuses p.die = true ∨ u.keyServed src = false ∨ u.keyServed scale = false →
          exec (.collReduce dt r) s = .next (u.complete c .faulted 0 [])) ∧
        (u.dieRefuses p.die = false → u.keyServed src = true → u.keyServed scale = true →
          (u.dieWaits p.die = true ∨ u.anyStops (ioBase u.pkg.suffix (u.view p.collId).tile) [u.redTable p] = true →
            exec (.collReduce dt r) s = .next (s.advance dt)) ∧
          (u.dieWaits p.die = false → u.anyStops (ioBase u.pkg.suffix (u.view p.collId).tile) [u.redTable p] = false →
            (∀ n, u.findColl 0 p.collId p.step p.epoch = some y → y.refused = some n → exec (.collReduce dt r) s =
              .next ((u.closeColl y).complete c (refuseReduce n) 0 [])) ∧
            ((u.findColl 0 p.collId p.step p.epoch = none ∧ y = u.frameCtx 0 p.collId p.step p.epoch ∧
                u.openColl y = some v) ∨
              (u.findColl 0 p.collId p.step p.epoch = some y ∧ y.refused = none ∧ y.cmd = none ∧ v = u) →
              (w, x) = v.loadTable c { y with cmd := some c.ref, lease := u.tide + 1000 * c.param 0x30 4 } →
              exec (.collReduce dt r) s = .next (((w.putColl x).setWait c.ref .coll none).wakeReduce x) ∧
              x.table = u.read (u.redTable p).1 (u.redTable p).2 ∧
              (u.firstPoison (u.redTable p).1 (u.redTable p).2 = none → w = v)))))) ∧
    (∀ p : GatP, Starts s dt r 0x51 c u → p = gatP c → lowestFailSt (gatChecks u c) = none →
      (u.dieRefuses p.die = true ∨ (p.sends = true ∧ u.keyServed (u.gatSrc p) = false) ∨ u.keyServed (u.gatDest p) = false →
        exec (.collGather dt r) s = .next (u.complete c .faulted 0 [])) ∧
      (u.dieRefuses p.die = false → (p.sends = true → u.keyServed (u.gatSrc p) = true) → u.keyServed (u.gatDest p) = true →
        (u.dieWaits p.die = true ∨
            (p.mode ≠ 2 ∧ u.tileHeld (u.view p.collId).tile p.collId (u.gatRanges p) = true) →
          exec (.collGather dt r) s = .next (s.advance dt)) ∧
        (u.dieWaits p.die = false → p.mode = 2 → exec (.collGather dt r) s = .next (u.startShift c)) ∧
        (u.dieWaits p.die = false → p.mode ≠ 2 →
          u.tileHeld (u.view p.collId).tile p.collId (u.gatRanges p) = false →
          (∀ n, u.findColl 1 p.collId 0 p.epoch = some y → y.refused = some n → exec (.collGather dt r) s =
            .next ((u.closeColl y).complete c (refuseStatus n) 0 [])) ∧
          ((u.findColl 1 p.collId 0 p.epoch = none ∧ y = u.frameCtx 1 p.collId 0 p.epoch ∧ u.openColl y = some v) ∨
            (u.findColl 1 p.collId 0 p.epoch = some y ∧ y.refused = none ∧ v = u) →
            x = { y with cmd := some c.ref, lease := u.tide + 1000 * c.param 0x24 4 } →
            exec (.collGather dt r) s =
              .next ((((v.putColl x).setWait c.ref .coll none).wakeGather x).sendOwn p.collId p.epoch c))))) ∧
    (∀ id : W32, Starts s dt r 0x53 c u → id = BitVec.ofNat 32 (c.param 4 4) → u.treeOk id voteRoles = true →
      (∀ i, i < 4 ∨ i = 10 ∨ i = 11 ∨ (16 ≤ i ∧ i < 64) → c.param i 1 = 0) →
      (∀ n, u.findBarrier id = some y → y.refused = some n → exec (.collBarrier dt r) s =
        .next (((u.setWait c.ref .coll none).closeColl y).complete c .faulted 0 [])) ∧
      (u.findBarrier id = some y → y.refused = none →
        x = { y with cmd := some c.ref, lease := u.tide + 1000 * c.param 0x0C 4 } →
        exec (.collBarrier dt r) s = .next (((u.setWait c.ref .coll none).putColl x).runBarrier x)) ∧
      (u.findBarrier id = none →
        x = { u.frameCtx 2 id 0 u.commit.layoutEpoch with cmd := some c.ref, lease := u.tide + 1000 * c.param 0x0C 4 } →
        (u.setWait c.ref .coll none).openColl x = some v → exec (.collBarrier dt r) s = .next (v.runBarrier x))) ∧
    (Starts s dt 0 0x52 c u → lowestFailSt (permChecks u c) = none →
      (u.coll.permute.isSome = true → exec (.collPermute dt) s = .next (u.complete c .busy 0 [])) ∧
      (u.coll.permute = none → u.permServed c = false → exec (.collPermute dt) s = .next (u.complete c .faulted 0 [])) ∧
      (∀ (p : Permute) (key : Nat → Nat), u.coll.permute = none → u.permServed c = true →
        (∀ off, key off = (u.resolve permSpaces none (c.param off 8) 0).getD 0) →
        p = {
          cmd := c.ref, newEpoch := BitVec.ofNat 16 (c.param 0 2), perm := permEntries u (key 8) (c.param 2 2)
          deadline := u.tide + 1000 * c.param 0x20 4
          segs := (List.range (c.param 4 1)).map (fun i => {
            work := (segEntry u (key 0x10) i).1 == 1, sendLayer := (segEntry u (key 0x10) i).2.1
            sendAddr := (segEntry u (key 0x10) i).2.2.1, sendBytes := (segEntry u (key 0x10) i).2.2.2
            recvWork := (segEntry u (key 0x18) i).1 == 1, recvLayer := (segEntry u (key 0x18) i).2.1
            recvAddr := (segEntry u (key 0x18) i).2.2.1, recvBytes := (segEntry u (key 0x18) i).2.2.2 }) } →
        (u.permHeldNow c p = true → exec (.collPermute dt) s = .next (s.advance dt)) ∧
        (u.permHeldNow c p = false → (p.target u.coll.ownRank = u.coll.ownRank → p.segs.all Segment.fits = true) →
          (∀ f ∈ u.coll.permHeld, f.1.newEpoch ≠ p.newEpoch) →
          exec (.collPermute dt) s = .next (p.segs.zipIdx.foldl (fun st g => st.startSegment g.2 g.1)
            (({ u with coll := { u.coll with permute := some p, permHeld := [] } } : State).setWait c.ref .permute
              (some p.deadline))))))

/-- The collective frames that nothing holds: one that comes before the local command opens a context and is held; one
from a port outside its tree is discarded and counted by the tile. A GRANT before its shift is kept with its port; one
on the port of RING_NEXT for a shift that waits sends its payload; shift data from RING_PREV lands in the destination
and counts. A segment before its permute is held. And what ends a collective from outside: the lease of a context, with
or without its command, and of a shift, with TIMEOUT; a permute's timeout, with DEFERRED; and the sending of a settled
WORK segment. -/
def Obligations.CollectiveFrames : Prop :=
  ∀ (dt : Nat) (s : State), (∀ n, (s.unit n).armed = false) →
    (∀ (p : Fin 24) (hdr : FrameHdr) (f : ReduceF) (v : View), hdr.sendTide < (s.advance dt).tide →
      s.portActive p = true → s.roleOf p = 3 → v = s.view f.collId →
      (s.advance dt).ingressHeld f.collId = false →
      (p.val ∉ v.parent.toList ++ v.kids → exec (.reduceFrame dt p hdr f) s =
        .next (((s.advance dt).acceptFrame p hdr (.reduce f)).modTile v.tile (fun t => { t with
          discard := satAdd 32 t.discard 1 }))) ∧
      (p.val ∈ v.parent.toList ++ v.kids → (tabGet {} s.coll.trees (f.collId.toNat % 64)).valid = true → f.kind < 2 →
        hdr.poison = false → f.epoch = s.commit.layoutEpoch → s.findColl 0 f.collId f.step f.epoch = none →
        s.openOn v.tile < 16 → ∃ t, exec (.reduceFrame dt p hdr f) s = .next t ∧
          t.coll.ctxs = s.coll.ctxs ++ [{ (s.advance dt).frameCtx 0 f.collId f.step f.epoch with waiting := [(p.val, f)] }] ∧
          t.mem = s.mem ∧ t.step = s.step)) ∧
    (∀ (p : Fin 24) (hdr : FrameHdr) (f : GatherF) (v : View), hdr.sendTide < (s.advance dt).tide → s.portActive p = true →
      s.roleOf p = 3 → hdr.dstModule = s.conf.address → v = s.view f.collId →
      (s.advance dt).ingressHeld f.collId = false →
      (tabGet {} s.coll.trees (f.collId.toNat % 64)).valid = true →
      ((f.kind = 0 ∧ p.val ∈ v.kids) ∨ (f.kind = 1 ∧ v.parent = some p.val)) → f.epoch = s.commit.layoutEpoch →
      s.findColl 1 f.collId 0 f.epoch = none → s.openOn v.tile < 16 →
      ∃ t, exec (.gatherFrame dt p hdr f) s = .next t ∧
        t.coll.ctxs = s.coll.ctxs ++ [{ (s.advance dt).frameCtx 1 f.collId 0 f.epoch with
          waitingG := [(p.val, hdr.poison, f)] }] ∧ t.mem = s.mem) ∧
    (∀ (p : Fin 24) (hdr : FrameHdr) (f : BarrierF) (v : View), hdr.sendTide < (s.advance dt).tide → s.portActive p = true →
      1 ≤ s.roleOf p → s.roleOf p ≤ 5 → (s.advance dt).ingressHeld f.collId = false →
      v = s.view f.collId → (tabGet {} s.coll.trees (f.collId.toNat % 64)).valid = true → f.kind = 0 → p.val ∈ v.kids →
      s.findBarrier f.collId = none → s.openOn v.tile < 16 →
      ∃ t, exec (.barrierFrame dt p hdr f) s = .next t ∧
        t.coll.ctxs = s.coll.ctxs ++ [{ (s.advance dt).frameCtx 2 f.collId 0 s.commit.layoutEpoch with
          heard := [p.val], contrib := f.contrib, latest := f.latest }] ∧ t.mem = s.mem) ∧
    (∀ (p : Fin 24) (hdr : FrameHdr) (f : SeqF), hdr.sendTide < (s.advance dt).tide → s.portActive p = true →
      s.roleOf p = 4 → f.kind = 0 →
      (∀ h ∈ s.coll.shifts, h.collId ≠ f.collId) →
      ∃ t, exec (.seqFrame dt p hdr f) s = .next t ∧
        t.coll.shifts = s.coll.shifts ++ [{ collId := f.collId, grants := [p.val] }] ∧ t.mem = s.mem) ∧
    (∀ (p : Fin 24) (hdr : FrameHdr) (f : SeqF) (h : Shift) (ref : CmdRef) (c : Cmd), hdr.sendTide < (s.advance dt).tide →
      s.portActive p = true → s.roleOf p = 4 → s.coll.shifts.find? (fun x => x.collId == f.collId) = some h →
      h.cmd = some ref → s.findCmd ref = some c → (gatP c).collId = f.collId →
      (∀ (v w : State) (hd : Nat → Nat → FrameHdr), f.kind = 0 → (gatP c).next = p.val → h.sent = false →
        (∀ k n, hd k n = { poison := s.poisoned k n, dstModule := (s.portItem p).peerModule }) →
        (s.advance dt).landHeld p [(s.gatSrc (gatP c), (gatP c).seg)] = false →
        v = (((s.advance dt).acceptFrame p hdr (.seq f)).modShift f.collId (fun x => { x with
          grants := x.grants ++ [p.val] })).modShift f.collId (fun x => { x with sent := true }) →
        w = (payloadParts (gatP c).seg).foldl (fun st part => st.send p (hd (s.gatSrc (gatP c) + part.1) part.2)
          (.seq { collId := f.collId, kind := 1, offset := part.1, payload := s.read (s.gatSrc (gatP c) + part.1) part.2, total := (gatP c).seg })) v →
        (w.shiftDone c = false → exec (.seqFrame dt p hdr f) s = .next w) ∧
        (w.shiftDone c = true → exec (.seqFrame dt p hdr f) s =
          .next ((w.dropShift f.collId).finish c.ref .ok 0 (bodyOf [(0, 8, (gatP c).seg)])))) ∧
      (∀ key n : Nat, f.kind ≠ 0 → (gatP c).prev = p.val → n = f.payload.length → f.offset + n ≤ (gatP c).seg →
        key = s.gatDest (gatP c) + f.offset → (s.advance dt).landHeld p [(key, n)] = false →
        exec (.seqFrame dt p hdr f) s = .next (((((s.advance dt).acceptFrame p hdr (.seq f)).landPayload key f.payload
          hdr.poison).modShift f.collId (fun x => { x with got := x.got + n })).runShift c) ∧
        (∃ t, exec (.seqFrame dt p hdr f) s = .next t ∧ t.mem = (s.write key f.payload).mem ∧ SameBut s t key n ∧
          (hdr.poison = true → ∀ x ∈ frameUnits key n, x ∈ t.poison)))) ∧
    (∀ (p : Fin 24) (hdr : FrameHdr) (f : PermuteF), hdr.sendTide < (s.advance dt).tide →
      s.portActive p = true → s.roleOf p = 5 →
      hdr.dstModule = s.conf.address → s.coll.permute = none → f.kind = 0 → f.newEpoch = s.commit.layoutEpoch + 1 →
      ∃ t, exec (.permuteFrame dt p hdr f) s = .next t ∧ t.coll.permHeld = s.coll.permHeld ++ [(f, hdr.poison)] ∧
        t.mem = s.mem ∧ t.layers = s.layers) ∧
    (∀ (x : Fin 6) (id : W32) (k : CollCtx) (v : State), s.coll.ctxs.find? (fun c => c.tile == x.val && c.collId == id &&
        decide (c.lease ≤ (s.advance dt).tide)) = some k → s.tilePaused x = false →
      v = (((s.advance dt).refuseColl { k with cmd := none } .faulted none []).closeColl { k with cmd := none }) →
      (k.cmd = none → exec (.contextLeaseExpiry dt x id) s =
        .next (v.logRec 0 0x0080 sevWarning k.lease 1 id.toNat)) ∧
      (∀ ref, k.cmd = some ref → exec (.contextLeaseExpiry dt x id) s = .next ((v.finish ref .timeout 0
        (if k.kind = 0 then k.redBody else if k.kind = 1 then k.gatBody else [])).logRec 0 0x0080 sevWarning k.lease 1
          id.toNat)) ∧
      (∃ t, exec (.contextLeaseExpiry dt x id) s = .next t ∧ (∀ d ∈ t.coll.ctxs, d.same k = false) ∧ t.mem = s.mem ∧
        t.commit = s.commit)) ∧
    (∀ (x : Fin 6) (id : W32) (h : Shift) (ref : CmdRef) (c : Cmd) (d : Nat), s.coll.ctxs.find? (fun c => c.tile == x.val &&
        c.collId == id && decide (c.lease ≤ (s.advance dt).tide)) = none →
      s.coll.shifts.find? (fun y => y.collId == id) = some h → h.cmd = some ref → s.findCmd ref = some c →
      c.deadline = some d → d ≤ (s.advance dt).tide → exec (.contextLeaseExpiry dt x id) s =
        .next (((s.advance dt).dropShift id).finish c.ref .timeout 0 (bodyOf [(0, 8, h.got)]))) ∧
    (∀ (p : Permute) (c : Cmd), s.coll.permute = some p → p.contributed = false → p.deadline ≤ (s.advance dt).tide →
      s.findCmd p.cmd = some c → exec (.permuteTimeout dt) s =
        .next (({ (s.advance dt).freeReceiving p with coll := { ((s.advance dt).freeReceiving p).coll with
          permute := none } } : State).complete c .deferred 0 [])) ∧
    (∀ (p : Permute) (n i : Nat) (g : Segment), s.coll.permute = some p → p.held = [] → p.segs[n]? = some g →
      g.work = true →
      (s.layer g.sendLayer).stateIdx .current = some i → p.target s.coll.ownRank ≠ s.coll.ownRank →
      s.layerSettled g.sendLayer = true → g.sent = false →
      (∀ pl ∈ (s.layer g.sendLayer).planes i, (s.advance dt).sendStops (p.target s.coll.ownRank) pl.2.1 pl.2.2 = false) →
      ∃ t q, exec (.permuteWorkSend dt n) s = .next t ∧ t.coll.permute = some q ∧
        q.segs[n]? = some { g with sent := true, sentSerial := ((s.layer g.sendLayer).slot i).serial } ∧
        t.layers = s.layers ∧ t.mem = s.mem)

/-! ### DMA channels, check units and replica sweeps (16) -/

/-- DMA_START, the channel's lease and bus errors: a start that passes its checks begins the program at its first
instruction, or with RESUME at the resume point, and fetches at most 8 instructions ahead, as log 73 says; one that
names a draining die, or a channel with no complex left, completes with FAULTED. A lease that ends stops the channel
with its resume point, its command with TIMEOUT, and leaves a record. A bus error stops every channel that the complex
serves with its resume point and its command with FAULTED and DETAIL 1, keeps the address and the Tidemark, raises
vector 22 and leaves a record. -/
def Obligations.ChannelsStartAndStop : Prop :=
  ∀ (dt : Nat) (s u : State) (c : Cmd),
    (∀ (r : Fin 17) (host image : List Byte) (n die addr len pc : Nat) (prog : Tab (List Byte × Option Nat)),
      Starts s dt r 0x60 c u → n = c.param 0 2 → die = c.param 2 1 → addr = c.param 8 8 → len = c.param 0x10 2 →
      firstFail (dmaChecks u c) = none →
      (die < 12 ∧ (u.die die).service = 1 → exec (.dmaStart dt r host) s = .next (u.complete c .faulted 0 [])) ∧
      ((12 ≤ die ∨ (u.die die).service ≠ 1) →
        (u.channelOrphan n = true → exec (.dmaStart dt r host) s = .next (u.complete c .faulted 5 [])) ∧
        (u.channelOrphan n = false → image = padTo (32 * len) host →
          prog = (if addrSpace addr = 7 then (List.range len).map (fun i => (i, ((image.drop (32 * i)).take 32, none)))
            else []) →
          exec (.dmaStart dt r host) s = .next (((u.modChannel n (fun x => x.launch c.ref ((c.param 3 1).testBit 0) die addr
            len (u.tide + 1000 * c.param 4 4) prog)).setWait c.ref .channel none).fetchAhead n) ∧
          (((c.param 3 1).testBit 0 = false ∧ pc = 0) ∨
              ((c.param 3 1).testBit 0 = true ∧ ∃ q, (s.channel n).resume = some q ∧ q.pc = pc) →
            (addrSpace addr ≠ 7 → ∀ i, pc ≤ i → i ≤ pc + 8 → i < len →
              ∃ key, u.resolve dmaSpaces (if die < 12 then some die else none) (addr + 32 * i) 32 = some key ∧
                u.rangeWaits (u.servingComplex n) key 32 = false ∧ u.badRequest (u.servingComplex n) key 32 = false) →
            ∃ t, exec (.dmaStart dt r host) s = .next t ∧ (t.channel n).state = 1 ∧ (t.channel n).cmd = some c.ref ∧
              (t.channel n).lease = u.tide + 1000 * c.param 4 4 ∧ (t.channel n).progLen = len ∧ (t.channel n).pc = pc ∧
              (∀ i key, pc ≤ i → i ≤ pc + 8 → i < len → addrSpace addr ≠ 7 →
                u.resolve dmaSpaces (if die < 12 then some die else none) (addr + 32 * i) 32 = some key →
                tabFind (t.channel n).prog i = some (u.read key 32, u.firstPoison key 32)) ∧
              ((c.param 3 1).testBit 0 = false → (t.channel n).offS = 0 ∧ (t.channel n).offD = 0 ∧
                (t.channel n).crc = 0xFFFFFFFF ∧ (t.channel n).iters = [] ∧ (t.channel n).resume = none) ∧
              (∀ q, (c.param 3 1).testBit 0 = true → (s.channel n).resume = some q →
                (t.channel n).resumeByte = q.byte ∧ (t.channel n).offS = q.offS ∧ (t.channel n).offD = q.offD ∧
                (t.channel n).iters = q.iters ∧ (t.channel n).crc = q.crc) ∧
              (∀ m, m ≠ n → t.channel m = s.channel m) ∧ t.mem = s.mem ∧ t.commit = s.commit)))) ∧
    (∀ (n : Fin 192) (v : State), (s.channel n).active = true → s.channelPaused n = false →
      (s.channel n).lease ≤ (s.advance dt).tide →
      v = (s.advance dt).modChannel n (fun x => { x with
        state := 3, stopCause := 3, resume := some x.resumePoint, stop := false }) →
      ((s.channel n).cmd = none → exec (.channelLeaseExpiry dt n) s =
        .next (v.logRec 0 0x0080 sevWarning (s.channel n).lease 0 n)) ∧
      (∀ ref, (s.channel n).cmd = some ref → exec (.channelLeaseExpiry dt n) s =
        .next ((v.finish ref .timeout 0 (s.channel n).body).logRec 0 0x0080 sevWarning (s.channel n).lease 0 n)) ∧
      (∃ t, exec (.channelLeaseExpiry dt n) s = .next t ∧ (∀ m, m ≠ n.val → t.channel m = s.channel m) ∧
        t.mem = s.mem)) ∧
    (∀ (d : Fin 6) (addr : W64), (s.complex d).failed = false →
      ∃ t v : State, exec (.busError dt d addr) s = .next t ∧ t = v.logRec (srcComplex d) 0x0060 sevError addr.toNat d 0 ∧
        v.log = s.log ∧
        (∀ n, n < 192 → s.servingComplex n = d.val → (s.channel n).active = true → (t.channel n).state = 3 ∧
          (t.channel n).stopCause = 1 ∧ (t.channel n).resume = some (s.channel n).resumePoint ∧
          (∀ ref e, (s.channel n).cmd = some ref → s.findCmd ref = some e → ∃ e' body, t.findCmd ref = some e' ∧
            e'.work = .finished .faulted 1 body)) ∧
        (∀ n, n < 192 → s.servingComplex n = d.val → (t.complex (complexOf n)).busAddr = addr ∧
          (t.complex (complexOf n)).busTide = (s.advance dt).tide) ∧
        (∀ n, n < 192 → (s.servingComplex n ≠ d.val ∨ (s.channel n).active = false) → t.channel n = s.channel n) ∧
        (s.vectorEnabled 22 = true → s.host.functionMask = false → s.host.vectorMask.toNat.testBit 22 = false →
          22 ∈ t.host.msixSent) ∧ t.mem = s.mem)

/-- The six instructions of a channel program, each of which runs once it has been fetched, and after which the channel
fetches ahead (log 73); a read-back comes after every earlier write, and waits, or is a bus error, where it cannot be
made. MOVE copies a burst from memory or from the host, at most to the next 4 KiB of its source, with its poison, and
steps on after its last byte; LOOP goes back with its steps added while turns are left, and else takes them off again;
WAIT goes on where its conditions hold, with CONSUME and WRITES; SIGNAL clears, then sets, after every earlier write;
CHECK attaches, detaches, compares, with HALT at a mismatch, and stores; END reads back, stores the running CRC-32C
where asked and completes. -/
def Obligations.ChannelProgramsRun : Prop :=
  ∀ (dt : Nat) (n : Fin 192) (s u : State) (x : Channel) (bs : List Byte),
    u = s.advance dt → x = s.channel n → tabFind x.prog x.pc = some (bs, none) → x.active = true →
    s.channelPaused n = false → x.pc < x.progLen → instrOk bs = true →
    (∀ v : State, (v.fetchAhead n).mem = v.mem ∧ (v.fetchAhead n).host.signals = v.host.signals ∧
      (addrSpace (v.channel n).progAddr = 7 ∨ (v.channel n).active = false → v.fetchAhead n = v)) ∧
    (∀ (v : State) (go : State → State) (d : Nat), d = v.servingComplex n →
      ((∃ e ∈ (v.channel n).dests, v.rangeWaits d e.2 64 = true) → v.readBack n go = v) ∧
      ((∀ e ∈ (v.channel n).dests, v.rangeWaits d e.2 64 = false) →
        ((∀ e ∈ (v.channel n).dests, v.badRequest d e.2 64 = false) →
          v.readBack n go = go (v.modChannel n (fun y => { y with dests := [] }))) ∧
        (∀ e, (v.channel n).dests.find? (fun e => v.badRequest d e.2 64) = some e →
          v.readBack n go = v.busError d (BitVec.ofNat 64 e.2)))) ∧
    (∀ (host : List Byte) (src dst ks kd len count d : Nat), fieldAt bs 0 1 = 1 → count = fieldAt bs 4 4 →
      src = sideAddr ((fieldAt bs 1 1).testBit 0) (fieldAt bs 8 8) x.offS →
      dst = sideAddr ((fieldAt bs 1 1).testBit 1) (fieldAt bs 16 8) x.offD →
      s.resolve dmaSpaces x.dieOf src count = some ks → s.resolve dmaSpaces x.dieOf dst count = some kd →
      x.resumeByte < count → d = s.servingComplex n → len = burstBytes (ks + x.resumeByte) (count - x.resumeByte) →
      (u.rangeWaits d (ks + x.resumeByte) len = true ∨ u.rangeWaits d (kd + x.resumeByte) len = true →
        exec (.move dt n host) s = .next (u.fetchAhead n)) ∧
      (u.rangeWaits d (ks + x.resumeByte) len = false → u.rangeWaits d (kd + x.resumeByte) len = false →
        (u.badRequest d (ks + x.resumeByte) len = true → exec (.move dt n host) s =
          .next ((u.busError d (BitVec.ofNat 64 (src + x.resumeByte))).fetchAhead n)) ∧
        (u.badRequest d (ks + x.resumeByte) len = false → u.badRequest d (kd + x.resumeByte) len = true →
          exec (.move dt n host) s = .next ((u.busError d (BitVec.ofNat 64 (dst + x.resumeByte))).fetchAhead n)) ∧
        (u.badRequest d (ks + x.resumeByte) len = false → u.badRequest d (kd + x.resumeByte) len = false →
          ∃ v bytes, exec (.move dt n host) s = .next (v.fetchAhead n) ∧ bytes.length = len ∧
            v.mem = (s.write (kd + x.resumeByte) bytes).mem ∧ SameBut s v (kd + x.resumeByte) len ∧
            (rangesMeet ks kd count = false → addrSpace src = 7 → bytes = padTo len host) ∧
            (rangesMeet ks kd count = false → addrSpace src ≠ 7 → bytes = s.read (ks + x.resumeByte) len) ∧
            (addrSpace src ≠ 7 → ∀ y ∈ s.movedPoison (ks + x.resumeByte) (kd + x.resumeByte) len, y ∈ v.poison) ∧
            (v.channel n).moved = x.moved + len ∧
            (v.channel n).poisonMoved = x.poisonMoved +
              (if addrSpace src = 7 then 0 else s.poisonUnits64 (ks + x.resumeByte) len) ∧
            (v.channel n).crc = BitVec.ofNat 32 (crcAbsorb 0 x.crc.toNat bytes) ∧
            (x.resumeByte + len < count → (v.channel n).pc = x.pc ∧ (v.channel n).resumeByte = x.resumeByte + len) ∧
            (count ≤ x.resumeByte + len → (v.channel n).pc = x.pc + 1 ∧ (v.channel n).resumeByte = 0) ∧
            (v.channel n).offS = x.offS ∧ (v.channel n).offD = x.offD ∧ (∀ m, m ≠ n.val → v.channel m = s.channel m)))) ∧
    (∀ (count iter : Nat) (stepS stepD : W64), fieldAt bs 0 1 = 2 → count = fieldAt bs 4 4 → fieldAt bs 2 2 < x.pc →
      iter = tabGet 0 x.iters x.pc → stepS = BitVec.ofNat 64 (fieldAt bs 8 8) → stepD = BitVec.ofNat 64 (fieldAt bs 16 8) →
      count ≠ 0 →
      (iter + 1 < count → (iter ≠ 0 ∨ x.iters.length < 4) → exec (.loop dt n) s = .next ((u.modChannel n (fun y => { y with
        iters := tabSet x.iters x.pc (iter + 1), offS := x.offS + stepS, offD := x.offD + stepD, pc := fieldAt bs 2 2,
        resumeByte := 0, state := 1 })).fetchAhead n)) ∧
      (iter + 1 < count → iter = 0 → 4 ≤ x.iters.length → exec (.loop dt n) s = .next ((u.badProgram n).fetchAhead n)) ∧
      (count ≤ iter + 1 → exec (.loop dt n) s = .next ((u.modChannel n (fun y => { y with
        iters := tabDel x.iters x.pc, offS := x.offS - BitVec.ofNat 64 iter * stepS,
        offD := x.offD - BitVec.ofNat 64 iter * stepD, pc := x.pc + 1, resumeByte := 0, state := 1 })).fetchAhead n))) ∧
    (∀ (seen : Nat → Prop) (mask flags : Nat) (v : State), fieldAt bs 0 1 = 3 → flags = fieldAt bs 1 1 →
      mask = fieldAt bs 8 8 →
      (∀ j, seen j ↔ (s.signal j = true ∧ afterEvent (tabGet 0 s.host.signalTide j) ≤ u.tide)) →
      (fieldAt bs 16 8 ≤ u.tide →
        ((flags.testBit 0 = false ∧ ∀ j, j < 64 → mask.testBit j = true → seen j) ∨
          (flags.testBit 0 = true ∧ ((∀ j, j < 64 → mask.testBit j = false) ∨ ∃ j, j < 64 ∧ mask.testBit j = true ∧
            seen j))) →
        (v = u.readBack n (fun y => (if flags.testBit 1 then y.clearSignals (BitVec.ofNat 64 mask) else y).modChannel n
            (fun x => { x with pc := x.pc + 1, resumeByte := 0, state := 1 })) → flags.testBit 2 = true →
          exec (.wait dt n) s = .next (v.fetchAhead n)) ∧
        (v = (if flags.testBit 1 then u.clearSignals (BitVec.ofNat 64 mask) else u) → flags.testBit 2 = false →
          exec (.wait dt n) s = .next ((v.modChannel n (fun x => { x with
            pc := x.pc + 1, resumeByte := 0, state := 1 })).fetchAhead n))) ∧
      ((u.tide < fieldAt bs 16 8 ∨
          (flags.testBit 0 = false ∧ ∃ j, j < 64 ∧ mask.testBit j = true ∧ ¬ seen j) ∨
          (flags.testBit 0 = true ∧ (∃ j, j < 64 ∧ mask.testBit j = true) ∧
            ∀ j, j < 64 → mask.testBit j = true → ¬ seen j)) →
        exec (.wait dt n) s = .next ((u.modChannel n (fun x => { x with state := 2 })).fetchAhead n))) ∧
    (fieldAt bs 0 1 = 4 → exec (.dmaSignal dt n) s = .next ((u.readBack n (fun v => ((v.clearSignals
      (BitVec.ofNat 64 (fieldAt bs 8 8))).setSignals (BitVec.ofNat 64 (fieldAt bs 16 8))).modChannel n (fun x => { x with
        pc := x.pc + 1, resumeByte := 0, state := 1 }))).fetchAhead n)) ∧
    (∀ (k : Nat) (next : State → State), fieldAt bs 0 1 = 5 → k = fieldAt bs 1 1 → k < 64 →
      (∀ v : State, next v = v.modChannel n (fun x => { x with pc := x.pc + 1, resumeByte := 0, state := 1 })) →
      (fieldAt bs 2 1 = 0 → (s.unit k).armed = false → fieldAt bs 3 1 % 4 ≠ 3 →
        exec (.check dt n) s = .next ((next (u.modUnit k (fun y => y.arm (fieldAt bs 3 1 % 4) 0 n
          (BitVec.ofNat 64 (crcInit (fieldAt bs 3 1 % 4))) false ((x.cmd.bind s.findCmd).map Cmd.owner)))).fetchAhead n)) ∧
      (fieldAt bs 2 1 = 0 → (s.unit k).armed = true → exec (.check dt n) s = .next ((u.badProgram n).fetchAhead n)) ∧
      (fieldAt bs 2 1 = 1 → ∃ v, exec (.check dt n) s = .next ((next v).fetchAhead n) ∧ (v.unit k).armed = false ∧
        (v.unit k).value = (s.unit k).value ∧ (∀ m, m ≠ k → v.unit m = s.unit m) ∧ v.mem = s.mem) ∧
      (∀ v, fieldAt bs 2 1 = 2 → v = u.modUnit k (fun y => { y with
          expect := BitVec.ofNat 64 (fieldAt bs 8 8), lastTide := u.tide,
          lastMatched := !y.unverifiable && unitResult y == (BitVec.ofNat 64 (fieldAt bs 8 8)).toNat,
          mismatch := !y.unverifiable && unitResult y != (BitVec.ofNat 64 (fieldAt bs 8 8)).toNat }) →
        ((s.unit k).unverifiable = true ∨ unitResult (s.unit k) = (BitVec.ofNat 64 (fieldAt bs 8 8)).toNat →
          exec (.check dt n) s = .next ((next v).fetchAhead n)) ∧
        (∀ w, (s.unit k).unverifiable = false → unitResult (s.unit k) ≠ (BitVec.ofNat 64 (fieldAt bs 8 8)).toNat →
          w = (if (s.unit k).intEn then v.raise 23 else v).modChannel n (fun x => { x with mismatches := x.mismatches + 1 }) →
          ((fieldAt bs 3 1).testBit 7 = true →
            exec (.check dt n) s = .next ((w.failChannel n .faulted 2).fetchAhead n)) ∧
          ((fieldAt bs 3 1).testBit 7 = false → exec (.check dt n) s = .next ((next w).fetchAhead n)))) ∧
      (∀ (len key : Nat) (v : State), fieldAt bs 2 1 = 3 → len = unitBytes (s.unit k) →
        s.resolve dmaSpaces x.dieOf (sideAddr false (fieldAt bs 8 8) x.offD) len = some key →
        u.rangeWaits (s.servingComplex n) key len = false → u.badRequest (s.servingComplex n) key len = false →
        v = (u.write key (toBytes len (unitResult (s.unit k)))).modChannel n (fun x => { s.noteDest x key len with
          bytes := (x.bytes + len) % 2 ^ 64 }) →
        exec (.check dt n) s = .next ((next v).fetchAhead n) ∧ SameBut s v key len)) ∧
    (∀ (ref : CmdRef) (done : State → State), fieldAt bs 0 1 = 0 → x.cmd = some ref →
      (∀ v : State, done v = (v.modChannel n (fun y => { y with state := 0, stop := false, dests := [] })).finish ref .ok 0
        x.body) →
      (∀ e ∈ x.dests, u.rangeWaits (s.servingComplex n) e.2 64 = false ∧ u.badRequest (s.servingComplex n) e.2 64 = false) →
      ((fieldAt bs 1 1).testBit 0 = false → exec (.dmaEnd dt n) s = .next (done u)) ∧
      (∀ key, (fieldAt bs 1 1).testBit 0 = true →
        s.resolve dmaSpaces x.dieOf (sideAddr false (fieldAt bs 8 8) x.offD) 4 = some key →
        u.badRequest (s.servingComplex n) key 4 = false → u.rangeWaits (s.servingComplex n) key 4 = false →
        exec (.dmaEnd dt n) s = .next (done ((u.write key (toBytes 4 (crcResult 0 x.crc.toNat))).modChannel n (fun y =>
          { y with bytes := (y.bytes + 4) % 2 ^ 64 }))) ∧
        (∃ t, exec (.dmaEnd dt n) s = .next t ∧ t.mem = (s.write key (toBytes 4 (crcResult 0 x.crc.toNat))).mem ∧
          SameBut s t key 4 ∧ (t.channel n).state = 0 ∧ (∀ m, m ≠ n.val → t.channel m = s.channel m))))

/-- CHECK_ARM arms a unit from its initial value or from VALUE, at once or, with a limit, until the limit is reached,
where the unit compares with the EXPECT of the ARM; a second ARM is BUSY, DISARM reports the unit's value, COMPARE the
result of the comparison, and a limited ARM that is due ends with TIMEOUT and leaves its unit disarmed. REPLICA_SWEEP
starts once none of its lists is held, a participant with its context, and finishes its reads at a second event of its
row (log 49): the root broadcasts its results, or the blocks of a REPAIR, and completes, and a participant that has
heard all of the root's writes the results and reports what differs; what either read as poisoned is recorded and
reported. A die that has left service gives FAULTED, and a sweep that is due TIMEOUT. -/
def Obligations.ChecksAndSweeps : Prop :=
  ∀ (dt : Nat) (s u : State) (c : Cmd),
    (∀ (r : Fin 17) (n algo limit : Nat) (x y : CheckUnit), Starts s dt r 0x61 c u → n = c.param 0 1 →
      lowestFail (armChecks c) = none → x = u.unit n →
      (c.param 1 1 = 0 → x.armed = true → exec (.checkArm dt r) s = .next (u.complete c .busy 0 [])) ∧
      (c.param 1 1 = 0 → x.armed = false → algo = c.param 2 1 → limit = c.param 0x18 8 →
        y = { x.arm algo (c.param 3 1) (c.param 4 2) (BitVec.ofNat 64 (if (c.param 6 1).testBit 0 then
            c.param 8 8 % (if algo = 2 then 2 ^ 64 else 2 ^ 32) else crcInit algo)) ((c.param 6 1).testBit 1) (some c.owner) with
          expect := BitVec.ofNat 64 (c.param 0x10 8), armExpect := BitVec.ofNat 64 (c.param 0x10 8) } →
        (limit = 0 → exec (.checkArm dt r) s = .next ((u.modUnit n (fun _ => y)).complete c .ok 0 (unitBody y))) ∧
        (∀ d, limit ≠ 0 → d = (if c.param 0x20 4 = 0 then none else some (u.tide + 1000 * c.param 0x20 4)) →
          exec (.checkArm dt r) s = .next ((u.modUnit n (fun _ => { y with
            limit := limit, cmd := some c.ref, deadline := d })).setWait c.ref .limitedArm d))) ∧
      (c.param 1 1 = 1 → exec (.checkArm dt r) s =
        .next ((u.disarmUnit n .aborted).complete c .ok 0 (unitBody ((u.disarmUnit n .aborted).unit n)))) ∧
      (∀ (expect : W64) (v : State) (st : Status) (detail : Nat), c.param 1 1 = 2 →
        expect = BitVec.ofNat 64 (c.param 0x10 8) →
        (x.unverifiable = true ∧ st = .faulted ∧ detail = 3) ∨
          (x.unverifiable = false ∧ unitResult x = expect.toNat ∧ st = .ok ∧ detail = 0) ∨
          (x.unverifiable = false ∧ unitResult x ≠ expect.toNat ∧ st = .faulted ∧ detail = 2) →
        y = { x with expect := expect, lastTide := u.tide, lastMatched := st == .ok, mismatch := detail == 2 } →
        v = (if detail = 2 ∧ x.intEn = true then (u.modUnit n (fun _ => y)).raise 23 else u.modUnit n (fun _ => y)) →
        exec (.checkArm dt r) s = .next (v.complete c st detail (unitBody y)))) ∧
    (∀ (n : Fin 64) (ref : CmdRef) (d : Nat), (s.unit n).armed = true → (s.unit n).cmd = some ref →
      (s.unit n).deadline = some d → d ≤ (s.advance dt).tide →
      exec (.checkArmTimeout dt n) s = .next (((s.advance dt).modUnit n (fun x => { x with
        armed := false, limit := 0, cmd := none, deadline := none })).finish ref .timeout 0 (unitBody (s.unit n)))) ∧
    (∀ (n : Nat) (ref : CmdRef) (v : State), (s.unit n).armed = true → (s.unit n).limit ≠ 0 →
      (s.unit n).limit ≤ (s.unit n).bytes → (s.unit n).cmd = some ref → v = (s.compareUnit n (s.unit n).armExpect).1 →
      s.limitUnit n = (v.modUnit n (fun x => { x with armed := false, limit := 0, cmd := none, deadline := none })).finish
        ref (compareOutcome (s.unit n) (s.unit n).armExpect).1 (compareOutcome (s.unit n) (s.unit n).armExpect).2
          (unitBody (v.unit n))) ∧
    (∀ (p : SweepP) (es : List SweepEntry) (reads : List (Nat × Nat)) (key : Nat), Starts s dt 0 0x62 c u →
      (s.advance dt).readingSweep = none → p = sweepP c → es = u.sweepMap p → lowestFail (sweepChecks u c p es) = none →
      reads = u.sweepReads p es → key = (u.sweepKey p.result 0).getD 0 →
      (u.keyServed key = false ∨ (∃ q ∈ reads, u.keyServed q.1 = false) →
        exec (.replicaSweep dt) s = .next (u.complete c .faulted 0 [])) ∧
      (u.keyServed key = true → (∀ q ∈ reads, u.keyServed q.1 = true) →
        (u.anyStops (ioBase u.pkg.suffix (u.view p.collId).tile) (u.sweepLists p) = true →
          exec (.replicaSweep dt) s = .next (s.advance dt)) ∧
        (u.anyStops (ioBase u.pkg.suffix (u.view p.collId).tile) (u.sweepLists p) = false →
          ∃ (t : State) (w : Sweep), w.cmd = c.ref ∧ w.mode = p.mode ∧ w.collId = p.collId ∧
            w.epoch = u.commit.layoutEpoch ∧ w.deadline = u.tide + 1000 * p.timeout ∧ w.result = key ∧ w.staged = false ∧
            w.root = (u.view p.collId).parent.isNone ∧
            (p.mode ≠ 2 ∨ w.root = true → w.reading = true ∧ w.reads = reads) ∧
            (p.mode = 2 → w.root = false → w.reading = false) ∧
            exec (.replicaSweep dt) s = .next t ∧
            (w.root = true → t = ({ u with dma := { u.dma with sweeps := u.dma.sweeps ++ [w] } } : State).setWait
              c.ref .sweep (some w.deadline)) ∧
            (w.root = false → u.findColl 1 p.collId 0 w.epoch = none → u.openOn (u.view p.collId).tile < 16 →
              t.dma.sweeps = u.dma.sweeps ++ [w] ∧ t.mem = s.mem ∧ ∃ x, t.coll.ctxs = s.coll.ctxs ++ [x] ∧
                x.cmd = some c.ref ∧ x.lease = w.deadline)))) ∧
    (∀ (w y : Sweep) (v z : State) (bytes : List Byte) (hd : Nat → Nat × Nat → FrameHdr), u = s.advance dt →
      u.readingSweep = some (w, c) →
      (u.sweepHeld w = true → exec (.replicaSweep dt) s = .next u) ∧
      (u.sweepHeld w = false → (∃ q ∈ w.reads, u.keyServed q.1 = false) → u.findColl 1 w.collId 0 w.epoch = none →
        exec (.replicaSweep dt) s = .next (u.finishSweep w.cmd .faulted (bodyOf []))) ∧
      (u.sweepHeld w = false → (∀ q ∈ w.reads, u.keyServed q.1 = true) →
        y = { w with
          reading := false
          sums := if w.mode = 2 then [] else w.reads.map (fun r => BitVec.ofNat 64 (crcAbsorb 2 0 (u.read r.1 r.2)))
          poisoned := if w.mode = 2 then [] else w.reads.map (fun r => u.poisoned r.1 r.2) } →
        v = ((w.reads.filterMap (fun r => u.firstPoison r.1 r.2)).head?).elim u (fun a => u.poisonConsumed c a) →
        (w.root = true →
          bytes = (if w.mode = 2 then w.reads.flatMap (fun r => u.read r.1 r.2)
            else y.sums.flatMap (fun x => toBytes 8 x.toNat)) →
          (∀ q part, hd q part = {
            poison := decide (w.mode = 2) && u.rangesPoisoned w.reads part.1 part.2
            dstModule := (u.portItem q).peerModule }) →
          z = (payloadParts bytes.length).foldl (fun st part => (u.view w.collId).kids.foldl (fun st q =>
            st.send q (hd q part) (.gather {
              collId := w.collId, kind := 1, epoch := w.epoch, offset := part.1, total := bytes.length
              payload := (bytes.drop part.1).take part.2 })) st) (v.putSweep y) →
          (w.mode = 2 → exec (.replicaSweep dt) s = .next (z.finishSweep w.cmd .ok (bodyOf []))) ∧
          (w.mode ≠ 2 → exec (.replicaSweep dt) s =
            .next ((z.reportMismatch y y.bad).finishSweep w.cmd .ok (sweepBody y.bad)) ∧
            (∀ i, i ∈ y.bad ↔ ∃ q, w.reads[i]? = some q ∧ u.poisoned q.1 q.2 = true))) ∧
        (∀ x, w.root = false → u.findColl 1 w.collId 0 w.epoch = some x → x.cmd = some w.cmd →
          (w.landed < w.total → exec (.replicaSweep dt) s = .next (v.putSweep y)) ∧
          (w.total ≤ w.landed → w.void = false → w.mode = 0 → exec (.replicaSweep dt) s =
            .next (((((v.putSweep y).closeColl x).write w.result ((List.range y.sums.length).flatMap (fun i =>
              toBytes 8 (y.sums.getD i 0).toNat ++ toBytes 8 (fieldAt w.got (8 * i) 8)))).reportMismatch y y.bad).finishSweep
                w.cmd .ok (sweepBody y.bad)) ∧
            (∀ i, i ∈ y.bad ↔ ∃ q, w.reads[i]? = some q ∧ (u.poisoned q.1 q.2 = true ∨
              fieldAt w.got (8 * i) 8 ≠ (y.sums.getD i 0).toNat)))))) ∧
    (∀ (v : State) (w : Sweep) (n : Nat) (ns : List Nat), v.reportMismatch w [] = v ∧
      v.reportMismatch w (n :: ns) = (v.raise 24).logRec (srcRing 0) 0x0061 sevError 0 n w.mode) ∧
    (∀ (w : Sweep) (v : State), s.dma.sweeps = [w] → s.findCmd w.cmd = some c → c.live = true →
      w.deadline ≤ (s.advance dt).tide →
      (s.findColl 1 w.collId 0 w.epoch = none ∧ v = s.advance dt) ∨
        (∃ x, s.findColl 1 w.collId 0 w.epoch = some x ∧ x.cmd = some w.cmd ∧ v = (s.advance dt).closeColl x) →
      exec (.sweepTimeout dt) s = .next (v.finishSweep w.cmd .timeout (bodyOf [])))

/-! ### Configuration, and the service of a die (04, 17) -/

/-- CONFIG_STAGE answers as the image's check does and stages a good image; CONFIG_COMMIT applies the staged set at once
where everything is quiescent, is deferred or waits where not, and a set that waits applies whole at a quiescent
Tidemark that no step close is due at, or not at all, with FAULTED (log 70); past its wait it is deferred, and at its
very end it applies where it can. An apply is a commit point: CONFIG_EPOCH advances by one, both Tidemarks are taken,
and nothing stays staged. -/
def Obligations.ConfigurationsApplyWhole : Prop :=
  (∀ (s : State) (g : Staged), (s.applyConf g).conf = g.conf ∧ (s.applyConf g).staged = none ∧
    (s.applyConf g).commit = { s.commit with
      configEpoch := s.commit.configEpoch + 1, lastConfigTide := s.tide, lastCommitTide := max s.commit.lastCommitTide s.tide } ∧
    (s.applyConf g).mem = s.mem ∧ (s.applyConf g).layers = s.layers) ∧
  (∀ (dt : Nat) (s u : State) (c : Cmd) (host : Option (List Byte)) (key : Nat) (img : List Byte),
    Starts s dt 0 0x70 c u → c.param 0 1 < 2 → u.resolve [2, 4, 5, 7] none (c.param 8 8) (c.param 0x10 4) = some key →
    128 ≤ c.param 0x10 4 → c.param 0x10 4 ≤ 65536 → (∀ i, (1 ≤ i ∧ i < 8) ∨ (20 ≤ i ∧ i < 128) → c.param i 1 = 0) →
    u.commitWait = none → u.keyServed key = true →
    ((addrSpace (c.param 8 8) ≠ 7 ∧ u.ownStops key (c.param 0x10 4) = false ∧
      u.firstPoison key (c.param 0x10 4) = none ∧ img = u.read key (c.param 0x10 4)) ∨
      (addrSpace (c.param 8 8) = 7 ∧ ∃ bs, host = some bs ∧ img = padTo (c.param 0x10 4) bs)) →
    (∀ d body, u.checkImage img ((c.param 0 1).testBit 0) = .error (d, body) →
      exec (.configStage dt host) s = .next (u.complete c .badParam d body)) ∧
    (∀ g, u.checkImage img ((c.param 0 1).testBit 0) = .ok g →
      exec (.configStage dt host) s = .next (({ u with staged := some g } : State).complete c .ok 0 []))) ∧
  (∀ (dt : Nat) (s u : State) (c : Cmd), Starts s dt 0 0x71 c u → c.param 0 4 ≤ 60000000 →
    (∀ i, 4 ≤ i → i < 64 → c.param i 1 = 0) → s.commitWait = none →
    (∀ faultAt, s.staged = none → exec (.configCommit ⟨dt, faultAt⟩) s = .next (u.complete c .ok 0 [])) ∧
    (∀ g, s.staged = some g → u.quiescent g = true → u.closeDue = false →
      exec (.configCommit ⟨dt, none⟩) s = .next
        (((({ u with commitWait := none } : State).applyConf g).complete c .ok 0 []).replayHeldBar) ∧
      (∀ i, i < g.keys.length → exec (.configCommit ⟨dt, some i⟩) s = .next
        (((({ u with commitWait := none } : State).complete c .faulted 0 [])).replayHeldBar))) ∧
    (∀ g faultAt, s.staged = some g → u.quiescent g = false → u.closeDue = false → c.param 0 4 = 0 →
      exec (.configCommit ⟨dt, faultAt⟩) s = .next (u.complete c .deferred 0 [])) ∧
    (∀ g faultAt, s.staged = some g → (u.quiescent g = false ∧ c.param 0 4 ≠ 0) ∨ u.closeDue = true →
      ∃ t, exec (.configCommit ⟨dt, faultAt⟩) s = .next t ∧ t.conf = s.conf ∧ t.staged = some g ∧
        t.commitWait = some { cmd := c.ref, deadline := u.tide + 1000 * c.param 0 4 } ∧ t.mem = s.mem)) ∧
  (∀ (dt : Nat) (s : State) (w : CommitWait) (g : Staged) (c : Cmd), s.commitWait = some w → s.staged = some g →
    s.findCmd w.cmd = some c →
    ((s.advance dt).tide ≤ w.deadline → (s.advance dt).quiescent g = true → (s.advance dt).closeDue = false →
      exec (.configApply dt none) s = .next
        (((({ s.advance dt with commitWait := none } : State).applyConf g).complete c .ok 0 []).replayHeldBar) ∧
      (∀ i, i < g.keys.length → exec (.configApply dt (some i)) s = .next
        ((({ s.advance dt with commitWait := none } : State).complete c .faulted 0 []).replayHeldBar))) ∧
    (w.deadline < (s.advance dt).tide → exec (.configCommitTimeout dt) s = .next
      ((({ s.advance dt with commitWait := none } : State).complete c .deferred 0 []).replayHeldBar)) ∧
    ((s.advance dt).tide = w.deadline → (s.advance dt).closeDue = false →
      ((s.advance dt).quiescent g = false → exec (.configCommitTimeout dt) s = .next
        ((({ s.advance dt with commitWait := none } : State).complete c .deferred 0 []).replayHeldBar)) ∧
      ((s.advance dt).quiescent g = true → exec (.configCommitTimeout dt) s = .next
        (((({ s.advance dt with commitWait := none } : State).applyConf g).complete c .ok 0 []).replayHeldBar))))

/-- A die's service: DIE_DRAIN of an idle die takes it out of service, and of a busy one waits; at its timeout the die
returns to service with DEFERRED, or leaves it by force with ABORTED for each command that runs there, a DMA channel
with its lease revoked instead, the micro-batches that they name dropped, and both counted in its BODY. DIE_REPAIR holds
a drained die until its completion, which reports what its test found; DIE_RETURN brings it back only after a repair
that found 32 arrays. No other die changes. -/
def Obligations.DiesLeaveAndReturn : Prop :=
  (∀ (dt die : Nat) (s u v : State) (c : Cmd), Starts s dt 0 0x72 c u → die = c.param 0 1 → die < 12 → c.param 1 1 < 2 →
    1 ≤ c.param 4 4 → c.param 4 4 ≤ 60000000 → (∀ i, i = 2 ∨ i = 3 ∨ (8 ≤ i ∧ i < 64) → c.param i 1 = 0) →
    ((s.die die).service ≠ 0 → exec (.dieDrain dt) s = .next (u.complete c .busy 0 [])) ∧
    ((s.die die).service = 0 →
      v = ((u.setService die 1).setWait c.ref .dieDrain (some (u.tide + 1000 * c.param 4 4))).modCmd c.ref (fun d => { d with
        aux := ((u.onDie die).map (·.ring)).eraseDups }) →
      (v.onDie die = [] → exec (.dieDrain dt) s = .next ((v.drained die).complete c .ok 0 (drainBody 0 0))) ∧
      (v.onDie die ≠ [] → exec (.dieDrain dt) s = .next v) ∧
      (∃ t, exec (.dieDrain dt) s = .next t ∧
        ((∀ d ∈ u.allCmds, d.start.isSome = true → d.namesDie ≠ some die) →
          (t.die die).service = 2 ∧ (t.die die).outOfService = true) ∧
        ((∃ d ∈ u.allCmds, d.start.isSome = true ∧ d.live = true ∧ d.namesDie = some die ∧ d.ref ≠ c.ref) →
          (t.die die).service = 1 ∧ (t.die die).outOfService = (s.die die).outOfService) ∧
        (∀ n, n ≠ die → t.die n = s.die n) ∧ t.conf = s.conf ∧ t.commit = s.commit))) ∧
  (∀ (dt : Nat) (s v w : State) (c : Cmd) (die : Fin 12) (d : Nat) (ms : List (Nat × Nat)), (s.ring 0).cmds = [c] →
    c.opcode = 0x72 → c.work = .waiting .dieDrain → c.param 0 1 = die.val → c.deadline = some d → d ≤ (s.advance dt).tide →
    ((s.onDie die) ≠ [] → (c.param 1 1).testBit 0 = false → exec (.drainTimeout dt die) s =
      .next (((s.advance dt).setService die 0).complete c .deferred 0 (drainBody 0 0))) ∧
    ((s.onDie die) ≠ [] → (c.param 1 1).testBit 0 = true →
      v = (s.onDie die).foldl (fun st x => match st.findCmd x.ref with
        | some y => if y.live then st.endOnDie y .aborted else st
        | none => st) (s.advance dt) →
      ms = (mbsNamed ((s.onDie die).filter (fun x => x.opcode != 0x60))).filter (fun m => (v.mb m.1 m.2).admitted) →
      w = ms.foldl (fun st m => st.dropMb m.1 m.2) v →
      exec (.drainTimeout dt die) s = .next ((w.drained die).complete c .ok 0
        (drainBody ((s.onDie die).filter (fun x => x.opcode != 0x60)).length ms.length)) ∧
      (∃ t, exec (.drainTimeout dt die) s = .next t ∧ (t.die die).service = 2 ∧ (t.die die).outOfService = true ∧
        t.conf = s.conf ∧ t.commit.stepNumber = s.commit.stepNumber)) ∧
    ((s.onDie die) = [] → (s.advance dt).drainPast c = true → exec (.drainTimeout dt die) s =
      .next (((s.advance dt).drained die).complete c .ok 0 (drainBody 0 0)))) ∧
  (∀ (v : State) (d : Cmd) (k : Nat) (x : Slot), d.silent = false → d.slot = some k → v.slot d.ring k = some x →
    x.marked = false → (d.opcode ≠ 0x60 ∨ ∃ j, d.work = .array j) →
    ∃ y, (v.endOnDie d .aborted).slot d.ring k = some y ∧ y.ready = true ∧ y.status = .aborted) ∧
  (∀ (v : State) (d : Cmd), d.opcode = 0x60 → (∀ j, d.work ≠ .array j) →
    v.endOnDie d .aborted = v.revokeChannel (d.param 0 2)) ∧
  (∀ (dt : Nat) (s u : State) (c : Cmd) (inp : RepairInput), Starts s dt 0 0x73 c u → c.param 0 1 < 12 →
    c.param 1 1 < 2 → (∀ i, 2 ≤ i → i < 64 → c.param i 1 = 0) →
    ((s.die (c.param 0 1)).service ≠ 2 → exec (.dieRepair dt inp) s = .next (u.complete c .busy 0 [])) ∧
    ((s.die (c.param 0 1)).service = 2 → ∃ t, exec (.dieRepair dt inp) s = .next t ∧ (t.die (c.param 0 1)).service = 3 ∧
      (t.die (c.param 0 1)).repairIn = some inp ∧ (∀ n, n ≠ c.param 0 1 → t.die n = s.die n) ∧ t.mem = s.mem ∧
      t.poison = s.poison)) ∧
  (∀ (s v w : State) (c : Cmd) (inp : RepairInput) (die : Nat) (ok : Bool), die = c.param 0 1 →
    (s.die die).repairIn = some inp → v = (if (c.param 1 1).testBit 0 then s else s.wipeDie die) →
    w = ((v.modDie die (fun d => { d with channels := [], bankErrors := [], repairIn := none })).assignArrays inp.arrays
      die).assignBanks inp.banks die → ok = decide ((w.die die).inService = 32) →
    s.endRepair c = (((w.drained die).modDie die (fun d => { d with repaired := ok })).complete c
      (if ok then .ok else .faulted) 0 (bodyOf [(0, 1, (w.die die).inService), (1, 1, (w.die die).sparesFree),
        (2, 2, (w.die die).banksSpared)])).wakeHeld) ∧
  (∀ (dt : Nat) (s u : State) (c : Cmd), Starts s dt 0 0x74 c u → c.param 0 1 < 12 →
    (∀ i, 1 ≤ i → i < 64 → c.param i 1 = 0) →
    ((s.die (c.param 0 1)).service ≠ 2 ∨ (s.die (c.param 0 1)).repaired = false →
      exec (.dieReturn dt) s = .next (u.complete c .busy 0 [])) ∧
    ((s.die (c.param 0 1)).service = 2 → (s.die (c.param 0 1)).repaired = true →
      ∃ t, exec (.dieReturn dt) s = .next t ∧ (t.die (c.param 0 1)).service = 0 ∧
        (t.die (c.param 0 1)).outOfService = false ∧ (∀ n, n ≠ c.param 0 1 → t.die n = s.die n)))

/-! ### Memory errors, faults and their recoveries (10, 17) -/

/-- Memory errors. A controller that finds an error in a unit that is not poisoned counts it; one bad bit, or up to
three bad symbols in the far tier, is corrected; two bad bits, or four or five bad symbols, also leave the unit
poisoned, its bytes as they were, and its Tidemark; a unit that already reads as poisoned is counted no more, and one
that is held is not read; a word of an accumulator memory is poisoned and not counted. A far-tier parity failure is
retried and counted, at most four times for one transfer, whose failure then counts as exhausted. -/
def Obligations.MemoryErrorsAreCounted : Prop :=
  ∀ (dt : Nat) (a : W64) (u bad : Nat) (passDone : Bool) (s : State), s.power.diesPowered = true →
    u = a.toNat / poisonUnit a.toNat * poisonUnit a.toNat →
    (isAccKey a.toNat = false → s.keyHeld a.toNat = true → exec (.patrolScrub dt a bad passDone) s = .next (s.advance dt)) ∧
    (∀ die sp off, isAccKey a.toNat = false → s.keyHeld a.toNat = false →
      s.controllerOf a.toNat = some (.near die sp off) → bad ≤ 2 →
      ∃ t, exec (.patrolScrub dt a bad passDone) s = .next t ∧ t.mem = s.mem ∧ (∀ n, n ≠ die → t.die n = s.die n) ∧
        (s.unitPoisoned u = true → t = s.advance dt) ∧ (bad = 0 → t = s.advance dt) ∧
        (s.unitPoisoned u = false → bad = 1 → (t.die die).nearEcc = (s.die die).nearEcc + 1 ∧ t.poison = s.poison ∧
          (t.die die).nearUncorr = (s.die die).nearUncorr) ∧
        (s.unitPoisoned u = false → bad = 2 → (∀ v, v ∈ t.poison ↔ v = u ∨ v ∈ s.poison) ∧
          (t.die die).nearUncorr = satAdd 32 (s.die die).nearUncorr 1 ∧ (t.die die).nearUncorrTide = (s.advance dt).tide ∧
          (t.die die).nearPoisonSpace = spaceCode sp ∧ (t.die die).nearPoisonOffset = off / 8 * 8)) ∧
    (∀ f off, isAccKey a.toNat = false → s.keyHeld a.toNat = false → s.controllerOf a.toNat = some (.far f off) → bad ≤ 5 →
      ∃ t, exec (.patrolScrub dt a bad passDone) s = .next t ∧ t.mem = s.mem ∧ (∀ g, g ≠ f → t.stack g = s.stack g) ∧
        (t.stack f).scrubPass = (s.stack f).scrubPass + b2n passDone ∧
        (s.unitPoisoned u = true ∨ bad = 0 → t.poison = s.poison ∧ (t.stack f).corrected = (s.stack f).corrected ∧
          (t.stack f).uncorr = (s.stack f).uncorr) ∧
        (s.unitPoisoned u = false → 1 ≤ bad → bad ≤ 3 → (t.stack f).corrected = (s.stack f).corrected + 1 ∧
          t.poison = s.poison) ∧
        (s.unitPoisoned u = false → 4 ≤ bad → (∀ v, v ∈ t.poison ↔ v = u ∨ v ∈ s.poison) ∧
          (t.stack f).uncorr = satAdd 32 (s.stack f).uncorr 1 ∧ (t.stack f).uncorrTide = (s.advance dt).tide ∧
          (t.stack f).poisonOffset = off / 64 * 64)) ∧
    (isAccKey a.toNat = true → bad ≤ 2 → ∃ t, exec (.patrolScrub dt a bad passDone) s = .next t ∧ t.mem = s.mem ∧
      t = { s.advance dt with poison := t.poison } ∧ (bad ≤ 1 → t.poison = s.poison) ∧
      (bad = 2 → ∀ v, v ∈ t.poison ↔ v = u ∨ v ∈ s.poison)) ∧
    (∀ (f ch : Fin 16) (tr : Nat) (c : FarChannel), c = tabGet {} (s.stack f).channels ch → f.val < s.nStacks →
      c.state = 0 →
      ((∀ e ∈ c.replay, e.1 ≠ tr) → ∃ t, exec (.farParityFailure dt f ⟨ch, tr⟩) s = .next t ∧
        (t.stack f).retries = satAdd 32 (s.stack f).retries 1 ∧ (∀ g, g ≠ f.val → t.stack g = s.stack g) ∧
        (tr, 1, (s.advance dt).tide) ∈ (tabGet {} (t.stack f).channels ch).replay ∧
        t = { s.advance dt with farStacks := t.farStacks }) ∧
      (∀ x, c.replay = [(tr, 4, x)] → (s.advance dt).tide ≤ x + 60 →
        ∃ t, exec (.farParityFailure dt f ⟨ch, tr⟩) s = .next t ∧ (t.stack f).retries = (s.stack f).retries ∧
          (tabGet {} (t.stack f).channels ch).exhausted = true ∧ (t.stack f).exhausted = satAdd 16 (s.stack f).exhausted 1 ∧
          (∀ g, g ≠ f.val → t.stack g = s.stack g) ∧
          t = { s.advance dt with farStacks := t.farStacks }))

/-- Faults that a unit detects: each is counted in its class and begins a recovery that knows whether a spare is left. A
near-tier bank begins its copy to a free spare, which takes its place when the copy is done, while the channel pauses; a
far-tier channel retrains, with the lanes steered that a spare can take; a failing lane or sub-link leaves its link to
retrain; a lease on a bank whose time is over ends its part, unless the part is held. A recovery that may end leaves the
list and does its class's work: a far-tier channel serves again or is failed, a spare row
serves, the partner takes a complex's channels, and a failed core's rings go to the standby core; a class without a
spare counts a failed recovery. -/
def Obligations.FaultsAreDeclaredAndEnd : Prop :=
  (∀ (dt cls unit : Nat) (noSpare : Bool) (i : Instr) (s : State), s.power.diesPowered = true →
    ((∃ (die : Fin 12) (ch : Fin 64) (bank : Fin 32) (second : Bool), i = .nearBankFault dt die ch bank second ∧ cls = 4 ∧
        (s.advance dt).bankTrips die ch bank = true ∧ s.recovering 4 (bankUnit die ch bank) = false ∧
        unit = die.val * 65536 + ch.val * 256 + bank.val ∧
        noSpare = !decide ((s.pendingCopies die ch).length < (tabGet ({} : NearChannel) (s.die die).channels ch).spares)) ∨
      (∃ (die : Fin 12) (a : Fin 32) (row : Fin 64), i = .cellRowFault dt die a row ∧ (s.die die).outOfService = false ∧
        s.log.recoveries = [] ∧ (s.array die a).failRow = some row.val ∧ (s.refusers die a) ≠ [] ∧
        (s.array die a).freeRows row ≠ 0 ∧ cls = 6 ∧ unit = die.val * 65536 + a.val * 256 + row.val ∧
        noSpare = false) ∨
      (∃ (die : Fin 12) (a : Fin 32), i = .arrayFault dt die a ∧ (s.die die).outOfService = false ∧ cls = 5 ∧
        unit = die.val * 256 + a.val ∧ noSpare = (s.die die).freeArrays.isEmpty) ∨
      (∃ d : Fin 6, i = .dmaComplexFault dt d ∧ (s.complex d).failed = false ∧ cls = 7 ∧ unit = d.val ∧
        noSpare = (s.complex (partnerOf d)).failed) ∨
      (∃ c : Fin 6, i = .coreFault dt c ∧ c.val ∉ s.host.failedCores ∧ cls = 8 ∧ unit = c.val ∧
        noSpare = (s.host.standby.isNone || s.host.standby == some c.val)) ∨
      (∃ (x : Fin 6) (ok : Bool), i = .switchTileFault dt x ok ∧ x.val < s.nIoDies ∧ (s.tile x).inService = true ∧ cls = 9 ∧
        unit = x.val ∧ noSpare = !ok) ∨
      (∃ (p : Fin 24) (lane : Fin 8), i = .laneFault dt p lane ∧ s.portActive p = true ∧
        (s.port p).train.agreed.toNat.testBit lane = true ∧ cls = 1 ∧ unit = p.val * 256 + lane.val ∧
        noSpare = ((s.portItem p).spare.isNone || (s.port p).train.spareFailed || (s.port p).train.sparePos.isSome)) ∨
      (∃ (k : Fin 3) (sub : Fin 8), i = .seamSublinkFault dt k sub ∧ (s.train (.seam k)).state = .active ∧
        (s.train (.seam k)).agreed.toNat.testBit sub = true ∧ cls = 2 ∧ unit = k.val * 256 + sub.val ∧ noSpare = false)) →
    ∃ t src, exec i s = .next t ∧ t.log.recoveries = s.log.recoveries ++
        [{ cls := cls, unit := unit, since := (s.advance dt).tide, noSpare := noSpare,
           overlap := s.recovering cls unit, source := src }] ∧
      (tabGet {} t.log.classes cls).count = satAdd 16 (tabGet {} s.log.classes cls).count 1 ∧
      (∀ k, k ≠ cls → tabGet {} t.log.classes k = tabGet {} s.log.classes k) ∧ t.mem = s.mem ∧ t.poison = s.poison ∧
      t.commit = s.commit ∧ t.conf = s.conf) ∧
  (∀ (dt : Nat) (die : Fin 12) (ch : Fin 64) (bank : Fin 32) (x : NearChannel) (s : State), s.power.diesPowered = true →
    x = tabGet {} (s.die die).channels ch →
    ((s.advance dt).bankTrips die ch bank = true → s.recovering 4 (bankUnit die ch bank) = false →
      (s.pendingCopies die ch).length < x.spares → x.copying = none →
      ∀ second, ∃ t, exec (.nearBankFault dt die ch bank second) s = .next t ∧
      tabGet {} (t.die die).channels ch = { x with copying := some bank.val, toSecond := second }) ∧
    (∀ (b : Nat) (y z : NearChannel), x.copying = some b →
      (x.spare0 = 0x3F ∧ (x.toSecond = false ∨ x.spare1 ≠ 0x3F) ∧ y = { x with spare0 := b }) ∨
        (x.toSecond = true ∧ x.spare1 = 0x3F ∧ y = { x with spare1 := b, toSecond := false }) ∨
        (x.toSecond = false ∧ x.spare0 ≠ 0x3F ∧ x.spare1 = 0x3F ∧ y = { x with spare1 := b }) →
      z = { y with
        copying := ((s.pendingCopies die ch).filter (fun z => z != b)).head?, lastSpare := (s.advance dt).tide
        paused := tabSet x.paused b (s.advance dt).tide } →
      exec (.bankCopyDone dt die ch) s = .next ((s.advance dt).modDie die (fun d => { d with
        channels := tabSet d.channels ch z })))) ∧
  (∀ (dt : Nat) (f ch : Fin 16) (ca : List CaLane) (d0 d1 : List DataLane) (x : FarChannel) (s : State),
    s.power.diesPowered = true → f.val < s.nStacks → x = tabGet {} (s.stack f).channels ch → x.state = 0 →
    (x.exhausted = true ∨ 256 < (withinMs (s.advance dt).tide x.recent).length) →
    ∃ t, exec (.farChannelFault dt f ch ca d0 d1) s = .next t ∧ tabGet {} (t.stack f).channels ch = { x with
        state := 1, lastRetrain := (s.advance dt).tide, replay := [], recent := [], exhausted := false
        spareCa := (steerCa x.spareCa ca).getD x.spareCa, spareD0 := (steerData x.spareD0 d0).getD x.spareD0
        spareD1 := (steerData x.spareD1 d1).getD x.spareD1 } ∧
      (t.stack f).retrains = satAdd 16 (s.stack f).retrains 1 ∧ (∀ g, g ≠ f.val → t.stack g = s.stack g) ∧
      (∃ r, t.log.recoveries = s.log.recoveries ++ [r] ∧ r.cls = 3 ∧ r.unit = f.val * 256 + ch.val ∧
        (r.noSpare = false ↔ (steerCa x.spareCa ca).isSome = true ∧ (steerData x.spareD0 d0).isSome = true ∧
          (steerData x.spareD1 d1).isSome = true))) ∧
  (∀ (dt : Nat) (die : Fin 12) (s : State) (e : Engine) (b : Nat × Nat), (s.die die).engine = some e → e.banks = [b] →
    b.2 + 1000000 < (s.advance dt).tide →
    ((∃ c, s.findCmd e.cmd = some c ∧ (s.advance dt).partHeld (updP c) e.nstate = true) →
      exec (.bankLeaseExpiry dt die) s = .next (s.advance dt)) ∧
    ((∀ c, s.findCmd e.cmd = some c → (s.advance dt).partHeld (updP c) e.nstate = false) →
      exec (.bankLeaseExpiry dt die) s = .next ((s.advance dt).revokePart die [b]) ∧
      (((s.advance dt).revokePart die [b]).die die).engine = none ∧
      (((s.advance dt).revokePart die [b]).layer e.layer).failed = true)) ∧
  (∀ (dt unit : Nat) (s v : State) (r : Recovery) (bad : List Nat) (ok : Bool),
    s.log.recoveries.find? (fun x => x.cls == r.cls && x.unit == unit) = some r →
    ((s.advance dt).mayResume r = false → exec (.recoveryDone dt r.cls ⟨unit, bad⟩) s = .next (s.advance dt)) ∧
    ((s.advance dt).mayResume r = true →
      v = { s.advance dt with log := { s.log with recoveries := s.log.recoveries.erase r } } →
      ok = (v.recover r bad).1 →
      exec (.recoveryDone dt r.cls ⟨unit, bad⟩) s =
        .next (((((v.recover r bad).2).recordRecovery (v.interruption r) r ok).wakeHeld).replayHeldBar) ∧
      (tabGet {} (((v.recover r bad).2).recordRecovery (v.interruption r) r ok).log.classes r.cls).failed =
        (if ok then (tabGet {} (v.recover r bad).2.log.classes r.cls).failed
          else satAdd 16 (tabGet {} (v.recover r bad).2.log.classes r.cls).failed 1) ∧
      (r.cls = 3 ∨ r.cls = 4 ∨ r.cls = 9 → ok = !r.noSpare))) ∧
  (∀ (dt : Nat) (s : State) (r : Recovery) (bad : List Nat), s.log.recoveries = [r] → s.host.held = [] →
      (s.advance dt).mayResume r = true →
      (r.cls = 3 ∨ r.cls = 4 ∨ r.cls = 6 ∨ r.cls = 7 ∨ r.cls = 8 →
        ∃ t, exec (.recoveryDone dt r.cls ⟨r.unit, bad⟩) s = .next t ∧ t.log.recoveries = [] ∧
          (r.cls = 3 → (tabGet {} (t.stack (r.unit / 256)).channels (r.unit % 256)).state = (if r.noSpare then 2 else 0) ∧
            (tabGet {} t.log.classes 3).failed = (if r.noSpare then satAdd 16 (tabGet {} s.log.classes 3).failed 1
              else (tabGet {} s.log.classes 3).failed)) ∧
          (r.cls = 6 → (s.die (r.unit / 65536)).outOfService = false →
            (t.array (r.unit / 65536) (r.unit / 256 % 256)).spare64 =
              ((s.array (r.unit / 65536) (r.unit / 256 % 256)).takeRow (r.unit % 256) (s.advance dt).tide).spare64 ∧
            (t.array (r.unit / 65536) (r.unit / 256 % 256)).spare65 =
              ((s.array (r.unit / 65536) (r.unit / 256 % 256)).takeRow (r.unit % 256) (s.advance dt).tide).spare65) ∧
          (r.cls = 7 → (t.complex r.unit).failed = true ∧ (∀ d, d ≠ r.unit → t.complex d = s.complex d)) ∧
          (∀ x, r.cls = 8 → s.host.standby = some x → x ≠ r.unit → s.host.restarting ≠ some r.unit →
            t.host.standby = none ∧
            (∀ q, q < 17 → (t.ring q).core = (if (s.ring q).core = r.unit then x else (s.ring q).core)))))

/-! ### Management (18) -/

/-- The module controller answers while the module is not Off. SETDASA of the module's static address and ENTDAA of a
module without one set its dynamic address, and the endpoint ID and the event receiver are kept. SPDM answers in its
order: a version, the capabilities, the algorithms, and only then digests, certificates, a challenge and measurements;
any other request is unsupported. A sensor that exists answers its value, one that does not an error; the OEM register
read answers the registers; none of them changes more than the management state, but for the one free value of a
challenge. -/
def Obligations.ManagementRequestsAreAnswered : Prop :=
  ∀ (dt : Nat) (s u : State) (m : Mgmt), s.power.phase ≠ .off → u = s.advance dt → m = s.mgmt →
    (∀ (v : State) (code : Nat) (body : List Byte),
      (v.mgmt.dynAddr.isSome = true →
        v.reply code body = { v with mgmt := { v.mgmt with code := code, response := body } }) ∧
      (v.mgmt.dynAddr = none → v.reply code body = v)) ∧
    (∀ static dynamic, exec (.setdasa dt static dynamic) s = .next { u with mgmt := { m with
      dynAddr := if static = 0x10 + s.power.slotId then some dynamic else m.dynAddr } }) ∧
    (∀ dynamic, exec (.entdaa dt dynamic) s = .next { u with mgmt := { m with
      dynAddr := if m.dynAddr.isNone then some dynamic else m.dynAddr } }) ∧
    (∀ eid, exec (.setEndpointId dt eid) s =
      .next (({ u with mgmt := { m with eid := eid } } : State).reply 0 [eid])) ∧
    (∀ eid, exec (.setEventReceiver dt eid) s =
      .next (({ u with mgmt := { m with eventReceiver := some eid } } : State).reply 0 [])) ∧
    exec (.getVersion dt) s = .next (({ u with mgmt := { m with
      spdmVersionSeen := true, spdmNegotiated := false } } : State).reply 0x04 [0x13]) ∧
    (m.spdmVersionSeen = true → exec (.getCapabilities dt) s = .next (u.reply 0x61 (toBytes 4 0x16)) ∧
      exec (.negotiateAlgorithms dt true true) s = .next (({ u with mgmt := { m with
        spdmNegotiated := true } } : State).reply 0x63 (toBytes 8 extAlgWord)) ∧
      exec (.negotiateAlgorithms dt false true) s = .next (u.reply spdmError [errInvalid]) ∧
      exec (.negotiateAlgorithms dt true false) s = .next (u.reply spdmError [errInvalid])) ∧
    (m.spdmVersionSeen = false → exec (.getCapabilities dt) s = .next (u.reply spdmError [errUnexpected]) ∧
      ∀ a b, exec (.negotiateAlgorithms dt a b) s = .next (u.reply spdmError [errUnexpected])) ∧
    (∀ (i : Instr) (slot index off len : Nat) (sign : Bool) (nonce : List Byte), m.spdmNegotiated = false →
      (i = .getDigests dt ∨ i = .getCertificate dt slot off len ∨ i = .challenge dt slot nonce ∨
        (i = .getMeasurements dt slot index sign nonce ∧ (9 ∉ measuredBlocks index ∨ u.applyDue = false))) →
          exec i s = .next (u.reply spdmError [errUnexpected])) ∧
    (∀ (slot : Nat) (nonce : List Byte), m.spdmNegotiated = true → slot ≤ 1 →
      exec (.getDigests dt) s = .next (u.reply 0x01 (Config.sha3 (s.chain 0) ++ Config.sha3 (s.chain 1))) ∧
      (∀ off len, exec (.getCertificate dt slot off len) s = .next (u.reply 0x02 (((s.chain slot).drop off).take len))) ∧
      (∀ body, body = Config.sha3 (s.chain slot) ++ toBytes 8 (Config.freeValue s.fresh).toNat →
        exec (.challenge dt slot nonce) s = .next (({ u with fresh := s.fresh + 1 } : State).reply 0x03
          (body ++ Config.mlDsaSign slot (s.slotKey slot) (nonce ++ body)))) ∧
      (∀ (index : Nat) (body : List Byte), (1 ≤ index ∧ index ≤ 10 ∧ body = s.measurementBlock index ∧
            (index = 3 → s.host.rotation = none)) ∨
          (index = 0 ∧ body = [10]) ∨ (index = 0xFF ∧ s.host.rotation = none ∧
            body = (List.range 10).flatMap (fun i => s.measurementBlock (i + 1))) →
        (index = 9 ∨ index = 0xFF → u.applyDue = false) →
        exec (.getMeasurements dt slot index false nonce) s = .next (u.reply 0x60 body) ∧
        exec (.getMeasurements dt slot index true nonce) s =
          .next (u.reply 0x60 (body ++ Config.mlDsaSign slot (s.slotKey slot) (nonce ++ body)))) ∧
      (∀ sign, s.host.rotation.isSome = true →
        exec (.getMeasurements dt slot 3 sign nonce) s = .next (u.reply spdmError [errNotReady]))) ∧
    (∀ i, s.measurementBlock i = toBytes 1 i ++ toBytes 1 1 ++ toBytes 2 ((s.measurement i).length + 3) ++
      toBytes 1 (measurementType i) ++ toBytes 2 (s.measurement i).length ++ s.measurement i) ∧
    (∀ slot index sign nonce, 9 ∈ measuredBlocks index → u.applyDue = true →
      exec (.getMeasurements dt slot index sign nonce) s = .next u) ∧
    (∀ code, exec (.spdmOtherRequest dt code) s = .next (u.reply spdmError [errUnsupported, code])) ∧
    (∀ n, exec (.getSensorReading dt n) s = .next (match s.sensor n with
      | some v => u.reply 0 (toBytes 4 v)
      | none => u.reply 0x80 [])) ∧
    s.sensor 1 = some s.power.vin ∧ s.sensor 3 = some s.power.pin ∧ s.sensor 0 = none ∧
    (∀ n, n < 12 → s.sensor (0x10 + n) = some (s.die n).tj) ∧
    (∀ off count, 2 ≤ s.power.step → off % 8 = 0 → 1 ≤ count → count ≤ 64 → off + 8 * count ≤ 0x1000 →
      (u.applyDue = true → ∀ i, i < count → configReg (off + 8 * i) = false) → exec (.oemRegisterRead dt off count) s =
        .next (u.reply 0 ((List.range count).flatMap (fun i => toBytes 8 (u.globalWord (off + 8 * i)))))) ∧
    (∀ off count, u.applyDue = true → (∃ i, i < count ∧ configReg (off + 8 * i) = true) →
      exec (.oemRegisterRead dt off count) s = .next u) ∧
    (∀ off count, u.applyDue = false → s.power.step < 2 →
      exec (.oemRegisterRead dt off count) s = .next (u.reply pldmNotReady []))

/-- The firmware update: its requests in the order of its states, each refused in a state that does not have it; the
data reach the image at their offsets, and what the inactive slot held is overwritten; a whole image is written to the
inactive slot and checked there, and one that passes waits, once applied, for the activation, an owner record taking
effect at once. Activation in service restarts the standby core first, then each serving core, whose rings go to the
core that has just restarted, core 0 last; a core whose fault is being recovered holds it up. -/
def Obligations.FirmwareUpdatesRun : Prop :=
  ∀ (dt : Nat) (s u : State) (m : Mgmt), s.power.phase ≠ .off → u = s.advance dt → m = s.mgmt →
    exec (.queryDeviceIdentifiers dt) s = .next (u.reply 0 Config.deviceIdentifiers) ∧
    exec (.getFirmwareParameters dt) s = .next (u.reply 0 ((List.range 8).flatMap (fun i =>
      toBytes 2 (indexComponent i) ++ toBytes 8 (fwWord s i)))) ∧
    exec (.getStatus dt) s = .next (u.reply 0 [BitVec.ofNat 8 m.updState]) ∧
    (∀ max, (m.updState = 0 → exec (.requestUpdate dt max) s = .next (({ u with mgmt := { m with
        updState := 1, updMax := min max 4096, updTable := [], updComponent := none, updData := [],
        updImage := none } } : State).reply 0 [])) ∧
      (m.updState ≠ 0 → exec (.requestUpdate dt max) s = .next (u.reply pldmInUpdate []))) ∧
    (∀ component, (1 ≤ component ∧ component ≤ 6) ∨ component = 0x10 ∨ component = 0x11 →
      (m.updState = 1 ∨ m.updState = 2) → exec (.passComponentTable dt component) s = .next (({ u with mgmt := { m with
        updState := 2, updTable := m.updTable ++ [component] } } : State).reply 0 [])) ∧
    (∀ component size, m.updState = 2 → component ∈ m.updTable → exec (.updateComponent dt component size) s =
      .next (({ u with mgmt := { m with
        updState := 3, updComponent := some component, updSize := size, updData := [] } } : State).reply 0 [])) ∧
    (∀ (off : Nat) (data : List Byte), m.updState = 3 → data.length ≤ m.updMax → off + data.length ≤ m.updSize →
      ∃ t, exec (.requestFirmwareData dt off data) s = .next t ∧
        t = { u.writeSlot none with mgmt := { m with updData := t.mgmt.updData } } ∧
        (t.mgmt.updData.drop off).take data.length = data ∧
        (off = m.updData.length → t.mgmt.updData = m.updData ++ data)) ∧
    (m.updState = 3 → (m.updData.length = m.updSize → exec (.transferComplete dt true) s =
        .next (({ u with mgmt := { m with updState := 4 } } : State).reply 0 [])) ∧
      exec (.transferComplete dt false) s = .next (({ u with mgmt := { m with
        updState := 2, updComponent := none, updData := [] } } : State).reply 1 [])) ∧
    (∀ (img : ImageIn) (v : State), m.updState = 4 →
      v = u.writeSlot (if ImageIn.bytes img = m.updData then some img else none) → exec (.verifyComplete dt img) s = .next (
      if v.verifyOk (m.updComponent.getD 0) img then
        ({ v with mgmt := { m with updState := 5, updImage := some img } } : State).reply 0 []
      else ({ v with mgmt := { m with updState := 2, updComponent := none, updData := [] } } : State).reply 1 [])) ∧
    (∀ (v : State) (component : Nat) (img : Option ImageIn) (f : FwState), v.mgmt.updComponent = some component →
      1 ≤ component → component ≤ 6 → f = tabGet {} v.power.fw (component - 1) →
      tabGet {} (v.writeSlot img).power.fw (component - 1) = (if f.activeB then { f with imageA := img, pending := false }
        else { f with imageB := img, pending := false }) ∧
      (∀ n, n ≠ component - 1 → tabGet {} (v.writeSlot img).power.fw n = tabGet {} v.power.fw n) ∧
      v.writeSlot img = { v with power := { v.power with fw := (v.writeSlot img).power.fw } }) ∧
    (∀ img component, m.updState = 5 → m.updImage = some img → m.updComponent = some component →
      ∃ t, exec (.applyComplete dt) s = .next t ∧
        t = ({ u with power := t.power, mgmt := { m with
          updState := 2, updComponent := none, updData := [], updImage := none } } : State).reply 0 [] ∧
        (component = 0x11 → img.key ≠ [] → t.power.ownerKey = img.key ∧ t.power.ownerSerial = img.svn) ∧
        (1 ≤ component → component ≤ 6 →
          tabGet {} t.power.fw (component - 1) = { tabGet {} s.power.fw (component - 1) with pending := true } ∧
          t.power.ownerKey = s.power.ownerKey ∧ t.power.configRecord = s.power.configRecord) ∧
        (component = 0x10 → t.power.configRecord = m.updData)) ∧
    ((m.updState = 3 ∨ m.updState = 4 ∨ m.updState = 5) →
      exec (.cancelUpdateComponent dt) s = .next (({ u with mgmt := { m with
      updState := 2, updComponent := none, updData := [], updImage := none } } : State).reply 0 [])) ∧
    (1 ≤ m.updState → m.updState ≤ 5 → exec (.cancelUpdate dt) s = .next (({ u with mgmt := { m with
      updState := 0, updComponent := none, updTable := [], updData := [], updImage := none } } : State).reply 0 [])) ∧
    (m.updState = 0 → exec (.cancelUpdate dt) s = .next (u.reply pldmNotInUpdate [])) ∧
    (m.updState = 2 → exec (.activateFirmware dt false) s = .next (({ u with mgmt := { m with
      updState := 0, updTable := [] } } : State).reply 0 [])) ∧
    (∀ x, m.updState = 2 → s.power.ready = true → (tabGet {} s.power.fw 1).pending = true → s.host.rotation = none →
      s.host.standby = some x → ∃ t, exec (.activateFirmware dt true) s = .next t ∧ t.host.restarting = some x ∧
        t.host.standby = none ∧ t.host.rotation.isSome = true ∧ t.host.rings = s.host.rings ∧
        (∀ img, (tabGet {} s.power.fw 1).waiting = some img → t.power = (s.record 3 (ImageIn.bytes img)).power) ∧
        ((tabGet {} s.power.fw 1).waiting = none → t.power = s.power)) ∧
    (∀ core : Fin 6, s.host.restarting = some core.val → s.host.failedCores = [] → s.host.held = [] →
      ((∃ r ∈ s.log.recoveries, r.cls = 8) → exec (.coreRestartDone dt core) s = .next u) ∧
      ((∀ r ∈ s.log.recoveries, r.cls ≠ 8) →
        (s.host.rotation = some [] → ∃ t, exec (.coreRestartDone dt core) s = .next t ∧ t.host.standby = some core.val ∧
          t.host.restarting = none ∧ t.host.rotation = none ∧
          (tabGet {} t.power.fw 1).activeB = !(tabGet {} s.power.fw 1).activeB ∧
          (tabGet {} t.power.fw 1).pending = false) ∧
        (∀ (x : Nat) (rest : List Nat), s.host.rotation = some (x :: rest) → x ≠ core.val →
          ∃ t, exec (.coreRestartDone dt core) s = .next t ∧ t.host.restarting = some x ∧ t.host.standby = none ∧
            t.host.rotation = some rest ∧
            (∀ q, q < 17 → (t.ring q).core = (if (s.ring q).core = x then core.val else (s.ring q).core)))))
end

