-- ==== Sys2Proof/Laws/Memory.lean ====
section
/-! SUPPORT. The laws of memory: a read after a write, what a write leaves alone, and that every operation keeps the
canonical form. -/

namespace Sys2Proof.Machine

/-! ### One byte -/

/-- Every listed address lies at or above `n`. -/
def Memory.above (n : Nat) (m : List Host.Cell) : Prop := ∀ e ∈ m, n ≤ e.1

theorem Memory.wf_tail {e : Host.Cell} {m : List Host.Cell} (h : Memory.wf (e :: m) = true) : Memory.wf m = true := by
  obtain ⟨a, v⟩ := e
  cases m with
  | nil => rfl
  | cons f t => obtain ⟨b, w⟩ := f; simp [Memory.wf] at h; exact h.2

theorem Memory.wf_above {a : Nat} {v : Byte} {m : List Host.Cell} (h : Memory.wf ((a, v) :: m) = true) :
    Memory.above (a + 1) m := by
  induction m generalizing a v with
  | nil => simp [Memory.above]
  | cons f t ih =>
    obtain ⟨b, w⟩ := f
    simp [Memory.wf] at h
    intro e he
    rcases List.mem_cons.mp he with rfl | he
    · exact h.1.2
    · have := ih h.2 e he; omega

/-- A list in canonical form with a cell below it all is in canonical form. -/
theorem Memory.wf_cons {a : Nat} {v : Byte} {m : List Host.Cell} (hv : v ≠ 0) (ha : Memory.above (a + 1) m)
    (h : Memory.wf m = true) : Memory.wf ((a, v) :: m) = true := by
  cases m with
  | nil => simpa [Memory.wf] using hv
  | cons f t =>
    obtain ⟨b, w⟩ := f
    have hb : a < b := ha (b, w) (by simp)
    simp only [Memory.wf, h, Bool.and_true, Bool.and_eq_true, bne_iff_ne, ne_eq, decide_eq_true_eq]
    exact ⟨hv, hb⟩

theorem memRead_above {n a : Nat} {m : List Host.Cell} (h : Memory.above n m) (ha : a < n) : memRead m a = 0 := by
  induction m with
  | nil => rfl
  | cons e t ih =>
    obtain ⟨k, v⟩ := e
    have hk : n ≤ k := h (k, v) (by simp)
    have ht : Memory.above n t := fun f hf => h f (by simp [hf])
    have : k ≠ a := by omega
    simp [memRead, this, ih ht]

theorem memWrite_above {n a : Nat} {v : Byte} {m : List Host.Cell} (h : Memory.above n m) (ha : n ≤ a) :
    Memory.above n (memWrite m a v) := by
  induction m with
  | nil =>
    unfold memWrite
    split
    · simp [Memory.above]
    · intro e he; simp at he; subst he; exact ha
  | cons e t ih =>
    obtain ⟨k, w⟩ := e
    have ht : Memory.above n t := fun f hf => h f (by simp [hf])
    unfold memWrite
    split
    · split
      · exact h
      · intro f hf; rcases List.mem_cons.mp hf with rfl | hf
        · exact ha
        · exact h f hf
    · split
      · split
        · exact ht
        · intro f hf; rcases List.mem_cons.mp hf with rfl | hf
          · exact ha
          · exact ht f hf
      · intro f hf; rcases List.mem_cons.mp hf with rfl | hf
        · exact h (k, w) (by simp)
        · exact ih ht f hf

/-- A write keeps the canonical form. -/
theorem memWrite_wf {m : List Host.Cell} (a : Nat) (v : Byte) (h : Memory.wf m = true) : Memory.wf (memWrite m a v) = true := by
  induction m with
  | nil => unfold memWrite; split <;> simp_all [Memory.wf]
  | cons e t ih =>
    obtain ⟨k, w⟩ := e
    have ht := Memory.wf_tail h
    have hk := Memory.wf_above h
    have hw : w ≠ 0 := by cases t with
      | nil => simpa [Memory.wf] using h
      | cons f t => obtain ⟨b, x⟩ := f; simp [Memory.wf] at h; exact h.1.1
    unfold memWrite
    split
    · next hlt =>
      split
      · exact h
      · next hv =>
        refine Memory.wf_cons hv ?_ h
        intro f hf; rcases List.mem_cons.mp hf with rfl | hf
        · exact hlt
        · have := hk f hf; omega
    · next hlt =>
      split
      · next he => subst he; split
                   · exact ht
                   · next hv => exact Memory.wf_cons hv hk ht
      · next hne => exact Memory.wf_cons hw (memWrite_above hk (by omega)) (ih ht)

/-- In canonical form, a byte written reads back. -/
theorem memRead_memWrite_same {m : List Host.Cell} (a : Nat) (v : Byte) (h : Memory.wf m = true) :
    memRead (memWrite m a v) a = v := by
  induction m with
  | nil => unfold memWrite; split <;> simp_all [memRead]
  | cons e t ih =>
    obtain ⟨k, w⟩ := e
    have hk := Memory.wf_above h
    unfold memWrite
    split
    · next hlt =>
      split
      · next hv =>
        have : Memory.above (a + 1) ((k, w) :: t) := by
          intro f hf; rcases List.mem_cons.mp hf with rfl | hf
          · exact hlt
          · have := hk f hf; omega
        rw [memRead_above this (by omega), hv]
      · simp [memRead]
    · next hlt =>
      split
      · next he => subst he; split
                   · next hv => rw [memRead_above hk (by omega), hv]
                   · simp [memRead]
      · next hne => simp [memRead, Ne.symm hne, ih (Memory.wf_tail h)]

/-- A write leaves every other byte alone. -/
theorem memRead_memWrite_ne (m : List Host.Cell) (a b : Nat) (v : Byte) (hb : b ≠ a) :
    memRead (memWrite m a v) b = memRead m b := by
  induction m with
  | nil => unfold memWrite; split <;> simp [memRead, Ne.symm hb]
  | cons e t ih =>
    obtain ⟨k, w⟩ := e
    unfold memWrite
    split
    · split <;> simp [memRead, Ne.symm hb]
    · split
      · next he => subst he; split <;> simp [memRead, Ne.symm hb]
      · simp [memRead, ih]

/-! ### Runs of bytes -/

theorem writeByte_wf (s : State) {m : List Host.Cell} (a : Nat) (b : Byte) (h : Memory.wf m = true) :
    Memory.wf (s.writeByte m a b) = true := by
  unfold State.writeByte; split
  · exact h
  · exact memWrite_wf a b h

theorem writeBytes_wf (s : State) {m : List Host.Cell} (a : Nat) (bs : List Byte) (h : Memory.wf m = true) :
    Memory.wf (s.writeBytes m a bs) = true := by
  induction bs generalizing m a with
  | nil => exact h
  | cons b bs ih => exact ih _ (writeByte_wf s a b h)

theorem memWriteBytes_wf {m : List Host.Cell} (a : Nat) (bs : List Byte) (h : Memory.wf m = true) :
    Memory.wf (memWriteBytes m a bs) = true := by
  induction bs generalizing m a with
  | nil => exact h
  | cons b bs ih => exact ih _ (memWrite_wf a b h)

/-- Bytes outside the run written keep their values. -/
theorem memRead_writeBytes_out (s : State) (m : List Host.Cell) (a x : Nat) (bs : List Byte)
    (h : x < a ∨ a + bs.length ≤ x) : memRead (s.writeBytes m a bs) x = memRead m x := by
  induction bs generalizing m a with
  | nil => rfl
  | cons b bs ih =>
    simp only [List.length_cons] at h
    unfold State.writeBytes
    rw [ih _ _ (by omega)]
    unfold State.writeByte
    split
    · rfl
    · exact memRead_memWrite_ne _ _ _ _ (by omega)

theorem memRead_memWriteBytes_out (m : List Host.Cell) (a x : Nat) (bs : List Byte)
    (h : x < a ∨ a + bs.length ≤ x) : memRead (memWriteBytes m a bs) x = memRead m x := by
  induction bs generalizing m a with
  | nil => rfl
  | cons b bs ih =>
    simp only [List.length_cons] at h
    unfold memWriteBytes
    rw [ih _ _ (by omega)]
    exact memRead_memWrite_ne _ _ _ _ (by omega)

/-- Filtering keeps the canonical form. -/
theorem Memory.filter_wf (p : Host.Cell → Bool) {m : List Host.Cell} (h : Memory.wf m = true) :
    Memory.wf (m.filter p) = true := by
  induction m with
  | nil => rfl
  | cons e t ih =>
    obtain ⟨k, w⟩ := e
    have hk := Memory.wf_above h
    have hw : w ≠ 0 := by cases t with
      | nil => simpa [Memory.wf] using h
      | cons f t => obtain ⟨b, x⟩ := f; simp [Memory.wf] at h; exact h.1.1
    rw [List.filter_cons]
    split
    · exact Memory.wf_cons hw (fun f hf => hk f (List.mem_filter.mp hf).1) (ih (Memory.wf_tail h))
    · exact ih (Memory.wf_tail h)

/-! ### Poison marks -/

theorem mem_poisonAdd (us : List Nat) (u v : Nat) : v ∈ poisonAdd us u ↔ v = u ∨ v ∈ us := by
  induction us with
  | nil => simp [poisonAdd]
  | cons k t ih =>
    unfold poisonAdd
    split
    · simp
    · split
      · next he => subst he; simp
      · simp [ih]; tauto

theorem rising_cons {a : Nat} {us : List Nat} (ha : ∀ u ∈ us, a < u) (h : rising us = true) : rising (a :: us) = true := by
  cases us with
  | nil => rfl
  | cons b t => simp [rising, h, ha b (by simp)]

theorem rising_tail {a : Nat} {us : List Nat} (h : rising (a :: us) = true) : rising us = true := by
  cases us with
  | nil => rfl
  | cons b t => simp [rising] at h; exact h.2

theorem rising_lt {a : Nat} {us : List Nat} (h : rising (a :: us) = true) : ∀ u ∈ us, a < u := by
  induction us generalizing a with
  | nil => simp
  | cons b t ih =>
    simp [rising] at h
    intro u hu
    rcases List.mem_cons.mp hu with rfl | hu
    · exact h.1
    · have := ih h.2 u hu; omega

theorem poisonAdd_rising {us : List Nat} (u : Nat) (h : rising us = true) : rising (poisonAdd us u) = true := by
  induction us with
  | nil => rfl
  | cons k t ih =>
    unfold poisonAdd
    split
    · next hlt =>
      refine rising_cons ?_ h
      intro v hv; rcases List.mem_cons.mp hv with rfl | hv
      · exact hlt
      · have := rising_lt h v hv; omega
    · split
      · exact h
      · refine rising_cons ?_ (ih (rising_tail h))
        intro v hv
        rcases (mem_poisonAdd t u v).mp hv with rfl | hv
        · omega
        · exact rising_lt h v hv

theorem filter_rising (p : Nat → Bool) {us : List Nat} (h : rising us = true) : rising (us.filter p) = true := by
  induction us with
  | nil => rfl
  | cons k t ih =>
    rw [List.filter_cons]
    split
    · exact rising_cons (fun v hv => rising_lt h v (List.mem_filter.mp hv).1) (ih (rising_tail h))
    · exact ih (rising_tail h)

theorem foldl_poisonAdd_rising {us : List Nat} (vs : List Nat) (h : rising us = true) :
    rising (vs.foldl poisonAdd us) = true := by
  induction vs generalizing us with
  | nil => exact h
  | cons v vs ih => exact ih (poisonAdd_rising v h)

/-! ### The operations of the state keep the invariant -/

theorem write_wf {s : State} (a : Nat) (bs : List Byte) (h : Memory.wf s.mem = true) :
    Memory.wf (s.write a bs).mem = true := writeBytes_wf s a bs h

theorem write_poison_rising {s : State} (a : Nat) (bs : List Byte) (h : rising s.poison = true) :
    rising (s.write a bs).poison = true := filter_rising _ h

theorem reset_mem_wf : Memory.wf State.reset.mem = true := rfl

theorem markPoison_inv {s : State} (us : List Nat) (h : s.Inv) : (s.markPoison us).Inv :=
  ⟨h.1, foldl_poisonAdd_rising us h.2⟩

theorem writeHost_inv {s : State} (a : Nat) (bs : List Byte) (h : s.Inv) : (s.writeHost a bs).Inv :=
  ⟨memWriteBytes_wf _ bs h.1, h.2⟩

end Sys2Proof.Machine
end

