-- ==== Sys2Proof/Laws/State.lean ====
section
/-! SUPPORT. One lemma per field per update of the state: what an update leaves as it was. -/

namespace Sys2Proof.Machine

variable (s : State)

/-! ### setRing -/
@[simp] theorem setRing_pending (r : Nat) (x : Ring) : (s.setRing r x).pending = s.pending := rfl
@[simp] theorem setRing_fresh (r : Nat) (x : Ring) : (s.setRing r x).fresh = s.fresh := rfl
@[simp] theorem setRing_tide (r : Nat) (x : Ring) : (s.setRing r x).tide = s.tide := rfl
@[simp] theorem setRing_power (r : Nat) (x : Ring) : (s.setRing r x).power = s.power := rfl
@[simp] theorem setRing_pkg (r : Nat) (x : Ring) : (s.setRing r x).pkg = s.pkg := rfl
@[simp] theorem setRing_time (r : Nat) (x : Ring) : (s.setRing r x).time = s.time := rfl
@[simp] theorem setRing_commit (r : Nat) (x : Ring) : (s.setRing r x).commit = s.commit := rfl
@[simp] theorem setRing_step (r : Nat) (x : Ring) : (s.setRing r x).step = s.step := rfl
@[simp] theorem setRing_skim (r : Nat) (x : Ring) : (s.setRing r x).skim = s.skim := rfl
@[simp] theorem setRing_conf (r : Nat) (x : Ring) : (s.setRing r x).conf = s.conf := rfl
@[simp] theorem setRing_staged (r : Nat) (x : Ring) : (s.setRing r x).staged = s.staged := rfl
@[simp] theorem setRing_commitWait (r : Nat) (x : Ring) : (s.setRing r x).commitWait = s.commitWait := rfl
@[simp] theorem setRing_signedSerial (r : Nat) (x : Ring) : (s.setRing r x).signedSerial = s.signedSerial := rfl
@[simp] theorem setRing_dies (r : Nat) (x : Ring) : (s.setRing r x).dies = s.dies := rfl
@[simp] theorem setRing_arrays (r : Nat) (x : Ring) : (s.setRing r x).arrays = s.arrays := rfl
@[simp] theorem setRing_mem (r : Nat) (x : Ring) : (s.setRing r x).mem = s.mem := rfl
@[simp] theorem setRing_poison (r : Nat) (x : Ring) : (s.setRing r x).poison = s.poison := rfl
@[simp] theorem setRing_farStacks (r : Nat) (x : Ring) : (s.setRing r x).farStacks = s.farStacks := rfl
@[simp] theorem setRing_layers (r : Nat) (x : Ring) : (s.setRing r x).layers = s.layers := rfl
@[simp] theorem setRing_ctxs (r : Nat) (x : Ring) : (s.setRing r x).ctxs = s.ctxs := rfl
@[simp] theorem setRing_ports (r : Nat) (x : Ring) : (s.setRing r x).ports = s.ports := rfl
@[simp] theorem setRing_seamTrain (r : Nat) (x : Ring) : (s.setRing r x).seamTrain = s.seamTrain := rfl
@[simp] theorem setRing_coll (r : Nat) (x : Ring) : (s.setRing r x).coll = s.coll := rfl
@[simp] theorem setRing_dma (r : Nat) (x : Ring) : (s.setRing r x).dma = s.dma := rfl
@[simp] theorem setRing_log (r : Nat) (x : Ring) : (s.setRing r x).log = s.log := rfl
@[simp] theorem setRing_mgmt (r : Nat) (x : Ring) : (s.setRing r x).mgmt = s.mgmt := rfl

/-! ### modRing -/
@[simp] theorem modRing_pending (r : Nat) (f : Ring → Ring) : (s.modRing r f).pending = s.pending := rfl
@[simp] theorem modRing_fresh (r : Nat) (f : Ring → Ring) : (s.modRing r f).fresh = s.fresh := rfl
@[simp] theorem modRing_tide (r : Nat) (f : Ring → Ring) : (s.modRing r f).tide = s.tide := rfl
@[simp] theorem modRing_power (r : Nat) (f : Ring → Ring) : (s.modRing r f).power = s.power := rfl
@[simp] theorem modRing_pkg (r : Nat) (f : Ring → Ring) : (s.modRing r f).pkg = s.pkg := rfl
@[simp] theorem modRing_time (r : Nat) (f : Ring → Ring) : (s.modRing r f).time = s.time := rfl
@[simp] theorem modRing_commit (r : Nat) (f : Ring → Ring) : (s.modRing r f).commit = s.commit := rfl
@[simp] theorem modRing_step (r : Nat) (f : Ring → Ring) : (s.modRing r f).step = s.step := rfl
@[simp] theorem modRing_skim (r : Nat) (f : Ring → Ring) : (s.modRing r f).skim = s.skim := rfl
@[simp] theorem modRing_conf (r : Nat) (f : Ring → Ring) : (s.modRing r f).conf = s.conf := rfl
@[simp] theorem modRing_staged (r : Nat) (f : Ring → Ring) : (s.modRing r f).staged = s.staged := rfl
@[simp] theorem modRing_commitWait (r : Nat) (f : Ring → Ring) : (s.modRing r f).commitWait = s.commitWait := rfl
@[simp] theorem modRing_signedSerial (r : Nat) (f : Ring → Ring) : (s.modRing r f).signedSerial = s.signedSerial := rfl
@[simp] theorem modRing_dies (r : Nat) (f : Ring → Ring) : (s.modRing r f).dies = s.dies := rfl
@[simp] theorem modRing_arrays (r : Nat) (f : Ring → Ring) : (s.modRing r f).arrays = s.arrays := rfl
@[simp] theorem modRing_mem (r : Nat) (f : Ring → Ring) : (s.modRing r f).mem = s.mem := rfl
@[simp] theorem modRing_poison (r : Nat) (f : Ring → Ring) : (s.modRing r f).poison = s.poison := rfl
@[simp] theorem modRing_farStacks (r : Nat) (f : Ring → Ring) : (s.modRing r f).farStacks = s.farStacks := rfl
@[simp] theorem modRing_layers (r : Nat) (f : Ring → Ring) : (s.modRing r f).layers = s.layers := rfl
@[simp] theorem modRing_ctxs (r : Nat) (f : Ring → Ring) : (s.modRing r f).ctxs = s.ctxs := rfl
@[simp] theorem modRing_ports (r : Nat) (f : Ring → Ring) : (s.modRing r f).ports = s.ports := rfl
@[simp] theorem modRing_seamTrain (r : Nat) (f : Ring → Ring) : (s.modRing r f).seamTrain = s.seamTrain := rfl
@[simp] theorem modRing_coll (r : Nat) (f : Ring → Ring) : (s.modRing r f).coll = s.coll := rfl
@[simp] theorem modRing_dma (r : Nat) (f : Ring → Ring) : (s.modRing r f).dma = s.dma := rfl
@[simp] theorem modRing_log (r : Nat) (f : Ring → Ring) : (s.modRing r f).log = s.log := rfl
@[simp] theorem modRing_mgmt (r : Nat) (f : Ring → Ring) : (s.modRing r f).mgmt = s.mgmt := rfl

/-! ### setSlot -/
@[simp] theorem setSlot_pending (r k : Nat) (x : Slot) : (s.setSlot r k x).pending = s.pending := rfl
@[simp] theorem setSlot_fresh (r k : Nat) (x : Slot) : (s.setSlot r k x).fresh = s.fresh := rfl
@[simp] theorem setSlot_tide (r k : Nat) (x : Slot) : (s.setSlot r k x).tide = s.tide := rfl
@[simp] theorem setSlot_power (r k : Nat) (x : Slot) : (s.setSlot r k x).power = s.power := rfl
@[simp] theorem setSlot_pkg (r k : Nat) (x : Slot) : (s.setSlot r k x).pkg = s.pkg := rfl
@[simp] theorem setSlot_time (r k : Nat) (x : Slot) : (s.setSlot r k x).time = s.time := rfl
@[simp] theorem setSlot_commit (r k : Nat) (x : Slot) : (s.setSlot r k x).commit = s.commit := rfl
@[simp] theorem setSlot_step (r k : Nat) (x : Slot) : (s.setSlot r k x).step = s.step := rfl
@[simp] theorem setSlot_skim (r k : Nat) (x : Slot) : (s.setSlot r k x).skim = s.skim := rfl
@[simp] theorem setSlot_conf (r k : Nat) (x : Slot) : (s.setSlot r k x).conf = s.conf := rfl
@[simp] theorem setSlot_staged (r k : Nat) (x : Slot) : (s.setSlot r k x).staged = s.staged := rfl
@[simp] theorem setSlot_commitWait (r k : Nat) (x : Slot) : (s.setSlot r k x).commitWait = s.commitWait := rfl
@[simp] theorem setSlot_signedSerial (r k : Nat) (x : Slot) : (s.setSlot r k x).signedSerial = s.signedSerial := rfl
@[simp] theorem setSlot_dies (r k : Nat) (x : Slot) : (s.setSlot r k x).dies = s.dies := rfl
@[simp] theorem setSlot_arrays (r k : Nat) (x : Slot) : (s.setSlot r k x).arrays = s.arrays := rfl
@[simp] theorem setSlot_mem (r k : Nat) (x : Slot) : (s.setSlot r k x).mem = s.mem := rfl
@[simp] theorem setSlot_poison (r k : Nat) (x : Slot) : (s.setSlot r k x).poison = s.poison := rfl
@[simp] theorem setSlot_farStacks (r k : Nat) (x : Slot) : (s.setSlot r k x).farStacks = s.farStacks := rfl
@[simp] theorem setSlot_layers (r k : Nat) (x : Slot) : (s.setSlot r k x).layers = s.layers := rfl
@[simp] theorem setSlot_ctxs (r k : Nat) (x : Slot) : (s.setSlot r k x).ctxs = s.ctxs := rfl
@[simp] theorem setSlot_ports (r k : Nat) (x : Slot) : (s.setSlot r k x).ports = s.ports := rfl
@[simp] theorem setSlot_seamTrain (r k : Nat) (x : Slot) : (s.setSlot r k x).seamTrain = s.seamTrain := rfl
@[simp] theorem setSlot_coll (r k : Nat) (x : Slot) : (s.setSlot r k x).coll = s.coll := rfl
@[simp] theorem setSlot_dma (r k : Nat) (x : Slot) : (s.setSlot r k x).dma = s.dma := rfl
@[simp] theorem setSlot_log (r k : Nat) (x : Slot) : (s.setSlot r k x).log = s.log := rfl
@[simp] theorem setSlot_mgmt (r k : Nat) (x : Slot) : (s.setSlot r k x).mgmt = s.mgmt := rfl

/-! ### freeSlot -/
@[simp] theorem freeSlot_pending (r k : Nat) : (s.freeSlot r k).pending = s.pending := rfl
@[simp] theorem freeSlot_fresh (r k : Nat) : (s.freeSlot r k).fresh = s.fresh := rfl
@[simp] theorem freeSlot_tide (r k : Nat) : (s.freeSlot r k).tide = s.tide := rfl
@[simp] theorem freeSlot_power (r k : Nat) : (s.freeSlot r k).power = s.power := rfl
@[simp] theorem freeSlot_pkg (r k : Nat) : (s.freeSlot r k).pkg = s.pkg := rfl
@[simp] theorem freeSlot_time (r k : Nat) : (s.freeSlot r k).time = s.time := rfl
@[simp] theorem freeSlot_commit (r k : Nat) : (s.freeSlot r k).commit = s.commit := rfl
@[simp] theorem freeSlot_step (r k : Nat) : (s.freeSlot r k).step = s.step := rfl
@[simp] theorem freeSlot_skim (r k : Nat) : (s.freeSlot r k).skim = s.skim := rfl
@[simp] theorem freeSlot_conf (r k : Nat) : (s.freeSlot r k).conf = s.conf := rfl
@[simp] theorem freeSlot_staged (r k : Nat) : (s.freeSlot r k).staged = s.staged := rfl
@[simp] theorem freeSlot_commitWait (r k : Nat) : (s.freeSlot r k).commitWait = s.commitWait := rfl
@[simp] theorem freeSlot_signedSerial (r k : Nat) : (s.freeSlot r k).signedSerial = s.signedSerial := rfl
@[simp] theorem freeSlot_dies (r k : Nat) : (s.freeSlot r k).dies = s.dies := rfl
@[simp] theorem freeSlot_arrays (r k : Nat) : (s.freeSlot r k).arrays = s.arrays := rfl
@[simp] theorem freeSlot_mem (r k : Nat) : (s.freeSlot r k).mem = s.mem := rfl
@[simp] theorem freeSlot_poison (r k : Nat) : (s.freeSlot r k).poison = s.poison := rfl
@[simp] theorem freeSlot_farStacks (r k : Nat) : (s.freeSlot r k).farStacks = s.farStacks := rfl
@[simp] theorem freeSlot_layers (r k : Nat) : (s.freeSlot r k).layers = s.layers := rfl
@[simp] theorem freeSlot_ctxs (r k : Nat) : (s.freeSlot r k).ctxs = s.ctxs := rfl
@[simp] theorem freeSlot_ports (r k : Nat) : (s.freeSlot r k).ports = s.ports := rfl
@[simp] theorem freeSlot_seamTrain (r k : Nat) : (s.freeSlot r k).seamTrain = s.seamTrain := rfl
@[simp] theorem freeSlot_coll (r k : Nat) : (s.freeSlot r k).coll = s.coll := rfl
@[simp] theorem freeSlot_dma (r k : Nat) : (s.freeSlot r k).dma = s.dma := rfl
@[simp] theorem freeSlot_log (r k : Nat) : (s.freeSlot r k).log = s.log := rfl
@[simp] theorem freeSlot_mgmt (r k : Nat) : (s.freeSlot r k).mgmt = s.mgmt := rfl

/-! ### modDie -/
@[simp] theorem modDie_pending (n : Nat) (f : Die → Die) : (s.modDie n f).pending = s.pending := rfl
@[simp] theorem modDie_fresh (n : Nat) (f : Die → Die) : (s.modDie n f).fresh = s.fresh := rfl
@[simp] theorem modDie_tide (n : Nat) (f : Die → Die) : (s.modDie n f).tide = s.tide := rfl
@[simp] theorem modDie_power (n : Nat) (f : Die → Die) : (s.modDie n f).power = s.power := rfl
@[simp] theorem modDie_pkg (n : Nat) (f : Die → Die) : (s.modDie n f).pkg = s.pkg := rfl
@[simp] theorem modDie_time (n : Nat) (f : Die → Die) : (s.modDie n f).time = s.time := rfl
@[simp] theorem modDie_commit (n : Nat) (f : Die → Die) : (s.modDie n f).commit = s.commit := rfl
@[simp] theorem modDie_step (n : Nat) (f : Die → Die) : (s.modDie n f).step = s.step := rfl
@[simp] theorem modDie_skim (n : Nat) (f : Die → Die) : (s.modDie n f).skim = s.skim := rfl
@[simp] theorem modDie_conf (n : Nat) (f : Die → Die) : (s.modDie n f).conf = s.conf := rfl
@[simp] theorem modDie_staged (n : Nat) (f : Die → Die) : (s.modDie n f).staged = s.staged := rfl
@[simp] theorem modDie_commitWait (n : Nat) (f : Die → Die) : (s.modDie n f).commitWait = s.commitWait := rfl
@[simp] theorem modDie_signedSerial (n : Nat) (f : Die → Die) : (s.modDie n f).signedSerial = s.signedSerial := rfl
@[simp] theorem modDie_host (n : Nat) (f : Die → Die) : (s.modDie n f).host = s.host := rfl
@[simp] theorem modDie_arrays (n : Nat) (f : Die → Die) : (s.modDie n f).arrays = s.arrays := rfl
@[simp] theorem modDie_mem (n : Nat) (f : Die → Die) : (s.modDie n f).mem = s.mem := rfl
@[simp] theorem modDie_poison (n : Nat) (f : Die → Die) : (s.modDie n f).poison = s.poison := rfl
@[simp] theorem modDie_farStacks (n : Nat) (f : Die → Die) : (s.modDie n f).farStacks = s.farStacks := rfl
@[simp] theorem modDie_layers (n : Nat) (f : Die → Die) : (s.modDie n f).layers = s.layers := rfl
@[simp] theorem modDie_ctxs (n : Nat) (f : Die → Die) : (s.modDie n f).ctxs = s.ctxs := rfl
@[simp] theorem modDie_ports (n : Nat) (f : Die → Die) : (s.modDie n f).ports = s.ports := rfl
@[simp] theorem modDie_seamTrain (n : Nat) (f : Die → Die) : (s.modDie n f).seamTrain = s.seamTrain := rfl
@[simp] theorem modDie_coll (n : Nat) (f : Die → Die) : (s.modDie n f).coll = s.coll := rfl
@[simp] theorem modDie_dma (n : Nat) (f : Die → Die) : (s.modDie n f).dma = s.dma := rfl
@[simp] theorem modDie_log (n : Nat) (f : Die → Die) : (s.modDie n f).log = s.log := rfl
@[simp] theorem modDie_mgmt (n : Nat) (f : Die → Die) : (s.modDie n f).mgmt = s.mgmt := rfl

/-! ### modArray -/
@[simp] theorem modArray_pending (d a : Nat) (f : ArrayState → ArrayState) : (s.modArray d a f).pending = s.pending := rfl
@[simp] theorem modArray_fresh (d a : Nat) (f : ArrayState → ArrayState) : (s.modArray d a f).fresh = s.fresh := rfl
@[simp] theorem modArray_tide (d a : Nat) (f : ArrayState → ArrayState) : (s.modArray d a f).tide = s.tide := rfl
@[simp] theorem modArray_power (d a : Nat) (f : ArrayState → ArrayState) : (s.modArray d a f).power = s.power := rfl
@[simp] theorem modArray_pkg (d a : Nat) (f : ArrayState → ArrayState) : (s.modArray d a f).pkg = s.pkg := rfl
@[simp] theorem modArray_time (d a : Nat) (f : ArrayState → ArrayState) : (s.modArray d a f).time = s.time := rfl
@[simp] theorem modArray_commit (d a : Nat) (f : ArrayState → ArrayState) : (s.modArray d a f).commit = s.commit := rfl
@[simp] theorem modArray_step (d a : Nat) (f : ArrayState → ArrayState) : (s.modArray d a f).step = s.step := rfl
@[simp] theorem modArray_skim (d a : Nat) (f : ArrayState → ArrayState) : (s.modArray d a f).skim = s.skim := rfl
@[simp] theorem modArray_conf (d a : Nat) (f : ArrayState → ArrayState) : (s.modArray d a f).conf = s.conf := rfl
@[simp] theorem modArray_staged (d a : Nat) (f : ArrayState → ArrayState) : (s.modArray d a f).staged = s.staged := rfl
@[simp] theorem modArray_commitWait (d a : Nat) (f : ArrayState → ArrayState) : (s.modArray d a f).commitWait = s.commitWait := rfl
@[simp] theorem modArray_signedSerial (d a : Nat) (f : ArrayState → ArrayState) : (s.modArray d a f).signedSerial = s.signedSerial := rfl
@[simp] theorem modArray_host (d a : Nat) (f : ArrayState → ArrayState) : (s.modArray d a f).host = s.host := rfl
@[simp] theorem modArray_dies (d a : Nat) (f : ArrayState → ArrayState) : (s.modArray d a f).dies = s.dies := rfl
@[simp] theorem modArray_mem (d a : Nat) (f : ArrayState → ArrayState) : (s.modArray d a f).mem = s.mem := rfl
@[simp] theorem modArray_poison (d a : Nat) (f : ArrayState → ArrayState) : (s.modArray d a f).poison = s.poison := rfl
@[simp] theorem modArray_farStacks (d a : Nat) (f : ArrayState → ArrayState) : (s.modArray d a f).farStacks = s.farStacks := rfl
@[simp] theorem modArray_layers (d a : Nat) (f : ArrayState → ArrayState) : (s.modArray d a f).layers = s.layers := rfl
@[simp] theorem modArray_ctxs (d a : Nat) (f : ArrayState → ArrayState) : (s.modArray d a f).ctxs = s.ctxs := rfl
@[simp] theorem modArray_ports (d a : Nat) (f : ArrayState → ArrayState) : (s.modArray d a f).ports = s.ports := rfl
@[simp] theorem modArray_seamTrain (d a : Nat) (f : ArrayState → ArrayState) : (s.modArray d a f).seamTrain = s.seamTrain := rfl
@[simp] theorem modArray_coll (d a : Nat) (f : ArrayState → ArrayState) : (s.modArray d a f).coll = s.coll := rfl
@[simp] theorem modArray_dma (d a : Nat) (f : ArrayState → ArrayState) : (s.modArray d a f).dma = s.dma := rfl
@[simp] theorem modArray_log (d a : Nat) (f : ArrayState → ArrayState) : (s.modArray d a f).log = s.log := rfl
@[simp] theorem modArray_mgmt (d a : Nat) (f : ArrayState → ArrayState) : (s.modArray d a f).mgmt = s.mgmt := rfl

/-! ### modStack -/
@[simp] theorem modStack_pending (n : Nat) (f : Stack → Stack) : (s.modStack n f).pending = s.pending := rfl
@[simp] theorem modStack_fresh (n : Nat) (f : Stack → Stack) : (s.modStack n f).fresh = s.fresh := rfl
@[simp] theorem modStack_tide (n : Nat) (f : Stack → Stack) : (s.modStack n f).tide = s.tide := rfl
@[simp] theorem modStack_power (n : Nat) (f : Stack → Stack) : (s.modStack n f).power = s.power := rfl
@[simp] theorem modStack_pkg (n : Nat) (f : Stack → Stack) : (s.modStack n f).pkg = s.pkg := rfl
@[simp] theorem modStack_time (n : Nat) (f : Stack → Stack) : (s.modStack n f).time = s.time := rfl
@[simp] theorem modStack_commit (n : Nat) (f : Stack → Stack) : (s.modStack n f).commit = s.commit := rfl
@[simp] theorem modStack_step (n : Nat) (f : Stack → Stack) : (s.modStack n f).step = s.step := rfl
@[simp] theorem modStack_skim (n : Nat) (f : Stack → Stack) : (s.modStack n f).skim = s.skim := rfl
@[simp] theorem modStack_conf (n : Nat) (f : Stack → Stack) : (s.modStack n f).conf = s.conf := rfl
@[simp] theorem modStack_staged (n : Nat) (f : Stack → Stack) : (s.modStack n f).staged = s.staged := rfl
@[simp] theorem modStack_commitWait (n : Nat) (f : Stack → Stack) : (s.modStack n f).commitWait = s.commitWait := rfl
@[simp] theorem modStack_signedSerial (n : Nat) (f : Stack → Stack) : (s.modStack n f).signedSerial = s.signedSerial := rfl
@[simp] theorem modStack_host (n : Nat) (f : Stack → Stack) : (s.modStack n f).host = s.host := rfl
@[simp] theorem modStack_dies (n : Nat) (f : Stack → Stack) : (s.modStack n f).dies = s.dies := rfl
@[simp] theorem modStack_arrays (n : Nat) (f : Stack → Stack) : (s.modStack n f).arrays = s.arrays := rfl
@[simp] theorem modStack_mem (n : Nat) (f : Stack → Stack) : (s.modStack n f).mem = s.mem := rfl
@[simp] theorem modStack_poison (n : Nat) (f : Stack → Stack) : (s.modStack n f).poison = s.poison := rfl
@[simp] theorem modStack_layers (n : Nat) (f : Stack → Stack) : (s.modStack n f).layers = s.layers := rfl
@[simp] theorem modStack_ctxs (n : Nat) (f : Stack → Stack) : (s.modStack n f).ctxs = s.ctxs := rfl
@[simp] theorem modStack_ports (n : Nat) (f : Stack → Stack) : (s.modStack n f).ports = s.ports := rfl
@[simp] theorem modStack_seamTrain (n : Nat) (f : Stack → Stack) : (s.modStack n f).seamTrain = s.seamTrain := rfl
@[simp] theorem modStack_coll (n : Nat) (f : Stack → Stack) : (s.modStack n f).coll = s.coll := rfl
@[simp] theorem modStack_dma (n : Nat) (f : Stack → Stack) : (s.modStack n f).dma = s.dma := rfl
@[simp] theorem modStack_log (n : Nat) (f : Stack → Stack) : (s.modStack n f).log = s.log := rfl
@[simp] theorem modStack_mgmt (n : Nat) (f : Stack → Stack) : (s.modStack n f).mgmt = s.mgmt := rfl

/-! ### modLayer -/
@[simp] theorem modLayer_pending (n : Nat) (f : Layer → Layer) : (s.modLayer n f).pending = s.pending := rfl
@[simp] theorem modLayer_fresh (n : Nat) (f : Layer → Layer) : (s.modLayer n f).fresh = s.fresh := rfl
@[simp] theorem modLayer_tide (n : Nat) (f : Layer → Layer) : (s.modLayer n f).tide = s.tide := rfl
@[simp] theorem modLayer_power (n : Nat) (f : Layer → Layer) : (s.modLayer n f).power = s.power := rfl
@[simp] theorem modLayer_pkg (n : Nat) (f : Layer → Layer) : (s.modLayer n f).pkg = s.pkg := rfl
@[simp] theorem modLayer_time (n : Nat) (f : Layer → Layer) : (s.modLayer n f).time = s.time := rfl
@[simp] theorem modLayer_commit (n : Nat) (f : Layer → Layer) : (s.modLayer n f).commit = s.commit := rfl
@[simp] theorem modLayer_step (n : Nat) (f : Layer → Layer) : (s.modLayer n f).step = s.step := rfl
@[simp] theorem modLayer_skim (n : Nat) (f : Layer → Layer) : (s.modLayer n f).skim = s.skim := rfl
@[simp] theorem modLayer_conf (n : Nat) (f : Layer → Layer) : (s.modLayer n f).conf = s.conf := rfl
@[simp] theorem modLayer_staged (n : Nat) (f : Layer → Layer) : (s.modLayer n f).staged = s.staged := rfl
@[simp] theorem modLayer_commitWait (n : Nat) (f : Layer → Layer) : (s.modLayer n f).commitWait = s.commitWait := rfl
@[simp] theorem modLayer_signedSerial (n : Nat) (f : Layer → Layer) : (s.modLayer n f).signedSerial = s.signedSerial := rfl
@[simp] theorem modLayer_host (n : Nat) (f : Layer → Layer) : (s.modLayer n f).host = s.host := rfl
@[simp] theorem modLayer_dies (n : Nat) (f : Layer → Layer) : (s.modLayer n f).dies = s.dies := rfl
@[simp] theorem modLayer_arrays (n : Nat) (f : Layer → Layer) : (s.modLayer n f).arrays = s.arrays := rfl
@[simp] theorem modLayer_mem (n : Nat) (f : Layer → Layer) : (s.modLayer n f).mem = s.mem := rfl
@[simp] theorem modLayer_poison (n : Nat) (f : Layer → Layer) : (s.modLayer n f).poison = s.poison := rfl
@[simp] theorem modLayer_farStacks (n : Nat) (f : Layer → Layer) : (s.modLayer n f).farStacks = s.farStacks := rfl
@[simp] theorem modLayer_ctxs (n : Nat) (f : Layer → Layer) : (s.modLayer n f).ctxs = s.ctxs := rfl
@[simp] theorem modLayer_ports (n : Nat) (f : Layer → Layer) : (s.modLayer n f).ports = s.ports := rfl
@[simp] theorem modLayer_seamTrain (n : Nat) (f : Layer → Layer) : (s.modLayer n f).seamTrain = s.seamTrain := rfl
@[simp] theorem modLayer_coll (n : Nat) (f : Layer → Layer) : (s.modLayer n f).coll = s.coll := rfl
@[simp] theorem modLayer_dma (n : Nat) (f : Layer → Layer) : (s.modLayer n f).dma = s.dma := rfl
@[simp] theorem modLayer_log (n : Nat) (f : Layer → Layer) : (s.modLayer n f).log = s.log := rfl
@[simp] theorem modLayer_mgmt (n : Nat) (f : Layer → Layer) : (s.modLayer n f).mgmt = s.mgmt := rfl

/-! ### modCtx -/
@[simp] theorem modCtx_pending (n : Nat) (f : Ctx → Ctx) : (s.modCtx n f).pending = s.pending := rfl
@[simp] theorem modCtx_fresh (n : Nat) (f : Ctx → Ctx) : (s.modCtx n f).fresh = s.fresh := rfl
@[simp] theorem modCtx_tide (n : Nat) (f : Ctx → Ctx) : (s.modCtx n f).tide = s.tide := rfl
@[simp] theorem modCtx_power (n : Nat) (f : Ctx → Ctx) : (s.modCtx n f).power = s.power := rfl
@[simp] theorem modCtx_pkg (n : Nat) (f : Ctx → Ctx) : (s.modCtx n f).pkg = s.pkg := rfl
@[simp] theorem modCtx_time (n : Nat) (f : Ctx → Ctx) : (s.modCtx n f).time = s.time := rfl
@[simp] theorem modCtx_commit (n : Nat) (f : Ctx → Ctx) : (s.modCtx n f).commit = s.commit := rfl
@[simp] theorem modCtx_step (n : Nat) (f : Ctx → Ctx) : (s.modCtx n f).step = s.step := rfl
@[simp] theorem modCtx_skim (n : Nat) (f : Ctx → Ctx) : (s.modCtx n f).skim = s.skim := rfl
@[simp] theorem modCtx_conf (n : Nat) (f : Ctx → Ctx) : (s.modCtx n f).conf = s.conf := rfl
@[simp] theorem modCtx_staged (n : Nat) (f : Ctx → Ctx) : (s.modCtx n f).staged = s.staged := rfl
@[simp] theorem modCtx_commitWait (n : Nat) (f : Ctx → Ctx) : (s.modCtx n f).commitWait = s.commitWait := rfl
@[simp] theorem modCtx_signedSerial (n : Nat) (f : Ctx → Ctx) : (s.modCtx n f).signedSerial = s.signedSerial := rfl
@[simp] theorem modCtx_host (n : Nat) (f : Ctx → Ctx) : (s.modCtx n f).host = s.host := rfl
@[simp] theorem modCtx_dies (n : Nat) (f : Ctx → Ctx) : (s.modCtx n f).dies = s.dies := rfl
@[simp] theorem modCtx_arrays (n : Nat) (f : Ctx → Ctx) : (s.modCtx n f).arrays = s.arrays := rfl
@[simp] theorem modCtx_mem (n : Nat) (f : Ctx → Ctx) : (s.modCtx n f).mem = s.mem := rfl
@[simp] theorem modCtx_poison (n : Nat) (f : Ctx → Ctx) : (s.modCtx n f).poison = s.poison := rfl
@[simp] theorem modCtx_farStacks (n : Nat) (f : Ctx → Ctx) : (s.modCtx n f).farStacks = s.farStacks := rfl
@[simp] theorem modCtx_layers (n : Nat) (f : Ctx → Ctx) : (s.modCtx n f).layers = s.layers := rfl
@[simp] theorem modCtx_ports (n : Nat) (f : Ctx → Ctx) : (s.modCtx n f).ports = s.ports := rfl
@[simp] theorem modCtx_seamTrain (n : Nat) (f : Ctx → Ctx) : (s.modCtx n f).seamTrain = s.seamTrain := rfl
@[simp] theorem modCtx_coll (n : Nat) (f : Ctx → Ctx) : (s.modCtx n f).coll = s.coll := rfl
@[simp] theorem modCtx_dma (n : Nat) (f : Ctx → Ctx) : (s.modCtx n f).dma = s.dma := rfl
@[simp] theorem modCtx_log (n : Nat) (f : Ctx → Ctx) : (s.modCtx n f).log = s.log := rfl
@[simp] theorem modCtx_mgmt (n : Nat) (f : Ctx → Ctx) : (s.modCtx n f).mgmt = s.mgmt := rfl

/-! ### modPort -/
@[simp] theorem modPort_pending (n : Nat) (f : Port → Port) : (s.modPort n f).pending = s.pending := rfl
@[simp] theorem modPort_fresh (n : Nat) (f : Port → Port) : (s.modPort n f).fresh = s.fresh := rfl
@[simp] theorem modPort_tide (n : Nat) (f : Port → Port) : (s.modPort n f).tide = s.tide := rfl
@[simp] theorem modPort_power (n : Nat) (f : Port → Port) : (s.modPort n f).power = s.power := rfl
@[simp] theorem modPort_pkg (n : Nat) (f : Port → Port) : (s.modPort n f).pkg = s.pkg := rfl
@[simp] theorem modPort_time (n : Nat) (f : Port → Port) : (s.modPort n f).time = s.time := rfl
@[simp] theorem modPort_commit (n : Nat) (f : Port → Port) : (s.modPort n f).commit = s.commit := rfl
@[simp] theorem modPort_step (n : Nat) (f : Port → Port) : (s.modPort n f).step = s.step := rfl
@[simp] theorem modPort_skim (n : Nat) (f : Port → Port) : (s.modPort n f).skim = s.skim := rfl
@[simp] theorem modPort_conf (n : Nat) (f : Port → Port) : (s.modPort n f).conf = s.conf := rfl
@[simp] theorem modPort_staged (n : Nat) (f : Port → Port) : (s.modPort n f).staged = s.staged := rfl
@[simp] theorem modPort_commitWait (n : Nat) (f : Port → Port) : (s.modPort n f).commitWait = s.commitWait := rfl
@[simp] theorem modPort_signedSerial (n : Nat) (f : Port → Port) : (s.modPort n f).signedSerial = s.signedSerial := rfl
@[simp] theorem modPort_host (n : Nat) (f : Port → Port) : (s.modPort n f).host = s.host := rfl
@[simp] theorem modPort_dies (n : Nat) (f : Port → Port) : (s.modPort n f).dies = s.dies := rfl
@[simp] theorem modPort_arrays (n : Nat) (f : Port → Port) : (s.modPort n f).arrays = s.arrays := rfl
@[simp] theorem modPort_mem (n : Nat) (f : Port → Port) : (s.modPort n f).mem = s.mem := rfl
@[simp] theorem modPort_poison (n : Nat) (f : Port → Port) : (s.modPort n f).poison = s.poison := rfl
@[simp] theorem modPort_farStacks (n : Nat) (f : Port → Port) : (s.modPort n f).farStacks = s.farStacks := rfl
@[simp] theorem modPort_layers (n : Nat) (f : Port → Port) : (s.modPort n f).layers = s.layers := rfl
@[simp] theorem modPort_ctxs (n : Nat) (f : Port → Port) : (s.modPort n f).ctxs = s.ctxs := rfl
@[simp] theorem modPort_seamTrain (n : Nat) (f : Port → Port) : (s.modPort n f).seamTrain = s.seamTrain := rfl
@[simp] theorem modPort_coll (n : Nat) (f : Port → Port) : (s.modPort n f).coll = s.coll := rfl
@[simp] theorem modPort_dma (n : Nat) (f : Port → Port) : (s.modPort n f).dma = s.dma := rfl
@[simp] theorem modPort_log (n : Nat) (f : Port → Port) : (s.modPort n f).log = s.log := rfl
@[simp] theorem modPort_mgmt (n : Nat) (f : Port → Port) : (s.modPort n f).mgmt = s.mgmt := rfl

/-! ### modTile -/
@[simp] theorem modTile_pending (n : Nat) (f : Tile → Tile) : (s.modTile n f).pending = s.pending := rfl
@[simp] theorem modTile_fresh (n : Nat) (f : Tile → Tile) : (s.modTile n f).fresh = s.fresh := rfl
@[simp] theorem modTile_tide (n : Nat) (f : Tile → Tile) : (s.modTile n f).tide = s.tide := rfl
@[simp] theorem modTile_power (n : Nat) (f : Tile → Tile) : (s.modTile n f).power = s.power := rfl
@[simp] theorem modTile_pkg (n : Nat) (f : Tile → Tile) : (s.modTile n f).pkg = s.pkg := rfl
@[simp] theorem modTile_time (n : Nat) (f : Tile → Tile) : (s.modTile n f).time = s.time := rfl
@[simp] theorem modTile_commit (n : Nat) (f : Tile → Tile) : (s.modTile n f).commit = s.commit := rfl
@[simp] theorem modTile_step (n : Nat) (f : Tile → Tile) : (s.modTile n f).step = s.step := rfl
@[simp] theorem modTile_skim (n : Nat) (f : Tile → Tile) : (s.modTile n f).skim = s.skim := rfl
@[simp] theorem modTile_conf (n : Nat) (f : Tile → Tile) : (s.modTile n f).conf = s.conf := rfl
@[simp] theorem modTile_staged (n : Nat) (f : Tile → Tile) : (s.modTile n f).staged = s.staged := rfl
@[simp] theorem modTile_commitWait (n : Nat) (f : Tile → Tile) : (s.modTile n f).commitWait = s.commitWait := rfl
@[simp] theorem modTile_signedSerial (n : Nat) (f : Tile → Tile) : (s.modTile n f).signedSerial = s.signedSerial := rfl
@[simp] theorem modTile_host (n : Nat) (f : Tile → Tile) : (s.modTile n f).host = s.host := rfl
@[simp] theorem modTile_dies (n : Nat) (f : Tile → Tile) : (s.modTile n f).dies = s.dies := rfl
@[simp] theorem modTile_arrays (n : Nat) (f : Tile → Tile) : (s.modTile n f).arrays = s.arrays := rfl
@[simp] theorem modTile_mem (n : Nat) (f : Tile → Tile) : (s.modTile n f).mem = s.mem := rfl
@[simp] theorem modTile_poison (n : Nat) (f : Tile → Tile) : (s.modTile n f).poison = s.poison := rfl
@[simp] theorem modTile_farStacks (n : Nat) (f : Tile → Tile) : (s.modTile n f).farStacks = s.farStacks := rfl
@[simp] theorem modTile_layers (n : Nat) (f : Tile → Tile) : (s.modTile n f).layers = s.layers := rfl
@[simp] theorem modTile_ctxs (n : Nat) (f : Tile → Tile) : (s.modTile n f).ctxs = s.ctxs := rfl
@[simp] theorem modTile_ports (n : Nat) (f : Tile → Tile) : (s.modTile n f).ports = s.ports := rfl
@[simp] theorem modTile_seamTrain (n : Nat) (f : Tile → Tile) : (s.modTile n f).seamTrain = s.seamTrain := rfl
@[simp] theorem modTile_dma (n : Nat) (f : Tile → Tile) : (s.modTile n f).dma = s.dma := rfl
@[simp] theorem modTile_log (n : Nat) (f : Tile → Tile) : (s.modTile n f).log = s.log := rfl
@[simp] theorem modTile_mgmt (n : Nat) (f : Tile → Tile) : (s.modTile n f).mgmt = s.mgmt := rfl

/-! ### modChannel -/
@[simp] theorem modChannel_pending (n : Nat) (f : Channel → Channel) : (s.modChannel n f).pending = s.pending := rfl
@[simp] theorem modChannel_fresh (n : Nat) (f : Channel → Channel) : (s.modChannel n f).fresh = s.fresh := rfl
@[simp] theorem modChannel_tide (n : Nat) (f : Channel → Channel) : (s.modChannel n f).tide = s.tide := rfl
@[simp] theorem modChannel_power (n : Nat) (f : Channel → Channel) : (s.modChannel n f).power = s.power := rfl
@[simp] theorem modChannel_pkg (n : Nat) (f : Channel → Channel) : (s.modChannel n f).pkg = s.pkg := rfl
@[simp] theorem modChannel_time (n : Nat) (f : Channel → Channel) : (s.modChannel n f).time = s.time := rfl
@[simp] theorem modChannel_commit (n : Nat) (f : Channel → Channel) : (s.modChannel n f).commit = s.commit := rfl
@[simp] theorem modChannel_step (n : Nat) (f : Channel → Channel) : (s.modChannel n f).step = s.step := rfl
@[simp] theorem modChannel_skim (n : Nat) (f : Channel → Channel) : (s.modChannel n f).skim = s.skim := rfl
@[simp] theorem modChannel_conf (n : Nat) (f : Channel → Channel) : (s.modChannel n f).conf = s.conf := rfl
@[simp] theorem modChannel_staged (n : Nat) (f : Channel → Channel) : (s.modChannel n f).staged = s.staged := rfl
@[simp] theorem modChannel_commitWait (n : Nat) (f : Channel → Channel) : (s.modChannel n f).commitWait = s.commitWait := rfl
@[simp] theorem modChannel_signedSerial (n : Nat) (f : Channel → Channel) : (s.modChannel n f).signedSerial = s.signedSerial := rfl
@[simp] theorem modChannel_host (n : Nat) (f : Channel → Channel) : (s.modChannel n f).host = s.host := rfl
@[simp] theorem modChannel_dies (n : Nat) (f : Channel → Channel) : (s.modChannel n f).dies = s.dies := rfl
@[simp] theorem modChannel_arrays (n : Nat) (f : Channel → Channel) : (s.modChannel n f).arrays = s.arrays := rfl
@[simp] theorem modChannel_mem (n : Nat) (f : Channel → Channel) : (s.modChannel n f).mem = s.mem := rfl
@[simp] theorem modChannel_poison (n : Nat) (f : Channel → Channel) : (s.modChannel n f).poison = s.poison := rfl
@[simp] theorem modChannel_farStacks (n : Nat) (f : Channel → Channel) : (s.modChannel n f).farStacks = s.farStacks := rfl
@[simp] theorem modChannel_layers (n : Nat) (f : Channel → Channel) : (s.modChannel n f).layers = s.layers := rfl
@[simp] theorem modChannel_ctxs (n : Nat) (f : Channel → Channel) : (s.modChannel n f).ctxs = s.ctxs := rfl
@[simp] theorem modChannel_ports (n : Nat) (f : Channel → Channel) : (s.modChannel n f).ports = s.ports := rfl
@[simp] theorem modChannel_seamTrain (n : Nat) (f : Channel → Channel) : (s.modChannel n f).seamTrain = s.seamTrain := rfl
@[simp] theorem modChannel_coll (n : Nat) (f : Channel → Channel) : (s.modChannel n f).coll = s.coll := rfl
@[simp] theorem modChannel_log (n : Nat) (f : Channel → Channel) : (s.modChannel n f).log = s.log := rfl
@[simp] theorem modChannel_mgmt (n : Nat) (f : Channel → Channel) : (s.modChannel n f).mgmt = s.mgmt := rfl

/-! ### modComplex -/
@[simp] theorem modComplex_pending (n : Nat) (f : Complex → Complex) : (s.modComplex n f).pending = s.pending := rfl
@[simp] theorem modComplex_fresh (n : Nat) (f : Complex → Complex) : (s.modComplex n f).fresh = s.fresh := rfl
@[simp] theorem modComplex_tide (n : Nat) (f : Complex → Complex) : (s.modComplex n f).tide = s.tide := rfl
@[simp] theorem modComplex_power (n : Nat) (f : Complex → Complex) : (s.modComplex n f).power = s.power := rfl
@[simp] theorem modComplex_pkg (n : Nat) (f : Complex → Complex) : (s.modComplex n f).pkg = s.pkg := rfl
@[simp] theorem modComplex_time (n : Nat) (f : Complex → Complex) : (s.modComplex n f).time = s.time := rfl
@[simp] theorem modComplex_commit (n : Nat) (f : Complex → Complex) : (s.modComplex n f).commit = s.commit := rfl
@[simp] theorem modComplex_step (n : Nat) (f : Complex → Complex) : (s.modComplex n f).step = s.step := rfl
@[simp] theorem modComplex_skim (n : Nat) (f : Complex → Complex) : (s.modComplex n f).skim = s.skim := rfl
@[simp] theorem modComplex_conf (n : Nat) (f : Complex → Complex) : (s.modComplex n f).conf = s.conf := rfl
@[simp] theorem modComplex_staged (n : Nat) (f : Complex → Complex) : (s.modComplex n f).staged = s.staged := rfl
@[simp] theorem modComplex_commitWait (n : Nat) (f : Complex → Complex) : (s.modComplex n f).commitWait = s.commitWait := rfl
@[simp] theorem modComplex_signedSerial (n : Nat) (f : Complex → Complex) : (s.modComplex n f).signedSerial = s.signedSerial := rfl
@[simp] theorem modComplex_host (n : Nat) (f : Complex → Complex) : (s.modComplex n f).host = s.host := rfl
@[simp] theorem modComplex_dies (n : Nat) (f : Complex → Complex) : (s.modComplex n f).dies = s.dies := rfl
@[simp] theorem modComplex_arrays (n : Nat) (f : Complex → Complex) : (s.modComplex n f).arrays = s.arrays := rfl
@[simp] theorem modComplex_mem (n : Nat) (f : Complex → Complex) : (s.modComplex n f).mem = s.mem := rfl
@[simp] theorem modComplex_poison (n : Nat) (f : Complex → Complex) : (s.modComplex n f).poison = s.poison := rfl
@[simp] theorem modComplex_farStacks (n : Nat) (f : Complex → Complex) : (s.modComplex n f).farStacks = s.farStacks := rfl
@[simp] theorem modComplex_layers (n : Nat) (f : Complex → Complex) : (s.modComplex n f).layers = s.layers := rfl
@[simp] theorem modComplex_ctxs (n : Nat) (f : Complex → Complex) : (s.modComplex n f).ctxs = s.ctxs := rfl
@[simp] theorem modComplex_ports (n : Nat) (f : Complex → Complex) : (s.modComplex n f).ports = s.ports := rfl
@[simp] theorem modComplex_seamTrain (n : Nat) (f : Complex → Complex) : (s.modComplex n f).seamTrain = s.seamTrain := rfl
@[simp] theorem modComplex_coll (n : Nat) (f : Complex → Complex) : (s.modComplex n f).coll = s.coll := rfl
@[simp] theorem modComplex_log (n : Nat) (f : Complex → Complex) : (s.modComplex n f).log = s.log := rfl
@[simp] theorem modComplex_mgmt (n : Nat) (f : Complex → Complex) : (s.modComplex n f).mgmt = s.mgmt := rfl

/-! ### modUnit -/
@[simp] theorem modUnit_pending (n : Nat) (f : CheckUnit → CheckUnit) : (s.modUnit n f).pending = s.pending := rfl
@[simp] theorem modUnit_fresh (n : Nat) (f : CheckUnit → CheckUnit) : (s.modUnit n f).fresh = s.fresh := rfl
@[simp] theorem modUnit_tide (n : Nat) (f : CheckUnit → CheckUnit) : (s.modUnit n f).tide = s.tide := rfl
@[simp] theorem modUnit_power (n : Nat) (f : CheckUnit → CheckUnit) : (s.modUnit n f).power = s.power := rfl
@[simp] theorem modUnit_pkg (n : Nat) (f : CheckUnit → CheckUnit) : (s.modUnit n f).pkg = s.pkg := rfl
@[simp] theorem modUnit_time (n : Nat) (f : CheckUnit → CheckUnit) : (s.modUnit n f).time = s.time := rfl
@[simp] theorem modUnit_commit (n : Nat) (f : CheckUnit → CheckUnit) : (s.modUnit n f).commit = s.commit := rfl
@[simp] theorem modUnit_step (n : Nat) (f : CheckUnit → CheckUnit) : (s.modUnit n f).step = s.step := rfl
@[simp] theorem modUnit_skim (n : Nat) (f : CheckUnit → CheckUnit) : (s.modUnit n f).skim = s.skim := rfl
@[simp] theorem modUnit_conf (n : Nat) (f : CheckUnit → CheckUnit) : (s.modUnit n f).conf = s.conf := rfl
@[simp] theorem modUnit_staged (n : Nat) (f : CheckUnit → CheckUnit) : (s.modUnit n f).staged = s.staged := rfl
@[simp] theorem modUnit_commitWait (n : Nat) (f : CheckUnit → CheckUnit) : (s.modUnit n f).commitWait = s.commitWait := rfl
@[simp] theorem modUnit_signedSerial (n : Nat) (f : CheckUnit → CheckUnit) : (s.modUnit n f).signedSerial = s.signedSerial := rfl
@[simp] theorem modUnit_host (n : Nat) (f : CheckUnit → CheckUnit) : (s.modUnit n f).host = s.host := rfl
@[simp] theorem modUnit_dies (n : Nat) (f : CheckUnit → CheckUnit) : (s.modUnit n f).dies = s.dies := rfl
@[simp] theorem modUnit_arrays (n : Nat) (f : CheckUnit → CheckUnit) : (s.modUnit n f).arrays = s.arrays := rfl
@[simp] theorem modUnit_mem (n : Nat) (f : CheckUnit → CheckUnit) : (s.modUnit n f).mem = s.mem := rfl
@[simp] theorem modUnit_poison (n : Nat) (f : CheckUnit → CheckUnit) : (s.modUnit n f).poison = s.poison := rfl
@[simp] theorem modUnit_farStacks (n : Nat) (f : CheckUnit → CheckUnit) : (s.modUnit n f).farStacks = s.farStacks := rfl
@[simp] theorem modUnit_layers (n : Nat) (f : CheckUnit → CheckUnit) : (s.modUnit n f).layers = s.layers := rfl
@[simp] theorem modUnit_ctxs (n : Nat) (f : CheckUnit → CheckUnit) : (s.modUnit n f).ctxs = s.ctxs := rfl
@[simp] theorem modUnit_ports (n : Nat) (f : CheckUnit → CheckUnit) : (s.modUnit n f).ports = s.ports := rfl
@[simp] theorem modUnit_seamTrain (n : Nat) (f : CheckUnit → CheckUnit) : (s.modUnit n f).seamTrain = s.seamTrain := rfl
@[simp] theorem modUnit_coll (n : Nat) (f : CheckUnit → CheckUnit) : (s.modUnit n f).coll = s.coll := rfl
@[simp] theorem modUnit_log (n : Nat) (f : CheckUnit → CheckUnit) : (s.modUnit n f).log = s.log := rfl
@[simp] theorem modUnit_mgmt (n : Nat) (f : CheckUnit → CheckUnit) : (s.modUnit n f).mgmt = s.mgmt := rfl

/-! ### modCmd -/
@[simp] theorem modCmd_pending (c : CmdRef) (f : Cmd → Cmd) : (s.modCmd c f).pending = s.pending := rfl
@[simp] theorem modCmd_fresh (c : CmdRef) (f : Cmd → Cmd) : (s.modCmd c f).fresh = s.fresh := rfl
@[simp] theorem modCmd_tide (c : CmdRef) (f : Cmd → Cmd) : (s.modCmd c f).tide = s.tide := rfl
@[simp] theorem modCmd_power (c : CmdRef) (f : Cmd → Cmd) : (s.modCmd c f).power = s.power := rfl
@[simp] theorem modCmd_pkg (c : CmdRef) (f : Cmd → Cmd) : (s.modCmd c f).pkg = s.pkg := rfl
@[simp] theorem modCmd_time (c : CmdRef) (f : Cmd → Cmd) : (s.modCmd c f).time = s.time := rfl
@[simp] theorem modCmd_commit (c : CmdRef) (f : Cmd → Cmd) : (s.modCmd c f).commit = s.commit := rfl
@[simp] theorem modCmd_step (c : CmdRef) (f : Cmd → Cmd) : (s.modCmd c f).step = s.step := rfl
@[simp] theorem modCmd_skim (c : CmdRef) (f : Cmd → Cmd) : (s.modCmd c f).skim = s.skim := rfl
@[simp] theorem modCmd_conf (c : CmdRef) (f : Cmd → Cmd) : (s.modCmd c f).conf = s.conf := rfl
@[simp] theorem modCmd_staged (c : CmdRef) (f : Cmd → Cmd) : (s.modCmd c f).staged = s.staged := rfl
@[simp] theorem modCmd_commitWait (c : CmdRef) (f : Cmd → Cmd) : (s.modCmd c f).commitWait = s.commitWait := rfl
@[simp] theorem modCmd_signedSerial (c : CmdRef) (f : Cmd → Cmd) : (s.modCmd c f).signedSerial = s.signedSerial := rfl
@[simp] theorem modCmd_dies (c : CmdRef) (f : Cmd → Cmd) : (s.modCmd c f).dies = s.dies := rfl
@[simp] theorem modCmd_arrays (c : CmdRef) (f : Cmd → Cmd) : (s.modCmd c f).arrays = s.arrays := rfl
@[simp] theorem modCmd_mem (c : CmdRef) (f : Cmd → Cmd) : (s.modCmd c f).mem = s.mem := rfl
@[simp] theorem modCmd_poison (c : CmdRef) (f : Cmd → Cmd) : (s.modCmd c f).poison = s.poison := rfl
@[simp] theorem modCmd_farStacks (c : CmdRef) (f : Cmd → Cmd) : (s.modCmd c f).farStacks = s.farStacks := rfl
@[simp] theorem modCmd_layers (c : CmdRef) (f : Cmd → Cmd) : (s.modCmd c f).layers = s.layers := rfl
@[simp] theorem modCmd_ctxs (c : CmdRef) (f : Cmd → Cmd) : (s.modCmd c f).ctxs = s.ctxs := rfl
@[simp] theorem modCmd_ports (c : CmdRef) (f : Cmd → Cmd) : (s.modCmd c f).ports = s.ports := rfl
@[simp] theorem modCmd_seamTrain (c : CmdRef) (f : Cmd → Cmd) : (s.modCmd c f).seamTrain = s.seamTrain := rfl
@[simp] theorem modCmd_coll (c : CmdRef) (f : Cmd → Cmd) : (s.modCmd c f).coll = s.coll := rfl
@[simp] theorem modCmd_dma (c : CmdRef) (f : Cmd → Cmd) : (s.modCmd c f).dma = s.dma := rfl
@[simp] theorem modCmd_log (c : CmdRef) (f : Cmd → Cmd) : (s.modCmd c f).log = s.log := rfl
@[simp] theorem modCmd_mgmt (c : CmdRef) (f : Cmd → Cmd) : (s.modCmd c f).mgmt = s.mgmt := rfl

/-! ### finish -/
@[simp] theorem finish_pending (c : CmdRef) (st : Status) (d : Nat) (b : List Byte) : (s.finish c st d b).pending = s.pending := rfl
@[simp] theorem finish_fresh (c : CmdRef) (st : Status) (d : Nat) (b : List Byte) : (s.finish c st d b).fresh = s.fresh := rfl
@[simp] theorem finish_tide (c : CmdRef) (st : Status) (d : Nat) (b : List Byte) : (s.finish c st d b).tide = s.tide := rfl
@[simp] theorem finish_power (c : CmdRef) (st : Status) (d : Nat) (b : List Byte) : (s.finish c st d b).power = s.power := rfl
@[simp] theorem finish_pkg (c : CmdRef) (st : Status) (d : Nat) (b : List Byte) : (s.finish c st d b).pkg = s.pkg := rfl
@[simp] theorem finish_time (c : CmdRef) (st : Status) (d : Nat) (b : List Byte) : (s.finish c st d b).time = s.time := rfl
@[simp] theorem finish_commit (c : CmdRef) (st : Status) (d : Nat) (b : List Byte) : (s.finish c st d b).commit = s.commit := rfl
@[simp] theorem finish_step (c : CmdRef) (st : Status) (d : Nat) (b : List Byte) : (s.finish c st d b).step = s.step := rfl
@[simp] theorem finish_skim (c : CmdRef) (st : Status) (d : Nat) (b : List Byte) : (s.finish c st d b).skim = s.skim := rfl
@[simp] theorem finish_conf (c : CmdRef) (st : Status) (d : Nat) (b : List Byte) : (s.finish c st d b).conf = s.conf := rfl
@[simp] theorem finish_staged (c : CmdRef) (st : Status) (d : Nat) (b : List Byte) : (s.finish c st d b).staged = s.staged := rfl
@[simp] theorem finish_commitWait (c : CmdRef) (st : Status) (d : Nat) (b : List Byte) : (s.finish c st d b).commitWait = s.commitWait := rfl
@[simp] theorem finish_signedSerial (c : CmdRef) (st : Status) (d : Nat) (b : List Byte) : (s.finish c st d b).signedSerial = s.signedSerial := rfl
@[simp] theorem finish_dies (c : CmdRef) (st : Status) (d : Nat) (b : List Byte) : (s.finish c st d b).dies = s.dies := rfl
@[simp] theorem finish_arrays (c : CmdRef) (st : Status) (d : Nat) (b : List Byte) : (s.finish c st d b).arrays = s.arrays := rfl
@[simp] theorem finish_mem (c : CmdRef) (st : Status) (d : Nat) (b : List Byte) : (s.finish c st d b).mem = s.mem := rfl
@[simp] theorem finish_poison (c : CmdRef) (st : Status) (d : Nat) (b : List Byte) : (s.finish c st d b).poison = s.poison := rfl
@[simp] theorem finish_farStacks (c : CmdRef) (st : Status) (d : Nat) (b : List Byte) : (s.finish c st d b).farStacks = s.farStacks := rfl
@[simp] theorem finish_layers (c : CmdRef) (st : Status) (d : Nat) (b : List Byte) : (s.finish c st d b).layers = s.layers := rfl
@[simp] theorem finish_ctxs (c : CmdRef) (st : Status) (d : Nat) (b : List Byte) : (s.finish c st d b).ctxs = s.ctxs := rfl
@[simp] theorem finish_ports (c : CmdRef) (st : Status) (d : Nat) (b : List Byte) : (s.finish c st d b).ports = s.ports := rfl
@[simp] theorem finish_seamTrain (c : CmdRef) (st : Status) (d : Nat) (b : List Byte) : (s.finish c st d b).seamTrain = s.seamTrain := rfl
@[simp] theorem finish_coll (c : CmdRef) (st : Status) (d : Nat) (b : List Byte) : (s.finish c st d b).coll = s.coll := rfl
@[simp] theorem finish_dma (c : CmdRef) (st : Status) (d : Nat) (b : List Byte) : (s.finish c st d b).dma = s.dma := rfl
@[simp] theorem finish_log (c : CmdRef) (st : Status) (d : Nat) (b : List Byte) : (s.finish c st d b).log = s.log := rfl
@[simp] theorem finish_mgmt (c : CmdRef) (st : Status) (d : Nat) (b : List Byte) : (s.finish c st d b).mgmt = s.mgmt := rfl

/-! ### setWork -/
@[simp] theorem setWork_pending (c : CmdRef) (w : Work) : (s.setWork c w).pending = s.pending := rfl
@[simp] theorem setWork_fresh (c : CmdRef) (w : Work) : (s.setWork c w).fresh = s.fresh := rfl
@[simp] theorem setWork_tide (c : CmdRef) (w : Work) : (s.setWork c w).tide = s.tide := rfl
@[simp] theorem setWork_power (c : CmdRef) (w : Work) : (s.setWork c w).power = s.power := rfl
@[simp] theorem setWork_pkg (c : CmdRef) (w : Work) : (s.setWork c w).pkg = s.pkg := rfl
@[simp] theorem setWork_time (c : CmdRef) (w : Work) : (s.setWork c w).time = s.time := rfl
@[simp] theorem setWork_commit (c : CmdRef) (w : Work) : (s.setWork c w).commit = s.commit := rfl
@[simp] theorem setWork_step (c : CmdRef) (w : Work) : (s.setWork c w).step = s.step := rfl
@[simp] theorem setWork_skim (c : CmdRef) (w : Work) : (s.setWork c w).skim = s.skim := rfl
@[simp] theorem setWork_conf (c : CmdRef) (w : Work) : (s.setWork c w).conf = s.conf := rfl
@[simp] theorem setWork_staged (c : CmdRef) (w : Work) : (s.setWork c w).staged = s.staged := rfl
@[simp] theorem setWork_commitWait (c : CmdRef) (w : Work) : (s.setWork c w).commitWait = s.commitWait := rfl
@[simp] theorem setWork_signedSerial (c : CmdRef) (w : Work) : (s.setWork c w).signedSerial = s.signedSerial := rfl
@[simp] theorem setWork_dies (c : CmdRef) (w : Work) : (s.setWork c w).dies = s.dies := rfl
@[simp] theorem setWork_arrays (c : CmdRef) (w : Work) : (s.setWork c w).arrays = s.arrays := rfl
@[simp] theorem setWork_mem (c : CmdRef) (w : Work) : (s.setWork c w).mem = s.mem := rfl
@[simp] theorem setWork_poison (c : CmdRef) (w : Work) : (s.setWork c w).poison = s.poison := rfl
@[simp] theorem setWork_farStacks (c : CmdRef) (w : Work) : (s.setWork c w).farStacks = s.farStacks := rfl
@[simp] theorem setWork_layers (c : CmdRef) (w : Work) : (s.setWork c w).layers = s.layers := rfl
@[simp] theorem setWork_ctxs (c : CmdRef) (w : Work) : (s.setWork c w).ctxs = s.ctxs := rfl
@[simp] theorem setWork_ports (c : CmdRef) (w : Work) : (s.setWork c w).ports = s.ports := rfl
@[simp] theorem setWork_seamTrain (c : CmdRef) (w : Work) : (s.setWork c w).seamTrain = s.seamTrain := rfl
@[simp] theorem setWork_coll (c : CmdRef) (w : Work) : (s.setWork c w).coll = s.coll := rfl
@[simp] theorem setWork_dma (c : CmdRef) (w : Work) : (s.setWork c w).dma = s.dma := rfl
@[simp] theorem setWork_log (c : CmdRef) (w : Work) : (s.setWork c w).log = s.log := rfl
@[simp] theorem setWork_mgmt (c : CmdRef) (w : Work) : (s.setWork c w).mgmt = s.mgmt := rfl

/-! ### setWait -/
@[simp] theorem setWait_pending (c : CmdRef) (w : WaitFor) (d : Option Nat) : (s.setWait c w d).pending = s.pending := rfl
@[simp] theorem setWait_fresh (c : CmdRef) (w : WaitFor) (d : Option Nat) : (s.setWait c w d).fresh = s.fresh := rfl
@[simp] theorem setWait_tide (c : CmdRef) (w : WaitFor) (d : Option Nat) : (s.setWait c w d).tide = s.tide := rfl
@[simp] theorem setWait_power (c : CmdRef) (w : WaitFor) (d : Option Nat) : (s.setWait c w d).power = s.power := rfl
@[simp] theorem setWait_pkg (c : CmdRef) (w : WaitFor) (d : Option Nat) : (s.setWait c w d).pkg = s.pkg := rfl
@[simp] theorem setWait_time (c : CmdRef) (w : WaitFor) (d : Option Nat) : (s.setWait c w d).time = s.time := rfl
@[simp] theorem setWait_commit (c : CmdRef) (w : WaitFor) (d : Option Nat) : (s.setWait c w d).commit = s.commit := rfl
@[simp] theorem setWait_step (c : CmdRef) (w : WaitFor) (d : Option Nat) : (s.setWait c w d).step = s.step := rfl
@[simp] theorem setWait_skim (c : CmdRef) (w : WaitFor) (d : Option Nat) : (s.setWait c w d).skim = s.skim := rfl
@[simp] theorem setWait_conf (c : CmdRef) (w : WaitFor) (d : Option Nat) : (s.setWait c w d).conf = s.conf := rfl
@[simp] theorem setWait_staged (c : CmdRef) (w : WaitFor) (d : Option Nat) : (s.setWait c w d).staged = s.staged := rfl
@[simp] theorem setWait_commitWait (c : CmdRef) (w : WaitFor) (d : Option Nat) : (s.setWait c w d).commitWait = s.commitWait := rfl
@[simp] theorem setWait_signedSerial (c : CmdRef) (w : WaitFor) (d : Option Nat) : (s.setWait c w d).signedSerial = s.signedSerial := rfl
@[simp] theorem setWait_dies (c : CmdRef) (w : WaitFor) (d : Option Nat) : (s.setWait c w d).dies = s.dies := rfl
@[simp] theorem setWait_arrays (c : CmdRef) (w : WaitFor) (d : Option Nat) : (s.setWait c w d).arrays = s.arrays := rfl
@[simp] theorem setWait_mem (c : CmdRef) (w : WaitFor) (d : Option Nat) : (s.setWait c w d).mem = s.mem := rfl
@[simp] theorem setWait_poison (c : CmdRef) (w : WaitFor) (d : Option Nat) : (s.setWait c w d).poison = s.poison := rfl
@[simp] theorem setWait_farStacks (c : CmdRef) (w : WaitFor) (d : Option Nat) : (s.setWait c w d).farStacks = s.farStacks := rfl
@[simp] theorem setWait_layers (c : CmdRef) (w : WaitFor) (d : Option Nat) : (s.setWait c w d).layers = s.layers := rfl
@[simp] theorem setWait_ctxs (c : CmdRef) (w : WaitFor) (d : Option Nat) : (s.setWait c w d).ctxs = s.ctxs := rfl
@[simp] theorem setWait_ports (c : CmdRef) (w : WaitFor) (d : Option Nat) : (s.setWait c w d).ports = s.ports := rfl
@[simp] theorem setWait_seamTrain (c : CmdRef) (w : WaitFor) (d : Option Nat) : (s.setWait c w d).seamTrain = s.seamTrain := rfl
@[simp] theorem setWait_coll (c : CmdRef) (w : WaitFor) (d : Option Nat) : (s.setWait c w d).coll = s.coll := rfl
@[simp] theorem setWait_dma (c : CmdRef) (w : WaitFor) (d : Option Nat) : (s.setWait c w d).dma = s.dma := rfl
@[simp] theorem setWait_log (c : CmdRef) (w : WaitFor) (d : Option Nat) : (s.setWait c w d).log = s.log := rfl
@[simp] theorem setWait_mgmt (c : CmdRef) (w : WaitFor) (d : Option Nat) : (s.setWait c w d).mgmt = s.mgmt := rfl

/-! ### clearSignals -/
@[simp] theorem clearSignals_pending (m : W64) : (s.clearSignals m).pending = s.pending := rfl
@[simp] theorem clearSignals_fresh (m : W64) : (s.clearSignals m).fresh = s.fresh := rfl
@[simp] theorem clearSignals_tide (m : W64) : (s.clearSignals m).tide = s.tide := rfl
@[simp] theorem clearSignals_power (m : W64) : (s.clearSignals m).power = s.power := rfl
@[simp] theorem clearSignals_pkg (m : W64) : (s.clearSignals m).pkg = s.pkg := rfl
@[simp] theorem clearSignals_time (m : W64) : (s.clearSignals m).time = s.time := rfl
@[simp] theorem clearSignals_commit (m : W64) : (s.clearSignals m).commit = s.commit := rfl
@[simp] theorem clearSignals_step (m : W64) : (s.clearSignals m).step = s.step := rfl
@[simp] theorem clearSignals_skim (m : W64) : (s.clearSignals m).skim = s.skim := rfl
@[simp] theorem clearSignals_conf (m : W64) : (s.clearSignals m).conf = s.conf := rfl
@[simp] theorem clearSignals_staged (m : W64) : (s.clearSignals m).staged = s.staged := rfl
@[simp] theorem clearSignals_commitWait (m : W64) : (s.clearSignals m).commitWait = s.commitWait := rfl
@[simp] theorem clearSignals_signedSerial (m : W64) : (s.clearSignals m).signedSerial = s.signedSerial := rfl
@[simp] theorem clearSignals_dies (m : W64) : (s.clearSignals m).dies = s.dies := rfl
@[simp] theorem clearSignals_arrays (m : W64) : (s.clearSignals m).arrays = s.arrays := rfl
@[simp] theorem clearSignals_mem (m : W64) : (s.clearSignals m).mem = s.mem := rfl
@[simp] theorem clearSignals_poison (m : W64) : (s.clearSignals m).poison = s.poison := rfl
@[simp] theorem clearSignals_farStacks (m : W64) : (s.clearSignals m).farStacks = s.farStacks := rfl
@[simp] theorem clearSignals_layers (m : W64) : (s.clearSignals m).layers = s.layers := rfl
@[simp] theorem clearSignals_ctxs (m : W64) : (s.clearSignals m).ctxs = s.ctxs := rfl
@[simp] theorem clearSignals_ports (m : W64) : (s.clearSignals m).ports = s.ports := rfl
@[simp] theorem clearSignals_seamTrain (m : W64) : (s.clearSignals m).seamTrain = s.seamTrain := rfl
@[simp] theorem clearSignals_coll (m : W64) : (s.clearSignals m).coll = s.coll := rfl
@[simp] theorem clearSignals_dma (m : W64) : (s.clearSignals m).dma = s.dma := rfl
@[simp] theorem clearSignals_log (m : W64) : (s.clearSignals m).log = s.log := rfl
@[simp] theorem clearSignals_mgmt (m : W64) : (s.clearSignals m).mgmt = s.mgmt := rfl

/-! ### setSignal -/
@[simp] theorem setSignal_pending (j : Nat) : (s.setSignal j).pending = s.pending := rfl
@[simp] theorem setSignal_fresh (j : Nat) : (s.setSignal j).fresh = s.fresh := rfl
@[simp] theorem setSignal_tide (j : Nat) : (s.setSignal j).tide = s.tide := rfl
@[simp] theorem setSignal_power (j : Nat) : (s.setSignal j).power = s.power := rfl
@[simp] theorem setSignal_pkg (j : Nat) : (s.setSignal j).pkg = s.pkg := rfl
@[simp] theorem setSignal_time (j : Nat) : (s.setSignal j).time = s.time := rfl
@[simp] theorem setSignal_commit (j : Nat) : (s.setSignal j).commit = s.commit := rfl
@[simp] theorem setSignal_step (j : Nat) : (s.setSignal j).step = s.step := rfl
@[simp] theorem setSignal_skim (j : Nat) : (s.setSignal j).skim = s.skim := rfl
@[simp] theorem setSignal_conf (j : Nat) : (s.setSignal j).conf = s.conf := rfl
@[simp] theorem setSignal_staged (j : Nat) : (s.setSignal j).staged = s.staged := rfl
@[simp] theorem setSignal_commitWait (j : Nat) : (s.setSignal j).commitWait = s.commitWait := rfl
@[simp] theorem setSignal_signedSerial (j : Nat) : (s.setSignal j).signedSerial = s.signedSerial := rfl
@[simp] theorem setSignal_dies (j : Nat) : (s.setSignal j).dies = s.dies := rfl
@[simp] theorem setSignal_arrays (j : Nat) : (s.setSignal j).arrays = s.arrays := rfl
@[simp] theorem setSignal_mem (j : Nat) : (s.setSignal j).mem = s.mem := rfl
@[simp] theorem setSignal_poison (j : Nat) : (s.setSignal j).poison = s.poison := rfl
@[simp] theorem setSignal_farStacks (j : Nat) : (s.setSignal j).farStacks = s.farStacks := rfl
@[simp] theorem setSignal_layers (j : Nat) : (s.setSignal j).layers = s.layers := rfl
@[simp] theorem setSignal_ctxs (j : Nat) : (s.setSignal j).ctxs = s.ctxs := rfl
@[simp] theorem setSignal_ports (j : Nat) : (s.setSignal j).ports = s.ports := rfl
@[simp] theorem setSignal_seamTrain (j : Nat) : (s.setSignal j).seamTrain = s.seamTrain := rfl
@[simp] theorem setSignal_coll (j : Nat) : (s.setSignal j).coll = s.coll := rfl
@[simp] theorem setSignal_dma (j : Nat) : (s.setSignal j).dma = s.dma := rfl
@[simp] theorem setSignal_log (j : Nat) : (s.setSignal j).log = s.log := rfl
@[simp] theorem setSignal_mgmt (j : Nat) : (s.setSignal j).mgmt = s.mgmt := rfl

/-! ### write -/
@[simp] theorem write_pending (a : Nat) (bs : List Byte) : (s.write a bs).pending = s.pending := rfl
@[simp] theorem write_fresh (a : Nat) (bs : List Byte) : (s.write a bs).fresh = s.fresh := rfl
@[simp] theorem write_tide (a : Nat) (bs : List Byte) : (s.write a bs).tide = s.tide := rfl
@[simp] theorem write_power (a : Nat) (bs : List Byte) : (s.write a bs).power = s.power := rfl
@[simp] theorem write_pkg (a : Nat) (bs : List Byte) : (s.write a bs).pkg = s.pkg := rfl
@[simp] theorem write_time (a : Nat) (bs : List Byte) : (s.write a bs).time = s.time := rfl
@[simp] theorem write_commit (a : Nat) (bs : List Byte) : (s.write a bs).commit = s.commit := rfl
@[simp] theorem write_step (a : Nat) (bs : List Byte) : (s.write a bs).step = s.step := rfl
@[simp] theorem write_skim (a : Nat) (bs : List Byte) : (s.write a bs).skim = s.skim := rfl
@[simp] theorem write_conf (a : Nat) (bs : List Byte) : (s.write a bs).conf = s.conf := rfl
@[simp] theorem write_staged (a : Nat) (bs : List Byte) : (s.write a bs).staged = s.staged := rfl
@[simp] theorem write_commitWait (a : Nat) (bs : List Byte) : (s.write a bs).commitWait = s.commitWait := rfl
@[simp] theorem write_signedSerial (a : Nat) (bs : List Byte) : (s.write a bs).signedSerial = s.signedSerial := rfl
@[simp] theorem write_host (a : Nat) (bs : List Byte) : (s.write a bs).host = s.host := rfl
@[simp] theorem write_dies (a : Nat) (bs : List Byte) : (s.write a bs).dies = s.dies := rfl
@[simp] theorem write_arrays (a : Nat) (bs : List Byte) : (s.write a bs).arrays = s.arrays := rfl
@[simp] theorem write_farStacks (a : Nat) (bs : List Byte) : (s.write a bs).farStacks = s.farStacks := rfl
@[simp] theorem write_layers (a : Nat) (bs : List Byte) : (s.write a bs).layers = s.layers := rfl
@[simp] theorem write_ctxs (a : Nat) (bs : List Byte) : (s.write a bs).ctxs = s.ctxs := rfl
@[simp] theorem write_ports (a : Nat) (bs : List Byte) : (s.write a bs).ports = s.ports := rfl
@[simp] theorem write_seamTrain (a : Nat) (bs : List Byte) : (s.write a bs).seamTrain = s.seamTrain := rfl
@[simp] theorem write_coll (a : Nat) (bs : List Byte) : (s.write a bs).coll = s.coll := rfl
@[simp] theorem write_dma (a : Nat) (bs : List Byte) : (s.write a bs).dma = s.dma := rfl
@[simp] theorem write_log (a : Nat) (bs : List Byte) : (s.write a bs).log = s.log := rfl
@[simp] theorem write_mgmt (a : Nat) (bs : List Byte) : (s.write a bs).mgmt = s.mgmt := rfl

/-! ### markPoison -/
@[simp] theorem markPoison_pending (us : List Nat) : (s.markPoison us).pending = s.pending := rfl
@[simp] theorem markPoison_fresh (us : List Nat) : (s.markPoison us).fresh = s.fresh := rfl
@[simp] theorem markPoison_tide (us : List Nat) : (s.markPoison us).tide = s.tide := rfl
@[simp] theorem markPoison_power (us : List Nat) : (s.markPoison us).power = s.power := rfl
@[simp] theorem markPoison_pkg (us : List Nat) : (s.markPoison us).pkg = s.pkg := rfl
@[simp] theorem markPoison_time (us : List Nat) : (s.markPoison us).time = s.time := rfl
@[simp] theorem markPoison_commit (us : List Nat) : (s.markPoison us).commit = s.commit := rfl
@[simp] theorem markPoison_step (us : List Nat) : (s.markPoison us).step = s.step := rfl
@[simp] theorem markPoison_skim (us : List Nat) : (s.markPoison us).skim = s.skim := rfl
@[simp] theorem markPoison_conf (us : List Nat) : (s.markPoison us).conf = s.conf := rfl
@[simp] theorem markPoison_staged (us : List Nat) : (s.markPoison us).staged = s.staged := rfl
@[simp] theorem markPoison_commitWait (us : List Nat) : (s.markPoison us).commitWait = s.commitWait := rfl
@[simp] theorem markPoison_signedSerial (us : List Nat) : (s.markPoison us).signedSerial = s.signedSerial := rfl
@[simp] theorem markPoison_host (us : List Nat) : (s.markPoison us).host = s.host := rfl
@[simp] theorem markPoison_dies (us : List Nat) : (s.markPoison us).dies = s.dies := rfl
@[simp] theorem markPoison_arrays (us : List Nat) : (s.markPoison us).arrays = s.arrays := rfl
@[simp] theorem markPoison_mem (us : List Nat) : (s.markPoison us).mem = s.mem := rfl
@[simp] theorem markPoison_farStacks (us : List Nat) : (s.markPoison us).farStacks = s.farStacks := rfl
@[simp] theorem markPoison_layers (us : List Nat) : (s.markPoison us).layers = s.layers := rfl
@[simp] theorem markPoison_ctxs (us : List Nat) : (s.markPoison us).ctxs = s.ctxs := rfl
@[simp] theorem markPoison_ports (us : List Nat) : (s.markPoison us).ports = s.ports := rfl
@[simp] theorem markPoison_seamTrain (us : List Nat) : (s.markPoison us).seamTrain = s.seamTrain := rfl
@[simp] theorem markPoison_coll (us : List Nat) : (s.markPoison us).coll = s.coll := rfl
@[simp] theorem markPoison_dma (us : List Nat) : (s.markPoison us).dma = s.dma := rfl
@[simp] theorem markPoison_log (us : List Nat) : (s.markPoison us).log = s.log := rfl
@[simp] theorem markPoison_mgmt (us : List Nat) : (s.markPoison us).mgmt = s.mgmt := rfl

/-! ### writeHost -/
@[simp] theorem writeHost_pending (a : Nat) (bs : List Byte) : (s.writeHost a bs).pending = s.pending := rfl
@[simp] theorem writeHost_fresh (a : Nat) (bs : List Byte) : (s.writeHost a bs).fresh = s.fresh := rfl
@[simp] theorem writeHost_tide (a : Nat) (bs : List Byte) : (s.writeHost a bs).tide = s.tide := rfl
@[simp] theorem writeHost_power (a : Nat) (bs : List Byte) : (s.writeHost a bs).power = s.power := rfl
@[simp] theorem writeHost_pkg (a : Nat) (bs : List Byte) : (s.writeHost a bs).pkg = s.pkg := rfl
@[simp] theorem writeHost_time (a : Nat) (bs : List Byte) : (s.writeHost a bs).time = s.time := rfl
@[simp] theorem writeHost_commit (a : Nat) (bs : List Byte) : (s.writeHost a bs).commit = s.commit := rfl
@[simp] theorem writeHost_step (a : Nat) (bs : List Byte) : (s.writeHost a bs).step = s.step := rfl
@[simp] theorem writeHost_skim (a : Nat) (bs : List Byte) : (s.writeHost a bs).skim = s.skim := rfl
@[simp] theorem writeHost_conf (a : Nat) (bs : List Byte) : (s.writeHost a bs).conf = s.conf := rfl
@[simp] theorem writeHost_staged (a : Nat) (bs : List Byte) : (s.writeHost a bs).staged = s.staged := rfl
@[simp] theorem writeHost_commitWait (a : Nat) (bs : List Byte) : (s.writeHost a bs).commitWait = s.commitWait := rfl
@[simp] theorem writeHost_signedSerial (a : Nat) (bs : List Byte) : (s.writeHost a bs).signedSerial = s.signedSerial := rfl
@[simp] theorem writeHost_host (a : Nat) (bs : List Byte) : (s.writeHost a bs).host = s.host := rfl
@[simp] theorem writeHost_dies (a : Nat) (bs : List Byte) : (s.writeHost a bs).dies = s.dies := rfl
@[simp] theorem writeHost_arrays (a : Nat) (bs : List Byte) : (s.writeHost a bs).arrays = s.arrays := rfl
@[simp] theorem writeHost_poison (a : Nat) (bs : List Byte) : (s.writeHost a bs).poison = s.poison := rfl
@[simp] theorem writeHost_farStacks (a : Nat) (bs : List Byte) : (s.writeHost a bs).farStacks = s.farStacks := rfl
@[simp] theorem writeHost_layers (a : Nat) (bs : List Byte) : (s.writeHost a bs).layers = s.layers := rfl
@[simp] theorem writeHost_ctxs (a : Nat) (bs : List Byte) : (s.writeHost a bs).ctxs = s.ctxs := rfl
@[simp] theorem writeHost_ports (a : Nat) (bs : List Byte) : (s.writeHost a bs).ports = s.ports := rfl
@[simp] theorem writeHost_seamTrain (a : Nat) (bs : List Byte) : (s.writeHost a bs).seamTrain = s.seamTrain := rfl
@[simp] theorem writeHost_coll (a : Nat) (bs : List Byte) : (s.writeHost a bs).coll = s.coll := rfl
@[simp] theorem writeHost_dma (a : Nat) (bs : List Byte) : (s.writeHost a bs).dma = s.dma := rfl
@[simp] theorem writeHost_log (a : Nat) (bs : List Byte) : (s.writeHost a bs).log = s.log := rfl
@[simp] theorem writeHost_mgmt (a : Nat) (bs : List Byte) : (s.writeHost a bs).mgmt = s.mgmt := rfl

/-! ### advance -/
@[simp] theorem advance_pending (dt : Nat) : (s.advance dt).pending = s.pending := rfl
@[simp] theorem advance_fresh (dt : Nat) : (s.advance dt).fresh = s.fresh := rfl
@[simp] theorem advance_power (dt : Nat) : (s.advance dt).power = s.power := rfl
@[simp] theorem advance_pkg (dt : Nat) : (s.advance dt).pkg = s.pkg := rfl
@[simp] theorem advance_commit (dt : Nat) : (s.advance dt).commit = s.commit := rfl
@[simp] theorem advance_step (dt : Nat) : (s.advance dt).step = s.step := rfl
@[simp] theorem advance_skim (dt : Nat) : (s.advance dt).skim = s.skim := rfl
@[simp] theorem advance_conf (dt : Nat) : (s.advance dt).conf = s.conf := rfl
@[simp] theorem advance_staged (dt : Nat) : (s.advance dt).staged = s.staged := rfl
@[simp] theorem advance_commitWait (dt : Nat) : (s.advance dt).commitWait = s.commitWait := rfl
@[simp] theorem advance_signedSerial (dt : Nat) : (s.advance dt).signedSerial = s.signedSerial := rfl
@[simp] theorem advance_host (dt : Nat) : (s.advance dt).host = s.host := rfl
@[simp] theorem advance_dies (dt : Nat) : (s.advance dt).dies = s.dies := rfl
@[simp] theorem advance_arrays (dt : Nat) : (s.advance dt).arrays = s.arrays := rfl
@[simp] theorem advance_mem (dt : Nat) : (s.advance dt).mem = s.mem := rfl
@[simp] theorem advance_poison (dt : Nat) : (s.advance dt).poison = s.poison := rfl
@[simp] theorem advance_farStacks (dt : Nat) : (s.advance dt).farStacks = s.farStacks := rfl
@[simp] theorem advance_layers (dt : Nat) : (s.advance dt).layers = s.layers := rfl
@[simp] theorem advance_ctxs (dt : Nat) : (s.advance dt).ctxs = s.ctxs := rfl
@[simp] theorem advance_ports (dt : Nat) : (s.advance dt).ports = s.ports := rfl
@[simp] theorem advance_seamTrain (dt : Nat) : (s.advance dt).seamTrain = s.seamTrain := rfl
@[simp] theorem advance_coll (dt : Nat) : (s.advance dt).coll = s.coll := rfl
@[simp] theorem advance_dma (dt : Nat) : (s.advance dt).dma = s.dma := rfl
@[simp] theorem advance_log (dt : Nat) : (s.advance dt).log = s.log := rfl
@[simp] theorem advance_mgmt (dt : Nat) : (s.advance dt).mgmt = s.mgmt := rfl

end Sys2Proof.Machine
end

