-- ==== Sys2Proof/Laws/Table.lean ====
section
/-! SUPPORT. Reading a table after an update, and the state's indexed records after theirs. -/

namespace Sys2Proof.Machine

variable {α : Type}

@[simp] theorem tabGet_tabSet_same (d : α) (t : Tab α) (n : Nat) (v : α) : tabGet d (tabSet t n v) n = v := by
  induction t with
  | nil => simp [tabSet, tabGet]
  | cons e t ih =>
    obtain ⟨k, w⟩ := e
    unfold tabSet
    split
    · simp [tabGet]
    · split
      · simp [tabGet]
      · next h => simp [tabGet, ih, Ne.symm h]

theorem tabGet_tabSet_ne (d : α) (t : Tab α) (n m : Nat) (v : α) (h : m ≠ n) :
    tabGet d (tabSet t n v) m = tabGet d t m := by
  induction t with
  | nil => simp [tabSet, tabGet, Ne.symm h]
  | cons e t ih =>
    obtain ⟨k, w⟩ := e
    unfold tabSet
    split
    · simp [tabGet, Ne.symm h]
    · split
      · next hk => subst hk; simp [tabGet, Ne.symm h]
      · simp [tabGet, ih]

@[simp] theorem tabFind_tabSet_same (t : Tab α) (n : Nat) (v : α) : tabFind (tabSet t n v) n = some v := by
  induction t with
  | nil => simp [tabSet, tabFind]
  | cons e t ih =>
    obtain ⟨k, w⟩ := e
    unfold tabSet
    split
    · simp [tabFind]
    · split
      · simp [tabFind]
      · next h => simp [tabFind, ih, Ne.symm h]

theorem tabFind_tabSet_ne (t : Tab α) (n m : Nat) (v : α) (h : m ≠ n) : tabFind (tabSet t n v) m = tabFind t m := by
  induction t with
  | nil => simp [tabSet, tabFind, Ne.symm h]
  | cons e t ih =>
    obtain ⟨k, w⟩ := e
    unfold tabSet
    split
    · simp [tabFind, Ne.symm h]
    · split
      · next hk => subst hk; simp [tabFind, Ne.symm h]
      · simp [tabFind, ih]

@[simp] theorem tabGet_tabMod_same (d : α) (t : Tab α) (n : Nat) (f : α → α) :
    tabGet d (tabMod d t n f) n = f (tabGet d t n) := tabGet_tabSet_same ..

theorem tabGet_tabMod_ne (d : α) (t : Tab α) (n m : Nat) (f : α → α) (h : m ≠ n) :
    tabGet d (tabMod d t n f) m = tabGet d t m := tabGet_tabSet_ne _ _ _ _ _ h

/-! ### The state's records -/

variable (s : State)

@[simp] theorem setRing_ring (r : Nat) (x : Ring) : (s.setRing r x).ring r = x := tabGet_tabSet_same ..

theorem setRing_ring_ne (r q : Nat) (x : Ring) (h : q ≠ r) : (s.setRing r x).ring q = s.ring q := by
  have e (d : Ring) (t : Tab Ring) : tabGet d (tabSet t r x) q = tabGet d t q := tabGet_tabSet_ne d t r q x h
  exact e _ _

@[simp] theorem modRing_ring (r : Nat) (f : Ring → Ring) : (s.modRing r f).ring r = f (s.ring r) := setRing_ring ..

theorem modRing_ring_ne (r q : Nat) (f : Ring → Ring) (h : q ≠ r) : (s.modRing r f).ring q = s.ring q :=
  setRing_ring_ne s r q _ h

@[simp] theorem setSlot_slot (r k : Nat) (x : Slot) : (s.setSlot r k x).slot r k = some x := tabFind_tabSet_same ..

theorem setSlot_slot_ne (r k q m : Nat) (x : Slot) (h : slotKey q m ≠ slotKey r k) :
    (s.setSlot r k x).slot q m = s.slot q m := tabFind_tabSet_ne _ _ _ _ h

@[simp] theorem modDie_die (n : Nat) (f : Die → Die) : (s.modDie n f).die n = f (s.die n) := tabGet_tabMod_same ..

theorem modDie_die_ne (n k : Nat) (f : Die → Die) (h : k ≠ n) : (s.modDie n f).die k = s.die k :=
  tabGet_tabMod_ne _ _ _ _ _ h

@[simp] theorem modStack_stack (n : Nat) (f : Stack → Stack) : (s.modStack n f).stack n = f (s.stack n) := tabGet_tabMod_same ..

theorem modStack_stack_ne (n k : Nat) (f : Stack → Stack) (h : k ≠ n) : (s.modStack n f).stack k = s.stack k :=
  tabGet_tabMod_ne _ _ _ _ _ h

@[simp] theorem modLayer_layer (n : Nat) (f : Layer → Layer) : (s.modLayer n f).layer n = f (s.layer n) := tabGet_tabMod_same ..

theorem modLayer_layer_ne (n k : Nat) (f : Layer → Layer) (h : k ≠ n) : (s.modLayer n f).layer k = s.layer k :=
  tabGet_tabMod_ne _ _ _ _ _ h

@[simp] theorem modCtx_ctx (n : Nat) (f : Ctx → Ctx) : (s.modCtx n f).ctx n = f (s.ctx n) := tabGet_tabMod_same ..

theorem modCtx_ctx_ne (n k : Nat) (f : Ctx → Ctx) (h : k ≠ n) : (s.modCtx n f).ctx k = s.ctx k :=
  tabGet_tabMod_ne _ _ _ _ _ h

@[simp] theorem modPort_port (n : Nat) (f : Port → Port) : (s.modPort n f).port n = f (s.port n) := tabGet_tabMod_same ..

theorem modPort_port_ne (n k : Nat) (f : Port → Port) (h : k ≠ n) : (s.modPort n f).port k = s.port k :=
  tabGet_tabMod_ne _ _ _ _ _ h

@[simp] theorem modTile_tile (n : Nat) (f : Tile → Tile) : (s.modTile n f).tile n = f (s.tile n) := tabGet_tabMod_same ..

theorem modTile_tile_ne (n k : Nat) (f : Tile → Tile) (h : k ≠ n) : (s.modTile n f).tile k = s.tile k :=
  tabGet_tabMod_ne _ _ _ _ _ h

@[simp] theorem modChannel_channel (n : Nat) (f : Channel → Channel) : (s.modChannel n f).channel n = f (s.channel n) := tabGet_tabMod_same ..

theorem modChannel_channel_ne (n k : Nat) (f : Channel → Channel) (h : k ≠ n) : (s.modChannel n f).channel k = s.channel k :=
  tabGet_tabMod_ne _ _ _ _ _ h

@[simp] theorem modComplex_complex (n : Nat) (f : Complex → Complex) : (s.modComplex n f).complex n = f (s.complex n) := tabGet_tabMod_same ..

theorem modComplex_complex_ne (n k : Nat) (f : Complex → Complex) (h : k ≠ n) : (s.modComplex n f).complex k = s.complex k :=
  tabGet_tabMod_ne _ _ _ _ _ h

@[simp] theorem modUnit_unit (n : Nat) (f : CheckUnit → CheckUnit) : (s.modUnit n f).unit n = f (s.unit n) := tabGet_tabMod_same ..

theorem modUnit_unit_ne (n k : Nat) (f : CheckUnit → CheckUnit) (h : k ≠ n) : (s.modUnit n f).unit k = s.unit k :=
  tabGet_tabMod_ne _ _ _ _ _ h

end Sys2Proof.Machine
end

