-- ==== Sys2Proof/Laws/Ops.lean ====
section
/-! SUPPORT. What each shared operation can change, said once: the state after it is the state before with these parts
replaced. -/

namespace Sys2Proof.Machine

variable (s : State)

/-! ### Interrupts and signals -/

/-- A cause of a vector changes the pending-bit array or the messages sent. -/
theorem raise_eq (v : Nat) : s.raise v = { s with host := { s.host with
    pba := (s.raise v).host.pba, msixSent := (s.raise v).host.msixSent } } := by
  unfold State.raise; split
  · rfl
  · split <;> rfl

/-- Messages already sent stay sent. -/
theorem raise_sent (v w : Nat) (h : w ∈ s.host.msixSent) : w ∈ (s.raise v).host.msixSent := by
  unfold State.raise; split
  · exact h
  · split
    · exact h
    · simp [h]

theorem setSignals_eq (m : W64) : s.setSignals m = { s with host := { s.host with
    signals := (s.setSignals m).host.signals, signalTide := (s.setSignals m).host.signalTide } } := by
  unfold State.setSignals
  generalize bitsSet m.toNat 64 = js
  induction js generalizing s with
  | nil => rfl
  | cons j js ih => rw [List.foldl_cons, ih (s.setSignal j)]; rfl

/-! ### The trouble log -/

theorem refreshFault_eq : s.refreshFault = { s with power := { s.power with faultLow := s.refreshFault.power.faultLow } } := rfl

/-- A record changes the log, FAULT_N, the events sent and the interrupts. -/
theorem writeLog_eq (r : LogRec) : s.writeLog r = { s with
    log := { s.log with written := s.log.written + 1, records := (s.writeLog r).log.records, fatal := (s.writeLog r).log.fatal }
    power := { s.power with faultLow := (s.writeLog r).power.faultLow }
    mgmt := { s.mgmt with events := (s.writeLog r).mgmt.events }
    host := { s.host with pba := (s.writeLog r).host.pba, msixSent := (s.writeLog r).host.msixSent } } := by
  have key (x : State) (n : Nat) (w : Nat) (rs : List LogRec) (ft fl : Bool) (es : List LogRec)
      (hx : x = { s with
        log := { s.log with written := w, records := rs, fatal := ft }
        power := { s.power with faultLow := fl }
        mgmt := { s.mgmt with events := es } }) : x.raise n = { s with
      log := { s.log with written := w, records := (x.raise n).log.records, fatal := (x.raise n).log.fatal }
      power := { s.power with faultLow := (x.raise n).power.faultLow }
      mgmt := { s.mgmt with events := (x.raise n).mgmt.events }
      host := { s.host with pba := (x.raise n).host.pba, msixSent := (x.raise n).host.msixSent } } := by
    subst hx; unfold State.raise; split
    · rfl
    · split <;> rfl
  have keep (x : State) (w : Nat) (rs : List LogRec) (ft fl : Bool) (es : List LogRec)
      (hx : x = { s with
        log := { s.log with written := w, records := rs, fatal := ft }
        power := { s.power with faultLow := fl }
        mgmt := { s.mgmt with events := es } }) : x = { s with
      log := { s.log with written := w, records := x.log.records, fatal := x.log.fatal }
      power := { s.power with faultLow := x.power.faultLow }
      mgmt := { s.mgmt with events := x.mgmt.events }
      host := { s.host with pba := x.host.pba, msixSent := x.host.msixSent } } := by subst hx; rfl
  unfold State.writeLog
  dsimp only
  split <;> split
  · exact key _ _ _ _ _ _ _ rfl
  · exact keep _ _ _ _ _ _ rfl
  · exact key _ _ _ _ _ _ _ rfl
  · exact keep _ _ _ _ _ _ rfl

theorem logFlag_eq (o : Bool) (src code sev a0 a1 a2 : Nat) : s.logFlag o src code sev a0 a1 a2 = { s with
    log := { s.log with
      written := (s.logFlag o src code sev a0 a1 a2).log.written, records := (s.logFlag o src code sev a0 a1 a2).log.records
      fatal := (s.logFlag o src code sev a0 a1 a2).log.fatal, rates := (s.logFlag o src code sev a0 a1 a2).log.rates }
    power := { s.power with faultLow := (s.logFlag o src code sev a0 a1 a2).power.faultLow }
    mgmt := { s.mgmt with events := (s.logFlag o src code sev a0 a1 a2).mgmt.events }
    host := { s.host with
      pba := (s.logFlag o src code sev a0 a1 a2).host.pba, msixSent := (s.logFlag o src code sev a0 a1 a2).host.msixSent } } := by
  unfold State.logFlag
  dsimp only
  split
  · rfl
  · rw [writeLog_eq]

theorem logRec_eq (src code sev a0 a1 a2 : Nat) : s.logRec src code sev a0 a1 a2 = { s with
    log := { s.log with
      written := (s.logRec src code sev a0 a1 a2).log.written, records := (s.logRec src code sev a0 a1 a2).log.records
      fatal := (s.logRec src code sev a0 a1 a2).log.fatal, rates := (s.logRec src code sev a0 a1 a2).log.rates }
    power := { s.power with faultLow := (s.logRec src code sev a0 a1 a2).power.faultLow }
    mgmt := { s.mgmt with events := (s.logRec src code sev a0 a1 a2).mgmt.events }
    host := { s.host with
      pba := (s.logRec src code sev a0 a1 a2).host.pba, msixSent := (s.logRec src code sev a0 a1 a2).host.msixSent } } :=
  logFlag_eq ..

/-! ### Commands -/

theorem setRing_eq (r : Nat) (x : Ring) :
    s.setRing r x = { s with host := { s.host with rings := (s.setRing r x).host.rings } } := rfl

theorem modRing_eq (r : Nat) (f : Ring → Ring) :
    s.modRing r f = { s with host := { s.host with rings := (s.modRing r f).host.rings } } := rfl

theorem modCmd_eq (c : CmdRef) (f : Cmd → Cmd) :
    s.modCmd c f = { s with host := { s.host with rings := (s.modCmd c f).host.rings } } := rfl

theorem dropCmd_eq (c : Cmd) : s.dropCmd c = { s with host := { s.host with rings := (s.dropCmd c).host.rings } } := rfl

theorem fillSlot_eq (c : Cmd) (st : Status) (d : Nat) (b : List Byte) :
    s.fillSlot c st d b = { s with host := { s.host with slots := (s.fillSlot c st d b).host.slots } } := by
  unfold State.fillSlot
  split
  · rfl
  · rfl
  · unfold State.readySlot
    split
    · rfl
    · split <;> rfl

theorem sendRingInt_eq (r : Nat) : s.sendRingInt r = { s with host := { s.host with
    rings := (s.sendRingInt r).host.rings, pba := (s.sendRingInt r).host.pba, msixSent := (s.sendRingInt r).host.msixSent } } := by
  unfold State.sendRingInt; rw [raise_eq]; rfl

theorem countInt_eq (r : Nat) : s.countInt r = { s with host := { s.host with
    rings := (s.countInt r).host.rings, pba := (s.countInt r).host.pba, msixSent := (s.countInt r).host.msixSent } } := by
  unfold State.countInt
  dsimp only
  split
  · rw [sendRingInt_eq]; rfl
  · rfl

/-- A halt changes its ring and raises vector 17 (R65). -/
theorem halt_eq (r cause : Nat) : s.halt r cause = { s with host := { s.host with
    rings := (s.halt r cause).host.rings, pba := (s.halt r cause).host.pba, msixSent := (s.halt r cause).host.msixSent } } := by
  unfold State.halt; rw [raise_eq]; rfl

/-- Starting changes the ring, the signals, the start count and the count of late launches. -/
theorem begin_eq (c : Cmd) (t : Nat) : (s.begin c t).2 = { s with
    host := { s.host with
      nextStart := s.host.nextStart + 1, rings := (s.begin c t).2.host.rings, signals := (s.begin c t).2.host.signals }
    time := { s.time with lateLaunches := (s.begin c t).2.time.lateLaunches } } := by
  unfold State.begin
  dsimp only
  split <;> split <;> rfl

/-- Everything an answer of `take` says: the front command of the ring has the opcode, it may start, no other takes its
signals before it, and what is answered is its start. -/
theorem take_some {r op : Nat} {x : Cmd × State} (h : s.take r op = some x) :
    ∃ c, (s.ring r).front = some c ∧ c.opcode = op ∧ s.mayStart c = true ∧ s.yields c = false ∧
      x = s.begin c ((s.readySince c).getD 0) := by
  unfold State.take at h
  split at h
  · cases h
  · rename_i c hc
    split at h
    · rename_i hb
      simp only [Bool.and_eq_true, decide_eq_true_eq, Bool.not_eq_true'] at hb
      exact ⟨c, hc, hb.1.1, hb.1.2, hb.2, (Option.some.inj h).symm⟩
    · cases h

end Sys2Proof.Machine
end

