-- ==== Sys2Proof/WellFormed.lean ====
section
/-! DEFINITION. Which commands the links, the host and the management side can spell: every field of a frame, word or
message within the width that the spec's layout gives it. The meanings answer for ill-formed commands too; a command
that fails here is one that no sender can send. -/

namespace Sys2Proof

/-- The header's context fields have 4 bits, SEND_TIDE 64 (R311). -/
def FrameHdr.wf (h : FrameHdr) : Bool := h.srcCtx.blt 16 && h.dstCtx.blt 16 && h.sendTide.blt (2 ^ 64)

/-- PAYLOAD_BYTES of 1 to 16,256 (R315, R318, R346). -/
def payloadWf (p : List Byte) : Bool := Nat.ble 1 p.length && p.length.ble 16256

/-- R315. -/
def DataF.wf (f : DataF) : Bool :=
  f.entry.blt 64 && f.offset.blt (2 ^ 64) && payloadWf f.payload && f.totalBytes.blt (2 ^ 32)

/-- R316. -/
def CreditF.wf (f : CreditF) : Bool := f.ckptUnits.blt (2 ^ 32)

/-- R317. -/
def TimeF.wf (f : TimeF) : Bool :=
  f.echoSend.blt (2 ^ 64) && f.echoRx.blt (2 ^ 64) && f.hops.blt 256 && f.errorEst.blt 256

/-- R330: 32 bytes and two flag bits a block; a REFUSE carries no blocks, and it alone a status. -/
def ReduceF.wf (f : ReduceF) : Bool :=
  f.kind.ble 2 && (if f.kind == 2 then [0x03, 0x0A, 0x0B].contains f.status else f.status == 0) && f.firstBlock.blt (2 ^ 32) && f.contrib.blt (2 ^ 16) && f.nblocks.ble 448 &&
    (if f.kind == 2 then f.nblocks == 0 else Nat.ble 1 f.nblocks) && f.payload.length == 32 * f.nblocks &&
    f.flags.length == (f.nblocks + 3) / 4

/-- R336. -/
def GatherF.wf (f : GatherF) : Bool :=
  f.kind.ble 4 && f.status.blt 256 && f.plane.ble 1 && f.rank.blt (2 ^ 16) && f.dstRank.blt (2 ^ 16) &&
    f.layer.blt (2 ^ 16) && f.shard.blt (2 ^ 16) && f.offset.blt (2 ^ 64) && f.payload.length.ble 16256 &&
    f.total.blt (2 ^ 32)

/-- R346: a SEGMENT carries 1 to 16,256 bytes, a REFUSE none. -/
def PermuteF.wf (f : PermuteF) : Bool :=
  f.kind.ble 1 && f.status.blt 256 && f.plane.ble 1 && f.dstRank.blt (2 ^ 16) && f.fromRank.blt (2 ^ 16) &&
    f.seg.blt (2 ^ 16) && f.offset.blt (2 ^ 64) && (if f.kind == 0 then payloadWf f.payload else f.payload.isEmpty) &&
    f.total.blt (2 ^ 64)

/-- R333. -/
def VerdictF.wf (f : VerdictF) : Bool := f.contrib.blt (2 ^ 16)

/-- R339. -/
def ShardF.wf (f : ShardF) : Bool :=
  f.kind.ble 3 && f.layer.blt (2 ^ 16) && f.dstRank.blt (2 ^ 16) && f.reqId.blt (2 ^ 32)

/-- R334. -/
def BarrierF.wf (f : BarrierF) : Bool :=
  f.kind.ble 2 && f.status.blt 256 && f.contrib.blt (2 ^ 16) && f.latest.blt (2 ^ 64)

/-- R318. -/
def CheckpointF.wf (f : CheckpointF) : Bool := f.offset.blt (2 ^ 64) && payloadWf f.payload

/-- R337. -/
def SeqF.wf (f : SeqF) : Bool :=
  f.kind.ble 1 && f.offset.blt (2 ^ 64) && f.payload.length.ble 16256 && f.total.blt (2 ^ 32)

/-- R309, R310: each wrong symbol is one of the 544 and listed once; sequence numbers have 9 bits; a codeword completes
at most ten frames. -/
def CodewordIn.wf (c : CodewordIn) : Bool :=
  c.errors.all (fun i => i.blt 544) && c.errors.eraseDups.length == c.errors.length &&
    c.crcFirst.all (fun q => q.blt 512) && c.reserved.ble 10

/-- A die that is neither a compute die nor a far-tier stack has a source of its own (R396). -/
def ThermDie.wf : ThermDie → Bool
  | .compute _ => true
  | .stack _ => true
  | .other source => source.blt (2 ^ 12)

/-- Three seam links (R23), site reports with 16-bit sources. -/
def StartInput.wf (i : StartInput) : Bool := i.seams.length.ble 3 && i.reports.all (fun r => r.source.blt (2 ^ 16))

/-- What host memory holds at the fetched units: 64 bytes each (R64, R67). -/
def fetchedWf (host : List (Nat × List Byte)) : Bool := host.all (fun u => u.2.length == 64 && u.1.blt (2 ^ 64))

/-- The commands that can occur. -/
def Instr.wf : Instr → Bool
  | .startUp _ inp => inp.wf
  | .inputFault _ mv _ => mv.blt (2 ^ 16)
  | .tideSyncInEdge _ tenths => tenths.blt 10
  | .timeFrameReceive _ _ hdr f => hdr.wf && f.wf
  | .temperatureThreshold _ die celsius => celsius.blt 256 && die.wf
  | .powerBudgetExchange _ mv power request => mv.blt (2 ^ 16) && power.length == 12 && request.length == 12
  | .barAccess _ _ offset size _ => Nat.ble 1 size && offset.blt (2 ^ 26)
  | .registerWrite _ offset size _ => Nat.ble 1 size && offset.blt (2 ^ 26)
  | .packetFetch _ _ host => fetchedWf host
  | .permuteWorkSend _ seg => seg.blt (2 ^ 16)
  | .dmaStart _ _ host => host.length.ble (32 * 1024)
  | .move _ _ host => host.length.ble 4096
  | .farChannelFault _ _ _ failingCa failingD0 failingD1 =>
    failingCa.length.ble 17 && failingD0.length.ble 34 && failingD1.length.ble 34
  | .recoveryDone _ cls _ => cls.ble 9
  | .trainingBlockReceive _ _ fields _ => fields.length == 28
  | .patrolScrub _ _ bad _ => bad.ble 64
  | .codewordReceive _ _ cw => cw.wf
  | .dataFrame _ _ hdr f => hdr.wf && f.wf
  | .creditFrame _ _ hdr f => hdr.wf && f.wf
  | .reduceFrame _ _ hdr f => hdr.wf && f.wf
  | .gatherFrame _ _ hdr f => hdr.wf && f.wf
  | .permuteFrame _ _ hdr f => hdr.wf && f.wf
  | .verdictFrame _ _ hdr f => hdr.wf && f.wf
  | .shardFrame _ _ hdr f => hdr.wf && f.wf
  | .barrierFrame _ _ hdr f => hdr.wf && f.wf
  | .checkpointFrame _ _ hdr f => hdr.wf && f.wf
  | .seqFrame _ _ hdr f => hdr.wf && f.wf
  | .setdasa _ static dynamic => static.blt 128 && dynamic.blt 128
  | .entdaa _ dynamic => dynamic.blt 128
  | .getCertificate _ slot offset length => slot.blt 256 && offset.blt (2 ^ 16) && length.blt (2 ^ 16)
  | .challenge _ slot nonce => slot.blt 256 && nonce.length == 32
  | .getMeasurements _ slot index _ nonce => slot.blt 256 && index.blt 256 && nonce.length == 32
  | .getSensorReading _ sensor => sensor.blt (2 ^ 16)
  | .requestUpdate _ maxTransfer => maxTransfer.blt (2 ^ 32)
  | .passComponentTable _ component => component.blt (2 ^ 16)
  | .updateComponent _ component size => component.blt (2 ^ 16) && size.blt (2 ^ 32)
  | .requestFirmwareData _ offset data => offset.blt (2 ^ 32) && data.length.blt (2 ^ 32)
  | .oemLogRead _ _ _ minSeverity => minSeverity.blt 256
  | .oemRegisterRead _ offset _ => offset.blt (2 ^ 26)
  | .calibrationDone _ _ margins => margins.length.ble 9
  | .alignmentWaitTimeout _ | .modResetAssert _ | .pwrEnFall _ | .perstAssert _ | .perstRelease _
  | .functionLevelReset _ | .refclkLoss _ | .refclkReturn _ | .syncOutPulse _ | .timeFrameSend _ _
  | .idleVoltageTimer _ _ | .tideNowRead _ _ | .lastCommitTideRead _ _ | .idleSnapTideRead _ _ _
  | .slotRead _ _ _ _ | .ringDoorbell _ _ _ | .ringEnable _ _ _ | .ringReset _ _ _ | .layerDefine _ _ _
  | .layerUndefine _ _ _ | .skimRdWrite _ _ | .channelStop _ _ | .logSelectWrite _ _ | .fatalClear _ _
  | .mismatchClear _ _ | .msixUnmask _ _ | .waitTimeoutExpiry _ _ | .commandCompletion _ _ _ | .coalesceTimeout _ _
  | .nop _ _ | .fence _ _ | .waitTide _ _ | .waitTideTarget _ _ | .signal _ _ | .waitSignal _ _ | .tileMm _ _
  | .tileConv _ _ | .tileDgrad _ _ | .tileWgrad _ _ | .drain _ _ _ | .spillFlush _ _ _ | .mbAdmit _ _
  | .admissionGrant _ _ | .admitTimeout _ _ | .sendAct _ _ | .sendGrad _ _ | .sendCreditTake _ _ _
  | .sendTimeout _ _ _ | .mbRelease _ _ | .releaseEffect _ _ _ | .reservationRelease _ _ _ | .versionPin _ _
  | .pinGrant _ _ _ | .pinTimeout _ _ _ | .versionUnpin _ _ | .graceExpiry _ _ _ | .holdTimeout _ _ _
  | .holdRenewal _ _ _ | .shardGather _ _ | .prefetchState _ _ _ | .prefetchTimeout _ _ _ | .updateLayer _ _
  | .updatePartRun _ _ _ | .updateTimeout _ _ _ | .fma _ _ | .mul _ _ | .add _ _ | .sub _ _ | .rcp _ _ | .sqrt _ _
  | .rsqrt _ _ | .min _ _ | .max _ _ | .clamp _ _ | .sel _ _ | .nacc _ _ | .sts _ _ | .stw _ _ | .nextpass _ _
  | .endElem _ _ | .stepVerdict _ | .verdictTimeout _ | .stepCommit _ | .stepAbort _ | .lossScaleSet _
  | .skimRecordEmit _ | .collReduce _ _ | .collGather _ _ | .collPermute _ | .permuteTimeout _ | .collBarrier _ _
  | .contextLeaseExpiry _ _ _ | .channelLeaseExpiry _ _ | .loop _ _ | .wait _ _ | .dmaSignal _ _ | .check _ _
  | .dmaEnd _ _ | .busError _ _ _ | .checkArm _ _ | .checkArmTimeout _ _ | .replicaSweep _ | .sweepTimeout _
  | .configStage _ _ | .configCommit _ | .configApply _ _ | .configCommitTimeout _ | .dieDrain _
  | .drainTimeout _ _ | .dieRepair _ _ | .dieReturn _ | .skimStart _ | .skimStop _ | .takeoverLoad _ | .query _ _
  | .logRead _ _ | .release _ _ | .broadcast _ _ _ | .waveHop _ _ _ _ _ | .edgeWordWrite _ _ _
  | .waveAccumulate _ _ _ | .spillWriteback _ _ _ | .nearBankFault _ _ _ _ _
  | .bankCopyDone _ _ _ | .farParityFailure _ _ _ | .cellRowFault _ _ _ _ | .arrayFault _ _ _ | .laneFault _ _ _
  | .seamSublinkFault _ _ _ | .dmaComplexFault _ _ | .coreFault _ _ | .switchTileFault _ _ _
  | .holdLeaseExpiry _ _ _ _ | .bankLeaseExpiry _ _ | .idleSample _ | .portDetect _ _ _ | .widthAttemptTimeout _ _
  | .roleWaitRetry _ _ | .setEndpointId _ _ | .getVersion _ | .getCapabilities _ | .negotiateAlgorithms _ _ _
  | .getDigests _ | .spdmOtherRequest _ _ | .queryDeviceIdentifiers _ | .getFirmwareParameters _
  | .transferComplete _ _ | .verifyComplete _ _ | .applyComplete _ | .activateFirmware _ _ | .coreRestartDone _ _
  | .getStatus _ | .cancelUpdateComponent _ | .cancelUpdate _ | .inputBelow30v _ | .setEventReceiver _ _
  | .symbolLock _ _ => true

end Sys2Proof
end

