-- ==== Sys2Proof/Tests/Slice0.lean ====
section
/-! SUPPORT. The package's own tests: ill-formed commands that the checks refuse, values that the spec states, and for
every statement with hypotheses a concrete state and operands that meet them, clause by clause. -/

namespace Sys2Proof.Tests

open Sys2Proof.Machine

-- Theorems one after another: many `decide +kernel` proofs at once need a thread each.
set_option Elab.async false
set_option linter.unusedVariables false

/-! ### Small states -/

/-- A parameter area or packet: fields at offsets in zeros. -/
def area (n : Nat) (fs : List (Nat × Nat × Nat)) : List Byte :=
  fs.foldl (fun b f => b.take f.1 ++ toBytes f.2.1 f.2.2 ++ b.drop (f.1 + f.2.1)) (List.replicate n 0)

/-- A module of population -M in service, its link up and its vectors unmasked. -/
def on : State := { State.reset with
  power := { State.reset.power with
    phase := .serving, pwrEn := true, modReset := false, perstReleased := true, linkUp := true, pwrGood := true,
    diesPowered := true, refclkOk := true, step := 11, ready := true }
  pkg := { State.reset.pkg with known := true, suffix := 0 }
  host := { State.reset.host with vectorMask := 0 }
  coll := { State.reset.coll with tiles := [(0, { inService := true }), (1, { inService := true })] } }

/-- The oldest unstarted command of a ring. -/
def cmdOf (r op : Nat) (fs : List (Nat × Nat × Nat)) : Cmd :=
  { ring := r, seq := 7, opcode := op, params := area 128 fs, oldestSince := some 0, fetchOrder := 3 }

/-- A command joins its ring. -/
def put (s : State) (c : Cmd) : State := s.modRing c.ring (fun x => { x with cmds := x.cmds ++ [c] })

/-- A command that has started and waits. -/
def waits (w : Work) (c : Cmd) : Cmd := { c with start := some 0, work := w }

/-- The command that starts on a ring has `p`. -/
def hits (s : State) (r op : Nat) (p : Cmd → State → Bool) : Bool :=
  match s.take r op with
  | some (c, u) => p c u
  | none => false

/-- A state meets a condition. -/
def meets (s : State) (p : State → Prop) [DecidablePred p] : Bool := decide (p s)

/-- Bytes `sel` of a parameter area of `n` bytes are zero. -/
def zeros (c : Cmd) (n : Nat) (sel : Nat → Bool) : Bool := ((List.range n).filter sel).all (fun i => c.param i 1 == 0)

/-- The command that starts on a ring at once meets a condition. -/
def begins (s : State) (r op : Nat) (p : Cmd → State → Prop) [∀ c u, Decidable (p c u)] : Bool :=
  hits (s.advance 0) r op (fun c u => decide (p c u))

/-- What `hits` answers is a start as the statements have it. -/
theorem starts_of_hits {s : State} {dt r op : Nat} {p : Cmd → State → Bool}
    (h : hits (s.advance dt) r op p = true) : ∃ c u, Starts s dt r op c u ∧ p c u = true := by
  unfold hits at h
  split at h
  · next c u he => exact ⟨c, u, he, h⟩
  · cases h

/-- Port `p` is ACTIVE with a role. -/
def port (s : State) (p role : Nat) : State :=
  { s.modPort p (fun x => { x with train := { x.train with state := .active, agreed := 0xFF } }) with
    conf := { s.conf with ports := tabSet s.conf.ports p { role := role, peerModule := 9, peerPort := 1 } } }

/-- Item of a stage context. -/
def item (s : State) (k : Nat) (x : CtxItem) : State := { s with conf := { s.conf with ctxs := tabSet s.conf.ctxs k x } }


/-- Context 0 on every die, nothing before it and nothing after. -/
def staged : State := item on 0 { dieMask := 0xFFF }

/-- TILE_MM of one vector of 64 elements, BF16, on array 0 of die 0. -/
def mm : Cmd := cmdOf 1 0x10 [(3, 1, 0x11), (8, 2, 1), (0x0C, 4, 64), (0x40, 8, 0x20000)]

/-- It holds both ports of its array. -/
def mmRuns : State :=
  (put staged (waits (.array (newJob (arrParams mm))) mm)).modArray 0 0 (fun x => { x with
    edgeQ := [mm.ref], bcastQ := [mm.ref] })

/-- Its weights stand in every cell of its array. -/
def mmWeights : State :=
  mmRuns.modArray 0 0 (fun x => { x with cells := (List.range 4096).map (fun k =>
    (k, { cur := { active := true, valid := true, owner := some mm.ref } })) })

theorem tabGet_range {α : Type} (d v : α) (k : Nat) : ∀ n b : Nat, b ≤ k → k < b + n →
    tabGet d ((List.range' b n).map (fun i => (i, v))) k = v := by
  intro n
  induction n with
  | zero => intro b h1 h2; omega
  | succ n ih =>
    intro b h1 h2
    simp only [List.range'_succ, List.map_cons, tabGet]
    split
    · rfl
    · exact ih (b + 1) (by omega) (by omega)

theorem unit_unarmed {s : State} (h : s.dma.units = []) : ∀ n, (s.unit n).armed = false := by
  intro n
  simp [State.unit, h, tabGet]

/-- Layer 4 with one version, BF16, and the far slots that an update uses. -/
def layered : State := staged.modLayer 4 (fun l => { l with
  defined := true, workBytes := 256, workStride := 256, workAddr := 0x2000000000000000, newest := 3,
  slots := [(0, { serial := 3, state := .current })] })

/-- UPDATE_LAYER of 32 elements as one part, its program at 0x1000 of die 0's near tier. -/
def upd : Cmd := cmdOf 1 0x40 [(2, 2, 4), (6, 2, 1), (0x0C, 4, 32), (0x10, 8, 0x1000), (0x1C, 4, 0x100),
  (0x20, 8, 0x2000000000010000), (0x28, 8, 0x2000000000020000), (0x3C, 4, 5)]

/-- A program that stores its state word and its working copy: STS, STW, END, one state word, scalar. -/
def programmed : State := layered.write ((layered.resolve [0, 1] (some 0) 0x1000 128).getD 0)
  (area 128 [(0, 1, 3), (2, 1, 1), (64, 4, 0x34000000), (68, 4, 0x38000000)])

/-- The engine of die 0 with one instruction to run on two register values. -/
def engine (w : W32) : Engine := {
  cmd := upd.ref, prog := [w], block := false, nstate := 1, consts := [], layer := 4,
  part := 0, slotIndex := 1, serial := 4, regs := [(1, [0x40000000]), (2, [0x40400000]), (3, [0x3F800000])] }

/-- It runs UPDATE_LAYER's part. -/
def running (w : W32) : State := (put layered (waits .running upd)).setEngine 0 (some (engine w))

/-- Where no die, far stack or seam link has any entry, no access waits or stops. -/
theorem anyStops_quiet {s : State} (hd : s.dies = []) (hf : s.farStacks = []) (hs : s.seamTrain = [])
    (b : Nat) (rs : List (Nat × Nat)) : s.anyStops b rs = false := by
  have h1 : ∀ k, s.keyRepaired k = false := by
    intro k; unfold State.keyRepaired; split
    · simp [State.die, hd, tabGet]
    · rfl
  have h2 : ∀ k, s.keyHeld k = false := by
    intro k; simp [State.keyHeld, State.keyRetrains, State.keyPaused, State.stack, State.die, hd, hf, tabGet]
  have h3 : ∀ k, (s.crosses b k).any LState.trains = false ∧ (s.crosses b k == some .down) = false := by
    intro k; unfold State.crosses; split
    · exact ⟨rfl, rfl⟩
    · simp only [State.seamBetween]
      split
      · exact ⟨rfl, rfl⟩
      · simp only [hs, tabGet]; exact ⟨rfl, rfl⟩
  simp [State.anyStops, State.rangeStops, State.rangeWaits, State.rangeCut, h1, h2, h3]

/-- No part of UPDATE_LAYER is held in the state of the witnesses (UpdatesStartAndWait, sixth clause). -/
theorem witness_UpdatesStartAndWait_held (n : Nat) :
    ((put programmed { waits (.waiting .update) upd with deadline := some 5 }).advance 0).partHeld (updP upd) n = false :=
  anyStops_quiet rfl rfl rfl _ _

/-- What `begins` answers is a start as the statements have it. -/
theorem starts_of_begins {s : State} {r op : Nat} {p : Cmd → State → Prop}
    [∀ c u, Decidable (p c u)] (h : begins s r op p = true) : ∃ c u, Starts s 0 r op c u ∧ p c u := by
  obtain ⟨c, u, hs, hp⟩ := starts_of_hits (dt := 0) h
  exact ⟨c, u, hs, of_decide_eq_true hp⟩

theorem mmWeights_cell (row col : Nat) (hr : row < 64) (hc : col < 64) :
    (mmWeights.array 0 0).cell row col = { cur := { active := true, valid := true, owner := some mm.ref } } := by
  have h : (mmWeights.array 0 0).cells = (List.range' 0 4096).map (fun k =>
      (k, ({ cur := { active := true, valid := true, owner := some mm.ref } } : Cell))) := by
    rw [← List.range_eq_range']
    simp only [mmWeights, State.array, State.modArray, tabGet_tabSet_same]
  rw [ArrayState.cell, h]
  exact tabGet_range _ _ _ 4096 0 (by omega) (by unfold cellKey; omega)

/-- The weights of a broadcast stand in every cell, and every cell has room (ArrayEvents, third clause). -/
theorem witness_ArrayEvents_weights :
    (mmWeights.array 0 0).hasWeights ((newJob (arrParams mm)).tagOf 0 0) mm.ref = true ∧
    (mmWeights.array 0 0).hasRoom = true := by
  have ht : (newJob (arrParams mm)).tagOf 0 0 = false := by decide +kernel
  rw [ht]
  constructor
  · simp only [ArrayState.hasWeights, List.all_eq_true]
    rintro ⟨row, col⟩ h
    simp only [allCells, List.mem_flatMap, List.mem_map, List.mem_range, Prod.mk.injEq] at h
    obtain ⟨r, hr, k, hk, rfl, rfl⟩ := h
    rw [mmWeights_cell _ _ hr hk]
    simp [Cell.weightsFor]
  · simp only [ArrayState.hasRoom, List.all_eq_true]
    rintro ⟨row, col⟩ h
    simp only [allCells, List.mem_flatMap, List.mem_map, List.mem_range, Prod.mk.injEq] at h
    obtain ⟨r, hr, k, hk, rfl, rfl⟩ := h
    rw [mmWeights_cell _ _ hr hk]
    decide
/-! ### Commands that no sender can send (WellFormed)

One term beyond each check, each refused, and one at the edge of the widest ones, accepted. -/

/-- The frames whose fields pass their widths. -/
def wideFrames : List Instr := [
  .dataFrame 0 0 { dstCtx := 16 } { payload := [0] },
  .dataFrame 0 0 { srcCtx := 16 } { payload := [0] },
  .dataFrame 0 0 { sendTide := 2 ^ 64 } { payload := [0] },
  .dataFrame 0 0 {} { entry := 64, payload := [0] },
  .dataFrame 0 0 {} { payload := [] },
  .dataFrame 0 0 {} { payload := [0], offset := 2 ^ 64 },
  .dataFrame 0 0 {} { payload := [0], totalBytes := 2 ^ 32 },
  .creditFrame 0 0 {} { ckptUnits := 2 ^ 32 },
  .timeFrameReceive 0 0 {} { hops := 256 },
  .timeFrameReceive 0 0 {} { errorEst := 256 },
  .timeFrameReceive 0 0 {} { echoSend := 2 ^ 64 },
  .timeFrameReceive 0 0 {} { echoRx := 2 ^ 64 },
  .reduceFrame 0 0 {} { kind := 3 },
  .reduceFrame 0 0 {} { kind := 0, nblocks := 0 },
  .reduceFrame 0 0 {} { kind := 2, nblocks := 1, payload := List.replicate 32 0, flags := [0] },
  .reduceFrame 0 0 {} { nblocks := 1, payload := List.replicate 31 0, flags := [0] },
  .reduceFrame 0 0 {} { nblocks := 1, payload := List.replicate 32 0, flags := [] },
  .reduceFrame 0 0 {} { nblocks := 1, payload := List.replicate 32 0, flags := [0], contrib := 2 ^ 16 },
  .reduceFrame 0 0 {} { nblocks := 1, payload := List.replicate 32 0, flags := [0], firstBlock := 2 ^ 32 },
  .gatherFrame 0 0 {} { kind := 5 },
  .gatherFrame 0 0 {} { status := 256 },
  .gatherFrame 0 0 {} { plane := 2 },
  .gatherFrame 0 0 {} { rank := 2 ^ 16 },
  .gatherFrame 0 0 {} { dstRank := 2 ^ 16 },
  .gatherFrame 0 0 {} { layer := 2 ^ 16 },
  .gatherFrame 0 0 {} { shard := 2 ^ 16 },
  .gatherFrame 0 0 {} { offset := 2 ^ 64 },
  .gatherFrame 0 0 {} { total := 2 ^ 32 },
  .permuteFrame 0 0 {} { kind := 2 },
  .permuteFrame 0 0 {} { plane := 2 },
  .permuteFrame 0 0 {} { seg := 2 ^ 16 },
  .permuteFrame 0 0 {} { fromRank := 2 ^ 16 },
  .permuteFrame 0 0 {} { total := 2 ^ 64 },
  .verdictFrame 0 0 {} { contrib := 2 ^ 16 },
  .shardFrame 0 0 {} { kind := 4 },
  .shardFrame 0 0 {} { layer := 2 ^ 16 },
  .shardFrame 0 0 {} { dstRank := 2 ^ 16 },
  .shardFrame 0 0 {} { reqId := 2 ^ 32 },
  .barrierFrame 0 0 {} { kind := 3 },
  .barrierFrame 0 0 {} { status := 256 },
  .barrierFrame 0 0 {} { latest := 2 ^ 64 },
  .checkpointFrame 0 0 {} { payload := [] },
  .checkpointFrame 0 0 {} { payload := [0], offset := 2 ^ 64 },
  .seqFrame 0 0 {} { kind := 2 },
  .seqFrame 0 0 {} { total := 2 ^ 32 } ]

theorem test_wf_refuses_wide_frames : wideFrames.all (fun i => !i.wf) = true := by decide +kernel

/-- Words of a link's training and codewords that pass their widths. -/
def wideWords : List Instr := [
  .trainingBlockReceive 0 (.port 0) (List.replicate 31 0) 0,
  .codewordReceive 0 (.port 0) { errors := [544] },
  .codewordReceive 0 (.port 0) { errors := [8, 8] },
  .codewordReceive 0 (.port 0) { crcFirst := some 512 },
  .codewordReceive 0 (.port 0) { reserved := 11 },
  .calibrationDone 0 (.port 0) (List.replicate 10 0),
  .farChannelFault 0 0 0 (List.replicate 193 0) [] [],
  .patrolScrub 0 0 65 false,
  .recoveryDone 0 10 ⟨0, []⟩ ]

theorem test_wf_refuses_wide_words : wideWords.all (fun i => !i.wf) = true := by decide +kernel

/-- What the pins, the host and the board cannot say. -/
def wideHost : List Instr := [
  .startUp 0 { seams := [{}, {}, {}, {}] },
  .startUp 0 { reports := [{ source := 2 ^ 16 }] },
  .inputFault 0 (2 ^ 16) 0,
  .tideSyncInEdge 0 10,
  .temperatureThreshold 0 (.compute 0) 256,
  .temperatureThreshold 0 (.other 4096) 0,
  .powerBudgetExchange 0 (2 ^ 16) (List.replicate 12 0) (List.replicate 12 0),
  .powerBudgetExchange 0 0 (List.replicate 11 0) (List.replicate 12 0),
  .powerBudgetExchange 0 0 (List.replicate 12 0) (List.replicate 13 0),
  .barAccess 0 false 0 0 0,
  .barAccess 0 false (2 ^ 26) 8 0,
  .registerWrite 0 0 0 0,
  .registerWrite 0 (2 ^ 26) 8 0,
  .packetFetch 0 0 [(0, List.replicate 63 0)],
  .permuteWorkSend 0 (2 ^ 16) ]

theorem test_wf_refuses_wide_host : wideHost.all (fun i => !i.wf) = true := by decide +kernel

theorem test_wf_refuses_long_host_data :
    (Instr.dmaStart 0 0 (List.replicate (32 * 1024 + 1) 0)).wf = false ∧
    (Instr.move 0 0 (List.replicate 4097 0)).wf = false := by decide +kernel

/-- What the management transport cannot say. -/
def wideMgmt : List Instr := [
  .setdasa 0 128 0, .setdasa 0 0 128, .entdaa 0 128,
  .getCertificate 0 256 0 0, .getCertificate 0 0 (2 ^ 16) 0, .getCertificate 0 0 0 (2 ^ 16),
  .challenge 0 0 (List.replicate 31 0), .challenge 0 256 (List.replicate 32 0),
  .getMeasurements 0 0 256 false (List.replicate 32 0), .getMeasurements 0 0 0 false [],
  .getSensorReading 0 (2 ^ 16), .requestUpdate 0 (2 ^ 32), .passComponentTable 0 (2 ^ 16),
  .updateComponent 0 (2 ^ 16) 0, .updateComponent 0 0 (2 ^ 32), .requestFirmwareData 0 (2 ^ 32) [],
  .oemLogRead 0 0 0 256, .oemRegisterRead 0 (2 ^ 26) 1 ]

theorem test_wf_refuses_wide_management : wideMgmt.all (fun i => !i.wf) = true := by decide +kernel

theorem test_wf_accepts_the_edges :
    [(Instr.dataFrame 0 23 { srcCtx := 15, dstCtx := 15 } { entry := 63, payload := List.replicate 16256 0 }),
      (.reduceFrame 0 0 {} { nblocks := 448, payload := List.replicate 14336 0, flags := List.replicate 112 0 }),
      (.codewordReceive 0 (.seam 2) { header := 0xFFFFF, errors := [543], crcFirst := some 511, reserved := 10 }),
      (.tideSyncInEdge 0 9), (.recoveryDone 0 9 ⟨0, []⟩), (.setdasa 0 127 127)].all (fun i => i.wf) = true := by
  decide +kernel

/-! ### Values that the spec states

The expected values are those of the spec's worked examples; each test's comment names the chapter. -/

/-- 01, the example under R26, and 10, its continuation under R208: offset 0x0123_4A00 of -B. -/
theorem test_far_tier_interleave :
    farStackOf 12 0x01234A00 = 2 ∧ farWithin 12 0x01234A00 = 0x184600 ∧ farChannelOf 0x184600 = 3 ∧
    farChannelAddr 0x184600 = 0x18400 ∧ farBankOf 12 0x01234A00 = 560 := by decide +kernel

/-- 04, the worked quantisation: 10.3, −2.6, 0.7, 2.5, −0.2, 7.0 (as FP32) and 26 zeros to MXFP4. -/
theorem test_worked_quantisation :
    encodeMx 7 (List.replicate 32 none)
      (([0x4124CCCD#32, 0xC0266666#32, 0x3F333333#32, 0x40200000#32, 0xBE4CCCCD#32, 0x40E00000#32].map ofF32) ++
        List.replicate 26 Sys2Proof.Machine.Num.zero)
      = (0x80, [7, 0xB, 1, 2, 8, 6] ++ List.replicate 26 0, 0) := by decide +kernel

/-- 04, the worked quantisation: the element plane. -/
theorem test_worked_packing :
    packElems 4 ([7, 0xB, 1, 2, 8, 6] ++ List.replicate 26 0) = [0xB7, 0x21, 0x68] ++ List.replicate 13 0 := by
  decide +kernel

/-- 04, the worked quantisation with stochastic rounding: element 0 is 0x7 below 37,683 and 0x6 from there on. -/
theorem test_worked_stochastic :
    encodeElem 7 (some 37682) (numScale (-1) (ofF32 0x4124CCCD#32)) = (7, false) ∧
    encodeElem 7 (some 37683) (numScale (-1) (ofF32 0x4124CCCD#32)) = (6, false) := by decide +kernel

/-- 04 R102: 464 in E4M3 ties to 448 without saturating, and beyond it saturates. -/
theorem test_e4m3_edge :
    encodeElem 5 none (.fin false 464 0) = (0x7E, false) ∧ encodeElem 5 none (.fin false 465 0) = (0x7E, true) := by
  decide +kernel

/-- 07, the long-K example: 1 + 2^−24 is a tie that rounds to 1, and 1 + 2^−20 is exact. -/
theorem test_long_k_additions :
    f32Add 0x3F800000#32 0x33800000#32 = 0x3F800000#32 ∧ f32Add 0x3F800000#32 0x35800000#32 = 0x3F800008#32 := by
  decide +kernel

/-- 15, the example under R332: the wire elements at scale 0x70, and a root's three-way sum with its saturation. -/
theorem test_worked_reduction :
    let b : RBlock := (((({} : RBlock).add 0x70 { codes := [0x7A, 0x55, 0] } 1).add 0x70
      { codes := [0x78, 0x42, 0] } 1).add 0x70 { codes := [0xE8, 0, 0], nonfinite := true } 1)
    b.requant 0x70 = { codes := [0x7E, 0x58, 0], nonfinite := true, sats := 1 } ∧ b.contrib = 3 := by decide +kernel

/-- 06, a worked convolution: 14 × 14 in, 3 × 3 kernel, stride 2, padding 1. Output 17 in pass (1, 0) reads (4, 5),
output 3 in pass (0, 0) is padding, and 41 vectors of the command are zero. -/
theorem test_worked_convolution :
    let q : ConvParams := {
      xAddr := 0, xScale := 0, img := 25088, row := 1792, pix := 128, cIn := 64, h := 14, w := 14, pOut := 7, qOut := 7,
      rK := 3, sK := 3, strideH := 2, strideW := 2, dilH := 1, dilW := 1, padT := 1, padL := 1, mFirst := 0, nImg := 1 }
    convPos q 576 17 (64 * 3) = some (0, 4, 5, 0) ∧ convPos q 576 3 0 = none ∧
    ((List.range 9).flatMap (fun p => (List.range 49).filter (fun m => (convPos q 576 m (64 * p)).isNone))).length = 41
    := by decide +kernel

/-- 16 R364: CRC-32C (Castagnoli), reflected; its check value over 123456789 follows from the polynomial. -/
theorem test_crc32c :
    crc32c [0x31, 0x32, 0x33, 0x34, 0x35, 0x36, 0x37, 0x38, 0x39] = 0xE3069283 := by decide +kernel

/-- 02 R50: serials compare around the wrap; equal ones and half a turn are not newer. -/
theorem test_serials_wrap :
    serialNewer (0x0002#16) (0xFFFE#16) = true ∧ serialNewer (0xFFFE#16) (0x0002#16) = false ∧
    serialNewer (5#16) (5#16) = false := by decide +kernel

/-- 03, the worked example: reading offset 0x0106_0380 reads slot 7 of ring 3, pending with SEQ 40 and READ_COUNT 1. -/
theorem test_worked_slot_read :
    let s := on.setSlot 3 7 { seq := 40, opcode := 0x60, startTide := 500 }
    (match Sys2Proof.Machine.exec (.barAccess 2000 false 0x01060380 4 0) s with
      | .next t => (t.slot 3 7).map (fun x => (x.seq, x.readCount, x.ready))
      | _ => none) = some (40, 1, false) := by decide +kernel

/-- 11, the worked stash: 50,688 bytes in each of 24 layers take 19 units; the third reservation stands at unit 38. -/
theorem test_worked_reservations :
    footprintUnits (24 * 50688) = 19 ∧ footprintUnits 405504 = 7 ∧
    (let c : Ctx := {
        poolBase := 0x4000, poolSize := 64,
        mbs := [(0, { state := .forward, baseUnits := 0x4000, sizeUnits := 19 }),
                (1, { state := .forward, baseUnits := 0x4013, sizeUnits := 19 })] }
     c.firstFit 19 = some 0x4026 ∧ c.firstFit 27 = none) := by decide +kernel

/-- 14, the width-agreement example: masks 0xF7 and 0xFF with both spares free steer position 3, and AGREED is 0xFF;
without a spare the width drops to the four lowest lanes. -/
theorem test_worked_width_agreement :
    steer 0xF7 0xFF true = (0xFF, some 3) ∧ agreedOf false false 0xFF = 0xFF ∧ agreedOf false false 0xF7 = 0x17 := by
  decide +kernel

/-- 09, a worked layer: the output arrays of commands 500 (N128 on array 0) and 620 (Q128 on array 12). -/
theorem test_worked_layer_shapes :
    outArrays 12 4 = [13, 15] ∧ outArrays 0 3 = [0, 1] ∧ gangSize 4 = 4 ∧ chainLen 4 = 2 := by decide +kernel

/-! ### States that meet the hypotheses of the statements -/

theorem witness_StepRunsTheFrontCommand :
    [meets ({ on with pending := [.nop 0 1, .nop 5 2] }) (fun s => s.pending = [.nop 0 1, .nop 5 2]),
      meets on (fun s => s.pending = [])].all id = true :=
  by decide +kernel

theorem witness_EveryStepKeepsInv :
    meets ({ on with pending := [.patrolScrub 0 0x4000000000000010 2 false], mem := [(3, 1)], poison := [8] })
      (fun s => Memory.wf s.mem = true ∧ rising s.poison = true ∧
      (match step s with | .next _ => true | _ => false) = true) = true :=
  by decide +kernel

theorem witness_MemoryReadsBack :
    [meets ({ on with mem := [(0x2000000000000011, 9)], poison := [0x2000000000000000] })
      (fun s => Memory.wf s.mem = true ∧ rising s.poison = true ∧
      (List.range 4).all (fun i => s.farFailed (0x2000000000000010 + i) == false)),
      meets ({ on with farStacks := [(0, { channels := [(0, { state := 2 })] })] })
      (fun s => (List.range 2).all (fun i => s.farFailed (0x2000000000000000 + i))),
      meets ({ on with poison := [0x4000000000000008] })
      (fun s => s.unitPoisoned ((0x4000000000000000 + 12) / 8 * 8) = true ∧ 12 < 20 ∧
      poisonUnit 0x4000000000000000 = 8 ∧
      (List.range 20).all (fun j => poisonUnit (0x4000000000000100 + j) == poisonUnit 0x4000000000000100))].all id = true :=
  by decide +kernel

theorem witness_StartingTakesTheFront :
    begins (put { on with tide := 50, host := { on.host with signals := 4 } }
      { cmdOf 1 1 [] with launch := 50, waitMask := 4, waitConsume := true }) 1 0x01 (fun c u => c.opcode = 1) = true :=
  by decide +kernel

theorem witness_CompletionLeavesItsResult :
    [meets ({ put { on with tide := 9 } ({ cmdOf 1 1 [] with slot := some 4, start := some 2 }) with host := { (put { on with tide := 9 } ({ cmdOf 1 1 [] with slot := some 4, start := some 2 })).host with slots := [(slotKey 1 4, { seq := 7, opcode := 1 })] } }) (fun s => ({ cmdOf 1 1 [] with slot := some 4, start := some 2 }).silent = false ∧
      s.slot 1 4 = some { seq := 7, opcode := 1 } ∧
      ({ cmdOf 1 1 [] with slot := some 4, start := some 2 }).slot = some 4),
      meets ({ put { on with tide := 9 } ({ cmdOf 1 1 [] with slot := some 4, start := some 2 }) with host := { (put { on with tide := 9 } ({ cmdOf 1 1 [] with slot := some 4, start := some 2 })).host with slots := [(slotKey 1 4, { seq := 7, opcode := 1, marked := true })] } }) (fun s => ({ cmdOf 1 1 [] with slot := some 4, start := some 2 }).silent = false ∧
      s.slot 1 4 = some { seq := 7, opcode := 1, marked := true } ∧
      ({ cmdOf 1 1 [] with slot := some 4, start := some 2 }).slot = some 4 ∧ slotKey 1 5 ≠ slotKey 1 4)].all id = true :=
  by decide +kernel

theorem witness_CompletionWritesBack :
    [meets (({ put { on with tide := 9 } ({ cmdOf 1 1 [] with slot := some 4, start := some 2 }) with host := { (put { on with tide := 9 } ({ cmdOf 1 1 [] with slot := some 4, start := some 2 })).host with slots := [(slotKey 1 4, { seq := 7, opcode := 1 })] } }).modRing 1 (fun x => { x with wbEn := true, wbAddr := 0x40 })) (fun s => Memory.wf s.mem = true ∧
      rising s.poison = true ∧ ({ cmdOf 1 1 [] with slot := some 4, start := some 2 }).silent = false ∧
      (s.ring ({ cmdOf 1 1 [] with slot := some 4, start := some 2 }).ring).wbEn = true),
      meets ({ put { on with tide := 9 } ({ cmdOf 1 1 [] with slot := some 4, start := some 2 }) with host := { (put { on with tide := 9 } ({ cmdOf 1 1 [] with slot := some 4, start := some 2 })).host with slots := [(slotKey 1 4, { seq := 7, opcode := 1 })] } }) (fun s => (s.ring ({ cmdOf 1 1 [] with slot := some 4, start := some 2 }).ring).wbEn = false ∧
      0 ≠ ({ cmdOf 1 1 [] with slot := some 4, start := some 2 }).ring),
      decide (({ ({ cmdOf 1 1 [] with slot := some 4, start := some 2 }) with silent := true } : Cmd).silent = true)].all id = true :=
  by decide +kernel

theorem witness_SignalsSetAndClear :
    decide (({ ({ cmdOf 1 1 [] with slot := some 4, start := some 2 }) with doneSignal := some 63 } : Cmd).silent = false ∧
      63 < 64) = true :=
  by decide +kernel

theorem witness_LogRecordsAreWrittenAndRead :
    [meets on (fun s => s.log.records.length < 8192 ∧
      ((findRate s.log.rates 16 0x20).recent.filter (fun t => decide (s.tide < t + 1000000))).length < 64),
      meets ({ on with log := { on.log with rates := [{ source := 16, code := 0x20, recent := List.replicate 64 0 }] } }) (fun s => s.log.records.length < 8192 ∧
      64 ≤ ((findRate s.log.rates 16 0x20).recent.filter (fun t => decide (s.tide < t + 1000000))).length),
      meets ({ on with log := { on.log with written := 9000, records := List.replicate 8192 { tide := 1, source := 1, code := 1, severity := 0, flags := 0, seq := 0, arg0 := 0, arg1 := 0, arg2 := 0 } } }) (fun s => s.log.records.length ≤ 8192 ∧
      (s.log.pick 900 3 0).1 = [900, 901, 902] ∧ s.log.find 903 ≠ none),
      begins (put ((on.logRec 16 0x20 2 7 8 9).logRec 17 0x21 1 0 0 0)
      (cmdOf 1 0xF1 [(0, 8, 0), (8, 2, 2), (0x10, 8, 0x2000000000000000)])) 1 0xF1 (fun c u => 1 ≤ c.param 8 2 ∧
      c.param 8 2 ≤ 8192 ∧ u.resolve logSpaces none (c.param 0x10 8) (32 * c.param 8 2) = some 0x2000000000000000 ∧
      u.ownStops 0x2000000000000000 (32 * c.param 8 2) = false ∧ u.keyServed 0x2000000000000000 = true ∧
      zeros c 64 (fun i => (11 ≤ i ∧ i < 16) ∨ 24 ≤ i)),
      meets ({ ((on.logRec 16 0x20 2 7 8 9).logRec 17 0x21 1 0 0 0) with mgmt := { on.mgmt with dynAddr := some 9 } })
      (fun s => s.power.phase ≠ .off ∧ s.mgmt.dynAddr.isSome = true ∧ 1 ≤ 32 ∧
      (([0], 2) : List Nat × Nat) = s.log.pick 0 32 2)].all id = true :=
  by decide +kernel

theorem witness_ResetAndPowerOffLoseEverything :
    decide (100000 ≤ ({ dt := 3, heldNs := 100000 } : PinLevel).heldNs) = true :=
  by decide +kernel

theorem witness_FaultsOfTheInputStopTheDies :
    [meets on (fun s => s.power.phase ≠ .off ∧ ((37999 < 38000 ∧ 100 < 101) ∨ (50000 < 37999 ∧ 10 < 101))),
      meets on (fun s => s.power.phase ≠ .off ∧ ((50001 < 38000 ∧ 100 < 11) ∨ (50000 < 50001 ∧ 10 < 11))),
      meets on (fun s => s.power.diesPowered = true ∧ 120 ≤ 120)].all id = true :=
  by decide +kernel

theorem witness_TemperaturesAreHeldAndActedOn :
    [meets ({ on with power := { on.power with thermPaused := 8 } }) (fun s => s.power.diesPowered = true ∧ 105 < 120),
      meets ({ on with power := { on.power with thermPaused := 8 } }) (fun s => s.power.diesPowered = true ∧ 103 < 120),
      meets on (fun s => s.power.diesPowered = true ∧ 86 < 120)].all id = true :=
  by decide +kernel

theorem witness_PowerBudgets :
    [meets ({ on with power := { on.power with popMax := 4000 } }) (fun s => s.power.diesPowered = true),
      meets ({ staged with tide := 4, conf := { staged.conf with idleAfterUs := 5, idleMv := 700 } })
      (fun s => s.power.ready = true ∧ s.conf.idleAfterUs ≠ 0 ∧ s.dieIdle 2 = true ∧ (s.die 2).idleSince = none),
      meets ({ staged with tide := 5004, conf := { staged.conf with idleAfterUs := 5, idleMv := 700 }, dies := [(2, { coreMv := 780, idleSince := some 4 })] }) (fun s => s.power.ready = true ∧
      s.conf.idleAfterUs ≠ 0 ∧ s.dieIdle 2 = true ∧ (s.die 2).idleSince = some 4 ∧
      4 + 1000 * s.conf.idleAfterUs ≤ (s.advance 0).tide),
      meets (put { staged with conf := { staged.conf with idleAfterUs := 5, idleMv := 700 }, dies := [(2, { coreMv := 700, idleSince := some 4, idleFrom := some 790 })] } (waits .running mm)) (fun s => s.power.ready = true ∧
      s.conf.idleAfterUs ≠ 0 ∧ s.dieIdle 2 = false)].all id = true :=
  by decide +kernel

theorem witness_HostResets :
    [meets on (fun s => s.power.ready = true ∧ s.power.phase = .serving ∧ s.power.refclkOk = true ∧ s.power.step ≠ 9),
      meets ({ on with power := { on.power with step := 9, ready := false } }) (fun s => s.power.phase = .serving ∧
      s.power.step = 9 ∧ s.power.refclkOk = true),
      meets (put { on with host := { on.host with signals := 7, slots := [(1, {})] } }
      { cmdOf 1 1 [] with slot := some 4, start := some 2 }) (fun s => s.power.ready = true)].all id = true :=
  by decide +kernel

theorem witness_TidePins :
    [meets on (fun s => s.power.phase = .serving ∧ ({ dt := 0, heldNs := 999 } : PinLevel).heldNs < 1000),
      meets on (fun s => s.power.phase = .serving ∧ s.power.refclkOk = true),
      meets ({ on with time := { on.time with aligned := true } }) (fun s => s.power.phase = .serving ∧
      s.power.refclkOk = true ∧ s.conf.isReference = false),
      meets ({ on with power := { on.power with refclkOk := false } }) (fun s => s.power.phase = .serving ∧
      s.power.refclkOk = false ∧ s.power.step ≠ 9),
      meets ({ on with power := { on.power with refclkOk := false, step := 9, ready := false, linkUp := false } })
      (fun s => s.power.phase = .serving ∧ s.power.refclkOk = false ∧ s.power.step = 9 ∧ s.power.perstReleased = true),
      meets ({ on with tide := 3000000, conf := { on.conf with syncOutEn := true } }) (fun s => s.power.phase = .serving ∧
      s.conf.syncOutEn = true ∧ (s.advance 0).tide % 1000000 = 0 ∧ s.power.syncOutUntil ≠ (s.advance 0).tide + 1000),
      meets ({ on with tide := 3000500 }) (fun s => s.power.phase = .serving ∧
      (syncOffset ((10 * (s.advance 0).tide + 3 : Nat) - (s.conf.syncInDelay : Int))).natAbs ≤ 10000 ∧
      s.conf.sourceSelect ≠ 2 ∧ s.conf.isReference = false ∧ s.power.ready = true)].all id = true :=
  by decide +kernel

theorem witness_StartUpServesOrStops :
    [meets (State.reset) (fun s => s.power.phase = .off ∧ 100000 ≤ ({ pwrEn := false } : StartInput).heldNs ∧
      ({ pwrEn := false } : StartInput).pwrEn = false),
      meets ({ on with tide := 2000000000, power := { on.power with phase := .starting, step := 8, ready := false, startTide := 0 } }) (fun s => s.power.phase = .starting ∧
      s.power.step = 8 ∧ s.power.startTide + 2000000000 ≤ (s.advance 0).tide),
      meets (State.reset) (fun s => s.power.phase = .off ∧ 100000 ≤ ({ flashOk := false } : StartInput).heldNs ∧
      ({ flashOk := false } : StartInput).pwrEn = true ∧ ({ flashOk := false } : StartInput).modReset = false),
      meets ({ on with tide := 2000000000, power := { on.power with step := 10, ready := false } })
      (fun s => s.power.phase = .serving ∧ s.power.step = 10 ∧
      s.power.startTide + (if s.conf.isReference then 300000 else 2000000000) ≤ (s.advance 0).tide)].all id = true :=
  by decide +kernel

theorem witness_WrongAccessesDoNothing :
    [meets on (fun s => s.power.linkUp = true ∧ ¬((8 = 4 ∨ 8 = 8) ∧ 4100 % 8 = 0)),
      meets on (fun s => s.power.linkUp = true ∧ ¬((1 = 4 ∨ 1 = 8) ∧ 4096 % 1 = 0)),
      meets on (fun s => s.power.linkUp = true ∧ ¬((4 = 4 ∨ 4 = 8) ∧ 4098 % 4 = 0))].all id = true :=
  by decide +kernel

theorem witness_ReadsAnswerTheRegister :
    [meets ({ on with skim := { on.skim with rd := 4 } }) (fun s => s.power.linkUp = true ∧ 0 % 8 = 0 ∧
      (s.advance 0).accessHeld false 0 = false ∧ (s.advance 0).latchFor 0 = s.advance 0),
      meets ({ on with skim := { on.skim with rd := 4 } }) (fun s => s.power.linkUp = true ∧ 4096 % 8 = 0 ∧
      (s.advance 0).accessHeld false 4096 = false ∧ (s.advance 0).latchFor 4096 = s.advance 0),
      meets ({ on with tide := 0x500000001, commit := { on.commit with lastCommitTide := 77 } })
      (fun s => s.power.linkUp = true ∧ (s.advance 0).closeDue = false ∧ (s.advance 0).applyDue = false),
      meets (on.setSlot 16 1023 { seq := 7, opcode := 1, ready := true, readCount := 65535 })
      (fun s => s.power.linkUp = true ∧ (s.advance 0).ringPaused 16 = false ∧
      s.slot 16 1023 = some { seq := 7, opcode := 1, ready := true, readCount := 65535 })].all id = true :=
  by decide +kernel

theorem witness_PendingAndFreeSlots :
    [decide (({ seq := 7, opcode := 0x33, marked := true } : Slot).ready = false),
      meets on (fun s => s.power.linkUp = true ∧ (s.advance 0).ringPaused 2 = false ∧ s.slot 2 0 = none)].all id = true :=
  by decide +kernel

theorem witness_RingBaseAndSize :
    [meets on (fun s => s.power.linkUp = true ∧ (s.advance 0).ringPaused 16 = false ∧ (s.ring 16).enable = false),
      meets (on.modRing 16 (fun x => { x with enable := true, sizeLog2 := 6 })) (fun s => s.power.linkUp = true ∧
      (s.advance 0).ringPaused 16 = false ∧ (s.ring 16).enable = true),
      meets on (fun s => s.power.linkUp = true ∧ (s.advance 0).ringPaused 0 = false ∧ (s.ring 0).enable = false ∧
      (1281#32).toNat.testBit 1 = false ∧ (1281#32).toNat.testBit 0 = true ∧ ¬(6 ≤ bits 1281 8 5 ∧
      bits 1281 8 5 ≤ 16)),
      meets on (fun s => s.power.linkUp = true ∧ (s.advance 0).ringPaused 0 = false ∧ (s.ring 0).enable = false ∧
      (1537#32).toNat.testBit 1 = false ∧ (1537#32).toNat.testBit 0 = true ∧ (6 ≤ bits 1537 8 5 ∧ bits 1537 8 5 ≤ 16)),
      meets on (fun s => s.power.linkUp = true ∧ (s.advance 0).ringPaused 0 = false ∧ (s.ring 0).enable = false ∧
      (4097#32).toNat.testBit 1 = false ∧ (4097#32).toNat.testBit 0 = true ∧ (6 ≤ bits 4097 8 5 ∧ bits 4097 8 5 ≤ 16)),
      meets on (fun s => s.power.linkUp = true ∧ (s.advance 0).ringPaused 0 = false ∧ (s.ring 0).enable = false ∧
      (4353#32).toNat.testBit 1 = false ∧ (4353#32).toNat.testBit 0 = true ∧ ¬(6 ≤ bits 4353 8 5 ∧
      bits 4353 8 5 ≤ 16))].all id = true :=
  by decide +kernel

theorem witness_DoorbellsAndRingResets :
    [meets (on.modRing 16 (fun x => { x with enable := true, sizeLog2 := 6 })) (fun s => s.power.linkUp = true ∧
      (s.advance 0).ringPaused 16 = false ∧ (64#32 - (s.ring 16).head).toNat ≤ 2 ^ (s.ring 16).sizeLog2),
      meets (on.modRing 16 (fun x => { x with enable := true, sizeLog2 := 6 })) (fun s => 65#32 ≠ (s.ring 16).tail ∧
      2 ^ (s.ring 16).sizeLog2 < (65#32 - (s.ring 16).head).toNat ∧ (s.ring 16).halted = false),
      meets (put ((put (on.modRing 3
      (fun x => { x with enable := true, sizeLog2 := 6, head := 9, tail := 12, nextSeq := 5 }))
      { cmdOf 3 1 [] with start := some 0 }).setSlot 3 9 { seq := 7, opcode := 1, marked := true })
      { cmdOf 3 1 [] with slot := some 9 }) (fun s => s.power.linkUp = true ∧ (s.advance 0).ringPaused 3 = false ∧
      (2#32).toNat.testBit 1 = true ∧ s.host.held = [])].all id = true :=
  by decide +kernel

theorem witness_LayersAreDefined :
    [meets (on.modLayer 4095 (fun l => { l with workAddr := 0x2000000000000000, workBytes := 256, workStride := 256 }))
      (fun s => s.power.linkUp = true ∧ (s.layer 4095).defined = false ∧ (0x100090102#64).toNat.testBit 1 = true ∧
      (0x100090102#64).toNat.testBit 2 = false ∧
      (s.advance 0).defineOk ((s.layer 4095).withWord0 (maskedWrite (BitVec.ofNat 64 (s.layer 4095).word0) 0x100090102#64 (BitVec.allOnes 64)).toNat) = true),
      meets (on.modLayer 4095 (fun l => { l with defined := true, newest := 3, slots := [(0, { serial := 3, state := .current })] })) (fun s => s.power.linkUp = true ∧
      (s.layer 4095).defined = true ∧ (4#64).toNat.testBit 2 = true ∧ (4#64).toNat.testBit 1 = false ∧
      (s.advance 0).mayUndefine 4095 = true),
      meets (on.modLayer 4095 (fun l => { l with defined := true, newest := 3, slots := [(0, { serial := 3, state := .current, pins := 1 })] })) (fun s => s.power.linkUp = true ∧
      (s.layer 4095).defined = true ∧ (s.advance 0).mayUndefine 4095 = false)].all id = true :=
  by decide +kernel

theorem witness_SkimReadPointer :
    [meets ({ on with skim := { on.skim with rd := 4, wr := 9 } }) (fun s => s.power.linkUp = true ∧
      s.skim.rd.toNat ≤ 4 ∧ 4 ≤ s.skim.wr.toNat),
      meets ({ on with skim := { on.skim with rd := 4, wr := 9 } }) (fun s => s.power.linkUp = true ∧
      s.skim.rd.toNat ≤ 9 ∧ 9 ≤ s.skim.wr.toNat),
      meets ({ on with skim := { on.skim with rd := 4, wr := 9 } }) (fun s => s.power.linkUp = true ∧
      (3 < s.skim.rd.toNat ∨ s.skim.wr.toNat < 3)),
      meets ({ on with skim := { on.skim with rd := 4, wr := 9 } }) (fun s => s.power.linkUp = true ∧
      (10 < s.skim.rd.toNat ∨ s.skim.wr.toNat < 10)),
      begins (put on (cmdOf 0 0x80 [(8, 8, 0x2000000000000000), (16, 8, 0x100000)])) 0 0x80 (fun c u => (put on
      (cmdOf 0 0x80 [(8, 8, 0x2000000000000000), (16, 8, 0x100000)])).skim.running = false)].all id = true :=
  by decide +kernel

theorem witness_StopsClearsAndUnmasks :
    [meets ((on.logRec 16 0x20 3 7 8 9)) (fun s => s.power.linkUp = true ∧ (0x101#64).toNat.testBit 8 = true),
      meets (on.modChannel 191 (fun x => { x with state := 1, pc := 3 })) (fun s => s.power.linkUp = true ∧
      (s.channel 191).active = true ∧ (s.advance 0).channelPaused 191 = false),
      meets ({ on with host := { on.host with pba := 8, vectorMask := 8 } }) (fun s => s.host.pba.toNat.testBit 3 = true ∧
      s.host.functionMask = false ∧ s.vectorEnabled 3 = true),
      meets ((put on { cmdOf 2 0x60 [] with start := some 0, work := .waiting .channel }).modChannel 5
      (fun x => { x with state := 2, cmd := some ⟨2, 3⟩ })) (fun s => s.power.linkUp = true ∧
      (s.channel 5).active = true ∧ (s.advance 0).channelPaused 5 = false ∧ (s.channel 5).cmd = some ⟨2, 3⟩ ∧
      (s.findCmd ⟨2, 3⟩).isSome = true),
      meets ({ on.modChannel 5 (fun x => { x with state := 1 }) with log := { on.log with recoveries := [{ cls := 7, unit := 0, since := 0 }] } }) (fun s => s.power.linkUp = true ∧
      (s.channel 5).active = true ∧ (s.advance 0).channelPaused 5 = true),
      meets on (fun s => s.power.linkUp = true ∧ (s.channel 5).active = false ∧ s.host.pba.toNat.testBit 3 = false)].all id = true :=
  by decide +kernel

theorem witness_PacketsAreAccepted :
    meets ((on.modRing 16 (fun x => { x with enable := true, base := 0x7000, sizeLog2 := 6, head := 0xFFFFFFFF, tail := 1, nextSeq := 3 }))) (fun s => s.fetching 16 = true ∧
      (s.ring 16).readUnits [(0x7FC0, ((fun p : List Byte => p.take 60 ++ toBytes 4 (crc32c (p.take 60 ++ [0, 0, 0, 0] ++ p.drop 64)) ++ p.drop 64) (area 128 [(0, 1, 4), (1, 1, 4), (2, 2, 3), (4, 1, 15), (5, 1, 1), (6, 2, 1023), (32, 8, 0x55)])).take 64), (0x7000, ((fun p : List Byte => p.take 60 ++ toBytes 4 (crc32c (p.take 60 ++ [0, 0, 0, 0] ++ p.drop 64)) ++ p.drop 64) (area 128 [(0, 1, 4), (1, 1, 4), (2, 2, 3), (4, 1, 15), (5, 1, 1), (6, 2, 1023), (32, 8, 0x55)])).drop 64)] 1 = some (((fun p : List Byte => p.take 60 ++ toBytes 4 (crc32c (p.take 60 ++ [0, 0, 0, 0] ++ p.drop 64)) ++ p.drop 64) (area 128 [(0, 1, 4), (1, 1, 4), (2, 2, 3), (4, 1, 15), (5, 1, 1), (6, 2, 1023), (32, 8, 0x55)])).take 64) ∧
      fieldAt (((fun p : List Byte => p.take 60 ++ toBytes 4 (crc32c (p.take 60 ++ [0, 0, 0, 0] ++ p.drop 64)) ++ p.drop 64) (area 128 [(0, 1, 4), (1, 1, 4), (2, 2, 3), (4, 1, 15), (5, 1, 1), (6, 2, 1023), (32, 8, 0x55)])).take 64) 5 1 % 4 = 1 ∧
      2 ≤ ((s.ring 16).tail - (s.ring 16).head).toNat ∧
      (s.ring 16).readUnits [(0x7FC0, ((fun p : List Byte => p.take 60 ++ toBytes 4 (crc32c (p.take 60 ++ [0, 0, 0, 0] ++ p.drop 64)) ++ p.drop 64) (area 128 [(0, 1, 4), (1, 1, 4), (2, 2, 3), (4, 1, 15), (5, 1, 1), (6, 2, 1023), (32, 8, 0x55)])).take 64), (0x7000, ((fun p : List Byte => p.take 60 ++ toBytes 4 (crc32c (p.take 60 ++ [0, 0, 0, 0] ++ p.drop 64)) ++ p.drop 64) (area 128 [(0, 1, 4), (1, 1, 4), (2, 2, 3), (4, 1, 15), (5, 1, 1), (6, 2, 1023), (32, 8, 0x55)])).drop 64)] 2 = some ((fun p : List Byte => p.take 60 ++ toBytes 4 (crc32c (p.take 60 ++ [0, 0, 0, 0] ++ p.drop 64)) ++ p.drop 64) (area 128 [(0, 1, 4), (1, 1, 4), (2, 2, 3), (4, 1, 15), (5, 1, 1), (6, 2, 1023), (32, 8, 0x55)])) ∧
      checkMatches ((fun p : List Byte => p.take 60 ++ toBytes 4 (crc32c (p.take 60 ++ [0, 0, 0, 0] ++ p.drop 64)) ++ p.drop 64) (area 128 [(0, 1, 4), (1, 1, 4), (2, 2, 3), (4, 1, 15), (5, 1, 1), (6, 2, 1023), (32, 8, 0x55)])) = true ∧
      fieldAt ((fun p : List Byte => p.take 60 ++ toBytes 4 (crc32c (p.take 60 ++ [0, 0, 0, 0] ++ p.drop 64)) ++ p.drop 64) (area 128 [(0, 1, 4), (1, 1, 4), (2, 2, 3), (4, 1, 15), (5, 1, 1), (6, 2, 1023), (32, 8, 0x55)])) 2 2 = (s.ring 16).nextSeq.toNat ∧
      fieldAt ((fun p : List Byte => p.take 60 ++ toBytes 4 (crc32c (p.take 60 ++ [0, 0, 0, 0] ++ p.drop 64)) ++ p.drop 64) (area 128 [(0, 1, 4), (1, 1, 4), (2, 2, 3), (4, 1, 15), (5, 1, 1), (6, 2, 1023), (32, 8, 0x55)])) 6 2 ≤ 1023 ∧
      s.slot 16 (fieldAt ((fun p : List Byte => p.take 60 ++ toBytes 4 (crc32c (p.take 60 ++ [0, 0, 0, 0] ++ p.drop 64)) ++ p.drop 64) (area 128 [(0, 1, 4), (1, 1, 4), (2, 2, 3), (4, 1, 15), (5, 1, 1), (6, 2, 1023), (32, 8, 0x55)])) 6 2) = none ∧
      headerCheck 16 ((fun p : List Byte => p.take 60 ++ toBytes 4 (crc32c (p.take 60 ++ [0, 0, 0, 0] ++ p.drop 64)) ++ p.drop 64) (area 128 [(0, 1, 4), (1, 1, 4), (2, 2, 3), (4, 1, 15), (5, 1, 1), (6, 2, 1023), (32, 8, 0x55)])) = none) = true :=
  by decide +kernel

theorem witness_RingsHalt :
    [meets ((on.modRing 16 (fun x => { x with enable := true, base := 0x7000, sizeLog2 := 6, head := 0xFFFFFFFF, tail := 1, nextSeq := 3 }))) (fun s => s.fetching 16 = true ∧
      (s.ring 16).readUnits [] 1 = none ∧ s.host.functionMask = false ∧ s.host.vectorMask.toNat.testBit 17 = false),
      meets (({ on with host := { on.host with vectorMask := 0x20000 } }.modRing 16
      (fun x => { x with enable := true, base := 0x7000, sizeLog2 := 6, head := 0xFFFFFFFF, tail := 1, nextSeq := 3 }))) (fun s => s.fetching 16 = true ∧
      (s.ring 16).readUnits [] 1 = none ∧ s.host.vectorMask.toNat.testBit 17 = true),
      meets ((on.modRing 16 (fun x => { x with enable := true, base := 0x7000, sizeLog2 := 6, head := 0xFFFFFFFF, tail := 1, nextSeq := 3 }))) (fun s => s.fetching 16 = true ∧
      (s.ring 16).readUnits [(0x7FC0, area 64 [(5, 1, 3)])] 1 = some (area 64 [(5, 1, 3)]) ∧
      2 ≤ ((s.ring 16).tail - (s.ring 16).head).toNat ∧ 1 + fieldAt (area 64 [(5, 1, 3)]) 5 1 % 4 = 4),
      meets ((on.modRing 16 (fun x => { x with enable := true, base := 0x7000, sizeLog2 := 6, head := 0xFFFFFFFF, tail := 1, nextSeq := 3 }))) (fun s => s.fetching 16 = true ∧
      (s.ring 16).readUnits [(0x7FC0, area 64 [(1, 1, 4), (2, 2, 3)])] 1 = some (area 64 [(1, 1, 4), (2, 2, 3)]) ∧
      2 ≤ ((s.ring 16).tail - (s.ring 16).head).toNat ∧ 1 + fieldAt (area 64 [(1, 1, 4), (2, 2, 3)]) 5 1 % 4 = 1 ∧
      (fieldAt (area 64 [(1, 1, 4), (2, 2, 3)]) 1 1).testBit 2 = true ∧
      checkMatches (area 64 [(1, 1, 4), (2, 2, 3)]) = false),
      meets ((on.modRing 16 (fun x => { x with enable := true, base := 0x7000, sizeLog2 := 6, head := 0xFFFFFFFF, tail := 1, nextSeq := 3 }))) (fun s => s.fetching 16 = true ∧
      (s.ring 16).readUnits [(0x7FC0, area 64 [(2, 2, 2)])] 1 = some (area 64 [(2, 2, 2)]) ∧
      2 ≤ ((s.ring 16).tail - (s.ring 16).head).toNat ∧ 1 + fieldAt (area 64 [(2, 2, 2)]) 5 1 % 4 = 1 ∧
      (fieldAt (area 64 [(2, 2, 2)]) 1 1).testBit 2 = false ∧
      fieldAt (area 64 [(2, 2, 2)]) 2 2 ≠ (s.ring 16).nextSeq.toNat),
      meets ((on.modRing 16 (fun x => { x with enable := true, base := 0x7000, sizeLog2 := 6, head := 0xFFFFFFFF, tail := 1, nextSeq := 3 }))) (fun s => s.fetching 16 = true ∧
      (s.ring 16).readUnits [(0x7FC0, area 64 [(5, 1, 1)])] 1 = some (area 64 [(5, 1, 1)]) ∧
      2 ≤ ((s.ring 16).tail - (s.ring 16).head).toNat ∧ 1 + fieldAt (area 64 [(5, 1, 1)]) 5 1 % 4 = 2 ∧
      (s.ring 16).readUnits [(0x7FC0, area 64 [(5, 1, 1)])] 2 = none)].all id = true :=
  by decide +kernel

theorem witness_RingEvents :
    [meets ({ put on ({ cmdOf 2 0x32 [] with start := some 0, work := .finished .busy 9 [1] }) with tide := 5 })
      (fun s => (s.ring 2).cmds.filter (fun c => c.seq == 7 && c.start.isSome) = ({ cmdOf 2 0x32 [] with start := some 0, work := .finished .busy 9 [1] }) :: [] ∧
      (({ cmdOf 2 0x32 [] with start := some 0, work := .finished .busy 9 [1] })).opcode ≠ 0x60 ∧
      (({ cmdOf 2 0x32 [] with start := some 0, work := .finished .busy 9 [1] })).finishedAt < (s.advance 0).tide),
      meets (put on (waits (.waiting .fence) (cmdOf 2 2 [(0, 4, 0x10000)])))
      (fun s => (s.ring 2).cmds.filter (fun c => c.seq == 7 && c.start.isSome) = (waits (.waiting .fence)
      (cmdOf 2 2 [(0, 4, 0x10000)])) :: [] ∧ (s.advance 0).fenceDone (waits (.waiting .fence)
      (cmdOf 2 2 [(0, 4, 0x10000)])) = true ∧ (s.advance 0).fencePast (waits (.waiting .fence)
      (cmdOf 2 2 [(0, 4, 0x10000)])) = true),
      meets (put { on with tide := 5, host := { on.host with signals := 3 } } (waits (.waiting .signals)
      (cmdOf 2 5 [(0, 8, 3), (8, 1, 2)]))) (fun s => (s.ring 2).cmds.filter (fun c => c.seq == 7 && c.start.isSome) =
      (waits (.waiting .signals) (cmdOf 2 5 [(0, 8, 3), (8, 1, 2)])) :: [] ∧ (s.advance 0).signalsHold
      (waits (.waiting .signals) (cmdOf 2 5 [(0, 8, 3), (8, 1, 2)])) = true ∧ (s.advance 0).signalsPast
      (waits (.waiting .signals) (cmdOf 2 5 [(0, 8, 3), (8, 1, 2)])) = true),
      meets (put { on with tide := 5000 } ({ cmdOf 2 1 [] with waitMask := 1, waitTimeout := 5 }))
      (fun s => (s.ring 2).front = some ({ cmdOf 2 1 [] with waitMask := 1, waitTimeout := 5 }) ∧
      (({ cmdOf 2 1 [] with waitMask := 1, waitTimeout := 5 })).limit = some 5000 ∧ 5000 ≤ (s.advance 0).tide ∧
      (s.advance 0).inTime ({ cmdOf 2 1 [] with waitMask := 1, waitTimeout := 5 }) = false),
      meets ({ on with tide := 2000 }.modRing 16
      (fun x => { x with coalesceTime := 2, pendingInts := 3, oldestInt := 0 })) (fun s => (s.ring 16).pendingInts ≠ 0 ∧
      (s.ring 16).coalesceTime ≠ 0 ∧ (s.ring 16).oldestInt + 1000 * (s.ring 16).coalesceTime ≤ (s.advance 0).tide ∧
      s.vectorEnabled (s.ring 16).vector = true ∧ s.host.functionMask = false ∧
      s.host.vectorMask.toNat.testBit (s.ring 16).vector = false),
      meets ({ on with log := { on.log with recoveries := [{ cls := 8, unit := 0, since := 0 }] } })
      (fun s => (s.advance 0).ringPaused 0 = true),
      meets ({ put on ({ cmdOf 2 0x32 [] with start := some 0, work := .finished .busy 9 [1] }) with tide := 5 })
      (fun s => (s.advance 0).ringPaused 2 = false ∧
      (s.ring 2).cmds.filter (fun c => c.seq == 7 && c.start.isSome) = ({ cmdOf 2 0x32 [] with start := some 0, work := .finished .busy 9 [1] }) :: [])].all id = true :=
  by decide +kernel

theorem witness_SynchronisingCommands :
    [begins (put on (cmdOf 16 1 [])) 16 0x01 (fun c u => c.opcode = 1),
      begins (put { on with host := { on.host with signals := 0xF0 } } (cmdOf 1 4 [(0, 8, 0x10), (8, 8, 1)])) 1 0x04
      (fun c u => zeros c 64 (fun i => 16 ≤ i)),
      begins (put on (cmdOf 1 2 [(0, 4, 0x1FFFF)])) 1 0x02 (fun c u => c.param 0 4 < 2 ^ 17 ∧
      zeros c 64 (fun i => 4 ≤ i) ∧ u.allCmds.all (fun d => !(fenceNames c d.ring) || !(fetchedBefore d c)) ∧
      u.fencePast c = true),
      begins (put (put on { cmdOf 16 0x32 [] with start := some 0, fetchOrder := 2 })
      { cmdOf 1 2 [(0, 4, 0x10000)] with fetchTide := 1 }) 1 0x02 (fun c u => c.param 0 4 < 2 ^ 17 ∧
      zeros c 64 (fun i => 4 ≤ i) ∧ u.allCmds.any (fun d => fenceNames c d.ring && fetchedBefore d c)),
      begins (put { on with tide := 50 } (cmdOf 1 3 [(0, 8, 50)])) 1 0x03 (fun c u => zeros c 64 (fun i => 9 ≤ i) ∧
      c.param 8 1 = 0 ∧ c.param 0 8 ≤ u.tide),
      begins (put { on with tide := 49 } (cmdOf 1 3 [(0, 8, 50)])) 1 0x03 (fun c u => zeros c 64 (fun i => 9 ≤ i) ∧
      c.param 8 1 = 0 ∧ u.tide < c.param 0 8),
      begins (put { on with tide := 60 } { cmdOf 1 3 [(0, 8, 50), (8, 1, 1)] with prior := .done 10 }) 1 0x03
      (fun c u => zeros c 64 (fun i => 9 ≤ i) ∧ c.param 8 1 = 1 ∧ c.prior = .done 10 ∧ 10 + c.param 0 8 ≤ u.tide),
      begins (put { on with tide := 5, host := { on.host with signals := 3 } } (cmdOf 1 5 [(0, 8, 3)])) 1 0x05
      (fun c u => zeros c 64 (fun i => 9 ≤ i) ∧ c.param 0 8 ≠ 0 ∧ c.param 8 1 < 4 ∧ u.signalsHold c = true ∧
      u.signalsPast c = true),
      begins (put { on with tide := 5, host := { on.host with signals := 1 } } (cmdOf 1 5 [(0, 8, 3)])) 1 0x05
      (fun c u => zeros c 64 (fun i => 9 ≤ i) ∧ c.param 0 8 ≠ 0 ∧ c.param 8 1 < 4 ∧ u.signalsHold c = false),
      begins (put on (cmdOf 1 4 [(16, 1, 1)])) 1 0x04
      (fun c u => ((List.range 16).filter (fun j => decide (16 ≤ j))).all (fun j => c.param j 1 == 0) ∧
      c.param 16 1 ≠ 0),
      begins (put on (cmdOf 1 4 [(63, 1, 1)])) 1 0x04
      (fun c u => ((List.range 63).filter (fun j => decide (16 ≤ j))).all (fun j => c.param j 1 == 0) ∧
      c.param 63 1 ≠ 0),
      meets (put { on with tide := 50 } { cmdOf 1 3 [(0, 8, 50)] with start := some 3 })
      (fun s => (s.ring 1).started.find? (fun c => c.opcode == 0x03) = some
      { cmdOf 1 3 [(0, 8, 50)] with start := some 3 } ∧ (cmdOf 1 3 [(0, 8, 50)]).param 8 1 = 0 ∧
      50 ≤ (s.advance 0).tide),
      begins (put on (cmdOf 1 0xF0 [(0, 2, 1), (2, 2, 16)])) 1 0xF0 (fun c u => zeros c 64 (fun i => 4 ≤ i) ∧
      c.param 0 2 = 1 ∧ c.param 2 2 = 16),
      begins (put on (cmdOf 1 0xF0 [(0, 2, 3), (2, 2, 0)])) 1 0xF0 (fun c u => zeros c 64 (fun i => 4 ≤ i) ∧
      c.param 0 2 = 3 ∧ c.param 2 2 = 0 ∧ ((put on (cmdOf 1 0xF0 [(0, 2, 3), (2, 2, 0)])).advance 0).closeDue = false ∧
      ((put on (cmdOf 1 0xF0 [(0, 2, 3), (2, 2, 0)])).advance 0).applyDue = false),
      begins (put on (cmdOf 1 0xF0 [(0, 2, 4), (2, 2, 0)])) 1 0xF0 (fun c u => zeros c 64 (fun i => 4 ≤ i) ∧
      c.param 0 2 = 4 ∧ c.param 2 2 = 0),
      begins (put on (cmdOf 1 0xF0 [(0, 2, 5), (2, 2, 0)])) 1 0xF0 (fun c u => zeros c 64 (fun i => 4 ≤ i) ∧
      c.param 0 2 = 5 ∧ c.param 2 2 = 0),
      begins (put on (cmdOf 1 0xF0 [(0, 2, 65535), (2, 2, 0)])) 1 0xF0 (fun c u => zeros c 64 (fun i => 4 ≤ i) ∧
      c.param 0 2 = 65535 ∧ c.param 2 2 = 0),
      begins (put (on) (cmdOf 0 0xF2 [(0, 1, 16), (2, 2, 1023), (4, 2, 1)])) 0 0xF2
      (fun c u => zeros c 64 (fun i => 6 ≤ i) ∧ c.param 0 1 ≤ 16 ∧ c.param 2 2 < 1024 ∧ c.param 4 2 = 1 ∧
      c.param 1 1 = 0 ∧ c.slot ≠ some (c.param 2 2)),
      begins (put (on.setSlot 16 1023 { seq := 1, opcode := 1, ready := true })
      (cmdOf 0 0xF2 [(0, 1, 16), (2, 2, 1023), (4, 2, 1)])) 0 0xF2 (fun c u => zeros c 64 (fun i => 6 ≤ i) ∧
      c.param 0 1 ≤ 16 ∧ c.param 2 2 < 1024 ∧ c.param 4 2 = 1 ∧ c.param 1 1 = 0 ∧ c.slot ≠ some (c.param 2 2)),
      begins (put (on.setSlot 16 1023 { seq := 1, opcode := 1 })
      (cmdOf 0 0xF2 [(0, 1, 16), (2, 2, 1023), (4, 2, 1)])) 0 0xF2 (fun c u => zeros c 64 (fun i => 6 ≤ i) ∧
      c.param 0 1 ≤ 16 ∧ c.param 2 2 < 1024 ∧ c.param 4 2 = 1 ∧ c.param 1 1 = 0 ∧ c.slot ≠ some (c.param 2 2)),
      begins (put (on.setSlot 16 1023 {}) (cmdOf 1 0xF0 [(0, 2, 2), (2, 2, 0x110)])) 1 0xF0
      (fun c u => zeros c 64 (fun i => 4 ≤ i) ∧ c.param 0 2 = 2 ∧ c.param 2 2 = 16 + 256 * 1),
      begins (put ((on.setSlot 0 1023 { seq := 1, opcode := 1, ready := true }).setSlot 0 1 { seq := 2, opcode := 1 })
      { cmdOf 0 0xF2 [(0, 1, 0), (2, 2, 1022), (4, 2, 4)] with slot := some 0 }) 0 0xF2
      (fun c u => zeros c 64 (fun i => 6 ≤ i) ∧ c.param 0 1 = 0 ∧ c.param 2 2 < 1024 ∧ 1 ≤ c.param 4 2 ∧
      c.param 4 2 ≤ 1024 ∧ c.param 1 1 = 0 ∧ c.slot = some 0)].all id = true :=
  by decide +kernel

theorem witness_ArrayCommandsStart :
    [begins (put staged mm) 1 16 (fun c u => arrFail u c (arrParams c) = none ∧ u.versionCheck c = .pass ∧
      u.dieRefuses (arrParams c).die = false ∧ u.dieWaits (arrParams c).die = false),
      begins (put staged (cmdOf 1 0x10 [(1, 1, 28), (2, 1, 4), (3, 1, 0x11), (4, 1, 63), (8, 2, 64), (0x0C, 4, 128), (0x40, 8, 0x20000), (0x48, 4, 256)])) 1 16 (fun c u => arrFail u c (arrParams c) = none ∧
      u.versionCheck c = .pass ∧ u.dieRefuses (arrParams c).die = false ∧ u.dieWaits (arrParams c).die = false),
      begins (put staged (cmdOf 1 0x11 [(3, 1, 0x11), (8, 2, 1), (0x0C, 4, 64), (0x40, 8, 0x20000), (0x58, 2, 128), (0x5A, 2, 64), (0x5C, 2, 1), (0x5E, 2, 1), (0x60, 2, 1), (0x62, 2, 1), (0x64, 4, 0x01010101), (0x68, 2, 0x0101), (0x70, 2, 1)])) 1 17 (fun c u => arrFail u c (arrParams c) = none ∧
      u.versionCheck c = .pass ∧ u.dieRefuses (arrParams c).die = false ∧ u.dieWaits (arrParams c).die = false),
      begins (put staged (cmdOf 1 0x12 [(3, 1, 0x11), (5, 1, 4), (8, 2, 1), (0x0C, 4, 64), (0x40, 8, 0x20000)])) 1 18
      (fun c u => arrFail u c (arrParams c) = none ∧ u.versionCheck c = .pass ∧ u.dieRefuses (arrParams c).die = false ∧
      u.dieWaits (arrParams c).die = false),
      begins (put staged (cmdOf 1 0x13 [(3, 1, 0x11), (8, 2, 1), (0x0C, 4, 64), (0x40, 8, 0x20000)])) 1 19
      (fun c u => arrFail u c (arrParams c) = none ∧ u.versionCheck c = .pass ∧ u.dieRefuses (arrParams c).die = false ∧
      u.dieWaits (arrParams c).die = false),
      begins (put staged { mm with params := area 128 [(3, 1, 0x11), (4, 1, 64), (8, 2, 1), (0x0C, 4, 64)] }) 1 0x10
      (fun c u => arrFail u c (arrParams c) = some 4),
      begins (put (staged.modLayer 4 (fun l => { l with defined := true, newest := 3, slots := [(0, { serial := 3, state := .current })] })) (cmdOf 1 0x12 [(3, 1, 0x11), (5, 1, 4), (8, 2, 1), (0x0C, 4, 64), (0x40, 8, 0x20000), (0x52, 1, 1), (0x54, 2, 4), (0x56, 2, 9)])) 1 0x12 (fun c u => arrFail u c (arrParams c) = none ∧
      u.versionCheck c = .gone),
      begins (put { staged with dies := [(0, { outOfService := true })] } mm) 1 0x10
      (fun c u => arrFail u c (arrParams c) = none ∧ u.versionCheck c = .pass ∧ u.dieRefuses (arrParams c).die = true),
      begins (put { staged with dies := [(0, { outOfService := true, service := 3 })] } mm) 1 0x10
      (fun c u => arrFail u c (arrParams c) = none ∧ u.versionCheck c = .pass ∧ u.dieRefuses (arrParams c).die = false ∧
      u.dieWaits (arrParams c).die = true)].all id = true :=
  by decide +kernel

theorem witness_ArrayEvents :
    [meets mmRuns (fun s => (s.array 0 0).edgeQ = mm.ref :: [] ∧
      s.job mm.ref = some ((waits (.array (newJob (arrParams mm))) mm), (newJob (arrParams mm))) ∧
      s.arrayPaused 0 0 = false ∧
      ((newJob (arrParams mm))).edgePos.getD (0 - ((newJob (arrParams mm))).lead) 0 < ((newJob (arrParams mm))).passes * 64 ∧
      (s.array 0 0).rowOpen (((newJob (arrParams mm))).edgePos.getD (0 - ((newJob (arrParams mm))).lead) 0 % 64) = true),
      meets mmRuns (fun s => (s.array 0 0).edgeQ = mm.ref :: [] ∧
      s.job mm.ref = some ((waits (.array (newJob (arrParams mm))) mm), (newJob (arrParams mm))) ∧
      s.arrayPaused 0 0 = false ∧
      ((newJob (arrParams mm))).edgePos.getD (0 - ((newJob (arrParams mm))).lead) 0 < ((newJob (arrParams mm))).passes * 64 ∧
      edgeMayWait (arrParams (waits (.array (newJob (arrParams mm))) mm)) (newJob (arrParams mm)) (0 - ((newJob (arrParams mm))).lead) = true),
      meets ({ staged with power := { staged.power with thermPaused := 1 } }) (fun s => s.diePaused 0 = true),
      meets mmRuns (fun s => s.diePaused 0 = false ∧ (s.array 0 0).replay = [] ∧ (s.array 0 0).bcastQ = mm.ref :: [] ∧
      s.arrayPaused 0 0 = false ∧
      s.job mm.ref = some ((waits (.array (newJob (arrParams mm))) mm), (newJob (arrParams mm))) ∧
      ((newJob (arrParams mm))).bcastPos < ((newJob (arrParams mm))).passes * ((newJob (arrParams mm))).m ∧
      ((newJob (arrParams mm))).gang.all (fun b => (s.array 0 b).bcastQ.head? == some mm.ref && (s.array 0 b).replay.isEmpty && !s.arrayPaused 0 b && !s.castStopped 0 b) ∧
      s.castStopped 0 0 = false ∧
      ((newJob (arrParams mm))).gang.any (fun b => !(s.array 0 b).hasWeights (((newJob (arrParams mm))).tagOf (b - ((newJob (arrParams mm))).lead) (((newJob (arrParams mm))).bcastPos / ((newJob (arrParams mm))).m)) mm.ref)),
      meets mmRuns (fun s => s.diePaused 0 = false ∧ (s.array 0 0).replay = [] ∧ (s.array 0 0).bcastQ = mm.ref :: [] ∧
      s.arrayPaused 0 0 = false ∧
      s.job mm.ref = some ((waits (.array (newJob (arrParams mm))) mm), (newJob (arrParams mm))) ∧
      ((newJob (arrParams mm))).bcastPos < ((newJob (arrParams mm))).passes * ((newJob (arrParams mm))).m ∧
      ((newJob (arrParams mm))).gang.all (fun b => (s.array 0 b).bcastQ.head? == some mm.ref && (s.array 0 b).replay.isEmpty && !s.arrayPaused 0 b && !s.castStopped 0 b) ∧
      s.castStopped 0 0 = false ∧ castMayWait (waits (.array (newJob (arrParams mm))) mm) (arrParams
      (waits (.array (newJob (arrParams mm))) mm)) (((newJob (arrParams mm))).bcastPos / ((newJob (arrParams mm))).m) (((newJob (arrParams mm))).bcastPos % ((newJob (arrParams mm))).m) (List.range ((newJob (arrParams mm))).chain) = true),
      meets (mmRuns.modArray 0 0 (fun x => { x with flight := [{ cmd := mm.ref, pass := 0, vec := 0 }], bottom := (List.range 64).map (fun k => (k, { val := some numOne, last := true })) })) (fun s => (s.array 0 0).flight = { cmd := mm.ref, pass := 0, vec := 0 } :: [] ∧
      s.arrayHeld 0 0 = false ∧
      s.job mm.ref = some ((waits (.array (newJob (arrParams mm))) mm), (newJob (arrParams mm))) ∧
      ((List.range 64).filterMap (fun col => (tabFind (s.array 0 0).bottom col).filter (fun w => !w.toLower))).length = 64 ∧
      ((newJob (arrParams mm))).accPos.getD (((newJob (arrParams mm))).outs.idxOf 0) 0 ≤ 0 * ((newJob (arrParams mm))).m + 0 ∧
      s.slotBusy ((waits (.array (newJob (arrParams mm))) mm)).startOrder (waveSlots (newJob (arrParams mm)) 0 { cmd := mm.ref, pass := 0, vec := 0 }) = false ∧
      (s.array 0 0).rowPending (((newJob (arrParams mm))).slot + 0 / 64) (0 % 64) = false),
      meets (mmRuns.modArray 0 0 (fun x => { x with staging := some { cmd := mm.ref, slot := 0, addr := 0x8000, write := true, want := 1, rows := [{ row := 0, cols := 64, vals := [0x3F800000], poisoned := [] }] } })) (fun s => (s.array 0 0).staging = some { cmd := mm.ref, slot := 0, addr := 0x8000, write := true, want := 1, rows := [{ row := 0, cols := 64, vals := [0x3F800000], poisoned := [] }] } ∧
      s.job mm.ref = some ((waits (.array (newJob (arrParams mm))) mm), (newJob (arrParams mm))) ∧
      s.arrayHeld 0 0 = false ∧
      s.entryBusy ((waits (.array (newJob (arrParams mm))) mm)).startOrder [(0, 0x8000, 1)] = false ∧
      ({ cmd := mm.ref, slot := 0, addr := 0x8000, write := true, want := 1, rows := [{ row := 0, cols := 64, vals := [0x3F800000], poisoned := [] }] } : SpillJob).want ≤ ({ cmd := mm.ref, slot := 0, addr := 0x8000, write := true, want := 1, rows := [{ row := 0, cols := 64, vals := [0x3F800000], poisoned := [] }] } : SpillJob).rows.length ∧
      (({ cmd := mm.ref, slot := 0, addr := 0x8000, write := true, want := 1, rows := [{ row := 0, cols := 64, vals := [0x3F800000], poisoned := [] }] } : SpillJob).rows.flatMap SpillRow.elems).all (fun e => decide (e.1 < 4096))),
      meets mmWeights (fun s => s.diePaused 0 = false ∧ (s.array 0 0).replay = [] ∧ (s.array 0 0).bcastQ = mm.ref :: [] ∧
      s.arrayPaused 0 0 = false ∧
      s.job mm.ref = some ((waits (.array (newJob (arrParams mm))) mm), (newJob (arrParams mm))) ∧
      ((newJob (arrParams mm))).bcastPos < ((newJob (arrParams mm))).passes * ((newJob (arrParams mm))).m ∧
      ((newJob (arrParams mm))).gang.all (fun b => (s.array 0 b).bcastQ.head? == some mm.ref && (s.array 0 b).replay.isEmpty && !s.arrayPaused 0 b && !s.castStopped 0 b) ∧
      s.castStopped 0 0 = false)].all id = true :=
  by decide +kernel

theorem witness_WavesHop :
    [meets (on.modArray 0 0 (fun x => { x with cells := [(5, { prods := [{ terms := [numOne, numOne], last := true }], wave := none })] })) (fun s => ((s.array 0 0).cell 0 5).prods = { terms := [numOne, numOne], last := true } :: [] ∧
      s.waveAt 0 0 0 5 { terms := [numOne, numOne], last := true } = some { tag := false, last := true, val := none } ∧
      s.arrayHeld 0 0 = false ∧ ((s.array 0 0).cell 1 5).wave = none),
      meets (on.modArray 0 0 (fun x => { x with cells := [(4037, { prods := [{ terms := [numOne, numOne], last := true }], wave := some { tag := false, last := true, val := some numOne } })] })) (fun s => ((s.array 0 0).cell 63 5).prods = { terms := [numOne, numOne], last := true } :: [] ∧
      s.waveAt 0 0 63 5 { terms := [numOne, numOne], last := true } = some { tag := false, last := true, val := some numOne } ∧
      s.arrayHeld 0 0 = false ∧ tabFind (s.array 0 0).bottom 5 = none ∧ (s.array 0 0).refusing = false),
      meets ((on.modArray 0 1 (fun x => { x with cells := [(5, { prods := [{ terms := [numOne], last := true, chainIn := true }] })] })).modArray 0 0 (fun x => { x with bottom := [(5, { tag := false, last := true, val := some numOne, toLower := true })] })) (fun s => ((s.array 0 1).cell 0 5).prods = { terms := [numOne], last := true, chainIn := true } :: [] ∧
      (s.waveAt 0 1 0 5 { terms := [numOne], last := true, chainIn := true }).isSome = true ∧ s.arrayHeld 0 1 = false ∧
      ({ terms := [numOne], last := true, chainIn := true } : Product).chainIn = true ∧ 0 < 1 ∧
      ((s.array 0 1).cell 1 5).wave = none),
      meets (on.modArray 0 0 (fun x => { x with bottom := [(6, {}), (7, { toLower := true })], cells := [(4037, { prods := [{ terms := [numOne, numOne], last := true }], wave := some { tag := false, last := true, val := some numOne, checkFail := true } })] })) (fun s => ((s.array 0 0).cell 63 5).prods = { terms := [numOne, numOne], last := true } :: [] ∧
      s.waveAt 0 0 63 5 { terms := [numOne, numOne], last := true } = some { tag := false, last := true, val := some numOne, checkFail := true } ∧
      s.arrayHeld 0 0 = false ∧ tabFind (s.array 0 0).bottom 5 = none)].all id = true :=
  by decide +kernel

theorem witness_DrainsAndFlushes :
    [begins (put staged (cmdOf 1 0x14 [(4, 1, 1), (5, 1, 64), (0x0A, 1, 0x81), (0x20, 8, 0x1000), (0x70, 4, 64)])) 1 0x14 (fun c u => drainFail u c = none ∧
      (drainP c).usesStash = false ∧ u.dieRefuses (drainP c).die = false ∧ ((put staged
      (cmdOf 1 0x14 [(4, 1, 1), (5, 1, 64), (0x0A, 1, 0x81), (0x20, 8, 0x1000), (0x70, 4, 64)])).ring 1).cmds.all (fun d => d.start.isNone || d.seq != 7) ∧
      c.seq = 7 ∧ c.ring = 1 ∧ (u.drainBlocked c || u.dieWaits (drainP c).die || c.slots.any
      (fun x => u.arrayHeld x.1 x.2.1) || u.anyStops ((drainP c).die / 2) (u.drainRanges 0 (drainP c))) = false ∧
      u.readsPartial c = false ∧ u.pairFail (drainP c) = none ∧ (drainP c).kind ≠ 3),
      begins (put (staged.modArray 0 0 (fun x => { x with part := 1 }))
      (cmdOf 1 0x14 [(4, 1, 1), (5, 1, 64), (0x0A, 1, 0x81), (0x20, 8, 0x1000), (0x70, 4, 64)])) 1 0x14
      (fun c u => drainFail u c = none ∧ (drainP c).usesStash = false ∧ u.dieRefuses (drainP c).die = false ∧
      ((put (staged.modArray 0 0 (fun x => { x with part := 1 }))
      (cmdOf 1 0x14 [(4, 1, 1), (5, 1, 64), (0x0A, 1, 0x81), (0x20, 8, 0x1000), (0x70, 4, 64)])).ring 1).cmds.all (fun d => d.start.isNone || d.seq != 7) ∧
      c.seq = 7 ∧ c.ring = 1 ∧ (u.drainBlocked c || u.dieWaits (drainP c).die || c.slots.any
      (fun x => u.arrayHeld x.1 x.2.1) || u.anyStops ((drainP c).die / 2) (u.drainRanges 0 (drainP c))) = false ∧
      u.readsPartial c = true),
      begins (put (put { staged with host := { staged.host with nextStart := 1 } }
      { cmdOf 1 0x14 [(4, 1, 1), (5, 1, 64), (0x0A, 1, 0x81), (0x20, 8, 0x1000), (0x70, 4, 64)] with seq := 6, start := some 0, startOrder := 0, fetchOrder := 2 }) { cmdOf 1 0x14 [(4, 1, 1), (5, 1, 64), (0x0A, 1, 0x81), (0x20, 8, 0x1000), (0x70, 4, 64)] with startOrder := 1 }) 1 0x14 (fun c u => drainFail u c = none ∧
      (drainP c).usesStash = false ∧ u.dieRefuses (drainP c).die = false ∧
      ((put (put { staged with host := { staged.host with nextStart := 1 } }
      { cmdOf 1 0x14 [(4, 1, 1), (5, 1, 64), (0x0A, 1, 0x81), (0x20, 8, 0x1000), (0x70, 4, 64)] with seq := 6, start := some 0, startOrder := 0, fetchOrder := 2 }) { cmdOf 1 0x14 [(4, 1, 1), (5, 1, 64), (0x0A, 1, 0x81), (0x20, 8, 0x1000), (0x70, 4, 64)] with startOrder := 1 }).ring 1).cmds.all (fun d => d.start.isNone || d.seq != 7) ∧
      c.seq = 7 ∧ c.ring = 1 ∧ (u.drainBlocked c || u.dieWaits (drainP c).die || c.slots.any
      (fun x => u.arrayHeld x.1 x.2.1) || u.anyStops ((drainP c).die / 2) (u.drainRanges 0 (drainP c))) = true),
      begins (put { staged with dies := [(0, { outOfService := true })] }
      (cmdOf 1 0x14 [(4, 1, 1), (5, 1, 64), (0x0A, 1, 0x81), (0x20, 8, 0x1000), (0x70, 4, 64)])) 1 0x14
      (fun c u => drainFail u c = none ∧ (drainP c).usesStash = false ∧ u.dieRefuses (drainP c).die = true),
      begins (put staged (cmdOf 1 0x14 [(4, 1, 65), (5, 1, 64), (0x0A, 1, 0x81), (0x20, 8, 0x1000), (0x70, 4, 64)])) 1 0x14 (fun c u => (drainFail u c).isSome = true),
      begins (put { staged with dies := [(0, { service := 1 })] }
      (cmdOf 1 0x15 [(1, 1, 31), (2, 1, 63), (3, 1, 1), (4, 1, 1)])) 1 0x15
      (fun c u => firstFail (flushChecks u c) = none ∧ u.dieRefuses (c.param 0 1) = true),
      begins (put { staged with dies := [(0, { service := 3 })] }
      (cmdOf 1 0x15 [(1, 1, 31), (2, 1, 63), (3, 1, 1), (4, 1, 1)])) 1 0x15
      (fun c u => firstFail (flushChecks u c) = none ∧ u.dieRefuses (c.param 0 1) = false ∧
      ((put { staged with dies := [(0, { service := 3 })] }
      (cmdOf 1 0x15 [(1, 1, 31), (2, 1, 63), (3, 1, 1), (4, 1, 1)])).ring 1).cmds.all (fun d => d.start.isNone || d.seq != 7) ∧
      c.seq = 7 ∧ c.ring = 1 ∧ u.flushHeld c = true),
      begins (put (staged.modArray 0 31 (fun x => { x with part := 0x8000000000000000 }))
      (cmdOf 1 0x15 [(1, 1, 31), (2, 1, 63), (3, 1, 1), (4, 1, 1)])) 1 0x15
      (fun c u => firstFail (flushChecks u c) = none ∧ u.dieRefuses (c.param 0 1) = false ∧
      ((put (staged.modArray 0 31 (fun x => { x with part := 0x8000000000000000 }))
      (cmdOf 1 0x15 [(1, 1, 31), (2, 1, 63), (3, 1, 1), (4, 1, 1)])).ring 1).cmds.all (fun d => d.start.isNone || d.seq != 7) ∧
      c.seq = 7 ∧ c.ring = 1 ∧ u.slotBusy c.startOrder c.slots = false ∧ u.entryBusy c.startOrder c.entries = false ∧
      u.flushHeld c = false ∧ (u.array (c.param 0 1) (c.param 1 1)).part.toNat.testBit (c.param 2 1 + 0) = true),
      begins (put staged (cmdOf 1 0x15 [(2, 1, 62), (3, 1, 1), (4, 1, 2), (0x10, 2, 5)])) 1 0x15
      (fun c u => firstFail (flushChecks u c) = none ∧ u.dieRefuses (c.param 0 1) = false ∧ ((put staged
      (cmdOf 1 0x15 [(2, 1, 62), (3, 1, 1), (4, 1, 2), (0x10, 2, 5)])).ring 1).cmds.all (fun d => d.start.isNone || d.seq != 7) ∧
      c.seq = 7 ∧ c.ring = 1 ∧ u.slotBusy c.startOrder c.slots = false ∧ u.entryBusy c.startOrder c.entries = false ∧
      u.flushHeld c = false ∧ 2 ≤ c.param 4 1),
      begins (put staged (cmdOf 1 0x15 [(2, 1, 62), (3, 1, 1), (4, 1, 3), (0x10, 2, 5)])) 1 0x15
      (fun c u => firstFail (flushChecks u c) = none ∧ u.dieRefuses (c.param 0 1) = false ∧ ((put staged
      (cmdOf 1 0x15 [(2, 1, 62), (3, 1, 1), (4, 1, 3), (0x10, 2, 5)])).ring 1).cmds.all (fun d => d.start.isNone || d.seq != 7) ∧
      c.seq = 7 ∧ c.ring = 1 ∧ u.slotBusy c.startOrder c.slots = false ∧ u.entryBusy c.startOrder c.entries = false ∧
      u.flushHeld c = false ∧ 2 ≤ c.param 4 1),
      begins (put staged (cmdOf 1 0x15 [(1, 1, 31), (2, 1, 63), (3, 1, 1), (4, 1, 1)])) 1 0x15
      (fun c u => firstFail (flushChecks u c) = none ∧ u.dieRefuses (c.param 0 1) = false ∧ ((put staged
      (cmdOf 1 0x15 [(1, 1, 31), (2, 1, 63), (3, 1, 1), (4, 1, 1)])).ring 1).cmds.all (fun d => d.start.isNone || d.seq != 7) ∧
      c.seq = 7 ∧ c.ring = 1 ∧ u.slotBusy c.startOrder c.slots = false ∧ u.entryBusy c.startOrder c.entries = false ∧
      u.flushHeld c = false ∧ c.param 4 1 < 2 ∧
      ((List.range (c.param 3 1)).all (fun i => !(u.array (c.param 0 1) (c.param 1 1)).part.toNat.testBit (c.param 2 1 + i))))].all id = true :=
  by decide +kernel

theorem witness_MicroBatchesAreAdmitted :
    [begins (put ((item on 15 { dieMask := 0xFFF }).modCtx 15 (fun x => { x with poolSize := 64 }))
      (cmdOf 16 0x20 [(0, 1, 63), (0x10, 8, 0x200000)])) 16 0x20
      (fun c u => ((put ((item on 15 { dieMask := 0xFFF }).modCtx 15 (fun x => { x with poolSize := 64 }))
      (cmdOf 16 0x20 [(0, 1, 63), (0x10, 8, 0x200000)])).advance 0).closeDue = false ∧
      lowestFail (admitChecks u c) = none ∧ c.param 1 1 = 0 ∧ (u.mb 15 63).state = .free ∧ (u.modMb 15 63
      (fun x => { x with state := .admitting })).admitAnswer c = .grant none 0 [] ∧
      u.coll.holdReqs.all (fun h => h.cmd != c.ref)),
      begins (put ((item on 15 { dieMask := 0xFFF, prevKind := 1, fwdDepth := 4, fwdEntryBytes := 256, fwdLand := 0x2000000000000000 }).modCtx 15 (fun x => { x with fwd := [(3, { tag := 8, state := .ready, order := 1 })], poolSize := 64 })) (cmdOf 16 0x20 [(0, 1, 63)])) 16 0x20 (fun c u => ((put ((item on 15 { dieMask := 0xFFF, prevKind := 1, fwdDepth := 4, fwdEntryBytes := 256, fwdLand := 0x2000000000000000 }).modCtx 15 (fun x => { x with fwd := [(3, { tag := 8, state := .ready, order := 1 })], poolSize := 64 })) (cmdOf 16 0x20 [(0, 1, 63)])).advance 0).closeDue = false ∧
      lowestFail (admitChecks u c) = none ∧ c.param 1 1 = 0 ∧ (u.mb 15 63).state = .free ∧ (u.modMb 15 63
      (fun x => { x with state := .admitting })).admitAnswer c = .grant (some 3) 0 [] ∧
      u.coll.holdReqs.all (fun h => h.cmd != c.ref)),
      begins (put ((item on 15 { dieMask := 0xFFF, prevKind := 1, fwdDepth := 4, fwdEntryBytes := 256, fwdLand := 0x2000000000000000 }).modCtx 15 (fun x => { x with  poolSize := 64 })) (cmdOf 16 0x20 [(0, 1, 63), (0x18, 4, 5)])) 16 0x20 (fun c u => ((put ((item on 15 { dieMask := 0xFFF, prevKind := 1, fwdDepth := 4, fwdEntryBytes := 256, fwdLand := 0x2000000000000000 }).modCtx 15 (fun x => { x with  poolSize := 64 })) (cmdOf 16 0x20 [(0, 1, 63), (0x18, 4, 5)])).advance 0).closeDue = false ∧
      lowestFail (admitChecks u c) = none ∧ c.param 1 1 = 0 ∧ (u.mb 15 63).state = .free ∧ (u.modMb 15 63
      (fun x => { x with state := .admitting })).admitAnswer c = .lacks 0),
      begins (put (((item on 15 { dieMask := 0xFFF }).modCtx 15 (fun x => { x with poolSize := 64 })).modMb 15 63
      (fun x => { x with state := .forward })) (cmdOf 16 0x20 [(0, 1, 63), (0x10, 8, 0x200000)])) 16 0x20
      (fun c u => ((put (((item on 15 { dieMask := 0xFFF }).modCtx 15
      (fun x => { x with poolSize := 64 })).modMb 15 63 (fun x => { x with state := .forward }))
      (cmdOf 16 0x20 [(0, 1, 63), (0x10, 8, 0x200000)])).advance 0).closeDue = false ∧
      lowestFail (admitChecks u c) = none ∧ c.param 1 1 = 0 ∧ (u.mb 15 63).state ≠ .free),
      begins (put (((item on 15 { dieMask := 0xFFF }).modCtx 15 (fun x => { x with poolSize := 64 })).modMb 15 63
      (fun x => { x with state := .forward })) (cmdOf 16 0x20 [(0, 1, 63), (1, 1, 1)])) 16 0x20
      (fun c u => ((put (((item on 15 { dieMask := 0xFFF }).modCtx 15
      (fun x => { x with poolSize := 64 })).modMb 15 63 (fun x => { x with state := .forward }))
      (cmdOf 16 0x20 [(0, 1, 63), (1, 1, 1)])).advance 0).closeDue = false ∧ lowestFail (admitChecks u c) = none ∧
      c.param 1 1 = 1 ∧ (u.mb 15 63).state = .forward ∧ (u.ctxItem 15).nextKind = 0),
      meets (put { ((item on 15 { dieMask := 0xFFF, prevKind := 1, fwdDepth := 4, fwdEntryBytes := 256, fwdLand := 0x2000000000000000 }).modCtx 15 (fun x => { x with fwd := [(3, { tag := 8, state := .ready, order := 1 })], poolSize := 64 })).modMb 15 63 (fun x => { x with state := .admitting }) with tide := 5 } ({ waits (.waiting .admission) (cmdOf 16 0x20 [(0, 1, 63)]) with deadline := some 5 })) (fun s => s.waitingAdmit 15 = some ({ waits (.waiting .admission) (cmdOf 16 0x20 [(0, 1, 63)]) with deadline := some 5 }) ∧
      ({ waits (.waiting .admission) (cmdOf 16 0x20 [(0, 1, 63)]) with deadline := some 5 }).param 1 1 = 0 ∧
      (s.advance 0).closeDue = false ∧
      (s.advance 0).admitAnswer ({ waits (.waiting .admission) (cmdOf 16 0x20 [(0, 1, 63)]) with deadline := some 5 }) = .grant (some 3) 0 [] ∧
      (s.advance 0).past ({ waits (.waiting .admission) (cmdOf 16 0x20 [(0, 1, 63)]) with deadline := some 5 }).deadline = false),
      meets (put { ((item on 15 { dieMask := 0xFFF, prevKind := 1, fwdDepth := 4, fwdEntryBytes := 256, fwdLand := 0x2000000000000000 }).modCtx 15 (fun x => { x with  poolSize := 64 })).modMb 15 63 (fun x => { x with state := .admitting }) with tide := 5 } ({ waits (.waiting .admission) (cmdOf 16 0x20 [(0, 1, 63)]) with deadline := some 5 })) (fun s => s.waitingAdmit 15 = some ({ waits (.waiting .admission) (cmdOf 16 0x20 [(0, 1, 63)]) with deadline := some 5 }) ∧
      ({ waits (.waiting .admission) (cmdOf 16 0x20 [(0, 1, 63)]) with deadline := some 5 }).param 1 1 = 0 ∧
      (s.advance 0).closeDue = false ∧ 5 ≤ (s.advance 0).tide ∧
      (s.advance 0).admitAnswer ({ waits (.waiting .admission) (cmdOf 16 0x20 [(0, 1, 63)]) with deadline := some 5 }) = .lacks 0),
      begins (put (((item on 15 { dieMask := 0xFFF }).modCtx 15
      (fun x => { x with poolSize := 64 })).modLayer 4 (fun l => { l with defined := true, newest := 3, slots := [(1, { serial := 3, state := .current, pins := 2 })] })) (cmdOf 16 0x20 [(0, 1, 63), (4, 2, 4), (6, 2, 1)])) 16 0x20 (fun c u => ((put (((item on 15 { dieMask := 0xFFF }).modCtx 15 (fun x => { x with poolSize := 64 })).modLayer 4 (fun l => { l with defined := true, newest := 3, slots := [(1, { serial := 3, state := .current, pins := 2 })] })) (cmdOf 16 0x20 [(0, 1, 63), (4, 2, 4), (6, 2, 1)])).advance 0).closeDue = false ∧
      lowestFail (admitChecks u c) = none ∧ c.param 1 1 = 0 ∧ (u.mb 15 63).state = .free ∧ (u.modMb 15 63
      (fun x => { x with state := .admitting })).admitAnswer c = .grant none 0 [(4, 1)] ∧ (u.layer 4).shards ≤ 1 ∧
      u.coll.holdReqs.all (fun h => h.cmd != c.ref))].all id = true :=
  by decide +kernel

theorem witness_SendsTakeCredits :
    [begins (put (((port (item on 15 { dieMask := 0xFFF, nextKind := 1, nextPort := 3, nextModule := 9, nextCtx := 2, nextEntryBytes := 256, nextDepth := 64, prevKind := 1, prevPort := 3, prevModule := 9, prevCtx := 2, prevEntryBytes := 256, prevDepth := 64 }) 3 1).modCtx 15 (fun x => { x with drops := 0 })).modMb 15 63 (fun x => { x with state := .backward })) (cmdOf 16 33 [(0, 1, 63), (1, 1, 11), (4, 4, 256), (8, 8, 0x2000000000000000), (0x14, 4, 5)])) 16 33 (fun c u => (sendSide (u.ctxItem 15) c.sendsBack).1 ≠ 0 ∧
      lowestFail (sendChecks u c) = none ∧ (u.mb 15 63).sendable c.sendsBack = true ∧
      (u.ctx 15).mismatch c.sendsBack = false ∧ (sendSegments u c).all (fun g => u.keyServed g.1) ∧
      u.mbSpec (u.mb 15 63) = false ∧ (u.mb 15 63).bwdSpec = none ∧ u.sendCredit c = none ∧ c.param 0x14 4 ≠ 0),
      begins (put (((port (item on 15 { dieMask := 0xFFF, nextKind := 1, nextPort := 3, nextModule := 9, nextCtx := 2, nextEntryBytes := 256, nextDepth := 64, prevKind := 1, prevPort := 3, prevModule := 9, prevCtx := 2, prevEntryBytes := 256, prevDepth := 64 }) 3 1).modCtx 15 (fun x => { x with nextCredits := 0x8000000000000000 })).modMb 15 63 (fun x => { x with state := .backward })) (cmdOf 16 33 [(0, 1, 63), (1, 1, 11), (4, 4, 256), (8, 8, 0x2000000000000000), (0x14, 4, 5)])) 16 33 (fun c u => (sendSide (u.ctxItem 15) c.sendsBack).1 ≠ 0 ∧
      lowestFail (sendChecks u c) = none ∧ (u.mb 15 63).sendable c.sendsBack = true ∧
      (u.ctx 15).mismatch c.sendsBack = false ∧ (sendSegments u c).all (fun g => u.keyServed g.1) ∧
      u.mbSpec (u.mb 15 63) = false ∧ (u.mb 15 63).bwdSpec = none ∧
      (u.modCmd c.ref (fun d => { d with aux := [0, u.commit.stepNumber.toNat] })).sendCredit c = some 63 ∧
      (sendSide (u.ctxItem 15) c.sendsBack).1 = 1),
      begins (put (((port (item on 15 { dieMask := 0xFFF, nextKind := 1, nextPort := 3, nextModule := 9, nextCtx := 2, nextEntryBytes := 256, nextDepth := 64, prevKind := 1, prevPort := 3, prevModule := 9, prevCtx := 2, prevEntryBytes := 256, prevDepth := 64 }) 3 1).modCtx 15 (fun x => { x with drops := 0 })).modMb 15 63 (fun x => { x with state := .backward })) (cmdOf 16 34 [(0, 1, 63), (1, 1, 11), (4, 4, 256), (8, 8, 0x2000000000000000), (0x14, 4, 5)])) 16 34 (fun c u => (sendSide (u.ctxItem 15) c.sendsBack).1 ≠ 0 ∧
      lowestFail (sendChecks u c) = none ∧ (u.mb 15 63).sendable c.sendsBack = true ∧
      (u.ctx 15).mismatch c.sendsBack = false ∧ (sendSegments u c).all (fun g => u.keyServed g.1) ∧
      u.mbSpec (u.mb 15 63) = false ∧ (u.mb 15 63).bwdSpec = none ∧ u.sendCredit c = none ∧ c.param 0x14 4 ≠ 0),
      begins (put (((port (item on 15 { dieMask := 0xFFF, nextKind := 1, nextPort := 3, nextModule := 9, nextCtx := 2, nextEntryBytes := 256, nextDepth := 64, prevKind := 1, prevPort := 3, prevModule := 9, prevCtx := 2, prevEntryBytes := 256, prevDepth := 64 }) 3 1).modCtx 15 (fun x => { x with prevCredits := 0x8000000000000000 })).modMb 15 63 (fun x => { x with state := .backward })) (cmdOf 16 34 [(0, 1, 63), (1, 1, 11), (4, 4, 256), (8, 8, 0x2000000000000000), (0x14, 4, 5)])) 16 34 (fun c u => (sendSide (u.ctxItem 15) c.sendsBack).1 ≠ 0 ∧
      lowestFail (sendChecks u c) = none ∧ (u.mb 15 63).sendable c.sendsBack = true ∧
      (u.ctx 15).mismatch c.sendsBack = false ∧ (sendSegments u c).all (fun g => u.keyServed g.1) ∧
      u.mbSpec (u.mb 15 63) = false ∧ (u.mb 15 63).bwdSpec = none ∧
      (u.modCmd c.ref (fun d => { d with aux := [0, u.commit.stepNumber.toNat] })).sendCredit c = some 63 ∧
      (sendSide (u.ctxItem 15) c.sendsBack).1 = 1),
      begins (put ((({ on with conf := { on.conf with ctxs := [(15, { dieMask := 0xFFF, nextKind := 2, nextCtx := 4, nextEntryBytes := 256, nextDepth := 2 }), (4, { dieMask := 0xFFF, prevKind := 2, prevCtx := 15, fwdDepth := 2, fwdEntryBytes := 256, fwdLand := 0x2000000000010000 })] } }).modCtx 15 (fun x => { x with nextCredits := 2 })).modMb 15 63 (fun x => { x with state := .forward })) (cmdOf 16 0x21 [(0, 1, 63), (1, 1, 11), (4, 4, 256), (8, 8, 0x2000000000000000)])) 16 0x21 (fun c u => (sendSide (u.ctxItem 15) c.sendsBack).1 = 2 ∧
      lowestFail (sendChecks u c) = none ∧ (u.mb 15 63).sendable c.sendsBack = true ∧
      (u.ctx 15).mismatch c.sendsBack = false ∧ u.dieRefuses (c.param 1 1) = false ∧
      (sendSegments u c).all (fun g => u.keyServed g.1) ∧ u.dieWaits (c.param 1 1) = false ∧
      (u.modCmd c.ref (fun d => { d with aux := [0, u.commit.stepNumber.toNat] })).sendCredit c = some 1),
      begins (put ((item on 15 { dieMask := 0xFFF }).modMb 15 63 (fun x => { x with state := .forward }))
      (cmdOf 16 0x21 [(0, 1, 63), (1, 1, 11), (4, 4, 256), (8, 8, 0x2000000000000000)])) 16 0x21
      (fun c u => sendSide (u.ctxItem 15) c.sendsBack = (0, (sendSide (u.ctxItem 15) c.sendsBack).2)),
      begins (put (((({ on with conf := { on.conf with ctxs := [(15, { dieMask := 0xFFF, nextKind := 2, nextCtx := 4, nextEntryBytes := 256, nextDepth := 2 }), (4, { dieMask := 0xFFF, prevKind := 2, prevCtx := 15, fwdDepth := 2, fwdEntryBytes := 256, fwdLand := 0x2000000000010000 })] } }).modCtx 15 (fun x => { x with nextCredits := 2 })).modMb 15 63 (fun x => { x with state := .forward })).modCtx 15 (fun x => { x with nextMismatch := true })) (cmdOf 16 0x21 [(0, 1, 63), (1, 1, 11), (4, 4, 256), (8, 8, 0x2000000000000000)])) 16 0x21 (fun c u => (sendSide (u.ctxItem 15) c.sendsBack).1 = 2 ∧
      lowestFail (sendChecks u c) = none ∧ (u.mb 15 63).sendable c.sendsBack = true ∧
      (u.ctx 15).mismatch c.sendsBack = true),
      begins (put { ((({ on with conf := { on.conf with ctxs := [(15, { dieMask := 0xFFF, nextKind := 2, nextCtx := 4, nextEntryBytes := 256, nextDepth := 2 }), (4, { dieMask := 0xFFF, prevKind := 2, prevCtx := 15, fwdDepth := 2, fwdEntryBytes := 256, fwdLand := 0x2000000000010000 })] } }).modCtx 15 (fun x => { x with nextCredits := 2 })).modMb 15 63 (fun x => { x with state := .forward })) with dies := [(11, { service := 1 })] } (cmdOf 16 0x21 [(0, 1, 63), (1, 1, 11), (4, 4, 256), (8, 8, 0x2000000000000000)])) 16 0x21 (fun c u => (sendSide (u.ctxItem 15) c.sendsBack).1 = 2 ∧
      lowestFail (sendChecks u c) = none ∧ (u.mb 15 63).sendable c.sendsBack = true ∧
      (u.ctx 15).mismatch c.sendsBack = false ∧ u.dieRefuses (c.param 1 1) = true),
      begins (put { ((({ on with conf := { on.conf with ctxs := [(15, { dieMask := 0xFFF, nextKind := 2, nextCtx := 4, nextEntryBytes := 256, nextDepth := 2 }), (4, { dieMask := 0xFFF, prevKind := 2, prevCtx := 15, fwdDepth := 2, fwdEntryBytes := 256, fwdLand := 0x2000000000010000 })] } }).modCtx 15 (fun x => { x with nextCredits := 2 })).modMb 15 63 (fun x => { x with state := .forward })) with dies := [(11, { service := 3, outOfService := true })] } (cmdOf 16 0x21 [(0, 1, 63), (1, 1, 11), (4, 4, 256), (8, 8, 0x2000000000000000)])) 16 0x21 (fun c u => (sendSide (u.ctxItem 15) c.sendsBack).1 = 2 ∧
      lowestFail (sendChecks u c) = none ∧ (u.mb 15 63).sendable c.sendsBack = true ∧
      (u.ctx 15).mismatch c.sendsBack = false ∧ u.dieRefuses (c.param 1 1) = false ∧
      (sendSegments u c).all (fun g => u.keyServed g.1) ∧ u.dieWaits (c.param 1 1) = true),
      meets (put (((port (item on 15 { dieMask := 0xFFF, nextKind := 1, nextPort := 3, nextModule := 9, nextCtx := 2, nextEntryBytes := 256, nextDepth := 64, prevKind := 1, prevPort := 3, prevModule := 9, prevCtx := 2, prevEntryBytes := 256, prevDepth := 64 }) 3 1).modCtx 15 (fun x => { x with nextCredits := 1 })).modMb 15 63 (fun x => { x with state := .backward })) ({ waits (.waiting .credit) (cmdOf 16 33 [(0, 1, 63), (1, 1, 11), (4, 4, 256), (8, 8, 0x2000000000000000), (0x14, 4, 5)]) with deadline := some 5 })) (fun s => s.findWait 16 7 .credit = some ({ waits (.waiting .credit) (cmdOf 16 33 [(0, 1, 63), (1, 1, 11), (4, 4, 256), (8, 8, 0x2000000000000000), (0x14, 4, 5)]) with deadline := some 5 }) ∧
      (s.advance 0).sendCredit ({ waits (.waiting .credit) (cmdOf 16 33 [(0, 1, 63), (1, 1, 11), (4, 4, 256), (8, 8, 0x2000000000000000), (0x14, 4, 5)]) with deadline := some 5 }) = some 0 ∧
      (s.advance 0).past (({ waits (.waiting .credit) (cmdOf 16 33 [(0, 1, 63), (1, 1, 11), (4, 4, 256), (8, 8, 0x2000000000000000), (0x14, 4, 5)]) with deadline := some 5 })).deadline = false),
      meets (put { (((port (item on 15 { dieMask := 0xFFF, nextKind := 1, nextPort := 3, nextModule := 9, nextCtx := 2, nextEntryBytes := 256, nextDepth := 64, prevKind := 1, prevPort := 3, prevModule := 9, prevCtx := 2, prevEntryBytes := 256, prevDepth := 64 }) 3 1).modCtx 15 (fun x => { x with drops := 0 })).modMb 15 63 (fun x => { x with state := .backward })) with tide := 5 } ({ waits (.waiting .credit) (cmdOf 16 33 [(0, 1, 63), (1, 1, 11), (4, 4, 256), (8, 8, 0x2000000000000000), (0x14, 4, 5)]) with deadline := some 5 })) (fun s => s.findWait 16 7 .credit = some ({ waits (.waiting .credit) (cmdOf 16 33 [(0, 1, 63), (1, 1, 11), (4, 4, 256), (8, 8, 0x2000000000000000), (0x14, 4, 5)]) with deadline := some 5 }) ∧
      (({ waits (.waiting .credit) (cmdOf 16 33 [(0, 1, 63), (1, 1, 11), (4, 4, 256), (8, 8, 0x2000000000000000), (0x14, 4, 5)]) with deadline := some 5 })).deadline = some 5 ∧
      5 ≤ (s.advance 0).tide ∧
      (s.advance 0).sendCredit ({ waits (.waiting .credit) (cmdOf 16 33 [(0, 1, 63), (1, 1, 11), (4, 4, 256), (8, 8, 0x2000000000000000), (0x14, 4, 5)]) with deadline := some 5 }) = none),
      meets (put { (((port (item on 15 { dieMask := 0xFFF, nextKind := 1, nextPort := 3, nextModule := 9, nextCtx := 2, nextEntryBytes := 256, nextDepth := 64, prevKind := 1, prevPort := 3, prevModule := 9, prevCtx := 2, prevEntryBytes := 256, prevDepth := 64 }) 3 1).modCtx 15 (fun x => { x with nextCredits := 1 })).modMb 15 63 (fun x => { x with state := .backward })) with tide := 6 } ({ waits (.waiting .credit) (cmdOf 16 33 [(0, 1, 63), (1, 1, 11), (4, 4, 256), (8, 8, 0x2000000000000000), (0x14, 4, 5)]) with deadline := some 5 })) (fun s => s.findWait 16 7 .credit = some ({ waits (.waiting .credit) (cmdOf 16 33 [(0, 1, 63), (1, 1, 11), (4, 4, 256), (8, 8, 0x2000000000000000), (0x14, 4, 5)]) with deadline := some 5 }) ∧
      (({ waits (.waiting .credit) (cmdOf 16 33 [(0, 1, 63), (1, 1, 11), (4, 4, 256), (8, 8, 0x2000000000000000), (0x14, 4, 5)]) with deadline := some 5 })).deadline = some 5 ∧
      5 ≤ (s.advance 0).tide ∧ 5 < (s.advance 0).tide ∧
      (s.advance 0).sendCredit ({ waits (.waiting .credit) (cmdOf 16 33 [(0, 1, 63), (1, 1, 11), (4, 4, 256), (8, 8, 0x2000000000000000), (0x14, 4, 5)]) with deadline := some 5 }) = some 0)].all id = true :=
  by decide +kernel

theorem witness_DataAndCreditFrames :
    [meets ((port (item { on with tide := 1, conf := { on.conf with address := 5 }, pkg := { on.pkg with suffix := 2 } } 15 { fwdDepth := 64, bwdDepth := 64, fwdEntryBytes := 256, bwdEntryBytes := 256, prevKind := 1, prevPort := 11, prevModule := 9, prevCtx := 2, nextKind := 1, nextPort := 11, nextModule := 9, nextCtx := 2, fwdLand := 0x2000000000000000, bwdLand := 0x2000000000010000 }) 11 1)) (fun s => s.portActive 11 = true ∧
      s.dma.units = [] ∧ 0 < (s.advance 0).tide ∧ (s.roleOf 11 = 1 ∨ s.roleOf 11 = 2) ∧
      s.dataFrameOk 11 { srcCtx := 2, dstCtx := 15, srcModule := 9, dstModule := 5 } { bwd := false, entry := 63, tag := 4, last := true, payload := [1, 2], totalBytes := 2 } = true ∧
      (s.advance 0).landHeld 11 [(s.dataKey { srcCtx := 2, dstCtx := 15, srcModule := 9, dstModule := 5 } { bwd := false, entry := 63, tag := 4, last := true, payload := [1, 2], totalBytes := 2 }, 2)] = false ∧
      2 ≤ (s.entry 15 false 63).bytes + 2 ∧ (s.entry 15 false 63).discard = false),
      meets ((port (item { on with tide := 1, conf := { on.conf with address := 5 }, pkg := { on.pkg with suffix := 2 } } 15 { fwdDepth := 64, bwdDepth := 64, fwdEntryBytes := 256, bwdEntryBytes := 256, prevKind := 1, prevPort := 11, prevModule := 9, prevCtx := 2, nextKind := 1, nextPort := 11, nextModule := 9, nextCtx := 2, fwdLand := 0x2000000000000000, bwdLand := 0x2000000000010000 }) 11 1)) (fun s => s.portActive 11 = true ∧
      s.dma.units = [] ∧ 0 < (s.advance 0).tide ∧ (s.roleOf 11 = 1 ∨ s.roleOf 11 = 2) ∧
      (sendSide (s.ctxItem 15) false).1 = 1 ∧ (sendSide (s.ctxItem 15) false).2.1 = 11 ∧
      (sendSide (s.ctxItem 15) false).2.2.1 = 9 ∧ (sendSide (s.ctxItem 15) false).2.2.2.1 = 2),
      meets ((port (item { on with tide := 1, conf := { on.conf with address := 5 }, pkg := { on.pkg with suffix := 2 } } 15 { fwdDepth := 64, bwdDepth := 64, fwdEntryBytes := 256, bwdEntryBytes := 256, prevKind := 1, prevPort := 11, prevModule := 9, prevCtx := 2, nextKind := 1, nextPort := 11, nextModule := 9, nextCtx := 2, fwdLand := 0x2000000000000000, bwdLand := 0x2000000000010000 }) 11 2)) (fun s => s.portActive 11 = true ∧
      s.dma.units = [] ∧ 0 < (s.advance 0).tide ∧ (s.roleOf 11 = 1 ∨ s.roleOf 11 = 2) ∧
      s.dataFrameOk 11 { srcCtx := 2, dstCtx := 15, srcModule := 9, dstModule := 5 } { bwd := true, entry := 63, tag := 4, last := true, payload := [1, 2], totalBytes := 2 } = true ∧
      (s.advance 0).landHeld 11 [(s.dataKey { srcCtx := 2, dstCtx := 15, srcModule := 9, dstModule := 5 } { bwd := true, entry := 63, tag := 4, last := true, payload := [1, 2], totalBytes := 2 }, 2)] = false ∧
      2 ≤ (s.entry 15 true 63).bytes + 2 ∧ (s.entry 15 true 63).discard = false),
      meets ((port (item { on with tide := 1, conf := { on.conf with address := 5 }, pkg := { on.pkg with suffix := 2 } } 15 { fwdDepth := 64, bwdDepth := 64, fwdEntryBytes := 256, bwdEntryBytes := 256, prevKind := 1, prevPort := 11, prevModule := 9, prevCtx := 2, nextKind := 1, nextPort := 11, nextModule := 9, nextCtx := 2, fwdLand := 0x2000000000000000, bwdLand := 0x2000000000010000 }) 11 2)) (fun s => s.portActive 11 = true ∧
      s.dma.units = [] ∧ 0 < (s.advance 0).tide ∧ (s.roleOf 11 = 1 ∨ s.roleOf 11 = 2) ∧
      (sendSide (s.ctxItem 15) true).1 = 1 ∧ (sendSide (s.ctxItem 15) true).2.1 = 11 ∧
      (sendSide (s.ctxItem 15) true).2.2.1 = 9 ∧ (sendSide (s.ctxItem 15) true).2.2.2.1 = 2),
      meets ((port (item { on with tide := 1, conf := { on.conf with address := 5 }, pkg := { on.pkg with suffix := 2 } } 15 { fwdDepth := 64, bwdDepth := 64, fwdEntryBytes := 256, bwdEntryBytes := 256, prevKind := 1, prevPort := 11, prevModule := 9, prevCtx := 2, nextKind := 1, nextPort := 11, nextModule := 9, nextCtx := 2, fwdLand := 0x2000000000000000, bwdLand := 0x2000000000010000 }) 11 1)) (fun s => s.portActive 11 = true ∧
      s.dma.units = [] ∧ 0 < (s.advance 0).tide ∧ (6#16 ≠ s.conf.address)),
      meets ((port (item { on with tide := 1, conf := { on.conf with address := 5 }, pkg := { on.pkg with suffix := 2 } } 15 { fwdDepth := 64, bwdDepth := 64, fwdEntryBytes := 256, bwdEntryBytes := 256, prevKind := 1, prevPort := 11, prevModule := 9, prevCtx := 2, nextKind := 1, nextPort := 11, nextModule := 9, nextCtx := 2, fwdLand := 0x2000000000000000, bwdLand := 0x2000000000010000 }) 11 5)) (fun s => s.portActive 11 = true ∧
      s.dma.units = [] ∧ 0 < (s.advance 0).tide ∧ s.roleOf 11 ≠ 1 ∧ s.roleOf 11 ≠ 2 ∧
      (s.advance 0).landHeld 11 [(s.dataKey { srcCtx := 2, dstCtx := 15, srcModule := 9, dstModule := 5 } {}, 0)] = false),
      meets ((port (item { on with tide := 1, conf := { on.conf with address := 5 }, pkg := { on.pkg with suffix := 2 } } 15 { fwdDepth := 64, bwdDepth := 64, fwdEntryBytes := 256, bwdEntryBytes := 256, prevKind := 1, prevPort := 11, prevModule := 9, prevCtx := 2, nextKind := 1, nextPort := 11, nextModule := 9, nextCtx := 2, fwdLand := 0x2000000000000000, bwdLand := 0x2000000000010000 }) 11 6)) (fun s => s.portActive 11 = true ∧
      s.dma.units = [] ∧ 0 < (s.advance 0).tide ∧ s.roleOf 11 = 6),
      meets ((port (item { on with tide := 1, conf := { on.conf with address := 5 }, pkg := { on.pkg with suffix := 2 } } 15 { fwdDepth := 64, bwdDepth := 64, fwdEntryBytes := 256, bwdEntryBytes := 256, prevKind := 1, prevPort := 11, prevModule := 9, prevCtx := 2, nextKind := 1, nextPort := 11, nextModule := 9, nextCtx := 2, fwdLand := 0x2000000000000000, bwdLand := 0x2000000000010000 }) 11 4)) (fun s => s.portActive 11 = true ∧
      s.dma.units = [] ∧ 0 < (s.advance 0).tide ∧ s.roleOf 11 ≠ 1 ∧ s.roleOf 11 ≠ 2 ∧ s.roleOf 11 ≠ 6),
      meets (((port (item { on with tide := 1, conf := { on.conf with address := 5 }, pkg := { on.pkg with suffix := 2 } } 15 { fwdDepth := 64, bwdDepth := 64, fwdEntryBytes := 256, bwdEntryBytes := 256, prevKind := 1, prevPort := 11, prevModule := 9, prevCtx := 2, nextKind := 1, nextPort := 11, nextModule := 9, nextCtx := 2, fwdLand := 0x2000000000000000, bwdLand := 0x2000000000010000 }) 11 1)).modEntry 15 false 0 (fun x => { x with state := .arriving, bytes := 4 })) (fun s => s.portActive 11 = true ∧
      s.dma.units = [] ∧ 0 < (s.advance 0).tide ∧ s.roleOf 11 = 1 ∧
      s.dataFrameOk 11 { srcCtx := 2, dstCtx := 15, srcModule := 9, dstModule := 5, poison := true } { entry := 63, tag := 4, last := false, payload := [1, 2], totalBytes := 256 } = true ∧
      (s.advance 0).landHeld 11 [(s.dataKey { srcCtx := 2, dstCtx := 15, srcModule := 9, dstModule := 5, poison := true } { entry := 63, tag := 4, last := false, payload := [1, 2], totalBytes := 256 }, 2)] = false ∧
      (s.entry 15 false 63).last = false ∧ (s.entry 15 false 0).state = .arriving)].all id = true :=
  by decide +kernel

theorem witness_MicroBatchesAreReleased :
    [begins (put (on.modMb 15 0 (fun x => { x with state := .forward })) (cmdOf 16 0x23 [(0, 1, 0)])) 16 0x23
      (fun c u => c.param 0 1 < 64 ∧ zeros c 64 (fun i => 1 ≤ i) ∧ (u.mb 15 0).state = .forward),
      begins (put (on.modMb 15 0 (fun x => { x with dropped := true })) (cmdOf 16 0x23 [(0, 1, 0)])) 16 0x23
      (fun c u => c.param 0 1 < 64 ∧ zeros c 64 (fun i => 1 ≤ i) ∧ (u.mb 15 0).gone = true),
      meets (put (on.modMb 15 0 (fun x => { x with state := .releasing, sizeUnits := 3 })) (waits (.waiting .release)
      (cmdOf 16 0x23 [(0, 1, 0)]))) (fun s => s.mbCmds 15 0 = [waits (.waiting .release) (cmdOf 16 0x23 [(0, 1, 0)])] ∧
      (waits (.waiting .release) (cmdOf 16 0x23 [(0, 1, 0)])).opcode = 0x23 ∧ (s.mb 15 0).state = .releasing ∧
      s.mbSpec (s.mb 15 0) = false ∧ (s.mb 15 0).bwdSpec = none),
      begins (put (on.modMb 15 63 (fun x => { x with state := .forward })) (cmdOf 16 0x23 [(0, 1, 63)])) 16 0x23
      (fun c u => c.param 0 1 < 64 ∧ zeros c 64 (fun i => 1 ≤ i) ∧ (u.mb 15 63).state = .forward),
      begins (put (on.modMb 15 63 (fun x => { x with dropped := true })) (cmdOf 16 0x23 [(0, 1, 63)])) 16 0x23
      (fun c u => c.param 0 1 < 64 ∧ zeros c 64 (fun i => 1 ≤ i) ∧ (u.mb 15 63).gone = true),
      meets (put (on.modMb 15 63 (fun x => { x with state := .releasing, sizeUnits := 3 })) (waits (.waiting .release)
      (cmdOf 16 0x23 [(0, 1, 63)]))) (fun s => s.mbCmds 15 63 = [waits (.waiting .release)
      (cmdOf 16 0x23 [(0, 1, 63)])] ∧ (waits (.waiting .release) (cmdOf 16 0x23 [(0, 1, 63)])).opcode = 0x23 ∧
      (s.mb 15 63).state = .releasing ∧ s.mbSpec (s.mb 15 63) = false ∧ (s.mb 15 63).bwdSpec = none),
      meets (on.modMb 15 63 (fun x => { x with releasing := true, sizeUnits := 5 }))
      (fun s => (s.mb 15 63).releasing = true ∧ s.stashHeld 15 63 = false),
      meets ({ on with tide := 16 }) (fun s => s.power.ready = true ∧ (s.ctx 15).lastSample + 16 ≤ (s.advance 0).tide),
      meets ({ on with tide := 15 }) (fun s => s.power.ready = true ∧ (s.advance 0).tide < (s.ctx 15).lastSample + 16),
      meets ((put (((({ staged with host := { staged.host with slots := [(slotKey 16 2, { seq := 7 })] } }).modMb 15 63
      (fun x => { x with state := .backward, fwdEntry := some 63, bwdEntry := some 0, sizeUnits := 5, pins := [] })).modEntry 15 false 63 (fun x => { x with state := .taken, spec := true })).modEntry 15 true 0 (fun x => { x with state := .taken })) (waits (.waiting .owners) { cmdOf 16 0x23 [(0, 1, 63)] with slot := some 2 }))) (fun s => (∀ d ∈ (s.ring 16).cmds, d.ring = 16) ∧
      s.mbCmds 15 63 = [(waits (.waiting .owners) { cmdOf 16 0x23 [(0, 1, 63)] with slot := some 2 })] ∧
      (s.slot 16 2).isSome = true ∧ (s.mb 15 63).bwdEntry = some 0 ∧ (s.mb 15 63).fwdEntry = some 63 ∧
      (s.entry 15 false 63).spec = true),
      meets ((put (((({ staged with host := { staged.host with slots := [(slotKey 16 2, { seq := 7 })] } }).modMb 15 63
      (fun x => { x with state := .backward, fwdEntry := some 63, bwdEntry := some 0, sizeUnits := 5, pins := [] })).modEntry 15 false 63 (fun x => { x with state := .taken, spec := false })).modEntry 15 true 0 (fun x => { x with state := .taken })) (waits (.waiting .owners) { cmdOf 16 0x23 [(0, 1, 63)] with slot := some 2 }))) (fun s => (∀ d ∈ (s.ring 16).cmds, d.ring = 16) ∧
      s.mbCmds 15 63 = [(waits (.waiting .owners) { cmdOf 16 0x23 [(0, 1, 63)] with slot := some 2 })] ∧
      (s.slot 16 2).isSome = true ∧ (s.mb 15 63).bwdEntry = some 0 ∧ (s.mb 15 63).fwdEntry = some 63 ∧
      (s.entry 15 false 63).spec = false),
      meets ((put (((({ staged with host := { staged.host with slots := [(slotKey 16 2, { seq := 7 })] } }).modMb 15 63
      (fun x => { x with state := .backward, fwdEntry := some 63, bwdEntry := some 0, sizeUnits := 5, pins := [] })).modEntry 15 false 63 (fun x => { x with state := .taken, spec := false })).modEntry 15 true 0 (fun x => { x with state := .taken })) (waits (.waiting .owners) { cmdOf 16 0x23 [(0, 1, 63)] with slot := some 2 }))) (fun s => (∀ d ∈ (s.ring 16).cmds, d.ring = 16) ∧
      (s.mb 15 63).bwdEntry = some 0 ∧ (∀ d ∈ s.mbCmds 15 63, d.work ≠ .waiting .holds)),
      meets ((put (((({ staged with host := { staged.host with slots := [(slotKey 16 2, { seq := 7 })] } }).modMb 15 63
      (fun x => { x with state := .backward, fwdEntry := some 63, bwdEntry := some 0, sizeUnits := 5, pins := [] })).modEntry 15 false 63 (fun x => { x with state := .taken, spec := false })).modEntry 15 true 0 (fun x => { x with state := .taken })) (waits (.waiting .owners) { cmdOf 16 0x23 [(0, 1, 63)] with slot := some 2 }))) (fun s => (s.mbSpec (s.mb 15 63) || (s.mb 15 63).bwdSpec.isSome) = false ∧
      (if true then (s.mb 15 63).bwdEntry else (s.mb 15 63).fwdEntry) = some 0),
      meets ((put (((({ staged with host := { staged.host with slots := [(slotKey 16 2, { seq := 7 })] } }).modMb 15 63
      (fun x => { x with state := .backward, fwdEntry := some 63, bwdEntry := some 0, sizeUnits := 5, pins := [] })).modEntry 15 false 63 (fun x => { x with state := .taken, spec := false })).modEntry 15 true 0 (fun x => { x with state := .taken })) (waits (.waiting .owners) { cmdOf 16 0x23 [(0, 1, 63)] with slot := some 2 }))) (fun s => (s.mbSpec (s.mb 15 63) || (s.mb 15 63).bwdSpec.isSome) = false ∧
      (if false then (s.mb 15 63).bwdEntry else (s.mb 15 63).fwdEntry) = some 63),
      meets (((put (((({ staged with host := { staged.host with slots := [(slotKey 16 2, { seq := 7 })] } }).modMb 15 63
      (fun x => { x with state := .backward, fwdEntry := some 63, bwdEntry := some 0, sizeUnits := 5, pins := [] })).modEntry 15 false 63 (fun x => { x with state := .taken, spec := false })).modEntry 15 true 0 (fun x => { x with state := .taken })) (waits (.waiting .owners) { cmdOf 16 0x23 [(0, 1, 63)] with slot := some 2 }))).modMb 15 63 (fun x => { x with bwdSpec := some 3 })) (fun s => (s.mbSpec (s.mb 15 63) || (s.mb 15 63).bwdSpec.isSome) = true ∧
      (s.mb 15 63).bwdEntry = some 0),
      meets ([0, 1, 2, 3, 4, 5, 6, 7, 8, 9, 10, 11, 12, 13, 14, 15].foldl (fun s k => if k = 15 then s else s.modCtx k
      (fun x => { x with lastSample := 1 })) { on with tide := 16 }) (fun s => s.power.ready = true ∧
      (s.ctx 15).lastSample + 16 ≤ (s.advance 0).tide ∧
      (List.range 16).all (fun j => decide (j = 15 ∨ (s.advance 0).tide < (s.ctx j).lastSample + 16)) = true ∧
      ctxBusy ((s.advance 0).sampleEngines 15) 15 = false),
      meets ([1, 2, 3, 4, 5, 6, 7, 8, 9, 10, 11, 12, 13, 14, 15].foldl (fun s k => s.modCtx k
      (fun x => { x with lastSample := 1 })) { mmWeights with tide := 16 }) (fun s => s.power.ready = true ∧
      (s.ctx 0).lastSample + 16 ≤ (s.advance 0).tide ∧
      (List.range 16).all (fun j => decide (j = 0 ∨ (s.advance 0).tide < (s.ctx j).lastSample + 16)) = true ∧
      ctxBusy ((s.advance 0).sampleEngines 0) 0 = true),
      meets on (fun s => (s.ring 16).cmds = []),
      meets (put (staged) (waits (.waiting .admission) (cmdOf 16 0x20 [(1, 1, 1)])))
      (fun s => (s.ring 16).cmds = [(waits (.waiting .admission) (cmdOf 16 0x20 [(1, 1, 1)]))] ∧ heldByPause s
      (waits (.waiting .admission) (cmdOf 16 0x20 [(1, 1, 1)])) = false ∧ ((waits (.waiting .admission)
      (cmdOf 16 0x20 [(1, 1, 1)]))).start.isSome = true ∧ ((waits (.waiting .admission)
      (cmdOf 16 0x20 [(1, 1, 1)]))).namesDie.all (fun d => s.diePaused d == false) = true ∧ (heldRanges s
      (waits (.waiting .admission) (cmdOf 16 0x20 [(1, 1, 1)]))).2.any (fun r => s.rangeCut (heldRanges s
      (waits (.waiting .admission) (cmdOf 16 0x20 [(1, 1, 1)]))).1 r.1 r.2) = false ∧ ((waits (.waiting .admission)
      (cmdOf 16 0x20 [(1, 1, 1)]))).param 1 1 = 1),
      meets (put (staged) (waits (.waiting .pins) (cmdOf 16 0x20 [])))
      (fun s => (s.ring 16).cmds = [(waits (.waiting .pins) (cmdOf 16 0x20 []))] ∧ heldByPause s
      (waits (.waiting .pins) (cmdOf 16 0x20 [])) = false ∧ ((waits (.waiting .pins)
      (cmdOf 16 0x20 []))).start.isSome = true ∧ ((waits (.waiting .pins)
      (cmdOf 16 0x20 []))).namesDie.all (fun d => s.diePaused d == false) = true ∧ (heldRanges s
      (waits (.waiting .pins) (cmdOf 16 0x20 []))).2.any (fun r => s.rangeCut (heldRanges s (waits (.waiting .pins)
      (cmdOf 16 0x20 []))).1 r.1 r.2) = false),
      meets (put (staged) (waits (.waiting .holds) (cmdOf 16 0x31 [])))
      (fun s => (s.ring 16).cmds = [(waits (.waiting .holds) (cmdOf 16 0x31 []))] ∧ heldByPause s
      (waits (.waiting .holds) (cmdOf 16 0x31 [])) = false ∧ ((waits (.waiting .holds)
      (cmdOf 16 0x31 []))).start.isSome = true ∧ ((waits (.waiting .holds)
      (cmdOf 16 0x31 []))).namesDie.all (fun d => s.diePaused d == false) = true ∧ (heldRanges s
      (waits (.waiting .holds) (cmdOf 16 0x31 []))).2.any (fun r => s.rangeCut (heldRanges s (waits (.waiting .holds)
      (cmdOf 16 0x31 []))).1 r.1 r.2) = false),
      meets (put (staged) (waits (.waiting .coll) (cmdOf 16 0x52 [])))
      (fun s => (s.ring 16).cmds = [(waits (.waiting .coll) (cmdOf 16 0x52 []))] ∧ heldByPause s
      (waits (.waiting .coll) (cmdOf 16 0x52 [])) = false ∧ ((waits (.waiting .coll)
      (cmdOf 16 0x52 []))).start.isSome = true ∧ ((waits (.waiting .coll)
      (cmdOf 16 0x52 []))).namesDie.all (fun d => s.diePaused d == false) = true ∧ (heldRanges s
      (waits (.waiting .coll) (cmdOf 16 0x52 []))).2.any (fun r => s.rangeCut (heldRanges s (waits (.waiting .coll)
      (cmdOf 16 0x52 []))).1 r.1 r.2) = false),
      meets (put (staged) (waits (.waiting .owners) (cmdOf 16 0x42 [])))
      (fun s => (s.ring 16).cmds = [(waits (.waiting .owners) (cmdOf 16 0x42 []))] ∧ heldByPause s
      (waits (.waiting .owners) (cmdOf 16 0x42 [])) = false ∧ ((waits (.waiting .owners)
      (cmdOf 16 0x42 []))).start.isSome = true ∧ ((waits (.waiting .owners)
      (cmdOf 16 0x42 []))).namesDie.all (fun d => s.diePaused d == false) = true ∧ (heldRanges s
      (waits (.waiting .owners) (cmdOf 16 0x42 []))).2.any (fun r => s.rangeCut (heldRanges s
      (waits (.waiting .owners) (cmdOf 16 0x42 []))).1 r.1 r.2) = false),
      meets (put (staged) (waits (.waiting .credit) (cmdOf 16 0x21 [])))
      (fun s => (s.ring 16).cmds = [(waits (.waiting .credit) (cmdOf 16 0x21 []))] ∧ heldByPause s
      (waits (.waiting .credit) (cmdOf 16 0x21 [])) = false ∧ ((waits (.waiting .credit)
      (cmdOf 16 0x21 []))).start.isSome = true ∧ ((waits (.waiting .credit)
      (cmdOf 16 0x21 []))).namesDie.all (fun d => s.diePaused d == false) = true ∧ (heldRanges s
      (waits (.waiting .credit) (cmdOf 16 0x21 []))).2.any (fun r => s.rangeCut (heldRanges s
      (waits (.waiting .credit) (cmdOf 16 0x21 []))).1 r.1 r.2) = false),
      meets (put (staged) (waits (.waiting .prefetchClose) (cmdOf 16 0x31 [])))
      (fun s => (s.ring 16).cmds = [(waits (.waiting .prefetchClose) (cmdOf 16 0x31 []))] ∧ heldByPause s
      (waits (.waiting .prefetchClose) (cmdOf 16 0x31 [])) = false ∧ ((waits (.waiting .prefetchClose)
      (cmdOf 16 0x31 []))).start.isSome = true ∧ ((waits (.waiting .prefetchClose)
      (cmdOf 16 0x31 []))).namesDie.all (fun d => s.diePaused d == false) = true ∧ (heldRanges s
      (waits (.waiting .prefetchClose) (cmdOf 16 0x31 []))).2.any (fun r => s.rangeCut (heldRanges s
      (waits (.waiting .prefetchClose) (cmdOf 16 0x31 []))).1 r.1 r.2) = false),
      meets (put (item staged 15 { dieMask := 0xFFF, prevKind := 1 }) (waits (.waiting .admission)
      (cmdOf 16 0x20 [(0, 1, 63)]))) (fun s => (s.ring 16).cmds = [(waits (.waiting .admission)
      (cmdOf 16 0x20 [(0, 1, 63)]))] ∧ heldByPause s (waits (.waiting .admission)
      (cmdOf 16 0x20 [(0, 1, 63)])) = false ∧ ((waits (.waiting .admission)
      (cmdOf 16 0x20 [(0, 1, 63)]))).start.isSome = true ∧ ((waits (.waiting .admission)
      (cmdOf 16 0x20 [(0, 1, 63)]))).namesDie.all (fun d => s.diePaused d == false) = true ∧ (heldRanges s
      (waits (.waiting .admission) (cmdOf 16 0x20 [(0, 1, 63)]))).2.any (fun r => s.rangeCut (heldRanges s
      (waits (.waiting .admission) (cmdOf 16 0x20 [(0, 1, 63)]))).1 r.1 r.2) = false ∧ ((waits (.waiting .admission)
      (cmdOf 16 0x20 [(0, 1, 63)]))).param 1 1 = 0 ∧ s.admitAnswer ((waits (.waiting .admission)
      (cmdOf 16 0x20 [(0, 1, 63)]))) = .lacks 0),
      meets (put { staged with log := { staged.log with recoveries := [{ cls := 8, unit := (staged.ring 16).core, since := 0 }] } } (waits (.waiting .admission) (cmdOf 16 0x20 [(1, 1, 1)]))) (fun s => (∃ d ∈ (s.ring 16).cmds, heldByPause s d = true))].all id = true :=
  by decide +kernel

theorem witness_PinsAreGrantedWhole :
    [begins (put ((staged.modMb 0 63
      (fun x => { x with state := .forward })).modLayer 4095 (fun l => { l with defined := true, newest := 3, slots := [(0, { serial := 3, state := .current, pins := 0 })] })) (cmdOf 1 0x30 [(0, 1, 63), (1, 1, 2), (2, 2, 4095), (4, 2, 1), (6, 2, 1), (8, 4, 5)])) 1 0x30 (fun c u => pinParams c = (63, 2, 4095, 1, 1) ∧
      (u.mb 0 63).admitted = true ∧ 2 ≤ 3 ∧ (2 ≤ 2 ∨ (1 : W16) = 0) ∧ ((put ((staged.modMb 0 63
      (fun x => { x with state := .forward })).modLayer 4095 (fun l => { l with defined := true, newest := 3, slots := [(0, { serial := 3, state := .current, pins := 0 })] })) (cmdOf 1 0x30 [(0, 1, 63), (1, 1, 2), (2, 2, 4095), (4, 2, 1), (6, 2, 1), (8, 4, 5)])).advance 0).closeDue = false ∧
      zeros c 64 (fun i => 12 ≤ i) ∧ u.pinAnswer 0 63 2 1 4095 1 = .gone 4095),
      begins (put ((staged.modMb 0 63
      (fun x => { x with state := .forward })).modLayer 4095 (fun l => { l with defined := true, newest := 3, slots := [(0, { serial := 3, state := .current, pins := 0 })] })) (cmdOf 1 0x30 [(0, 1, 63), (1, 1, 1), (2, 2, 4095), (4, 2, 0), (6, 2, 1), (8, 4, 5)])) 1 0x30 (fun c u => pinParams c = (63, 1, 4095, 0, 1) ∧
      (u.mb 0 63).admitted = true ∧ 1 ≤ 3 ∧ (2 ≤ 1 ∨ (0 : W16) = 0) ∧ ((put ((staged.modMb 0 63
      (fun x => { x with state := .forward })).modLayer 4095 (fun l => { l with defined := true, newest := 3, slots := [(0, { serial := 3, state := .current, pins := 0 })] })) (cmdOf 1 0x30 [(0, 1, 63), (1, 1, 1), (2, 2, 4095), (4, 2, 0), (6, 2, 1), (8, 4, 5)])).advance 0).closeDue = false ∧
      zeros c 64 (fun i => 12 ≤ i) ∧ u.pinAnswer 0 63 1 0 4095 1 = .grant [(4095, 0)] ∧ (u.layer 4095).shards ≤ 1 ∧
      (u.mb 0 63).pinOn 4095 = none ∧ u.coll.holdReqs = []),
      begins (put ((staged.modMb 0 63
      (fun x => { x with state := .forward })).modLayer 4095 (fun l => { l with defined := true, newest := 3, slots := [(0, { serial := 3, state := .current, pins := 0 })] })) (cmdOf 1 0x30 [(0, 1, 63), (1, 1, 3), (2, 2, 4095), (4, 2, 9), (6, 2, 1), (8, 4, 5)])) 1 0x30 (fun c u => pinParams c = (63, 3, 4095, 9, 1) ∧
      (u.mb 0 63).admitted = true ∧ 3 ≤ 3 ∧ (2 ≤ 3 ∨ (9 : W16) = 0) ∧ ((put ((staged.modMb 0 63
      (fun x => { x with state := .forward })).modLayer 4095 (fun l => { l with defined := true, newest := 3, slots := [(0, { serial := 3, state := .current, pins := 0 })] })) (cmdOf 1 0x30 [(0, 1, 63), (1, 1, 3), (2, 2, 4095), (4, 2, 9), (6, 2, 1), (8, 4, 5)])).advance 0).closeDue = false ∧
      zeros c 64 (fun i => 12 ≤ i) ∧ u.pinAnswer 0 63 3 9 4095 1 = .wait ∧ c.param 8 4 ≠ 0),
      meets (put ((staged.modMb 0 63
      (fun x => { x with state := .forward })).modLayer 4095 (fun l => { l with defined := true, newest := 3, slots := [(0, { serial := 3, state := .current, pins := 0 })] })) ({ waits (.waiting .pins) (cmdOf 1 0x30 [(0, 1, 63), (1, 1, 2), (2, 2, 4095), (4, 2, 1), (6, 2, 1), (8, 4, 5)]) with deadline := some 5 })) (fun s => s.findWait 1 7 .pins = some ({ waits (.waiting .pins) (cmdOf 1 0x30 [(0, 1, 63), (1, 1, 2), (2, 2, 4095), (4, 2, 1), (6, 2, 1), (8, 4, 5)]) with deadline := some 5 }) ∧
      (s.advance 0).pinAnswer 0 63 2 1 4095 1 = .gone 4095 ∧
      pinParams ({ waits (.waiting .pins) (cmdOf 1 0x30 [(0, 1, 63), (1, 1, 2), (2, 2, 4095), (4, 2, 1), (6, 2, 1), (8, 4, 5)]) with deadline := some 5 }) = (63, 2, 4095, 1, 1) ∧
      (s.advance 0).past (({ waits (.waiting .pins) (cmdOf 1 0x30 [(0, 1, 63), (1, 1, 2), (2, 2, 4095), (4, 2, 1), (6, 2, 1), (8, 4, 5)]) with deadline := some 5 })).deadline = false ∧
      (s.advance 0).closeDue = false),
      meets (put ((staged.modMb 0 63
      (fun x => { x with state := .forward })).modLayer 4095 (fun l => { l with defined := true, newest := 3, slots := [(0, { serial := 3, state := .current, pins := 0 })] })) ({ waits (.waiting .pins) (cmdOf 1 0x30 [(0, 1, 63), (1, 1, 3), (2, 2, 4095), (4, 2, 3), (6, 2, 1), (8, 4, 5)]) with deadline := some 5 })) (fun s => s.findWait 1 7 .pins = some ({ waits (.waiting .pins) (cmdOf 1 0x30 [(0, 1, 63), (1, 1, 3), (2, 2, 4095), (4, 2, 3), (6, 2, 1), (8, 4, 5)]) with deadline := some 5 }) ∧
      (s.advance 0).pinAnswer 0 63 3 3 4095 1 = .grant [(4095, 0)] ∧
      pinParams ({ waits (.waiting .pins) (cmdOf 1 0x30 [(0, 1, 63), (1, 1, 3), (2, 2, 4095), (4, 2, 3), (6, 2, 1), (8, 4, 5)]) with deadline := some 5 }) = (63, 3, 4095, 3, 1) ∧
      (s.advance 0).past (({ waits (.waiting .pins) (cmdOf 1 0x30 [(0, 1, 63), (1, 1, 3), (2, 2, 4095), (4, 2, 3), (6, 2, 1), (8, 4, 5)]) with deadline := some 5 })).deadline = false ∧
      (s.advance 0).closeDue = false ∧
      ((s.advance 0).takePins (({ waits (.waiting .pins) (cmdOf 1 0x30 [(0, 1, 63), (1, 1, 3), (2, 2, 4095), (4, 2, 3), (6, 2, 1), (8, 4, 5)]) with deadline := some 5 })).ref 0 63 [(4095, 0)]).1.holdsDone (({ waits (.waiting .pins) (cmdOf 1 0x30 [(0, 1, 63), (1, 1, 3), (2, 2, 4095), (4, 2, 3), (6, 2, 1), (8, 4, 5)]) with deadline := some 5 })).ref = true),
      meets ({ put ((staged.modMb 0 63 (fun x => { x with state := .forward })).modLayer 4095 (fun l => { l with defined := true, newest := 3, slots := [(0, { serial := 3, state := .current, pins := 0 })] })) ({ waits (.waiting .pins) (cmdOf 1 0x30 [(0, 1, 63), (1, 1, 3), (2, 2, 4095), (4, 2, 9), (6, 2, 1), (8, 4, 5)]) with deadline := some 5 }) with tide := 5 }) (fun s => s.findWait 1 7 .pins = some ({ waits (.waiting .pins) (cmdOf 1 0x30 [(0, 1, 63), (1, 1, 3), (2, 2, 4095), (4, 2, 9), (6, 2, 1), (8, 4, 5)]) with deadline := some 5 }) ∧
      (({ waits (.waiting .pins) (cmdOf 1 0x30 [(0, 1, 63), (1, 1, 3), (2, 2, 4095), (4, 2, 9), (6, 2, 1), (8, 4, 5)]) with deadline := some 5 })).deadline = some 5 ∧
      5 ≤ (s.advance 0).tide ∧ (s.advance 0).closeDue = false),
      begins (put ((staged.modMb 0 63
      (fun x => { x with state := .forward })).modLayer 4095 (fun l => { l with defined := true, newest := 3, shards := 4, slots := [(0, { serial := 3, state := .current })] })) (cmdOf 1 0x30 [(0, 1, 63), (1, 1, 1), (2, 2, 4095), (4, 2, 0), (6, 2, 1), (8, 4, 5)])) 1 0x30 (fun c u => pinParams c = (63, 1, 4095, 0, 1) ∧
      (u.mb 0 63).admitted = true ∧ 1 ≤ 3 ∧ (2 ≤ 1 ∨ (0 : W16) = 0) ∧ ((put ((staged.modMb 0 63
      (fun x => { x with state := .forward })).modLayer 4095 (fun l => { l with defined := true, newest := 3, shards := 4, slots := [(0, { serial := 3, state := .current })] })) (cmdOf 1 0x30 [(0, 1, 63), (1, 1, 1), (2, 2, 4095), (4, 2, 0), (6, 2, 1), (8, 4, 5)])).advance 0).closeDue = false ∧
      zeros c 64 (fun i => 12 ≤ i) ∧ u.pinAnswer 0 63 1 0 4095 1 = .grant [(4095, 0)] ∧
      (u.takePins c.ref 0 63 [(4095, 0)]).1.holdsDone c.ref = false)].all id = true :=
  by decide +kernel

theorem witness_VersionsRetire :
    [begins (put ((staged.modMb 0 63
      (fun x => { x with state := .backward, pins := [(4095, 3, 0)] })).modLayer 4095 (fun l => { l with defined := true, newest := 3, slots := [(0, { serial := 3, state := .current, pins := 1 })] })) (cmdOf 1 0x31 [(0, 1, 63), (2, 2, 4094), (6, 2, 2)])) 1 0x31 (fun c u => c.param 0 1 = 63 ∧
      c.param 2 2 = 4094 ∧ c.param 6 2 = 2 ∧ (u.mb 0 63).admitted = true ∧
      zeros c 64 (fun i => i = 1 ∨ i = 4 ∨ i = 5 ∨ 8 ≤ i) ∧
      ((List.range 2).map (fun i => 4094 + i)).filter (fun l => ((u.mb 0 63).pinOn l).isSome) = [4095]),
      meets ({ on with tide := 9 }.modLayer 4095 (fun l => { l with defined := true, shards := 4, slots := [(0, { state := .old, grace := true, graceEnd := 9 })] })) (fun s => ((s.layer 4095).slot 0).state = .old ∧
      ((s.layer 4095).slot 0).grace = true ∧ ((s.layer 4095).slot 0).graceEnd ≤ (s.advance 0).tide),
      meets ({ on with tide := 9 }.modLayer 4095 (fun l => { l with defined := true, shards := 4, slots := [(0, { state := .current, pins := 1, renewAt := 9 })] })) (fun s => ((s.layer 4095).slot 0).state ≠ .free ∧
      0 < ((s.layer 4095).slot 0).pins ∧ 1 < (s.layer 4095).shards ∧
      ((s.layer 4095).slot 0).renewAt ≤ (s.advance 0).tide),
      meets ({ on with tide := 9 }.modLayer 4095 (fun l => { l with defined := true, shards := 4, slots := [(0, { state := .old, serial := 6, holds := [(5, 1, 8)] })] })) (fun s => ((s.layer 4095).slot 0).holds = [(5, 1, 8)] ∧
      8 < (s.advance 0).tide),
      meets ({ on with tide := 9 }.modLayer 4095 (fun l => { l with defined := true, shards := 4, slots := [(7, { state := .old, grace := true, graceEnd := 9 })] })) (fun s => ((s.layer 4095).slot 7).state = .old ∧
      ((s.layer 4095).slot 7).grace = true ∧ ((s.layer 4095).slot 7).graceEnd ≤ (s.advance 0).tide),
      meets ({ on with tide := 9 }.modLayer 4095 (fun l => { l with defined := true, shards := 4, slots := [(7, { state := .current, pins := 1, renewAt := 9 })] })) (fun s => ((s.layer 4095).slot 7).state ≠ .free ∧
      0 < ((s.layer 4095).slot 7).pins ∧ 1 < (s.layer 4095).shards ∧
      ((s.layer 4095).slot 7).renewAt ≤ (s.advance 0).tide),
      meets ({ on with tide := 9 }.modLayer 4095 (fun l => { l with defined := true, shards := 4, slots := [(7, { state := .old, serial := 6, holds := [(5, 1, 8)] })] })) (fun s => ((s.layer 4095).slot 7).holds = [(5, 1, 8)] ∧
      8 < (s.advance 0).tide),
      meets (put { on with tide := 1000000, coll := { on.coll with holdReqs := [{ cmd := ((waits (.waiting .holds) (cmdOf 1 0x30 []))).ref, reqId := 1, layer := 4, serial := 3, waiting := [2], acked := [], sentAt := 0 }] } } (waits (.waiting .holds) (cmdOf 1 0x30 []))) (fun s => s.findWait 1 7 .holds = some (waits (.waiting .holds) (cmdOf 1 0x30 [])) ∧
      ({ cmd := ((waits (.waiting .holds) (cmdOf 1 0x30 []))).ref, reqId := 1, layer := 4, serial := 3, waiting := [2], acked := [], sentAt := 0 } : HoldReq) ∈ s.coll.holdReqs ∧
      ({ cmd := ((waits (.waiting .holds) (cmdOf 1 0x30 []))).ref, reqId := 1, layer := 4, serial := 3, waiting := [2], acked := [], sentAt := 0 } : HoldReq).cmd = ((waits (.waiting .holds) (cmdOf 1 0x30 []))).ref ∧
      ({ cmd := ((waits (.waiting .holds) (cmdOf 1 0x30 []))).ref, reqId := 1, layer := 4, serial := 3, waiting := [2], acked := [], sentAt := 0 } : HoldReq).waiting ≠ [] ∧
      ({ cmd := ((waits (.waiting .holds) (cmdOf 1 0x30 []))).ref, reqId := 1, layer := 4, serial := 3, waiting := [2], acked := [], sentAt := 0 } : HoldReq).sentAt + 1000000 ≤ (s.advance 0).tide),
      begins (put ((staged.modMb 0 63
      (fun x => { x with state := .forward, dropped := true, pins := [(4095, 3, 0)] })).modLayer 4095 (fun l => { l with defined := true, newest := 3, slots := [(0, { serial := 3, state := .current, pins := 1 })] })) (cmdOf 1 0x31 [(0, 1, 63), (2, 2, 4094), (6, 2, 2)])) 1 0x31 (fun c u => c.param 0 1 = 63 ∧
      c.param 2 2 = 4094 ∧ c.param 6 2 = 2 ∧ (u.mb 0 63).admitted = true ∧
      zeros c 64 (fun i => i = 1 ∨ i = 4 ∨ i = 5 ∨ 8 ≤ i) ∧ (u.mb 0 63).dropped = true)].all id = true :=
  by decide +kernel

theorem witness_ShardsAreHeldAndGathered :
    [begins (put (staged.modLayer 4095 (fun l => { l with defined := true, shards := 4, workBytes := 256, workStride := 256, workAddr := 0x2000000000000000, slots := [(7, { serial := 3, state := .current, epoch := 1 })] })) (cmdOf 1 0x32 [(1, 1, 0xFF), (2, 2, 4095), (4, 2, 3), (8, 2, 4), (0x20, 4, 256)])) 1 0x32 (fun c u => lowestFail (gatherChecks u c) = none ∧
      u.gatherSlot 0 (c.param 1 1) 4095 3 = some 7 ∧ ((u.layer 4095).slot 7).epoch ≠ u.commit.layoutEpoch),
      begins (put (staged.modLayer 4095 (fun l => { l with defined := true, shards := 4, workBytes := 256, workStride := 256, workAddr := 0x2000000000000000, slots := [(7, { serial := 3, state := .current, epoch := 0 })] })) (cmdOf 1 0x32 [(1, 1, 0xFF), (2, 2, 4095), (4, 2, 3), (8, 2, 4), (0x20, 4, 256)])) 1 0x32 (fun c u => lowestFail (gatherChecks u c) = none ∧
      u.gatherSlot 0 (c.param 1 1) 4095 3 = some 7 ∧ ((u.layer 4095).slot 7).epoch = u.commit.layoutEpoch ∧
      c.param 1 1 = 0xFF ∧ (u.die (c.param 0 1)).outOfService = false ∧ u.ownServed c = true),
      meets ((port { (staged.modLayer 4095 (fun l => { l with defined := true, shards := 4, workBytes := 256, workStride := 256, workAddr := 0x2000000000000000, slots := [(7, { serial := 3, state := .current, epoch := 0 })] })) with tide := 1, coll := { on.coll with shardMap := [(2, { module := 9, valid := true })] }, conf := { on.conf with address := 5 } } 7 5)) (fun s => s.portActive 7 = true ∧
      s.roleOf 7 = 5 ∧ s.dma.units = [] ∧ 0 < (s.advance 0).tide ∧ (5#16 : W16) = s.conf.address ∧
      (1#16) ≠ s.commit.layoutEpoch),
      meets ((port { (staged.modLayer 4095 (fun l => { l with defined := true, shards := 4, workBytes := 256, workStride := 256, workAddr := 0x2000000000000000, slots := [(7, { serial := 3, state := .current, epoch := 0 })] })) with tide := 1, coll := { on.coll with shardMap := [(2, { module := 9, valid := true })] }, conf := { on.conf with address := 5 } } 7 5)) (fun s => s.portActive 7 = true ∧
      s.roleOf 7 = 5 ∧ s.dma.units = [] ∧ 0 < (s.advance 0).tide ∧ (5#16 : W16) = s.conf.address ∧
      (0#16) = s.commit.layoutEpoch ∧ (s.layer 4095).holdIdx 3 9 6 = some 7 ∧ s.rankOf 9 = some 2),
      meets ((port { (staged.modLayer 4095 (fun l => { l with defined := true, shards := 4, workBytes := 256, workStride := 256, workAddr := 0x2000000000000000, slots := [(7, { serial := 3, state := .current, holds := [(9, 6, 4), (9, 5, 4), (8, 6, 4)], epoch := 0 })] })) with tide := 1, coll := { on.coll with shardMap := [(2, { module := 9, valid := true })] }, conf := { on.conf with address := 5 } } 7 5)) (fun s => s.portActive 7 = true ∧
      s.roleOf 7 = 5 ∧ s.dma.units = [] ∧ 0 < (s.advance 0).tide ∧ (5#16 : W16) = s.conf.address ∧
      (s.layer 4095).holdIdx 3 9 6 = some 7 ∧ ((s.layer 4095).slot 7).state ≠ .old),
      begins (put (staged.modLayer 4095 (fun l => { l with defined := true, shards := 4, ownShard := 1, workBytes := 256, workStride := 256, workAddr := 0x2000000000000000, slots := [(7, { serial := 3, state := .current, epoch := 0 })] })) (cmdOf 1 0x32 [(1, 1, 0xFF), (2, 2, 4095), (4, 2, 9), (6, 2, 1), (8, 2, 3), (0x20, 4, 256)])) 1 0x32 (fun c u => lowestFail (gatherChecks u c) = none ∧
      u.gatherSlot 0 (c.param 1 1) 4095 9 = none ∧ c.param 1 1 = 0xFF),
      begins (put { (staged.modLayer 4095 (fun l => { l with defined := true, shards := 4, ownShard := 1, workBytes := 256, workStride := 256, workAddr := 0x2000000000000000, slots := [(7, { serial := 3, state := .current, epoch := 0 })] })) with dies := [(0, { service := 1 })] } (cmdOf 1 0x32 [(1, 1, 0xFF), (2, 2, 4095), (4, 2, 3), (6, 2, 1), (8, 2, 3), (0x20, 4, 256)])) 1 0x32 (fun c u => lowestFail (gatherChecks u c) = none ∧
      u.gatherSlot 0 (c.param 1 1) 4095 3 = some 7 ∧ ((u.layer 4095).slot 7).epoch = u.commit.layoutEpoch ∧
      u.dieRefuses 0 = true),
      begins (put { (staged.modLayer 4095 (fun l => { l with defined := true, shards := 4, ownShard := 1, workBytes := 256, workStride := 256, workAddr := 0x2000000000000000, slots := [(7, { serial := 3, state := .current, epoch := 0 })] })) with dies := [(0, { service := 3, outOfService := true })] } (cmdOf 1 0x32 [(1, 1, 0xFF), (2, 2, 4095), (4, 2, 3), (6, 2, 1), (8, 2, 3), (0x20, 4, 256)])) 1 0x32 (fun c u => lowestFail (gatherChecks u c) = none ∧
      u.gatherSlot 0 (c.param 1 1) 4095 3 = some 7 ∧ ((u.layer 4095).slot 7).epoch = u.commit.layoutEpoch ∧
      u.dieRefuses 0 = false ∧ u.ownServed c = true ∧ u.dieWaits 0 = true),
      begins (put (port { ((staged.modLayer 4095 (fun l => { l with defined := true, shards := 4, ownShard := 1, workBytes := 256, workStride := 256, workAddr := 0x2000000000000000, slots := [(7, { serial := 3, state := .current, epoch := 0 })] }))) with coll := { on.coll with shardMap := [(2, { module := 9, valid := true, port := 7 })] }, conf := { staged.conf with address := 5 } } 7 5) (cmdOf 1 0x32 [(1, 1, 0xFF), (2, 2, 4095), (4, 2, 3), (6, 2, 1), (8, 2, 3), (0x20, 4, 256)])) 1 0x32 (fun c u => lowestFail (gatherChecks u c) = none ∧
      u.gatherSlot 0 (c.param 1 1) 4095 3 = some 7 ∧ ((u.layer 4095).slot 7).epoch = u.commit.layoutEpoch ∧
      u.dieRefuses 0 = false ∧ u.ownServed c = true ∧ u.dieWaits 0 = false ∧ u.rankPort 2 = some 7 ∧
      u.findCmd c.ref = some c ∧ (u.layer 4095).ownShard = 1 ∧ ((u.layer 4095).slot 7).whole = true ∧
      fmtIsMx (u.layer 4095).workFmt = false ∧
      u.ownHeld c { cmd := c.ref, collId := 0, layer := 4095, serial := 3, slot := 7, first := 1, count := 3 } = false),
      meets ((port { (staged.modLayer 4095 (fun l => { l with defined := true, newest := 3, shards := 4, workBytes := 256, workStride := 256, workAddr := 0x2000000000000000, slots := [(7, { serial := 3, state := .current, epoch := 0 })] })) with tide := 1, coll := { on.coll with shardMap := [(2, { module := 9, valid := true, port := 7 })] }, conf := { on.conf with address := 5 } } 7 5)) (fun s => s.portActive 7 = true ∧
      s.roleOf 7 = 5 ∧ s.dma.units = [] ∧ 0 < (s.advance 0).tide ∧ (5#16 : W16) = s.conf.address ∧
      (0#16) = s.commit.layoutEpoch ∧ (s.layer 4095).holdIdx 3 9 6 = some 7 ∧ s.rankOf 9 = some 2 ∧
      s.rankPort 2 = some 7),
      meets ((port { (staged.modLayer 4095 (fun l => { l with defined := true, newest := 3, shards := 4, workBytes := 256, workStride := 256, workAddr := 0x2000000000000000, slots := [(7, { serial := 3, state := .current, epoch := 0 })] })) with tide := 1, coll := { on.coll with shardMap := [(2, { module := 9, valid := true, port := 7 })] }, conf := { on.conf with address := 5 } } 7 5)) (fun s => s.portActive 7 = true ∧
      s.roleOf 7 = 5 ∧ s.dma.units = [] ∧ 0 < (s.advance 0).tide ∧ (5#16 : W16) = s.conf.address ∧
      (0#16) = s.commit.layoutEpoch ∧ (s.layer 4095).holdIdx 2 9 6 = none ∧
      serialNewer 2 (s.layer 4095).newest = false ∧ s.rankOf 9 = some 2 ∧ s.rankPort 2 = some 7)].all id = true :=
  by decide +kernel

theorem witness_UpdatesStartAndWait :
    [begins (put programmed upd) 1 0x40 (fun c u => firstFail (updChecks u c) = none ∧
      u.dieRefuses (updP c).die = false ∧ u.partServed (updP c) = true ∧ u.dieWaits (updP c).die = false ∧
      u.progPoison (updP c) = none),
      begins (put programmed (cmdOf 1 0x40 [(2, 2, 4), (6, 2, 1), (8, 4, 1), (0x0C, 4, 32), (0x10, 8, 0x1000), (0x1C, 4, 0x100), (0x20, 8, 0x2000000000010000), (0x28, 8, 0x2000000000020000)])) 1 0x40 (fun c u => firstFail (updChecks u c) = some 8),
      begins (put { programmed with dies := [(0, { service := 1 })] } upd) 1 0x40
      (fun c u => firstFail (updChecks u c) = none ∧ u.dieRefuses (updP c).die = true),
      begins (put { programmed with dies := [(0, { service := 3, outOfService := true })] } upd) 1 0x40
      (fun c u => firstFail (updChecks u c) = none ∧ u.dieRefuses (updP c).die = false ∧ u.partServed (updP c) = true ∧
      u.dieWaits (updP c).die = true),
      begins ({ (put programmed upd).modLayer 4 (fun l => { l with workAddr := 0x4500000000000000 }) with dies := [(5, { service := 2, outOfService := true })] }) 1 0x40 (fun c u => firstFail (updChecks u c) = none ∧
      u.partServed (updP c) = false),
      begins (put layered (cmdOf 1 0x33 [(1, 1, 1), (2, 2, 4), (8, 4, 32), (0x10, 8, 0x2000000000010000), (0x18, 8, 0x2000000000020000), (0x20, 8, 0x6000000000000000)])) 1 0x33 (fun c u => lowestFail (prefetchChecks u c) = none ∧
      c.seq = 7 ∧ ((put layered
      (cmdOf 1 0x33 [(1, 1, 1), (2, 2, 4), (8, 4, 32), (0x10, 8, 0x2000000000010000), (0x18, 8, 0x2000000000020000), (0x20, 8, 0x6000000000000000)])).ring 1).cmds.all (fun d => decide (d.seq = 7 → d.start = none)) = true ∧
      u.dieRefuses 0 = false ∧ (u.layer 4).hasProvisional = false ∧ u.stagedServed c = true ∧ u.stagedHeld c = false),
      begins (put (layered.modVSlot 4 1 (fun x => { x with serial := 4, state := .provisional }))
      (cmdOf 1 0x33 [(1, 1, 1), (2, 2, 4), (8, 4, 32), (0x10, 8, 0x2000000000010000), (0x18, 8, 0x2000000000020000), (0x20, 8, 0x6000000000000000)])) 1 0x33 (fun c u => lowestFail (prefetchChecks u c) = none ∧
      c.seq = 7 ∧ ((put (layered.modVSlot 4 1 (fun x => { x with serial := 4, state := .provisional }))
      (cmdOf 1 0x33 [(1, 1, 1), (2, 2, 4), (8, 4, 32), (0x10, 8, 0x2000000000010000), (0x18, 8, 0x2000000000020000), (0x20, 8, 0x6000000000000000)])).ring 1).cmds.all (fun d => decide (d.seq = 7 → d.start = none)) = true ∧
      u.dieRefuses 0 = false ∧ (u.layer 4).hasProvisional = true),
      begins (put { layered with dies := [(0, { service := 3, outOfService := true })] }
      (cmdOf 1 0x33 [(1, 1, 1), (2, 2, 4), (8, 4, 32), (0x10, 8, 0x2000000000010000), (0x18, 8, 0x2000000000020000), (0x20, 8, 0x6000000000000000)])) 1 0x33 (fun c u => lowestFail (prefetchChecks u c) = none ∧
      c.seq = 7 ∧ ((put { layered with dies := [(0, { service := 3, outOfService := true })] }
      (cmdOf 1 0x33 [(1, 1, 1), (2, 2, 4), (8, 4, 32), (0x10, 8, 0x2000000000010000), (0x18, 8, 0x2000000000020000), (0x20, 8, 0x6000000000000000)])).ring 1).cmds.all (fun d => decide (d.seq = 7 → d.start = none)) = true ∧
      u.dieRefuses 0 = false ∧ u.stagedServed c = true ∧ u.stagedHeld c = true),
      begins (put { layered with dies := [(0, { service := 1 })] }
      (cmdOf 1 0x33 [(1, 1, 1), (2, 2, 4), (8, 4, 32), (0x10, 8, 0x2000000000010000), (0x18, 8, 0x2000000000020000), (0x20, 8, 0x6000000000000000)])) 1 0x33 (fun c u => lowestFail (prefetchChecks u c) = none ∧
      c.seq = 7 ∧ ((put { layered with dies := [(0, { service := 1 })] }
      (cmdOf 1 0x33 [(1, 1, 1), (2, 2, 4), (8, 4, 32), (0x10, 8, 0x2000000000010000), (0x18, 8, 0x2000000000020000), (0x20, 8, 0x6000000000000000)])).ring 1).cmds.all (fun d => decide (d.seq = 7 → d.start = none)) = true ∧
      u.dieRefuses 0 = true),
      meets (put { layered with tide := 5 } ({ waits (.waiting .prefetchClose) (cmdOf 1 0x33 [(1, 1, 1), (2, 2, 4), (8, 4, 32), (0x10, 8, 0x2000000000010000), (0x18, 8, 0x2000000000020000), (0x20, 8, 0x6000000000000000)]) with deadline := some 5 })) (fun s => s.findWait 1 7 .prefetchClose = some ({ waits (.waiting .prefetchClose) (cmdOf 1 0x33 [(1, 1, 1), (2, 2, 4), (8, 4, 32), (0x10, 8, 0x2000000000010000), (0x18, 8, 0x2000000000020000), (0x20, 8, 0x6000000000000000)]) with deadline := some 5 }) ∧
      (({ waits (.waiting .prefetchClose) (cmdOf 1 0x33 [(1, 1, 1), (2, 2, 4), (8, 4, 32), (0x10, 8, 0x2000000000010000), (0x18, 8, 0x2000000000020000), (0x20, 8, 0x6000000000000000)]) with deadline := some 5 })).deadline = some 5 ∧
      5 ≤ (s.advance 0).tide),
      meets (put programmed ({ waits (.waiting .update) upd with deadline := some 5, aux := [0, 0, 0, 0] }))
      (fun s => s.findWait 1 7 .update = some ({ waits (.waiting .update) upd with deadline := some 5, aux := [0, 0, 0, 0] }) ∧
      updateCause (s.advance 0) ({ waits (.waiting .update) upd with deadline := some 5, aux := [0, 0, 0, 0] }) = none ∧
      (s.advance 0).updLate ({ waits (.waiting .update) upd with deadline := some 5, aux := [0, 0, 0, 0] }) = false ∧
      (s.die (updP ({ waits (.waiting .update) upd with deadline := some 5, aux := [0, 0, 0, 0] })).die).engine = none ∧
      (s.advance 0).partHeld (updP ({ waits (.waiting .update) upd with deadline := some 5, aux := [0, 0, 0, 0] })) 1 = false ∧
      ((s.advance 0).progImage (((s.advance 0).resolve [0, 1] (some 0) (updP ({ waits (.waiting .update) upd with deadline := some 5, aux := [0, 0, 0, 0] })).prog 64).getD 0)).nstate = 1 ∧
      (s.layer (updP ({ waits (.waiting .update) upd with deadline := some 5, aux := [0, 0, 0, 0] })).layer).partsTotal = none ∧
      (s.advance 0).partServed (updP ({ waits (.waiting .update) upd with deadline := some 5, aux := [0, 0, 0, 0] })) = true ∧
      (s.layer 4).stateIdx .writing = none ∧ (s.layer 4).stateIdx .free = some 1),
      meets (put (programmed.modLayer 4 (fun l => { l with partsTotal := some 2 })) ({ waits (.waiting .update) upd with deadline := some 5, aux := [0, 0, 0, 0] })) (fun s => s.findWait 1 7 .update = some ({ waits (.waiting .update) upd with deadline := some 5, aux := [0, 0, 0, 0] }) ∧
      updateCause (s.advance 0) ({ waits (.waiting .update) upd with deadline := some 5, aux := [0, 0, 0, 0] }) = none ∧
      (s.advance 0).updLate ({ waits (.waiting .update) upd with deadline := some 5, aux := [0, 0, 0, 0] }) = false ∧
      (s.die (updP ({ waits (.waiting .update) upd with deadline := some 5, aux := [0, 0, 0, 0] })).die).engine = none ∧
      (s.advance 0).partHeld (updP ({ waits (.waiting .update) upd with deadline := some 5, aux := [0, 0, 0, 0] })) 1 = false ∧
      ((s.advance 0).progImage (((s.advance 0).resolve [0, 1] (some 0) (updP ({ waits (.waiting .update) upd with deadline := some 5, aux := [0, 0, 0, 0] })).prog 64).getD 0)).nstate = 1 ∧
      (s.layer 4).partsTotal = some 2 ∧
      2 ≠ (updP ({ waits (.waiting .update) upd with deadline := some 5, aux := [0, 0, 0, 0] })).parts),
      meets ({ (put (programmed.modLayer 4 (fun l => { l with workAddr := 0x4500000000000000 })) ({ waits (.waiting .update) upd with deadline := some 5, aux := [0, 0, 0, 0] })) with dies := [(5, { service := 2, outOfService := true })] }) (fun s => s.findWait 1 7 .update = some ({ waits (.waiting .update) upd with deadline := some 5, aux := [0, 0, 0, 0] }) ∧
      updateCause (s.advance 0) ({ waits (.waiting .update) upd with deadline := some 5, aux := [0, 0, 0, 0] }) = none ∧
      (s.advance 0).updLate ({ waits (.waiting .update) upd with deadline := some 5, aux := [0, 0, 0, 0] }) = false ∧
      (s.die (updP ({ waits (.waiting .update) upd with deadline := some 5, aux := [0, 0, 0, 0] })).die).engine = none ∧
      (s.advance 0).partHeld (updP ({ waits (.waiting .update) upd with deadline := some 5, aux := [0, 0, 0, 0] })) 1 = false ∧
      ((s.advance 0).progImage (((s.advance 0).resolve [0, 1] (some 0) (updP ({ waits (.waiting .update) upd with deadline := some 5, aux := [0, 0, 0, 0] })).prog 64).getD 0)).nstate = 1 ∧
      (s.layer 4).partsTotal = none ∧
      (s.advance 0).partServed (updP ({ waits (.waiting .update) upd with deadline := some 5, aux := [0, 0, 0, 0] })) = false),
      meets (put (programmed.setEngine 0 (some (engine 0))) ({ waits (.waiting .update) upd with deadline := some 5, aux := [0, 0, 0, 0] })) (fun s => s.findWait 1 7 .update = some ({ waits (.waiting .update) upd with deadline := some 5, aux := [0, 0, 0, 0] }) ∧
      (s.die (updP ({ waits (.waiting .update) upd with deadline := some 5, aux := [0, 0, 0, 0] })).die).engine = some (engine 0)),
      meets (put { programmed with step := { programmed.step with started := true } } ({ waits (.waiting .update) upd with deadline := some 5, aux := [0, 0, 0, 0] })) (fun s => s.findWait 1 7 .update = some ({ waits (.waiting .update) upd with deadline := some 5, aux := [0, 0, 0, 0] }) ∧
      (updateCause (s.advance 0) ({ waits (.waiting .update) upd with deadline := some 5, aux := [0, 0, 0, 0] })).isSome = true),
      meets (put { programmed with tide := 6 } ({ waits (.waiting .update) upd with deadline := some 5, aux := [0, 0, 1, 0] })) (fun s => s.findWait 1 7 .update = some ({ waits (.waiting .update) upd with deadline := some 5, aux := [0, 0, 1, 0] }) ∧
      (s.advance 0).updLate ({ waits (.waiting .update) upd with deadline := some 5, aux := [0, 0, 1, 0] }) = true),
      meets (put { programmed with tide := 5, step := { programmed.step with started := true } } ({ waits (.waiting .update) upd with deadline := some 5, aux := [0, 0, 0, 0] })) (fun s => s.findWait 1 7 .update = some ({ waits (.waiting .update) upd with deadline := some 5, aux := [0, 0, 0, 0] }) ∧
      (({ waits (.waiting .update) upd with deadline := some 5, aux := [0, 0, 0, 0] })).deadline = some 5 ∧
      5 ≤ (s.advance 0).tide ∧
      (updateCause (s.advance 0) ({ waits (.waiting .update) upd with deadline := some 5, aux := [0, 0, 0, 0] })).isSome = true),
      meets (put (programmed.modVSlot 4 1
      (fun x => { x with serial := 4, state := .writing })) ({ waits (.waiting .update) upd with deadline := some 5, aux := [0, 0, 0, 0] })) (fun s => s.findWait 1 7 .update = some ({ waits (.waiting .update) upd with deadline := some 5, aux := [0, 0, 0, 0] }) ∧
      s.ofOpenStep ({ waits (.waiting .update) upd with deadline := some 5, aux := [0, 0, 0, 0] }) = true ∧
      (s.layer 4).stateIdx .writing = some 1)].all id = true :=
  by decide +kernel

theorem witness_EngineArithmetic :
    [meets (running 77664448) (fun s => (s.die 0).engine = some (engine 77664448) ∧ s.findCmd upd.ref = some
      (waits .running upd) ∧ (s.advance 0).partHeld (updP upd) 1 = false ∧ iOp 77664448 = 1),
      meets (running 144773312) (fun s => (s.die 0).engine = some (engine 144773312) ∧ s.findCmd upd.ref = some
      (waits .running upd) ∧ (s.advance 0).partHeld (updP upd) 1 = false ∧ iOp 144773312 = 2),
      meets (running 211882176) (fun s => (s.die 0).engine = some (engine 211882176) ∧ s.findCmd upd.ref = some
      (waits .running upd) ∧ (s.advance 0).partHeld (updP upd) 1 = false ∧ iOp 211882176 = 3),
      meets (running 278991040) (fun s => (s.die 0).engine = some (engine 278991040) ∧ s.findCmd upd.ref = some
      (waits .running upd) ∧ (s.advance 0).partHeld (updP upd) 1 = false ∧ iOp 278991040 = 4),
      meets (running 346099904) (fun s => (s.die 0).engine = some (engine 346099904) ∧ s.findCmd upd.ref = some
      (waits .running upd) ∧ (s.advance 0).partHeld (updP upd) 1 = false ∧ iOp 346099904 = 5),
      meets (running 413208768) (fun s => (s.die 0).engine = some (engine 413208768) ∧ s.findCmd upd.ref = some
      (waits .running upd) ∧ (s.advance 0).partHeld (updP upd) 1 = false ∧ iOp 413208768 = 6),
      meets (running 480317632) (fun s => (s.die 0).engine = some (engine 480317632) ∧ s.findCmd upd.ref = some
      (waits .running upd) ∧ (s.advance 0).partHeld (updP upd) 1 = false ∧ iOp 480317632 = 7),
      meets (running 547426496) (fun s => (s.die 0).engine = some (engine 547426496) ∧ s.findCmd upd.ref = some
      (waits .running upd) ∧ (s.advance 0).partHeld (updP upd) 1 = false ∧ iOp 547426496 = 8),
      meets (running 614535360) (fun s => (s.die 0).engine = some (engine 614535360) ∧ s.findCmd upd.ref = some
      (waits .running upd) ∧ (s.advance 0).partHeld (updP upd) 1 = false ∧ iOp 614535360 = 9),
      meets (running 681644224) (fun s => (s.die 0).engine = some (engine 681644224) ∧ s.findCmd upd.ref = some
      (waits .running upd) ∧ (s.advance 0).partHeld (updP upd) 1 = false ∧ iOp 681644224 = 10),
      meets (running 748753088) (fun s => (s.die 0).engine = some (engine 748753088) ∧ s.findCmd upd.ref = some
      (waits .running upd) ∧ (s.advance 0).partHeld (updP upd) 1 = false ∧ iOp 748753088 = 11)].all id = true :=
  by decide +kernel

theorem witness_EngineStores :
    [meets (running 805376000) (fun s => (s.die 0).engine = some (engine 805376000) ∧ s.findCmd upd.ref = some
      (waits .running upd) ∧ (s.advance 0).partHeld (updP upd) 1 = false ∧ iOp 805376000 = 12 ∧ iX 805376000 < 4),
      meets (running 805376003) (fun s => (s.die 0).engine = some (engine 805376003) ∧ s.findCmd upd.ref = some
      (waits .running upd) ∧ (s.advance 0).partHeld (updP upd) 1 = false ∧ iOp 805376003 = 12 ∧ iX 805376003 < 4),
      meets (running 872480768) (fun s => (s.die 0).engine = some (engine 872480768) ∧ s.findCmd upd.ref = some
      (waits .running upd) ∧ (s.advance 0).partHeld (updP upd) 1 = false ∧ iOp 872480768 = 13),
      meets ((put layered (waits .running upd)).setEngine 0 (some { engine 872480768 with regs := [(1, [0x7F800000])] })) (fun s => (s.die 0).engine = some ({ engine 872480768 with regs := [(1, [0x7F800000])] }) ∧
      s.findCmd upd.ref = some (waits .running upd) ∧ (s.advance 0).partHeld (updP upd) 1 = false ∧ iOp 872480768 = 13 ∧
      f32NonFinite (({ engine 872480768 with regs := [(1, [0x7F800000])] } : Engine).operand 1 0) = true),
      meets (running 939589632) (fun s => (s.die 0).engine = some (engine 939589632) ∧ s.findCmd upd.ref = some
      (waits .running upd) ∧ (s.advance 0).partHeld (updP upd) 1 = false ∧ iOp 939589632 = 14 ∧
      fmtIsMx (s.layer 4).workFmt = false),
      meets ((running 939589632).modLayer 4 (fun l => { l with workFmt := 5, scaleBytes := 256 }))
      (fun s => (s.die 0).engine = some (engine 939589632) ∧ s.findCmd upd.ref = some (waits .running upd) ∧
      (s.advance 0).partHeld (updP upd) 1 = false ∧ iOp 939589632 = 14 ∧ fmtIsMx (s.layer 4).workFmt = true ∧
      0 + 1 < 32),
      meets (running 1006698496) (fun s => (s.die 0).engine = some (engine 1006698496) ∧ s.findCmd upd.ref = some
      (waits .running upd) ∧ (s.advance 0).partHeld (updP upd) 1 = false ∧ iOp 1006698496 = 15 ∧
      0 + 1 < (updP upd).map.count),
      meets ((put layered (waits .running upd)).setEngine 0 (some { engine 1006698496 with elem := 31 }))
      (fun s => (s.die 0).engine = some ({ engine 1006698496 with elem := 31 }) ∧ s.findCmd upd.ref = some
      (waits .running upd) ∧ (s.advance 0).partHeld (updP upd) 1 = false ∧ iOp 1006698496 = 15 ∧
      (updP upd).map.count ≤ 31 + 1),
      meets (running 65536) (fun s => (s.die 0).engine = some (engine 65536) ∧ s.findCmd upd.ref = some
      (waits .running upd) ∧ (s.advance 0).partHeld (updP upd) 1 = false ∧ iOp 65536 = 0 ∧
      0 + 1 < (updP upd).map.count),
      meets ((put layered (waits .running upd)).setEngine 0 (some { engine 65536 with elem := 31 }))
      (fun s => (s.die 0).engine = some ({ engine 65536 with elem := 31 }) ∧ s.findCmd upd.ref = some
      (waits .running upd) ∧ (s.advance 0).partHeld (updP upd) 1 = false ∧ iOp 65536 = 0 ∧
      (updP upd).map.count ≤ 31 + 1),
      meets (running 805376004) (fun s => (s.die 0).engine = some (engine 805376004) ∧ s.findCmd upd.ref = some
      (waits .running upd) ∧ (s.advance 0).partHeld (updP upd) 1 = false ∧ iOp 805376004 = 12 ∧ iX 805376004 = 4),
      meets (running 939589633) (fun s => (s.die 0).engine = some (engine 939589633) ∧ s.findCmd upd.ref = some
      (waits .running upd) ∧ (s.advance 0).partHeld (updP upd) 1 = false ∧ iOp 939589633 = 14 ∧
      fmtIsMx (s.layer 4).workFmt = false ∧ iX 939589633 = 1)].all id = true :=
  by decide +kernel

theorem witness_TimeFramesAreExchanged :
    [meets (port { on with tide := 500, commit := { on.commit with configEpoch := 2 } } 0 3)
      (fun s => s.portActive 0 = true ∧ 1 ≤ s.roleOf 0 ∧ s.roleOf 0 ≤ 6 ∧ (s.port 0).queue = [] ∧
      (s.port 0).unacked < 256 ∧ s.dma.units = []),
      meets (port { on with tide := 500, commit := { on.commit with configEpoch := 2 } } 0 3)
      (fun s => s.portActive 0 = true ∧ 1 ≤ s.roleOf 0 ∧ s.roleOf 0 ≤ 6 ∧
      doubleDelay (s.advance 0).tide 300 { echoSend := 0, echoRx := 200, hops := 3 } = 400),
      meets (port { on with tide := 500, commit := { on.commit with configEpoch := 2 } } 0 3)
      (fun s => s.portActive 0 = true ∧ 1 ≤ s.roleOf 0 ∧ s.roleOf 0 ≤ 6 ∧
      doubleDelay (s.advance 0).tide 300 { echoSend := 100, echoRx := 200, hops := 3 } = 300),
      meets (port { on with tide := 500, commit := { on.commit with configEpoch := 2 } } 7 3)
      (fun s => s.portActive 7 = true ∧ 1 ≤ s.roleOf 7 ∧ s.roleOf 7 ≤ 6 ∧ (s.port 7).queue = [] ∧
      (s.port 7).unacked < 256 ∧ s.dma.units = []),
      meets (port { on with tide := 500, commit := { on.commit with configEpoch := 2 } } 7 3)
      (fun s => s.portActive 7 = true ∧ 1 ≤ s.roleOf 7 ∧ s.roleOf 7 ≤ 6 ∧
      doubleDelay (s.advance 0).tide 300 { echoSend := 0, echoRx := 200, hops := 3 } = 400),
      meets (port { on with tide := 500, commit := { on.commit with configEpoch := 2 } } 7 3)
      (fun s => s.portActive 7 = true ∧ 1 ≤ s.roleOf 7 ∧ s.roleOf 7 ≤ 6 ∧
      doubleDelay (s.advance 0).tide 300 { echoSend := 100, echoRx := 200, hops := 3 } = 300),
      meets ({ (port on 7 3) with tide := 500, conf := { (port on 7 3).conf with refPort := 7 } })
      (fun s => s.portActive 7 = true ∧ 1 ≤ s.roleOf 7 ∧ s.roleOf 7 ≤ 6 ∧ s.power.step ≠ 10 ∧ s.power.ready = true ∧
      s.conf.refPort = 7 ∧ s.conf.isReference = false ∧ s.conf.sourceSelect ≠ 1 ∧ s.time.source ≠ 1 ∧
      ({ echoSend := 100, echoRx := 200, hops := 3 } : TimeF).hops ≠ 0xFF),
      meets ({ (port on 7 3) with tide := 500, power := { on.power with step := 10, ready := false } })
      (fun s => s.portActive 7 = true ∧ 1 ≤ s.roleOf 7 ∧ s.roleOf 7 ≤ 6 ∧ s.power.phase = .serving ∧ s.power.step = 10 ∧
      s.power.ready = false)].all id = true :=
  by decide +kernel

theorem witness_LinksTrain :
    [meets (on.modPort 7 (fun x => { x with train := { x.train with state := .detect } }))
      (fun s => (s.port 7).train.state = .detect ∧ 7 < s.nPorts ∧ (s.port 7).train.lastLook = none),
      meets (on.modPort 7 (fun x => { x with train := { x.train with state := .down } }))
      (fun s => (s.port 7).train.state = .down ∧ 7 < s.nPorts ∧ (s.port 7).train.lastLook = none),
      meets (on.modPort 7 (fun x => { x with train := { x.train with state := .calibrate } }))
      (fun s => (s.train (.port 7)).state = .calibrate),
      meets (on.modPort 7 (fun x => { x with train := { x.train with state := .align } }))
      (fun s => (s.train (.port 7)).state = .align),
      meets (on.modTrain (.seam 0) (fun x => { x with state := .align })) (fun s => (s.train (.seam 0)).state = .align),
      meets ({ on.modPort 7 (fun x => { x with train := { x.train with state := .roleWait } }) with tide := 1000000 })
      (fun s => (s.port 7).train.state = .roleWait ∧ (s.port 7).train.attemptStart + 1000000 ≤ (s.advance 0).tide),
      meets ({ on.modPort 7 (fun x => { x with train := { x.train with state := .width, attempt := 0 } }) with tide := 20000 }) (fun s => (s.train (.port 7)).state = .width ∧
      (s.train (.port 7)).attemptStart + 20000 ≤ (s.advance 0).tide ∧ (s.train (.port 7)).attempt = 0 ∧
      s.log.recoveries.all (fun r => r.ofLink (.port 7) == false)),
      meets ({ on.modPort 7 (fun x => { x with train := { x.train with state := .width, attempt := 1 } }) with tide := 20000 }) (fun s => (s.train (.port 7)).state = .width ∧
      (s.train (.port 7)).attemptStart + 20000 ≤ (s.advance 0).tide ∧ (s.train (.port 7)).attempt = 1 ∧
      s.log.recoveries.all (fun r => r.ofLink (.port 7) == false)),
      meets ({ on.modPort 7 (fun x => { x with train := { x.train with state := .width, attempt := 2 } }) with tide := 20000 }) (fun s => (s.train (.port 7)).state = .width ∧
      (s.train (.port 7)).attemptStart + 20000 ≤ (s.advance 0).tide ∧ (s.train (.port 7)).attempt = 2 ∧
      s.log.recoveries.all (fun r => r.ofLink (.port 7) == false)),
      meets ({ on.modPort 7 (fun x => { x with train := { x.train with state := .width, attempt := 3 } }) with tide := 20000 }) (fun s => (s.train (.port 7)).state = .width ∧
      (s.train (.port 7)).attemptStart + 20000 ≤ (s.advance 0).tide ∧ (s.train (.port 7)).attempt = 3 ∧
      s.log.recoveries.all (fun r => r.ofLink (.port 7) == false)),
      meets (port on 7 3) (fun s => trainingWord (area 28 [] ++ toBytes 4 (0 : BitVec 32).toNat) = none ∧
      (s.port 7).train.state = .active),
      meets (port on 7 3) (fun s => trainingWord ((trainingFields 3 { trainId := 5, attempt := 1, mask := 0xFF, module := 9, port := 2 }) ++ toBytes 4 (BitVec.ofNat 32 (crc32c (trainingFields 3 { trainId := 5, attempt := 1, mask := 0xFF, module := 9, port := 2 }))).toNat) = some { trainId := 5, attempt := 1, mask := 0xFF, module := 9, port := 2 } ∧
      (s.port 7).train.state = .active),
      meets (on.modPort 7 (fun x => { x with train := { x.train with state := .width } }))
      (fun s => trainingWord ((trainingFields 3 { trainId := 5, attempt := 1, mask := 0xFF, module := 9, port := 2 }) ++ toBytes 4 (BitVec.ofNat 32 (crc32c (trainingFields 3 { trainId := 5, attempt := 1, mask := 0xFF, module := 9, port := 2 }))).toNat) = some { trainId := 5, attempt := 1, mask := 0xFF, module := 9, port := 2 } ∧
      (s.train (.port 7)).state = .width),
      meets (on.modPort 7 (fun x => { x with train := { x.train with state := .roleWait } }))
      (fun s => trainingWord ((trainingFields 3 { trainId := 5, attempt := 1, mask := 0xFF, module := 9, port := 2 }) ++ toBytes 4 (BitVec.ofNat 32 (crc32c (trainingFields 3 { trainId := 5, attempt := 1, mask := 0xFF, module := 9, port := 2 }))).toNat) = some { trainId := 5, attempt := 1, mask := 0xFF, module := 9, port := 2 } ∧
      (s.train (.port 7)).state = .roleWait),
      meets ((port on 7 3)) (fun s => s.portActive 7 = true ∧ (s.port 7).train.tooMany = none ∧
      ({ header := codewordHeader 0 0 false false } : CodewordIn).errors = [] ∧ (s.port 7).queue = [] ∧
      cwNak { header := codewordHeader 0 0 false false } = false ∧
      cwIdle { header := codewordHeader 0 0 false false } = false ∧
      cwSeq { header := codewordHeader 0 0 false false } = (s.port 7).expected ∧
      ({ header := codewordHeader 0 0 false false } : CodewordIn).crcFirst = none ∧ (s.port 7).failing = []),
      meets ((port on 7 3)) (fun s => s.portActive 7 = true ∧ (s.port 7).train.tooMany = none ∧
      ({ header := codewordHeader 0 0 false false, crcFirst := some 510 } : CodewordIn).errors = [] ∧
      (s.port 7).queue = [] ∧ cwNak { header := codewordHeader 0 0 false false, crcFirst := some 510 } = false ∧
      cwIdle { header := codewordHeader 0 0 false false, crcFirst := some 510 } = false ∧
      cwSeq { header := codewordHeader 0 0 false false, crcFirst := some 510 } = (s.port 7).expected ∧
      ({ header := codewordHeader 0 0 false false, crcFirst := some 510 } : CodewordIn).crcFirst = some 510 ∧
      (s.port 7).failing = []),
      meets ((port on 7 3).modPort 7 (fun x => { x with failing := [(0, 14)] })) (fun s => s.portActive 7 = true ∧
      (s.port 7).train.tooMany = none ∧ uncorrectable { errors := List.range 16 } = true ∧
      (s.port 7).failing = [(0, 14)]),
      meets ({ on.modPort 7 (fun x => { x with train := { x.train with state := .detect, lastLook := some 0 } }) with tide := 1000000 }) (fun s => (s.port 7).train.state = .detect ∧
      7 < s.nPorts ∧ (s.port 7).train.lastLook = some 0 ∧ 0 + 1000000 ≤ (s.advance 0).tide ∧
      s.power.phase ≠ .starting),
      meets ({ on.modPort 7 (fun x => { x with train := { x.train with state := .down, lastLook := some 0 } }) with tide := 1000000 }) (fun s => (s.port 7).train.state = .down ∧
      7 < s.nPorts ∧ (s.port 7).train.lastLook = some 0 ∧ 0 + 1000000 ≤ (s.advance 0).tide ∧
      s.power.phase ≠ .starting),
      meets ((port on 7 3).modPort 7
      (fun x => { x with train := { x.train with state := .width, trainId := 5, attempt := 1 } }))
      (fun s => trainingWord ((trainingFields 3 { trainId := 5, attempt := 1, mask := 0x0F, module := 9, port := 2, role := 3 }) ++ toBytes 4 (BitVec.ofNat 32 (crc32c (trainingFields 3 { trainId := 5, attempt := 1, mask := 0x0F, module := 9, port := 2, role := 3 }))).toNat) = some { trainId := 5, attempt := 1, mask := 0x0F, module := 9, port := 2, role := 3 } ∧
      (s.train (.port 7)).state = .width ∧ (s.train (.port 7)).trainId = 5 ∧ (s.train (.port 7)).peerConfirm = none),
      meets ((port on 7 3).modPort 7
      (fun x => { x with train := { x.train with state := .width, trainId := 5, attempt := 1, ownAgreed := some 0x0F, peerOffer := some { trainId := 5, attempt := 1, mask := 0x0F, module := 9, port := 2, role := 3 } } })) (fun s => trainingWord ((trainingFields 3 { trainId := 5, attempt := 1, confirm := true, mask := 0x0F, agreed := 0x0F, module := 9, port := 2, role := peerRole 3 }) ++ toBytes 4 (BitVec.ofNat 32 (crc32c (trainingFields 3 { trainId := 5, attempt := 1, confirm := true, mask := 0x0F, agreed := 0x0F, module := 9, port := 2, role := peerRole 3 }))).toNat) = some { trainId := 5, attempt := 1, confirm := true, mask := 0x0F, agreed := 0x0F, module := 9, port := 2, role := peerRole 3 } ∧
      (s.train (.port 7)).state = .width ∧ (s.train (.port 7)).trainId = 5 ∧ (s.train (.port 7)).ownAgreed = some 0x0F ∧
      s.rolesPair (.port 7) { trainId := 5, attempt := 1, confirm := true, mask := 0x0F, agreed := 0x0F, module := 9, port := 2, role := peerRole 3 } = true),
      meets ((port on 7 3).modPort 7
      (fun x => { x with train := { x.train with state := .width, trainId := 5, attempt := 1, ownAgreed := some 0x0F, peerOffer := some { trainId := 5, attempt := 1, mask := 0x0F, module := 9, port := 2, role := 3 } } })) (fun s => trainingWord ((trainingFields 3 { trainId := 5, attempt := 1, confirm := true, mask := 0x0F, agreed := 0x0F, module := 9, port := 2, role := 0 }) ++ toBytes 4 (BitVec.ofNat 32 (crc32c (trainingFields 3 { trainId := 5, attempt := 1, confirm := true, mask := 0x0F, agreed := 0x0F, module := 9, port := 2, role := 0 }))).toNat) = some { trainId := 5, attempt := 1, confirm := true, mask := 0x0F, agreed := 0x0F, module := 9, port := 2, role := 0 } ∧
      (s.train (.port 7)).state = .width ∧ (s.train (.port 7)).trainId = 5 ∧ (s.train (.port 7)).ownAgreed = some 0x0F ∧
      s.rolesPair (.port 7) { trainId := 5, attempt := 1, confirm := true, mask := 0x0F, agreed := 0x0F, module := 9, port := 2, role := 0 } = false),
      meets ((port on 7 3).modPort 7
      (fun x => { x with train := { x.train with state := .verify, trainId := 5, attempt := 1, agreed := 0x0F, verifyLeft := 2 } })) (fun s => (s.train (.port 7)).state = .verify ∧
      (s.train (.port 7)).verifyCorrected = [] ∧ (s.train (.port 7)).verifyLeft = 2),
      meets ((port on 7 3).modPort 7
      (fun x => { x with train := { x.train with state := .verify, trainId := 5, attempt := 1, agreed := 0x0F, verifyLeft := 1 } })) (fun s => (s.train (.port 7)).state = .verify ∧
      (s.train (.port 7)).verifyCorrected = [] ∧ (s.train (.port 7)).verifyLeft = 1),
      meets ((port on 7 3).modPort 7
      (fun x => { x with train := { x.train with state := .verify, trainId := 5, attempt := 2, agreed := 0x0F, sparePos := none } })) (fun s => (s.train (.port 7)).state = .verify ∧
      (s.train (.port 7)).verifyCorrected = [] ∧ uncorrectable { errors := List.range 16 } = true ∧
      worstLane (s.train (.port 7)).agreed { errors := List.range 16 } = some 0 ∧ (s.train (.port 7)).attempt = 2),
      meets ((port on 7 3).modPort 7
      (fun x => { x with train := { x.train with state := .verify, trainId := 5, attempt := 2, agreed := 0x0F, sparePos := some 0 } })) (fun s => (s.train (.port 7)).state = .verify ∧
      (s.train (.port 7)).verifyCorrected = [] ∧ uncorrectable { errors := List.range 16 } = true ∧
      worstLane (s.train (.port 7)).agreed { errors := List.range 16 } = some 0 ∧ (s.train (.port 7)).attempt = 2)].all id = true :=
  by decide +kernel

theorem witness_VerdictsArrive :
    [begins (put on (cmdOf 0 0x44 [(0, 1, 232), (1, 1, 7), (4, 4, 1)])) 0 0x44 (fun c u => c.param 1 1 < 8 ∧
      zeros c 64 (fun i => i = 2 ∨ i = 3 ∨ 8 ≤ i) ∧ -24 ≤ signed 8 (c.param 0 1) ∧ signed 8 (c.param 0 1) ≤ 24 ∧
      1 ≤ c.param 4 4 ∧ c.param 4 4 ≤ 1000000),
      begins (put on (cmdOf 0 0x44 [(0, 1, 24), (1, 1, 7), (4, 4, 1000000)])) 0 0x44 (fun c u => c.param 1 1 < 8 ∧
      zeros c 64 (fun i => i = 2 ∨ i = 3 ∨ 8 ≤ i) ∧ -24 ≤ signed 8 (c.param 0 1) ∧ signed 8 (c.param 0 1) ≤ 24 ∧
      1 ≤ c.param 4 4 ∧ c.param 4 4 ≤ 1000000),
      begins (put (port { on with tide := 1, coll := { on.coll with trees := [(63, { parent := 7, valid := true })] }, commit := { on.commit with stepNumber := 6 } } 7 1) (cmdOf 0 0x41 [(0, 4, 6), (4, 1, 1), (8, 4, 63)])) 0 0x41 (fun c u => c.param 0 4 = ((put (port { on with tide := 1, coll := { on.coll with trees := [(63, { parent := 7, valid := true })] }, commit := { on.commit with stepNumber := 6 } } 7 1) (cmdOf 0 0x41 [(0, 4, 6), (4, 1, 1), (8, 4, 63)]))).commit.stepNumber.toNat ∧
      c.param 4 1 < 2 ∧ u.treeOk (BitVec.ofNat 32 (c.param 8 4)) voteRoles = true ∧
      zeros c 64 (fun i => i = 5 ∨ i = 6 ∨ i = 7 ∨ 16 ≤ i) ∧
      ((put (port { on with tide := 1, coll := { on.coll with trees := [(63, { parent := 7, valid := true })] }, commit := { on.commit with stepNumber := 6 } } 7 1) (cmdOf 0 0x41 [(0, 4, 6), (4, 1, 1), (8, 4, 63)]))).step.started = false),
      begins (put (port { on with tide := 1, coll := { on.coll with trees := [(63, { parent := 7, valid := true })] }, commit := { on.commit with stepNumber := 6 } } 7 5) (cmdOf 0 0x41 [(0, 4, 6), (4, 1, 1), (8, 4, 63)])) 0 0x41 (fun c u => c.param 0 4 = ((put (port { on with tide := 1, coll := { on.coll with trees := [(63, { parent := 7, valid := true })] }, commit := { on.commit with stepNumber := 6 } } 7 5) (cmdOf 0 0x41 [(0, 4, 6), (4, 1, 1), (8, 4, 63)]))).commit.stepNumber.toNat ∧
      c.param 4 1 < 2 ∧ u.treeOk (BitVec.ofNat 32 (c.param 8 4)) voteRoles = true ∧
      zeros c 64 (fun i => i = 5 ∨ i = 6 ∨ i = 7 ∨ 16 ≤ i) ∧
      ((put (port { on with tide := 1, coll := { on.coll with trees := [(63, { parent := 7, valid := true })] }, commit := { on.commit with stepNumber := 6 } } 7 5) (cmdOf 0 0x41 [(0, 4, 6), (4, 1, 1), (8, 4, 63)]))).step.started = false),
      begins (put (port { on with tide := 1, coll := { on.coll with trees := [(63, { parent := 7, valid := true })] }, commit := { on.commit with stepNumber := 6 }, step := { on.step with started := true } } 7 1) (cmdOf 0 0x41 [(0, 4, 6), (4, 1, 1), (8, 4, 63)])) 0 0x41 (fun c u => c.param 0 4 = ((put (port { on with tide := 1, coll := { on.coll with trees := [(63, { parent := 7, valid := true })] }, commit := { on.commit with stepNumber := 6 }, step := { on.step with started := true } } 7 1) (cmdOf 0 0x41 [(0, 4, 6), (4, 1, 1), (8, 4, 63)]))).commit.stepNumber.toNat ∧
      c.param 4 1 < 2 ∧ u.treeOk (BitVec.ofNat 32 (c.param 8 4)) voteRoles = true ∧
      zeros c 64 (fun i => i = 5 ∨ i = 6 ∨ i = 7 ∨ 16 ≤ i) ∧
      ((put (port { on with tide := 1, coll := { on.coll with trees := [(63, { parent := 7, valid := true })] }, commit := { on.commit with stepNumber := 6 }, step := { on.step with started := true } } 7 1) (cmdOf 0 0x41 [(0, 4, 6), (4, 1, 1), (8, 4, 63)]))).step.started = true),
      meets (put (port { on with tide := 1, coll := { on.coll with trees := [(63, { parent := 7, valid := true })] }, commit := { on.commit with stepNumber := 6 }, step := { on.step with started := true, collId := 63 } } 7 3) ({ waits (.waiting .verdict) (cmdOf 0 0x41 [(0, 4, 6), (4, 1, 1), (8, 4, 63)]) with deadline := some 0 })) (fun s => s.portActive 7 = true ∧
      1 ≤ s.roleOf 7 ∧ s.roleOf 7 ≤ 5 ∧ (tabGet {} s.coll.trees ((63 : W32).toNat % 64)).valid = true ∧
      (6 : W32) = s.commit.stepNumber ∧ (s.view 63).parent = some 7 ∧
      s.verdictCmd = some ({ waits (.waiting .verdict) (cmdOf 0 0x41 [(0, 4, 6), (4, 1, 1), (8, 4, 63)]) with deadline := some 0 }) ∧
      s.dma.units = [] ∧ 0 < (s.advance 0).tide ∧ (s.advance 0).ingressHeld 63 = false),
      meets (put (port { on with tide := 1, coll := { on.coll with trees := [(63, { parent := 7, valid := true })] }, commit := { on.commit with stepNumber := 6 } } 7 3) ({ waits (.waiting .verdict) (cmdOf 0 0x41 [(0, 4, 6), (4, 1, 1), (8, 4, 63)]) with deadline := some 0 })) (fun s => s.verdictCmd = some ({ waits (.waiting .verdict) (cmdOf 0 0x41 [(0, 4, 6), (4, 1, 1), (8, 4, 63)]) with deadline := some 0 }) ∧
      (({ waits (.waiting .verdict) (cmdOf 0 0x41 [(0, 4, 6), (4, 1, 1), (8, 4, 63)]) with deadline := some 0 })).deadline = some 0 ∧
      0 ≤ (s.advance 0).tide),
      meets ((port { on with tide := 1, coll := { on.coll with trees := [(63, { children := 128, valid := true })] }, commit := { on.commit with stepNumber := 6 } } 7 3)) (fun s => s.portActive 7 = true ∧
      1 ≤ s.roleOf 7 ∧ s.roleOf 7 ≤ 5 ∧ s.dma.units = [] ∧ 0 < (s.advance 0).tide ∧
      (s.advance 0).ingressHeld 63 = false ∧ (tabGet {} s.coll.trees ((63 : W32).toNat % 64)).valid = true ∧
      (6 : W32) = s.commit.stepNumber ∧ 7 ∈ (s.view 63).kids ∧ s.step.sampled = none)].all id = true :=
  by decide +kernel

theorem witness_StepsClose :
    [begins (put { on with tide := 50, commit := { on.commit with stepNumber := 6, verdicts := [(6, 3)] }, step := { on.step with started := true, arrived := true,  clean := 4, pendReset := false } } { cmdOf 0 66 [ (0, 4, 6)] with launch := 40 }) 0 66 (fun c u => c.launch ≠ 0 ∧
      c.param 0 4 = ((put { on with tide := 50, commit := { on.commit with stepNumber := 6, verdicts := [(6, 3)] }, step := { on.step with started := true, arrived := true,  clean := 4, pendReset := false } } { cmdOf 0 66 [ (0, 4, 6)] with launch := 40 })).commit.stepNumber.toNat ∧
      ((put { on with tide := 50, commit := { on.commit with stepNumber := 6, verdicts := [(6, 3)] }, step := { on.step with started := true, arrived := true,  clean := 4, pendReset := false } } { cmdOf 0 66 [ (0, 4, 6)] with launch := 40 })).host.held = [] ∧
      zeros c 64 (fun i => 5 ≤ i) ∧ c.param 4 1 = 0),
      begins (put { on with tide := 50, commit := { on.commit with stepNumber := 6, verdicts := [(6, 3)] }, step := { on.step with started := true, arrived := true, jobNonfinite := true, clean := 4, pendReset := false } } { cmdOf 0 66 [ (0, 4, 6)] with launch := 40 }) 0 66 (fun c u => c.launch ≠ 0 ∧
      c.param 0 4 = ((put { on with tide := 50, commit := { on.commit with stepNumber := 6, verdicts := [(6, 3)] }, step := { on.step with started := true, arrived := true, jobNonfinite := true, clean := 4, pendReset := false } } { cmdOf 0 66 [ (0, 4, 6)] with launch := 40 })).commit.stepNumber.toNat ∧
      ((put { on with tide := 50, commit := { on.commit with stepNumber := 6, verdicts := [(6, 3)] }, step := { on.step with started := true, arrived := true, jobNonfinite := true, clean := 4, pendReset := false } } { cmdOf 0 66 [ (0, 4, 6)] with launch := 40 })).host.held = [] ∧
      zeros c 64 (fun i => 5 ≤ i) ∧ c.param 4 1 = 0),
      begins (put { on with tide := 50, commit := { on.commit with stepNumber := 6, verdicts := [(6, 3)] }, step := { on.step with started := true, arrived := true,  clean := 4, pendReset := false } } { cmdOf 0 67 [ (4, 1, 1), (0, 4, 6)] with launch := 40 }) 0 67 (fun c u => c.launch ≠ 0 ∧
      c.param 0 4 = ((put { on with tide := 50, commit := { on.commit with stepNumber := 6, verdicts := [(6, 3)] }, step := { on.step with started := true, arrived := true,  clean := 4, pendReset := false } } { cmdOf 0 67 [ (4, 1, 1), (0, 4, 6)] with launch := 40 })).commit.stepNumber.toNat ∧
      ((put { on with tide := 50, commit := { on.commit with stepNumber := 6, verdicts := [(6, 3)] }, step := { on.step with started := true, arrived := true,  clean := 4, pendReset := false } } { cmdOf 0 67 [ (4, 1, 1), (0, 4, 6)] with launch := 40 })).host.held = [] ∧
      zeros c 64 (fun i => 5 ≤ i) ∧ c.param 4 1 < 2),
      begins (put { on with tide := 50, commit := { on.commit with stepNumber := 6, verdicts := [(6, 3)] }, step := { on.step with started := true, arrived := true,  clean := 4, pendReset := false } } { cmdOf 0 67 [ (0, 4, 6)] with launch := 40 }) 0 67 (fun c u => c.launch ≠ 0 ∧
      c.param 0 4 = ((put { on with tide := 50, commit := { on.commit with stepNumber := 6, verdicts := [(6, 3)] }, step := { on.step with started := true, arrived := true,  clean := 4, pendReset := false } } { cmdOf 0 67 [ (0, 4, 6)] with launch := 40 })).commit.stepNumber.toNat ∧
      ((put { on with tide := 50, commit := { on.commit with stepNumber := 6, verdicts := [(6, 3)] }, step := { on.step with started := true, arrived := true,  clean := 4, pendReset := false } } { cmdOf 0 67 [ (0, 4, 6)] with launch := 40 })).host.held = [] ∧
      zeros c 64 (fun i => 5 ≤ i) ∧ c.param 4 1 < 2),
      begins (put ({ on with tide := 50, commit := { on.commit with stepNumber := 6, verdicts := [(6, 3)] }, step := { on.step with started := true, arrived := true, permReady := true }, coll := { on.coll with ownRank := 1, shardMap := [(0, { module := 8, valid := true }), (1, { module := 9, valid := true })], permute := some { cmd := ⟨1, 2⟩, newEpoch := 7, perm := [1, 0], segs := [], deadline := 0 } } }) { cmdOf 0 66 [(0, 4, 6)] with launch := 40 }) 0 66 (fun c u => c.launch ≠ 0 ∧
      c.param 0 4 = ((put ({ on with tide := 50, commit := { on.commit with stepNumber := 6, verdicts := [(6, 3)] }, step := { on.step with started := true, arrived := true, permReady := true }, coll := { on.coll with ownRank := 1, shardMap := [(0, { module := 8, valid := true }), (1, { module := 9, valid := true })], permute := some { cmd := ⟨1, 2⟩, newEpoch := 7, perm := [1, 0], segs := [], deadline := 0 } } }) { cmdOf 0 66 [(0, 4, 6)] with launch := 40 })).commit.stepNumber.toNat ∧
      ((put ({ on with tide := 50, commit := { on.commit with stepNumber := 6, verdicts := [(6, 3)] }, step := { on.step with started := true, arrived := true, permReady := true }, coll := { on.coll with ownRank := 1, shardMap := [(0, { module := 8, valid := true }), (1, { module := 9, valid := true })], permute := some { cmd := ⟨1, 2⟩, newEpoch := 7, perm := [1, 0], segs := [], deadline := 0 } } }) { cmdOf 0 66 [(0, 4, 6)] with launch := 40 })).host.held = [] ∧
      zeros c 64 (fun i => 5 ≤ i) ∧ c.param 4 1 = 0 ∧
      ((put ({ on with tide := 50, commit := { on.commit with stepNumber := 6, verdicts := [(6, 3)] }, step := { on.step with started := true, arrived := true, permReady := true }, coll := { on.coll with ownRank := 1, shardMap := [(0, { module := 8, valid := true }), (1, { module := 9, valid := true })], permute := some { cmd := ⟨1, 2⟩, newEpoch := 7, perm := [1, 0], segs := [], deadline := 0 } } }) { cmdOf 0 66 [(0, 4, 6)] with launch := 40 })).step.permReady = true ∧
      ((put ({ on with tide := 50, commit := { on.commit with stepNumber := 6, verdicts := [(6, 3)] }, step := { on.step with started := true, arrived := true, permReady := true }, coll := { on.coll with ownRank := 1, shardMap := [(0, { module := 8, valid := true }), (1, { module := 9, valid := true })], permute := some { cmd := ⟨1, 2⟩, newEpoch := 7, perm := [1, 0], segs := [], deadline := 0 } } }) { cmdOf 0 66 [(0, 4, 6)] with launch := 40 })).coll.permute.isSome = true),
      begins (put (((((({ on with tide := 50, commit := { on.commit with stepNumber := 6, verdicts := [(6, 3)] }, step := { on.step with started := true, arrived := true }, dies := [(0, { staging := [{ layer := 4095, elemFirst := 0, elemCount := 32, nstate := 1, landAddr := 0, stateSel := false, order := 0, index := 0 }] })] }).modLayer 4095 (fun (l : Layer) => { l with defined := true, prov := true, shards := 4, newest := 4, slots := [(0, { serial := 3, state := .current }), (7, { serial := 4, state := .provisional })] })).modLayer 0 (fun (l : Layer) => { l with defined := true, prov := true, shards := 1, newest := 4, slots := [(0, { serial := 3, state := .current, pins := 1 }), (1, { serial := 4, state := .provisional })] })).modLayer 1 (fun (l : Layer) => { l with defined := true, prov := true, shards := 1, newest := 4, slots := [(0, { serial := 3, state := .current }), (1, { serial := 4, state := .provisional })] })).modMb 15 63 (fun (x : Mb) => { x with state := .backward, inherited := some 6, bwdSpec := some 6 })).modEntry 15 true 63 (fun x => { x with state := .freeing, freeStep := 6 })) { cmdOf 0 66 [(0, 4, 6)] with launch := 40 }) 0 66 (fun c u => c.launch ≠ 0 ∧
      c.param 0 4 = ((put (((((({ on with tide := 50, commit := { on.commit with stepNumber := 6, verdicts := [(6, 3)] }, step := { on.step with started := true, arrived := true }, dies := [(0, { staging := [{ layer := 4095, elemFirst := 0, elemCount := 32, nstate := 1, landAddr := 0, stateSel := false, order := 0, index := 0 }] })] }).modLayer 4095 (fun (l : Layer) => { l with defined := true, prov := true, shards := 4, newest := 4, slots := [(0, { serial := 3, state := .current }), (7, { serial := 4, state := .provisional })] })).modLayer 0 (fun (l : Layer) => { l with defined := true, prov := true, shards := 1, newest := 4, slots := [(0, { serial := 3, state := .current, pins := 1 }), (1, { serial := 4, state := .provisional })] })).modLayer 1 (fun (l : Layer) => { l with defined := true, prov := true, shards := 1, newest := 4, slots := [(0, { serial := 3, state := .current }), (1, { serial := 4, state := .provisional })] })).modMb 15 63 (fun (x : Mb) => { x with state := .backward, inherited := some 6, bwdSpec := some 6 })).modEntry 15 true 63 (fun x => { x with state := .freeing, freeStep := 6 })) { cmdOf 0 66 [(0, 4, 6)] with launch := 40 })).commit.stepNumber.toNat ∧
      ((put (((((({ on with tide := 50, commit := { on.commit with stepNumber := 6, verdicts := [(6, 3)] }, step := { on.step with started := true, arrived := true }, dies := [(0, { staging := [{ layer := 4095, elemFirst := 0, elemCount := 32, nstate := 1, landAddr := 0, stateSel := false, order := 0, index := 0 }] })] }).modLayer 4095 (fun (l : Layer) => { l with defined := true, prov := true, shards := 4, newest := 4, slots := [(0, { serial := 3, state := .current }), (7, { serial := 4, state := .provisional })] })).modLayer 0 (fun (l : Layer) => { l with defined := true, prov := true, shards := 1, newest := 4, slots := [(0, { serial := 3, state := .current, pins := 1 }), (1, { serial := 4, state := .provisional })] })).modLayer 1 (fun (l : Layer) => { l with defined := true, prov := true, shards := 1, newest := 4, slots := [(0, { serial := 3, state := .current }), (1, { serial := 4, state := .provisional })] })).modMb 15 63 (fun (x : Mb) => { x with state := .backward, inherited := some 6, bwdSpec := some 6 })).modEntry 15 true 63 (fun x => { x with state := .freeing, freeStep := 6 })) { cmdOf 0 66 [(0, 4, 6)] with launch := 40 })).host.held = [] ∧
      zeros c 64 (fun i => 5 ≤ i) ∧ c.param 4 1 = 0 ∧
      ((put (((((({ on with tide := 50, commit := { on.commit with stepNumber := 6, verdicts := [(6, 3)] }, step := { on.step with started := true, arrived := true }, dies := [(0, { staging := [{ layer := 4095, elemFirst := 0, elemCount := 32, nstate := 1, landAddr := 0, stateSel := false, order := 0, index := 0 }] })] }).modLayer 4095 (fun (l : Layer) => { l with defined := true, prov := true, shards := 4, newest := 4, slots := [(0, { serial := 3, state := .current }), (7, { serial := 4, state := .provisional })] })).modLayer 0 (fun (l : Layer) => { l with defined := true, prov := true, shards := 1, newest := 4, slots := [(0, { serial := 3, state := .current, pins := 1 }), (1, { serial := 4, state := .provisional })] })).modLayer 1 (fun (l : Layer) => { l with defined := true, prov := true, shards := 1, newest := 4, slots := [(0, { serial := 3, state := .current }), (1, { serial := 4, state := .provisional })] })).modMb 15 63 (fun (x : Mb) => { x with state := .backward, inherited := some 6, bwdSpec := some 6 })).modEntry 15 true 63 (fun x => { x with state := .freeing, freeStep := 6 })) { cmdOf 0 66 [(0, 4, 6)] with launch := 40 })).step.jobNonfinite = false ∧
      ((put (((((({ on with tide := 50, commit := { on.commit with stepNumber := 6, verdicts := [(6, 3)] }, step := { on.step with started := true, arrived := true }, dies := [(0, { staging := [{ layer := 4095, elemFirst := 0, elemCount := 32, nstate := 1, landAddr := 0, stateSel := false, order := 0, index := 0 }] })] }).modLayer 4095 (fun (l : Layer) => { l with defined := true, prov := true, shards := 4, newest := 4, slots := [(0, { serial := 3, state := .current }), (7, { serial := 4, state := .provisional })] })).modLayer 0 (fun (l : Layer) => { l with defined := true, prov := true, shards := 1, newest := 4, slots := [(0, { serial := 3, state := .current, pins := 1 }), (1, { serial := 4, state := .provisional })] })).modLayer 1 (fun (l : Layer) => { l with defined := true, prov := true, shards := 1, newest := 4, slots := [(0, { serial := 3, state := .current }), (1, { serial := 4, state := .provisional })] })).modMb 15 63 (fun (x : Mb) => { x with state := .backward, inherited := some 6, bwdSpec := some 6 })).modEntry 15 true 63 (fun x => { x with state := .freeing, freeStep := 6 })) { cmdOf 0 66 [(0, 4, 6)] with launch := 40 })).step.jobAbort = false ∧
      ((put (((((({ on with tide := 50, commit := { on.commit with stepNumber := 6, verdicts := [(6, 3)] }, step := { on.step with started := true, arrived := true }, dies := [(0, { staging := [{ layer := 4095, elemFirst := 0, elemCount := 32, nstate := 1, landAddr := 0, stateSel := false, order := 0, index := 0 }] })] }).modLayer 4095 (fun (l : Layer) => { l with defined := true, prov := true, shards := 4, newest := 4, slots := [(0, { serial := 3, state := .current }), (7, { serial := 4, state := .provisional })] })).modLayer 0 (fun (l : Layer) => { l with defined := true, prov := true, shards := 1, newest := 4, slots := [(0, { serial := 3, state := .current, pins := 1 }), (1, { serial := 4, state := .provisional })] })).modLayer 1 (fun (l : Layer) => { l with defined := true, prov := true, shards := 1, newest := 4, slots := [(0, { serial := 3, state := .current }), (1, { serial := 4, state := .provisional })] })).modMb 15 63 (fun (x : Mb) => { x with state := .backward, inherited := some 6, bwdSpec := some 6 })).modEntry 15 true 63 (fun x => { x with state := .freeing, freeStep := 6 })) { cmdOf 0 66 [(0, 4, 6)] with launch := 40 })).step.permReady = false ∧
      ((put (((((({ on with tide := 50, commit := { on.commit with stepNumber := 6, verdicts := [(6, 3)] }, step := { on.step with started := true, arrived := true }, dies := [(0, { staging := [{ layer := 4095, elemFirst := 0, elemCount := 32, nstate := 1, landAddr := 0, stateSel := false, order := 0, index := 0 }] })] }).modLayer 4095 (fun (l : Layer) => { l with defined := true, prov := true, shards := 4, newest := 4, slots := [(0, { serial := 3, state := .current }), (7, { serial := 4, state := .provisional })] })).modLayer 0 (fun (l : Layer) => { l with defined := true, prov := true, shards := 1, newest := 4, slots := [(0, { serial := 3, state := .current, pins := 1 }), (1, { serial := 4, state := .provisional })] })).modLayer 1 (fun (l : Layer) => { l with defined := true, prov := true, shards := 1, newest := 4, slots := [(0, { serial := 3, state := .current }), (1, { serial := 4, state := .provisional })] })).modMb 15 63 (fun (x : Mb) => { x with state := .backward, inherited := some 6, bwdSpec := some 6 })).modEntry 15 true 63 (fun x => { x with state := .freeing, freeStep := 6 })) { cmdOf 0 66 [(0, 4, 6)] with launch := 40 })).coll.permute = none ∧
      (((put (((((({ on with tide := 50, commit := { on.commit with stepNumber := 6, verdicts := [(6, 3)] }, step := { on.step with started := true, arrived := true }, dies := [(0, { staging := [{ layer := 4095, elemFirst := 0, elemCount := 32, nstate := 1, landAddr := 0, stateSel := false, order := 0, index := 0 }] })] }).modLayer 4095 (fun (l : Layer) => { l with defined := true, prov := true, shards := 4, newest := 4, slots := [(0, { serial := 3, state := .current }), (7, { serial := 4, state := .provisional })] })).modLayer 0 (fun (l : Layer) => { l with defined := true, prov := true, shards := 1, newest := 4, slots := [(0, { serial := 3, state := .current, pins := 1 }), (1, { serial := 4, state := .provisional })] })).modLayer 1 (fun (l : Layer) => { l with defined := true, prov := true, shards := 1, newest := 4, slots := [(0, { serial := 3, state := .current }), (1, { serial := 4, state := .provisional })] })).modMb 15 63 (fun (x : Mb) => { x with state := .backward, inherited := some 6, bwdSpec := some 6 })).modEntry 15 true 63 (fun x => { x with state := .freeing, freeStep := 6 })) { cmdOf 0 66 [(0, 4, 6)] with launch := 40 })).layer 4095).prov = true),
      begins (put ({ on with tide := 50, commit := { on.commit with stepNumber := 6, verdicts := [(6, 3)] }, step := { on.step with started := true, arrived := true, permReady := true }, coll := { on.coll with ownRank := 1, shardMap := [(0, { module := 8, valid := true }), (1, { module := 9, valid := true })], permute := some { cmd := ⟨1, 2⟩, newEpoch := 7, perm := [1, 0], segs := [], deadline := 0 } } }) { cmdOf 0 67 [(0, 4, 6)] with launch := 40 }) 0 67 (fun c u => c.launch ≠ 0 ∧
      c.param 0 4 = ((put ({ on with tide := 50, commit := { on.commit with stepNumber := 6, verdicts := [(6, 3)] }, step := { on.step with started := true, arrived := true, permReady := true }, coll := { on.coll with ownRank := 1, shardMap := [(0, { module := 8, valid := true }), (1, { module := 9, valid := true })], permute := some { cmd := ⟨1, 2⟩, newEpoch := 7, perm := [1, 0], segs := [], deadline := 0 } } }) { cmdOf 0 67 [(0, 4, 6)] with launch := 40 })).commit.stepNumber.toNat ∧
      ((put ({ on with tide := 50, commit := { on.commit with stepNumber := 6, verdicts := [(6, 3)] }, step := { on.step with started := true, arrived := true, permReady := true }, coll := { on.coll with ownRank := 1, shardMap := [(0, { module := 8, valid := true }), (1, { module := 9, valid := true })], permute := some { cmd := ⟨1, 2⟩, newEpoch := 7, perm := [1, 0], segs := [], deadline := 0 } } }) { cmdOf 0 67 [(0, 4, 6)] with launch := 40 })).host.held = [] ∧
      zeros c 64 (fun i => 5 ≤ i) ∧ c.param 4 1 < 2 ∧
      ((put ({ on with tide := 50, commit := { on.commit with stepNumber := 6, verdicts := [(6, 3)] }, step := { on.step with started := true, arrived := true, permReady := true }, coll := { on.coll with ownRank := 1, shardMap := [(0, { module := 8, valid := true }), (1, { module := 9, valid := true })], permute := some { cmd := ⟨1, 2⟩, newEpoch := 7, perm := [1, 0], segs := [], deadline := 0 } } }) { cmdOf 0 67 [(0, 4, 6)] with launch := 40 })).step.permReady = true ∧
      ((put ({ on with tide := 50, commit := { on.commit with stepNumber := 6, verdicts := [(6, 3)] }, step := { on.step with started := true, arrived := true, permReady := true }, coll := { on.coll with ownRank := 1, shardMap := [(0, { module := 8, valid := true }), (1, { module := 9, valid := true })], permute := some { cmd := ⟨1, 2⟩, newEpoch := 7, perm := [1, 0], segs := [], deadline := 0 } } }) { cmdOf 0 67 [(0, 4, 6)] with launch := 40 })).coll.permute.isSome = true),
      begins (put ((((({ on with tide := 50, commit := { on.commit with stepNumber := 6, verdicts := [(6, 3)] }, step := { on.step with started := true, arrived := true }, dies := [(0, { staging := [{ layer := 4095, elemFirst := 0, elemCount := 32, nstate := 1, landAddr := 0, stateSel := false, order := 0, index := 0 }] })] }).modLayer 4095 (fun (l : Layer) => { l with defined := true, prov := true, shards := 4, newest := 4, slots := [(0, { serial := 3, state := .current }), (6, { serial := 4, state := .writing }), (7, { serial := 5, state := .provisional })] })).modMb 15 63 (fun (x : Mb) => { x with state := .forward, inherited := some 6 })).modMb 15 0 (fun x => { x with state := .backward, bwdSpec := some 6 })).modEntry 15 false 5 (fun x => { x with state := .ready, spec := true, specStep := 6 })) { cmdOf 0 67 [(0, 4, 6)] with launch := 40 }) 0 67 (fun c u => c.launch ≠ 0 ∧
      c.param 0 4 = ((put ((((({ on with tide := 50, commit := { on.commit with stepNumber := 6, verdicts := [(6, 3)] }, step := { on.step with started := true, arrived := true }, dies := [(0, { staging := [{ layer := 4095, elemFirst := 0, elemCount := 32, nstate := 1, landAddr := 0, stateSel := false, order := 0, index := 0 }] })] }).modLayer 4095 (fun (l : Layer) => { l with defined := true, prov := true, shards := 4, newest := 4, slots := [(0, { serial := 3, state := .current }), (6, { serial := 4, state := .writing }), (7, { serial := 5, state := .provisional })] })).modMb 15 63 (fun (x : Mb) => { x with state := .forward, inherited := some 6 })).modMb 15 0 (fun x => { x with state := .backward, bwdSpec := some 6 })).modEntry 15 false 5 (fun x => { x with state := .ready, spec := true, specStep := 6 })) { cmdOf 0 67 [(0, 4, 6)] with launch := 40 })).commit.stepNumber.toNat ∧
      ((put ((((({ on with tide := 50, commit := { on.commit with stepNumber := 6, verdicts := [(6, 3)] }, step := { on.step with started := true, arrived := true }, dies := [(0, { staging := [{ layer := 4095, elemFirst := 0, elemCount := 32, nstate := 1, landAddr := 0, stateSel := false, order := 0, index := 0 }] })] }).modLayer 4095 (fun (l : Layer) => { l with defined := true, prov := true, shards := 4, newest := 4, slots := [(0, { serial := 3, state := .current }), (6, { serial := 4, state := .writing }), (7, { serial := 5, state := .provisional })] })).modMb 15 63 (fun (x : Mb) => { x with state := .forward, inherited := some 6 })).modMb 15 0 (fun x => { x with state := .backward, bwdSpec := some 6 })).modEntry 15 false 5 (fun x => { x with state := .ready, spec := true, specStep := 6 })) { cmdOf 0 67 [(0, 4, 6)] with launch := 40 })).host.held = [] ∧
      zeros c 64 (fun i => 5 ≤ i) ∧ c.param 4 1 < 2 ∧
      ((put ((((({ on with tide := 50, commit := { on.commit with stepNumber := 6, verdicts := [(6, 3)] }, step := { on.step with started := true, arrived := true }, dies := [(0, { staging := [{ layer := 4095, elemFirst := 0, elemCount := 32, nstate := 1, landAddr := 0, stateSel := false, order := 0, index := 0 }] })] }).modLayer 4095 (fun (l : Layer) => { l with defined := true, prov := true, shards := 4, newest := 4, slots := [(0, { serial := 3, state := .current }), (6, { serial := 4, state := .writing }), (7, { serial := 5, state := .provisional })] })).modMb 15 63 (fun (x : Mb) => { x with state := .forward, inherited := some 6 })).modMb 15 0 (fun x => { x with state := .backward, bwdSpec := some 6 })).modEntry 15 false 5 (fun x => { x with state := .ready, spec := true, specStep := 6 })) { cmdOf 0 67 [(0, 4, 6)] with launch := 40 })).step.permReady = false ∧
      ((put ((((({ on with tide := 50, commit := { on.commit with stepNumber := 6, verdicts := [(6, 3)] }, step := { on.step with started := true, arrived := true }, dies := [(0, { staging := [{ layer := 4095, elemFirst := 0, elemCount := 32, nstate := 1, landAddr := 0, stateSel := false, order := 0, index := 0 }] })] }).modLayer 4095 (fun (l : Layer) => { l with defined := true, prov := true, shards := 4, newest := 4, slots := [(0, { serial := 3, state := .current }), (6, { serial := 4, state := .writing }), (7, { serial := 5, state := .provisional })] })).modMb 15 63 (fun (x : Mb) => { x with state := .forward, inherited := some 6 })).modMb 15 0 (fun x => { x with state := .backward, bwdSpec := some 6 })).modEntry 15 false 5 (fun x => { x with state := .ready, spec := true, specStep := 6 })) { cmdOf 0 67 [(0, 4, 6)] with launch := 40 })).coll.permute = none ∧
      (((put ((((({ on with tide := 50, commit := { on.commit with stepNumber := 6, verdicts := [(6, 3)] }, step := { on.step with started := true, arrived := true }, dies := [(0, { staging := [{ layer := 4095, elemFirst := 0, elemCount := 32, nstate := 1, landAddr := 0, stateSel := false, order := 0, index := 0 }] })] }).modLayer 4095 (fun (l : Layer) => { l with defined := true, prov := true, shards := 4, newest := 4, slots := [(0, { serial := 3, state := .current }), (6, { serial := 4, state := .writing }), (7, { serial := 5, state := .provisional })] })).modMb 15 63 (fun (x : Mb) => { x with state := .forward, inherited := some 6 })).modMb 15 0 (fun x => { x with state := .backward, bwdSpec := some 6 })).modEntry 15 false 5 (fun x => { x with state := .ready, spec := true, specStep := 6 })) { cmdOf 0 67 [(0, 4, 6)] with launch := 40 })).mb 15 63).inherited = some 6 ∧
      ((put ((((({ on with tide := 50, commit := { on.commit with stepNumber := 6, verdicts := [(6, 3)] }, step := { on.step with started := true, arrived := true }, dies := [(0, { staging := [{ layer := 4095, elemFirst := 0, elemCount := 32, nstate := 1, landAddr := 0, stateSel := false, order := 0, index := 0 }] })] }).modLayer 4095 (fun (l : Layer) => { l with defined := true, prov := true, shards := 4, newest := 4, slots := [(0, { serial := 3, state := .current }), (6, { serial := 4, state := .writing }), (7, { serial := 5, state := .provisional })] })).modMb 15 63 (fun (x : Mb) => { x with state := .forward, inherited := some 6 })).modMb 15 0 (fun x => { x with state := .backward, bwdSpec := some 6 })).modEntry 15 false 5 (fun x => { x with state := .ready, spec := true, specStep := 6 })) { cmdOf 0 67 [(0, 4, 6)] with launch := 40 })).mbPinSpec (((put ((((({ on with tide := 50, commit := { on.commit with stepNumber := 6, verdicts := [(6, 3)] }, step := { on.step with started := true, arrived := true }, dies := [(0, { staging := [{ layer := 4095, elemFirst := 0, elemCount := 32, nstate := 1, landAddr := 0, stateSel := false, order := 0, index := 0 }] })] }).modLayer 4095 (fun (l : Layer) => { l with defined := true, prov := true, shards := 4, newest := 4, slots := [(0, { serial := 3, state := .current }), (6, { serial := 4, state := .writing }), (7, { serial := 5, state := .provisional })] })).modMb 15 63 (fun (x : Mb) => { x with state := .forward, inherited := some 6 })).modMb 15 0 (fun x => { x with state := .backward, bwdSpec := some 6 })).modEntry 15 false 5 (fun x => { x with state := .ready, spec := true, specStep := 6 })) { cmdOf 0 67 [(0, 4, 6)] with launch := 40 })).mb 15 0) = false ∧
      (((put ((((({ on with tide := 50, commit := { on.commit with stepNumber := 6, verdicts := [(6, 3)] }, step := { on.step with started := true, arrived := true }, dies := [(0, { staging := [{ layer := 4095, elemFirst := 0, elemCount := 32, nstate := 1, landAddr := 0, stateSel := false, order := 0, index := 0 }] })] }).modLayer 4095 (fun (l : Layer) => { l with defined := true, prov := true, shards := 4, newest := 4, slots := [(0, { serial := 3, state := .current }), (6, { serial := 4, state := .writing }), (7, { serial := 5, state := .provisional })] })).modMb 15 63 (fun (x : Mb) => { x with state := .forward, inherited := some 6 })).modMb 15 0 (fun x => { x with state := .backward, bwdSpec := some 6 })).modEntry 15 false 5 (fun x => { x with state := .ready, spec := true, specStep := 6 })) { cmdOf 0 67 [(0, 4, 6)] with launch := 40 })).mb 15 0).inherited = none ∧
      (((put ((((({ on with tide := 50, commit := { on.commit with stepNumber := 6, verdicts := [(6, 3)] }, step := { on.step with started := true, arrived := true }, dies := [(0, { staging := [{ layer := 4095, elemFirst := 0, elemCount := 32, nstate := 1, landAddr := 0, stateSel := false, order := 0, index := 0 }] })] }).modLayer 4095 (fun (l : Layer) => { l with defined := true, prov := true, shards := 4, newest := 4, slots := [(0, { serial := 3, state := .current }), (6, { serial := 4, state := .writing }), (7, { serial := 5, state := .provisional })] })).modMb 15 63 (fun (x : Mb) => { x with state := .forward, inherited := some 6 })).modMb 15 0 (fun x => { x with state := .backward, bwdSpec := some 6 })).modEntry 15 false 5 (fun x => { x with state := .ready, spec := true, specStep := 6 })) { cmdOf 0 67 [(0, 4, 6)] with launch := 40 })).mb 15 0).admitted = true ∧
      (((put ((((({ on with tide := 50, commit := { on.commit with stepNumber := 6, verdicts := [(6, 3)] }, step := { on.step with started := true, arrived := true }, dies := [(0, { staging := [{ layer := 4095, elemFirst := 0, elemCount := 32, nstate := 1, landAddr := 0, stateSel := false, order := 0, index := 0 }] })] }).modLayer 4095 (fun (l : Layer) => { l with defined := true, prov := true, shards := 4, newest := 4, slots := [(0, { serial := 3, state := .current }), (6, { serial := 4, state := .writing }), (7, { serial := 5, state := .provisional })] })).modMb 15 63 (fun (x : Mb) => { x with state := .forward, inherited := some 6 })).modMb 15 0 (fun x => { x with state := .backward, bwdSpec := some 6 })).modEntry 15 false 5 (fun x => { x with state := .ready, spec := true, specStep := 6 })) { cmdOf 0 67 [(0, 4, 6)] with launch := 40 })).mb 15 63).fwdEntry = none)].all id = true :=
  by decide +kernel

theorem witness_SkimStreamRuns :
    [begins (put on (cmdOf 0 0x80 [(2, 1, 1), (8, 8, 0x2000000000000000), (16, 8, 0x100000)])) 0 0x80
      (fun c u => c.param 0 1 = 0 ∧ c.param 2 1 < 2 ∧ c.param 8 8 % 4096 = 0 ∧ c.param 0x10 8 % 4096 = 0 ∧
      2 ^ 20 ≤ c.param 0x10 8 ∧ u.inSpace [2, 4] none (c.param 8 8) (c.param 0x10 8) = true ∧
      zeros c 64 (fun i => (3 ≤ i ∧ i < 8) ∨ 24 ≤ i) ∧ ((put on
      (cmdOf 0 0x80 [(2, 1, 1), (8, 8, 0x2000000000000000), (16, 8, 0x100000)]))).skim.running = false),
      begins (put { on with skim := { on.skim with running := true, ringAddr := 0x2000000000000000, ringBytes := 0x100000  } } (cmdOf 0 0x80 [(2, 1, 1), (8, 8, 0x2000000000000000), (16, 8, 0x100000)])) 0 0x80 (fun c u => c.param 0 1 = 0 ∧
      c.param 2 1 < 2 ∧ c.param 8 8 % 4096 = 0 ∧ c.param 0x10 8 % 4096 = 0 ∧ 2 ^ 20 ≤ c.param 0x10 8 ∧
      u.inSpace [2, 4] none (c.param 8 8) (c.param 0x10 8) = true ∧ zeros c 64 (fun i => (3 ≤ i ∧ i < 8) ∨ 24 ≤ i) ∧
      ((put { on with skim := { on.skim with running := true, ringAddr := 0x2000000000000000, ringBytes := 0x100000  } } (cmdOf 0 0x80 [(2, 1, 1), (8, 8, 0x2000000000000000), (16, 8, 0x100000)]))).skim.running = true),
      begins (put on (cmdOf 0 0x81 [])) 0 0x81 (fun c u => ((put on (cmdOf 0 0x81 []))).skim.running = false),
      begins (put { on with skim := { on.skim with running := true, ringAddr := 0x2000000000000000, ringBytes := 0x100000  } } (cmdOf 0 0x81 [])) 0 0x81 (fun c u => ((put { on with skim := { on.skim with running := true, ringAddr := 0x2000000000000000, ringBytes := 0x100000  } } (cmdOf 0 0x81 []))).skim.running = true),
      meets ({ on with skim := { on.skim with running := true, ringAddr := 0x2000000000000000, ringBytes := 0x100000 , wr := 0x100000, rd := 2, records := [.finish 3], out := [7, 8, 9], outPoison := [false, true, false] } }) (fun s => s.skim.records = [.finish 3] ∧
      s.skim.running = true ∧ s.skim.toPort = false ∧ s.skim.out ≠ [] ∧ s.skim.out.take s.skimRoom ≠ [] ∧
      s.skim.out.take s.skimRoom ≠ s.skim.out ∧ s.skim.outPoison.length = s.skim.out.length ∧
      (s.advance 0).skimHeld (.finish 3) = false),
      begins (put (on.write 0x2000000000000000 ((skimBytes on (.step true 8 0xFFFFFFFF 5 2 100 0) 0 ++ skimBytes on (.finish 8) 32).map (·.1))) (cmdOf 0 0x82 [(4, 4, 0xFFFFFFFF), (8, 8, 0x2000000000000000), (16, 8, 64), (24, 8, 0x2000000000001000)])) 0 0x82 (fun c u => decide (zeros c 128 (fun i => i < 4 ∨ 34 ≤ i) ∧
      u.resolve [2, 4] none (c.param 0x18 8) (64 * c.param 0x20 2) = some 0x2000000000001000 ∧
      u.resolve [2, 4] none (c.param 8 8) (c.param 0x10 8) = some 0x2000000000000000 ∧ u.loadBusy [] = false ∧
      u.loadServed 0x2000000000000000 0x2000000000001000 [] = true ∧
      u.loadHeld 0x2000000000000000 64 0x2000000000001000 [] = false ∧ u.firstPoison 0x2000000000001000 0 = none ∧
      (fun a : Load => (a.last, a.exp, a.clean, a.interval, a.parts, a.failed)) (runLoad [] 0xFFFFFFFF 3 0x2000000000000000 (u.read 0x2000000000000000 64) { st := u }) = (some 8, 5, 2, 100, 0, false)) = true),
      meets (put ({ on with skim := { on.skim with running := true, ringAddr := 0x2000000000000000, ringBytes := 0x100000 , stopCmds := [], wr := 0x100000, rd := 3, records := [.finish 3], out := [7, 8, 9], outPoison := [false, true, false] } }.modLayer 4 (fun l => { l with skimPending := true })) (waits (.waiting .skimEnd) (cmdOf 0 0x81 []))) (fun s => s.skim.records = [.finish 3] ∧
      s.skim.running = true ∧ s.skim.toPort = false ∧ s.skim.out ≠ [] ∧ s.skim.outPoison.length = s.skim.out.length ∧
      (s.advance 0).skimHeld (.finish 3) = false ∧ s.skim.out.length ≤ s.skimRoom ∧ s.skim.stopCmds = []),
      meets (put ({ on with skim := { on.skim with running := true, ringAddr := 0x2000000000000000, ringBytes := 0x100000 , stopCmds := [⟨0, 3⟩], wr := 0x100000, rd := 3, records := [.finish 3], out := [7, 8, 9], outPoison := [false, true, false] } }.modLayer 4 (fun l => { l with skimPending := true })) (waits (.waiting .skimEnd) (cmdOf 0 0x81 []))) (fun s => s.skim.records = [.finish 3] ∧
      s.skim.running = true ∧ s.skim.toPort = false ∧ s.skim.out ≠ [] ∧ s.skim.outPoison.length = s.skim.out.length ∧
      (s.advance 0).skimHeld (.finish 3) = false ∧ s.skim.out.length ≤ s.skimRoom ∧ s.skim.stopCmds = [⟨0, 3⟩]),
      meets (on.write 8 [1, 2, 3, 4, 5, 6, 7, 8]) (fun s => Memory.wf s.mem = true ∧ rising s.poison = true ∧
      (List.range 8).all (fun i => s.farFailed (8 + i) == false) = true),
      begins ((put (((on.modLayer 4 (fun l => { l with defined := true, shards := 4, workBytes := 256, workStride := 256, workAddr := 0x2000000000000000, newest := 3, slots := [(0, { serial := 3, state := .current })] })).write 0x2000000000030000 ((skimBytes on (.step true 8 0xFFFFFFFF 5 2 100 1) 0 ++ skimBytes on (.part true { layer := 4, serial := 7, part := 0, nstate := 1, elemFirst := 0, elemCount := 32, newSlot := 0x2000000000010000, oldSlot := 0x2000000000020000, die := 0 }) 32 ++ skimBytes on (.finish 8) 104).map (·.1))).write 0x2000000000040000 (area 64 [(0, 2, 4), (12, 4, 32), (32, 8, 0x2000000000010000), (40, 8, 0x2000000000020000)])) (cmdOf 0 0x82 [(4, 4, 0xFFFFFFFF), (8, 8, 0x2000000000030000), (16, 8, (skimBytes on (.part true { layer := 4, serial := 7, part := 0, nstate := 1, elemFirst := 0, elemCount := 32, newSlot := 0x2000000000010000, oldSlot := 0x2000000000020000, die := 0 }) 32).length + 64), (24, 8, 0x2000000000040000), (32, 2, 1)]))) 0 0x82 (fun c u => decide (zeros c 128 (fun i => i < 4 ∨ 34 ≤ i) ∧
      u.resolve [2, 4] none (c.param 0x18 8) (64 * c.param 0x20 2) = some 0x2000000000040000 ∧
      u.resolve [2, 4] none (c.param 8 8) (c.param 0x10 8) = some 0x2000000000030000 ∧
      (List.range (c.param 0x20 2)).map (fun i => loadEntry (u.read (0x2000000000040000 + 64 * i) 64)) = [loadEntry (area 64 [(0, 2, 4), (12, 4, 32), (32, 8, 0x2000000000010000), (40, 8, 0x2000000000020000)])] ∧
      [loadEntry (area 64 [(0, 2, 4), (12, 4, 32), (32, 8, 0x2000000000010000), (40, 8, 0x2000000000020000)])].all (LoadEntry.ok u) = true ∧
      u.loadBusy [loadEntry (area 64 [(0, 2, 4), (12, 4, 32), (32, 8, 0x2000000000010000), (40, 8, 0x2000000000020000)])] = false ∧
      u.loadServed 0x2000000000030000 0x2000000000040000 [loadEntry (area 64 [(0, 2, 4), (12, 4, 32), (32, 8, 0x2000000000010000), (40, 8, 0x2000000000020000)])] = true ∧
      u.loadHeld 0x2000000000030000 (c.param 0x10 8) 0x2000000000040000 [loadEntry (area 64 [(0, 2, 4), (12, 4, 32), (32, 8, 0x2000000000010000), (40, 8, 0x2000000000020000)])] = false ∧
      u.firstPoison 0x2000000000040000 64 = none ∧ (u.layer 4).stateIdx .free = some 1 ∧
      (fun a : Load => (a.last, a.parts, a.failed, a.done)) (runLoad [loadEntry (area 64 [(0, 2, 4), (12, 4, 32), (32, 8, 0x2000000000010000), (40, 8, 0x2000000000020000)])] 0xFFFFFFFF (c.param 0x10 8 / 32 + 1) 0x2000000000030000 (u.read 0x2000000000030000 (c.param 0x10 8)) { st := u }) = (some 8, 1, false, [(loadEntry (area 64 [(0, 2, 4), (12, 4, 32), (32, 8, 0x2000000000010000), (40, 8, 0x2000000000020000)]), 7, 8)])) = true)].all id = true :=
  by decide +kernel

theorem witness_CollectivesStart :
    [begins (put (port (item { on with coll := { on.coll with trees := [(63, { parent := 7, valid := true })] } } 15 { dieMask := 0xFFF }) 7 3) (cmdOf 16 0x50 [(4, 4, 63), (0x0E, 2, 1), (0x18, 4, 31), (0x1C, 1, 16), (0x30, 4, 5)])) 16 0x50 (fun c u => firstFailSt (redChecks u c) = some (0x18, .badParam)),
      begins (put (port (item { on with coll := { on.coll with trees := [(63, { parent := 7, valid := true })] } } 15 { dieMask := 0xFFF }) 7 3) (cmdOf 16 0x50 [(0, 1, 11), (4, 4, 63), (0x0C, 2, 1), (0x0E, 2, 1), (0x18, 4, 32), (0x1C, 1, 16), (0x30, 4, 5)])) 16 0x50 (fun c u => firstFailSt (redChecks u c) = some (0x0C, .epochStale)),
      begins (put (port (item { on with coll := { on.coll with trees := [(63, { parent := 7, valid := true })] } } 15 { dieMask := 0xFFF }) 7 3) (cmdOf 16 0x50 [(0, 1, 11), (4, 4, 63), (0x0C, 2, 0), (0x0E, 2, 1), (0x18, 4, 32), (0x1C, 1, 16), (0x30, 4, 5)])) 16 0x50 (fun c u => firstFailSt (redChecks u c) = none ∧
      (u.resolve [0, 1, 2, 4, 5] (some (redP c).die) (redP c).src 0).all u.keyServed ∧
      (u.resolve [0, 1, 4, 5] (some (redP c).die) (redP c).scale 0).all u.keyServed ∧
      u.dieRefuses (redP c).die = false ∧ u.dieWaits (redP c).die = false ∧
      u.anyStops (ioBase u.pkg.suffix (u.view (redP c).collId).tile) [u.redTable (redP c)] = false ∧
      u.findColl 0 (redP c).collId (redP c).step (redP c).epoch = none ∧
      (u.openColl (u.frameCtx 0 (redP c).collId (redP c).step (redP c).epoch)).isSome ∧
      u.firstPoison (u.redTable (redP c)).1 (u.redTable (redP c)).2 = none),
      begins (put (port (item { on with coll := { on.coll with trees := [(63, { parent := 7, valid := true })], ctxs := [{ kind := 0, tile := 1, collId := 63, waiting := []  }] } } 15 { dieMask := 0xFFF }) 7 3) (cmdOf 16 0x50 [(0, 1, 11), (4, 4, 63), (0x0C, 2, 0), (0x0E, 2, 1), (0x18, 4, 32), (0x1C, 1, 16), (0x30, 4, 5)])) 16 0x50 (fun c u => firstFailSt (redChecks u c) = none ∧
      (u.resolve [0, 1, 2, 4, 5] (some (redP c).die) (redP c).src 0).all u.keyServed ∧
      (u.resolve [0, 1, 4, 5] (some (redP c).die) (redP c).scale 0).all u.keyServed ∧
      u.dieRefuses (redP c).die = false ∧ u.dieWaits (redP c).die = false ∧
      u.anyStops (ioBase u.pkg.suffix (u.view (redP c).collId).tile) [u.redTable (redP c)] = false ∧
      u.findColl 0 (redP c).collId (redP c).step (redP c).epoch = some { kind := 0, tile := 1, collId := 63, waiting := []  }),
      begins (put (port (item { on with coll := { on.coll with trees := [(63, { parent := 7, valid := true })], ctxs := [{ kind := 0, tile := 1, collId := 63, waiting := [] , refused := some 3 }] } } 15 { dieMask := 0xFFF }) 7 3) (cmdOf 16 0x50 [(0, 1, 11), (4, 4, 63), (0x0C, 2, 0), (0x0E, 2, 1), (0x18, 4, 32), (0x1C, 1, 16), (0x30, 4, 5)])) 16 0x50 (fun c u => firstFailSt (redChecks u c) = none ∧
      (u.resolve [0, 1, 2, 4, 5] (some (redP c).die) (redP c).src 0).all u.keyServed ∧
      (u.resolve [0, 1, 4, 5] (some (redP c).die) (redP c).scale 0).all u.keyServed ∧
      u.dieRefuses (redP c).die = false ∧ u.dieWaits (redP c).die = false ∧
      u.anyStops (ioBase u.pkg.suffix (u.view (redP c).collId).tile) [u.redTable (redP c)] = false ∧
      u.findColl 0 (redP c).collId (redP c).step (redP c).epoch = some { kind := 0, tile := 1, collId := 63, waiting := [] , refused := some 3 }),
      begins (put { (port (item { on with coll := { on.coll with trees := [(63, { parent := 7, valid := true })] } } 15 { dieMask := 0xFFF }) 7 3) with dies := [(11, { service := 1 })] } (cmdOf 16 0x50 [(0, 1, 11), (4, 4, 63), (0x0C, 2, 0), (0x0E, 2, 1), (0x18, 4, 32), (0x1C, 1, 16), (0x30, 4, 5)])) 16 0x50 (fun c u => firstFailSt (redChecks u c) = none ∧
      u.dieRefuses (redP c).die = true),
      begins (put { (port (item { on with coll := { on.coll with trees := [(63, { parent := 7, valid := true })] } } 15 { dieMask := 0xFFF }) 7 3) with dies := [(11, { service := 3, outOfService := true })] } (cmdOf 16 0x50 [(0, 1, 11), (4, 4, 63), (0x0C, 2, 0), (0x0E, 2, 1), (0x18, 4, 32), (0x1C, 1, 16), (0x30, 4, 5)])) 16 0x50 (fun c u => firstFailSt (redChecks u c) = none ∧
      (u.resolve [0, 1, 2, 4, 5] (some (redP c).die) (redP c).src 0).all u.keyServed ∧
      (u.resolve [0, 1, 4, 5] (some (redP c).die) (redP c).scale 0).all u.keyServed ∧
      u.dieRefuses (redP c).die = false ∧ u.dieWaits (redP c).die = true),
      begins (put (port (item { on with coll := { on.coll with trees := [(63, { parent := 7, valid := true })] } } 15 { dieMask := 0xFFF }) 7 4) (cmdOf 16 0x51 [(0, 1, 11), (1, 1, 2), (2, 1, 7), (3, 1, 7), (4, 4, 63), (0x0C, 2, 1), (0x18, 8, 0x1000), (0x20, 4, 256), (0x24, 4, 5)])) 16 0x51 (fun c u => lowestFailSt (gatChecks u c) = none ∧
      u.dieRefuses (gatP c).die = false ∧ u.dieWaits (gatP c).die = false ∧ u.keyServed (u.gatSrc (gatP c)) = true ∧
      u.keyServed (u.gatDest (gatP c)) = true ∧ (gatP c).mode = 2),
      begins (put (port (item { on with coll := { on.coll with trees := [(63, { parent := 7, valid := true })] } } 15 { dieMask := 0xFFF }) 7 3) (cmdOf 16 0x51 [(0, 1, 11), (1, 1, 0), (2, 1, 7), (3, 1, 7), (4, 4, 63), (0x0C, 2, 1), (0x18, 8, 0x1000), (0x20, 4, 256), (0x24, 4, 5)])) 16 0x51 (fun c u => lowestFailSt (gatChecks u c) = none ∧
      u.dieRefuses (gatP c).die = false ∧ u.dieWaits (gatP c).die = false ∧ u.keyServed (u.gatSrc (gatP c)) = true ∧
      u.keyServed (u.gatDest (gatP c)) = true ∧ (gatP c).mode ≠ 2 ∧
      u.tileHeld (u.view (gatP c).collId).tile (gatP c).collId (u.gatRanges (gatP c)) = false ∧
      u.findColl 1 (gatP c).collId 0 (gatP c).epoch = none ∧
      (u.openColl (u.frameCtx 1 (gatP c).collId 0 (gatP c).epoch)).isSome),
      begins (put (port (item { on with coll := { on.coll with trees := [(63, { parent := 7, valid := true })] } } 15 { dieMask := 0xFFF }) 7 3) (cmdOf 16 0x51 [(0, 1, 11), (1, 1, 1), (2, 1, 7), (3, 1, 7), (4, 4, 63), (0x0C, 2, 1), (0x18, 8, 0x1000), (0x20, 4, 256), (0x24, 4, 5)])) 16 0x51 (fun c u => lowestFailSt (gatChecks u c) = none ∧
      u.dieRefuses (gatP c).die = false ∧ u.dieWaits (gatP c).die = false ∧ u.keyServed (u.gatSrc (gatP c)) = true ∧
      u.keyServed (u.gatDest (gatP c)) = true ∧ (gatP c).mode ≠ 2 ∧
      u.tileHeld (u.view (gatP c).collId).tile (gatP c).collId (u.gatRanges (gatP c)) = false ∧
      u.findColl 1 (gatP c).collId 0 (gatP c).epoch = none ∧
      (u.openColl (u.frameCtx 1 (gatP c).collId 0 (gatP c).epoch)).isSome),
      begins (put { (port (item { on with coll := { on.coll with trees := [(63, { parent := 7, valid := true })] } } 15 { dieMask := 0xFFF }) 7 4) with dies := [(11, { service := 1 })] } (cmdOf 16 0x51 [(0, 1, 11), (1, 1, 2), (2, 1, 7), (3, 1, 7), (4, 4, 63), (0x0C, 2, 1), (0x18, 8, 0x1000), (0x20, 4, 256), (0x24, 4, 5)])) 16 0x51 (fun c u => lowestFailSt (gatChecks u c) = none ∧
      u.dieRefuses (gatP c).die = true),
      begins (put { (port (item { on with coll := { on.coll with trees := [(63, { parent := 7, valid := true })] } } 15 { dieMask := 0xFFF }) 7 4) with dies := [(11, { service := 3, outOfService := true })] } (cmdOf 16 0x51 [(0, 1, 11), (1, 1, 2), (2, 1, 7), (3, 1, 7), (4, 4, 63), (0x0C, 2, 1), (0x18, 8, 0x1000), (0x20, 4, 256), (0x24, 4, 5)])) 16 0x51 (fun c u => lowestFailSt (gatChecks u c) = none ∧
      u.dieRefuses (gatP c).die = false ∧ u.keyServed (u.gatSrc (gatP c)) = true ∧
      u.keyServed (u.gatDest (gatP c)) = true ∧ u.dieWaits (gatP c).die = true),
      begins (put (port (item { on with coll := { on.coll with trees := [(63, { parent := 7, valid := true })], ctxs := [{ kind := 1, tile := 1, collId := 63  }] } } 15 { dieMask := 0xFFF }) 7 3) (cmdOf 16 0x51 [(0, 1, 11), (1, 1, 0), (2, 1, 7), (3, 1, 7), (4, 4, 63), (0x0C, 2, 1), (0x18, 8, 0x1000), (0x20, 4, 256), (0x24, 4, 5)])) 16 0x51 (fun c u => lowestFailSt (gatChecks u c) = none ∧
      u.dieRefuses (gatP c).die = false ∧ u.dieWaits (gatP c).die = false ∧ u.keyServed (u.gatSrc (gatP c)) = true ∧
      u.keyServed (u.gatDest (gatP c)) = true ∧ (gatP c).mode ≠ 2 ∧
      u.tileHeld (u.view (gatP c).collId).tile (gatP c).collId (u.gatRanges (gatP c)) = false ∧
      u.findColl 1 (gatP c).collId 0 (gatP c).epoch = some { kind := 1, tile := 1, collId := 63  }),
      begins (put (port (item { on with coll := { on.coll with trees := [(63, { parent := 7, valid := true })], ctxs := [{ kind := 1, tile := 1, collId := 63 , refused := some 0x0A }] } } 15 { dieMask := 0xFFF }) 7 3) (cmdOf 16 0x51 [(0, 1, 11), (1, 1, 0), (2, 1, 7), (3, 1, 7), (4, 4, 63), (0x0C, 2, 1), (0x18, 8, 0x1000), (0x20, 4, 256), (0x24, 4, 5)])) 16 0x51 (fun c u => lowestFailSt (gatChecks u c) = none ∧
      u.dieRefuses (gatP c).die = false ∧ u.dieWaits (gatP c).die = false ∧ u.keyServed (u.gatSrc (gatP c)) = true ∧
      u.keyServed (u.gatDest (gatP c)) = true ∧ (gatP c).mode ≠ 2 ∧
      u.tileHeld (u.view (gatP c).collId).tile (gatP c).collId (u.gatRanges (gatP c)) = false ∧
      u.findColl 1 (gatP c).collId 0 (gatP c).epoch = some { kind := 1, tile := 1, collId := 63 , refused := some 0x0A }),
      begins (put (port (item { on with coll := { on.coll with trees := [(63, { parent := 7, valid := true })] } } 15 { dieMask := 0xFFF }) 7 1) (cmdOf 16 0x53 [(4, 4, 63), (8, 2, 0), (12, 4, 5)])) 16 0x53 (fun c u => c.param 4 4 = 63 ∧
      u.treeOk 63 voteRoles = true ∧ zeros c 64 (fun i => i < 4 ∨ i = 10 ∨ i = 11 ∨ 16 ≤ i) ∧ u.findBarrier 63 = none ∧
      ((u.setWait c.ref .coll none).openColl { u.frameCtx 2 63 0 0 with cmd := some c.ref, lease := u.tide + 5000 }).isSome),
      begins (put (port (item { on with coll := { on.coll with trees := [(63, { parent := 7, valid := true })] } } 15 { dieMask := 0xFFF }) 7 5) (cmdOf 16 0x53 [(4, 4, 63), (8, 2, 65535), (12, 4, 5)])) 16 0x53 (fun c u => c.param 4 4 = 63 ∧
      u.treeOk 63 voteRoles = true ∧ zeros c 64 (fun i => i < 4 ∨ i = 10 ∨ i = 11 ∨ 16 ≤ i) ∧ u.findBarrier 63 = none ∧
      ((u.setWait c.ref .coll none).openColl { u.frameCtx 2 63 0 0 with cmd := some c.ref, lease := u.tide + 5000 }).isSome),
      begins (put (port (item { on with coll := { on.coll with trees := [(63, { parent := 7, valid := true })], ctxs := [{ kind := 2, tile := 1, collId := 63, heard := []  }] } } 15 { dieMask := 0xFFF }) 7 3) (cmdOf 16 0x53 [(4, 4, 63), (8, 2, 2), (12, 4, 5)])) 16 0x53 (fun c u => c.param 4 4 = 63 ∧
      u.treeOk 63 voteRoles = true ∧ zeros c 64 (fun i => i < 4 ∨ i = 10 ∨ i = 11 ∨ 16 ≤ i) ∧
      u.findBarrier 63 = some { kind := 2, tile := 1, collId := 63, heard := []  }),
      begins (put (port (item { on with coll := { on.coll with trees := [(63, { parent := 7, valid := true })], ctxs := [{ kind := 2, tile := 1, collId := 63, heard := [] , refused := some 3 }] } } 15 { dieMask := 0xFFF }) 7 3) (cmdOf 16 0x53 [(4, 4, 63), (8, 2, 2), (12, 4, 5)])) 16 0x53 (fun c u => c.param 4 4 = 63 ∧
      u.treeOk 63 voteRoles = true ∧ zeros c 64 (fun i => i < 4 ∨ i = 10 ∨ i = 11 ∨ 16 ≤ i) ∧
      u.findBarrier 63 = some { kind := 2, tile := 1, collId := 63, heard := [] , refused := some 3 }),
      begins (put { on with coll := { on.coll with permute := some { cmd := mm.ref, newEpoch := 1, perm := [0], segs := [], deadline := 5 } } } (cmdOf 0 0x52 [(0, 2, 1), (2, 2, 1), (8, 8, 0x2000000000000000), (0x20, 4, 60000000)])) 0 0x52 (fun c u => lowestFailSt (permChecks u c) = none ∧
      u.coll.permute.isSome = true),
      begins (put { on with coll := { on.coll with permHeld := [({ newEpoch := 3 }, false)] } }
      (cmdOf 0 0x52 [(0, 2, 1), (2, 2, 1), (8, 8, 0x2000000000000000), (0x20, 4, 60000000)])) 0 0x52
      (fun c u => lowestFailSt (permChecks u c) = none ∧ u.coll.permute = none ∧ u.permServed c = true ∧
      c.param 4 1 = 0 ∧ (u.resolve permSpaces none (c.param 8 8) 0) = some 0x2000000000000000 ∧
      u.permHeldNow c ({ cmd := c.ref, newEpoch := 1, perm := permEntries u 0x2000000000000000 1, segs := [], deadline := u.tide + 60000000000 } : Permute) = false ∧
      u.coll.permHeld.all (fun f => f.1.newEpoch != BitVec.ofNat 16 (c.param 0 2))),
      begins (put { on with dies := [(3, { service := 2, outOfService := true })] }
      (cmdOf 0 0x52 [(0, 2, 1), (2, 2, 1), (8, 8, 0x5300000000000000), (0x20, 4, 60000000)])) 0 0x52
      (fun c u => lowestFailSt (permChecks u c) = none ∧ u.coll.permute = none ∧ u.permServed c = false),
      begins (put { on with dies := [(3, { service := 3, outOfService := true })] }
      (cmdOf 0 0x52 [(0, 2, 1), (2, 2, 1), (8, 8, 0x5300000000000000), (0x20, 4, 60000000)])) 0 0x52
      (fun c u => lowestFailSt (permChecks u c) = none ∧ u.coll.permute = none ∧ u.permServed c = true ∧
      u.permHeldNow c ({ cmd := c.ref, newEpoch := 1, perm := permEntries u 0x5300000000000000 1, segs := [], deadline := u.tide + 60000000000 } : Permute) = true)].all id = true :=
  by decide +kernel

theorem witness_CollectiveFrames :
    [meets ((port { on with tide := 1, coll := { on.coll with trees := [(63, { parent := 6, children := 0x80, valid := true })] } } 7 3)) (fun s => s.dma.units = [] ∧
      0 < (s.advance 0).tide ∧ s.portActive 7 = true ∧ s.roleOf 7 = 3 ∧ (s.advance 0).ingressHeld 5 = false ∧
      (7 ∉ (s.view 5).parent.toList ++ (s.view 5).kids)),
      meets ((port { on with tide := 1, coll := { on.coll with trees := [(63, { parent := 6, children := 0x80, valid := true })] } } 7 3)) (fun s => s.dma.units = [] ∧
      0 < (s.advance 0).tide ∧ s.portActive 7 = true ∧ s.roleOf 7 = 3 ∧
      7 ∈ (s.view 63).parent.toList ++ (s.view 63).kids ∧ (s.advance 0).ingressHeld 63 = false ∧
      (tabGet {} s.coll.trees 63).valid = true ∧ s.findColl 0 63 2 0 = none ∧ s.openOn (s.view 63).tile < 16 ∧
      (0 : W16) = s.commit.layoutEpoch),
      meets ((port { on with tide := 1, coll := { on.coll with trees := [(63, { parent := 6, children := 0x80, valid := true })] } } 7 3)) (fun s => s.dma.units = [] ∧
      0 < (s.advance 0).tide ∧ s.portActive 7 = true ∧ s.roleOf 7 = 3 ∧ (s.advance 0).ingressHeld 63 = false ∧
      (tabGet {} s.coll.trees 63).valid = true ∧ 7 ∈ (s.view 63).kids ∧ (0 : W16) = s.commit.layoutEpoch ∧
      s.findColl 1 63 0 0 = none ∧ s.openOn (s.view 63).tile < 16),
      meets ((port (item { on with tide := 1, coll := { on.coll with trees := [(63, { parent := 7, valid := true })] } } 15 { dieMask := 0xFFF }) 7 3)) (fun s => s.dma.units = [] ∧
      0 < (s.advance 0).tide ∧ s.portActive 7 = true ∧ s.roleOf 7 = 3 ∧
      7 ∈ (s.view 63).parent.toList ++ (s.view 63).kids ∧ (s.advance 0).ingressHeld 63 = false ∧
      (tabGet {} s.coll.trees 63).valid = true ∧ s.findColl 0 63 2 0 = none ∧ s.openOn (s.view 63).tile < 16 ∧
      (0 : W16) = s.commit.layoutEpoch),
      meets ((port (item { on with tide := 1, coll := { on.coll with trees := [(63, { parent := 7, valid := true })] } } 15 { dieMask := 0xFFF }) 7 3)) (fun s => s.dma.units = [] ∧
      0 < (s.advance 0).tide ∧ s.portActive 7 = true ∧ s.roleOf 7 = 3 ∧ (s.advance 0).ingressHeld 63 = false ∧
      (tabGet {} s.coll.trees 63).valid = true ∧ (s.view 63).parent = some 7 ∧ (0 : W16) = s.commit.layoutEpoch ∧
      s.findColl 1 63 0 0 = none ∧ s.openOn (s.view 63).tile < 16),
      meets ((port { on with tide := 1, coll := { on.coll with trees := [(63, { parent := 6, children := 0x80, valid := true })] } } 7 1)) (fun s => s.dma.units = [] ∧
      0 < (s.advance 0).tide ∧ s.portActive 7 = true ∧ s.roleOf 7 = 1 ∧ (s.advance 0).ingressHeld 63 = false ∧
      (tabGet {} s.coll.trees 63).valid = true ∧ 7 ∈ (s.view 63).kids ∧ s.findBarrier 63 = none ∧
      s.openOn (s.view 63).tile < 16),
      meets ((port { on with tide := 1, coll := { on.coll with trees := [(63, { parent := 6, children := 0x80, valid := true })] } } 7 5)) (fun s => s.dma.units = [] ∧
      0 < (s.advance 0).tide ∧ s.portActive 7 = true ∧ s.roleOf 7 = 5 ∧ (s.advance 0).ingressHeld 63 = false ∧
      (tabGet {} s.coll.trees 63).valid = true ∧ 7 ∈ (s.view 63).kids ∧ s.findBarrier 63 = none ∧
      s.openOn (s.view 63).tile < 16),
      meets ((port { on with tide := 1, coll := { on.coll with trees := [(63, { parent := 6, children := 0x80, valid := true })] } } 7 4)) (fun s => s.dma.units = [] ∧
      0 < (s.advance 0).tide ∧ s.portActive 7 = true ∧ s.roleOf 7 = 4 ∧ s.coll.shifts.all (fun h => h.collId != 8)),
      meets ((port { on with tide := 1, coll := { on.coll with trees := [(63, { parent := 6, children := 0x80, valid := true })] } } 7 5)) (fun s => s.dma.units = [] ∧
      0 < (s.advance 0).tide ∧ s.portActive 7 = true ∧ s.roleOf 7 = 5 ∧ (0 : W16) = s.conf.address ∧
      s.coll.permute = none ∧ (1 : W16) = s.commit.layoutEpoch + 1),
      meets ({ on with tide := 5, coll := { on.coll with ctxs := [{ kind := 2, tile := 1, collId := 8, lease := 5 }] } }) (fun s => s.dma.units = [] ∧
      s.coll.ctxs.find? (fun c => c.tile == 1 && c.collId == 8 && decide (c.lease ≤ (s.advance 0).tide)) = some { kind := 2, tile := 1, collId := 8, lease := 5 } ∧
      s.tilePaused 1 = false ∧ ({ kind := 2, tile := 1, collId := 8, lease := 5 } : CollCtx).cmd = none),
      meets (put { on with tide := 5, coll := { on.coll with permute := some { cmd := ((waits (.waiting .permute) (cmdOf 0 0x52 []))).ref, newEpoch := 1, perm := [1, 0], segs := [], deadline := 5 } } } (waits (.waiting .permute) (cmdOf 0 0x52 []))) (fun s => s.dma.units = [] ∧
      s.coll.permute = some { cmd := ((waits (.waiting .permute) (cmdOf 0 0x52 []))).ref, newEpoch := 1, perm := [1, 0], segs := [], deadline := 5 } ∧
      ({ cmd := ((waits (.waiting .permute) (cmdOf 0 0x52 []))).ref, newEpoch := 1, perm := [1, 0], segs := [], deadline := 5 } : Permute).contributed = false ∧
      5 ≤ (s.advance 0).tide ∧ s.findCmd ((waits (.waiting .permute) (cmdOf 0 0x52 []))).ref = some
      (waits (.waiting .permute) (cmdOf 0 0x52 []))),
      meets ({ layered with coll := { on.coll with permute := some { cmd := ((waits (.waiting .permute) (cmdOf 0 0x52 []))).ref, newEpoch := 1, perm := [1, 0], segs := [{ work := true, sendLayer := 4 }], deadline := 5 }, nRanks := 2 } }) (fun s => s.dma.units = [] ∧
      s.coll.permute = some { cmd := ((waits (.waiting .permute) (cmdOf 0 0x52 []))).ref, newEpoch := 1, perm := [1, 0], segs := [{ work := true, sendLayer := 4 }], deadline := 5 } ∧
      (s.layer 4).stateIdx .current = some 0 ∧
      ({ cmd := ((waits (.waiting .permute) (cmdOf 0 0x52 []))).ref, newEpoch := 1, perm := [1, 0], segs := [{ work := true, sendLayer := 4 }], deadline := 5 } : Permute).target s.coll.ownRank ≠ s.coll.ownRank ∧
      s.layerSettled 4 = true ∧
      ({ cmd := ((waits (.waiting .permute) (cmdOf 0 0x52 []))).ref, newEpoch := 1, perm := [1, 0], segs := [{ work := true, sendLayer := 4 }], deadline := 5 } : Permute).held = [] ∧
      ((s.layer 4).planes 0).all (fun pl => (s.advance 0).sendStops 1 pl.2.1 pl.2.2 == false) ∧
      ({ cmd := ((waits (.waiting .permute) (cmdOf 0 0x52 []))).ref, newEpoch := 1, perm := [1, 0], segs := [{ work := true, sendLayer := 4 }], deadline := 5 } : Permute).target s.coll.ownRank = 1),
      meets (put (port { on with tide := 6, coll := { on.coll with shifts := [{ cmd := some ((waits (.waiting .coll) (cmdOf 16 0x51 [(1, 1, 2), (2, 1, 7), (3, 1, 7), (4, 4, 8), (0x18, 8, 0x1000), (0x20, 4, 256)]))).ref, collId := 8, sent := false, got := 0 }] } } 7 4) (waits (.waiting .coll) (cmdOf 16 0x51 [(1, 1, 2), (2, 1, 7), (3, 1, 7), (4, 4, 8), (0x18, 8, 0x1000), (0x20, 4, 256)]))) (fun s => s.dma.units = [] ∧
      0 < (s.advance 0).tide ∧ s.portActive 7 = true ∧ s.roleOf 7 = 4 ∧ s.coll.shifts.find?
      (fun x => x.collId == 8) = some { cmd := some ((waits (.waiting .coll) (cmdOf 16 0x51 [(1, 1, 2), (2, 1, 7), (3, 1, 7), (4, 4, 8), (0x18, 8, 0x1000), (0x20, 4, 256)]))).ref, collId := 8, sent := false, got := 0 } ∧
      s.findCmd ((waits (.waiting .coll)
      (cmdOf 16 0x51 [(1, 1, 2), (2, 1, 7), (3, 1, 7), (4, 4, 8), (0x18, 8, 0x1000), (0x20, 4, 256)]))).ref = some
      (waits (.waiting .coll) (cmdOf 16 0x51 [(1, 1, 2), (2, 1, 7), (3, 1, 7), (4, 4, 8), (0x18, 8, 0x1000), (0x20, 4, 256)])) ∧
      (gatP (waits (.waiting .coll)
      (cmdOf 16 0x51 [(1, 1, 2), (2, 1, 7), (3, 1, 7), (4, 4, 8), (0x18, 8, 0x1000), (0x20, 4, 256)]))).collId = 8 ∧
      (gatP (waits (.waiting .coll)
      (cmdOf 16 0x51 [(1, 1, 2), (2, 1, 7), (3, 1, 7), (4, 4, 8), (0x18, 8, 0x1000), (0x20, 4, 256)]))).next = 7 ∧
      ({ cmd := some ((waits (.waiting .coll) (cmdOf 16 0x51 [(1, 1, 2), (2, 1, 7), (3, 1, 7), (4, 4, 8), (0x18, 8, 0x1000), (0x20, 4, 256)]))).ref, collId := 8, sent := false, got := 0 } : Shift).sent = false ∧
      (s.advance 0).landHeld 7 [(s.gatSrc (gatP (waits (.waiting .coll)
      (cmdOf 16 0x51 [(1, 1, 2), (2, 1, 7), (3, 1, 7), (4, 4, 8), (0x18, 8, 0x1000), (0x20, 4, 256)]))), 256)] = false),
      meets (put (port { on with tide := 6, coll := { on.coll with shifts := [{ cmd := some ((waits (.waiting .coll) (cmdOf 16 0x51 [(1, 1, 2), (2, 1, 7), (3, 1, 7), (4, 4, 8), (0x18, 8, 0x1000), (0x20, 4, 256)]))).ref, collId := 8, sent := false, got := 256 }] } } 7 4) (waits (.waiting .coll) (cmdOf 16 0x51 [(1, 1, 2), (2, 1, 7), (3, 1, 7), (4, 4, 8), (0x18, 8, 0x1000), (0x20, 4, 256)]))) (fun s => s.dma.units = [] ∧
      0 < (s.advance 0).tide ∧ s.portActive 7 = true ∧ s.roleOf 7 = 4 ∧ s.coll.shifts.find?
      (fun x => x.collId == 8) = some { cmd := some ((waits (.waiting .coll) (cmdOf 16 0x51 [(1, 1, 2), (2, 1, 7), (3, 1, 7), (4, 4, 8), (0x18, 8, 0x1000), (0x20, 4, 256)]))).ref, collId := 8, sent := false, got := 256 } ∧
      s.findCmd ((waits (.waiting .coll)
      (cmdOf 16 0x51 [(1, 1, 2), (2, 1, 7), (3, 1, 7), (4, 4, 8), (0x18, 8, 0x1000), (0x20, 4, 256)]))).ref = some
      (waits (.waiting .coll) (cmdOf 16 0x51 [(1, 1, 2), (2, 1, 7), (3, 1, 7), (4, 4, 8), (0x18, 8, 0x1000), (0x20, 4, 256)])) ∧
      (gatP (waits (.waiting .coll)
      (cmdOf 16 0x51 [(1, 1, 2), (2, 1, 7), (3, 1, 7), (4, 4, 8), (0x18, 8, 0x1000), (0x20, 4, 256)]))).collId = 8 ∧
      (gatP (waits (.waiting .coll)
      (cmdOf 16 0x51 [(1, 1, 2), (2, 1, 7), (3, 1, 7), (4, 4, 8), (0x18, 8, 0x1000), (0x20, 4, 256)]))).next = 7 ∧
      ({ cmd := some ((waits (.waiting .coll) (cmdOf 16 0x51 [(1, 1, 2), (2, 1, 7), (3, 1, 7), (4, 4, 8), (0x18, 8, 0x1000), (0x20, 4, 256)]))).ref, collId := 8, sent := false, got := 256 } : Shift).sent = false ∧
      (s.advance 0).landHeld 7 [(s.gatSrc (gatP (waits (.waiting .coll)
      (cmdOf 16 0x51 [(1, 1, 2), (2, 1, 7), (3, 1, 7), (4, 4, 8), (0x18, 8, 0x1000), (0x20, 4, 256)]))), 256)] = false),
      meets (put (port { on with tide := 6, coll := { on.coll with shifts := [{ cmd := some ((waits (.waiting .coll) (cmdOf 16 0x51 [(1, 1, 2), (2, 1, 7), (3, 1, 7), (4, 4, 8), (0x18, 8, 0x1000), (0x20, 4, 0)]))).ref, collId := 8, sent := false, got := 0 }] } } 7 4) (waits (.waiting .coll) (cmdOf 16 0x51 [(1, 1, 2), (2, 1, 7), (3, 1, 7), (4, 4, 8), (0x18, 8, 0x1000), (0x20, 4, 0)]))) (fun s => s.dma.units = [] ∧
      0 < (s.advance 0).tide ∧ s.portActive 7 = true ∧ s.roleOf 7 = 4 ∧ s.coll.shifts.find?
      (fun x => x.collId == 8) = some { cmd := some ((waits (.waiting .coll) (cmdOf 16 0x51 [(1, 1, 2), (2, 1, 7), (3, 1, 7), (4, 4, 8), (0x18, 8, 0x1000), (0x20, 4, 0)]))).ref, collId := 8, sent := false, got := 0 } ∧
      s.findCmd ((waits (.waiting .coll)
      (cmdOf 16 0x51 [(1, 1, 2), (2, 1, 7), (3, 1, 7), (4, 4, 8), (0x18, 8, 0x1000), (0x20, 4, 0)]))).ref = some
      (waits (.waiting .coll) (cmdOf 16 0x51 [(1, 1, 2), (2, 1, 7), (3, 1, 7), (4, 4, 8), (0x18, 8, 0x1000), (0x20, 4, 0)])) ∧
      (gatP (waits (.waiting .coll)
      (cmdOf 16 0x51 [(1, 1, 2), (2, 1, 7), (3, 1, 7), (4, 4, 8), (0x18, 8, 0x1000), (0x20, 4, 0)]))).collId = 8 ∧
      (gatP (waits (.waiting .coll)
      (cmdOf 16 0x51 [(1, 1, 2), (2, 1, 7), (3, 1, 7), (4, 4, 8), (0x18, 8, 0x1000), (0x20, 4, 0)]))).next = 7 ∧
      ({ cmd := some ((waits (.waiting .coll) (cmdOf 16 0x51 [(1, 1, 2), (2, 1, 7), (3, 1, 7), (4, 4, 8), (0x18, 8, 0x1000), (0x20, 4, 0)]))).ref, collId := 8, sent := false, got := 0 } : Shift).sent = false ∧
      (s.advance 0).landHeld 7 [(s.gatSrc (gatP (waits (.waiting .coll)
      (cmdOf 16 0x51 [(1, 1, 2), (2, 1, 7), (3, 1, 7), (4, 4, 8), (0x18, 8, 0x1000), (0x20, 4, 0)]))), 0)] = false),
      meets (put (port { on with tide := 6, coll := { on.coll with shifts := [{ cmd := some ((waits (.waiting .coll) (cmdOf 16 0x51 [(1, 1, 2), (2, 1, 7), (3, 1, 7), (4, 4, 8), (0x18, 8, 0x1000), (0x20, 4, 4)]))).ref, collId := 8, sent := false, got := 0 }] } } 7 4) (waits (.waiting .coll) (cmdOf 16 0x51 [(1, 1, 2), (2, 1, 7), (3, 1, 7), (4, 4, 8), (0x18, 8, 0x1000), (0x20, 4, 4)]))) (fun s => s.dma.units = [] ∧
      0 < (s.advance 0).tide ∧ s.portActive 7 = true ∧ s.roleOf 7 = 4 ∧ s.coll.shifts.find?
      (fun x => x.collId == 8) = some { cmd := some ((waits (.waiting .coll) (cmdOf 16 0x51 [(1, 1, 2), (2, 1, 7), (3, 1, 7), (4, 4, 8), (0x18, 8, 0x1000), (0x20, 4, 4)]))).ref, collId := 8, sent := false, got := 0 } ∧
      s.findCmd ((waits (.waiting .coll)
      (cmdOf 16 0x51 [(1, 1, 2), (2, 1, 7), (3, 1, 7), (4, 4, 8), (0x18, 8, 0x1000), (0x20, 4, 4)]))).ref = some
      (waits (.waiting .coll) (cmdOf 16 0x51 [(1, 1, 2), (2, 1, 7), (3, 1, 7), (4, 4, 8), (0x18, 8, 0x1000), (0x20, 4, 4)])) ∧
      (gatP (waits (.waiting .coll)
      (cmdOf 16 0x51 [(1, 1, 2), (2, 1, 7), (3, 1, 7), (4, 4, 8), (0x18, 8, 0x1000), (0x20, 4, 4)]))).collId = 8 ∧
      (gatP (waits (.waiting .coll)
      (cmdOf 16 0x51 [(1, 1, 2), (2, 1, 7), (3, 1, 7), (4, 4, 8), (0x18, 8, 0x1000), (0x20, 4, 4)]))).prev = 7 ∧
      2 + 2 ≤ (gatP (waits (.waiting .coll)
      (cmdOf 16 0x51 [(1, 1, 2), (2, 1, 7), (3, 1, 7), (4, 4, 8), (0x18, 8, 0x1000), (0x20, 4, 4)]))).seg ∧
      (s.advance 0).landHeld 7 [(s.gatDest (gatP (waits (.waiting .coll)
      (cmdOf 16 0x51 [(1, 1, 2), (2, 1, 7), (3, 1, 7), (4, 4, 8), (0x18, 8, 0x1000), (0x20, 4, 4)]))) + 2, 2)] = false),
      meets (put { on with tide := 5, coll := { on.coll with shifts := [{ cmd := some (({ waits (.waiting .coll) (cmdOf 16 0x51 [(1, 1, 2), (4, 4, 8)]) with deadline := some 5 })).ref, collId := 8, got := 3 }] } } ({ waits (.waiting .coll) (cmdOf 16 0x51 [(1, 1, 2), (4, 4, 8)]) with deadline := some 5 })) (fun s => s.dma.units = [] ∧
      s.coll.ctxs.find? (fun c => c.tile == 1 && c.collId == 8 && decide (c.lease ≤ (s.advance 0).tide)) = none ∧
      s.coll.shifts.find? (fun y => y.collId == 8) = some { cmd := some (({ waits (.waiting .coll) (cmdOf 16 0x51 [(1, 1, 2), (4, 4, 8)]) with deadline := some 5 })).ref, collId := 8, got := 3 } ∧
      s.findCmd (({ waits (.waiting .coll) (cmdOf 16 0x51 [(1, 1, 2), (4, 4, 8)]) with deadline := some 5 })).ref = some ({ waits (.waiting .coll) (cmdOf 16 0x51 [(1, 1, 2), (4, 4, 8)]) with deadline := some 5 }) ∧
      (({ waits (.waiting .coll) (cmdOf 16 0x51 [(1, 1, 2), (4, 4, 8)]) with deadline := some 5 })).deadline = some 5 ∧
      5 ≤ (s.advance 0).tide),
      meets (put { on with tide := 5, coll := { on.coll with ctxs := [{ kind := 0, tile := 1, collId := 8, lease := 5, cmd := some ((waits (.waiting .coll) (cmdOf 16 0x53 []))).ref }] } } (waits (.waiting .coll) (cmdOf 16 0x53 []))) (fun s => s.dma.units = [] ∧
      s.coll.ctxs.find? (fun c => c.tile == 1 && c.collId == 8 && decide (c.lease ≤ (s.advance 0).tide)) = some { kind := 0, tile := 1, collId := 8, lease := 5, cmd := some ((waits (.waiting .coll) (cmdOf 16 0x53 []))).ref } ∧
      s.tilePaused 1 = false),
      meets (put { on with tide := 5, coll := { on.coll with ctxs := [{ kind := 1, tile := 1, collId := 8, lease := 5, cmd := some ((waits (.waiting .coll) (cmdOf 16 0x53 []))).ref }] } } (waits (.waiting .coll) (cmdOf 16 0x53 []))) (fun s => s.dma.units = [] ∧
      s.coll.ctxs.find? (fun c => c.tile == 1 && c.collId == 8 && decide (c.lease ≤ (s.advance 0).tide)) = some { kind := 1, tile := 1, collId := 8, lease := 5, cmd := some ((waits (.waiting .coll) (cmdOf 16 0x53 []))).ref } ∧
      s.tilePaused 1 = false),
      meets (put { on with tide := 5, coll := { on.coll with ctxs := [{ kind := 2, tile := 1, collId := 8, lease := 5, cmd := some ((waits (.waiting .coll) (cmdOf 16 0x53 []))).ref }] } } (waits (.waiting .coll) (cmdOf 16 0x53 []))) (fun s => s.dma.units = [] ∧
      s.coll.ctxs.find? (fun c => c.tile == 1 && c.collId == 8 && decide (c.lease ≤ (s.advance 0).tide)) = some { kind := 2, tile := 1, collId := 8, lease := 5, cmd := some ((waits (.waiting .coll) (cmdOf 16 0x53 []))).ref } ∧
      s.tilePaused 1 = false)].all id = true :=
  by decide +kernel

theorem witness_ChannelsStartAndStop :
    [begins (put (on.write 0x2000000000000000 (area 32 [(0, 1, 4)]))
      (cmdOf 1 0x60 [(0, 2, 0), (2, 1, 0xFF), (3, 1, 0), (4, 4, 60000000), (8, 8, 0x2000000000000000), (0x10, 2, 1)])) 1 0x60 (fun c u => firstFail (dmaChecks u c) = none ∧
      12 ≤ c.param 2 1 ∧ u.channelOrphan 0 = false ∧ addrSpace (c.param 8 8) ≠ 7 ∧ (c.param 3 1).testBit 0 = false ∧
      u.resolve dmaSpaces none 0x2000000000000000 32 = some 0x2000000000000000 ∧
      u.rangeWaits (u.servingComplex 0) 0x2000000000000000 32 = false ∧
      u.badRequest (u.servingComplex 0) 0x2000000000000000 32 = false),
      begins (put (on.write 0x2000000000000000 (area 32 [(0, 1, 4)]))
      (cmdOf 1 0x60 [(0, 2, 191), (2, 1, 0xFF), (3, 1, 0), (4, 4, 60000000), (8, 8, 0x2000000000000000), (0x10, 2, 1)])) 1 0x60 (fun c u => firstFail (dmaChecks u c) = none ∧
      12 ≤ c.param 2 1 ∧ u.channelOrphan 191 = false ∧ addrSpace (c.param 8 8) ≠ 7 ∧ (c.param 3 1).testBit 0 = false ∧
      u.resolve dmaSpaces none 0x2000000000000000 32 = some 0x2000000000000000 ∧
      u.rangeWaits (u.servingComplex 191) 0x2000000000000000 32 = false ∧
      u.badRequest (u.servingComplex 191) 0x2000000000000000 32 = false),
      begins (put on (cmdOf 1 0x60 [(0, 2, 191), (2, 1, 255), (4, 4, 60000000), (8, 8, 0x7000000000000000), (0x10, 2, 1)])) 1 0x60 (fun c u => firstFail (dmaChecks u c) = none ∧
      12 ≤ c.param 2 1 ∧ u.channelOrphan 191 = false ∧ addrSpace (c.param 8 8) = 7),
      begins (put { staged with dies := [(11, { service := 1 })] }
      (cmdOf 1 0x60 [(0, 2, 191), (2, 1, 11), (4, 4, 60000000), (8, 8, 0x2000000000000000), (0x10, 2, 1)])) 1 0x60
      (fun c u => firstFail (dmaChecks u c) = none ∧ (u.die (c.param 2 1)).service = 1),
      begins (put { on with dma := { on.dma with complexes := (List.range 6).map (fun i => (i, { failed := true })) } }
      (cmdOf 1 0x60 [(0, 2, 191), (2, 1, 255), (4, 4, 60000000), (8, 8, 0x2000000000000000), (0x10, 2, 1)])) 1 0x60
      (fun c u => firstFail (dmaChecks u c) = none ∧ 12 ≤ c.param 2 1 ∧ u.channelOrphan 191 = true),
      begins (put (on.modChannel 191
      (fun x => { x with die := 0xFF, progAddr := 0x2000000000000000, progLen := 1, resume := some { pc := 0, byte := 4, offS := 8, offD := 16, iters := [], crc := 9, moved := 4, poisonMoved := 0, mismatches := 0 } })) (cmdOf 1 0x60 [(0, 2, 191), (2, 1, 0xFF), (3, 1, 1), (4, 4, 60000000), (8, 8, 0x2000000000000000), (0x10, 2, 1)])) 1 0x60 (fun c u => firstFail (dmaChecks u c) = none ∧
      12 ≤ c.param 2 1 ∧ u.channelOrphan 191 = false ∧ addrSpace (c.param 8 8) ≠ 7 ∧
      u.resolve dmaSpaces none 0x2000000000000000 32 = some 0x2000000000000000 ∧
      u.rangeWaits (u.servingComplex 191) 0x2000000000000000 32 = false ∧
      u.badRequest (u.servingComplex 191) 0x2000000000000000 32 = false ∧ (c.param 3 1).testBit 0 = true ∧
      ((put (on.modChannel 191 (fun x => { x with die := 0xFF, progAddr := 0x2000000000000000, progLen := 1, resume := some { pc := 0, byte := 4, offS := 8, offD := 16, iters := [], crc := 9, moved := 4, poisonMoved := 0, mismatches := 0 } })) (cmdOf 1 0x60 [(0, 2, 191), (2, 1, 0xFF), (3, 1, 1), (4, 4, 60000000), (8, 8, 0x2000000000000000), (0x10, 2, 1)])).channel 191).resume = some { pc := 0, byte := 4, offS := 8, offD := 16, iters := [], crc := 9, moved := 4, poisonMoved := 0, mismatches := 0 }),
      meets ({ on with tide := 9 }.modChannel 191 (fun x => { x with state := 1, lease := 9, pc := 3 }))
      (fun s => (s.channel 191).active = true ∧ s.channelPaused 191 = false ∧
      (s.channel 191).lease ≤ (s.advance 0).tide),
      meets ({ on with tide := 9 }.modChannel 191 (fun x => { x with state := 2, lease := 9, pc := 3 }))
      (fun s => (s.channel 191).active = true ∧ s.channelPaused 191 = false ∧
      (s.channel 191).lease ≤ (s.advance 0).tide),
      meets ((on.modChannel 0 (fun x => { x with state := 1, pc := 3 })).modChannel 191
      (fun x => { x with state := 1 })) (fun s => (s.complex 0).failed = false ∧ s.servingComplex 0 = 0 ∧
      (s.channel 0).active = true ∧ s.servingComplex 191 ≠ 0 ∧ s.vectorEnabled 22 = true ∧ s.host.functionMask = false ∧
      s.host.vectorMask.toNat.testBit 22 = false),
      meets (put ({ on with tide := 9 }.modChannel 191
      (fun x => { x with state := 1, lease := 9, pc := 3, cmd := some ((waits .running (cmdOf 1 0x60 [(0, 2, 191), (2, 1, 0xFF), (3, 1, 0), (4, 4, 60000000), (8, 8, 0x2000000000000000), (0x10, 2, 1)]))).ref })) (waits .running (cmdOf 1 0x60 [(0, 2, 191), (2, 1, 0xFF), (3, 1, 0), (4, 4, 60000000), (8, 8, 0x2000000000000000), (0x10, 2, 1)]))) (fun s => (s.channel 191).active = true ∧
      s.channelPaused 191 = false ∧ (s.channel 191).lease ≤ (s.advance 0).tide ∧
      (s.channel 191).cmd = some ((waits .running
      (cmdOf 1 0x60 [(0, 2, 191), (2, 1, 0xFF), (3, 1, 0), (4, 4, 60000000), (8, 8, 0x2000000000000000), (0x10, 2, 1)]))).ref),
      meets (put (on.modChannel 0
      (fun x => { x with state := 2, pc := 3, cmd := some ((waits .running (cmdOf 1 0x60 [(0, 2, 191), (2, 1, 0xFF), (3, 1, 0), (4, 4, 60000000), (8, 8, 0x2000000000000000), (0x10, 2, 1)]))).ref })) (waits .running (cmdOf 1 0x60 [(0, 2, 191), (2, 1, 0xFF), (3, 1, 0), (4, 4, 60000000), (8, 8, 0x2000000000000000), (0x10, 2, 1)]))) (fun s => (s.complex 0).failed = false ∧
      s.servingComplex 0 = 0 ∧ (s.channel 0).active = true ∧ (s.channel 0).cmd = some ((waits .running
      (cmdOf 1 0x60 [(0, 2, 191), (2, 1, 0xFF), (3, 1, 0), (4, 4, 60000000), (8, 8, 0x2000000000000000), (0x10, 2, 1)]))).ref ∧
      (s.findCmd ((waits .running
      (cmdOf 1 0x60 [(0, 2, 191), (2, 1, 0xFF), (3, 1, 0), (4, 4, 60000000), (8, 8, 0x2000000000000000), (0x10, 2, 1)]))).ref).isSome = true)].all id = true :=
  by decide +kernel

theorem witness_ChannelProgramsRun :
    [meets ({ put (on.modChannel 191 (fun x => { x with state := 1, cmd := some (waits .running (cmdOf 1 0x60 [(0, 2, 191), (2, 1, 0xFF), (3, 1, 0), (4, 4, 60000000), (8, 8, 0x2000000000000000), (0x10, 2, 1)])).ref, die := 0xFF, progLen := 2, pc := 1, progAddr := 0x7000000000000000, prog := [(0, (area 32 [(0, 1, 1), (4, 4, 4), (8, 8, 0x2000000000000000), (16, 8, 0x2000000000010000)], none)), (1, (area 32 [(0, 1, 1), (4, 4, 4), (8, 8, 0x2000000000000000), (16, 8, 0x2000000000010000)], none))] , offS := 0x20, offD := 0x40, resumeByte := 0 })) (waits .running (cmdOf 1 0x60 [(0, 2, 191), (2, 1, 0xFF), (3, 1, 0), (4, 4, 60000000), (8, 8, 0x2000000000000000), (0x10, 2, 1)])) with mem := [(0x2000000000000023, 7)] }) (fun s => (s.channel 191).active = true ∧
      s.channelPaused 191 = false ∧ (s.channel 191).pc < (s.channel 191).progLen ∧
      tabFind (s.channel 191).prog (s.channel 191).pc = some (area 32 [(0, 1, 1), (4, 4, 4), (8, 8, 0x2000000000000000), (16, 8, 0x2000000000010000)], none) ∧
      instrOk (area 32 [(0, 1, 1), (4, 4, 4), (8, 8, 0x2000000000000000), (16, 8, 0x2000000000010000)]) = true ∧
      (s.resolve dmaSpaces none 0x2000000000000020 4) = some 0x2000000000000020 ∧
      (s.resolve dmaSpaces none 0x2000000000010040 4) = some 0x2000000000010040 ∧ (s.channel 191).resumeByte < 4 ∧
      rangesMeet 0x2000000000000020 0x2000000000010040 4 = false ∧ burstBytes (0x2000000000000020 + 0) (4 - 0) ≤ 4 ∧
      (s.advance 0).rangeStops (s.servingComplex 191) (0x2000000000000020 + 0) 4 = false ∧
      (s.advance 0).rangeStops (s.servingComplex 191) (0x2000000000010040 + 0) 4 = false ∧
      s.badRequest (s.servingComplex 191) (0x2000000000000020 + 0) 4 = false ∧
      s.badRequest (s.servingComplex 191) (0x2000000000010040 + 0) 4 = false),
      meets ({ put (on.modChannel 191 (fun x => { x with state := 1, cmd := some (waits .running (cmdOf 1 0x60 [(0, 2, 191), (2, 1, 0xFF), (3, 1, 0), (4, 4, 60000000), (8, 8, 0x2000000000000000), (0x10, 2, 1)])).ref, die := 0xFF, progLen := 2, pc := 1, progAddr := 0x7000000000000000, prog := [(0, (area 32 [(0, 1, 1), (4, 4, 4), (8, 8, 0x2000000000000000), (16, 8, 0x2000000000010000)], none)), (1, (area 32 [(0, 1, 1), (4, 4, 4), (8, 8, 0x2000000000000000), (16, 8, 0x2000000000010000)], none))] , offS := 0x20, offD := 0x40, resumeByte := 2 })) (waits .running (cmdOf 1 0x60 [(0, 2, 191), (2, 1, 0xFF), (3, 1, 0), (4, 4, 60000000), (8, 8, 0x2000000000000000), (0x10, 2, 1)])) with mem := [(0x2000000000000023, 7)] }) (fun s => (s.channel 191).active = true ∧
      s.channelPaused 191 = false ∧ (s.channel 191).pc < (s.channel 191).progLen ∧
      tabFind (s.channel 191).prog (s.channel 191).pc = some (area 32 [(0, 1, 1), (4, 4, 4), (8, 8, 0x2000000000000000), (16, 8, 0x2000000000010000)], none) ∧
      instrOk (area 32 [(0, 1, 1), (4, 4, 4), (8, 8, 0x2000000000000000), (16, 8, 0x2000000000010000)]) = true ∧
      (s.resolve dmaSpaces none 0x2000000000000020 4) = some 0x2000000000000020 ∧
      (s.resolve dmaSpaces none 0x2000000000010040 4) = some 0x2000000000010040 ∧ (s.channel 191).resumeByte < 4 ∧
      rangesMeet 0x2000000000000020 0x2000000000010040 4 = false ∧ burstBytes (0x2000000000000020 + 2) (4 - 2) ≤ 2 ∧
      (s.advance 0).rangeStops (s.servingComplex 191) (0x2000000000000020 + 2) 2 = false ∧
      (s.advance 0).rangeStops (s.servingComplex 191) (0x2000000000010040 + 2) 2 = false ∧
      s.badRequest (s.servingComplex 191) (0x2000000000000020 + 2) 2 = false ∧
      s.badRequest (s.servingComplex 191) (0x2000000000010040 + 2) 2 = false),
      meets ({ put (on.modChannel 191 (fun x => { x with state := 1, cmd := some (waits .running (cmdOf 1 0x60 [(0, 2, 191), (2, 1, 0xFF), (3, 1, 0), (4, 4, 60000000), (8, 8, 0x2000000000000000), (0x10, 2, 1)])).ref, die := 0xFF, progLen := 2, pc := 1, progAddr := 0x7000000000000000, prog := [(0, (area 32 [(0, 1, 1), (4, 4, 8192), (8, 8, 0x2000000000000000), (16, 8, 0x2000000000010000)], none)), (1, (area 32 [(0, 1, 1), (4, 4, 8192), (8, 8, 0x2000000000000000), (16, 8, 0x2000000000010000)], none))] , offS := 0x20, offD := 0x40, resumeByte := 0 })) (waits .running (cmdOf 1 0x60 [(0, 2, 191), (2, 1, 0xFF), (3, 1, 0), (4, 4, 60000000), (8, 8, 0x2000000000000000), (0x10, 2, 1)])) with mem := [(0x2000000000000023, 7)] }) (fun s => (s.channel 191).active = true ∧
      s.channelPaused 191 = false ∧ (s.channel 191).pc < (s.channel 191).progLen ∧
      tabFind (s.channel 191).prog (s.channel 191).pc = some (area 32 [(0, 1, 1), (4, 4, 8192), (8, 8, 0x2000000000000000), (16, 8, 0x2000000000010000)], none) ∧
      instrOk (area 32 [(0, 1, 1), (4, 4, 8192), (8, 8, 0x2000000000000000), (16, 8, 0x2000000000010000)]) = true ∧
      (s.resolve dmaSpaces none 0x2000000000000020 8192) = some 0x2000000000000020 ∧
      (s.resolve dmaSpaces none 0x2000000000010040 8192) = some 0x2000000000010040 ∧ (s.channel 191).resumeByte < 8192 ∧
      rangesMeet 0x2000000000000020 0x2000000000010040 8192 = false ∧
      burstBytes (0x2000000000000020 + 0) (8192 - 0) ≤ 4096 ∧
      (s.advance 0).rangeStops (s.servingComplex 191) (0x2000000000000020 + 0) 4096 = false ∧
      (s.advance 0).rangeStops (s.servingComplex 191) (0x2000000000010040 + 0) 4096 = false ∧
      s.badRequest (s.servingComplex 191) (0x2000000000000020 + 0) 4096 = false ∧
      s.badRequest (s.servingComplex 191) (0x2000000000010040 + 0) 4096 = false),
      meets (put (on.modChannel 191
      (fun x => { x with state := 1, cmd := some (waits .running (cmdOf 1 0x60 [(0, 2, 191), (2, 1, 0xFF), (3, 1, 0), (4, 4, 60000000), (8, 8, 0x2000000000000000), (0x10, 2, 1)])).ref, die := 0xFF, progLen := 2, pc := 1, progAddr := 0x7000000000000000, prog := [(0, (area 32 [(0, 1, 2), (2, 2, 0), (4, 4, 3), (8, 8, 16), (16, 8, 32)], none)), (1, (area 32 [(0, 1, 2), (2, 2, 0), (4, 4, 3), (8, 8, 16), (16, 8, 32)], none))] , offS := 64, offD := 64 })) (waits .running (cmdOf 1 0x60 [(0, 2, 191), (2, 1, 0xFF), (3, 1, 0), (4, 4, 60000000), (8, 8, 0x2000000000000000), (0x10, 2, 1)]))) (fun s => (s.channel 191).active = true ∧
      s.channelPaused 191 = false ∧ (s.channel 191).pc < (s.channel 191).progLen ∧
      tabFind (s.channel 191).prog (s.channel 191).pc = some (area 32 [(0, 1, 2), (2, 2, 0), (4, 4, 3), (8, 8, 16), (16, 8, 32)], none) ∧
      instrOk (area 32 [(0, 1, 2), (2, 2, 0), (4, 4, 3), (8, 8, 16), (16, 8, 32)]) = true ∧ 0 < (s.channel 191).pc ∧
      tabGet 0 (s.channel 191).iters 1 = 0 ∧ 0 + 1 < 3),
      meets (put (on.modChannel 191
      (fun x => { x with state := 1, cmd := some (waits .running (cmdOf 1 0x60 [(0, 2, 191), (2, 1, 0xFF), (3, 1, 0), (4, 4, 60000000), (8, 8, 0x2000000000000000), (0x10, 2, 1)])).ref, die := 0xFF, progLen := 2, pc := 1, progAddr := 0x7000000000000000, prog := [(0, (area 32 [(0, 1, 2), (2, 2, 0), (4, 4, 3), (8, 8, 16), (16, 8, 32)], none)), (1, (area 32 [(0, 1, 2), (2, 2, 0), (4, 4, 3), (8, 8, 16), (16, 8, 32)], none))] , offS := 64, offD := 64, iters := [(1, 1)] })) (waits .running (cmdOf 1 0x60 [(0, 2, 191), (2, 1, 0xFF), (3, 1, 0), (4, 4, 60000000), (8, 8, 0x2000000000000000), (0x10, 2, 1)]))) (fun s => (s.channel 191).active = true ∧
      s.channelPaused 191 = false ∧ (s.channel 191).pc < (s.channel 191).progLen ∧
      tabFind (s.channel 191).prog (s.channel 191).pc = some (area 32 [(0, 1, 2), (2, 2, 0), (4, 4, 3), (8, 8, 16), (16, 8, 32)], none) ∧
      instrOk (area 32 [(0, 1, 2), (2, 2, 0), (4, 4, 3), (8, 8, 16), (16, 8, 32)]) = true ∧ 0 < (s.channel 191).pc ∧
      tabGet 0 (s.channel 191).iters 1 = 1 ∧ 1 + 1 < 3),
      meets (put (on.modChannel 191
      (fun x => { x with state := 1, cmd := some (waits .running (cmdOf 1 0x60 [(0, 2, 191), (2, 1, 0xFF), (3, 1, 0), (4, 4, 60000000), (8, 8, 0x2000000000000000), (0x10, 2, 1)])).ref, die := 0xFF, progLen := 2, pc := 1, progAddr := 0x7000000000000000, prog := [(0, (area 32 [(0, 1, 2), (2, 2, 0), (4, 4, 3), (8, 8, 16), (16, 8, 32)], none)), (1, (area 32 [(0, 1, 2), (2, 2, 0), (4, 4, 3), (8, 8, 16), (16, 8, 32)], none))] , offS := 64, offD := 64, iters := [(1, 2)] })) (waits .running (cmdOf 1 0x60 [(0, 2, 191), (2, 1, 0xFF), (3, 1, 0), (4, 4, 60000000), (8, 8, 0x2000000000000000), (0x10, 2, 1)]))) (fun s => (s.channel 191).active = true ∧
      s.channelPaused 191 = false ∧ (s.channel 191).pc < (s.channel 191).progLen ∧
      tabFind (s.channel 191).prog (s.channel 191).pc = some (area 32 [(0, 1, 2), (2, 2, 0), (4, 4, 3), (8, 8, 16), (16, 8, 32)], none) ∧
      instrOk (area 32 [(0, 1, 2), (2, 2, 0), (4, 4, 3), (8, 8, 16), (16, 8, 32)]) = true ∧ 0 < (s.channel 191).pc ∧
      tabGet 0 (s.channel 191).iters 1 = 2 ∧ 3 ≤ 2 + 1),
      meets ({ put (on.modChannel 191 (fun x => { x with state := 1, cmd := some (waits .running (cmdOf 1 0x60 [(0, 2, 191), (2, 1, 0xFF), (3, 1, 0), (4, 4, 60000000), (8, 8, 0x2000000000000000), (0x10, 2, 1)])).ref, die := 0xFF, progLen := 2, pc := 0, progAddr := 0x7000000000000000, prog := [(0, (area 32 [(0, 1, 3), (8, 8, 0x8000000000000000), (16, 8, 5)], none)), (1, (area 32 [(0, 1, 3), (8, 8, 0x8000000000000000), (16, 8, 5)], none))]  })) (waits .running (cmdOf 1 0x60 [(0, 2, 191), (2, 1, 0xFF), (3, 1, 0), (4, 4, 60000000), (8, 8, 0x2000000000000000), (0x10, 2, 1)])) with tide := 5, host := { (put (on.modChannel 191 (fun x => { x with state := 1, cmd := some (waits .running (cmdOf 1 0x60 [(0, 2, 191), (2, 1, 0xFF), (3, 1, 0), (4, 4, 60000000), (8, 8, 0x2000000000000000), (0x10, 2, 1)])).ref, die := 0xFF, progLen := 2, pc := 0, progAddr := 0x7000000000000000, prog := [(0, (area 32 [(0, 1, 3), (8, 8, 0x8000000000000000), (16, 8, 5)], none)), (1, (area 32 [(0, 1, 3), (8, 8, 0x8000000000000000), (16, 8, 5)], none))]  })) (waits .running (cmdOf 1 0x60 [(0, 2, 191), (2, 1, 0xFF), (3, 1, 0), (4, 4, 60000000), (8, 8, 0x2000000000000000), (0x10, 2, 1)]))).host with signals := 0x8000000000000000 } }) (fun s => (s.channel 191).active = true ∧
      s.channelPaused 191 = false ∧ (s.channel 191).pc < (s.channel 191).progLen ∧
      tabFind (s.channel 191).prog (s.channel 191).pc = some (area 32 [(0, 1, 3), (8, 8, 0x8000000000000000), (16, 8, 5)], none) ∧
      instrOk (area 32 [(0, 1, 3), (8, 8, 0x8000000000000000), (16, 8, 5)]) = true ∧ s.signal 63 = true ∧
      5 ≤ (s.advance 0).tide ∧ afterEvent (tabGet 0 s.host.signalTide 63) ≤ (s.advance 0).tide),
      meets ({ put (on.modChannel 191 (fun x => { x with state := 1, cmd := some (waits .running (cmdOf 1 0x60 [(0, 2, 191), (2, 1, 0xFF), (3, 1, 0), (4, 4, 60000000), (8, 8, 0x2000000000000000), (0x10, 2, 1)])).ref, die := 0xFF, progLen := 2, pc := 0, progAddr := 0x7000000000000000, prog := [(0, (area 32 [(0, 1, 3), (8, 8, 0x8000000000000000), (16, 8, 5)], none)), (1, (area 32 [(0, 1, 3), (8, 8, 0x8000000000000000), (16, 8, 5)], none))]  })) (waits .running (cmdOf 1 0x60 [(0, 2, 191), (2, 1, 0xFF), (3, 1, 0), (4, 4, 60000000), (8, 8, 0x2000000000000000), (0x10, 2, 1)])) with tide := 4, host := { (put (on.modChannel 191 (fun x => { x with state := 1, cmd := some (waits .running (cmdOf 1 0x60 [(0, 2, 191), (2, 1, 0xFF), (3, 1, 0), (4, 4, 60000000), (8, 8, 0x2000000000000000), (0x10, 2, 1)])).ref, die := 0xFF, progLen := 2, pc := 0, progAddr := 0x7000000000000000, prog := [(0, (area 32 [(0, 1, 3), (8, 8, 0x8000000000000000), (16, 8, 5)], none)), (1, (area 32 [(0, 1, 3), (8, 8, 0x8000000000000000), (16, 8, 5)], none))]  })) (waits .running (cmdOf 1 0x60 [(0, 2, 191), (2, 1, 0xFF), (3, 1, 0), (4, 4, 60000000), (8, 8, 0x2000000000000000), (0x10, 2, 1)]))).host with signals := 0x8000000000000000 } }) (fun s => (s.channel 191).active = true ∧
      s.channelPaused 191 = false ∧ (s.channel 191).pc < (s.channel 191).progLen ∧
      tabFind (s.channel 191).prog (s.channel 191).pc = some (area 32 [(0, 1, 3), (8, 8, 0x8000000000000000), (16, 8, 5)], none) ∧
      instrOk (area 32 [(0, 1, 3), (8, 8, 0x8000000000000000), (16, 8, 5)]) = true ∧ s.signal 63 = true ∧
      5 > (s.advance 0).tide),
      meets ({ put (on.modChannel 191 (fun x => { x with state := 1, cmd := some (waits .running (cmdOf 1 0x60 [(0, 2, 191), (2, 1, 0xFF), (3, 1, 0), (4, 4, 60000000), (8, 8, 0x2000000000000000), (0x10, 2, 1)])).ref, die := 0xFF, progLen := 2, pc := 0, progAddr := 0x7000000000000000, prog := [(0, (area 32 [(0, 1, 3), (8, 8, 0x8000000000000000), (16, 8, 5)], none)), (1, (area 32 [(0, 1, 3), (8, 8, 0x8000000000000000), (16, 8, 5)], none))]  })) (waits .running (cmdOf 1 0x60 [(0, 2, 191), (2, 1, 0xFF), (3, 1, 0), (4, 4, 60000000), (8, 8, 0x2000000000000000), (0x10, 2, 1)])) with tide := 5, host := { (put (on.modChannel 191 (fun x => { x with state := 1, cmd := some (waits .running (cmdOf 1 0x60 [(0, 2, 191), (2, 1, 0xFF), (3, 1, 0), (4, 4, 60000000), (8, 8, 0x2000000000000000), (0x10, 2, 1)])).ref, die := 0xFF, progLen := 2, pc := 0, progAddr := 0x7000000000000000, prog := [(0, (area 32 [(0, 1, 3), (8, 8, 0x8000000000000000), (16, 8, 5)], none)), (1, (area 32 [(0, 1, 3), (8, 8, 0x8000000000000000), (16, 8, 5)], none))]  })) (waits .running (cmdOf 1 0x60 [(0, 2, 191), (2, 1, 0xFF), (3, 1, 0), (4, 4, 60000000), (8, 8, 0x2000000000000000), (0x10, 2, 1)]))).host with signals := 0x7FFFFFFFFFFFFFFF } }) (fun s => (s.channel 191).active = true ∧
      s.channelPaused 191 = false ∧ (s.channel 191).pc < (s.channel 191).progLen ∧
      tabFind (s.channel 191).prog (s.channel 191).pc = some (area 32 [(0, 1, 3), (8, 8, 0x8000000000000000), (16, 8, 5)], none) ∧
      instrOk (area 32 [(0, 1, 3), (8, 8, 0x8000000000000000), (16, 8, 5)]) = true ∧ s.signal 63 = false ∧
      5 ≤ (s.advance 0).tide),
      meets ({ put (on.modChannel 191 (fun x => { x with state := 1, cmd := some (waits .running (cmdOf 1 0x60 [(0, 2, 191), (2, 1, 0xFF), (3, 1, 0), (4, 4, 60000000), (8, 8, 0x2000000000000000), (0x10, 2, 1)])).ref, die := 0xFF, progLen := 2, pc := 0, progAddr := 0x7000000000000000, prog := [(0, (area 32 [(0, 1, 4), (8, 8, 6), (16, 8, 1)], none)), (1, (area 32 [(0, 1, 4), (8, 8, 6), (16, 8, 1)], none))]  })) (waits .running (cmdOf 1 0x60 [(0, 2, 191), (2, 1, 0xFF), (3, 1, 0), (4, 4, 60000000), (8, 8, 0x2000000000000000), (0x10, 2, 1)])) with host := { (put (on.modChannel 191 (fun x => { x with state := 1, cmd := some (waits .running (cmdOf 1 0x60 [(0, 2, 191), (2, 1, 0xFF), (3, 1, 0), (4, 4, 60000000), (8, 8, 0x2000000000000000), (0x10, 2, 1)])).ref, die := 0xFF, progLen := 2, pc := 0, progAddr := 0x7000000000000000, prog := [(0, (area 32 [(0, 1, 4), (8, 8, 6), (16, 8, 1)], none)), (1, (area 32 [(0, 1, 4), (8, 8, 6), (16, 8, 1)], none))]  })) (waits .running (cmdOf 1 0x60 [(0, 2, 191), (2, 1, 0xFF), (3, 1, 0), (4, 4, 60000000), (8, 8, 0x2000000000000000), (0x10, 2, 1)]))).host with signals := 4 } }) (fun s => (s.channel 191).active = true ∧
      s.channelPaused 191 = false ∧ (s.channel 191).pc < (s.channel 191).progLen ∧
      tabFind (s.channel 191).prog (s.channel 191).pc = some (area 32 [(0, 1, 4), (8, 8, 6), (16, 8, 1)], none) ∧
      instrOk (area 32 [(0, 1, 4), (8, 8, 6), (16, 8, 1)]) = true ∧ (4 : Nat) = 4),
      meets (put (on.modChannel 191
      (fun x => { x with state := 1, cmd := some (waits .running (cmdOf 1 0x60 [(0, 2, 191), (2, 1, 0xFF), (3, 1, 0), (4, 4, 60000000), (8, 8, 0x2000000000000000), (0x10, 2, 1)])).ref, die := 0xFF, progLen := 2, pc := 0, progAddr := 0x7000000000000000, prog := [(0, (area 32 [(0, 1, 5), (1, 1, 63), (2, 1, 0), (3, 1, 1), (8, 8, 0)], none)), (1, (area 32 [(0, 1, 5), (1, 1, 63), (2, 1, 0), (3, 1, 1), (8, 8, 0)], none))]  })) (waits .running (cmdOf 1 0x60 [(0, 2, 191), (2, 1, 0xFF), (3, 1, 0), (4, 4, 60000000), (8, 8, 0x2000000000000000), (0x10, 2, 1)]))) (fun s => (s.channel 191).active = true ∧
      s.channelPaused 191 = false ∧ (s.channel 191).pc < (s.channel 191).progLen ∧
      tabFind (s.channel 191).prog (s.channel 191).pc = some (area 32 [(0, 1, 5), (1, 1, 63), (2, 1, 0), (3, 1, 1), (8, 8, 0)], none) ∧
      instrOk (area 32 [(0, 1, 5), (1, 1, 63), (2, 1, 0), (3, 1, 1), (8, 8, 0)]) = true ∧ (s.unit 63).armed = false),
      meets ((put (on.modChannel 191
      (fun x => { x with state := 1, cmd := some (waits .running (cmdOf 1 0x60 [(0, 2, 191), (2, 1, 0xFF), (3, 1, 0), (4, 4, 60000000), (8, 8, 0x2000000000000000), (0x10, 2, 1)])).ref, die := 0xFF, progLen := 2, pc := 0, progAddr := 0x7000000000000000, prog := [(0, (area 32 [(0, 1, 5), (1, 1, 63), (2, 1, 0), (3, 1, 1), (8, 8, 0)], none)), (1, (area 32 [(0, 1, 5), (1, 1, 63), (2, 1, 0), (3, 1, 1), (8, 8, 0)], none))]  })) (waits .running (cmdOf 1 0x60 [(0, 2, 191), (2, 1, 0xFF), (3, 1, 0), (4, 4, 60000000), (8, 8, 0x2000000000000000), (0x10, 2, 1)]))).modUnit 63 (fun x => { x with armed := true })) (fun s => (s.channel 191).active = true ∧
      s.channelPaused 191 = false ∧ (s.channel 191).pc < (s.channel 191).progLen ∧
      tabFind (s.channel 191).prog (s.channel 191).pc = some (area 32 [(0, 1, 5), (1, 1, 63), (2, 1, 0), (3, 1, 1), (8, 8, 0)], none) ∧
      instrOk (area 32 [(0, 1, 5), (1, 1, 63), (2, 1, 0), (3, 1, 1), (8, 8, 0)]) = true ∧ (s.unit 63).armed = true),
      meets ((put (on.modChannel 191
      (fun x => { x with state := 1, cmd := some (waits .running (cmdOf 1 0x60 [(0, 2, 191), (2, 1, 0xFF), (3, 1, 0), (4, 4, 60000000), (8, 8, 0x2000000000000000), (0x10, 2, 1)])).ref, die := 0xFF, progLen := 2, pc := 0, progAddr := 0x7000000000000000, prog := [(0, (area 32 [(0, 1, 5), (1, 1, 63), (2, 1, 1), (3, 1, 1), (8, 8, 0)], none)), (1, (area 32 [(0, 1, 5), (1, 1, 63), (2, 1, 1), (3, 1, 1), (8, 8, 0)], none))]  })) (waits .running (cmdOf 1 0x60 [(0, 2, 191), (2, 1, 0xFF), (3, 1, 0), (4, 4, 60000000), (8, 8, 0x2000000000000000), (0x10, 2, 1)]))).modUnit 63 (fun x => { x with armed := true, value := 5 })) (fun s => (s.channel 191).active = true ∧
      s.channelPaused 191 = false ∧ (s.channel 191).pc < (s.channel 191).progLen ∧
      tabFind (s.channel 191).prog (s.channel 191).pc = some (area 32 [(0, 1, 5), (1, 1, 63), (2, 1, 1), (3, 1, 1), (8, 8, 0)], none) ∧
      instrOk (area 32 [(0, 1, 5), (1, 1, 63), (2, 1, 1), (3, 1, 1), (8, 8, 0)]) = true ∧ 63 < 64),
      meets (put (on.modChannel 191
      (fun x => { x with state := 1, cmd := some (waits .running (cmdOf 1 0x60 [(0, 2, 191), (2, 1, 0xFF), (3, 1, 0), (4, 4, 60000000), (8, 8, 0x2000000000000000), (0x10, 2, 1)])).ref, die := 0xFF, progLen := 2, pc := 0, progAddr := 0x7000000000000000, prog := [(0, (area 32 [(0, 1, 5), (1, 1, 63), (2, 1, 2), (3, 1, 1), (8, 8, 0)], none)), (1, (area 32 [(0, 1, 5), (1, 1, 63), (2, 1, 2), (3, 1, 1), (8, 8, 0)], none))]  })) (waits .running (cmdOf 1 0x60 [(0, 2, 191), (2, 1, 0xFF), (3, 1, 0), (4, 4, 60000000), (8, 8, 0x2000000000000000), (0x10, 2, 1)]))) (fun s => (s.channel 191).active = true ∧
      s.channelPaused 191 = false ∧ (s.channel 191).pc < (s.channel 191).progLen ∧
      tabFind (s.channel 191).prog (s.channel 191).pc = some (area 32 [(0, 1, 5), (1, 1, 63), (2, 1, 2), (3, 1, 1), (8, 8, 0)], none) ∧
      instrOk (area 32 [(0, 1, 5), (1, 1, 63), (2, 1, 2), (3, 1, 1), (8, 8, 0)]) = true ∧ unitResult (s.unit 63) = 0 ∧
      (s.unit 63).unverifiable = false),
      meets (put (on.modChannel 191
      (fun x => { x with state := 1, cmd := some (waits .running (cmdOf 1 0x60 [(0, 2, 191), (2, 1, 0xFF), (3, 1, 0), (4, 4, 60000000), (8, 8, 0x2000000000000000), (0x10, 2, 1)])).ref, die := 0xFF, progLen := 2, pc := 0, progAddr := 0x7000000000000000, prog := [(0, (area 32 [], none)), (1, (area 32 [], none))]  })) (waits .running (cmdOf 1 0x60 [(0, 2, 191), (2, 1, 0xFF), (3, 1, 0), (4, 4, 60000000), (8, 8, 0x2000000000000000), (0x10, 2, 1)]))) (fun s => (s.channel 191).active = true ∧
      s.channelPaused 191 = false ∧ (s.channel 191).pc < (s.channel 191).progLen ∧
      tabFind (s.channel 191).prog (s.channel 191).pc = some (area 32 [], none) ∧ instrOk (area 32 []) = true ∧
      (s.channel 191).cmd.isSome = true),
      meets (put (on.modChannel 191
      (fun x => { x with state := 1, cmd := some (waits .running (cmdOf 1 0x60 [(0, 2, 191), (2, 1, 0xFF), (3, 1, 0), (4, 4, 60000000), (8, 8, 0x2000000000000000), (0x10, 2, 1)])).ref, die := 0xFF, progLen := 2, pc := 0, progAddr := 0x7000000000000000, prog := [(0, (area 32 [(1, 1, 1), (8, 8, 0x2000000000000000)], none)), (1, (area 32 [(1, 1, 1), (8, 8, 0x2000000000000000)], none))]  })) (waits .running (cmdOf 1 0x60 [(0, 2, 191), (2, 1, 0xFF), (3, 1, 0), (4, 4, 60000000), (8, 8, 0x2000000000000000), (0x10, 2, 1)]))) (fun s => (s.channel 191).active = true ∧
      s.channelPaused 191 = false ∧ (s.channel 191).pc < (s.channel 191).progLen ∧
      tabFind (s.channel 191).prog (s.channel 191).pc = some (area 32 [(1, 1, 1), (8, 8, 0x2000000000000000)], none) ∧
      instrOk (area 32 [(1, 1, 1), (8, 8, 0x2000000000000000)]) = true ∧
      s.resolve dmaSpaces none 0x2000000000000000 4 = some 0x2000000000000000 ∧
      s.badRequest (s.servingComplex 191) 0x2000000000000000 4 = false ∧
      (s.advance 0).rangeWaits (s.servingComplex 191) 0x2000000000000000 4 = false),
      meets ({ on.modChannel 191 (fun x => { x with dests := [(0, 0x2000000000000000)] }) with dies := [(3, { service := 3, outOfService := true }), (4, { service := 2, outOfService := true })] }) (fun s => (s.channel 191).dests.all (fun e => !s.rangeWaits (s.servingComplex 191) e.2 64 && !s.badRequest (s.servingComplex 191) e.2 64) = true),
      meets ({ on.modChannel 191 (fun x => { x with dests := [(0, 0x5300000000000000)] }) with dies := [(3, { service := 3, outOfService := true }), (4, { service := 2, outOfService := true })] }) (fun s => (s.channel 191).dests.any (fun e => s.rangeWaits (s.servingComplex 191) e.2 64) = true),
      meets ({ on.modChannel 191 (fun x => { x with dests := [(0, 0x5400000000000000)] }) with dies := [(3, { service := 3, outOfService := true }), (4, { service := 2, outOfService := true })] }) (fun s => (s.channel 191).dests.all (fun e => !s.rangeWaits (s.servingComplex 191) e.2 64) = true ∧
      (s.channel 191).dests.find? (fun e => s.badRequest (s.servingComplex 191) e.2 64) = some (0, 0x5400000000000000)),
      meets ({ put (on.modChannel 191 (fun x => { x with state := 1, cmd := some (waits .running (cmdOf 1 0x60 [(0, 2, 191), (2, 1, 0xFF), (3, 1, 0), (4, 4, 60000000), (8, 8, 0x2000000000000000), (0x10, 2, 1)])).ref, die := 0xFF, progLen := 2, pc := 0, progAddr := 0x7000000000000000, prog := [(0, (area 32 [(0, 1, 1), (4, 4, 4), (8, 8, 0x5300000000000000), (16, 8, 0x2000000000000000)], none)), (1, (area 32 [(0, 1, 1), (4, 4, 4), (8, 8, 0x5300000000000000), (16, 8, 0x2000000000000000)], none))]  })) (waits .running (cmdOf 1 0x60 [(0, 2, 191), (2, 1, 0xFF), (3, 1, 0), (4, 4, 60000000), (8, 8, 0x2000000000000000), (0x10, 2, 1)])) with dies := [(3, { service := 3, outOfService := true }), (4, { service := 2, outOfService := true })] }) (fun s => (s.channel 191).active = true ∧
      s.channelPaused 191 = false ∧ (s.channel 191).pc < (s.channel 191).progLen ∧
      tabFind (s.channel 191).prog (s.channel 191).pc = some (area 32 [(0, 1, 1), (4, 4, 4), (8, 8, 0x5300000000000000), (16, 8, 0x2000000000000000)], none) ∧
      instrOk (area 32 [(0, 1, 1), (4, 4, 4), (8, 8, 0x5300000000000000), (16, 8, 0x2000000000000000)]) = true ∧
      s.resolve dmaSpaces none 0x5300000000000000 4 = some 0x5300000000000000 ∧
      s.resolve dmaSpaces none 0x2000000000000000 4 = some 0x2000000000000000 ∧
      (s.advance 0).rangeWaits (s.servingComplex 191) 0x5300000000000000 4 = true),
      meets ({ put (on.modChannel 191 (fun x => { x with state := 1, cmd := some (waits .running (cmdOf 1 0x60 [(0, 2, 191), (2, 1, 0xFF), (3, 1, 0), (4, 4, 60000000), (8, 8, 0x2000000000000000), (0x10, 2, 1)])).ref, die := 0xFF, progLen := 2, pc := 0, progAddr := 0x7000000000000000, prog := [(0, (area 32 [(0, 1, 1), (4, 4, 4), (8, 8, 0x5400000000000000), (16, 8, 0x2000000000000000)], none)), (1, (area 32 [(0, 1, 1), (4, 4, 4), (8, 8, 0x5400000000000000), (16, 8, 0x2000000000000000)], none))]  })) (waits .running (cmdOf 1 0x60 [(0, 2, 191), (2, 1, 0xFF), (3, 1, 0), (4, 4, 60000000), (8, 8, 0x2000000000000000), (0x10, 2, 1)])) with dies := [(3, { service := 3, outOfService := true }), (4, { service := 2, outOfService := true })] }) (fun s => (s.channel 191).active = true ∧
      s.channelPaused 191 = false ∧ (s.channel 191).pc < (s.channel 191).progLen ∧
      tabFind (s.channel 191).prog (s.channel 191).pc = some (area 32 [(0, 1, 1), (4, 4, 4), (8, 8, 0x5400000000000000), (16, 8, 0x2000000000000000)], none) ∧
      instrOk (area 32 [(0, 1, 1), (4, 4, 4), (8, 8, 0x5400000000000000), (16, 8, 0x2000000000000000)]) = true ∧
      s.resolve dmaSpaces none 0x5400000000000000 4 = some 0x5400000000000000 ∧
      s.resolve dmaSpaces none 0x2000000000000000 4 = some 0x2000000000000000 ∧
      (s.advance 0).rangeWaits (s.servingComplex 191) 0x5400000000000000 4 = false ∧
      (s.advance 0).rangeWaits (s.servingComplex 191) 0x2000000000000000 4 = false ∧
      (s.advance 0).badRequest (s.servingComplex 191) 0x5400000000000000 4 = true),
      meets ({ put (on.modChannel 191 (fun x => { x with state := 1, cmd := some (waits .running (cmdOf 1 0x60 [(0, 2, 191), (2, 1, 0xFF), (3, 1, 0), (4, 4, 60000000), (8, 8, 0x2000000000000000), (0x10, 2, 1)])).ref, die := 0xFF, progLen := 2, pc := 0, progAddr := 0x7000000000000000, prog := [(0, (area 32 [(0, 1, 1), (4, 4, 4), (8, 8, 0x2000000000000000), (16, 8, 0x5400000000000000)], none)), (1, (area 32 [(0, 1, 1), (4, 4, 4), (8, 8, 0x2000000000000000), (16, 8, 0x5400000000000000)], none))]  })) (waits .running (cmdOf 1 0x60 [(0, 2, 191), (2, 1, 0xFF), (3, 1, 0), (4, 4, 60000000), (8, 8, 0x2000000000000000), (0x10, 2, 1)])) with dies := [(3, { service := 3, outOfService := true }), (4, { service := 2, outOfService := true })] }) (fun s => (s.channel 191).active = true ∧
      s.channelPaused 191 = false ∧ (s.channel 191).pc < (s.channel 191).progLen ∧
      tabFind (s.channel 191).prog (s.channel 191).pc = some (area 32 [(0, 1, 1), (4, 4, 4), (8, 8, 0x2000000000000000), (16, 8, 0x5400000000000000)], none) ∧
      instrOk (area 32 [(0, 1, 1), (4, 4, 4), (8, 8, 0x2000000000000000), (16, 8, 0x5400000000000000)]) = true ∧
      s.resolve dmaSpaces none 0x2000000000000000 4 = some 0x2000000000000000 ∧
      s.resolve dmaSpaces none 0x5400000000000000 4 = some 0x5400000000000000 ∧
      (s.advance 0).rangeWaits (s.servingComplex 191) 0x5400000000000000 4 = false ∧
      (s.advance 0).rangeWaits (s.servingComplex 191) 0x2000000000000000 4 = false ∧
      (s.advance 0).badRequest (s.servingComplex 191) 0x2000000000000000 4 = false ∧
      (s.advance 0).badRequest (s.servingComplex 191) 0x5400000000000000 4 = true),
      meets (put (on.modChannel 191
      (fun x => { x with state := 1, cmd := some (waits .running (cmdOf 1 0x60 [(0, 2, 191), (2, 1, 0xFF), (3, 1, 0), (4, 4, 60000000), (8, 8, 0x2000000000000000), (0x10, 2, 1)])).ref, die := 0xFF, progLen := 2, pc := 0, progAddr := 0x7000000000000000, prog := [(0, (area 32 [(0, 1, 1), (4, 4, 4), (8, 8, 0x7000000000000000), (16, 8, 0x2000000000000000)], none)), (1, (area 32 [(0, 1, 1), (4, 4, 4), (8, 8, 0x7000000000000000), (16, 8, 0x2000000000000000)], none))]  })) (waits .running (cmdOf 1 0x60 [(0, 2, 191), (2, 1, 0xFF), (3, 1, 0), (4, 4, 60000000), (8, 8, 0x2000000000000000), (0x10, 2, 1)]))) (fun s => (s.channel 191).active = true ∧
      s.channelPaused 191 = false ∧ (s.channel 191).pc < (s.channel 191).progLen ∧
      tabFind (s.channel 191).prog (s.channel 191).pc = some (area 32 [(0, 1, 1), (4, 4, 4), (8, 8, 0x7000000000000000), (16, 8, 0x2000000000000000)], none) ∧
      instrOk (area 32 [(0, 1, 1), (4, 4, 4), (8, 8, 0x7000000000000000), (16, 8, 0x2000000000000000)]) = true ∧
      (s.resolve dmaSpaces none 0x7000000000000000 4).isSome = true ∧
      s.resolve dmaSpaces none 0x2000000000000000 4 = some 0x2000000000000000 ∧ addrSpace 0x7000000000000000 = 7 ∧
      rangesMeet ((s.resolve dmaSpaces none 0x7000000000000000 4).getD 0) 0x2000000000000000 4 = false ∧
      (s.advance 0).rangeWaits (s.servingComplex 191) ((s.resolve dmaSpaces none 0x7000000000000000 4).getD 0) 4 = false ∧
      (s.advance 0).badRequest (s.servingComplex 191) ((s.resolve dmaSpaces none 0x7000000000000000 4).getD 0) 4 = false ∧
      (s.advance 0).rangeWaits (s.servingComplex 191) 0x2000000000000000 4 = false ∧
      (s.advance 0).badRequest (s.servingComplex 191) 0x2000000000000000 4 = false),
      meets ({ put (on.modChannel 191 (fun x => { x with state := 1, cmd := some (waits .running (cmdOf 1 0x60 [(0, 2, 191), (2, 1, 0xFF), (3, 1, 0), (4, 4, 60000000), (8, 8, 0x2000000000000000), (0x10, 2, 1)])).ref, die := 0xFF, progLen := 2, pc := 0, progAddr := 0x7000000000000000, prog := [(0, (area 32 [(0, 1, 1), (4, 4, 4), (8, 8, 0x2000000000000000), (16, 8, 0x2000000000010000)], none)), (1, (area 32 [(0, 1, 1), (4, 4, 4), (8, 8, 0x2000000000000000), (16, 8, 0x2000000000010000)], none))]  })) (waits .running (cmdOf 1 0x60 [(0, 2, 191), (2, 1, 0xFF), (3, 1, 0), (4, 4, 60000000), (8, 8, 0x2000000000000000), (0x10, 2, 1)])) with poison := [0x2000000000000000] }) (fun s => (s.channel 191).active = true ∧
      s.channelPaused 191 = false ∧ (s.channel 191).pc < (s.channel 191).progLen ∧
      tabFind (s.channel 191).prog (s.channel 191).pc = some (area 32 [(0, 1, 1), (4, 4, 4), (8, 8, 0x2000000000000000), (16, 8, 0x2000000000010000)], none) ∧
      instrOk (area 32 [(0, 1, 1), (4, 4, 4), (8, 8, 0x2000000000000000), (16, 8, 0x2000000000010000)]) = true ∧
      s.resolve dmaSpaces none 0x2000000000000000 4 = some 0x2000000000000000 ∧
      s.resolve dmaSpaces none 0x2000000000010000 4 = some 0x2000000000010000 ∧
      (s.advance 0).rangeWaits (s.servingComplex 191) 0x2000000000000000 4 = false ∧
      (s.advance 0).rangeWaits (s.servingComplex 191) 0x2000000000010000 4 = false ∧
      (s.movedPoison 0x2000000000000000 0x2000000000010000 4).isEmpty = false),
      meets (put (on.modChannel 191
      (fun x => { x with state := 1, cmd := some (waits .running (cmdOf 1 0x60 [(0, 2, 191), (2, 1, 0xFF), (3, 1, 0), (4, 4, 60000000), (8, 8, 0x2000000000000000), (0x10, 2, 1)])).ref, die := 0xFF, progLen := 2, pc := 1, progAddr := 0x7000000000000000, prog := [(0, (area 32 [(0, 1, 2), (2, 2, 0), (4, 4, 3), (8, 8, 16), (16, 8, 32)], none)), (1, (area 32 [(0, 1, 2), (2, 2, 0), (4, 4, 3), (8, 8, 16), (16, 8, 32)], none))] , iters := [(2, 1), (3, 1), (4, 1), (5, 1)] })) (waits .running (cmdOf 1 0x60 [(0, 2, 191), (2, 1, 0xFF), (3, 1, 0), (4, 4, 60000000), (8, 8, 0x2000000000000000), (0x10, 2, 1)]))) (fun s => (s.channel 191).active = true ∧
      s.channelPaused 191 = false ∧ (s.channel 191).pc < (s.channel 191).progLen ∧
      tabFind (s.channel 191).prog (s.channel 191).pc = some (area 32 [(0, 1, 2), (2, 2, 0), (4, 4, 3), (8, 8, 16), (16, 8, 32)], none) ∧
      instrOk (area 32 [(0, 1, 2), (2, 2, 0), (4, 4, 3), (8, 8, 16), (16, 8, 32)]) = true ∧
      tabGet 0 (s.channel 191).iters 1 = 0 ∧ 4 ≤ (s.channel 191).iters.length ∧ 0 + 1 < 3),
      meets ({ put (on.modChannel 191 (fun x => { x with state := 1, cmd := some (waits .running (cmdOf 1 0x60 [(0, 2, 191), (2, 1, 0xFF), (3, 1, 0), (4, 4, 60000000), (8, 8, 0x2000000000000000), (0x10, 2, 1)])).ref, die := 0xFF, progLen := 2, pc := 0, progAddr := 0x7000000000000000, prog := [(0, (area 32 [(0, 1, 3), (1, 1, 1), (8, 8, 3), (16, 8, 5)], none)), (1, (area 32 [(0, 1, 3), (1, 1, 1), (8, 8, 3), (16, 8, 5)], none))]  })) (waits .running (cmdOf 1 0x60 [(0, 2, 191), (2, 1, 0xFF), (3, 1, 0), (4, 4, 60000000), (8, 8, 0x2000000000000000), (0x10, 2, 1)])) with tide := 5, host := { (put (on.modChannel 191 (fun x => { x with state := 1, cmd := some (waits .running (cmdOf 1 0x60 [(0, 2, 191), (2, 1, 0xFF), (3, 1, 0), (4, 4, 60000000), (8, 8, 0x2000000000000000), (0x10, 2, 1)])).ref, die := 0xFF, progLen := 2, pc := 0, progAddr := 0x7000000000000000, prog := [(0, (area 32 [(0, 1, 3), (1, 1, 1), (8, 8, 3), (16, 8, 5)], none)), (1, (area 32 [(0, 1, 3), (1, 1, 1), (8, 8, 3), (16, 8, 5)], none))]  })) (waits .running (cmdOf 1 0x60 [(0, 2, 191), (2, 1, 0xFF), (3, 1, 0), (4, 4, 60000000), (8, 8, 0x2000000000000000), (0x10, 2, 1)]))).host with signals := 2 } }) (fun s => (s.channel 191).active = true ∧
      s.channelPaused 191 = false ∧ (s.channel 191).pc < (s.channel 191).progLen ∧
      tabFind (s.channel 191).prog (s.channel 191).pc = some (area 32 [(0, 1, 3), (1, 1, 1), (8, 8, 3), (16, 8, 5)], none) ∧
      instrOk (area 32 [(0, 1, 3), (1, 1, 1), (8, 8, 3), (16, 8, 5)]) = true ∧ 5 ≤ (s.advance 0).tide ∧
      ((List.range 64).filter (fun j => (3 : Nat).testBit j && s.signal j && decide (afterEvent (tabGet 0 s.host.signalTide j) ≤ (s.advance 0).tide))).length = 1),
      meets ({ put (on.modChannel 191 (fun x => { x with state := 1, cmd := some (waits .running (cmdOf 1 0x60 [(0, 2, 191), (2, 1, 0xFF), (3, 1, 0), (4, 4, 60000000), (8, 8, 0x2000000000000000), (0x10, 2, 1)])).ref, die := 0xFF, progLen := 2, pc := 0, progAddr := 0x7000000000000000, prog := [(0, (area 32 [(0, 1, 3), (1, 1, 1), (8, 8, 3), (16, 8, 5)], none)), (1, (area 32 [(0, 1, 3), (1, 1, 1), (8, 8, 3), (16, 8, 5)], none))]  })) (waits .running (cmdOf 1 0x60 [(0, 2, 191), (2, 1, 0xFF), (3, 1, 0), (4, 4, 60000000), (8, 8, 0x2000000000000000), (0x10, 2, 1)])) with tide := 5, host := { (put (on.modChannel 191 (fun x => { x with state := 1, cmd := some (waits .running (cmdOf 1 0x60 [(0, 2, 191), (2, 1, 0xFF), (3, 1, 0), (4, 4, 60000000), (8, 8, 0x2000000000000000), (0x10, 2, 1)])).ref, die := 0xFF, progLen := 2, pc := 0, progAddr := 0x7000000000000000, prog := [(0, (area 32 [(0, 1, 3), (1, 1, 1), (8, 8, 3), (16, 8, 5)], none)), (1, (area 32 [(0, 1, 3), (1, 1, 1), (8, 8, 3), (16, 8, 5)], none))]  })) (waits .running (cmdOf 1 0x60 [(0, 2, 191), (2, 1, 0xFF), (3, 1, 0), (4, 4, 60000000), (8, 8, 0x2000000000000000), (0x10, 2, 1)]))).host with signals := 4 } }) (fun s => (s.channel 191).active = true ∧
      s.channelPaused 191 = false ∧ (s.channel 191).pc < (s.channel 191).progLen ∧
      tabFind (s.channel 191).prog (s.channel 191).pc = some (area 32 [(0, 1, 3), (1, 1, 1), (8, 8, 3), (16, 8, 5)], none) ∧
      instrOk (area 32 [(0, 1, 3), (1, 1, 1), (8, 8, 3), (16, 8, 5)]) = true ∧ 5 ≤ (s.advance 0).tide ∧
      ((List.range 64).filter (fun j => (3 : Nat).testBit j && s.signal j && decide (afterEvent (tabGet 0 s.host.signalTide j) ≤ (s.advance 0).tide))).length = 0),
      meets ({ put (on.modChannel 191 (fun x => { x with state := 1, cmd := some (waits .running (cmdOf 1 0x60 [(0, 2, 191), (2, 1, 0xFF), (3, 1, 0), (4, 4, 60000000), (8, 8, 0x2000000000000000), (0x10, 2, 1)])).ref, die := 0xFF, progLen := 2, pc := 0, progAddr := 0x7000000000000000, prog := [(0, (area 32 [(0, 1, 3), (1, 1, 1), (8, 8, 0), (16, 8, 5)], none)), (1, (area 32 [(0, 1, 3), (1, 1, 1), (8, 8, 0), (16, 8, 5)], none))]  })) (waits .running (cmdOf 1 0x60 [(0, 2, 191), (2, 1, 0xFF), (3, 1, 0), (4, 4, 60000000), (8, 8, 0x2000000000000000), (0x10, 2, 1)])) with tide := 5, host := { (put (on.modChannel 191 (fun x => { x with state := 1, cmd := some (waits .running (cmdOf 1 0x60 [(0, 2, 191), (2, 1, 0xFF), (3, 1, 0), (4, 4, 60000000), (8, 8, 0x2000000000000000), (0x10, 2, 1)])).ref, die := 0xFF, progLen := 2, pc := 0, progAddr := 0x7000000000000000, prog := [(0, (area 32 [(0, 1, 3), (1, 1, 1), (8, 8, 0), (16, 8, 5)], none)), (1, (area 32 [(0, 1, 3), (1, 1, 1), (8, 8, 0), (16, 8, 5)], none))]  })) (waits .running (cmdOf 1 0x60 [(0, 2, 191), (2, 1, 0xFF), (3, 1, 0), (4, 4, 60000000), (8, 8, 0x2000000000000000), (0x10, 2, 1)]))).host with signals := 0 } }) (fun s => (s.channel 191).active = true ∧
      s.channelPaused 191 = false ∧ (s.channel 191).pc < (s.channel 191).progLen ∧
      tabFind (s.channel 191).prog (s.channel 191).pc = some (area 32 [(0, 1, 3), (1, 1, 1), (8, 8, 0), (16, 8, 5)], none) ∧
      instrOk (area 32 [(0, 1, 3), (1, 1, 1), (8, 8, 0), (16, 8, 5)]) = true ∧ 5 ≤ (s.advance 0).tide ∧
      ((List.range 64).filter (fun j => (0 : Nat).testBit j && s.signal j && decide (afterEvent (tabGet 0 s.host.signalTide j) ≤ (s.advance 0).tide))).length = 0),
      meets ({ put (on.modChannel 191 (fun x => { x with state := 1, cmd := some (waits .running (cmdOf 1 0x60 [(0, 2, 191), (2, 1, 0xFF), (3, 1, 0), (4, 4, 60000000), (8, 8, 0x2000000000000000), (0x10, 2, 1)])).ref, die := 0xFF, progLen := 2, pc := 0, progAddr := 0x7000000000000000, prog := [(0, (area 32 [(0, 1, 3), (1, 1, 0), (8, 8, 0), (16, 8, 5)], none)), (1, (area 32 [(0, 1, 3), (1, 1, 0), (8, 8, 0), (16, 8, 5)], none))]  })) (waits .running (cmdOf 1 0x60 [(0, 2, 191), (2, 1, 0xFF), (3, 1, 0), (4, 4, 60000000), (8, 8, 0x2000000000000000), (0x10, 2, 1)])) with tide := 5, host := { (put (on.modChannel 191 (fun x => { x with state := 1, cmd := some (waits .running (cmdOf 1 0x60 [(0, 2, 191), (2, 1, 0xFF), (3, 1, 0), (4, 4, 60000000), (8, 8, 0x2000000000000000), (0x10, 2, 1)])).ref, die := 0xFF, progLen := 2, pc := 0, progAddr := 0x7000000000000000, prog := [(0, (area 32 [(0, 1, 3), (1, 1, 0), (8, 8, 0), (16, 8, 5)], none)), (1, (area 32 [(0, 1, 3), (1, 1, 0), (8, 8, 0), (16, 8, 5)], none))]  })) (waits .running (cmdOf 1 0x60 [(0, 2, 191), (2, 1, 0xFF), (3, 1, 0), (4, 4, 60000000), (8, 8, 0x2000000000000000), (0x10, 2, 1)]))).host with signals := 0 } }) (fun s => (s.channel 191).active = true ∧
      s.channelPaused 191 = false ∧ (s.channel 191).pc < (s.channel 191).progLen ∧
      tabFind (s.channel 191).prog (s.channel 191).pc = some (area 32 [(0, 1, 3), (1, 1, 0), (8, 8, 0), (16, 8, 5)], none) ∧
      instrOk (area 32 [(0, 1, 3), (1, 1, 0), (8, 8, 0), (16, 8, 5)]) = true ∧ 5 ≤ (s.advance 0).tide ∧
      ((List.range 64).filter (fun j => (0 : Nat).testBit j && s.signal j && decide (afterEvent (tabGet 0 s.host.signalTide j) ≤ (s.advance 0).tide))).length = 0),
      meets ({ put (on.modChannel 191 (fun x => { x with state := 1, cmd := some (waits .running (cmdOf 1 0x60 [(0, 2, 191), (2, 1, 0xFF), (3, 1, 0), (4, 4, 60000000), (8, 8, 0x2000000000000000), (0x10, 2, 1)])).ref, die := 0xFF, progLen := 2, pc := 0, progAddr := 0x7000000000000000, prog := [(0, (area 32 [(0, 1, 3), (1, 1, 3), (8, 8, 3), (16, 8, 5)], none)), (1, (area 32 [(0, 1, 3), (1, 1, 3), (8, 8, 3), (16, 8, 5)], none))]  })) (waits .running (cmdOf 1 0x60 [(0, 2, 191), (2, 1, 0xFF), (3, 1, 0), (4, 4, 60000000), (8, 8, 0x2000000000000000), (0x10, 2, 1)])) with tide := 5, host := { (put (on.modChannel 191 (fun x => { x with state := 1, cmd := some (waits .running (cmdOf 1 0x60 [(0, 2, 191), (2, 1, 0xFF), (3, 1, 0), (4, 4, 60000000), (8, 8, 0x2000000000000000), (0x10, 2, 1)])).ref, die := 0xFF, progLen := 2, pc := 0, progAddr := 0x7000000000000000, prog := [(0, (area 32 [(0, 1, 3), (1, 1, 3), (8, 8, 3), (16, 8, 5)], none)), (1, (area 32 [(0, 1, 3), (1, 1, 3), (8, 8, 3), (16, 8, 5)], none))]  })) (waits .running (cmdOf 1 0x60 [(0, 2, 191), (2, 1, 0xFF), (3, 1, 0), (4, 4, 60000000), (8, 8, 0x2000000000000000), (0x10, 2, 1)]))).host with signals := 3 } }) (fun s => (s.channel 191).active = true ∧
      s.channelPaused 191 = false ∧ (s.channel 191).pc < (s.channel 191).progLen ∧
      tabFind (s.channel 191).prog (s.channel 191).pc = some (area 32 [(0, 1, 3), (1, 1, 3), (8, 8, 3), (16, 8, 5)], none) ∧
      instrOk (area 32 [(0, 1, 3), (1, 1, 3), (8, 8, 3), (16, 8, 5)]) = true ∧ 5 ≤ (s.advance 0).tide ∧
      ((List.range 64).filter (fun j => (3 : Nat).testBit j && s.signal j && decide (afterEvent (tabGet 0 s.host.signalTide j) ≤ (s.advance 0).tide))).length = 2),
      meets ({ put (on.modChannel 191 (fun x => { x with state := 1, cmd := some (waits .running (cmdOf 1 0x60 [(0, 2, 191), (2, 1, 0xFF), (3, 1, 0), (4, 4, 60000000), (8, 8, 0x2000000000000000), (0x10, 2, 1)])).ref, die := 0xFF, progLen := 2, pc := 0, progAddr := 0x7000000000000000, prog := [(0, (area 32 [(0, 1, 3), (1, 1, 5), (8, 8, 3), (16, 8, 5)], none)), (1, (area 32 [(0, 1, 3), (1, 1, 5), (8, 8, 3), (16, 8, 5)], none))]  })) (waits .running (cmdOf 1 0x60 [(0, 2, 191), (2, 1, 0xFF), (3, 1, 0), (4, 4, 60000000), (8, 8, 0x2000000000000000), (0x10, 2, 1)])) with tide := 5, host := { (put (on.modChannel 191 (fun x => { x with state := 1, cmd := some (waits .running (cmdOf 1 0x60 [(0, 2, 191), (2, 1, 0xFF), (3, 1, 0), (4, 4, 60000000), (8, 8, 0x2000000000000000), (0x10, 2, 1)])).ref, die := 0xFF, progLen := 2, pc := 0, progAddr := 0x7000000000000000, prog := [(0, (area 32 [(0, 1, 3), (1, 1, 5), (8, 8, 3), (16, 8, 5)], none)), (1, (area 32 [(0, 1, 3), (1, 1, 5), (8, 8, 3), (16, 8, 5)], none))]  })) (waits .running (cmdOf 1 0x60 [(0, 2, 191), (2, 1, 0xFF), (3, 1, 0), (4, 4, 60000000), (8, 8, 0x2000000000000000), (0x10, 2, 1)]))).host with signals := 2 } }) (fun s => (s.channel 191).active = true ∧
      s.channelPaused 191 = false ∧ (s.channel 191).pc < (s.channel 191).progLen ∧
      tabFind (s.channel 191).prog (s.channel 191).pc = some (area 32 [(0, 1, 3), (1, 1, 5), (8, 8, 3), (16, 8, 5)], none) ∧
      instrOk (area 32 [(0, 1, 3), (1, 1, 5), (8, 8, 3), (16, 8, 5)]) = true ∧ 5 ≤ (s.advance 0).tide ∧
      ((List.range 64).filter (fun j => (3 : Nat).testBit j && s.signal j && decide (afterEvent (tabGet 0 s.host.signalTide j) ≤ (s.advance 0).tide))).length = 1),
      meets ({ put (on.modChannel 191 (fun x => { x with state := 1, cmd := some (waits .running (cmdOf 1 0x60 [(0, 2, 191), (2, 1, 0xFF), (3, 1, 0), (4, 4, 60000000), (8, 8, 0x2000000000000000), (0x10, 2, 1)])).ref, die := 0xFF, progLen := 2, pc := 0, progAddr := 0x7000000000000000, prog := [(0, (area 32 [(0, 1, 3), (1, 1, 6), (8, 8, 3), (16, 8, 5)], none)), (1, (area 32 [(0, 1, 3), (1, 1, 6), (8, 8, 3), (16, 8, 5)], none))]  })) (waits .running (cmdOf 1 0x60 [(0, 2, 191), (2, 1, 0xFF), (3, 1, 0), (4, 4, 60000000), (8, 8, 0x2000000000000000), (0x10, 2, 1)])) with tide := 5, host := { (put (on.modChannel 191 (fun x => { x with state := 1, cmd := some (waits .running (cmdOf 1 0x60 [(0, 2, 191), (2, 1, 0xFF), (3, 1, 0), (4, 4, 60000000), (8, 8, 0x2000000000000000), (0x10, 2, 1)])).ref, die := 0xFF, progLen := 2, pc := 0, progAddr := 0x7000000000000000, prog := [(0, (area 32 [(0, 1, 3), (1, 1, 6), (8, 8, 3), (16, 8, 5)], none)), (1, (area 32 [(0, 1, 3), (1, 1, 6), (8, 8, 3), (16, 8, 5)], none))]  })) (waits .running (cmdOf 1 0x60 [(0, 2, 191), (2, 1, 0xFF), (3, 1, 0), (4, 4, 60000000), (8, 8, 0x2000000000000000), (0x10, 2, 1)]))).host with signals := 3 } }) (fun s => (s.channel 191).active = true ∧
      s.channelPaused 191 = false ∧ (s.channel 191).pc < (s.channel 191).progLen ∧
      tabFind (s.channel 191).prog (s.channel 191).pc = some (area 32 [(0, 1, 3), (1, 1, 6), (8, 8, 3), (16, 8, 5)], none) ∧
      instrOk (area 32 [(0, 1, 3), (1, 1, 6), (8, 8, 3), (16, 8, 5)]) = true ∧ 5 ≤ (s.advance 0).tide ∧
      ((List.range 64).filter (fun j => (3 : Nat).testBit j && s.signal j && decide (afterEvent (tabGet 0 s.host.signalTide j) ≤ (s.advance 0).tide))).length = 2),
      meets (put (on.modChannel 191
      (fun x => { x with state := 1, cmd := some (waits .running (cmdOf 1 0x60 [(0, 2, 191), (2, 1, 0xFF), (3, 1, 0), (4, 4, 60000000), (8, 8, 0x2000000000000000), (0x10, 2, 1)])).ref, die := 0xFF, progLen := 2, pc := 0, progAddr := 0x7000000000000000, prog := [(0, (area 32 [(0, 1, 5), (1, 1, 63), (2, 1, 2), (3, 1, 1), (8, 8, 5)], none)), (1, (area 32 [(0, 1, 5), (1, 1, 63), (2, 1, 2), (3, 1, 1), (8, 8, 5)], none))]  })) (waits .running (cmdOf 1 0x60 [(0, 2, 191), (2, 1, 0xFF), (3, 1, 0), (4, 4, 60000000), (8, 8, 0x2000000000000000), (0x10, 2, 1)]))) (fun s => (s.channel 191).active = true ∧
      s.channelPaused 191 = false ∧ (s.channel 191).pc < (s.channel 191).progLen ∧
      tabFind (s.channel 191).prog (s.channel 191).pc = some (area 32 [(0, 1, 5), (1, 1, 63), (2, 1, 2), (3, 1, 1), (8, 8, 5)], none) ∧
      instrOk (area 32 [(0, 1, 5), (1, 1, 63), (2, 1, 2), (3, 1, 1), (8, 8, 5)]) = true ∧ unitResult (s.unit 63) ≠ 5 ∧
      (s.unit 63).unverifiable = false),
      meets (put (on.modChannel 191
      (fun x => { x with state := 1, cmd := some (waits .running (cmdOf 1 0x60 [(0, 2, 191), (2, 1, 0xFF), (3, 1, 0), (4, 4, 60000000), (8, 8, 0x2000000000000000), (0x10, 2, 1)])).ref, die := 0xFF, progLen := 2, pc := 0, progAddr := 0x7000000000000000, prog := [(0, (area 32 [(0, 1, 5), (1, 1, 63), (2, 1, 2), (3, 1, 129), (8, 8, 5)], none)), (1, (area 32 [(0, 1, 5), (1, 1, 63), (2, 1, 2), (3, 1, 129), (8, 8, 5)], none))]  })) (waits .running (cmdOf 1 0x60 [(0, 2, 191), (2, 1, 0xFF), (3, 1, 0), (4, 4, 60000000), (8, 8, 0x2000000000000000), (0x10, 2, 1)]))) (fun s => (s.channel 191).active = true ∧
      s.channelPaused 191 = false ∧ (s.channel 191).pc < (s.channel 191).progLen ∧
      tabFind (s.channel 191).prog (s.channel 191).pc = some (area 32 [(0, 1, 5), (1, 1, 63), (2, 1, 2), (3, 1, 129), (8, 8, 5)], none) ∧
      instrOk (area 32 [(0, 1, 5), (1, 1, 63), (2, 1, 2), (3, 1, 129), (8, 8, 5)]) = true ∧ unitResult (s.unit 63) ≠ 5 ∧
      (s.unit 63).unverifiable = false),
      meets ((put (on.modChannel 191
      (fun x => { x with state := 1, cmd := some (waits .running (cmdOf 1 0x60 [(0, 2, 191), (2, 1, 0xFF), (3, 1, 0), (4, 4, 60000000), (8, 8, 0x2000000000000000), (0x10, 2, 1)])).ref, die := 0xFF, progLen := 2, pc := 0, progAddr := 0x7000000000000000, prog := [(0, (area 32 [(0, 1, 5), (1, 1, 63), (2, 1, 2), (3, 1, 1), (8, 8, 5)], none)), (1, (area 32 [(0, 1, 5), (1, 1, 63), (2, 1, 2), (3, 1, 1), (8, 8, 5)], none))]  })) (waits .running (cmdOf 1 0x60 [(0, 2, 191), (2, 1, 0xFF), (3, 1, 0), (4, 4, 60000000), (8, 8, 0x2000000000000000), (0x10, 2, 1)]))).modUnit 63 (fun x => { x with unverifiable := true })) (fun s => (s.channel 191).active = true ∧
      s.channelPaused 191 = false ∧ (s.channel 191).pc < (s.channel 191).progLen ∧
      tabFind (s.channel 191).prog (s.channel 191).pc = some (area 32 [(0, 1, 5), (1, 1, 63), (2, 1, 2), (3, 1, 1), (8, 8, 5)], none) ∧
      instrOk (area 32 [(0, 1, 5), (1, 1, 63), (2, 1, 2), (3, 1, 1), (8, 8, 5)]) = true ∧
      (s.unit 63).unverifiable = true),
      meets ((put (on.modChannel 191
      (fun x => { x with state := 1, cmd := some (waits .running (cmdOf 1 0x60 [(0, 2, 191), (2, 1, 0xFF), (3, 1, 0), (4, 4, 60000000), (8, 8, 0x2000000000000000), (0x10, 2, 1)])).ref, die := 0xFF, progLen := 2, pc := 0, progAddr := 0x7000000000000000, prog := [(0, (area 32 [(0, 1, 5), (1, 1, 63), (2, 1, 3), (3, 1, 1), (8, 8, 0x2000000000000000)], none)), (1, (area 32 [(0, 1, 5), (1, 1, 63), (2, 1, 3), (3, 1, 1), (8, 8, 0x2000000000000000)], none))]  })) (waits .running (cmdOf 1 0x60 [(0, 2, 191), (2, 1, 0xFF), (3, 1, 0), (4, 4, 60000000), (8, 8, 0x2000000000000000), (0x10, 2, 1)]))).modUnit 63 (fun x => { x with used := true, value := 0x123456789, algo := 0 })) (fun s => (s.channel 191).active = true ∧
      s.channelPaused 191 = false ∧ (s.channel 191).pc < (s.channel 191).progLen ∧
      tabFind (s.channel 191).prog (s.channel 191).pc = some (area 32 [(0, 1, 5), (1, 1, 63), (2, 1, 3), (3, 1, 1), (8, 8, 0x2000000000000000)], none) ∧
      instrOk (area 32 [(0, 1, 5), (1, 1, 63), (2, 1, 3), (3, 1, 1), (8, 8, 0x2000000000000000)]) = true ∧
      unitBytes (s.unit 63) = 4 ∧ s.resolve dmaSpaces none 0x2000000000000000 4 = some 0x2000000000000000 ∧
      (s.advance 0).rangeWaits (s.servingComplex 191) 0x2000000000000000 4 = false ∧
      (s.advance 0).badRequest (s.servingComplex 191) 0x2000000000000000 4 = false),
      meets ((put (on.modChannel 191
      (fun x => { x with state := 1, cmd := some (waits .running (cmdOf 1 0x60 [(0, 2, 191), (2, 1, 0xFF), (3, 1, 0), (4, 4, 60000000), (8, 8, 0x2000000000000000), (0x10, 2, 1)])).ref, die := 0xFF, progLen := 2, pc := 0, progAddr := 0x7000000000000000, prog := [(0, (area 32 [(0, 1, 5), (1, 1, 63), (2, 1, 3), (3, 1, 1), (8, 8, 0x2000000000000000)], none)), (1, (area 32 [(0, 1, 5), (1, 1, 63), (2, 1, 3), (3, 1, 1), (8, 8, 0x2000000000000000)], none))]  })) (waits .running (cmdOf 1 0x60 [(0, 2, 191), (2, 1, 0xFF), (3, 1, 0), (4, 4, 60000000), (8, 8, 0x2000000000000000), (0x10, 2, 1)]))).modUnit 63 (fun x => { x with used := true, value := 0x123456789, algo := 2 })) (fun s => (s.channel 191).active = true ∧
      s.channelPaused 191 = false ∧ (s.channel 191).pc < (s.channel 191).progLen ∧
      tabFind (s.channel 191).prog (s.channel 191).pc = some (area 32 [(0, 1, 5), (1, 1, 63), (2, 1, 3), (3, 1, 1), (8, 8, 0x2000000000000000)], none) ∧
      instrOk (area 32 [(0, 1, 5), (1, 1, 63), (2, 1, 3), (3, 1, 1), (8, 8, 0x2000000000000000)]) = true ∧
      unitBytes (s.unit 63) = 8 ∧ s.resolve dmaSpaces none 0x2000000000000000 8 = some 0x2000000000000000 ∧
      (s.advance 0).rangeWaits (s.servingComplex 191) 0x2000000000000000 8 = false ∧
      (s.advance 0).badRequest (s.servingComplex 191) 0x2000000000000000 8 = false),
      meets (put (on.modChannel 191
      (fun x => { x with state := 1, cmd := some (waits .running (cmdOf 1 0x60 [(0, 2, 191), (2, 1, 0xFF), (3, 1, 0), (4, 4, 60000000), (8, 8, 0x2000000000000000), (0x10, 2, 1)])).ref, die := 0xFF, progLen := 2, pc := 0, progAddr := 0x7000000000000000, prog := [(0, (area 32 [], none)), (1, (area 32 [], none))] , dests := [(0, 0x2000000000000000)] })) (waits .running (cmdOf 1 0x60 [(0, 2, 191), (2, 1, 0xFF), (3, 1, 0), (4, 4, 60000000), (8, 8, 0x2000000000000000), (0x10, 2, 1)]))) (fun s => (s.channel 191).active = true ∧
      s.channelPaused 191 = false ∧ (s.channel 191).pc < (s.channel 191).progLen ∧
      tabFind (s.channel 191).prog (s.channel 191).pc = some (area 32 [], none) ∧ instrOk (area 32 []) = true ∧
      (s.channel 191).dests.all (fun e => !(s.advance 0).rangeWaits (s.servingComplex 191) e.2 64 && !(s.advance 0).badRequest (s.servingComplex 191) e.2 64) = true ∧
      (s.channel 191).dests ≠ [])].all id = true :=
  by decide +kernel

theorem witness_ChecksAndSweeps :
    [begins (put (on.modUnit 63 (fun x => { x with armed := true }))
      (cmdOf 1 0x61 [(0, 1, 63), (1, 1, 0), (2, 1, 2), (4, 2, 191), (16, 8, 0)])) 1 0x61
      (fun c u => lowestFail (armChecks c) = none ∧ (u.unit 63).armed = true),
      begins (put on (cmdOf 1 0x61 [(0, 1, 63), (1, 1, 0), (2, 1, 2), (4, 2, 191), (16, 8, 0)])) 1 0x61
      (fun c u => lowestFail (armChecks c) = none ∧ (u.unit 63).armed = false ∧ (c.param 6 1).testBit 0 = false ∧
      c.param 0x18 8 = 0),
      begins (put (on.modUnit 63 (fun x => { x with armed := true, value := 5, bytes := 6 }))
      (cmdOf 1 0x61 [(0, 1, 63), (1, 1, 1), (2, 1, 2), (4, 2, 191), (16, 8, 0)])) 1 0x61
      (fun c u => lowestFail (armChecks c) = none ∧ c.param 1 1 = 1),
      begins (put (on.modUnit 63 (fun x => { x with armed := false, value := 5, bytes := 6 }))
      (cmdOf 1 0x61 [(0, 1, 63), (1, 1, 1), (2, 1, 2), (4, 2, 191), (16, 8, 0)])) 1 0x61
      (fun c u => lowestFail (armChecks c) = none ∧ c.param 1 1 = 1),
      begins (put on (cmdOf 1 0x61 [(0, 1, 63), (1, 1, 2), (2, 1, 2), (4, 2, 191), (16, 8, 7)])) 1 0x61
      (fun c u => lowestFail (armChecks c) = none ∧ (u.unit 63).unverifiable = false ∧ unitResult (u.unit 63) ≠ 7),
      meets (put ({ on with tide := 9 }.modUnit 63
      (fun x => { x with armed := true, value := 5, cmd := some ((waits (.waiting .limitedArm) (cmdOf 1 0x61 [(0, 1, 63), (1, 1, 0), (2, 1, 2), (4, 2, 191), (16, 8, 0)]))).ref, deadline := some 9 })) (waits (.waiting .limitedArm) (cmdOf 1 0x61 [(0, 1, 63), (1, 1, 0), (2, 1, 2), (4, 2, 191), (16, 8, 0)]))) (fun s => (s.unit 63).armed = true ∧
      (s.unit 63).cmd = some ((waits (.waiting .limitedArm)
      (cmdOf 1 0x61 [(0, 1, 63), (1, 1, 0), (2, 1, 2), (4, 2, 191), (16, 8, 0)]))).ref ∧ (s.unit 63).deadline = some 9 ∧
      9 ≤ (s.advance 0).tide),
      begins (put (port { ((on.modLayer 0 (fun l => { l with defined := true })).write 0x2000000000000000 (area 32 [(4, 1, 1), (12, 4, 32), (16, 8, 0x2000000000020000), (24, 8, 0x2000000000030000)])) with coll := { on.coll with trees := [(63, { parent := 0x1F, valid := true })] } } 7 3) (cmdOf 0 0x62 [(4, 4, 63), (8, 8, 0x2000000000000000), (16, 2, 1), (20, 4, 5), (24, 8, 0x2000000000010000)])) 0 0x62 (fun c u => (put (port { ((on.modLayer 0 (fun l => { l with defined := true })).write 0x2000000000000000 (area 32 [(4, 1, 1), (12, 4, 32), (16, 8, 0x2000000000020000), (24, 8, 0x2000000000030000)])) with coll := { on.coll with trees := [(63, { parent := 0x1F, valid := true })] } } 7 3) (cmdOf 0 0x62 [(4, 4, 63), (8, 8, 0x2000000000000000), (16, 2, 1), (20, 4, 5), (24, 8, 0x2000000000010000)])).readingSweep = none ∧
      lowestFail (sweepChecks u c (sweepP c) (u.sweepMap (sweepP c))) = none ∧
      (u.sweepReads (sweepP c) (u.sweepMap (sweepP c))).all (fun q => u.keyServed q.1) ∧
      u.keyServed ((u.sweepKey (sweepP c).result 0).getD 0) = true ∧
      u.anyStops (ioBase u.pkg.suffix (u.view (sweepP c).collId).tile) (u.sweepLists (sweepP c)) = false ∧
      (sweepP c).mode = 0 ∧ (u.view (sweepP c).collId).parent.isNone = true),
      begins (put (port { ((on.modLayer 0 (fun l => { l with defined := true })).write 0x2000000000000000 (area 32 [(4, 1, 1), (12, 4, 32), (16, 8, 0x2000000000020000), (24, 8, 0x2000000000030000)])) with coll := { on.coll with trees := [(63, { parent := 7, valid := true })] } } 7 3) (cmdOf 0 0x62 [(4, 4, 63), (8, 8, 0x2000000000000000), (16, 2, 1), (20, 4, 5), (24, 8, 0x2000000000010000)])) 0 0x62 (fun c u => (put (port { ((on.modLayer 0 (fun l => { l with defined := true })).write 0x2000000000000000 (area 32 [(4, 1, 1), (12, 4, 32), (16, 8, 0x2000000000020000), (24, 8, 0x2000000000030000)])) with coll := { on.coll with trees := [(63, { parent := 7, valid := true })] } } 7 3) (cmdOf 0 0x62 [(4, 4, 63), (8, 8, 0x2000000000000000), (16, 2, 1), (20, 4, 5), (24, 8, 0x2000000000010000)])).readingSweep = none ∧
      lowestFail (sweepChecks u c (sweepP c) (u.sweepMap (sweepP c))) = none ∧
      (u.sweepReads (sweepP c) (u.sweepMap (sweepP c))).all (fun q => u.keyServed q.1) ∧
      u.keyServed ((u.sweepKey (sweepP c).result 0).getD 0) = true ∧
      u.anyStops (ioBase u.pkg.suffix (u.view (sweepP c).collId).tile) (u.sweepLists (sweepP c)) = false ∧
      (sweepP c).mode = 0 ∧ (u.view (sweepP c).collId).parent.isNone = false ∧
      u.findColl 1 (sweepP c).collId 0 u.commit.layoutEpoch = none ∧ u.openOn (u.view (sweepP c).collId).tile < 16),
      begins (put { ((port { ((on.modLayer 0 (fun l => { l with defined := true })).write 0x5300000000000000 (area 32 [(4, 1, 1), (12, 4, 32), (16, 8, 0x2000000000020000), (24, 8, 0x2000000000030000)])) with coll := { on.coll with trees := [(63, { parent := 7, valid := true })] } } 7 3)) with dies := [(3, { service := 2, outOfService := true })] } (cmdOf 0 0x62 [(4, 4, 63), (8, 8, 0x5300000000000000), (16, 2, 1), (20, 4, 5), (24, 8, 0x5300000000010000)])) 0 0x62 (fun c u => (put { ((port { ((on.modLayer 0 (fun l => { l with defined := true })).write 0x5300000000000000 (area 32 [(4, 1, 1), (12, 4, 32), (16, 8, 0x2000000000020000), (24, 8, 0x2000000000030000)])) with coll := { on.coll with trees := [(63, { parent := 7, valid := true })] } } 7 3)) with dies := [(3, { service := 2, outOfService := true })] } (cmdOf 0 0x62 [(4, 4, 63), (8, 8, 0x5300000000000000), (16, 2, 1), (20, 4, 5), (24, 8, 0x5300000000010000)])).readingSweep = none ∧
      lowestFail (sweepChecks u c (sweepP c) (u.sweepMap (sweepP c))) = none ∧
      u.keyServed ((u.sweepKey (sweepP c).result 0).getD 0) = false),
      begins (put { ((port { ((on.modLayer 0 (fun l => { l with defined := true })).write 0x5300000000000000 (area 32 [(4, 1, 1), (12, 4, 32), (16, 8, 0x2000000000020000), (24, 8, 0x2000000000030000)])) with coll := { on.coll with trees := [(63, { parent := 7, valid := true })] } } 7 3)) with dies := [(3, { service := 3, outOfService := true })] } (cmdOf 0 0x62 [(4, 4, 63), (8, 8, 0x5300000000000000), (16, 2, 1), (20, 4, 5), (24, 8, 0x5300000000010000)])) 0 0x62 (fun c u => (put { ((port { ((on.modLayer 0 (fun l => { l with defined := true })).write 0x5300000000000000 (area 32 [(4, 1, 1), (12, 4, 32), (16, 8, 0x2000000000020000), (24, 8, 0x2000000000030000)])) with coll := { on.coll with trees := [(63, { parent := 7, valid := true })] } } 7 3)) with dies := [(3, { service := 3, outOfService := true })] } (cmdOf 0 0x62 [(4, 4, 63), (8, 8, 0x5300000000000000), (16, 2, 1), (20, 4, 5), (24, 8, 0x5300000000010000)])).readingSweep = none ∧
      lowestFail (sweepChecks u c (sweepP c) (u.sweepMap (sweepP c))) = none ∧
      (u.sweepReads (sweepP c) (u.sweepMap (sweepP c))).all (fun q => u.keyServed q.1) ∧
      u.keyServed ((u.sweepKey (sweepP c).result 0).getD 0) = true ∧
      u.anyStops (ioBase u.pkg.suffix (u.view (sweepP c).collId).tile) (u.sweepLists (sweepP c)) = true),
      meets (put { on with tide := 9, dma := { on.dma with sweeps := [{ cmd := ((waits (.waiting .sweep) (cmdOf 0 0x62 []))).ref, mode := 0, root := false, collId := 63, epoch := 0, deadline := 9 }] } } (waits (.waiting .sweep) (cmdOf 0 0x62 []))) (fun s => s.dma.sweeps = [{ cmd := ((waits (.waiting .sweep) (cmdOf 0 0x62 []))).ref, mode := 0, root := false, collId := 63, epoch := 0, deadline := 9 }] ∧
      s.findCmd ((waits (.waiting .sweep) (cmdOf 0 0x62 []))).ref = some (waits (.waiting .sweep) (cmdOf 0 0x62 [])) ∧
      ((waits (.waiting .sweep) (cmdOf 0 0x62 []))).live = true ∧ 9 ≤ (s.advance 0).tide ∧ s.findColl 1 63 0 0 = none),
      meets (put { on with  coll := { on.coll with trees := [(63, { parent := 0x1F, children := 0x80, valid := true })]  }, dma := { on.dma with sweeps := [{ cmd := ((waits (.waiting .sweep) (cmdOf 0 0x62 []))).ref, mode := 0, root := true, collId := 63, epoch := 0, deadline := 9, reads := [(0x2000000000020000, 8), (0x2000000000030000, 8)], reading := true, result := 0x2000000000010000, area := 32, total := 16  }] } } (waits (.waiting .sweep) (cmdOf 0 0x62 []))) (fun s => (s.advance 0).readingSweep = some ({ cmd := ((waits (.waiting .sweep) (cmdOf 0 0x62 []))).ref, mode := 0, root := true, collId := 63, epoch := 0, deadline := 9, reads := [(0x2000000000020000, 8), (0x2000000000030000, 8)], reading := true, result := 0x2000000000010000, area := 32, total := 16  }, (waits (.waiting .sweep) (cmdOf 0 0x62 []))) ∧
      (s.advance 0).sweepHeld { cmd := ((waits (.waiting .sweep) (cmdOf 0 0x62 []))).ref, mode := 0, root := true, collId := 63, epoch := 0, deadline := 9, reads := [(0x2000000000020000, 8), (0x2000000000030000, 8)], reading := true, result := 0x2000000000010000, area := 32, total := 16  } = false ∧
      (({ cmd := ((waits (.waiting .sweep) (cmdOf 0 0x62 []))).ref, mode := 0, root := true, collId := 63, epoch := 0, deadline := 9, reads := [(0x2000000000020000, 8), (0x2000000000030000, 8)], reading := true, result := 0x2000000000010000, area := 32, total := 16  } : Sweep).reads.all (fun q => (s.advance 0).keyServed q.1)) = true),
      meets (put { on with poison := [0x2000000000030000], coll := { on.coll with trees := [(63, { parent := 0x1F, children := 0x80, valid := true })]  }, dma := { on.dma with sweeps := [{ cmd := ((waits (.waiting .sweep) (cmdOf 0 0x62 []))).ref, mode := 0, root := true, collId := 63, epoch := 0, deadline := 9, reads := [(0x2000000000020000, 8), (0x2000000000030000, 8)], reading := true, result := 0x2000000000010000, area := 32, total := 16  }] } } (waits (.waiting .sweep) (cmdOf 0 0x62 []))) (fun s => (s.advance 0).readingSweep = some ({ cmd := ((waits (.waiting .sweep) (cmdOf 0 0x62 []))).ref, mode := 0, root := true, collId := 63, epoch := 0, deadline := 9, reads := [(0x2000000000020000, 8), (0x2000000000030000, 8)], reading := true, result := 0x2000000000010000, area := 32, total := 16  }, (waits (.waiting .sweep) (cmdOf 0 0x62 []))) ∧
      (s.advance 0).sweepHeld { cmd := ((waits (.waiting .sweep) (cmdOf 0 0x62 []))).ref, mode := 0, root := true, collId := 63, epoch := 0, deadline := 9, reads := [(0x2000000000020000, 8), (0x2000000000030000, 8)], reading := true, result := 0x2000000000010000, area := 32, total := 16  } = false ∧
      (({ cmd := ((waits (.waiting .sweep) (cmdOf 0 0x62 []))).ref, mode := 0, root := true, collId := 63, epoch := 0, deadline := 9, reads := [(0x2000000000020000, 8), (0x2000000000030000, 8)], reading := true, result := 0x2000000000010000, area := 32, total := 16  } : Sweep).reads.all (fun q => (s.advance 0).keyServed q.1)) = true),
      meets (put { on with  coll := { on.coll with trees := [(63, { parent := 0x1F, children := 0x80, valid := true })]  }, dma := { on.dma with sweeps := [{ cmd := ((waits (.waiting .sweep) (cmdOf 0 0x62 []))).ref, mode := 2, root := true, collId := 63, epoch := 0, deadline := 9, reads := [(0x2000000000020000, 8), (0x2000000000030000, 8)], reading := true, result := 0x2000000000010000, area := 32, total := 16  }] } } (waits (.waiting .sweep) (cmdOf 0 0x62 []))) (fun s => (s.advance 0).readingSweep = some ({ cmd := ((waits (.waiting .sweep) (cmdOf 0 0x62 []))).ref, mode := 2, root := true, collId := 63, epoch := 0, deadline := 9, reads := [(0x2000000000020000, 8), (0x2000000000030000, 8)], reading := true, result := 0x2000000000010000, area := 32, total := 16  }, (waits (.waiting .sweep) (cmdOf 0 0x62 []))) ∧
      (s.advance 0).sweepHeld { cmd := ((waits (.waiting .sweep) (cmdOf 0 0x62 []))).ref, mode := 2, root := true, collId := 63, epoch := 0, deadline := 9, reads := [(0x2000000000020000, 8), (0x2000000000030000, 8)], reading := true, result := 0x2000000000010000, area := 32, total := 16  } = false ∧
      (({ cmd := ((waits (.waiting .sweep) (cmdOf 0 0x62 []))).ref, mode := 2, root := true, collId := 63, epoch := 0, deadline := 9, reads := [(0x2000000000020000, 8), (0x2000000000030000, 8)], reading := true, result := 0x2000000000010000, area := 32, total := 16  } : Sweep).reads.all (fun q => (s.advance 0).keyServed q.1)) = true),
      meets (put { on with  coll := { on.coll with trees := [(63, { parent := 7, children := 0x80, valid := true })]  }, dma := { on.dma with sweeps := [{ cmd := ((waits (.waiting .sweep) (cmdOf 0 0x62 []))).ref, mode := 0, root := false, collId := 63, epoch := 0, deadline := 9, reads := [(0x2000000000020000, 8), (0x2000000000030000, 8)], reading := true, result := 0x2000000000010000, area := 32, total := 16  }] } } (waits (.waiting .sweep) (cmdOf 0 0x62 []))) (fun s => (s.advance 0).readingSweep = some ({ cmd := ((waits (.waiting .sweep) (cmdOf 0 0x62 []))).ref, mode := 0, root := false, collId := 63, epoch := 0, deadline := 9, reads := [(0x2000000000020000, 8), (0x2000000000030000, 8)], reading := true, result := 0x2000000000010000, area := 32, total := 16  }, (waits (.waiting .sweep) (cmdOf 0 0x62 []))) ∧
      (s.advance 0).sweepHeld { cmd := ((waits (.waiting .sweep) (cmdOf 0 0x62 []))).ref, mode := 0, root := false, collId := 63, epoch := 0, deadline := 9, reads := [(0x2000000000020000, 8), (0x2000000000030000, 8)], reading := true, result := 0x2000000000010000, area := 32, total := 16  } = false ∧
      (({ cmd := ((waits (.waiting .sweep) (cmdOf 0 0x62 []))).ref, mode := 0, root := false, collId := 63, epoch := 0, deadline := 9, reads := [(0x2000000000020000, 8), (0x2000000000030000, 8)], reading := true, result := 0x2000000000010000, area := 32, total := 16  } : Sweep).reads.all (fun q => (s.advance 0).keyServed q.1)) = true ∧
      (s.advance 0).findColl 1 63 0 0 = none),
      meets (put { on with  coll := { on.coll with trees := [(63, { parent := 7, children := 0x80, valid := true })] , ctxs := [{ kind := 1, tile := 1, collId := 63, cmd := some ⟨0, 3⟩ }] }, dma := { on.dma with sweeps := [{ cmd := ((waits (.waiting .sweep) (cmdOf 0 0x62 []))).ref, mode := 0, root := false, collId := 63, epoch := 0, deadline := 9, reads := [(0x2000000000020000, 8), (0x2000000000030000, 8)], reading := true, result := 0x2000000000010000, area := 32, total := 16 , landed := 8 }] } } (waits (.waiting .sweep) (cmdOf 0 0x62 []))) (fun s => (s.advance 0).readingSweep = some ({ cmd := ((waits (.waiting .sweep) (cmdOf 0 0x62 []))).ref, mode := 0, root := false, collId := 63, epoch := 0, deadline := 9, reads := [(0x2000000000020000, 8), (0x2000000000030000, 8)], reading := true, result := 0x2000000000010000, area := 32, total := 16 , landed := 8 }, (waits (.waiting .sweep) (cmdOf 0 0x62 []))) ∧
      (s.advance 0).sweepHeld { cmd := ((waits (.waiting .sweep) (cmdOf 0 0x62 []))).ref, mode := 0, root := false, collId := 63, epoch := 0, deadline := 9, reads := [(0x2000000000020000, 8), (0x2000000000030000, 8)], reading := true, result := 0x2000000000010000, area := 32, total := 16 , landed := 8 } = false ∧
      (({ cmd := ((waits (.waiting .sweep) (cmdOf 0 0x62 []))).ref, mode := 0, root := false, collId := 63, epoch := 0, deadline := 9, reads := [(0x2000000000020000, 8), (0x2000000000030000, 8)], reading := true, result := 0x2000000000010000, area := 32, total := 16 , landed := 8 } : Sweep).reads.all (fun q => (s.advance 0).keyServed q.1)) = true ∧
      (s.advance 0).findColl 1 63 0 0 = some { kind := 1, tile := 1, collId := 63, cmd := some ⟨0, 3⟩ } ∧
      ({ cmd := ((waits (.waiting .sweep) (cmdOf 0 0x62 []))).ref, mode := 0, root := false, collId := 63, epoch := 0, deadline := 9, reads := [(0x2000000000020000, 8), (0x2000000000030000, 8)], reading := true, result := 0x2000000000010000, area := 32, total := 16 , landed := 8 } : Sweep).landed < ({ cmd := ((waits (.waiting .sweep) (cmdOf 0 0x62 []))).ref, mode := 0, root := false, collId := 63, epoch := 0, deadline := 9, reads := [(0x2000000000020000, 8), (0x2000000000030000, 8)], reading := true, result := 0x2000000000010000, area := 32, total := 16 , landed := 8 } : Sweep).total),
      meets (put { on with  coll := { on.coll with trees := [(63, { parent := 7, children := 0x80, valid := true })] , ctxs := [{ kind := 1, tile := 1, collId := 63, cmd := some ⟨0, 3⟩ }] }, dma := { on.dma with sweeps := [{ cmd := ((waits (.waiting .sweep) (cmdOf 0 0x62 []))).ref, mode := 0, root := false, collId := 63, epoch := 0, deadline := 9, reads := [(0x2000000000020000, 8), (0x2000000000030000, 8)], reading := true, result := 0x2000000000010000, area := 32, total := 16 , landed := 16, got := (toBytes 8 (crcAbsorb 2 0 (on.read 0x2000000000020000 8)) ++ toBytes 8 7) }] } } (waits (.waiting .sweep) (cmdOf 0 0x62 []))) (fun s => (s.advance 0).readingSweep = some ({ cmd := ((waits (.waiting .sweep) (cmdOf 0 0x62 []))).ref, mode := 0, root := false, collId := 63, epoch := 0, deadline := 9, reads := [(0x2000000000020000, 8), (0x2000000000030000, 8)], reading := true, result := 0x2000000000010000, area := 32, total := 16 , landed := 16, got := (toBytes 8 (crcAbsorb 2 0 (on.read 0x2000000000020000 8)) ++ toBytes 8 7) }, (waits (.waiting .sweep) (cmdOf 0 0x62 []))) ∧
      (s.advance 0).sweepHeld { cmd := ((waits (.waiting .sweep) (cmdOf 0 0x62 []))).ref, mode := 0, root := false, collId := 63, epoch := 0, deadline := 9, reads := [(0x2000000000020000, 8), (0x2000000000030000, 8)], reading := true, result := 0x2000000000010000, area := 32, total := 16 , landed := 16, got := (toBytes 8 (crcAbsorb 2 0 (on.read 0x2000000000020000 8)) ++ toBytes 8 7) } = false ∧
      (({ cmd := ((waits (.waiting .sweep) (cmdOf 0 0x62 []))).ref, mode := 0, root := false, collId := 63, epoch := 0, deadline := 9, reads := [(0x2000000000020000, 8), (0x2000000000030000, 8)], reading := true, result := 0x2000000000010000, area := 32, total := 16 , landed := 16, got := (toBytes 8 (crcAbsorb 2 0 (on.read 0x2000000000020000 8)) ++ toBytes 8 7) } : Sweep).reads.all (fun q => (s.advance 0).keyServed q.1)) = true ∧
      (s.advance 0).findColl 1 63 0 0 = some { kind := 1, tile := 1, collId := 63, cmd := some ⟨0, 3⟩ } ∧
      ({ cmd := ((waits (.waiting .sweep) (cmdOf 0 0x62 []))).ref, mode := 0, root := false, collId := 63, epoch := 0, deadline := 9, reads := [(0x2000000000020000, 8), (0x2000000000030000, 8)], reading := true, result := 0x2000000000010000, area := 32, total := 16 , landed := 16, got := (toBytes 8 (crcAbsorb 2 0 (on.read 0x2000000000020000 8)) ++ toBytes 8 7) } : Sweep).total ≤ ({ cmd := ((waits (.waiting .sweep) (cmdOf 0 0x62 []))).ref, mode := 0, root := false, collId := 63, epoch := 0, deadline := 9, reads := [(0x2000000000020000, 8), (0x2000000000030000, 8)], reading := true, result := 0x2000000000010000, area := 32, total := 16 , landed := 16, got := (toBytes 8 (crcAbsorb 2 0 (on.read 0x2000000000020000 8)) ++ toBytes 8 7) } : Sweep).landed),
      meets (put { on with  coll := { on.coll with trees := [(63, { parent := 7, children := 0x80, valid := true })] , ctxs := [{ kind := 1, tile := 1, collId := 63, cmd := some ⟨0, 3⟩ }] }, dma := { on.dma with sweeps := [{ cmd := ((waits (.waiting .sweep) (cmdOf 0 0x62 []))).ref, mode := 0, root := false, collId := 63, epoch := 0, deadline := 9, reads := [(0x2000000000020000, 8), (0x2000000000030000, 8)], reading := true, result := 0x2000000000010000, area := 32, total := 16 , landed := 16, got := (toBytes 8 7) }] } } (waits (.waiting .sweep) (cmdOf 0 0x62 []))) (fun s => (s.advance 0).readingSweep = some ({ cmd := ((waits (.waiting .sweep) (cmdOf 0 0x62 []))).ref, mode := 0, root := false, collId := 63, epoch := 0, deadline := 9, reads := [(0x2000000000020000, 8), (0x2000000000030000, 8)], reading := true, result := 0x2000000000010000, area := 32, total := 16 , landed := 16, got := (toBytes 8 7) }, (waits (.waiting .sweep) (cmdOf 0 0x62 []))) ∧
      (s.advance 0).sweepHeld { cmd := ((waits (.waiting .sweep) (cmdOf 0 0x62 []))).ref, mode := 0, root := false, collId := 63, epoch := 0, deadline := 9, reads := [(0x2000000000020000, 8), (0x2000000000030000, 8)], reading := true, result := 0x2000000000010000, area := 32, total := 16 , landed := 16, got := (toBytes 8 7) } = false ∧
      (({ cmd := ((waits (.waiting .sweep) (cmdOf 0 0x62 []))).ref, mode := 0, root := false, collId := 63, epoch := 0, deadline := 9, reads := [(0x2000000000020000, 8), (0x2000000000030000, 8)], reading := true, result := 0x2000000000010000, area := 32, total := 16 , landed := 16, got := (toBytes 8 7) } : Sweep).reads.all (fun q => (s.advance 0).keyServed q.1)) = true ∧
      (s.advance 0).findColl 1 63 0 0 = some { kind := 1, tile := 1, collId := 63, cmd := some ⟨0, 3⟩ } ∧
      ({ cmd := ((waits (.waiting .sweep) (cmdOf 0 0x62 []))).ref, mode := 0, root := false, collId := 63, epoch := 0, deadline := 9, reads := [(0x2000000000020000, 8), (0x2000000000030000, 8)], reading := true, result := 0x2000000000010000, area := 32, total := 16 , landed := 16, got := (toBytes 8 7) } : Sweep).total ≤ ({ cmd := ((waits (.waiting .sweep) (cmdOf 0 0x62 []))).ref, mode := 0, root := false, collId := 63, epoch := 0, deadline := 9, reads := [(0x2000000000020000, 8), (0x2000000000030000, 8)], reading := true, result := 0x2000000000010000, area := 32, total := 16 , landed := 16, got := (toBytes 8 7) } : Sweep).landed),
      meets (put { on with dies := [(3, { service := 2, outOfService := true })], coll := { on.coll with trees := [(63, { parent := 7, children := 0x80, valid := true })]  }, dma := { on.dma with sweeps := [{ cmd := ((waits (.waiting .sweep) (cmdOf 0 0x62 []))).ref, mode := 0, root := false, collId := 63, epoch := 0, deadline := 9, reads := [(0x5300000000000000, 8)], reading := true, result := 0x2000000000010000, area := 32, total := 16  }] } } (waits (.waiting .sweep) (cmdOf 0 0x62 []))) (fun s => (s.advance 0).readingSweep = some ({ cmd := ((waits (.waiting .sweep) (cmdOf 0 0x62 []))).ref, mode := 0, root := false, collId := 63, epoch := 0, deadline := 9, reads := [(0x5300000000000000, 8)], reading := true, result := 0x2000000000010000, area := 32, total := 16  }, (waits (.waiting .sweep) (cmdOf 0 0x62 []))) ∧
      (s.advance 0).sweepHeld { cmd := ((waits (.waiting .sweep) (cmdOf 0 0x62 []))).ref, mode := 0, root := false, collId := 63, epoch := 0, deadline := 9, reads := [(0x5300000000000000, 8)], reading := true, result := 0x2000000000010000, area := 32, total := 16  } = false ∧
      (s.advance 0).keyServed 0x5300000000000000 = false ∧ (s.advance 0).findColl 1 63 0 0 = none),
      meets (put { on with dies := [(3, { service := 3, outOfService := true })], coll := { on.coll with trees := [(63, { parent := 7, children := 0x80, valid := true })]  }, dma := { on.dma with sweeps := [{ cmd := ((waits (.waiting .sweep) (cmdOf 0 0x62 []))).ref, mode := 0, root := false, collId := 63, epoch := 0, deadline := 9, reads := [(0x5300000000000000, 8)], reading := true, result := 0x2000000000010000, area := 32, total := 16  }] } } (waits (.waiting .sweep) (cmdOf 0 0x62 []))) (fun s => (s.advance 0).readingSweep = some ({ cmd := ((waits (.waiting .sweep) (cmdOf 0 0x62 []))).ref, mode := 0, root := false, collId := 63, epoch := 0, deadline := 9, reads := [(0x5300000000000000, 8)], reading := true, result := 0x2000000000010000, area := 32, total := 16  }, (waits (.waiting .sweep) (cmdOf 0 0x62 []))) ∧
      (s.advance 0).sweepHeld { cmd := ((waits (.waiting .sweep) (cmdOf 0 0x62 []))).ref, mode := 0, root := false, collId := 63, epoch := 0, deadline := 9, reads := [(0x5300000000000000, 8)], reading := true, result := 0x2000000000010000, area := 32, total := 16  } = true),
      begins (put on (cmdOf 1 0x61 [(0, 1, 63), (2, 1, 1), (4, 2, 191), (6, 1, 3), (8, 8, 0x1FFFFFFFF), (16, 8, 7), (24, 8, 1), (32, 4, 5)])) 1 0x61 (fun c u => lowestFail (armChecks c) = none ∧
      c.param 1 1 = 0 ∧ (u.unit 63).armed = false ∧ c.param 0x18 8 ≠ 0),
      begins (put on (cmdOf 1 0x61 [(0, 1, 63), (2, 1, 1), (4, 2, 191), (6, 1, 3), (8, 8, 0x1FFFFFFFF), (16, 8, 7), (24, 8, 1), (32, 4, 0)])) 1 0x61 (fun c u => lowestFail (armChecks c) = none ∧
      c.param 1 1 = 0 ∧ (u.unit 63).armed = false ∧ c.param 0x18 8 ≠ 0),
      begins (put (on.modUnit 63 (fun x => { x with used := true, unverifiable := true, intEn := true }))
      (cmdOf 1 0x61 [(0, 1, 63), (1, 1, 2), (2, 1, 2), (4, 2, 191), (16, 8, 7)])) 1 0x61
      (fun c u => lowestFail (armChecks c) = none ∧ c.param 1 1 = 2 ∧ (u.unit 63).unverifiable = true),
      begins (put on (cmdOf 1 0x61 [(0, 1, 63), (1, 1, 2), (2, 1, 2), (4, 2, 191), (16, 8, 0)])) 1 0x61
      (fun c u => lowestFail (armChecks c) = none ∧ c.param 1 1 = 2 ∧ (u.unit 63).unverifiable = false ∧
      unitResult (u.unit 63) = 0),
      meets ((put ({ on with tide := 9 }.modUnit 63
      (fun x => { x with armed := true, value := 5, limit := 4, bytes := 4, expect := 3, armExpect := 0, cmd := some ((waits (.waiting .limitedArm) (cmdOf 1 0x61 [(0, 1, 63), (1, 1, 0), (2, 1, 2), (4, 2, 191), (16, 8, 0)]))).ref })) (waits (.waiting .limitedArm) (cmdOf 1 0x61 [(0, 1, 63), (1, 1, 0), (2, 1, 2), (4, 2, 191), (16, 8, 0)])))) (fun s => (s.unit 63).armed = true ∧
      (s.unit 63).limit ≠ 0 ∧ (s.unit 63).limit ≤ (s.unit 63).bytes ∧
      (s.unit 63).cmd = some ((waits (.waiting .limitedArm)
      (cmdOf 1 0x61 [(0, 1, 63), (1, 1, 0), (2, 1, 2), (4, 2, 191), (16, 8, 0)]))).ref),
      meets ((put ({ on with tide := 9 }.modUnit 63
      (fun x => { x with armed := true, value := 5, limit := 4, bytes := 4, expect := 3, armExpect := 7, cmd := some ((waits (.waiting .limitedArm) (cmdOf 1 0x61 [(0, 1, 63), (1, 1, 0), (2, 1, 2), (4, 2, 191), (16, 8, 0)]))).ref })) (waits (.waiting .limitedArm) (cmdOf 1 0x61 [(0, 1, 63), (1, 1, 0), (2, 1, 2), (4, 2, 191), (16, 8, 0)])))) (fun s => (s.unit 63).armed = true ∧
      (s.unit 63).limit ≠ 0 ∧ (s.unit 63).limit ≤ (s.unit 63).bytes ∧
      (s.unit 63).cmd = some ((waits (.waiting .limitedArm)
      (cmdOf 1 0x61 [(0, 1, 63), (1, 1, 0), (2, 1, 2), (4, 2, 191), (16, 8, 0)]))).ref)].all id = true :=
  by decide +kernel

theorem witness_ConfigurationsApplyWhole :
    [begins (put (on.write 0x2000000000000000 (area 128 [(0, 4, 0x4E524346), (4, 2, 1), (8, 4, 128)]))
      (cmdOf 0 0x70 [(8, 8, 0x2000000000000000), (0x10, 4, 128)])) 0 0x70 (fun c u => c.param 0 1 < 2 ∧
      u.resolve [2, 4, 5, 7] none (c.param 8 8) (c.param 0x10 4) = some 0x2000000000000000 ∧ 128 ≤ c.param 0x10 4 ∧
      c.param 0x10 4 ≤ 65536 ∧ zeros c 128 (fun i => (1 ≤ i ∧ i < 8) ∨ 20 ≤ i) ∧ u.commitWait = none ∧
      u.keyServed 0x2000000000000000 = true ∧ addrSpace (c.param 8 8) ≠ 7 ∧
      u.ownStops 0x2000000000000000 (c.param 0x10 4) = false ∧ u.firstPoison 0x2000000000000000 128 = none ∧
      (match u.checkImage (u.read 0x2000000000000000 128) false with | .ok g => g == { conf := u.conf, keys := [], serial := 0, signed := false } | .error _ => false) = true),
      begins (put on (cmdOf 0 0x70 [(8, 8, 0x2000000000000000), (0x10, 4, 128)])) 0 0x70 (fun c u => c.param 0 1 < 2 ∧
      u.resolve [2, 4, 5, 7] none (c.param 8 8) (c.param 0x10 4) = some 0x2000000000000000 ∧ 128 ≤ c.param 0x10 4 ∧
      c.param 0x10 4 ≤ 65536 ∧ zeros c 128 (fun i => (1 ≤ i ∧ i < 8) ∨ 20 ≤ i) ∧ u.commitWait = none ∧
      u.keyServed 0x2000000000000000 = true ∧ addrSpace (c.param 8 8) ≠ 7 ∧
      u.ownStops 0x2000000000000000 (c.param 0x10 4) = false ∧ u.firstPoison 0x2000000000000000 128 = none ∧
      (match u.checkImage (u.read 0x2000000000000000 128) false with | .ok _ => false | .error e => e == (0x48, bodyOf [(0, 2, 0xFFFF)])) = true),
      begins (put on (cmdOf 0 0x70 [(8, 8, 0x7000000000000000), (0x10, 4, 128)])) 0 0x70
      (fun c u => addrSpace (c.param 8 8) = 7 ∧ (u.resolve [2, 4, 5, 7] none (c.param 8 8) (c.param 0x10 4)).isSome ∧
      (u.resolve [2, 4, 5, 7] none (c.param 8 8) (c.param 0x10 4)).all u.keyServed ∧ u.commitWait = none ∧
      (match u.checkImage (padTo 128 (area 128 [(0, 4, 0x4E524346), (4, 2, 1), (8, 4, 128)])) false with | .ok g => g == { conf := u.conf, keys := [], serial := 0, signed := false } | .error _ => false) = true),
      begins (put on (cmdOf 0 0x71 [(0, 4, 0)])) 0 0x71 (fun c u => c.param 0 4 ≤ 60000000 ∧ zeros c 64 (fun i => 4 ≤ i) ∧
      (put on (cmdOf 0 0x71 [(0, 4, 0)])).commitWait = none ∧ (put on (cmdOf 0 0x71 [(0, 4, 0)])).staged = none),
      begins (put { on with staged := some { conf := { on.conf with address := 6 }, keys := [5 * 256 + 15], serial := 0, signed := false } } (cmdOf 0 0x71 [(0, 4, 0)])) 0 0x71 (fun c u => c.param 0 4 ≤ 60000000 ∧
      zeros c 64 (fun i => 4 ≤ i) ∧
      (put { on with staged := some { conf := { on.conf with address := 6 }, keys := [5 * 256 + 15], serial := 0, signed := false } } (cmdOf 0 0x71 [(0, 4, 0)])).commitWait = none ∧
      (put { on with staged := some { conf := { on.conf with address := 6 }, keys := [5 * 256 + 15], serial := 0, signed := false } } (cmdOf 0 0x71 [(0, 4, 0)])).staged = some { conf := { on.conf with address := 6 }, keys := [5 * 256 + 15], serial := 0, signed := false } ∧
      u.quiescent { conf := { on.conf with address := 6 }, keys := [5 * 256 + 15], serial := 0, signed := false } = true ∧
      u.closeDue = false),
      begins (put ({ on with staged := some { conf := { on.conf with address := 6 }, keys := [5 * 256 + 15], serial := 0, signed := false } }.modMb 15 0 (fun x => { x with state := .forward })) (cmdOf 0 0x71 [(0, 4, 0)])) 0 0x71 (fun c u => c.param 0 4 ≤ 60000000 ∧
      zeros c 64 (fun i => 4 ≤ i) ∧
      (put ({ on with staged := some { conf := { on.conf with address := 6 }, keys := [5 * 256 + 15], serial := 0, signed := false } }.modMb 15 0 (fun x => { x with state := .forward })) (cmdOf 0 0x71 [(0, 4, 0)])).commitWait = none ∧
      (put ({ on with staged := some { conf := { on.conf with address := 6 }, keys := [5 * 256 + 15], serial := 0, signed := false } }.modMb 15 0 (fun x => { x with state := .forward })) (cmdOf 0 0x71 [(0, 4, 0)])).staged = some { conf := { on.conf with address := 6 }, keys := [5 * 256 + 15], serial := 0, signed := false } ∧
      u.quiescent { conf := { on.conf with address := 6 }, keys := [5 * 256 + 15], serial := 0, signed := false } = false ∧
      u.closeDue = false ∧ c.param 0 4 = 0),
      begins (put ({ on with staged := some { conf := { on.conf with address := 6 }, keys := [5 * 256 + 15], serial := 0, signed := false } }.modMb 15 0 (fun x => { x with state := .forward })) (cmdOf 0 0x71 [(0, 4, 60000000)])) 0 0x71 (fun c u => c.param 0 4 ≤ 60000000 ∧
      zeros c 64 (fun i => 4 ≤ i) ∧
      (put ({ on with staged := some { conf := { on.conf with address := 6 }, keys := [5 * 256 + 15], serial := 0, signed := false } }.modMb 15 0 (fun x => { x with state := .forward })) (cmdOf 0 0x71 [(0, 4, 60000000)])).commitWait = none ∧
      (put ({ on with staged := some { conf := { on.conf with address := 6 }, keys := [5 * 256 + 15], serial := 0, signed := false } }.modMb 15 0 (fun x => { x with state := .forward })) (cmdOf 0 0x71 [(0, 4, 60000000)])).staged = some { conf := { on.conf with address := 6 }, keys := [5 * 256 + 15], serial := 0, signed := false } ∧
      u.quiescent { conf := { on.conf with address := 6 }, keys := [5 * 256 + 15], serial := 0, signed := false } = false ∧
      c.param 0 4 ≠ 0),
      meets (put { on with tide := 9, staged := some { conf := { on.conf with address := 6 }, keys := [5 * 256 + 15], serial := 0, signed := false }, commitWait := some { cmd := ((waits (.waiting .quiescent) (cmdOf 0 0x71 [(0, 4, 5)]))).ref, deadline := 9 } } (waits (.waiting .quiescent) (cmdOf 0 0x71 [(0, 4, 5)]))) (fun s => s.commitWait = some { cmd := ((waits (.waiting .quiescent) (cmdOf 0 0x71 [(0, 4, 5)]))).ref, deadline := 9 } ∧
      s.staged = some { conf := { on.conf with address := 6 }, keys := [5 * 256 + 15], serial := 0, signed := false } ∧
      s.findCmd ((waits (.waiting .quiescent) (cmdOf 0 0x71 [(0, 4, 5)]))).ref = some (waits (.waiting .quiescent)
      (cmdOf 0 0x71 [(0, 4, 5)])) ∧ (s.advance 0).closeDue = false ∧ (s.advance 0).tide ≤ 9 ∧ 9 ≤ (s.advance 0).tide ∧
      (s.advance 0).quiescent { conf := { on.conf with address := 6 }, keys := [5 * 256 + 15], serial := 0, signed := false } = true),
      meets (put { on with tide := 10, staged := some { conf := { on.conf with address := 6 }, keys := [5 * 256 + 15], serial := 0, signed := false }, commitWait := some { cmd := ((waits (.waiting .quiescent) (cmdOf 0 0x71 [(0, 4, 5)]))).ref, deadline := 9 } } (waits (.waiting .quiescent) (cmdOf 0 0x71 [(0, 4, 5)]))) (fun s => s.commitWait = some { cmd := ((waits (.waiting .quiescent) (cmdOf 0 0x71 [(0, 4, 5)]))).ref, deadline := 9 } ∧
      s.staged = some { conf := { on.conf with address := 6 }, keys := [5 * 256 + 15], serial := 0, signed := false } ∧
      s.findCmd ((waits (.waiting .quiescent) (cmdOf 0 0x71 [(0, 4, 5)]))).ref = some (waits (.waiting .quiescent)
      (cmdOf 0 0x71 [(0, 4, 5)])) ∧ (s.advance 0).closeDue = false ∧ 9 < (s.advance 0).tide),
      meets ((put { on with tide := 9, staged := some { conf := { on.conf with address := 6 }, keys := [5 * 256 + 15], serial := 0, signed := false }, commitWait := some { cmd := ((waits (.waiting .quiescent) (cmdOf 0 0x71 [(0, 4, 5)]))).ref, deadline := 9 } } (waits (.waiting .quiescent) (cmdOf 0 0x71 [(0, 4, 5)]))).modMb 15 0 (fun x => { x with state := .forward })) (fun s => s.commitWait = some { cmd := ((waits (.waiting .quiescent) (cmdOf 0 0x71 [(0, 4, 5)]))).ref, deadline := 9 } ∧
      s.staged = some { conf := { on.conf with address := 6 }, keys := [5 * 256 + 15], serial := 0, signed := false } ∧
      s.findCmd ((waits (.waiting .quiescent) (cmdOf 0 0x71 [(0, 4, 5)]))).ref = some (waits (.waiting .quiescent)
      (cmdOf 0 0x71 [(0, 4, 5)])) ∧ (s.advance 0).closeDue = false ∧ (s.advance 0).tide = 9 ∧
      (s.advance 0).quiescent { conf := { on.conf with address := 6 }, keys := [5 * 256 + 15], serial := 0, signed := false } = false),
      begins (put (put { on with tide := 9, staged := some { conf := { on.conf with address := 6 }, keys := [5 * 256 + 15], serial := 0, signed := false } } (cmdOf 0 0x71 [(0, 4, 0)])) { cmdOf 0 0x42 [] with launch := 5, fetchOrder := 4, oldestSince := none }) 0 0x71 (fun c u => c.param 0 4 ≤ 60000000 ∧
      zeros c 64 (fun i => 4 ≤ i) ∧
      (put (put { on with tide := 9, staged := some { conf := { on.conf with address := 6 }, keys := [5 * 256 + 15], serial := 0, signed := false } } (cmdOf 0 0x71 [(0, 4, 0)])) { cmdOf 0 0x42 [] with launch := 5, fetchOrder := 4, oldestSince := none }).commitWait = none ∧
      (put (put { on with tide := 9, staged := some { conf := { on.conf with address := 6 }, keys := [5 * 256 + 15], serial := 0, signed := false } } (cmdOf 0 0x71 [(0, 4, 0)])) { cmdOf 0 0x42 [] with launch := 5, fetchOrder := 4, oldestSince := none }).staged = some { conf := { on.conf with address := 6 }, keys := [5 * 256 + 15], serial := 0, signed := false } ∧
      u.closeDue = true),
      begins (put (put { on with tide := 9, staged := some { conf := { on.conf with address := 6 }, keys := [5 * 256 + 15], serial := 0, signed := false } } (cmdOf 0 0x71 [(0, 4, 60000000)])) { cmdOf 0 0x42 [] with launch := 5, fetchOrder := 4, oldestSince := none }) 0 0x71 (fun c u => c.param 0 4 ≤ 60000000 ∧
      zeros c 64 (fun i => 4 ≤ i) ∧
      (put (put { on with tide := 9, staged := some { conf := { on.conf with address := 6 }, keys := [5 * 256 + 15], serial := 0, signed := false } } (cmdOf 0 0x71 [(0, 4, 60000000)])) { cmdOf 0 0x42 [] with launch := 5, fetchOrder := 4, oldestSince := none }).commitWait = none ∧
      (put (put { on with tide := 9, staged := some { conf := { on.conf with address := 6 }, keys := [5 * 256 + 15], serial := 0, signed := false } } (cmdOf 0 0x71 [(0, 4, 60000000)])) { cmdOf 0 0x42 [] with launch := 5, fetchOrder := 4, oldestSince := none }).staged = some { conf := { on.conf with address := 6 }, keys := [5 * 256 + 15], serial := 0, signed := false } ∧
      u.closeDue = true)].all id = true :=
  by decide +kernel

theorem witness_DiesLeaveAndReturn :
    [begins (put { on with dies := [(11, { service := 1 })] }
      (cmdOf 0 0x72 [(0, 1, 11), (1, 1, 0), (4, 4, 60000000)])) 0 0x72 (fun c u => c.param 0 1 < 12 ∧ c.param 1 1 < 2 ∧
      1 ≤ c.param 4 4 ∧ c.param 4 4 ≤ 60000000 ∧ zeros c 64 (fun i => i = 2 ∨ i = 3 ∨ 8 ≤ i) ∧
      ((put { on with dies := [(11, { service := 1 })] }
      (cmdOf 0 0x72 [(0, 1, 11), (1, 1, 0), (4, 4, 60000000)])).die 11).service ≠ 0),
      begins (put { on with dies := [(11, { service := 2 })] }
      (cmdOf 0 0x72 [(0, 1, 11), (1, 1, 0), (4, 4, 60000000)])) 0 0x72 (fun c u => c.param 0 1 < 12 ∧ c.param 1 1 < 2 ∧
      1 ≤ c.param 4 4 ∧ c.param 4 4 ≤ 60000000 ∧ zeros c 64 (fun i => i = 2 ∨ i = 3 ∨ 8 ≤ i) ∧
      ((put { on with dies := [(11, { service := 2 })] }
      (cmdOf 0 0x72 [(0, 1, 11), (1, 1, 0), (4, 4, 60000000)])).die 11).service ≠ 0),
      begins (put { on with dies := [(11, { service := 3 })] }
      (cmdOf 0 0x72 [(0, 1, 11), (1, 1, 0), (4, 4, 60000000)])) 0 0x72 (fun c u => c.param 0 1 < 12 ∧ c.param 1 1 < 2 ∧
      1 ≤ c.param 4 4 ∧ c.param 4 4 ≤ 60000000 ∧ zeros c 64 (fun i => i = 2 ∨ i = 3 ∨ 8 ≤ i) ∧
      ((put { on with dies := [(11, { service := 3 })] }
      (cmdOf 0 0x72 [(0, 1, 11), (1, 1, 0), (4, 4, 60000000)])).die 11).service ≠ 0),
      begins (put on (cmdOf 0 0x72 [(0, 1, 11), (1, 1, 0), (4, 4, 60000000)])) 0 0x72 (fun c u => c.param 0 1 < 12 ∧
      c.param 1 1 < 2 ∧ 1 ≤ c.param 4 4 ∧ c.param 4 4 ≤ 60000000 ∧ zeros c 64 (fun i => i = 2 ∨ i = 3 ∨ 8 ≤ i) ∧
      ((put on (cmdOf 0 0x72 [(0, 1, 11), (1, 1, 0), (4, 4, 60000000)])).die 11).service = 0 ∧
      u.allCmds.all (fun d => !d.start.isSome || d.namesDie != some 11)),
      begins (put (put on (waits .running (cmdOf 1 0x33 [(0, 1, 11)])))
      (cmdOf 0 0x72 [(0, 1, 11), (1, 1, 0), (4, 4, 60000000)])) 0 0x72 (fun c u => c.param 0 1 < 12 ∧ c.param 1 1 < 2 ∧
      1 ≤ c.param 4 4 ∧ c.param 4 4 ≤ 60000000 ∧ zeros c 64 (fun i => i = 2 ∨ i = 3 ∨ 8 ≤ i) ∧ ((put (put on
      (waits .running (cmdOf 1 0x33 [(0, 1, 11)])))
      (cmdOf 0 0x72 [(0, 1, 11), (1, 1, 0), (4, 4, 60000000)])).die 11).service = 0 ∧
      u.allCmds.any (fun d => d.start.isSome && d.live && d.namesDie == some 11 && decide (d.ref ≠ c.ref))),
      meets (put (put { on with tide := 9, dies := [(11, { service := 1 })] } (waits .running
      (cmdOf 1 0x33 [(0, 1, 11)]))) ({ waits (.waiting .dieDrain) (cmdOf 0 0x72 [(0, 1, 11), (1, 1, 0), (4, 4, 60000000)]) with deadline := some 9 })) (fun s => (s.ring 0).cmds = [({ waits (.waiting .dieDrain) (cmdOf 0 0x72 [(0, 1, 11), (1, 1, 0), (4, 4, 60000000)]) with deadline := some 9 })] ∧
      (({ waits (.waiting .dieDrain) (cmdOf 0 0x72 [(0, 1, 11), (1, 1, 0), (4, 4, 60000000)]) with deadline := some 9 })).param 0 1 = 11 ∧
      9 ≤ (s.advance 0).tide ∧ s.onDie 11 ≠ [] ∧
      ((({ waits (.waiting .dieDrain) (cmdOf 0 0x72 [(0, 1, 11), (1, 1, 0), (4, 4, 60000000)]) with deadline := some 9 })).param 1 1).testBit 0 = false),
      meets (put (put { on with tide := 9, dies := [(11, { service := 1 })] } (waits .running
      (cmdOf 1 0x33 [(0, 1, 11)]))) ({ waits (.waiting .dieDrain) (cmdOf 0 0x72 [(0, 1, 11), (1, 1, 1), (4, 4, 60000000)]) with deadline := some 9 })) (fun s => (s.ring 0).cmds = [({ waits (.waiting .dieDrain) (cmdOf 0 0x72 [(0, 1, 11), (1, 1, 1), (4, 4, 60000000)]) with deadline := some 9 })] ∧
      (({ waits (.waiting .dieDrain) (cmdOf 0 0x72 [(0, 1, 11), (1, 1, 1), (4, 4, 60000000)]) with deadline := some 9 })).param 0 1 = 11 ∧
      9 ≤ (s.advance 0).tide ∧ s.onDie 11 ≠ [] ∧
      ((({ waits (.waiting .dieDrain) (cmdOf 0 0x72 [(0, 1, 11), (1, 1, 1), (4, 4, 60000000)]) with deadline := some 9 })).param 1 1).testBit 0 = true),
      begins (put { on with dies := [(11, { service := 1 })] } (cmdOf 0 0x73 [(0, 1, 11), (1, 1, 1)])) 0 0x73
      (fun c u => c.param 0 1 < 12 ∧ c.param 1 1 < 2 ∧ zeros c 64 (fun i => 2 ≤ i) ∧
      ((put { on with dies := [(11, { service := 1 })] } (cmdOf 0 0x73 [(0, 1, 11), (1, 1, 1)])).die 11).service ≠ 2),
      begins (put { on with dies := [(11, { service := 3 })] } (cmdOf 0 0x73 [(0, 1, 11), (1, 1, 1)])) 0 0x73
      (fun c u => c.param 0 1 < 12 ∧ c.param 1 1 < 2 ∧ zeros c 64 (fun i => 2 ≤ i) ∧
      ((put { on with dies := [(11, { service := 3 })] } (cmdOf 0 0x73 [(0, 1, 11), (1, 1, 1)])).die 11).service ≠ 2),
      begins (put { on with dies := [(11, { service := 2 })] } (cmdOf 0 0x73 [(0, 1, 11), (1, 1, 1)])) 0 0x73
      (fun c u => c.param 0 1 < 12 ∧ c.param 1 1 < 2 ∧ zeros c 64 (fun i => 2 ≤ i) ∧
      ((put { on with dies := [(11, { service := 2 })] } (cmdOf 0 0x73 [(0, 1, 11), (1, 1, 1)])).die 11).service = 2),
      begins (put { on with dies := [(11, { service := 3, repaired := true })] } (cmdOf 0 0x74 [(0, 1, 11)])) 0 0x74
      (fun c u => c.param 0 1 < 12 ∧ zeros c 64 (fun i => 1 ≤ i) ∧
      (((put { on with dies := [(11, { service := 3, repaired := true })] }
      (cmdOf 0 0x74 [(0, 1, 11)])).die 11).service ≠ 2 ∨ ((put { on with dies := [(11, { service := 3, repaired := true })] } (cmdOf 0 0x74 [(0, 1, 11)])).die 11).repaired = false)),
      begins (put { on with dies := [(11, { service := 2 })] } (cmdOf 0 0x74 [(0, 1, 11)])) 0 0x74
      (fun c u => c.param 0 1 < 12 ∧ zeros c 64 (fun i => 1 ≤ i) ∧ (((put { on with dies := [(11, { service := 2 })] }
      (cmdOf 0 0x74 [(0, 1, 11)])).die 11).service ≠ 2 ∨ ((put { on with dies := [(11, { service := 2 })] }
      (cmdOf 0 0x74 [(0, 1, 11)])).die 11).repaired = false)),
      begins (put { on with dies := [(11, { service := 2, outOfService := true, repaired := true })] }
      (cmdOf 0 0x74 [(0, 1, 11)])) 0 0x74 (fun c u => c.param 0 1 < 12 ∧ zeros c 64 (fun i => 1 ≤ i) ∧
      ((put { on with dies := [(11, { service := 2, outOfService := true, repaired := true })] }
      (cmdOf 0 0x74 [(0, 1, 11)])).die 11).service = 2 ∧
      ((put { on with dies := [(11, { service := 2, outOfService := true, repaired := true })] }
      (cmdOf 0 0x74 [(0, 1, 11)])).die 11).repaired = true),
      begins (put on (cmdOf 0 0x72 [(0, 1, 11), (1, 1, 0), (4, 4, 60000000)])) 0 0x72 (fun c u => c.param 0 1 < 12 ∧
      c.param 1 1 < 2 ∧ 1 ≤ c.param 4 4 ∧ c.param 4 4 ≤ 60000000 ∧ zeros c 64 (fun i => i = 2 ∨ i = 3 ∨ 8 ≤ i) ∧
      ((put on (cmdOf 0 0x72 [(0, 1, 11), (1, 1, 0), (4, 4, 60000000)])).die 11).service = 0 ∧
      (((u.setService 11 1).setWait c.ref .dieDrain (some (u.tide + 60000000000))).modCmd c.ref (fun d => { d with aux := ((u.onDie 11).map (·.ring)).eraseDups })).onDie 11 = []),
      begins (put (put on (waits .running (cmdOf 1 0x33 [(0, 1, 11)])))
      (cmdOf 0 0x72 [(0, 1, 11), (1, 1, 0), (4, 4, 60000000)])) 0 0x72 (fun c u => c.param 0 1 < 12 ∧ c.param 1 1 < 2 ∧
      1 ≤ c.param 4 4 ∧ c.param 4 4 ≤ 60000000 ∧ zeros c 64 (fun i => i = 2 ∨ i = 3 ∨ 8 ≤ i) ∧ ((put (put on
      (waits .running (cmdOf 1 0x33 [(0, 1, 11)])))
      (cmdOf 0 0x72 [(0, 1, 11), (1, 1, 0), (4, 4, 60000000)])).die 11).service = 0 ∧
      (((u.setService 11 1).setWait c.ref .dieDrain (some (u.tide + 60000000000))).modCmd c.ref (fun d => { d with aux := ((u.onDie 11).map (·.ring)).eraseDups })).onDie 11 ≠ []),
      meets (put (put ({ on with tide := 9, dies := [(11, { service := 1 })] }.modChannel 191
      (fun x => { x with state := 1, lease := 99, cmd := some ((waits (.waiting .channel) (cmdOf 2 0x60 [(0, 2, 191), (2, 1, 11)]))).ref })) (waits (.waiting .prefetchClose) { cmdOf 3 0x33 [(0, 1, 11)] with slot := some 2 })) ({ waits (.waiting .dieDrain) (cmdOf 0 0x72 [(0, 1, 11), (1, 1, 1), (4, 4, 60000000)]) with deadline := some 9 })) (fun s => (s.ring 0).cmds = [({ waits (.waiting .dieDrain) (cmdOf 0 0x72 [(0, 1, 11), (1, 1, 1), (4, 4, 60000000)]) with deadline := some 9 })] ∧
      (({ waits (.waiting .dieDrain) (cmdOf 0 0x72 [(0, 1, 11), (1, 1, 1), (4, 4, 60000000)]) with deadline := some 9 })).param 0 1 = 11 ∧
      9 ≤ (s.advance 0).tide ∧ s.onDie 11 ≠ [] ∧
      ((({ waits (.waiting .dieDrain) (cmdOf 0 0x72 [(0, 1, 11), (1, 1, 1), (4, 4, 60000000)]) with deadline := some 9 })).param 1 1).testBit 0 = true),
      meets (put (put ({ on with tide := 9, dies := [(11, { service := 1 })] }.modChannel 191
      (fun x => { x with state := 1, lease := 99, cmd := some ((waits (.waiting .channel) (cmdOf 2 0x60 [(0, 2, 191), (2, 1, 11)]))).ref })) (waits (.waiting .channel) (cmdOf 2 0x60 [(0, 2, 191), (2, 1, 11)]))) ({ waits (.waiting .dieDrain) (cmdOf 0 0x72 [(0, 1, 11), (1, 1, 1), (4, 4, 60000000)]) with deadline := some 9 })) (fun s => (s.ring 0).cmds = [({ waits (.waiting .dieDrain) (cmdOf 0 0x72 [(0, 1, 11), (1, 1, 1), (4, 4, 60000000)]) with deadline := some 9 })] ∧
      (({ waits (.waiting .dieDrain) (cmdOf 0 0x72 [(0, 1, 11), (1, 1, 1), (4, 4, 60000000)]) with deadline := some 9 })).param 0 1 = 11 ∧
      9 ≤ (s.advance 0).tide ∧ s.onDie 11 ≠ [] ∧
      ((({ waits (.waiting .dieDrain) (cmdOf 0 0x72 [(0, 1, 11), (1, 1, 1), (4, 4, 60000000)]) with deadline := some 9 })).param 1 1).testBit 0 = true),
      meets (put { on with tide := 9, dies := [(11, { service := 1 })] } ({ waits (.waiting .dieDrain) (cmdOf 0 0x72 [(0, 1, 11), (1, 1, 0), (4, 4, 60000000)]) with deadline := some 9, aux := [3] })) (fun s => (s.ring 0).cmds = [({ waits (.waiting .dieDrain) (cmdOf 0 0x72 [(0, 1, 11), (1, 1, 0), (4, 4, 60000000)]) with deadline := some 9, aux := [3] })] ∧
      (({ waits (.waiting .dieDrain) (cmdOf 0 0x72 [(0, 1, 11), (1, 1, 0), (4, 4, 60000000)]) with deadline := some 9, aux := [3] })).param 0 1 = 11 ∧
      9 ≤ (s.advance 0).tide ∧ s.onDie 11 = [] ∧
      (s.advance 0).drainPast ({ waits (.waiting .dieDrain) (cmdOf 0 0x72 [(0, 1, 11), (1, 1, 0), (4, 4, 60000000)]) with deadline := some 9, aux := [3] }) = true),
      meets (put { on with host := { on.host with slots := [(slotKey 3 2, { seq := 7 })] } }
      (waits (.waiting .prefetchClose) { cmdOf 3 0x33 [(0, 1, 11)] with slot := some 2 }))
      (fun s => ((waits (.waiting .prefetchClose) { cmdOf 3 0x33 [(0, 1, 11)] with slot := some 2 })).silent = false ∧
      ((waits (.waiting .prefetchClose) { cmdOf 3 0x33 [(0, 1, 11)] with slot := some 2 })).slot = some 2 ∧
      (s.slot 3 2).any (fun x => !x.marked) ∧ ((waits (.waiting .prefetchClose)
      { cmdOf 3 0x33 [(0, 1, 11)] with slot := some 2 })).opcode ≠ 0x60),
      decide (((waits (.waiting .channel) (cmdOf 2 0x60 [(0, 2, 191), (2, 1, 11)]))).opcode = 0x60 ∧
      ((waits (.waiting .channel) (cmdOf 2 0x60 [(0, 2, 191), (2, 1, 11)]))).work = .waiting .channel),
      meets (put { on with dies := [(11, { service := 3, outOfService := true, repairIn := some {} })] }
      (waits (.waiting .repair) (cmdOf 0 0x73 [(0, 1, 11), (1, 1, 0)]))) (fun s => (s.die 11).repairIn = some {} ∧
      ((waits (.waiting .repair) (cmdOf 0 0x73 [(0, 1, 11), (1, 1, 0)]))).param 0 1 = 11 ∧ (((waits (.waiting .repair)
      (cmdOf 0 0x73 [(0, 1, 11), (1, 1, 0)]))).param 1 1).testBit 0 = false),
      meets (put { on with dies := [(11, { service := 3, outOfService := true, repairIn := some {} })] }
      (waits (.waiting .repair) (cmdOf 0 0x73 [(0, 1, 11), (1, 1, 1)]))) (fun s => (s.die 11).repairIn = some {} ∧
      ((waits (.waiting .repair) (cmdOf 0 0x73 [(0, 1, 11), (1, 1, 1)]))).param 0 1 = 11 ∧ (((waits (.waiting .repair)
      (cmdOf 0 0x73 [(0, 1, 11), (1, 1, 1)]))).param 1 1).testBit 0 = true)].all id = true :=
  by decide +kernel

theorem witness_MemoryErrorsAreCounted :
    [meets on (fun s => s.power.diesPowered = true ∧
      5404319552844599864 = (5404319552844599864#64).toNat / poisonUnit (5404319552844599864#64).toNat * poisonUnit (5404319552844599864#64).toNat ∧
      isAccKey (5404319552844599864#64).toNat = false ∧ s.keyHeld (5404319552844599864#64).toNat = false ∧
      s.controllerOf (5404319552844599864#64).toNat = some (.near 11 4 4664) ∧
      s.unitPoisoned 5404319552844599864 = false),
      meets ({ on with poison := [5404319552844599864] }) (fun s => s.power.diesPowered = true ∧
      s.unitPoisoned 5404319552844599864 = true ∧ isAccKey (5404319552844599864#64).toNat = false ∧
      s.keyHeld (5404319552844599864#64).toNat = false ∧
      s.controllerOf (5404319552844599864#64).toNat = some (.near 11 4 4664)),
      meets on (fun s => s.power.diesPowered = true ∧
      6557241057451446840 = (6557241057451446847#64).toNat / poisonUnit (6557241057451446847#64).toNat * poisonUnit (6557241057451446847#64).toNat ∧
      isAccKey (6557241057451446847#64).toNat = false ∧ s.keyHeld (6557241057451446847#64).toNat = false ∧
      s.controllerOf (6557241057451446847#64).toNat = some (.near 11 5 4671) ∧
      s.unitPoisoned 6557241057451446840 = false),
      meets ({ on with poison := [6557241057451446840] }) (fun s => s.power.diesPowered = true ∧
      s.unitPoisoned 6557241057451446840 = true ∧ isAccKey (6557241057451446847#64).toNat = false ∧
      s.keyHeld (6557241057451446847#64).toNat = false ∧
      s.controllerOf (6557241057451446847#64).toNat = some (.near 11 5 4671)),
      meets on (fun s => s.power.diesPowered = true ∧
      7710162562058293816 = (7710162562058293823#64).toNat / poisonUnit (7710162562058293823#64).toNat * poisonUnit (7710162562058293823#64).toNat ∧
      isAccKey (7710162562058293823#64).toNat = false ∧ s.keyHeld (7710162562058293823#64).toNat = false ∧
      s.controllerOf (7710162562058293823#64).toNat = some (.near 11 6 4671) ∧
      s.unitPoisoned 7710162562058293816 = false),
      meets ({ on with poison := [7710162562058293816] }) (fun s => s.power.diesPowered = true ∧
      s.unitPoisoned 7710162562058293816 = true ∧ isAccKey (7710162562058293823#64).toNat = false ∧
      s.keyHeld (7710162562058293823#64).toNat = false ∧
      s.controllerOf (7710162562058293823#64).toNat = some (.near 11 6 4671)),
      meets on (fun s => s.power.diesPowered = true ∧
      2305843009213694272 = (2305843009213694293#64).toNat / poisonUnit (2305843009213694293#64).toNat * poisonUnit (2305843009213694293#64).toNat ∧
      isAccKey (2305843009213694293#64).toNat = false ∧ s.keyHeld (2305843009213694293#64).toNat = false ∧
      s.controllerOf (2305843009213694293#64).toNat = some (.far (farStackOf s.nStacks 341) 341) ∧
      s.unitPoisoned 2305843009213694272 = false),
      meets ({ on with poison := [2305843009213694272] }) (fun s => s.unitPoisoned 2305843009213694272 = true ∧
      isAccKey (2305843009213694293#64).toNat = false ∧ s.keyHeld (2305843009213694293#64).toNat = false ∧
      s.controllerOf (2305843009213694293#64).toNat = some (.far (farStackOf s.nStacks 341) 341)),
      meets on (fun s => s.power.diesPowered = true ∧
      2305843009213694272 = (2305843009213694293#64).toNat / poisonUnit (2305843009213694293#64).toNat * poisonUnit (2305843009213694293#64).toNat ∧
      isAccKey (2305843009213694293#64).toNat = false ∧ s.keyHeld (2305843009213694293#64).toNat = false ∧
      s.controllerOf (2305843009213694293#64).toNat = some (.far (farStackOf s.nStacks 341) 341) ∧
      s.unitPoisoned 2305843009213694272 = false ∧ 3 ≤ 3),
      meets on (fun s => s.power.diesPowered = true ∧
      18095181827798990840 = (18095181827798990841#64).toNat / poisonUnit (18095181827798990841#64).toNat * poisonUnit (18095181827798990841#64).toNat ∧
      isAccKey (18095181827798990841#64).toNat = true ∧ 0 ≤ 2),
      meets on (fun s => s.power.diesPowered = true ∧
      18095181827798990840 = (18095181827798990841#64).toNat / poisonUnit (18095181827798990841#64).toNat * poisonUnit (18095181827798990841#64).toNat ∧
      isAccKey (18095181827798990841#64).toNat = true ∧ 1 ≤ 2),
      meets on (fun s => s.power.diesPowered = true ∧
      18095181827798990840 = (18095181827798990841#64).toNat / poisonUnit (18095181827798990841#64).toNat * poisonUnit (18095181827798990841#64).toNat ∧
      isAccKey (18095181827798990841#64).toNat = true ∧ 2 ≤ 2),
      meets on (fun s => s.power.diesPowered = true ∧ 7 < s.nStacks ∧
      (tabGet ({} : FarChannel) (s.stack 7).channels 15).state = 0 ∧
      (tabGet ({} : FarChannel) (s.stack 7).channels 15).replay.all (fun e => e.1 != 9)),
      meets ({ on with tide := 60 }.modStack 7 (fun x => { x with channels := [(15, { replay := [(9, 4, 0)] })] }))
      (fun s => s.power.diesPowered = true ∧ 7 < s.nStacks ∧
      (tabGet ({} : FarChannel) (s.stack 7).channels 15).state = 0 ∧
      (tabGet ({} : FarChannel) (s.stack 7).channels 15).replay = [(9, 4, 0)] ∧ (s.advance 0).tide ≤ 0 + 60),
      meets (on.modStack (farStackOf on.nStacks 0x155)
      (fun x => { x with channels := (List.range 16).map (fun c => (c, { state := 1 })) }))
      (fun s => s.power.diesPowered = true ∧ isAccKey (0x2000000000000155#64).toNat = false ∧
      s.keyHeld (0x2000000000000155#64).toNat = true)].all id = true :=
  by decide +kernel

theorem witness_FaultsAreDeclaredAndEnd :
    [meets ({ on with dies := [(11, { bankBad := [63 * 32 + 31] })] }) (fun s => s.power.diesPowered = true ∧
      (s.advance 0).bankTrips 11 63 31 = true ∧ s.recovering 4 (bankUnit 11 63 31) = false ∧
      (s.pendingCopies 11 63).length < (tabGet ({} : NearChannel) (s.die 11).channels 63).spares),
      meets ({ on with dies := [(11, { bankErrors := [(63 * 32 + 31, List.replicate 32 (0, 0))], channels := [(63, { spare0 := 1, spare1 := 2 })] })] }) (fun s => s.power.diesPowered = true ∧
      (s.advance 0).bankTrips 11 63 31 = true ∧ s.recovering 4 (bankUnit 11 63 31) = false ∧
      (s.pendingCopies 11 63).length = (tabGet ({} : NearChannel) (s.die 11).channels 63).spares),
      meets (on.modArray 11 31 (fun x => { x with failRow := some 63, refusing := true }))
      (fun s => s.power.diesPowered = true ∧ (s.die 11).outOfService = false ∧ s.log.recoveries = [] ∧
      (s.array 11 31).failRow = some 63 ∧ s.refusers 11 31 ≠ [] ∧ (s.array 11 31).freeRows 63 ≠ 0),
      meets on (fun s => s.power.diesPowered = true ∧ (s.die 11).outOfService = false ∧
      (s.die 11).freeArrays.isEmpty = true),
      meets ({ on with dies := [(11, { freeArrays := [33], inService := 32, sparesFree := 1 })] })
      (fun s => s.power.diesPowered = true ∧ (s.die 11).outOfService = false ∧ (s.die 11).freeArrays.isEmpty = false),
      meets on (fun s => s.power.diesPowered = true ∧ (s.complex 5).failed = false ∧
      (s.complex (partnerOf 5)).failed = false),
      meets ({ on with host := { on.host with standby := some 5 } }) (fun s => s.power.diesPowered = true ∧
      0 ∉ s.host.failedCores ∧ (s.host.standby.isNone || s.host.standby == some 0) = false),
      meets ({ on with host := { on.host with standby := some 5 } }) (fun s => s.power.diesPowered = true ∧
      5 ∉ s.host.failedCores ∧ (s.host.standby.isNone || s.host.standby == some 5) = true),
      meets on (fun s => s.power.diesPowered = true ∧ 1 < s.nIoDies ∧ (s.tile 1).inService = true),
      meets (port on 7 3) (fun s => s.power.diesPowered = true ∧ s.portActive 7 = true ∧
      (s.port 7).train.agreed.toNat.testBit 7 = true ∧
      ((s.portItem 7).spare.isNone || (s.port 7).train.spareFailed || (s.port 7).train.sparePos.isSome) = true),
      meets (on.modTrain (.seam 2) (fun x => { x with state := .active, agreed := 0xFF }))
      (fun s => s.power.diesPowered = true ∧ (s.train (.seam 2)).state = .active ∧
      (s.train (.seam 2)).agreed.toNat.testBit 7 = true),
      meets ({ on with dies := [(11, { bankBad := [63 * 32 + 31] })] }) (fun s => s.power.diesPowered = true ∧
      (s.advance 0).bankTrips 11 63 31 = true ∧ s.recovering 4 (bankUnit 11 63 31) = false ∧
      (s.pendingCopies 11 63).length < (tabGet ({} : NearChannel) (s.die 11).channels 63).spares ∧
      (tabGet ({} : NearChannel) (s.die 11).channels 63).copying = none),
      meets ({ on with tide := 9, dies := [(11, { channels := [(63, { copying := some 31 })] })] })
      (fun s => s.power.diesPowered = true ∧ (tabGet ({} : NearChannel) (s.die 11).channels 63).copying = some 31 ∧
      s.log.recoveries = [] ∧ (tabGet ({} : NearChannel) (s.die 11).channels 63).spare1 = 0x3F),
      meets ({ on with tide := 9, dies := [(11, { channels := [(63, { toSecond := true, copying := some 31 })] })] })
      (fun s => s.power.diesPowered = true ∧ (tabGet ({} : NearChannel) (s.die 11).channels 63).copying = some 31 ∧
      s.log.recoveries = [] ∧ (tabGet ({} : NearChannel) (s.die 11).channels 63).spare1 = 0x3F),
      meets ({ on with tide := 9, dies := [(11, { channels := [(63, { spare0 := 4, copying := some 31 })] })] })
      (fun s => s.power.diesPowered = true ∧ (tabGet ({} : NearChannel) (s.die 11).channels 63).copying = some 31 ∧
      s.log.recoveries = [] ∧ (tabGet ({} : NearChannel) (s.die 11).channels 63).spare1 = 0x3F),
      meets (on.modStack 7 (fun x => { x with channels := [(15, { exhausted := true })] }))
      (fun s => s.power.diesPowered = true ∧ 7 < s.nStacks ∧
      (tabGet ({} : FarChannel) (s.stack 7).channels 15).state = 0 ∧
      (tabGet ({} : FarChannel) (s.stack 7).channels 15).exhausted = true),
      meets ({ (put layered (waits .running upd)).setEngine 0 (some { engine 0 with banks := [(5, 8)] }) with tide := 1000009 }) (fun s => (s.die 0).engine = some { engine 0 with banks := [(5, 8)] } ∧
      8 + 1000000 < (s.advance 0).tide ∧ s.findCmd upd.ref = some (waits .running upd) ∧
      (s.advance 0).partHeld (updP upd) 1 = false),
      meets ({ ({ (put layered (waits .running upd)).setEngine 0 (some { engine 0 with banks := [(5, 8)] }) with tide := 1000009 }).modLayer 4 (fun l => { l with workAddr := 0x5300000000000000 }) with dies := [(0, { engine := some { engine 0 with banks := [(5, 8)] } }), (3, { service := 3, outOfService := true })] }) (fun s => (s.die 0).engine = some { engine 0 with banks := [(5, 8)] } ∧
      8 + 1000000 < (s.advance 0).tide ∧ s.findCmd upd.ref = some (waits .running upd) ∧
      (s.advance 0).partHeld (updP upd) 1 = true),
      meets ({ on with dies := [(11, { channels := [(63, { spare0 := 4, copying := some 31 })], bankBad := [63 * 32 + 30] })], log := { on.log with recoveries := [{ cls := 4, unit := bankUnit 11 63 31, since := 0 }, { cls := 4, unit := bankUnit 11 63 30, since := 0 }] } }) (fun s => s.power.diesPowered = true ∧
      (tabGet ({} : NearChannel) (s.die 11).channels 63).copying = some 31 ∧
      (tabGet ({} : NearChannel) (s.die 11).channels 63).spare1 = 0x3F),
      meets (on.modStack 7 (fun x => { x with channels := [(15, { recent := List.replicate 257 0 })] }))
      (fun s => s.power.diesPowered = true ∧ 7 < s.nStacks ∧
      (tabGet ({} : FarChannel) (s.stack 7).channels 15).state = 0 ∧
      256 < (withinMs (s.advance 0).tide (tabGet ({} : FarChannel) (s.stack 7).channels 15).recent).length),
      meets ({ (on) with log := { on.log with recoveries := [{ cls := 3, unit := 7 * 256 + 15, since := 0, noSpare := true }] } }) (fun s => s.log.recoveries = [{ cls := 3, unit := 7 * 256 + 15, since := 0, noSpare := true }] ∧
      s.host.held = [] ∧
      (s.advance 0).mayResume { cls := 3, unit := 7 * 256 + 15, since := 0, noSpare := true } = true),
      meets ({ (on) with log := { on.log with recoveries := [{ cls := 3, unit := 7 * 256 + 15, since := 0, noSpare := false }] } }) (fun s => s.log.recoveries = [{ cls := 3, unit := 7 * 256 + 15, since := 0, noSpare := false }] ∧
      s.host.held = [] ∧
      (s.advance 0).mayResume { cls := 3, unit := 7 * 256 + 15, since := 0, noSpare := false } = true),
      meets ({ (on) with log := { on.log with recoveries := [{ cls := 6, unit := 11 * 65536 + 31 * 256 + 63, since := 0, noSpare := false }] } }) (fun s => s.log.recoveries = [{ cls := 6, unit := 11 * 65536 + 31 * 256 + 63, since := 0, noSpare := false }] ∧
      s.host.held = [] ∧
      (s.advance 0).mayResume { cls := 6, unit := 11 * 65536 + 31 * 256 + 63, since := 0, noSpare := false } = true ∧
      (s.die 11).outOfService = false),
      meets ({ (on) with log := { on.log with recoveries := [{ cls := 7, unit := 5, since := 0, noSpare := false }] } })
      (fun s => s.log.recoveries = [{ cls := 7, unit := 5, since := 0, noSpare := false }] ∧ s.host.held = [] ∧
      (s.advance 0).mayResume { cls := 7, unit := 5, since := 0, noSpare := false } = true),
      meets ({ ({ on with host := { on.host with standby := some 5 } }) with log := { on.log with recoveries := [{ cls := 8, unit := 1, since := 0, noSpare := false }] } }) (fun s => s.log.recoveries = [{ cls := 8, unit := 1, since := 0, noSpare := false }] ∧
      s.host.held = [] ∧ (s.advance 0).mayResume { cls := 8, unit := 1, since := 0, noSpare := false } = true ∧
      s.host.standby = some 5),
      meets ({ on with log := { on.log with recoveries := [{ cls := 4, unit := bankUnit 11 63 31, since := 0 }] }, dies := [(11, { channels := [(63, { copying := some 31 })] })] }) (fun s => s.log.recoveries.find? (fun x => x.cls == 4 && x.unit == bankUnit 11 63 31) = some { cls := 4, unit := bankUnit 11 63 31, since := 0 } ∧
      (s.advance 0).mayResume { cls := 4, unit := bankUnit 11 63 31, since := 0 } = false),
      meets ({ on with log := { on.log with recoveries := [{ cls := 3, unit := 7 * 256 + 15, since := 0, noSpare := true }] } }) (fun s => s.log.recoveries.find? (fun x => x.cls == 3 && x.unit == 7 * 256 + 15) = some { cls := 3, unit := 7 * 256 + 15, since := 0, noSpare := true } ∧
      (s.advance 0).mayResume { cls := 3, unit := 7 * 256 + 15, since := 0, noSpare := true } = true),
      meets ({ on with log := { on.log with recoveries := [{ cls := 3, unit := 7 * 256 + 15, since := 0, noSpare := false }] } }) (fun s => s.log.recoveries.find? (fun x => x.cls == 3 && x.unit == 7 * 256 + 15) = some { cls := 3, unit := 7 * 256 + 15, since := 0, noSpare := false } ∧
      (s.advance 0).mayResume { cls := 3, unit := 7 * 256 + 15, since := 0, noSpare := false } = true),
      meets ({ on with log := { on.log with recoveries := [{ cls := 9, unit := 1, since := 0, noSpare := true }] } })
      (fun s => s.log.recoveries.find?
      (fun x => x.cls == 9 && x.unit == 1) = some { cls := 9, unit := 1, since := 0, noSpare := true } ∧
      (s.advance 0).mayResume { cls := 9, unit := 1, since := 0, noSpare := true } = true),
      meets ({ on with log := { on.log with recoveries := [{ cls := 9, unit := 1, since := 0, noSpare := false }] } })
      (fun s => s.log.recoveries.find?
      (fun x => x.cls == 9 && x.unit == 1) = some { cls := 9, unit := 1, since := 0, noSpare := false } ∧
      (s.advance 0).mayResume { cls := 9, unit := 1, since := 0, noSpare := false } = true),
      meets ({ on with log := { on.log with recoveries := [{ cls := 7, unit := 5, since := 0, noSpare := false }] } })
      (fun s => s.log.recoveries.find?
      (fun x => x.cls == 7 && x.unit == 5) = some { cls := 7, unit := 5, since := 0, noSpare := false } ∧
      (s.advance 0).mayResume { cls := 7, unit := 5, since := 0, noSpare := false } = true),
      meets ({ ({ on with dies := [(11, { channels := [(63, { spare0 := 31, paused := [(31, 0)] })] })] }) with log := { on.log with recoveries := [{ cls := 4, unit := bankUnit 11 63 31, since := 0, noSpare := false }] } }) (fun s => s.log.recoveries = [{ cls := 4, unit := bankUnit 11 63 31, since := 0, noSpare := false }] ∧
      s.host.held = [] ∧
      (s.advance 0).mayResume { cls := 4, unit := bankUnit 11 63 31, since := 0, noSpare := false } = true)].all id = true :=
  by decide +kernel

theorem witness_ManagementRequestsAreAnswered :
    [meets on (fun s => s.power.phase ≠ .off ∧ 0x10 = 0x10 + s.power.slotId),
      meets on (fun s => s.power.phase ≠ .off ∧ s.mgmt.dynAddr = none),
      meets on (fun s => s.power.phase ≠ .off),
      meets ({ on with mgmt := { on.mgmt with spdmVersionSeen := true } }) (fun s => s.power.phase ≠ .off ∧
      s.mgmt.spdmVersionSeen = true),
      meets on (fun s => s.power.phase ≠ .off ∧ s.mgmt.spdmVersionSeen = false),
      meets ({ on with mgmt := { on.mgmt with spdmVersionSeen := true } }) (fun s => s.power.phase ≠ .off ∧
      s.mgmt.spdmNegotiated = false),
      meets ({ on with mgmt := { on.mgmt with spdmVersionSeen := true, spdmNegotiated := true } })
      (fun s => s.power.phase ≠ .off ∧ s.mgmt.spdmNegotiated = true),
      meets ({ on with mgmt := { on.mgmt with spdmVersionSeen := true, spdmNegotiated := true } })
      (fun s => s.power.phase ≠ .off ∧ s.mgmt.spdmNegotiated = true ∧ 1 ≤ 1 ∧ 1 ≤ 10 ∧ s.host.rotation = none ∧
      (s.advance 0).applyDue = false),
      meets ({ on with mgmt := { on.mgmt with spdmVersionSeen := true, spdmNegotiated := true } })
      (fun s => s.power.phase ≠ .off ∧ s.mgmt.spdmNegotiated = true ∧ 1 ≤ 10 ∧ 10 ≤ 10 ∧ s.host.rotation = none ∧
      (s.advance 0).applyDue = false),
      meets ({ on with host := { on.host with rotation := some [] }, mgmt := { on.mgmt with spdmVersionSeen := true, spdmNegotiated := true } }) (fun s => s.power.phase ≠ .off ∧
      s.mgmt.spdmNegotiated = true ∧ s.host.rotation.isSome = true),
      meets ({ on with dies := [(11, { tj := 44 })] }) (fun s => s.power.phase ≠ .off),
      meets on (fun s => s.power.phase ≠ .off ∧ 2 ≤ s.power.step ∧ 0 % 8 = 0 ∧ 1 ≤ 1 ∧ 1 ≤ 64 ∧ 0 + 8 * 1 ≤ 0x1000 ∧
      (s.advance 0).applyDue = false),
      meets on (fun s => s.power.phase ≠ .off ∧ 2 ≤ s.power.step ∧ 3584 % 8 = 0 ∧ 1 ≤ 64 ∧ 64 ≤ 64 ∧
      3584 + 8 * 64 ≤ 0x1000 ∧ (s.advance 0).applyDue = false),
      meets ({ on with power := { on.power with step := 1 } }) (fun s => s.power.phase ≠ .off ∧ s.power.step < 2 ∧
      (s.advance 0).applyDue = false),
      meets ({ on with mgmt := { on.mgmt with dynAddr := some 9 } }) (fun s => s.mgmt.dynAddr.isSome = true),
      meets on (fun s => s.mgmt.dynAddr = none),
      meets ({ on with mgmt := { on.mgmt with dynAddr := some 9, spdmVersionSeen := true, spdmNegotiated := true } })
      (fun s => s.power.phase ≠ .off ∧ (s.advance 0).applyDue = false ∧ s.host.rotation = none ∧
      s.mgmt.spdmNegotiated = true),
      meets ({ on with mgmt := { on.mgmt with dynAddr := some 9, spdmVersionSeen := true } })
      (fun s => s.power.phase ≠ .off ∧ s.mgmt.spdmVersionSeen = true),
      meets ({ on with staged := some { conf := { on.conf with address := 6 }, keys := [], serial := 0, signed := false }, commitWait := some { cmd := ⟨0, 3⟩, deadline := 9 }, mgmt := { on.mgmt with dynAddr := some 9, spdmVersionSeen := true, spdmNegotiated := true } }) (fun s => s.power.phase ≠ .off ∧
      9 ∈ measuredBlocks 9 ∧ (s.advance 0).applyDue = true),
      meets ({ on with staged := some { conf := { on.conf with address := 6 }, keys := [], serial := 0, signed := false }, commitWait := some { cmd := ⟨0, 3⟩, deadline := 9 }, mgmt := { on.mgmt with dynAddr := some 9, spdmVersionSeen := true, spdmNegotiated := true } }) (fun s => s.power.phase ≠ .off ∧
      9 ∈ measuredBlocks 255 ∧ (s.advance 0).applyDue = true),
      meets ({ on with staged := some { conf := { on.conf with address := 6 }, keys := [], serial := 0, signed := false }, commitWait := some { cmd := ⟨0, 3⟩, deadline := 9 } }) (fun s => s.power.phase ≠ .off ∧
      (s.advance 0).applyDue = true ∧ configReg 0x28 = true),
      meets ({ on with staged := some { conf := { on.conf with address := 6 }, keys := [], serial := 0, signed := false }, commitWait := some { cmd := ⟨0, 3⟩, deadline := 9 }, mgmt := { on.mgmt with dynAddr := some 9 } }) (fun s => s.power.phase ≠ .off ∧
      (s.advance 0).applyDue = true ∧ configReg 0 = false ∧ 2 ≤ s.power.step),
      meets ({ on with mgmt := { on.mgmt with dynAddr := some 9 } }) (fun s => s.power.phase ≠ .off),
      meets on (fun s => s.power.phase ≠ .off ∧ 0x11 ≠ 0x10 + s.power.slotId),
      meets ({ on with mgmt := { on.mgmt with dynAddr := some 8 } }) (fun s => s.power.phase ≠ .off ∧
      s.mgmt.dynAddr = some 8)].all id = true :=
  by decide +kernel

theorem witness_FirmwareUpdatesRun :
    [meets on (fun s => s.power.phase ≠ .off),
      meets ({ (on) with mgmt := { on.mgmt with updState := 5 } }) (fun s => s.power.phase ≠ .off ∧ s.mgmt.updState = 5),
      meets on (fun s => s.power.phase ≠ .off ∧ s.mgmt.updState = 0),
      meets ({ (on) with mgmt := { on.mgmt with updState := 5 } }) (fun s => s.power.phase ≠ .off ∧ s.mgmt.updState ≠ 0),
      meets ({ (on) with mgmt := { on.mgmt with updState := 1 } }) (fun s => s.power.phase ≠ .off ∧ s.mgmt.updState = 1),
      meets ({ (on) with mgmt := { on.mgmt with updState := 2 } }) (fun s => s.power.phase ≠ .off ∧ s.mgmt.updState = 2),
      meets ({ (on) with mgmt := { on.mgmt with updState := 2, updTable := [1, 6] } }) (fun s => s.power.phase ≠ .off ∧
      s.mgmt.updState = 2 ∧ 6 ∈ s.mgmt.updTable),
      meets ({ on with mgmt := { on.mgmt with updState := 3, updMax := 2, updSize := 4, updData := [7, 8], updComponent := some 6, updTable := [6] } }) (fun s => s.mgmt.updState = 3 ∧
      ([3, 4] : List Byte).length ≤ s.mgmt.updMax ∧ 2 + ([3, 4] : List Byte).length ≤ s.mgmt.updSize),
      meets ({ (on) with mgmt := { on.mgmt with updState := 3, updMax := 2, updSize := 2, updData := [7, 8], updComponent := some 6, updTable := [6] } }) (fun s => s.power.phase ≠ .off ∧
      s.mgmt.updState = 3 ∧ s.mgmt.updData.length = s.mgmt.updSize),
      meets ({ (on) with mgmt := { on.mgmt with updState := 3, updMax := 2, updSize := 4, updData := [7, 8], updComponent := some 6, updTable := [6] } }) (fun s => s.power.phase ≠ .off ∧
      s.mgmt.updState = 3),
      meets ({ on with mgmt := { on.mgmt with updState := 4, updComponent := some 6, updTable := [6], updData := [] } })
      (fun s => s.power.phase ≠ .off ∧ s.mgmt.updState = 4 ∧
      (if ImageIn.bytes {} = s.mgmt.updData then some ({} : ImageIn) else none) = some {}),
      meets ({ on with mgmt := { on.mgmt with updState := 4, updComponent := some 6, updTable := [6], updData := [7, 8] } }) (fun s => s.power.phase ≠ .off ∧
      s.mgmt.updState = 4 ∧ (if ImageIn.bytes {} = s.mgmt.updData then some ({} : ImageIn) else none) = none),
      meets ({ on with mgmt := { on.mgmt with updState := 4, updComponent := some 6, updTable := [6], updData := [7, 8] } }) (fun s => s.power.phase ≠ .off ∧
      s.mgmt.updState = 4 ∧
      (if ImageIn.bytes { header := [7], body := [8] } = s.mgmt.updData then some ({ header := [7], body := [8] } : ImageIn) else none) = some { header := [7], body := [8] }),
      meets ({ on with power := { on.power with fw := [(5, { activeB := false, pending := true })] }, mgmt := { on.mgmt with updComponent := some 6 } }) (fun s => s.mgmt.updComponent = some 6 ∧
      1 ≤ 6 ∧ 6 ≤ 6),
      meets ({ on with power := { on.power with fw := [(5, { activeB := true, pending := true })] }, mgmt := { on.mgmt with updComponent := some 6 } }) (fun s => s.mgmt.updComponent = some 6 ∧
      1 ≤ 6 ∧ 6 ≤ 6),
      meets ({ on with mgmt := { on.mgmt with updState := 5, updImage := some { key := [9], svn := 4 }, updComponent := some 17, updTable := [17], updData := [7, 8] } }) (fun s => s.mgmt.updState = 5 ∧
      s.mgmt.updImage = some { key := [9], svn := 4 } ∧ s.mgmt.updComponent = some 17),
      meets ({ on with mgmt := { on.mgmt with updState := 5, updImage := some { key := [9], svn := 4 }, updComponent := some 6, updTable := [6], updData := [7, 8] } }) (fun s => s.mgmt.updState = 5 ∧
      s.mgmt.updImage = some { key := [9], svn := 4 } ∧ s.mgmt.updComponent = some 6),
      meets ({ on with mgmt := { on.mgmt with updState := 5, updImage := some { key := [9], svn := 4 }, updComponent := some 16, updTable := [16], updData := [7, 8] } }) (fun s => s.mgmt.updState = 5 ∧
      s.mgmt.updImage = some { key := [9], svn := 4 } ∧ s.mgmt.updComponent = some 16),
      meets ({ (on) with mgmt := { on.mgmt with updState := 4, updMax := 2, updSize := 4, updData := [7, 8], updComponent := some 6, updTable := [6] } }) (fun s => s.power.phase ≠ .off ∧
      s.mgmt.updState = 4),
      meets ({ (on) with mgmt := { on.mgmt with updState := 5, updMax := 2, updSize := 4, updData := [7, 8], updComponent := some 6, updTable := [6] } }) (fun s => s.power.phase ≠ .off ∧
      s.mgmt.updState = 5),
      meets ({ (on) with mgmt := { on.mgmt with updState := 1, updMax := 2, updSize := 4, updData := [7, 8], updComponent := some 6, updTable := [6] } }) (fun s => s.power.phase ≠ .off ∧
      s.mgmt.updState = 1),
      meets ({ (on) with mgmt := { on.mgmt with updState := 2, updTable := [3] } }) (fun s => s.power.phase ≠ .off ∧
      s.mgmt.updState = 2),
      meets ({ on with power := { on.power with fw := [(1, { pending := true })] }, host := { on.host with standby := some 5 }, mgmt := { on.mgmt with updState := 2 } }) (fun s => s.mgmt.updState = 2 ∧
      s.power.ready = true ∧ (tabGet {} s.power.fw 1).pending = true ∧ s.host.rotation = none ∧
      s.host.standby = some 5),
      meets ({ on with power := { on.power with fw := [(1, { pending := true })] }, host := { on.host with restarting := some 0, rotation := some [] } }) (fun s => s.host.restarting = some 0 ∧
      s.host.failedCores = [] ∧ s.host.held = [] ∧ s.host.rotation = some []),
      meets ({ on with power := { on.power with fw := [(1, { pending := true })] }, host := { on.host with restarting := some 5, rotation := some [1, 2] } }) (fun s => s.host.restarting = some 5 ∧
      s.host.failedCores = [] ∧ s.host.held = [] ∧ s.host.rotation = some [1, 2] ∧ 1 ≠ 5),
      meets ({ (on) with mgmt := { on.mgmt with dynAddr := some 9 } }) (fun s => s.power.phase ≠ .off),
      meets ({ on with power := { on.power with fw := [(1, { pending := true })] }, log := { on.log with recoveries := [{ cls := 8, unit := 2, since := 0 }] }, host := { on.host with restarting := some 5, rotation := some [1, 2] } }) (fun s => s.host.restarting = some 5 ∧
      s.host.failedCores = [] ∧ s.host.held = [] ∧ s.log.recoveries.any (fun r => r.cls == 8) = true),
      meets ({ on with power := { on.power with fw := [(1, { pending := true, imageB := some { svn := 3 } })] }, host := { on.host with standby := some 5 }, mgmt := { on.mgmt with updState := 2 } }) (fun s => s.mgmt.updState = 2 ∧
      s.power.ready = true ∧ (tabGet {} s.power.fw 1).pending = true ∧ s.host.rotation = none ∧
      s.host.standby = some 5 ∧ (tabGet {} s.power.fw 1).waiting = some { svn := 3 })].all id = true :=
  by decide +kernel

/-- A configuration record of population -M with address 5: header, three items, room for a signature. -/
def startRecord : List Byte :=
  area 128 [(0, 4, 0x4E524346), (4, 2, 1), (8, 4, 152), (80, 4, 3)] ++
    area 24 [(0, 2, 1), (2, 2, 4), (8, 2, 2), (10, 2, 4), (12, 2, 5), (16, 2, 3), (18, 2, 4)] ++ List.replicate sigBytes 0

/-- The module in Off with an owner and its record. -/
def stopped : State := { State.reset with power := { State.reset.power with ownerKey := [1], configRecord := startRecord } }

/-- A package of population -M whose every die passes, with an image in slot A of each component. -/
def started : StartInput := {
  images := (List.range 6).map (fun c => (c, false, {}))
  sites := halfFill 0 ++ halfFill 0
  reports := (popSources 0).map (fun x => { source := x })
  perstReleased := true }

/-- What its record gives. -/
def startConf : Conf := { Conf.default 0 with address := 5 }

theorem startRecord_items : (imageItems startRecord).1 = [(1, [0, 0, 0, 0]), (2, [5, 0, 0, 0]), (3, [0, 0, 0, 0])] ∧
    (imageItems startRecord).2 = true := by decide +kernel

theorem startRecord_header : headerOk startRecord startRecord.length sigBytes = true ∧ fieldAt startRecord 8 4 = 152 ∧
    (startRecord.drop 16).take 64 = List.replicate 64 0 ∧ fieldAt startRecord 12 4 = 0 := by decide +kernel

/-- The serving clause of StartUpServesOrStops: where the keys, signatures and digests of this module are good, which is
open (R412, R415), everything that the clause asks is met. -/
theorem witness_StartUpServesOrStops_serving (hk : Config.romKeyKnown [] = true)
    (hi : Config.mlDsaVerify [] [] [] [] = true)
    (hr : Config.mlDsaVerify [1] configContext (startRecord.take 152) ((startRecord.drop 152).take sigBytes) = true)
    (hd : Config.sha3 [1] = List.replicate 64 0) :
    stopped.power.phase = .off ∧ stopped.power.releasePending = false ∧ stopped.power.ownerKey ≠ [] ∧
      stopped.power.configRecord ≠ [] ∧ started.flashOk = true ∧ 100000 ≤ started.heldNs ∧ started.pwrEn = true ∧
      started.modReset = false ∧
      (∀ c, c < 6 → (loadImage (flashOf (tabGet {} stopped.power.fw c) started.images c)).isSome = true) ∧
      stopped.recordConf stopped.power.configRecord = some startConf ∧ derivePop started.sites = startConf.population ∧
      started.bridgesOk = true ∧
      (let present := started.reports.filter (fun r => (popSources startConf.population).contains r.source)
       stackFails startConf.population present = false ∧ (∀ r ∈ present, r.features.toNat % 2 ^ 32 = 2 ^ 32 - 1)) ∧
      (∀ k, k < 3 → seamAgreed (started.seams.getD k {}) ≠ 0) ∧
      (∀ f, f < popStacks startConf.population → (trainStack started.channelTests f).isSome = true) := by
  have hok : imageOk 0 {} = true := by simp [imageOk, hk, hi]
  refine ⟨rfl, rfl, by decide, by decide +kernel, rfl, by decide, rfl, rfl, ?_, ?_, by decide +kernel, rfl, ?_, by decide +kernel, ?_⟩
  · intro c hc
    have hf : flashOf (tabGet {} stopped.power.fw c) started.images c = { imageA := some {} } := by
      have : ∀ c : Fin 6, flashOf (tabGet {} stopped.power.fw c) started.images c = { imageA := some {} } := by decide +kernel
      exact this ⟨c, hc⟩
    rw [hf]
    simp [loadImage, hok]
  · have hs : signatureOk stopped.power.ownerKey startRecord = true := by
      simp only [signatureOk, startRecord_header.2.1]; exact hr
    have hg : digestOk stopped.power.ownerKey startRecord = true := by
      simp only [digestOk, startRecord_header.2.2.1]; rw [show stopped.power.ownerKey = [1] from rfl, hd]; rfl
    show stopped.recordConf startRecord = _
    unfold State.recordConf
    simp only [startRecord_items.1, startRecord_items.2, startRecord_header.1, startRecord_header.2.2.2, hs, hg]
    decide +kernel
  · decide +kernel
  · intro f _; rfl

end Sys2Proof.Tests
end

section
/-! PROOF. Accesses of BAR0 (chapter 00): an access through the host port on a link that is up, and what R12 says of one
that is not naturally aligned or of another size. -/

namespace Sys2Proof.Machine

variable (s : State)

/-! ### The dispatch of the two commands -/

theorem exec_barAccess (dt : Nat) (write : Bool) (off size : Nat) (v : W64) :
    exec (.barAccess dt write off size v) s = (s.advance dt).host0 write off size v := rfl

theorem exec_registerWrite (dt off size : Nat) (v : W64) :
    exec (.registerWrite dt off size v) s = (s.advance dt).host0 true off size v := rfl

/-! ### A close that is due -/

variable {s}

/-- A due close is a matter of ring 0's commands, the Tidemark and the open step's number alone (R52). -/
theorem closeDue_congr {t : State} (hcmds : (t.ring 0).cmds = (s.ring 0).cmds) (htide : t.tide = s.tide)
    (hstep : t.commit.stepNumber = s.commit.stepNumber) : t.closeDue = s.closeDue := by
  simp only [State.closeDue, hcmds, htide, hstep]

/-- Where no due close has gone away, no access that was held takes place. -/
theorem afterClose_of_closeDue_eq {t : State} (h : t.closeDue = s.closeDue) : t.afterClose s = t := by
  simp [State.afterClose, h]

variable (s)

theorem logRec_closeDue (src code sev a0 a1 a2 : Nat) : (s.logRec src code sev a0 a1 a2).closeDue = s.closeDue := by
  rw [logRec_eq]
  exact closeDue_congr rfl rfl rfl

theorem setReadData_closeDue (d : W64) :
    State.closeDue { s with host := { s.host with readData := d } } = s.closeDue := closeDue_congr rfl rfl rfl

variable {s}

/-! ### An access through the host port -/

theorem host0_of_linkUp (hlink : s.power.linkUp = true) (write : Bool) (off size : Nat) (v : W64) :
    s.host0 write off size v = .next ((s.access write off size v).afterClose s) := by
  simp [State.host0, hlink]

/-- The record of a BAR_ACCESS: the offset, and the size with bit 31 set for a write. -/
def State.recordBarAccess (s : State) (write : Bool) (off size : Nat) : State :=
  s.logRec srcHost 0x0001 sevWarning off (size % 2 ^ 31 + b2n write * 2 ^ 31) 0

section WrongShape

variable {off size : Nat} (hshape : ¬((size = 4 ∨ size = 8) ∧ off % size = 0))

include hshape

/-- A wrong access is recorded, held by no pause, and reaches no register. -/
theorem access_of_wrong_shape (write : Bool) (v : W64) : s.access write off size v =
    if write then s.recordBarAccess write off size
    else { s.recordBarAccess write off size with
      host := { (s.recordBarAccess write off size).host with readData := 0 } } := by
  have hguard : (!((size == 4 || size == 8) && off % size == 0)) = true := by
    rw [Bool.not_eq_true', ← Bool.not_eq_true]
    simpa using hshape
  rw [State.access, if_pos hguard]
  rfl

theorem access_of_wrong_shape_closeDue (write : Bool) (v : W64) :
    (s.access write off size v).closeDue = s.closeDue := by
  rw [access_of_wrong_shape hshape]
  cases write with
  | false => exact (setReadData_closeDue _ 0).trans (logRec_closeDue ..)
  | true => exact logRec_closeDue ..

/-- On a link that is up, a wrong access does what its record does and no more, but that a read answers zero. -/
theorem host0_of_wrong_shape (hlink : s.power.linkUp = true) (write : Bool) (v : W64) :
    s.host0 write off size v = .next (s.access write off size v) := by
  rw [host0_of_linkUp hlink, afterClose_of_closeDue_eq (access_of_wrong_shape_closeDue hshape write v)]

end WrongShape

/-- Settles O19: a wrong access is only recorded, which takes no due close away, so that nothing held goes on (R12). -/
theorem wrongAccessesDoNothing : Obligations.WrongAccessesDoNothing := by
  intro dt off size v s hlink hshape
  have hport (write : Bool) : (s.advance dt).host0 write off size v = .next ((s.advance dt).access write off size v) :=
    host0_of_wrong_shape hshape (s := s.advance dt) hlink write v
  have hread : (s.advance dt).recordBarAccess false off size =
      (s.advance dt).logRec srcHost 0x0001 sevWarning off (size % 2 ^ 31) 0 := by
    simp [State.recordBarAccess, b2n]
  have hwrite : (s.advance dt).host0 true off size v =
      .next ((s.advance dt).logRec srcHost 0x0001 sevWarning off (size % 2 ^ 31 + 2 ^ 31) 0) := by
    rw [hport, access_of_wrong_shape hshape]
    rfl
  refine ⟨?_, hwrite, hwrite⟩
  rintro t rfl
  rw [exec_barAccess, hport, access_of_wrong_shape hshape, hread]
  rfl

end Sys2Proof.Machine
end

section
/-! PROOF. Time, the front command and its start (chapter 02). -/

namespace Sys2Proof.Machine

/-! ### The queue of commands -/

theorem step_of_pending_cons {s : State} {c : Instr} {rest : List Instr} (h : s.pending = c :: rest) :
    step s = exec c { s with pending := rest } := by
  rw [step, h]

theorem step_of_pending_nil {s : State} (h : s.pending = []) : step s = .next s := by
  rw [step, h]

/-- Settles O1: by the two cases of the queue. -/
theorem stepRunsTheFrontCommand : Obligations.StepRunsTheFrontCommand :=
  ⟨fun _ _ _ h => step_of_pending_cons h, fun _ h => step_of_pending_nil h⟩

/-! ### The slew -/

theorem slewTicks_le_slew (t : Time) (dt : Nat) : slewTicks t dt ≤ t.slew.natAbs := Nat.min_le_left ..

/-- At most one tick in every 10,000, the phase held over included (R37). -/
theorem slewTicks_le_rate (t : Time) (dt : Nat) : slewTicks t dt ≤ (t.slewPhase + dt) / 10000 := Nat.min_le_right ..

theorem slewTicks_of_slew_zero {t : Time} (dt : Nat) (h : t.slew = 0) : slewTicks t dt = 0 := by
  simp [slewTicks, h]

/-- What is left to slew only shrinks. -/
theorem timeAfter_slew_natAbs_le (t : Time) (dt : Nat) : (timeAfter t dt).slew.natAbs ≤ t.slew.natAbs := by
  have hk := slewTicks_le_slew t dt
  simp only [timeAfter]
  split <;> omega

theorem advance_tide (s : State) (dt : Nat) : (s.advance dt).tide =
    if s.time.slew < 0 then s.tide + (dt - slewTicks s.time dt) else s.tide + dt + slewTicks s.time dt := rfl

theorem tide_le_advance (s : State) (dt : Nat) : s.tide ≤ (s.advance dt).tide := by
  rw [advance_tide]
  split <;> omega

/-- Settles O5: a slew adds or withholds `slewTicks`, which is bounded by the rate and by what is left to slew. -/
theorem timeOnlyAdvances : Obligations.TimeOnlyAdvances := by
  intro s dt
  have hrate := slewTicks_le_rate s.time dt
  refine ⟨tide_le_advance s dt, ?_, ?_, ?_, timeAfter_slew_natAbs_le s.time dt, rfl⟩
  · rw [advance_tide]
    split <;> omega
  · rw [advance_tide]
    split <;> omega
  · intro hslew
    simp [advance_tide, hslew, slewTicks_of_slew_zero dt hslew]

/-! ### Readiness and the start -/

variable {s : State} {c : Cmd}

theorem mem_bitsSet {x n j : Nat} : j ∈ bitsSet x n ↔ j < n ∧ x.testBit j = true := by
  simp [bitsSet]

/-- A command that is ready has its resources, and every signal that it waits for is set (R43, R69). -/
theorem readySince_isSome (h : (s.readySince c).isSome = true) :
    (s.resourcesOf c).isSome = true ∧ ∀ j ∈ bitsSet c.waitMask.toNat 64, s.signal j = true := by
  unfold State.readySince at h
  dsimp only at h
  split at h
  · rename_i hres
    split at h
    · rename_i hcond
      simp only [Bool.and_eq_true, List.all_eq_true] at hcond
      exact ⟨by simp [hres], hcond.1.1⟩
    · cases h
  · cases h

theorem inTime_readySince (h : s.inTime c = true) : (s.readySince c).isSome = true := by
  unfold State.inTime at h
  split at h
  · cases h
  · rename_i hr _; simp [hr]
  · rename_i hr _; simp [hr]

/-- What lets the front command start (R43, R44, R69, R70). -/
theorem mayStart_iff : s.mayStart c = true ↔ s.power.ready = true ∧ s.ringPaused c.ring = false ∧ c.launch ≤ s.tide ∧
    s.inTime c = true ∧ s.causesPast c = true := by
  simp [State.mayStart, and_assoc]

/-- The command as it starts: its start Tidemark is the present one. -/
theorem begin_cmd (s : State) (c : Cmd) (t : Nat) : (s.begin c t).1 =
    { c with start := some s.tide, startOrder := s.host.nextStart, late := (s.begin c t).1.late } := rfl

theorem begin_frame (s : State) (c : Cmd) (t : Nat) : (s.begin c t).2 = { s with
    host := (s.begin c t).2.host
    time := { s.time with lateLaunches := (s.begin c t).2.time.lateLaunches } } := by
  rw [begin_eq]

/-- Settles O7: what `take` answers is the start of the ring's front command, and that command may start. -/
theorem startingTakesTheFront : Obligations.StartingTakesTheFront := by
  intro s t dt r op c h
  obtain ⟨d, hfront, hop, hmay, hyields, hbegin⟩ := take_some _ h
  obtain ⟨hready, -, hlaunch, hinTime, -⟩ := mayStart_iff.mp hmay
  obtain ⟨hres, hsignals⟩ := readySince_isSome (inTime_readySince hinTime)
  obtain ⟨rfl, rfl⟩ := Prod.mk.inj hbegin
  exact ⟨d, hfront, hop, hmay, hyields, hready, hlaunch, hres, fun j hj hbit => hsignals j (mem_bitsSet.mpr ⟨hj, hbit⟩),
    begin_cmd .., begin_frame ..⟩

end Sys2Proof.Machine
end

section
/-! PROOF. REFCLK, the Tidemark pins and the glitch filter (chapters 02 and 19). -/

namespace Sys2Proof.Machine

/-! ### The dispatch of the pins' commands -/

theorem exec_modResetAssert (level : PinLevel) (s : State) :
    exec (.modResetAssert level) s = execModResetAssert level s := rfl

theorem exec_pwrEnFall (level : PinLevel) (s : State) : exec (.pwrEnFall level) s = execPwrEnFall level s := rfl

theorem exec_refclkLoss (dt : Nat) (s : State) : exec (.refclkLoss dt) s = execRefclkLoss dt s := rfl

theorem exec_refclkReturn (dt : Nat) (s : State) : exec (.refclkReturn dt) s = execRefclkReturn dt s := rfl

theorem exec_syncOutPulse (dt : Nat) (s : State) : exec (.syncOutPulse dt) s = execSyncOutPulse dt s := rfl

theorem exec_tideSyncInEdge (dt tenths : Nat) (s : State) :
    exec (.tideSyncInEdge dt tenths) s = execTideSyncInEdge dt tenths s := rfl

/-! ### The glitch filter -/

variable {s : State}

/-- A level held for less than 1 µs does not act, and no value is drawn for it (R441). -/
theorem pinActs_of_short {heldNs : Nat} (h : heldNs < 1000) : s.pinActs heldNs = (false, s) := by
  rw [State.pinActs, if_pos h]

theorem modResetAssert_of_short {level : PinLevel} (h : level.heldNs < 1000) :
    exec (.modResetAssert level) s = .next (s.advance level.dt) := by
  simp [exec_modResetAssert, execModResetAssert, pinActs_of_short h, State.idle]

theorem pwrEnFall_of_short {level : PinLevel} (h : level.heldNs < 1000) :
    exec (.pwrEnFall level) s = .next (s.advance level.dt) := by
  simp [exec_pwrEnFall, execPwrEnFall, pinActs_of_short h, State.idle]

/-! ### A new estimate of the error -/

/-- An estimate of the error changes the estimate, its source and what ALIGNED says; a loss of alignment is recorded
(R41, R42). -/
theorem setError_frame (s : State) (est source : Nat) : s.setError est source = { s with
    time := { s.time with
      errorEst := min 255 est, source := source, aligned := decide (est ≤ 5)
      alignLosses := (s.setError est source).time.alignLosses
      lastAlignChange := (s.setError est source).time.lastAlignChange }
    log := (s.setError est source).log
    power := { s.power with faultLow := (s.setError est source).power.faultLow }
    mgmt := { s.mgmt with events := (s.setError est source).mgmt.events }
    host := (s.setError est source).host } := by
  unfold State.setError
  dsimp only
  split
  · rw [logRec_eq]
  · rfl

/-! ### The rows whose trigger holds -/

section Serving

variable (hphase : s.power.phase = .serving)

include hphase

/-- The loss of REFCLK in service (R445). -/
theorem refclkLoss_of_serving (dt : Nat) (hok : s.power.refclkOk = true) : exec (.refclkLoss dt) s = .next
    (let u : State := { s.advance dt with power := { s.power with
      refclkOk := false, refclkLosses := satAdd 16 s.power.refclkLosses 1, linkUp := false } }
    if s.conf.isReference || !(s.advance dt).time.aligned then u
    else u.setError (Config.oscillatorError u.power.refclkLosses (s.advance dt).time.errorEst)
      (s.advance dt).time.source) :=
  if_neg (by simp [hok, hphase])

/-- The return of REFCLK in service (R445); in step 9 it is followed by the link that PERST_N has released (R443). -/
theorem refclkReturn_of_serving (dt : Nat) (hok : s.power.refclkOk = false) : exec (.refclkReturn dt) s = .next
    (let u : State := { s.advance dt with power := { s.power with
      refclkOk := true, linkUp := s.power.perstReleased && decide (10 ≤ s.power.step) } }
    if s.power.perstReleased && s.power.step == 9 then u.linkReady else u) :=
  if_neg (by simp [hok, hphase])

theorem syncOutPulse_of_due (dt : Nat) (hen : s.conf.syncOutEn = true) (htide : (s.advance dt).tide % 1000000 = 0)
    (hfirst : s.power.syncOutUntil ≠ (s.advance dt).tide + 1000) : exec (.syncOutPulse dt) s =
      .next { s.advance dt with power := { s.power with
        syncOutPulses := s.power.syncOutPulses + 1, syncOutUntil := (s.advance dt).tide + 1000 } } :=
  if_neg (by simp [hen, hphase, htide, hfirst])

/-- An edge near where it is expected, at a module that follows TIDE_SYNC_IN (R39, R447). -/
theorem tideSyncInEdge_of_near {dt tenths : Nat} {off : Int}
    (hoff : off = syncOffset ((10 * (s.advance dt).tide + tenths : Nat) - (s.conf.syncInDelay : Int)))
    (hnear : off.natAbs ≤ 10000) (hselect : s.conf.sourceSelect ≠ 2) (href : s.conf.isReference = false)
    (hready : s.power.ready = true) : exec (.tideSyncInEdge dt tenths) s = .next
      (State.setError { s.advance dt with
        power := { s.power with syncInEdges := s.power.syncInEdges + 1 }
        time := { (s.advance dt).time with slew := atPhase (off / 10) (s.advance dt).time.slew, hops := 0 } }
        (Config.alignError (off / 10) 0) 1) := by
  subst hoff
  refine (if_neg (by simp [hphase])).trans ((if_neg ?_).trans (if_neg (by simp [hselect, href, hready])))
  rw [Bool.and_eq_true, decide_eq_true_eq]
  exact fun h => absurd h.2 (Nat.not_lt.mpr hnear)

end Serving

/-- Settles O17: each row's guard holds or fails as the premise says, and what it then does is its row of chapter 19;
neither REFCLK nor an edge writes Tidemark. -/
theorem tidePins : Obligations.TidePins := by
  intro dt s hphase
  refine ⟨fun level hheld => ⟨modResetAssert_of_short hheld, pwrEnFall_of_short hheld⟩, ?_, ?_, ?_,
    syncOutPulse_of_due hphase dt, ?_⟩
  · rintro u hok rfl
    exact refclkLoss_of_serving hphase dt hok
  · intro hok hstep
    exact (refclkReturn_of_serving hphase dt hok).trans (congrArg _ (if_neg (by simp [hstep])))
  · intro hok hstep hperst
    exact ⟨_, (refclkReturn_of_serving hphase dt hok).trans (congrArg _ (if_pos (by simp [hstep, hperst]))), rfl, rfl, rfl⟩
  · intro tenths off hoff hnear hselect href hready
    refine ⟨_, tideSyncInEdge_of_near hphase hoff hnear hselect href hready, ?_⟩
    rw [setError_frame]
    exact ⟨rfl, rfl, rfl, rfl, rfl, rfl⟩

end Sys2Proof.Machine
end

section
/-! PROOF. The events of a ring: completions, the wait's timeout, and coalesced interrupts (chapter 03). -/

namespace Sys2Proof.Machine

theorem exec_commandCompletion (dt : Nat) (r : Fin 17) (seq : W16) (s : State) :
    exec (.commandCompletion dt r seq) s = execCommandCompletion dt r seq s := rfl

theorem exec_waitTimeoutExpiry (dt : Nat) (r : Fin 17) (s : State) :
    exec (.waitTimeoutExpiry dt r) s = execWaitTimeoutExpiry dt r s := rfl

theorem exec_coalesceTimeout (dt : Nat) (r : Fin 17) (s : State) :
    exec (.coalesceTimeout dt r) s = execCoalesceTimeout dt r s := rfl

variable {s : State}

/-! ### Completions -/

/-- While the ring's core is out, the report waits (R385). -/
theorem commandCompletion_of_paused {dt : Nat} {r : Fin 17} (h : (s.advance dt).ringPaused r = true) (seq : W16) :
    exec (.commandCompletion dt r seq) s = .next (s.advance dt) := by
  rw [exec_commandCompletion, execCommandCompletion]
  exact if_pos h

/-- The oldest started command with the SEQ completes where its engines are done (R73). -/
theorem commandCompletion_of_done {dt : Nat} {r : Fin 17} {seq : W16} {c : Cmd} {rest : List Cmd} {t : State}
    (hserved : (s.advance dt).ringPaused r = false)
    (holdest : (s.ring r).cmds.filter (fun c => c.seq == seq && c.start.isSome) = c :: rest)
    (hdone : (s.advance dt).completion c = some t) : exec (.commandCompletion dt r seq) s = .next t := by
  have hfind : (((s.advance dt).ring r).cmds.filter (fun c => c.seq == seq && c.start.isSome)).findSome?
      (s.advance dt).completion = some t := by
    rw [show (s.advance dt).ring r = s.ring r from rfl, holdest, List.findSome?_cons, hdone]
  rw [exec_commandCompletion, execCommandCompletion]
  exact (if_neg (Bool.eq_false_iff.mp hserved)).trans (by rw [hfind])

theorem leaveChannel_of_ne {c : Cmd} (h : c.opcode ≠ 0x60) : s.leaveChannel c = s := if_neg h

/-- A command that finished before the present Tidemark, and is no DMA command (R46, R78). -/
theorem completion_of_finished {c : Cmd} {st : Status} {detail : Nat} {body : List Byte}
    (hwork : c.work = .finished st detail body) (hpast : c.finishedAt < s.tide) (hop : c.opcode ≠ 0x60) :
    s.completion c = some ((s.complete c st detail body).endArrayPin c) := by
  simp only [State.completion, hwork, leaveChannel_of_ne hop, if_neg (Nat.not_le.mpr hpast)]

theorem completion_of_fence {c : Cmd} (hwork : c.work = .waiting .fence) (hdone : s.fenceDone c = true)
    (hpast : s.fencePast c = true) : s.completion c = some (s.complete c .ok 0 []) := by
  simp only [State.completion, hwork, hdone, hpast, Bool.and_self, if_true]

theorem completion_of_signals {c : Cmd} (hwork : c.work = .waiting .signals) (hhold : s.signalsHold c = true)
    (hpast : s.signalsPast c = true) : s.completion c = some (s.endWaitSignal c) := by
  simp only [State.completion, hwork, hhold, hpast, Bool.and_self, if_true]

/-! ### The wait's timeout -/

theorem waitTimeoutExpiry_of_late {dt : Nat} {r : Fin 17} {c : Cmd} {l : Nat} (hfront : (s.ring r).front = some c)
    (hlimit : c.limit = some l) (hpast : l ≤ (s.advance dt).tide) (hlate : (s.advance dt).inTime c = false) :
    exec (.waitTimeoutExpiry dt r) s =
      .next ((((s.advance dt).complete c .timeout 0 []).refreshOldest r).afterClose (s.advance dt)) := by
  have hfront' : ((s.advance dt).ring r).front = some c := hfront
  rw [exec_waitTimeoutExpiry, execWaitTimeoutExpiry]
  simp only [hfront', hlimit, hlate]
  exact if_neg (by simpa using hpast)

/-! ### Coalesced interrupts -/

/-- An interrupt touches no ring. -/
theorem raise_ring (v q : Nat) : (s.raise v).ring q = s.ring q := by
  rw [raise_eq]; rfl

/-- A vector that is enabled and not masked is sent (R462). -/
theorem raise_msixSent {v : Nat} (hen : s.vectorEnabled v = true) (hfm : s.host.functionMask = false)
    (hvm : s.host.vectorMask.toNat.testBit v = false) : (s.raise v).host.msixSent = s.host.msixSent ++ [v] := by
  simp [State.raise, hen, hfm, hvm]

theorem sendRingInt_ring_self (r : Nat) : (s.sendRingInt r).ring r = { s.ring r with pendingInts := 0 } := by
  rw [State.sendRingInt, raise_ring, modRing_ring]

theorem sendRingInt_ring_ne {r q : Nat} (h : q ≠ r) : (s.sendRingInt r).ring q = s.ring q := by
  rw [State.sendRingInt, raise_ring, modRing_ring_ne _ _ _ _ h]

theorem coalesceTimeout_of_due {dt : Nat} {r : Fin 17} (hpending : (s.ring r).pendingInts ≠ 0)
    (htime : (s.ring r).coalesceTime ≠ 0)
    (hdue : (s.ring r).oldestInt + 1000 * (s.ring r).coalesceTime ≤ (s.advance dt).tide) :
    exec (.coalesceTimeout dt r) s = .next ((s.advance dt).sendRingInt r) := by
  have hring : (s.advance dt).ring r = s.ring r := rfl
  rw [exec_coalesceTimeout, execCoalesceTimeout]
  exact if_neg (by simp [hring, hpending, htime, hdue])

/-- Settles O29: by what each kind of wait completes with, and by what an interrupt of a ring changes. -/
theorem ringEvents : Obligations.RingEvents := by
  intro dt r s
  refine ⟨fun seq hpaused => commandCompletion_of_paused hpaused seq, ?_, ?_, ?_⟩
  · intro seq c rest hserved holdest
    have done {t : State} := commandCompletion_of_done (t := t) hserved holdest
    exact ⟨fun st detail body hwork hpast hop => done (completion_of_finished hwork hpast hop),
      fun hwork hdone hpast => done (completion_of_fence hwork hdone hpast),
      fun hwork hhold hpast => done (completion_of_signals hwork hhold hpast)⟩
  · intro c l hfront hlimit hpast hlate
    exact waitTimeoutExpiry_of_late hfront hlimit hpast hlate
  · intro hpending htime hdue
    refine ⟨_, coalesceTimeout_of_due hpending htime hdue, sendRingInt_ring_self _, ?_,
      fun q hq => sendRingInt_ring_ne hq, ?_⟩
    · intro hen hfm hvm
      exact raise_msixSent (s := (s.advance dt).modRing r _) hen hfm hvm
    · rw [sendRingInt_eq]

end Sys2Proof.Machine
end

section
/-! PROOF. What a frame changes as it leaves or is taken (chapter 14), whatever it says: the check units that watch the
streams, the ports, and what these report to. -/

namespace Sys2Proof.Machine

/-! ### Two states that differ in reports alone -/

/-- Two states that differ at most in the DMA side and in what it reports to: the host port, the log and what follows
the log. -/
def SameButReports (s t : State) : Prop := t = { s with
  dma := t.dma, host := t.host, log := t.log
  power := { s.power with faultLow := t.power.faultLow }, mgmt := { s.mgmt with events := t.mgmt.events } }

/-- Two states that differ at most in reports and in the ports. -/
def SameButTraffic (s t : State) : Prop := t = { s with
  ports := t.ports, dma := t.dma, host := t.host, log := t.log
  power := { s.power with faultLow := t.power.faultLow }, mgmt := { s.mgmt with events := t.mgmt.events } }

variable {s t u : State}

theorem SameButReports.rfl : SameButReports s s := Eq.refl s

theorem SameButReports.trans (hst : SameButReports s t) (htu : SameButReports t u) : SameButReports s u :=
  Eq.trans htu (congrArg (fun x : State => { x with
    dma := u.dma, host := u.host, log := u.log
    power := { x.power with faultLow := u.power.faultLow }, mgmt := { x.mgmt with events := u.mgmt.events } }) hst)

theorem SameButTraffic.rfl : SameButTraffic s s := Eq.refl s

theorem SameButTraffic.trans (hst : SameButTraffic s t) (htu : SameButTraffic t u) : SameButTraffic s u :=
  Eq.trans htu (congrArg (fun x : State => { x with
    ports := u.ports, dma := u.dma, host := u.host, log := u.log
    power := { x.power with faultLow := u.power.faultLow }, mgmt := { x.mgmt with events := u.mgmt.events } }) hst)

theorem SameButReports.eq (h : SameButReports s t) : t = { s with
    dma := t.dma, host := t.host, log := t.log
    power := { s.power with faultLow := t.power.faultLow }, mgmt := { s.mgmt with events := t.mgmt.events } } := h

theorem SameButReports.keeps (h : SameButReports s t) :
    t.power = { s.power with faultLow := t.power.faultLow } ∧ t.tide = s.tide ∧ t.time = s.time ∧ t.conf = s.conf ∧
      t.mem = s.mem ∧ t.layers = s.layers :=
  ⟨(congrArg State.power h.eq :), (congrArg State.tide h.eq :), (congrArg State.time h.eq :),
    (congrArg State.conf h.eq :), (congrArg State.mem h.eq :), (congrArg State.layers h.eq :)⟩

theorem SameButReports.port (h : SameButReports s t) (p : Nat) : t.port p = s.port p :=
  (congrArg (State.port · p) h.eq :)

theorem SameButReports.traffic (h : SameButReports s t) : SameButTraffic s t := by
  rw [SameButReports] at h; rw [h]; exact Eq.refl _

theorem SameButTraffic.eq (h : SameButTraffic s t) : t = { s with
    ports := t.ports, dma := t.dma, host := t.host, log := t.log
    power := { s.power with faultLow := t.power.faultLow }, mgmt := { s.mgmt with events := t.mgmt.events } } := h

theorem sameButTraffic_modPort (s : State) (p : Nat) (f : Port → Port) : SameButTraffic s (s.modPort p f) := Eq.refl _

/-- A fold keeps what each of its steps keeps. -/
theorem foldl_keeps {α : Type} {R : State → State → Prop} (hrfl : ∀ s, R s s)
    (htrans : ∀ s t u, R s t → R t u → R s u) {f : State → α → State} (hf : ∀ s a, R s (f s a)) (as : List α) (s : State) :
    R s (as.foldl f s) := by
  induction as generalizing s with
  | nil => exact hrfl s
  | cons a as ih => exact htrans s (f s a) _ (hf s a) (ih (f s a))

/-! ### Check units -/

theorem sameButReports_modUnit (s : State) (n : Nat) (f : CheckUnit → CheckUnit) : SameButReports s (s.modUnit n f) :=
  Eq.refl _

theorem sameButReports_raise (s : State) (v : Nat) : SameButReports s (s.raise v) := by
  rw [SameButReports, raise_eq]

theorem sameButReports_finish (s : State) (c : CmdRef) (st : Status) (detail : Nat) (body : List Byte) :
    SameButReports s (s.finish c st detail body) := Eq.refl _

theorem sameButReports_logRec (s : State) (src code sev a0 a1 a2 : Nat) :
    SameButReports s (s.logRec src code sev a0 a1 a2) := by
  rw [SameButReports, logRec_eq]

theorem sameButReports_compareUnit (s : State) (n : Nat) (expect : W64) :
    SameButReports s (s.compareUnit n expect).1 := by
  unfold State.compareUnit
  dsimp only
  split
  · exact (sameButReports_modUnit ..).trans (sameButReports_raise ..)
  · exact sameButReports_modUnit ..

theorem sameButReports_limitUnit (s : State) (n : Nat) : SameButReports s (s.limitUnit n) := by
  unfold State.limitUnit
  dsimp only
  split
  · have hdone := (sameButReports_compareUnit s n (s.unit n).armExpect).trans (sameButReports_modUnit _ n
      (fun u => { u with armed := false, limit := 0, cmd := none, deadline := none }))
    split
    · exact hdone
    · exact hdone.trans (sameButReports_finish ..)
  · exact .rfl

theorem sameButReports_unitConsumed (s : State) (x : CheckUnit) (addr : Nat) :
    SameButReports s (s.unitConsumed x addr) := by
  unfold State.unitConsumed
  split <;> exact sameButReports_logRec ..

theorem sameButReports_absorbUnit (s : State) (n : Nat) (bs : List Byte) (poison : Option (Nat × Nat)) :
    SameButReports s (s.absorbUnit n bs poison) := by
  unfold State.absorbUnit
  dsimp only
  refine .trans ?_ ((sameButReports_modUnit ..).trans (sameButReports_limitUnit ..))
  split
  · split
    · exact .rfl
    · exact sameButReports_unitConsumed ..
  · exact .rfl

theorem sameButReports_absorb (s : State) (source num : Nat) (bs : List Byte) (poison : Option (Nat × Nat)) :
    SameButReports s (s.absorb source num bs poison) := by
  refine foldl_keeps (fun _ => .rfl) (fun _ _ _ => .trans) (fun s n => ?_) _ s
  dsimp only
  split
  · exact sameButReports_absorbUnit ..
  · exact .rfl

/-- No unit is armed: nothing absorbs. -/
theorem absorb_of_unarmed (h : ∀ n, (s.unit n).armed = false) (source num : Nat) (bs : List Byte)
    (poison : Option (Nat × Nat)) : s.absorb source num bs poison = s :=
  List.foldl_fixed' (fun n => by simp [h n]) _

/-! ### Frames that leave -/

/-- A frame that leaves takes the present Tidemark, unless it is passed on with its own. -/
def stampFrame (f : Frame) (tide : Nat) : Frame :=
  if f.hdr.sendTide = 0 then { f with hdr := { f.hdr with sendTide := tide } } else f

/-- A port once the first frame of its queue has left. -/
def Port.leave (x : Port) (f : Frame) (rest : List Frame) : Port := { x with
  queue := rest
  sent := x.sent ++ [f]
  framesTx := x.framesTx + 1
  poisoned := if f.hdr.poison then satAdd 32 x.poisoned 1 else x.poisoned
  txSeq := (x.txSeq + frameCodewords f) % 512
  unacked := x.unacked + frameCodewords f }

theorem pumpN_succ_of_room {p fuel : Nat} {f : Frame} {rest : List Frame} (hqueue : (s.port p).queue = f :: rest)
    (hactive : (s.port p).train.state = .active) (hroom : (s.port p).unacked + frameCodewords f ≤ 256) :
    s.pumpN p (fuel + 1) = ((s.modPort p (fun x => x.leave (stampFrame f s.tide) rest)).absorb 2 p
      (framePayload (stampFrame f s.tide).body) (poisonAt (stampFrame f s.tide).hdr)).pumpN p fuel := by
  have hcond : (decide ((s.port p).train.state = .active) && decide ((s.port p).unacked + frameCodewords f ≤ 256)) = true := by
    simp [hactive, hroom]
  rw [State.pumpN]
  dsimp only
  rw [hqueue]
  exact if_pos hcond

theorem sameButTraffic_pumpN (s : State) (p fuel : Nat) : SameButTraffic s (s.pumpN p fuel) := by
  induction fuel generalizing s with
  | zero => exact .rfl
  | succ fuel ih =>
    rw [State.pumpN]
    dsimp only
    split
    · exact .rfl
    · split
      · exact ((sameButTraffic_modPort ..).trans (sameButReports_absorb ..).traffic).trans (ih _)
      · exact .rfl

theorem sameButTraffic_send (s : State) (p : Nat) (hdr : FrameHdr) (body : FrameBody) :
    SameButTraffic s (s.send p hdr body) :=
  (sameButTraffic_modPort ..).trans (sameButTraffic_pumpN ..)

/-- A frame of one codeword on a port that is ACTIVE, with nothing queued and room for it, leaves at once. -/
theorem send_of_free {p : Nat} {hdr : FrameHdr} {body : FrameBody} {f : Frame}
    (hf : f = ⟨{ hdr with srcModule := s.conf.address, sendTide := 0 }, body⟩)
    (hactive : (s.port p).train.state = .active) (hqueue : (s.port p).queue = [])
    (hroom : (s.port p).unacked + frameCodewords f ≤ 256) (hunits : ∀ n, (s.unit n).armed = false) :
    s.send p hdr body = (s.modPort p (fun x => { x with queue := [f] })).modPort p
      (fun x => x.leave (stampFrame f s.tide) []) := by
  have hsend : s.send p hdr body = (s.modPort p (fun x => { x with queue := enqueue x.queue f })).pump p := by rw [hf]; rfl
  have henqueue : s.modPort p (fun x => { x with queue := enqueue x.queue f }) = s.modPort p (fun x => { x with queue := [f] }) := by
    have hone : enqueue [] f = [f] := by simp [enqueue]
    simp only [State.modPort, tabMod, show tabGet {} s.ports p = s.port p from rfl, hqueue, hone]
  have hlength : ((s.modPort p (fun x => { x with queue := [f] })).port p).queue.length = 1 := by rw [modPort_port]; rfl
  have hpump := pumpN_succ_of_room (s := s.modPort p (fun x => { x with queue := [f] })) (p := p) (fuel := 0) (f := f)
    (rest := []) (by rw [modPort_port]) (by rw [modPort_port]; exact hactive) (by rw [modPort_port]; exact hroom)
  rw [hsend, henqueue, State.pump, hlength, hpump]
  exact absorb_of_unarmed (s := (s.modPort p _).modPort p _) hunits ..

/-! ### Frames that are taken -/

/-- A port that has accepted a frame. -/
def Port.taken (x : Port) (hdr : FrameHdr) : Port := { x with
  framesRx := (x.framesRx + 1) % 2 ^ 64
  poisoned := if hdr.poison then satAdd 32 x.poisoned 1 else x.poisoned }

theorem sameButReports_acceptFrame (s : State) (p : Nat) (hdr : FrameHdr) (body : FrameBody) :
    SameButReports (s.modPort p (·.taken hdr)) (s.acceptFrame p hdr body) := sameButReports_absorb ..

/-- What accepting a frame leaves: all but the port's counts, the check units and what they report to. -/
theorem acceptFrame_keeps (s : State) (p : Nat) (hdr : FrameHdr) (body : FrameBody) :
    (s.acceptFrame p hdr body).power = { s.power with faultLow := (s.acceptFrame p hdr body).power.faultLow } ∧
    (s.acceptFrame p hdr body).tide = s.tide ∧ (s.acceptFrame p hdr body).time = s.time ∧
    (s.acceptFrame p hdr body).conf = s.conf ∧ (s.acceptFrame p hdr body).mem = s.mem ∧
    (s.acceptFrame p hdr body).layers = s.layers :=
  (sameButReports_acceptFrame s p hdr body).keeps

theorem acceptFrame_delay (s : State) (p : Nat) (hdr : FrameHdr) (body : FrameBody) :
    ((s.acceptFrame p hdr body).port p).delay = (s.port p).delay :=
  (congrArg Port.delay ((sameButReports_acceptFrame s p hdr body).port p)).trans
    (congrArg Port.delay (modPort_port s p (·.taken hdr)) :)

theorem acceptFrame_port_ne (s : State) {p q : Nat} (hdr : FrameHdr) (body : FrameBody) (h : q ≠ p) :
    (s.acceptFrame p hdr body).port q = s.port q :=
  ((sameButReports_acceptFrame s p hdr body).port q).trans (modPort_port_ne s p q (·.taken hdr) h)

theorem acceptFrame_of_unarmed (h : ∀ n, (s.unit n).armed = false) (p : Nat) (hdr : FrameHdr) (body : FrameBody) :
    s.acceptFrame p hdr body = s.modPort p (·.taken hdr) :=
  absorb_of_unarmed (s := s.modPort p (·.taken hdr)) h ..

/-- A frame of a type that the port's role carries, on an ACTIVE port, past its SEND_TIDE (R46, R312). -/
theorem receive_of_carried {p : Nat} {hdr : FrameHdr} {body : FrameBody} (hactive : s.portActive p = true)
    (hpast : s.pastSend hdr body = true) (hrole : s.roleOf p ∈ frameRoles body) (f : State → State) :
    s.receive p hdr body true f = .next (f (s.acceptFrame p hdr body)) := by
  simp [State.receive, hactive, hpast, hrole]

end Sys2Proof.Machine
end

section
/-! PROOF. TIME frames (chapter 02): what leaves, what is measured, and how the module's time follows. -/

namespace Sys2Proof.Machine

variable {s t : State}

/-! ### A TIME frame is sent -/

theorem exec_timeFrameSend (dt : Nat) (p : Fin 24) (s : State) :
    exec (.timeFrameSend dt p) s = execTimeFrameSend dt p s := rfl

/-- The TIME frame that a port would send now (R40, R317). -/
def State.ownTimeFrame (s : State) (p : Nat) : TimeF :=
  { echoSend := ((s.port p).lastTime.getD (0, 0)).1, echoRx := ((s.port p).lastTime.getD (0, 0)).2
    hops := ownHops s, aligned := s.time.aligned, reference := s.conf.isReference
    syncIn := s.time.source == 1, errorEst := s.time.errorEst }

theorem timeFrameSend_of_active {dt : Nat} {p : Fin 24} (hactive : s.portActive p = true) (hrole : 1 ≤ s.roleOf p) :
    exec (.timeFrameSend dt p) s = .next ((s.advance dt).send p { dstModule := (s.portItem p).peerModule }
      (.time ((s.advance dt).ownTimeFrame p))) := by
  have hactive' : (s.advance dt).portActive p = true := hactive
  have hrole' : (s.advance dt).roleOf p ≠ 0 := Nat.one_le_iff_ne_zero.mp hrole
  rw [exec_timeFrameSend, execTimeFrameSend]
  exact if_neg (by simp [hactive', hrole'])

theorem frameCodewords_time (hdr : FrameHdr) (f : TimeF) : frameCodewords ⟨hdr, .time f⟩ = 1 := by
  simp [frameCodewords, frameSlots, framePayload]

theorem portActive_iff {p : Nat} :
    s.portActive p = true ↔ p < s.nPorts ∧ (s.port p).train.state = .active := by
  simp [State.portActive]

/-! ### A TIME frame is received -/

/-- What a received TIME frame leaves at its port: the measurement (R317). -/
def State.measureTime (s : State) (p : Nat) (hdr : FrameHdr) (f : TimeF) : State :=
  s.modPort p (fun x => { x with
    delay := if f.echoSend != 0 then min 0xFFFF (5 * doubleDelay s.tide hdr.sendTide f).toNat else x.delay
    peerHops := f.hops, peerAligned := f.aligned, lastRx := s.tide, lastTime := some (hdr.sendTide, s.tide) })

/-- What a received TIME frame does, once its port has accepted it: the measurement, and the time that it gives. -/
def State.takeTime (s : State) (p : Nat) (hdr : FrameHdr) (f : TimeF) : State :=
  let d2 := doubleDelay s.tide hdr.sendTide f
  let m := s.measureTime p hdr f
  if !(f.echoSend != 0) then m
  else if m.power.phase = .serving && m.power.step = 10 then
    (if f.aligned then m.adoptTime (hdr.sendTide + (d2 / 2).toNat) f.hops f.errorEst else m)
  else if m.timePort = some p then m.followTime ((hdr.sendTide : Int) + d2 / 2 - s.tide) f.hops f.errorEst
  else m

theorem exec_timeFrameReceive (dt : Nat) (p : Fin 24) (hdr : FrameHdr) (f : TimeF) (s : State) :
    exec (.timeFrameReceive dt p hdr f) s =
      (let r := (s.advance dt).receive p hdr (.time f) true (fun u => u.takeTime p hdr f)
      if (s.advance dt).power.ready && decide ((s.advance dt).tide ≤ hdr.sendTide) && alignChanges (s.advance dt) r then
        (s.advance dt).idle
      else r) := rfl

/-- In service a frame that changes ALIGNED is past its SEND_TIDE (R46). -/
theorem timeFrameReceive_aligned_changes {dt : Nat} {p : Fin 24} {hdr : FrameHdr} {f : TimeF}
    (hnext : exec (.timeFrameReceive dt p hdr f) s = .next t) (hready : s.power.ready = true)
    (hchange : t.time.aligned ≠ s.time.aligned) : hdr.sendTide < (s.advance dt).tide := by
  have hsame : (s.advance dt).time.aligned = s.time.aligned := rfl
  by_contra hlate
  rw [exec_timeFrameReceive] at hnext
  dsimp only at hnext
  split at hnext
  · cases hnext
    exact hchange hsame
  · rename_i hkept
    refine hkept ?_
    rw [hnext]
    simp [alignChanges, hready, Nat.not_lt.mp hlate, hsame, Ne.symm hchange]

/-- A TIME frame on an ACTIVE port with a role is taken before the module is ready, and past its SEND_TIDE. -/
theorem timeFrameReceive_taken {dt : Nat} {p : Fin 24} {hdr : FrameHdr} {f : TimeF} (hactive : s.portActive p = true)
    (hrole1 : 1 ≤ s.roleOf p) (hrole6 : s.roleOf p ≤ 6)
    (hpast : s.power.ready = false ∨ hdr.sendTide < (s.advance dt).tide) : exec (.timeFrameReceive dt p hdr f) s =
      .next (((s.advance dt).acceptFrame p hdr (.time f)).takeTime p hdr f) := by
  have hcarries : (s.advance dt).roleOf p ∈ frameRoles (.time f) := by
    have hrole : (s.advance dt).roleOf p = s.roleOf p := rfl
    simp only [frameRoles, List.mem_cons, List.not_mem_nil, or_false]
    omega
  rw [exec_timeFrameReceive, receive_of_carried (s := s.advance dt) hactive rfl hcarries]
  refine if_neg ?_
  rcases hpast with hready | hpast
  · simp [hready]
  · simp [Nat.not_le.mpr hpast]

/-! ### The measurement stays at its port -/

/-- What a port keeps of the TIME frames that it has heard. -/
def Port.heard (x : Port) : Nat × Nat × Bool × Nat × Option (Nat × Nat) :=
  (x.delay, x.peerHops, x.peerAligned, x.lastRx, x.lastTime)

/-- A projection that a map over a table leaves alone reads the same after it. -/
theorem tabGet_map_congr {α β : Type} (π : α → β) {g : α → α} (hg : ∀ v, π (g v) = π v) (d : α) (m : Tab α) (n : Nat) :
    π (tabGet d (m.map (fun e => (e.1, g e.2))) n) = π (tabGet d m n) := by
  induction m with
  | nil => rfl
  | cons e m ih =>
    simp only [List.map_cons, tabGet]
    split
    · exact hg e.2
    · exact ih

theorem reachReady_heard (s : State) (tide q : Nat) : ((s.reachReady tide).port q).heard = (s.port q).heard :=
  tabGet_map_congr Port.heard (g := fun x => { x with train := x.train.restart tide }) (fun _ => rfl) {} s.ports q

theorem measureTime_heard (s : State) (p : Nat) (hdr : FrameHdr) (f : TimeF) :
    ((s.measureTime p hdr f).port p).heard =
      (if f.echoSend != 0 then min 0xFFFF (5 * doubleDelay s.tide hdr.sendTide f).toNat else (s.port p).delay,
        f.hops, f.aligned, s.tide, some (hdr.sendTide, s.tide)) := by
  rw [State.measureTime, modPort_port]
  rfl

/-! ### The alignment step, and the time that is followed in service -/

/-- The estimate of the error that adopting a time leaves, and its source. -/
def adoptError (s : State) (est : Nat) : Nat × Nat :=
  if s.conf.isReference then (0, 0) else (Config.alignError 0 est, 2)

theorem adoptTime_eq_setError (s : State) (tide hops est : Nat) : s.adoptTime tide hops est =
    (State.setError { s.reachReady tide with time := { (s.reachReady tide).time with hops := min 0xFF (hops + 1) } }
      (adoptError s est).1 (adoptError s est).2) := by
  unfold State.adoptTime adoptError
  have href : (s.reachReady tide).conf.isReference = s.conf.isReference := rfl
  dsimp only
  rw [href]
  split <;> rfl

/-- A module that adopts a time is ready at it (R38, R406). -/
theorem adoptTime_ready (s : State) (tide hops est : Nat) : (s.adoptTime tide hops est).tide = tide ∧
    (s.adoptTime tide hops est).power.ready = true ∧ (s.adoptTime tide hops est).power.step = 11 ∧
    (s.adoptTime tide hops est).commit.lastCommitTide = tide ∧
    (s.adoptTime tide hops est).time.hops = min 0xFF (hops + 1) := by
  rw [adoptTime_eq_setError, setError_frame]
  exact ⟨rfl, rfl, rfl, rfl, rfl⟩

theorem adoptTime_frame (s : State) (tide hops est : Nat) : (s.adoptTime tide hops est).mem = s.mem ∧
    (s.adoptTime tide hops est).layers = s.layers ∧
    (s.adoptTime tide hops est).ports = (s.reachReady tide).ports := by
  rw [adoptTime_eq_setError, setError_frame]
  exact ⟨rfl, rfl, rfl⟩

/-- Following a time changes the time base, and what a new estimate of the error reports. -/
theorem followTime_frame (s : State) (offset : Int) (hops est : Nat) : (s.followTime offset hops est).mem = s.mem ∧
    (s.followTime offset hops est).layers = s.layers ∧ (s.followTime offset hops est).ports = s.ports ∧
    (s.followTime offset hops est).tide = s.tide := by
  unfold State.followTime
  split
  · exact ⟨rfl, rfl, rfl, rfl⟩
  · split
    · exact ⟨rfl, rfl, rfl, rfl⟩
    · split
      · exact ⟨rfl, rfl, rfl, rfl⟩
      · rw [setError_frame]
        exact ⟨rfl, rfl, rfl, rfl⟩

/-- In service the whole offset is slewed away, where no pulses are the source (R37, R40). -/
theorem followTime_of_frames (offset : Int) {hops : Nat} (est : Nat) (hready : s.power.ready = true)
    (href : s.conf.isReference = false) (hselect : s.conf.sourceSelect ≠ 1) (hsource : s.time.source ≠ 1)
    (hhops : hops ≠ 0xFF) : (s.followTime offset hops est).time.slew = offset ∧
      (s.followTime offset hops est).time.hops = min 0xFF (hops + 1) := by
  have hfollow : s.followTime offset hops est = State.setError { s with time := { s.time with
      slew := offset, hops := min 0xFF (hops + 1) } } (Config.alignError offset est) 2 :=
    (if_neg (by simp [href, hready, hhops])).trans ((if_neg hsource).trans (if_neg hselect))
  rw [hfollow, setError_frame]
  exact ⟨rfl, rfl⟩

/-! ### What a taken frame does -/

section Taken

variable (s : State) (p : Nat) (hdr : FrameHdr) (f : TimeF)

/-- A taken frame leaves its measurement, adopts the frame's time, or follows it. -/
theorem takeTime_cases :
    s.takeTime p hdr f = s.measureTime p hdr f ∨
    (s.power.step = 10 ∧ ∃ tide hops est, s.takeTime p hdr f = (s.measureTime p hdr f).adoptTime tide hops est) ∨
    (∃ offset hops est, s.takeTime p hdr f = (s.measureTime p hdr f).followTime offset hops est) := by
  unfold State.takeTime
  dsimp only
  split
  · exact .inl rfl
  · split
    · rename_i hstep
      simp only [Bool.and_eq_true, decide_eq_true_eq] at hstep
      split
      · exact .inr (.inl ⟨hstep.2, _, _, _, rfl⟩)
      · exact .inl rfl
    · split
      · exact .inr (.inr ⟨_, _, _, rfl⟩)
      · exact .inl rfl

/-- Whatever time a frame gives, its measurement stays, and neither memory nor a layer changes. -/
theorem takeTime_keeps : ((s.takeTime p hdr f).port p).heard = ((s.measureTime p hdr f).port p).heard ∧
    (s.takeTime p hdr f).mem = s.mem ∧ (s.takeTime p hdr f).layers = s.layers := by
  rcases takeTime_cases s p hdr f with h | ⟨-, tide, hops, est, h⟩ | ⟨offset, hops, est, h⟩
  · rw [h]
    exact ⟨rfl, rfl, rfl⟩
  · obtain ⟨hmem, hlayers, hports⟩ := adoptTime_frame (s.measureTime p hdr f) tide hops est
    rw [h, State.port, hports]
    exact ⟨reachReady_heard _ tide p, hmem, hlayers⟩
  · obtain ⟨hmem, hlayers, hports, -⟩ := followTime_frame (s.measureTime p hdr f) offset hops est
    rw [h, State.port, hports]
    exact ⟨rfl, hmem, hlayers⟩

variable {s p hdr f}

/-- Outside the alignment step no frame moves Tidemark, nor any other port (R40). -/
theorem takeTime_of_aligned (hstep : s.power.step ≠ 10) : (s.takeTime p hdr f).tide = s.tide ∧
    ∀ q, q ≠ p → (s.takeTime p hdr f).port q = s.port q := by
  have hmeasure (q : Nat) (hq : q ≠ p) : (s.measureTime p hdr f).port q = s.port q := modPort_port_ne _ _ _ _ hq
  rcases takeTime_cases s p hdr f with h | ⟨h10, -⟩ | ⟨offset, hops, est, h⟩
  · rw [h]
    exact ⟨rfl, hmeasure⟩
  · exact absurd h10 hstep
  · obtain ⟨-, -, hports, htide⟩ := followTime_frame (s.measureTime p hdr f) offset hops est
    rw [h]
    refine ⟨htide, fun q hq => ?_⟩
    rw [State.port, hports]
    exact hmeasure q hq

theorem takeTime_of_alignment (hphase : s.power.phase = .serving) (hstep : s.power.step = 10) (hecho : f.echoSend ≠ 0)
    (haligned : f.aligned = true) : s.takeTime p hdr f = (s.measureTime p hdr f).adoptTime
      (hdr.sendTide + (doubleDelay s.tide hdr.sendTide f / 2).toNat) f.hops f.errorEst := by
  have hphase' : (s.measureTime p hdr f).power.phase = .serving := hphase
  have hstep' : (s.measureTime p hdr f).power.step = 10 := hstep
  exact (if_neg (by simp [hecho])).trans ((if_pos (by simp [hphase', hstep'])).trans (if_pos haligned))

theorem takeTime_of_service (hstep : s.power.step ≠ 10) (hecho : f.echoSend ≠ 0) (hport : s.conf.refPort = p)
    (hlt : p < 24) : s.takeTime p hdr f = (s.measureTime p hdr f).followTime
      ((hdr.sendTide : Int) + doubleDelay s.tide hdr.sendTide f / 2 - s.tide) f.hops f.errorEst := by
  have hstep' : (s.measureTime p hdr f).power.step ≠ 10 := hstep
  have href : (s.measureTime p hdr f).conf.refPort = p := hport
  have htimePort : (s.measureTime p hdr f).timePort = some p := by
    rw [State.timePort, if_pos (by omega), href]
  exact (if_neg (by simp [hecho])).trans ((if_neg (by simp [hstep'])).trans (if_pos htimePort))

end Taken

/-- Settles O45: a TIME frame leaves as `send_of_free` says; a received one leaves its measurement, and the time that it
gives is adopted in the alignment step and followed in service. -/
theorem timeFramesAreExchanged : Obligations.TimeFramesAreExchanged := by
  intro dt p s hactive hrole1 hrole6
  refine ⟨?_, fun hdr f t hnext hready hchange => timeFrameReceive_aligned_changes hnext hready hchange, ?_⟩
  · intro hqueue hroom hunits
    have hsend := send_of_free (s := s.advance dt) (p := p) (hdr := { dstModule := (s.portItem p).peerModule })
      (body := .time ((s.advance dt).ownTimeFrame p)) rfl (portActive_iff.mp hactive).2 hqueue
      (by rw [frameCodewords_time]; exact hroom) hunits
    refine ⟨_, timeFrameSend_of_active hactive hrole1, ?_, ?_, ?_, ?_, ?_⟩ <;> rw [hsend]
    · rw [modPort_port, modPort_port]
      rfl
    · rw [modPort_port, modPort_port]
      rfl
    · rw [modPort_port, modPort_port]
      exact congrArg ((s.port p).unacked + ·) (frameCodewords_time ..)
    · intro q hq
      rw [modPort_port_ne _ _ _ _ hq, modPort_port_ne _ _ _ _ hq]
      rfl
    · rfl
  · rintro hdr f d2 rfl hpast
    have htaken := timeFrameReceive_taken (f := f) hactive hrole1 hrole6 hpast
    obtain ⟨hpower, htide, htime, hconf, hmem, hlayers⟩ := acceptFrame_keeps (s.advance dt) p hdr (.time f)
    have hdelayV := acceptFrame_delay (s.advance dt) p hdr (.time f)
    have hother (q : Nat) (hq : q ≠ p) := acceptFrame_port_ne (s.advance dt) (p := p) hdr (.time f) hq
    generalize (s.advance dt).acceptFrame p hdr (.time f) = v at *
    have hphase : v.power.phase = s.power.phase := hpower ▸ rfl
    have hstep : v.power.step = s.power.step := hpower ▸ rfl
    have hready : v.power.ready = s.power.ready := hpower ▸ rfl
    obtain ⟨hheard, hmemT, hlayersT⟩ := takeTime_keeps v p hdr f
    rw [measureTime_heard, htide, hdelayV] at hheard
    simp only [Port.heard, Prod.mk.injEq] at hheard
    obtain ⟨hdelay, hhops, haligned, hlast, hlastTime⟩ := hheard
    refine ⟨_, htaken, hhops, haligned, hlast, hlastTime, ?_, ?_, ?_, ?_, ?_, hmemT.trans hmem, hlayersT.trans hlayers⟩
    · intro hecho
      rw [hdelay, if_pos (by simpa using hecho)]
    · intro hecho
      rw [hdelay, if_neg (by simpa using hecho)]
      rfl
    · intro h10
      obtain ⟨htideT, hportsT⟩ := takeTime_of_aligned (s := v) (p := p) (hdr := hdr) (f := f) (hstep.trans_ne h10)
      exact ⟨htideT.trans htide, fun q hq => (hportsT q hq).trans (hother q hq)⟩
    · intro hserving h10 hecho hfaligned
      rw [takeTime_of_alignment (hphase.trans hserving) (hstep.trans h10) hecho hfaligned, htide]
      obtain ⟨hT, hR, hS, hC, hH⟩ := adoptTime_ready (v.measureTime p hdr f)
        (hdr.sendTide + (doubleDelay (s.advance dt).tide hdr.sendTide f / 2).toNat) f.hops f.errorEst
      exact ⟨hT, hR, hS, hC.trans hT.symm, hH⟩
    · intro h10 hserves href hreference hselect hsource hecho hfhops
      rw [takeTime_of_service (hstep.trans_ne h10) hecho ((congrArg Conf.refPort hconf).trans href) p.isLt, htide]
      exact followTime_of_frames (s := v.measureTime p hdr f) _ _ (hready.trans hserves)
        ((congrArg Conf.isReference hconf).trans hreference) ((congrArg Conf.sourceSelect hconf).trans_ne hselect)
        ((congrArg Time.source htime).trans_ne hsource) hfhops

end Sys2Proof.Machine
end

section
/-! PROOF. The rules that the commands share: their checks, their start, and their completion (chapter 03). -/

namespace Sys2Proof.Machine

/-! ### Checks of parameters (R465) -/

theorem lowestFail_eq_none {checks : List (Bool × Nat)} (h : ∀ x ∈ checks, x.1 = true) : lowestFail checks = none := by
  have hpass : checks.filter (fun x => !x.1) = [] := List.filter_eq_nil_iff.mpr (fun x hx => by simp [h x hx])
  rw [lowestFail, hpass]
  rfl

/-- The reserved bytes of a parameter area are zero (R11, R80). -/
theorem reservedFail_eq_nil {c : Cmd} {size : Nat} {used : List (Nat × Nat)}
    (h : ∀ i, i < size → (∀ u ∈ used, i < u.1 ∨ u.1 + u.2 ≤ i) → c.param i 1 = 0) : reservedFail c size used = [] := by
  have hbytes : lowestFail (reservedBytes c size used) = none := by
    refine lowestFail_eq_none (fun x hx => ?_)
    obtain ⟨i, hi, rfl⟩ := List.mem_map.mp hx
    simp only [List.mem_filter, List.mem_range, List.all_eq_true, Bool.or_eq_true, decide_eq_true_eq] at hi
    exact beq_iff_eq.mpr (h i hi.1 hi.2)
  rw [reservedFail, hbytes]

/-! ### What a start leaves -/

theorem Starts.frame {s u : State} {dt r op : Nat} {c : Cmd} (h : Starts s dt r op c u) : u = { s.advance dt with
    host := u.host, time := { (s.advance dt).time with lateLaunches := u.time.lateLaunches } } := by
  obtain ⟨d, -, -, -, -, hbegin⟩ := take_some _ h
  obtain ⟨-, rfl⟩ := Prod.mk.inj hbegin
  exact begin_frame ..

/-! ### What a completion changes -/

/-- Two states that differ at most in the host port, in memory and in when the latest UPDATE_LAYER completed. -/
def SameButCompletions (s t : State) : Prop :=
  t = { s with host := t.host, mem := t.mem, step := { s.step with lastUpdate := t.step.lastUpdate } }

variable {s t u : State}

theorem SameButCompletions.rfl : SameButCompletions s s := Eq.refl s

theorem SameButCompletions.trans (hst : SameButCompletions s t) (htu : SameButCompletions t u) :
    SameButCompletions s u :=
  Eq.trans htu (congrArg (fun x : State => { x with
    host := u.host, mem := u.mem, step := { x.step with lastUpdate := u.step.lastUpdate } }) hst)

theorem SameButCompletions.eq (h : SameButCompletions s t) :
    t = { s with host := t.host, mem := t.mem, step := { s.step with lastUpdate := t.step.lastUpdate } } := h

theorem SameButCompletions.commit (h : SameButCompletions s t) : t.commit = s.commit := (congrArg State.commit h.eq :)

theorem sameButCompletions_modRing (s : State) (r : Nat) (f : Ring → Ring) : SameButCompletions s (s.modRing r f) :=
  Eq.refl _

theorem sameButCompletions_writeHost (s : State) (a : Nat) (bs : List Byte) : SameButCompletions s (s.writeHost a bs) :=
  Eq.refl _

theorem sameButCompletions_countInt (s : State) (r : Nat) : SameButCompletions s (s.countInt r) := by
  rw [SameButCompletions, countInt_eq]

theorem sameButCompletions_fillSlot (s : State) (c : Cmd) (st : Status) (detail : Nat) (body : List Byte) :
    SameButCompletions s (s.fillSlot c st detail body) := by
  rw [SameButCompletions, fillSlot_eq]

theorem sameButCompletions_announce (s : State) (c : Cmd) (st : Status) : SameButCompletions s (s.announce c st) := by
  unfold State.announce
  dsimp only
  have hint (x : State) : SameButCompletions x (if c.int then x.countInt c.ring else x) := by
    split
    · exact sameButCompletions_countInt ..
    · exact .rfl
  refine .trans ?_ (hint _)
  have hdone (x : State) : SameButCompletions x (match c.doneSignal with
      | some j => if st = .ok then x.setSignal j else x
      | none => x) := by
    split
    · split
      · exact Eq.refl _
      · exact .rfl
    · exact .rfl
  refine .trans ?_ (hdone _)
  split
  · exact (sameButCompletions_modRing ..).trans (sameButCompletions_writeHost ..)
  · exact sameButCompletions_modRing ..

theorem sameButCompletions_complete (s : State) (c : Cmd) (st : Status) (detail : Nat) (body : List Byte) :
    SameButCompletions s (s.complete c st detail body) := by
  unfold State.complete
  dsimp only
  have hdrop : SameButCompletions s (if c.opcode = 0x40 then
      { s.dropCmd c with step := { (s.dropCmd c).step with lastUpdate := (s.dropCmd c).tide } } else s.dropCmd c) := by
    split
    · exact (sameButCompletions_modRing ..).trans (Eq.refl _)
    · exact sameButCompletions_modRing ..
  split
  · exact hdrop
  · exact hdrop.trans ((sameButCompletions_fillSlot ..).trans (sameButCompletions_announce ..))

/-! ### A command changed in its ring -/

/-- A command that keeps its fetch number is found under it, changed. -/
theorem findCmd_modCmd {ref : CmdRef} {f : Cmd → Cmd} {d : Cmd} (hf : ∀ c, (f c).fetchOrder = c.fetchOrder)
    (h : s.findCmd ref = some d) : (s.modCmd ref f).findCmd ref = some (f d) := by
  rw [State.findCmd] at h
  have hd : d.fetchOrder = ref.id := by simpa using List.find?_some h
  have hpred : ((fun c : Cmd => c.fetchOrder == ref.id) ∘ fun c => if c.fetchOrder = ref.id then f c else c) =
      fun c => c.fetchOrder == ref.id := by
    funext c
    by_cases hc : c.fetchOrder = ref.id <;> simp [hc, hf]
  rw [State.findCmd, State.modCmd, modRing_ring, List.find?_map, hpred, h]
  simp [hd]

end Sys2Proof.Machine
end

section
/-! PROOF. The loss scale's changes and the step verdict (chapter 13). -/

namespace Sys2Proof.Machine

variable {s t u : State} {c : Cmd}

/-! ### LOSS_SCALE_SET -/

theorem exec_lossScaleSet (dt : Nat) (s : State) : exec (.lossScaleSet dt) s = execLossScaleSet dt s := rfl

/-- A LOSS_SCALE_SET that passes its checks registers its change for the next close (R283, R285). -/
theorem lossScaleSet_of_checked {dt : Nat} (hstart : Starts s dt 0 0x44 c u) (hflags : c.param 1 1 < 8)
    (hreserved : ∀ i, i = 2 ∨ i = 3 ∨ (8 ≤ i ∧ i < 64) → c.param i 1 = 0)
    (hexp : (c.param 1 1).testBit 0 = true → -24 ≤ signed 8 (c.param 0 1) ∧ signed 8 (c.param 0 1) ≤ 24)
    (hinterval : (c.param 1 1).testBit 1 = true → 1 ≤ c.param 4 4 ∧ c.param 4 4 ≤ 1000000) :
    exec (.lossScaleSet dt) s = .next (({ u with step := { u.step with
      pendValid := true
      pendExp := if (c.param 1 1).testBit 0 then some (signed 8 (c.param 0 1)) else none
      pendInterval := if (c.param 1 1).testBit 1 then some (BitVec.ofNat 32 (c.param 4 4)) else none
      pendReset := (c.param 1 1).testBit 2 } } : State).complete c .ok 0 []) := by
  have hbytes : reservedFail c 64 [(0, 2), (4, 4)] = [] := reservedFail_eq_nil (fun i hi hfree =>
    hreserved i (by simp only [List.mem_cons, List.not_mem_nil, or_false, forall_eq_or_imp, forall_eq] at hfree; omega))
  rw [exec_lossScaleSet, execLossScaleSet, show (s.advance dt).take 0 0x44 = some (c, u) from hstart]
  dsimp only
  rw [lowestFail_eq_none ?checks]
  case checks =>
    rw [hbytes]
    simp only [List.append_nil, List.mem_cons, List.not_mem_nil, or_false, forall_eq_or_imp, forall_eq,
      Bool.or_eq_true, Bool.and_eq_true, Bool.not_eq_true', decide_eq_true_eq]
    exact ⟨Bool.eq_false_or_eq_true _ |>.symm.imp_right hexp, hflags, Bool.eq_false_or_eq_true _ |>.symm.imp_right hinterval⟩

/-! ### What a vote changes -/

/-- Two states that differ at most in what a vote and its verdict change (R286, R287, R333): the record of the step's
verdict, the pending permute, and what frames change. -/
def SameButVerdict (s t : State) : Prop := t = { s with
  ports := t.ports, dma := t.dma, host := t.host, log := t.log, coll := t.coll
  power := { s.power with faultLow := t.power.faultLow }, mgmt := { s.mgmt with events := t.mgmt.events }
  commit := { s.commit with verdicts := t.commit.verdicts }
  step := { s.step with
    sampled := t.step.sampled, arrived := t.step.arrived, jobNonfinite := t.step.jobNonfinite
    jobAbort := t.step.jobAbort, permReady := t.step.permReady, permEpoch := t.step.permEpoch } }

theorem SameButVerdict.eq (h : SameButVerdict s t) : t = { s with
    ports := t.ports, dma := t.dma, host := t.host, log := t.log, coll := t.coll
    power := { s.power with faultLow := t.power.faultLow }, mgmt := { s.mgmt with events := t.mgmt.events }
    commit := { s.commit with verdicts := t.commit.verdicts }
    step := { s.step with
      sampled := t.step.sampled, arrived := t.step.arrived, jobNonfinite := t.step.jobNonfinite
      jobAbort := t.step.jobAbort, permReady := t.step.permReady, permEpoch := t.step.permEpoch } } := h

theorem SameButVerdict.rfl : SameButVerdict s s := Eq.refl s

theorem SameButVerdict.trans (hst : SameButVerdict s t) (htu : SameButVerdict t u) : SameButVerdict s u :=
  Eq.trans htu (congrArg (fun x : State => { x with
    ports := u.ports, dma := u.dma, host := u.host, log := u.log, coll := u.coll
    power := { x.power with faultLow := u.power.faultLow }, mgmt := { x.mgmt with events := u.mgmt.events }
    commit := { x.commit with verdicts := u.commit.verdicts }
    step := { x.step with
      sampled := u.step.sampled, arrived := u.step.arrived, jobNonfinite := u.step.jobNonfinite
      jobAbort := u.step.jobAbort, permReady := u.step.permReady, permEpoch := u.step.permEpoch } }) hst)

theorem SameButTraffic.verdict (h : SameButTraffic s t) : SameButVerdict s t := by
  rw [SameButTraffic] at h
  rw [h]
  exact Eq.refl _

/-- What a vote leaves as it was: the sampled bits, the open step and memory. -/
theorem SameButVerdict.keeps (h : SameButVerdict s t) : t.step.started = s.step.started ∧
    t.step.collId = s.step.collId ∧ t.step.localNonfinite = s.step.localNonfinite ∧
    t.step.localAbort = s.step.localAbort ∧ t.commit = { s.commit with verdicts := t.commit.verdicts } ∧
    t.mem = s.mem :=
  have hstep := (congrArg State.step h.eq :)
  ⟨(congrArg StepSt.started hstep :), (congrArg StepSt.collId hstep :), (congrArg StepSt.localNonfinite hstep :),
    (congrArg StepSt.localAbort hstep :), (congrArg State.commit h.eq :), (congrArg State.mem h.eq :)⟩

theorem sameButTraffic_sendPorts (s : State) (ps : List Nat) (body : FrameBody) :
    SameButTraffic s (s.sendPorts ps body) :=
  foldl_keeps (fun _ => .rfl) (fun _ _ _ => .trans) (fun s p => sameButTraffic_send s p _ body) ps s

/-- The state in which a STEP_VERDICT is told the job's verdict. -/
def State.verdictTaken (s : State) (f : VerdictF) : State :=
  let s : State := { s with
    step := { s.step with
      arrived := true, jobNonfinite := f.nonfinite, jobAbort := f.abort, permReady := f.permReady, permEpoch := f.newEpoch }
    commit := { s.commit with verdicts := (s.commit.stepNumber, s.tide) :: s.commit.verdicts } }
  if f.permReady then s else s.modPermute (fun p => { p with contributed := false })

/-- Status of a STEP_VERDICT (R287). -/
def verdictStatus (f : VerdictF) : Status := if f.nonfinite then .nonfinite else if f.abort then .aborted else .ok

theorem verdictArrives_of_none (h : s.verdictCmd = none) (f : VerdictF) : s.verdictArrives f = s := by
  rw [State.verdictArrives, h]

theorem verdictArrives_of_some (h : s.verdictCmd = some c) (f : VerdictF) : s.verdictArrives f =
    (s.verdictTaken f).finish c.ref (verdictStatus f) 0 (verdictBody c f.nonfinite f.abort s.tide) := by
  rw [State.verdictArrives, h]
  dsimp only
  rw [State.verdictTaken]
  dsimp only
  split <;> rfl

theorem sameButVerdict_verdictTaken (s : State) (f : VerdictF) : SameButVerdict s (s.verdictTaken f) := by
  unfold State.verdictTaken
  dsimp only
  split <;> exact Eq.refl _

theorem sameButVerdict_verdictArrives (s : State) (f : VerdictF) : SameButVerdict s (s.verdictArrives f) := by
  cases h : s.verdictCmd with
  | none => rw [verdictArrives_of_none h]; exact .rfl
  | some c =>
    rw [verdictArrives_of_some h]
    exact (sameButVerdict_verdictTaken s f).trans (Eq.refl _)

theorem vote_of_unsampled (h : s.step.sampled = none) : s.vote = s := by
  rw [State.vote, h]

theorem sameButVerdict_vote (s : State) : SameButVerdict s s.vote := by
  unfold State.vote
  split
  · exact .rfl
  · dsimp only
    split
    · exact .rfl
    · have hsampled : SameButVerdict s { s with step := { s.step with sampled := none } } := Eq.refl _
      split
      · exact hsampled.trans (sameButTraffic_send ..).verdict
      · exact hsampled.trans ((sameButTraffic_sendPorts ..).verdict.trans (sameButVerdict_verdictArrives ..))

/-! ### STEP_VERDICT -/

theorem exec_stepVerdict (dt : Nat) (s : State) : exec (.stepVerdict dt) s = execStepVerdict dt s := rfl

/-- The abort that a STEP_VERDICT may ask for (R286). -/
def State.askAbort (s : State) (c : Cmd) : State := if (c.param 4 1).testBit 0 then s.requestAbort else s

/-- The step's bits as a STEP_VERDICT samples them, and its wait for the job's verdict (R286, R287). -/
def State.sampleStep (s : State) (c : Cmd) : State :=
  let ready := s.permuteReady
  let s := s.modPermute (fun p => { p with contributed := ready })
  let s : State := { s with step := { s.step with
    started := true
    collId := BitVec.ofNat 32 (c.param 8 4)
    sampled := some (s.step.localNonfinite, s.step.localAbort, s.coll.permute.isSome, ready) } }
  let s := s.tickUpdates
  let s := s.modCmd c.ref (fun c => { c with aux := [b2n s.step.localNonfinite, b2n s.step.localAbort] })
  s.setWait c.ref .verdict (if c.param 0x0C 4 = 0 then none else some (s.tide + 1000 * c.param 0x0C 4))

/-- A STEP_VERDICT that passes its checks is BUSY after another one, and else samples and votes (R286, R287). -/
theorem stepVerdict_of_checked {dt : Nat} (hstart : Starts s dt 0 0x41 c u)
    (hstep : c.param 0 4 = u.commit.stepNumber.toNat) (hflags : c.param 4 1 < 2)
    (htree : u.treeOk (BitVec.ofNat 32 (c.param 8 4)) voteRoles = true)
    (hreserved : ∀ i, i = 5 ∨ i = 6 ∨ i = 7 ∨ (16 ≤ i ∧ i < 64) → c.param i 1 = 0) :
    exec (.stepVerdict dt) s =
      if u.step.started then .next (u.complete c .busy 0 []) else .next ((u.askAbort c).sampleStep c).vote := by
  have hbytes : reservedFail c 64 [(0, 5), (8, 8)] = [] := reservedFail_eq_nil (fun i hi hfree =>
    hreserved i (by simp only [List.mem_cons, List.not_mem_nil, or_false, forall_eq_or_imp, forall_eq] at hfree; omega))
  rw [exec_stepVerdict, execStepVerdict, show (s.advance dt).take 0 0x41 = some (c, u) from hstart]
  dsimp only
  rw [lowestFail_eq_none ?checks]
  case checks =>
    rw [hbytes]
    simp [hstep, hflags, htree]
  rfl

theorem askAbort_abort (s : State) (c : Cmd) : (s.askAbort c).step.localNonfinite = s.step.localNonfinite ∧
    (s.askAbort c).step.localAbort = (s.step.localAbort || (c.param 4 1).testBit 0) ∧
    (s.askAbort c).commit = s.commit ∧ (s.askAbort c).mem = s.mem := by
  unfold State.askAbort
  cases (c.param 4 1).testBit 0 with
  | false => exact ⟨rfl, (Bool.or_false _).symm, rfl, rfl⟩
  | true => exact ⟨rfl, (Bool.or_true _).symm, rfl, rfl⟩

theorem sampleStep_sampled (s : State) (c : Cmd) : (s.sampleStep c).step.started = true ∧
    (s.sampleStep c).step.collId = BitVec.ofNat 32 (c.param 8 4) ∧
    (s.sampleStep c).step.localNonfinite = s.step.localNonfinite ∧
    (s.sampleStep c).step.localAbort = s.step.localAbort ∧
    (s.sampleStep c).commit = s.commit ∧ (s.sampleStep c).mem = s.mem := ⟨rfl, rfl, rfl, rfl, rfl, rfl⟩

/-! ### Frames on a module whose check units are all free -/

/-- Where no unit is armed, a frame that leaves changes its port alone. -/
theorem pumpN_of_unarmed (h : ∀ n, (s.unit n).armed = false) (p fuel : Nat) :
    s.pumpN p fuel = { s with ports := (s.pumpN p fuel).ports } := by
  induction fuel generalizing s with
  | zero => rfl
  | succ fuel ih =>
    rw [State.pumpN]
    dsimp only
    split
    · rfl
    · split
      · rw [absorb_of_unarmed (s := s.modPort p _) h, ih (s := s.modPort p _) h]
        rfl
      · rfl

theorem sendPorts_of_unarmed (h : ∀ n, (s.unit n).armed = false) (ps : List Nat) (body : FrameBody) :
    s.sendPorts ps body = { s with ports := (s.sendPorts ps body).ports } := by
  unfold State.sendPorts
  induction ps generalizing s with
  | nil => rfl
  | cons p ps ih =>
    have hsend : s.sendTree p body = { s with ports := (s.sendTree p body).ports } :=
      pumpN_of_unarmed (s := s.modPort p _) h ..
    have hunits (n : Nat) : ((s.sendTree p body).unit n).armed = false := by
      rw [hsend]
      exact h n
    rw [List.foldl_cons, ih hunits, hsend]

/-! ### The VERDICT frame -/

theorem exec_verdictFrame (dt : Nat) (p : Fin 24) (hdr : FrameHdr) (f : VerdictF) (s : State) :
    exec (.verdictFrame dt p hdr f) s = execVerdictFrame dt p hdr f s := rfl

/-- What a VERDICT frame does, once its port has accepted it (R333). -/
def State.takeVerdict (s : State) (p : Nat) (f : VerdictF) : State :=
  let v := s.view f.collId
  let up := !f.down && v.kids.contains p
  let down := f.down && v.parent == some p
  if !(tabGet {} s.coll.trees (f.collId.toNat % 64)).valid || f.step != s.commit.stepNumber || !(up || down) then
    s.swDiscard v.tile
  else if up then ({ s with step := { s.step with ups := tabSet s.step.ups p f } } : State).vote
  else (s.sendPorts v.kids (.verdict f)).verdictArrives f

/-- A VERDICT frame that is not held, on an ACTIVE port with its role and past its SEND_TIDE. -/
theorem verdictFrame_taken {dt : Nat} {p : Fin 24} {hdr : FrameHdr} {f : VerdictF} (hactive : s.portActive p = true)
    (hrole1 : 1 ≤ s.roleOf p) (hrole5 : s.roleOf p ≤ 5) (hpast : hdr.sendTide < (s.advance dt).tide)
    (hfree : (s.advance dt).ingressHeld f.collId = false) (hunits : ∀ n, (s.unit n).armed = false) :
    exec (.verdictFrame dt p hdr f) s =
      .next (((s.advance dt).modPort p (·.taken hdr)).takeVerdict p f) := by
  have hcarries : (s.advance dt).roleOf p ∈ frameRoles (.verdict f) := by
    have hrole : (s.advance dt).roleOf p = s.roleOf p := rfl
    simp only [frameRoles, List.mem_cons, List.not_mem_nil, or_false]
    omega
  have htaken := receive_of_carried (s := s.advance dt) (hdr := hdr) (body := .verdict f) hactive
    (decide_eq_true hpast) hcarries (fun v => v.takeVerdict p f)
  rw [acceptFrame_of_unarmed (s := s.advance dt) hunits] at htaken
  rw [exec_verdictFrame, execVerdictFrame]
  exact (if_neg (Bool.eq_false_iff.mp hfree)).trans htaken

theorem takeVerdict_of_down {p : Nat} {f : VerdictF} (hdown : f.down = true)
    (hvalid : (tabGet {} s.coll.trees (f.collId.toNat % 64)).valid = true) (hstep : f.step = s.commit.stepNumber)
    (hparent : (s.view f.collId).parent = some p) :
    s.takeVerdict p f = (s.sendPorts (s.view f.collId).kids (.verdict f)).verdictArrives f :=
  (if_neg (by rw [hvalid]; simp [hstep, hdown, hparent])).trans (if_neg (by simp [hdown]))

theorem takeVerdict_of_up {p : Nat} {f : VerdictF} (hup : f.down = false)
    (hvalid : (tabGet {} s.coll.trees (f.collId.toNat % 64)).valid = true) (hstep : f.step = s.commit.stepNumber)
    (hkid : p ∈ (s.view f.collId).kids) :
    s.takeVerdict p f = ({ s with step := { s.step with ups := tabSet s.step.ups p f } } : State).vote :=
  (if_neg (by rw [hvalid]; simp [hstep, hup, hkid])).trans (if_pos (by simp [hup, hkid]))

/-- The job's verdict is kept with its Tidemark, and finishes the STEP_VERDICT that waits for it (R287, R288). -/
theorem verdictArrives_finishes (h : s.verdictCmd = some c) (f : VerdictF) :
    (s.verdictArrives f).step.arrived = true ∧ (s.verdictArrives f).step.jobNonfinite = f.nonfinite ∧
    (s.verdictArrives f).step.jobAbort = f.abort ∧ (s.verdictArrives f).step.permReady = f.permReady ∧
    (s.verdictArrives f).commit = { s.commit with verdicts := (s.commit.stepNumber, s.tide) :: s.commit.verdicts } ∧
    (∀ d, s.findCmd c.ref = some d → (s.verdictArrives f).findCmd c.ref = some { d with
      work := .finished (verdictStatus f) 0 (verdictBody c f.nonfinite f.abort s.tide), finishedAt := s.tide }) ∧
    (s.verdictArrives f).mem = s.mem := by
  have htide : (s.verdictTaken f).tide = s.tide := (congrArg State.tide (sameButVerdict_verdictTaken s f).eq :)
  have hcmds : (s.verdictTaken f).findCmd c.ref = s.findCmd c.ref := by
    unfold State.verdictTaken
    dsimp only
    split <;> rfl
  have hfound (d : Cmd) (hd : s.findCmd c.ref = some d) := findCmd_modCmd
    (f := fun x => { x with
      work := .finished (verdictStatus f) 0 (verdictBody c f.nonfinite f.abort s.tide)
      finishedAt := (s.verdictTaken f).tide }) (fun _ => rfl) (hcmds.trans hd)
  rw [htide] at hfound
  rw [verdictArrives_of_some h]
  refine ⟨?_, ?_, ?_, ?_, ?_, fun d hd => ?_, (congrArg State.mem (sameButVerdict_verdictTaken s f).eq :)⟩
  case refine_6 =>
    rw [State.finish, htide]
    exact hfound d hd
  all_goals
    unfold State.verdictTaken
    dsimp only
    split <;> rfl

/-! ### The verdict's timeout -/

theorem sameButCompletions_withdrawClose (s : State) : SameButCompletions s s.withdrawClose := by
  unfold State.withdrawClose
  exact .trans (foldl_keeps (fun _ => .rfl) (fun _ _ _ => .trans)
    (fun s d => sameButCompletions_complete s d .timeout 0 []) _ s) (sameButCompletions_modRing ..)

theorem exec_verdictTimeout (dt : Nat) (s : State) : exec (.verdictTimeout dt) s = execVerdictTimeout dt s := rfl

/-- A verdict that does not come in time (R290): the fatal record names the open step, which no completion changes. -/
theorem verdictTimeout_of_due {dt d : Nat} (hcmd : s.verdictCmd = some c) (hdeadline : c.deadline = some d)
    (hdue : d ≤ (s.advance dt).tide) : exec (.verdictTimeout dt) s =
      .next (((((s.advance dt).complete c .timeout 0 (verdictBody c false false
        0)).withdrawClose).logRec 0 0x0051 sevFatal 0 s.commit.stepNumber.toNat 0).replayHeldBar) := by
  have hcmd' : (s.advance dt).verdictCmd = some c := hcmd
  have hdue' : (s.advance dt).due c.deadline = true := by
    rw [hdeadline]
    exact decide_eq_true hdue
  have hcommit := ((sameButCompletions_complete (s.advance dt) c .timeout 0 (verdictBody c false false 0)).trans
    (sameButCompletions_withdrawClose _)).commit
  rw [exec_verdictTimeout, execVerdictTimeout]
  dsimp only
  rw [hcmd']
  refine (if_neg (by simp [hdue'])).trans ?_
  rw [hcommit]
  rfl

/-- Settles O47: each row by the lemma on it; a vote changes no sampled bit, and a frame that finds every check unit free
changes its port alone. -/
theorem verdictsArrive : Obligations.VerdictsArrive := by
  intro dt s u c
  refine ⟨fun hstart hflags hreserved hexp hinterval =>
    lossScaleSet_of_checked hstart hflags hreserved hexp hinterval, ?_, ?_, ?_,
    fun d hcmd hdeadline hdue => verdictTimeout_of_due hcmd hdeadline hdue⟩
  · intro hstart hstep hflags htree hreserved
    have hcommit : u.commit = s.commit := (congrArg State.commit hstart.frame :)
    have hstepU : u.step = s.step := (congrArg State.step hstart.frame :)
    have hmem : u.mem = s.mem := (congrArg State.mem hstart.frame :)
    have hexec := stepVerdict_of_checked hstart (hcommit ▸ hstep) hflags htree hreserved
    rw [hstepU] at hexec
    refine ⟨fun hstarted => hexec.trans (if_pos hstarted), fun hopen => ⟨_, hexec.trans (if_neg (by simp [hopen])), ?_⟩⟩
    obtain ⟨hs, hid, hnf, hab, hcm, hm⟩ := sampleStep_sampled (u.askAbort c) c
    obtain ⟨hnfA, habA, hcmA, hmA⟩ := askAbort_abort u c
    obtain ⟨hs', hid', hnf', hab', hcm', hm'⟩ := (sameButVerdict_vote ((u.askAbort c).sampleStep c)).keeps
    rw [hstepU] at hnfA habA
    rw [hcm.trans (hcmA.trans hcommit)] at hcm'
    exact ⟨hs'.trans hs, hid'.trans hid, hnf'.trans (hnf.trans hnfA), hab'.trans (hab.trans habA), hcm',
      hm'.trans (hm.trans (hmA.trans hmem))⟩
  · rintro p hdr f hactive hrole1 hrole5 hpast hvalid hstep hdown hparent hcmd hunits hfree st rfl
    let v := (s.advance dt).modPort p (·.taken hdr)
    have hsent := sendPorts_of_unarmed (s := v) hunits (s.view f.collId).kids (.verdict f)
    refine ⟨_, verdictFrame_taken hactive hrole1 hrole5 hpast hfree hunits, ?_⟩
    rw [takeVerdict_of_down (s := v) hdown hvalid hstep hparent, show v.view f.collId = s.view f.collId from rfl, hsent]
    exact verdictArrives_finishes (s := { v with ports := (v.sendPorts (s.view f.collId).kids (.verdict f)).ports }) hcmd f
  · intro p hdr f hactive hrole1 hrole5 hpast hunits hfree hvalid hstep hup hkid hsampled
    refine ⟨_, verdictFrame_taken hactive hrole1 hrole5 hpast hfree hunits, ?_⟩
    rw [(takeVerdict_of_up (s := (s.advance dt).modPort p (·.taken hdr)) hup hvalid hstep hkid).trans
      (vote_of_unsampled hsampled)]
    exact ⟨rfl, rfl, rfl⟩

end Sys2Proof.Machine
end

section
/-! PROOF. The step close (chapter 13): a counterexample to its statement. -/

namespace Sys2Proof.Machine

/-- A front command that may start, and yields to none, is what `take` answers, started. -/
theorem take_of_front {s : State} {r op : Nat} {c : Cmd} (hfront : (s.ring r).front = some c) (hop : c.opcode = op)
    (hmay : s.mayStart c = true) (hyields : s.yields c = false) :
    s.take r op = some (s.begin c ((s.readySince c).getD 0)) := by
  simp [State.take, hfront, hop, hmay, hyields]

/-! ### A command that is filed in a ring which it does not name

No run reaches such a state, but the statement is about every state. Ring 0 holds a STEP_COMMIT that may start, and an
UPDATE_LAYER of the open step that has the STEP_COMMIT's fetch number and names ring 5. Starting the STEP_COMMIT writes
it over both, so that the close finds no update to end; and the NOP that ring 5 holds under that number is still there
after the close. -/

namespace Misfiled

def commitCmd : Cmd := { ring := 0, seq := 0, opcode := 0x42, launch := 1, oldestSince := some 0 }

def updateCmd : Cmd := { ring := 5, seq := 0, opcode := 0x40, start := some 0, work := .running }

def nopCmd : Cmd := { ring := 5, seq := 0, opcode := 0x01 }

def state : State :=
  { State.reset with
    tide := 1
    power := { State.reset.power with phase := .serving, ready := true, step := 11 }
    commit := { State.reset.commit with verdicts := [(0, 0)] }
    host := { State.reset.host with
      rings := [(0, { ringReset 0 with cmds := [commitCmd, updateCmd] }), (5, { ringReset 5 with cmds := [nopCmd] })] } }

def start : Cmd × State := (state.advance 0).begin commitCmd (((state.advance 0).readySince commitCmd).getD 0)

theorem starts : Starts state 0 0 0x42 start.1 start.2 :=
  take_of_front (by decide +kernel) rfl (by decide +kernel) (by decide +kernel)

/-- The NOP of ring 5 is still accepted after the close. -/
theorem nop_stays : (match exec (.stepCommit 0) state with
    | .next t => (t.findCmd updateCmd.ref).isSome
    | _ => false) = true := by
  decide +kernel

end Misfiled

open Misfiled in
/-- Refutes O48: an update that is filed in a ring which it does not name is not ended by the close, where it has the
number of the STEP_COMMIT itself: the ring that it names still holds a command of that number. -/
theorem not_stepsClose : ¬ Obligations.StepsClose := by
  intro h
  obtain ⟨t, ht, _, _, _, _, _, _, _, _, _, _, _, _, _, _, _, hended, _⟩ :=
    h 0 state start.2 start.1 true false (.stepCommit 0) .ok (by decide +kernel) (by decide +kernel) rfl
      (fun i _ _ => by simp [start, State.begin, commitCmd, Cmd.param, fieldAt, ofBytes])
      (.inl ⟨rfl, starts, by decide +kernel, rfl, rfl, rfl⟩)
  have hgone : t.findCmd updateCmd.ref = none := hended updateCmd (by decide +kernel) (by decide +kernel) rfl
  have hstays := nop_stays
  simp [ht, hgone] at hstays

end Sys2Proof.Machine
end

section
/-! PROOF. Configurations are staged, and applied whole or not at all (chapters 02 and 18). -/

namespace Sys2Proof.Machine

variable {s t u : State} {c : Cmd} {g : Staged}

/-! ### What the effects of an apply leave alone -/

/-- The configuration in force and the staged one, the commit state, memory and the layers are the same. -/
def KeepsCommitted (s t : State) : Prop :=
  t.conf = s.conf ∧ t.staged = s.staged ∧ t.commit = s.commit ∧ t.mem = s.mem ∧ t.layers = s.layers

theorem KeepsCommitted.rfl : KeepsCommitted s s := ⟨Eq.refl _, Eq.refl _, Eq.refl _, Eq.refl _, Eq.refl _⟩

theorem KeepsCommitted.trans (hst : KeepsCommitted s t) (htu : KeepsCommitted t u) : KeepsCommitted s u := by
  obtain ⟨h1, h2, h3, h4, h5⟩ := hst
  obtain ⟨k1, k2, k3, k4, k5⟩ := htu
  exact ⟨k1.trans h1, k2.trans h2, k3.trans h3, k4.trans h4, k5.trans h5⟩

theorem SameButTraffic.committed (h : SameButTraffic s t) : KeepsCommitted s t :=
  ⟨(congrArg State.conf h.eq :), (congrArg State.staged h.eq :), (congrArg State.commit h.eq :),
    (congrArg State.mem h.eq :), (congrArg State.layers h.eq :)⟩

theorem keepsCommitted_modCtx (s : State) (k : Nat) (f : Ctx → Ctx) : KeepsCommitted s (s.modCtx k f) :=
  ⟨rfl, rfl, rfl, rfl, rfl⟩

theorem keepsCommitted_modPort (s : State) (p : Nat) (f : Port → Port) : KeepsCommitted s (s.modPort p f) :=
  (sameButTraffic_modPort s p f).committed

theorem keepsCommitted_foldl {α : Type} {f : State → α → State} (hf : ∀ s a, KeepsCommitted s (f s a)) (as : List α)
    (s : State) : KeepsCommitted s (as.foldl f s) :=
  foldl_keeps (fun _ => .rfl) (fun _ _ _ => .trans) hf as s

/-! ### The bindings of contexts (R253, R255) -/

theorem keepsCommitted_refitSluice (s : State) (old : Conf) (k : Nat) (bwd : Bool) :
    KeepsCommitted s (s.refitSluice old k bwd) := by
  unfold State.refitSluice
  dsimp only
  split
  · exact .rfl
  · have hlog (x : State) (n : Nat) : KeepsCommitted x (if n = 0 then x else x.logDiscards k bwd n) := by
      split
      · exact .rfl
      · exact (sameButReports_logRec ..).traffic.committed
    have hempty (f : Ctx → Ctx) := (keepsCommitted_modCtx s k f).trans (hlog _ ((s.ctx k).sluice bwd).length)
    split
    · exact (hempty _).trans (keepsCommitted_modCtx ..)
    · split
      · exact (hempty _).trans (sameButTraffic_send ..).committed
      · exact hempty _

theorem keepsCommitted_draw (s : State) : KeepsCommitted s s.draw.2 := ⟨rfl, rfl, rfl, rfl, rfl⟩

theorem keepsCommitted_compareSide (s : State) (k : Nat) (prev : Bool) : KeepsCommitted s (s.compareSide k prev) := by
  unfold State.compareSide
  dsimp only
  have hnote (x : State) (bad : Bool) : KeepsCommitted x (if (x.ctx k).mismatch prev = bad then x
      else x.modCtx k (fun y => if prev then { y with prevMismatch := bad } else { y with nextMismatch := bad })) := by
    split
    · exact .rfl
    · exact keepsCommitted_modCtx ..
  refine .trans ?_ (hnote _ _)
  generalize (if prev = true then (s.ctxItem k).prevKind else (s.ctxItem k).nextKind) = kind
  split
  · exact .rfl
  · split
    · exact .rfl
    · exact keepsCommitted_draw s

theorem keepsCommitted_rebind (s : State) (old : Conf) (ks : List Nat) : KeepsCommitted s (s.rebind old ks) := by
  unfold State.rebind
  split
  · exact .rfl
  · exact (keepsCommitted_foldl (fun s k => (keepsCommitted_refitSluice s old k false).trans
      (keepsCommitted_refitSluice _ old k true)) ks s).trans
      ((keepsCommitted_foldl (fun s k => keepsCommitted_modCtx s k _) ks _).trans
        (keepsCommitted_foldl (fun s k => (keepsCommitted_compareSide s k true).trans
          (keepsCommitted_compareSide _ k false)) (List.range 16) _))

/-! ### The ports (R299 to R301) -/

theorem keepsCommitted_modTrain (s : State) (l : Link) (f : Train → Train) : KeepsCommitted s (s.modTrain l f) := by
  cases l with
  | port p => exact keepsCommitted_modPort ..
  | seam k => exact ⟨rfl, rfl, rfl, rfl, rfl⟩

theorem keepsCommitted_setTrain (s : State) (l : Link) (st : LState) : KeepsCommitted s (s.setTrain l st) := by
  unfold State.setTrain
  dsimp only
  split
  · exact .rfl
  · have htrain := keepsCommitted_modTrain s l (fun t => { t with state := st, lastChange := s.tide })
    cases l with
    | port p =>
      dsimp only
      split
      · exact htrain.trans (sameButReports_raise ..).traffic.committed
      · exact htrain
    | seam k => exact htrain

theorem keepsCommitted_partialRetrain (s : State) (p : Nat) : KeepsCommitted s (s.partialRetrain p) := by
  unfold State.partialRetrain
  split
  · exact (keepsCommitted_modPort ..).trans ((keepsCommitted_modTrain ..).trans (keepsCommitted_setTrain ..))
  · exact .rfl

theorem keepsCommitted_follow (s : State) (p : Nat) : KeepsCommitted s (s.follow p) := by
  unfold State.follow
  split
  · dsimp only
    refine .trans (keepsCommitted_modPort s p (fun x => { x with ckptUnits := 0 })) ?_
    split
    · exact keepsCommitted_setTrain ..
    · split
      · exact keepsCommitted_setTrain ..
      · split
        · exact .rfl
        · exact keepsCommitted_partialRetrain ..
  · exact .rfl

/-! ### The apply -/

/-- What an apply writes before its effects: the new configuration, and a commit point (R51, R57). -/
def State.enactConf (s : State) (g : Staged) : State := { s with
  conf := g.conf, staged := none
  signedSerial := if g.signed then g.serial + 1 else s.signedSerial
  time := { s.time with source := g.conf.keepsSource s.time.source }
  commit := { s.commit with
    configEpoch := s.commit.configEpoch + 1, lastConfigTide := s.tide, lastCommitTide := max s.commit.lastCommitTide s.tide } }

theorem keepsCommitted_measureConf (s : State) : KeepsCommitted s s.measureConf := ⟨rfl, rfl, rfl, rfl, rfl⟩

theorem keepsCommitted_applyConf (s : State) (g : Staged) : KeepsCommitted (s.enactConf g) (s.applyConf g) := by
  unfold State.applyConf
  refine (keepsCommitted_rebind (s.enactConf g) s.conf _).trans
    (.trans (keepsCommitted_foldl (fun x p => ?_) (List.range 24) _)
      (keepsCommitted_measureConf _))
  split
  · exact keepsCommitted_follow ..
  · exact .rfl

theorem applyOrRestore_none (s : State) (c : Cmd) (g : Staged) :
    s.applyOrRestore c g none = (({ s with commitWait := none } : State).applyConf g).complete c .ok 0 [] := rfl

/-- An item that does not take effect: nothing does (R57). -/
theorem applyOrRestore_some {i : Nat} (hi : i < g.keys.length) (s : State) (c : Cmd) :
    s.applyOrRestore c g (some i) = ({ s with commitWait := none } : State).complete c .faulted 0 [] :=
  if_pos (by simp [hi])

/-! ### CONFIG_STAGE -/

theorem exec_configStage (dt : Nat) (host : Option (List Byte)) (s : State) :
    exec (.configStage dt host) s = execConfigStage dt host s := rfl

theorem firstFail_eq_none {checks : List (Bool × Nat)} (h : ∀ x ∈ checks, x.1 = true) : firstFail checks = none := by
  induction checks with
  | nil => rfl
  | cons x xs ih =>
    rw [firstFail, h x (by simp)]
    exact ih (fun y hy => h y (by simp [hy]))

/-- Where a CONFIG_STAGE finds its image: in the module's memory, which nothing holds and nothing poisons, or in host
memory, which answers. -/
def ImageFound (u : State) (c : Cmd) (key : Nat) (host : Option (List Byte)) (img : List Byte) : Prop :=
  (addrSpace (c.param 8 8) ≠ 7 ∧ u.ownStops key (c.param 0x10 4) = false ∧
      u.firstPoison key (c.param 0x10 4) = none ∧ img = u.read key (c.param 0x10 4)) ∨
    (addrSpace (c.param 8 8) = 7 ∧ ∃ bs, host = some bs ∧ img = padTo (c.param 0x10 4) bs)

/-- A CONFIG_STAGE that finds its image answers as the image's check does (R418). -/
theorem configStage_of_found {dt key : Nat} {host : Option (List Byte)} {img : List Byte}
    (hstart : Starts s dt 0 0x70 c u) (hflags : c.param 0 1 < 2)
    (hkey : u.resolve [2, 4, 5, 7] none (c.param 8 8) (c.param 0x10 4) = some key) (hmin : 128 ≤ c.param 0x10 4)
    (hmax : c.param 0x10 4 ≤ 65536) (hreserved : ∀ i, (1 ≤ i ∧ i < 8) ∨ (20 ≤ i ∧ i < 128) → c.param i 1 = 0)
    (hwait : u.commitWait = none) (hserved : u.keyServed key = true) (hfound : ImageFound u c key host img) :
    exec (.configStage dt host) s = (match u.checkImage img ((c.param 0 1).testBit 0) with
      | .error (detail, body) => .next (u.complete c .badParam detail body)
      | .ok staged => .next (({ u with staged := some staged } : State).complete c .ok 0 [])) := by
  have hbytes : reservedFail c 128 [(0, 1), (8, 0xC)] = [] := reservedFail_eq_nil (fun i hi hfree =>
    hreserved i (by simp only [List.mem_cons, List.not_mem_nil, or_false, forall_eq_or_imp, forall_eq] at hfree; omega))
  rw [exec_configStage, execConfigStage, show (s.advance dt).take 0 0x70 = some (c, u) from hstart]
  dsimp only
  rw [firstFail_eq_none ?checks, hkey, hwait]
  case checks =>
    rw [hbytes]
    simp [State.inSpace, hflags, hkey, hmin, hmax]
  rcases hfound with ⟨hspace, hfree, hclean, rfl⟩ | ⟨hspace, bs, rfl, rfl⟩
  · have hlocal : (addrSpace (c.param 8 8) == 7) = false := beq_eq_false_iff_ne.mpr hspace
    simp only [hlocal, Option.getD_some, hfree, hserved, hclean, Option.isSome_none]
    rfl
  · simp only [hspace, Option.getD_some, hserved, Option.isSome_none]
    rfl

/-! ### CONFIG_COMMIT -/

theorem exec_configCommit (a : ApplyIn) (s : State) : exec (.configCommit a) s = execConfigCommit a s := rfl

/-- A CONFIG_COMMIT with a staged set: it applies, is deferred, or waits (R53, R56). -/
def State.commitStaged (s : State) (c : Cmd) (faultAt : Option Nat) (g : Staged) : Result :=
  if s.quiescent g && !s.closeDue then .next ((s.applyOrRestore c g faultAt).replayHeldBar)
  else if c.param 0 4 = 0 && !s.closeDue then .next (s.complete c .deferred 0 [])
  else .next (({ s with commitWait := some { cmd := c.ref, deadline := s.tide + 1000 * c.param 0 4 } } : State).setWait
    c.ref .quiescent (some (s.tide + 1000 * c.param 0 4)))

/-- A CONFIG_COMMIT that passes its checks while none waits (R56). -/
theorem configCommit_of_checked {dt : Nat} (hstart : Starts s dt 0 0x71 c u) (htime : c.param 0 4 ≤ 60000000)
    (hreserved : ∀ i, 4 ≤ i → i < 64 → c.param i 1 = 0) (hwait : u.commitWait = none) (faultAt : Option Nat) :
    exec (.configCommit ⟨dt, faultAt⟩) s =
      u.staged.elim (.next (u.complete c .ok 0 [])) (u.commitStaged c faultAt) := by
  have hbytes : reservedFail c 64 [(0, 4)] = [] := reservedFail_eq_nil (fun i hi hfree =>
    hreserved i (by simp only [List.mem_singleton, forall_eq] at hfree; omega) hi)
  rw [exec_configCommit, execConfigCommit]
  dsimp only
  rw [show (s.advance dt).take 0 0x71 = some (c, u) from hstart]
  dsimp only
  rw [lowestFail_eq_none ?checks, hwait]
  case checks =>
    rw [hbytes]
    simp [htime]
  refine (if_neg (by simp)).trans ?_
  split <;> rename_i hstaged <;> exact (congrArg (fun x : Option Staged =>
    x.elim (.next (u.complete c .ok 0 [])) (u.commitStaged c faultAt)) hstaged).symm

/-! ### A set that waits -/

theorem exec_configApply (dt : Nat) (faultAt : Option Nat) (s : State) :
    exec (.configApply dt faultAt) s = execConfigApply dt faultAt s := rfl

theorem exec_configCommitTimeout (dt : Nat) (s : State) :
    exec (.configCommitTimeout dt) s = execConfigCommitTimeout dt s := rfl

theorem applyDue_eq {w : CommitWait} (hwait : s.commitWait = some w) (hstaged : s.staged = some g) :
    s.applyDue = (decide (s.tide ≤ w.deadline) && s.quiescent g) := by
  rw [State.applyDue, hwait, hstaged]

section Waiting

variable {w : CommitWait} (hwait : s.commitWait = some w) (hstaged : s.staged = some g)
  (hcmd : s.findCmd w.cmd = some c)

include hwait hstaged hcmd

/-- The first quiescent Tidemark of a set that waits, with no close due (R53, R56, R57). -/
theorem configApply_of_quiescent {dt : Nat} (hpast : (s.advance dt).tide ≤ w.deadline)
    (hquiet : (s.advance dt).quiescent g = true) (hopen : (s.advance dt).closeDue = false) (faultAt : Option Nat) :
    exec (.configApply dt faultAt) s = .next (((s.advance dt).applyOrRestore c g faultAt).replayHeldBar) := by
  have hdue : (s.advance dt).applyDue = true := by
    rw [applyDue_eq (s := s.advance dt) hwait hstaged, hquiet, decide_eq_true hpast]
    rfl
  have hcmd' : (s.advance dt).findCmd w.cmd = some c := hcmd
  rw [exec_configApply, execConfigApply]
  rw [advance_commitWait, advance_staged, hwait, hstaged]
  dsimp only
  rw [hdue, hopen, hcmd']
  rfl

/-- The end of the wait, where no close at the very deadline goes first (R53, R56). -/
theorem configCommitTimeout_of_past {dt : Nat} (hpast : w.deadline ≤ (s.advance dt).tide)
    (hopen : (s.advance dt).tide = w.deadline → (s.advance dt).closeDue = false) :
    exec (.configCommitTimeout dt) s = .next (if (s.advance dt).applyDue then
      ((s.advance dt).applyOrRestore c g none).replayHeldBar
      else (({ s.advance dt with commitWait := none } : State).complete c .deferred 0 []).replayHeldBar) := by
  have hcmd' : (s.advance dt).findCmd w.cmd = some c := hcmd
  have hover : (decide ((s.advance dt).tide < w.deadline) ||
      ((s.advance dt).tide == w.deadline && (s.advance dt).closeDue)) = false := by
    simpa [Nat.not_lt.mpr hpast] using hopen
  rw [exec_configCommitTimeout, execConfigCommitTimeout]
  dsimp only
  rw [advance_commitWait, advance_staged, hwait, hstaged]
  dsimp only
  rw [hover, hcmd']
  cases (s.advance dt).applyDue <;> rfl

end Waiting

/-- Settles O55: an apply's effects leave what its commit point wrote; each command by the lemma on it, at its guards. -/
theorem configurationsApplyWhole : Obligations.ConfigurationsApplyWhole := by
  refine ⟨fun s g => ?_, ?_, ?_, ?_⟩
  · obtain ⟨hconf, hstaged, hcommit, hmem, hlayers⟩ := keepsCommitted_applyConf s g
    exact ⟨hconf, hstaged, hcommit, hmem, hlayers⟩
  · intro dt s u c host key img hstart hflags hkey hmin hmax hreserved hwait hserved hfound
    have hexec := configStage_of_found hstart hflags hkey hmin hmax hreserved hwait hserved hfound
    refine ⟨fun d body hcheck => ?_, fun g hcheck => ?_⟩ <;> rw [hexec, hcheck]
  · intro dt s u c hstart htime hreserved hwait
    have hstagedU : u.staged = s.staged := (congrArg State.staged hstart.frame :)
    have hwaitU : u.commitWait = none := (congrArg State.commitWait hstart.frame :).trans hwait
    have hconfU : u.conf = s.conf := (congrArg State.conf hstart.frame :)
    have hmemU : u.mem = s.mem := (congrArg State.mem hstart.frame :)
    have hexec (faultAt : Option Nat) {x : Option Staged} (hx : s.staged = x) :
        exec (.configCommit ⟨dt, faultAt⟩) s = x.elim (.next (u.complete c .ok 0 [])) (u.commitStaged c faultAt) := by
      rw [configCommit_of_checked hstart htime hreserved hwaitU, hstagedU, hx]
    refine ⟨fun faultAt hnone => ?_, fun g hsome hquiet hopen => ?_, fun g faultAt hsome hquiet hopen hzero => ?_,
      fun g faultAt hsome hwaits => ?_⟩
    · exact hexec faultAt hnone
    · have happly (faultAt : Option Nat) : exec (.configCommit ⟨dt, faultAt⟩) s =
          .next ((u.applyOrRestore c g faultAt).replayHeldBar) := by
        exact (hexec faultAt hsome).trans (if_pos (by simp [hquiet, hopen]))
      exact ⟨by rw [happly, applyOrRestore_none], fun i hi => by rw [happly, applyOrRestore_some hi]⟩
    · refine (hexec faultAt hsome).trans ((if_neg ?_).trans (if_pos ?_))
      · simp [hquiet]
      · simp [hzero, hopen]
    · refine ⟨({ u with commitWait := some { cmd := c.ref, deadline := u.tide + 1000 * c.param 0 4 } } : State).setWait
        c.ref .quiescent (some (u.tide + 1000 * c.param 0 4)), ?_, hconfU, hstagedU.trans hsome, rfl, hmemU⟩
      refine (hexec faultAt hsome).trans ((if_neg ?_).trans (if_neg ?_))
      · rcases hwaits with ⟨hquiet, -⟩ | hclose
        · simp [hquiet]
        · simp [hclose]
      · rcases hwaits with ⟨-, htimed⟩ | hclose
        · simp [htimed]
        · simp [hclose]
  · intro dt s w g c hwait hstaged hcmd
    have hdue := applyDue_eq (s := s.advance dt) hwait hstaged
    refine ⟨fun hpast hquiet hopen => ?_, fun hlate => ?_, fun hend hopen => ?_⟩
    · have happly := configApply_of_quiescent hwait hstaged hcmd hpast hquiet hopen
      exact ⟨by rw [happly, applyOrRestore_none], fun i hi => by rw [happly, applyOrRestore_some hi]⟩
    · rw [configCommitTimeout_of_past hwait hstaged hcmd hlate.le (fun h => absurd h hlate.ne'), hdue,
        decide_eq_false (Nat.not_le.mpr hlate)]
      rfl
    · rw [configCommitTimeout_of_past hwait hstaged hcmd hend.ge (fun _ => hopen), hdue, decide_eq_true hend.le]
      exact ⟨fun hquiet => by rw [hquiet]; rfl, fun hquiet => by rw [hquiet, applyOrRestore_none]; rfl⟩

end Sys2Proof.Machine
end

section
/-! PROOF. The requests of a management controller: I3C and MCTP, SPDM, sensors and the register read (chapter 18). -/

namespace Sys2Proof.Machine

variable {s : State}

/-! ### Requests and responses -/

theorem reply_of_addressed (h : s.mgmt.dynAddr.isSome = true) (code : Nat) (body : List Byte) :
    s.reply code body = { s with mgmt := { s.mgmt with code := code, response := body } } := if_pos h

/-- Without a dynamic address no response leaves (R440). -/
theorem reply_of_unaddressed (h : s.mgmt.dynAddr = none) (code : Nat) (body : List Byte) : s.reply code body = s :=
  if_neg (by simp [h])

theorem serve_of_on (h : s.power.phase ≠ .off) (f : State → State) : s.serve f = .next (f s) :=
  if_pos (bne_iff_ne.mpr h)

theorem spdm_of_negotiated (h : s.mgmt.spdmNegotiated = true) (f : State → State) : s.spdm f = f s := if_pos h

theorem spdm_of_open (h : s.mgmt.spdmNegotiated = false) (f : State → State) :
    s.spdm f = s.reply spdmError [errUnexpected] := if_neg (Bool.eq_false_iff.mp h)

/-! ### Measurements (R422) -/

theorem measuredBlocks_of_one {index : Nat} (h1 : 1 ≤ index) (h10 : index ≤ 10) : measuredBlocks index = [index] :=
  (if_neg (by omega)).trans (if_neg (by omega))

theorem nine_mem_measuredBlocks {index : Nat} (h : 9 ∈ measuredBlocks index) : index = 9 ∨ index = 0xFF := by
  unfold measuredBlocks at h
  split at h
  · exact .inr (by assumption)
  · split at h
    · cases h
    · exact .inl (List.mem_singleton.mp h).symm

/-- What a GET_MEASUREMENTS answers: the count of blocks, or the blocks that it names. -/
def State.measured (s : State) (index : Nat) : List Byte :=
  if index = 0 then [10] else (measuredBlocks index).flatMap s.measurementBlock

theorem measured_of_one (s : State) {index : Nat} (h1 : 1 ≤ index) (h10 : index ≤ 10) :
    s.measured index = s.measurementBlock index := by
  rw [State.measured, if_neg (by omega), measuredBlocks_of_one h1 h10, List.flatMap_singleton]

theorem measured_of_all (s : State) :
    s.measured 0xFF = (List.range 10).flatMap (fun i => s.measurementBlock (i + 1)) := by
  rw [State.measured, if_neg (by decide), measuredBlocks, if_pos rfl, List.flatMap_map]

section Serving

variable (hon : s.power.phase ≠ .off)

include hon

/-! ### I3C and MCTP (R423) -/

theorem setdasa_of_on (dt static dynamic : Nat) : exec (.setdasa dt static dynamic) s = .next { s.advance dt with
    mgmt := { s.mgmt with dynAddr := if static = 0x10 + s.power.slotId then some dynamic else s.mgmt.dynAddr } } := by
  refine (serve_of_on (s := s.advance dt) hon _).trans ?_
  rw [advance_power]
  split <;> rfl

theorem entdaa_of_on (dt dynamic : Nat) : exec (.entdaa dt dynamic) s = .next { s.advance dt with
    mgmt := { s.mgmt with dynAddr := if s.mgmt.dynAddr.isNone then some dynamic else s.mgmt.dynAddr } } := by
  refine (serve_of_on (s := s.advance dt) hon _).trans ?_
  rw [advance_mgmt]
  split <;> rfl

theorem setEndpointId_of_on (dt : Nat) (eid : Byte) : exec (.setEndpointId dt eid) s =
    .next (({ s.advance dt with mgmt := { s.mgmt with eid := eid } } : State).reply 0 [eid]) := by
  change execSetEndpointId dt eid s = _
  refine (serve_of_on (s := s.advance dt) hon _).trans ?_
  rfl

theorem setEventReceiver_of_on (dt : Nat) (eid : Byte) : exec (.setEventReceiver dt eid) s =
    .next (({ s.advance dt with mgmt := { s.mgmt with eventReceiver := some eid } } : State).reply 0 []) := by
  change execSetEventReceiver dt eid s = _
  refine (serve_of_on (s := s.advance dt) hon _).trans ?_
  rfl

/-! ### SPDM (R421, R422) -/

theorem getVersion_of_on (dt : Nat) : exec (.getVersion dt) s = .next (({ s.advance dt with
    mgmt := { s.mgmt with spdmVersionSeen := true, spdmNegotiated := false } } : State).reply 0x04 [0x13]) := by
  change execGetVersion dt s = _
  refine (serve_of_on (s := s.advance dt) hon _).trans ?_
  rfl

theorem getCapabilities_of_on (dt : Nat) : exec (.getCapabilities dt) s =
    .next (if s.mgmt.spdmVersionSeen then (s.advance dt).reply 0x61 (toBytes 4 0x16)
      else (s.advance dt).reply spdmError [errUnexpected]) := by
  change execGetCapabilities dt s = _
  refine (serve_of_on (s := s.advance dt) hon _).trans ?_
  rfl

theorem negotiateAlgorithms_of_on (dt : Nat) (hash asym : Bool) : exec (.negotiateAlgorithms dt hash asym) s =
    .next (if !s.mgmt.spdmVersionSeen then (s.advance dt).reply spdmError [errUnexpected]
      else if hash && asym then ({ s.advance dt with mgmt := { s.mgmt with
        spdmNegotiated := true } } : State).reply 0x63 (toBytes 8 extAlgWord)
      else (s.advance dt).reply spdmError [errInvalid]) := by
  change execNegotiateAlgorithms dt hash asym s = _
  refine (serve_of_on (s := s.advance dt) hon _).trans ?_
  rfl

/-- NEGOTIATE_ALGORITHMS after a version: both of the module's algorithms must be offered. -/
theorem negotiateAlgorithms_of_seen (dt : Nat) (hseen : s.mgmt.spdmVersionSeen = true) (hash asym : Bool) :
    exec (.negotiateAlgorithms dt hash asym) s = .next (if hash && asym then ({ s.advance dt with mgmt := { s.mgmt with
        spdmNegotiated := true } } : State).reply 0x63 (toBytes 8 extAlgWord)
      else (s.advance dt).reply spdmError [errInvalid]) :=
  (negotiateAlgorithms_of_on hon dt hash asym).trans (congrArg _ (if_neg (by simp [hseen])))

theorem spdmOtherRequest_of_on (dt : Nat) (code : Byte) : exec (.spdmOtherRequest dt code) s =
    .next ((s.advance dt).reply spdmError [errUnsupported, code]) := by
  change execSpdmOtherRequest dt code s = _
  refine (serve_of_on (s := s.advance dt) hon _).trans ?_
  rfl

/-- The requests that need the negotiation, before it is done; a GET_MEASUREMENTS that waits for an apply is none yet. -/
theorem spdmRequest_of_open {dt slot index off len : Nat} {sign : Bool} {nonce : List Byte} {i : Instr}
    (hopen : s.mgmt.spdmNegotiated = false)
    (hi : i = .getDigests dt ∨ i = .getCertificate dt slot off len ∨ i = .challenge dt slot nonce ∨
      (i = .getMeasurements dt slot index sign nonce ∧ (9 ∉ measuredBlocks index ∨ (s.advance dt).applyDue = false))) :
    exec i s = .next ((s.advance dt).reply spdmError [errUnexpected]) := by
  have hanswer (f : State → State) : (s.advance dt).serve (fun s => s.spdm f) =
      .next ((s.advance dt).reply spdmError [errUnexpected]) :=
    (serve_of_on (s := s.advance dt) hon _).trans (congrArg _ (spdm_of_open (s := s.advance dt) hopen f))
  rcases hi with rfl | rfl | rfl | ⟨rfl, hread⟩
  · exact hanswer _
  · exact hanswer _
  · exact hanswer _
  · refine (if_neg ?_).trans (hanswer _)
    rcases hread with h9 | hdue
    · simp [h9]
    · simp [hdue]

/-- A request that needs the negotiation, once it is done. -/
theorem spdmRequest_of_negotiated (dt : Nat) (hdone : s.mgmt.spdmNegotiated = true) (f : State → State) :
    (s.advance dt).serve (fun s => s.spdm f) = .next (f (s.advance dt)) :=
  (serve_of_on (s := s.advance dt) hon _).trans (congrArg _ (spdm_of_negotiated (s := s.advance dt) hdone f))

section Negotiated

variable {dt slot : Nat} (hdone : s.mgmt.spdmNegotiated = true) (hslot : slot ≤ 1)

include hdone hslot

theorem getCertificate_of_negotiated (off len : Nat) : exec (.getCertificate dt slot off len) s =
    .next ((s.advance dt).reply 0x02 (((s.chain slot).drop off).take len)) :=
  (spdmRequest_of_negotiated hon dt hdone _).trans (congrArg _ (if_neg (by omega)))

/-- A challenge takes one free value, and changes nothing else but the management state. -/
theorem challenge_of_negotiated (nonce : List Byte) {body : List Byte}
    (hbody : body = Config.sha3 (s.chain slot) ++ toBytes 8 (Config.freeValue s.fresh).toNat) :
    exec (.challenge dt slot nonce) s = .next (({ s.advance dt with fresh := s.fresh + 1 } : State).reply 0x03
      (body ++ Config.mlDsaSign slot (s.slotKey slot) (nonce ++ body))) := by
  subst hbody
  exact (spdmRequest_of_negotiated hon dt hdone _).trans (congrArg _ (if_neg (by omega)))

/-- A GET_MEASUREMENTS of an index that there is, which waits for no apply: not ready while it names block 3 and the
cores rotate, else the blocks, signed where it asks for that. -/
theorem getMeasurements_of_negotiated {index : Nat} (hindex : index ≤ 10 ∨ index = 0xFF)
    (hread : 9 ∈ measuredBlocks index → (s.advance dt).applyDue = false) (sign : Bool) (nonce : List Byte) :
    exec (.getMeasurements dt slot index sign nonce) s =
      .next (if (measuredBlocks index).contains 3 && s.host.rotation.isSome then
        (s.advance dt).reply spdmError [errNotReady]
      else (s.advance dt).reply 0x60 (if sign then
        s.measured index ++ Config.mlDsaSign slot (s.slotKey slot) (nonce ++ s.measured index) else s.measured index)) := by
  have hwaits : ¬((measuredBlocks index).contains 9 && (s.advance dt).applyDue) = true := by
    simpa using hread
  have hvalid : ¬(decide (1 < slot) || (decide (10 < index) && index != 0xFF)) = true := by
    simp only [Bool.or_eq_true, Bool.and_eq_true, decide_eq_true_eq, bne_iff_ne, ne_eq]
    omega
  exact (if_neg hwaits).trans ((spdmRequest_of_negotiated hon dt hdone _).trans (congrArg _ (if_neg hvalid)))

theorem getMeasurements_of_measured {index : Nat} {body : List Byte} (hindex : index ≤ 10 ∨ index = 0xFF)
    (hread : 9 ∈ measuredBlocks index → (s.advance dt).applyDue = false)
    (hrotates : 3 ∈ measuredBlocks index → s.host.rotation = none) (hbody : body = s.measured index)
    (nonce : List Byte) :
    exec (.getMeasurements dt slot index false nonce) s = .next ((s.advance dt).reply 0x60 body) ∧
    exec (.getMeasurements dt slot index true nonce) s =
      .next ((s.advance dt).reply 0x60 (body ++ Config.mlDsaSign slot (s.slotKey slot) (nonce ++ body))) := by
  have hstill : ¬((measuredBlocks index).contains 3 && s.host.rotation.isSome) = true := by
    simpa using hrotates
  subst hbody
  exact ⟨(getMeasurements_of_negotiated hon hdone hslot hindex hread false nonce).trans (congrArg _ (if_neg hstill)),
    (getMeasurements_of_negotiated hon hdone hslot hindex hread true nonce).trans (congrArg _ (if_neg hstill))⟩

end Negotiated

/-! ### The register read (R427) -/

/-- An OEM_REGISTER_READ that reads nothing which an apply that is due changes. -/
theorem oemRegisterRead_of_free {dt off count : Nat}
    (hfree : (s.advance dt).applyDue = true → ∀ i, i < count → configReg (off + 8 * i) = false) :
    exec (.oemRegisterRead dt off count) s =
      .next (if s.power.step < 2 then (s.advance dt).reply pldmNotReady []
      else if off % 8 ≠ 0 || count = 0 || decide (64 < count) || decide (0x1000 < off + 8 * count) then
        (s.advance dt).reply pldmInvalidData []
      else (s.advance dt).reply 0 ((List.range count).flatMap (fun i =>
        toBytes 8 ((s.advance dt).globalWord (off + 8 * i))))) := by
  have hreads : ¬((s.advance dt).applyDue && (List.range count).any (fun i => configReg (off + 8 * i))) = true := by
    simpa using hfree
  exact (if_neg hreads).trans (serve_of_on (s := s.advance dt) hon _)

end Serving

/-- An OEM_REGISTER_READ of what an apply that is due changes waits for it (R52). -/
theorem oemRegisterRead_of_due {dt off count i : Nat} (hdue : (s.advance dt).applyDue = true) (hi : i < count)
    (hreg : configReg (off + 8 * i) = true) : exec (.oemRegisterRead dt off count) s = .next (s.advance dt) :=
  if_pos (by simpa [hdue] using ⟨i, hi, hreg⟩)

/-- A GET_MEASUREMENTS of the configuration waits for an apply that is due (R52). -/
theorem getMeasurements_of_due {dt index : Nat} (h9 : 9 ∈ measuredBlocks index)
    (hdue : (s.advance dt).applyDue = true) (slot : Nat) (sign : Bool) (nonce : List Byte) :
    exec (.getMeasurements dt slot index sign nonce) s = .next (s.advance dt) :=
  if_pos (by simp [h9, hdue])

theorem sensor_of_die (s : State) {n : Nat} (hn : n < 12) : s.sensor (0x10 + n) = some (s.die n).tj := by
  have hrange : (decide (0x10 ≤ 0x10 + n) && decide (0x10 + n < 0x1C)) = true := by
    simp only [Bool.and_eq_true, decide_eq_true_eq]
    omega
  rw [State.sensor, if_neg (by omega), if_neg (by omega), if_neg (by omega), if_neg (by omega), if_neg (by omega),
    if_neg (by omega), if_pos hrange, Nat.add_sub_cancel_left]

/-- Settles O59: the controller serves each request, and an SPDM request as far as the negotiation has come. -/
theorem managementRequestsAreAnswered : Obligations.ManagementRequestsAreAnswered := by
  rintro dt s u m hon rfl rfl
  refine ⟨fun v code body => ⟨fun h => reply_of_addressed h code body, fun h => reply_of_unaddressed h code body⟩,
    setdasa_of_on hon dt, entdaa_of_on hon dt, setEndpointId_of_on hon dt, setEventReceiver_of_on hon dt,
    getVersion_of_on hon dt, ?_, ?_,
    fun i slot index off len sign nonce hopen hi => spdmRequest_of_open hon hopen hi, ?_, fun i => rfl,
    fun slot index sign nonce h9 hdue => getMeasurements_of_due h9 hdue slot sign nonce,
    spdmOtherRequest_of_on hon dt, ?_, rfl, rfl, rfl, fun n hn => sensor_of_die s hn, ?_, ?_, ?_⟩
  · intro hseen
    exact ⟨(getCapabilities_of_on hon dt).trans (congrArg _ (if_pos hseen)),
      negotiateAlgorithms_of_seen hon dt hseen true true, negotiateAlgorithms_of_seen hon dt hseen false true,
      negotiateAlgorithms_of_seen hon dt hseen true false⟩
  · intro hunseen
    exact ⟨(getCapabilities_of_on hon dt).trans (congrArg _ (if_neg (Bool.eq_false_iff.mp hunseen))),
      fun a b => (negotiateAlgorithms_of_on hon dt a b).trans (congrArg _ (if_pos (by simp [hunseen])))⟩
  · intro slot nonce hdone hslot
    refine ⟨spdmRequest_of_negotiated hon dt hdone _, getCertificate_of_negotiated hon hdone hslot,
      fun body hbody => challenge_of_negotiated hon hdone hslot nonce hbody, ?_, ?_⟩
    · intro index body hblocks hread
      have hread' (h9 : 9 ∈ measuredBlocks index) := hread (nine_mem_measuredBlocks h9)
      rcases hblocks with ⟨h1, h10, rfl, hrotates⟩ | ⟨rfl, rfl⟩ | ⟨rfl, hstill, rfl⟩
      · refine getMeasurements_of_measured hon hdone hslot (.inl h10) hread' (fun h3 => hrotates ?_)
          (measured_of_one s h1 h10).symm nonce
        rw [measuredBlocks_of_one h1 h10] at h3
        exact (List.mem_singleton.mp h3).symm
      · exact getMeasurements_of_measured hon hdone hslot (.inl (by omega)) hread' (by simp [measuredBlocks]) rfl nonce
      · exact getMeasurements_of_measured hon hdone hslot (.inr rfl) hread' (fun _ => hstill) (measured_of_all s).symm nonce
    · intro sign hrotates
      refine (getMeasurements_of_negotiated hon hdone hslot (.inl (by omega)) (by simp [measuredBlocks]) sign
        nonce).trans (congrArg _ (if_pos ?_))
      simp [measuredBlocks, hrotates]
  · intro n
    change execGetSensorReading dt n s = _
    refine (serve_of_on (s := s.advance dt) hon _).trans ?_
    rfl
  · intro off count hstep hoff hcount hmax hend hfree
    refine (oemRegisterRead_of_free hon hfree).trans (congrArg _ ((if_neg (Nat.not_lt.mpr hstep)).trans (if_neg ?_)))
    simp only [Bool.or_eq_true, decide_eq_true_eq, ne_eq]
    omega
  · rintro off count hdue ⟨i, hi, hreg⟩
    exact oemRegisterRead_of_due hdue hi hreg
  · intro off count hdue hstep
    exact (oemRegisterRead_of_free hon (fun h => absurd h (by simp [hdue]))).trans (congrArg _ (if_pos hstep))

end Sys2Proof.Machine
end

section
/-! PROOF. What a completion leaves: its ring's books, its slot, its signal and its write-back record (chapter 03). -/

namespace Sys2Proof.Machine

variable {s : State}

/-! ### Bits of a word -/

theorem withBit_true_testBit (x : W64) {j k : Nat} (hk : k < 64) :
    (withBit x j true).toNat.testBit k = (x.toNat.testBit k || decide (k = j)) := by
  rw [withBit, if_pos rfl, BitVec.toNat_or, Nat.testBit_or, BitVec.toNat_ofNat, Nat.testBit_mod_two_pow,
    Nat.testBit_two_pow]
  simp [hk, eq_comm]

/-! ### Signals (R68) -/

theorem setSignal_signal (s : State) (j : Nat) {k : Nat} (hk : k < 64) :
    (s.setSignal j).signal k = true ↔ k = j ∨ s.signal k = true := by
  rw [State.signal, State.setSignal]
  simp [withBit_true_testBit _ hk, State.signal, or_comm]

theorem foldl_setSignal_signal (s : State) (js : List Nat) {k : Nat} (hk : k < 64) :
    (js.foldl State.setSignal s).signal k = true ↔ s.signal k = true ∨ k ∈ js := by
  induction js generalizing s with
  | nil => simp
  | cons j js ih => rw [List.foldl_cons, ih, setSignal_signal s j hk, List.mem_cons]; tauto

theorem setSignals_signal (s : State) (m : W64) {k : Nat} (hk : k < 64) :
    (s.setSignals m).signal k = true ↔ s.signal k = true ∨ m.toNat.testBit k = true := by
  rw [State.setSignals, foldl_setSignal_signal s _ hk, mem_bitsSet]
  simp [hk]

theorem clearSignals_signal (s : State) (m : W64) {k : Nat} (hk : k < 64) :
    (s.clearSignals m).signal k = true ↔ s.signal k = true ∧ m.toNat.testBit k = false := by
  rw [State.signal, State.clearSignals, State.signal]
  simp only [BitVec.testBit_toNat, BitVec.getLsbD_and, BitVec.getLsbD_not, hk, decide_true, Bool.true_and,
    Bool.and_eq_true, Bool.not_eq_true']

/-! ### Result slots (R74) -/

theorem tabFind_tabDel_same {α : Type} (t : Tab α) (n : Nat) : tabFind (tabDel t n) n = none := by
  induction t with
  | nil => rfl
  | cons e t ih =>
    rw [tabDel, List.filter_cons]
    split
    · next h => exact (if_neg (by simpa using h)).trans ih
    · exact ih

theorem tabFind_tabDel_ne {α : Type} (t : Tab α) {n m : Nat} (h : m ≠ n) : tabFind (tabDel t n) m = tabFind t m := by
  induction t with
  | nil => rfl
  | cons e t ih =>
    rw [tabDel, List.filter_cons]
    split
    · exact congrArg (fun x => if e.1 = m then some e.2 else x) ih
    · next he =>
      have hkey : e.1 ≠ m := fun hm => h (hm ▸ by simpa using he)
      exact ih.trans (by simp [tabFind, hkey])

theorem freeSlot_slot (s : State) (r k : Nat) : (s.freeSlot r k).slot r k = none := tabFind_tabDel_same ..

theorem freeSlot_slot_ne (s : State) {r k q m : Nat} (h : slotKey q m ≠ slotKey r k) :
    (s.freeSlot r k).slot q m = s.slot q m := tabFind_tabDel_ne _ h

variable {c : Cmd} {k : Nat} {x : Slot}

/-- The slot of a command with the command's result (R74, R78). -/
def State.resultIn (s : State) (c : Cmd) (st : Status) (detail : Nat) (body : List Byte) (x : Slot) : Slot := { x with
  ready := true, marked := false, late := c.late, status := st, startTide := c.start.getD 0, doneTide := s.tide
  configEpoch := s.commit.configEpoch, stepNumber := s.commit.stepNumber, detail := detail
  body := padTo 64 body, readyAt := (s.ring c.ring).everFetched }

theorem readySlot_of_held (hc : c.slot = some k) (hx : s.slot c.ring k = some x) (st : Status) (detail : Nat)
    (body : List Byte) : s.readySlot c st detail body = s.setSlot c.ring k (s.resultIn c st detail body x) := by
  simp only [State.readySlot, hc, hx]
  rfl

theorem fillSlot_of_none (hc : c.slot = none) (st : Status) (detail : Nat) (body : List Byte) :
    s.fillSlot c st detail body = s := by
  simp [State.fillSlot, hc]

theorem fillSlot_of_free (hc : c.slot = some k) (hx : s.slot c.ring k = none) (st : Status) (detail : Nat)
    (body : List Byte) : s.fillSlot c st detail body = s := by
  simp [State.fillSlot, hc, hx]

theorem fillSlot_of_marked (hc : c.slot = some k) (hx : s.slot c.ring k = some x) (hmarked : x.marked = true)
    (st : Status) (detail : Nat) (body : List Byte) : s.fillSlot c st detail body = s.freeSlot c.ring k := by
  simp [State.fillSlot, hc, hx, hmarked]

theorem fillSlot_of_unmarked (hc : c.slot = some k) (hx : s.slot c.ring k = some x) (hmarked : x.marked = false)
    (st : Status) (detail : Nat) (body : List Byte) :
    s.fillSlot c st detail body = s.setSlot c.ring k (s.resultIn c st detail body x) := by
  rw [← readySlot_of_held hc hx]
  simp [State.fillSlot, hc, hx, hmarked]

/-- A completion fills or frees the slot that its command names, and touches no other. -/
theorem fillSlot_slot_ne {r m : Nat} (h : c.slot = none ∨ slotKey r m ≠ slotKey c.ring (c.slot.getD 0)) (st : Status)
    (detail : Nat) (body : List Byte) : (s.fillSlot c st detail body).slot r m = s.slot r m := by
  cases hc : c.slot with
  | none => rw [fillSlot_of_none hc]
  | some k =>
    have hkey : slotKey r m ≠ slotKey c.ring k := by simpa [hc] using h
    cases hx : s.slot c.ring k with
    | none => rw [fillSlot_of_free hc hx]
    | some x =>
      cases hmarked : x.marked with
      | true => rw [fillSlot_of_marked hc hx hmarked, freeSlot_slot_ne s hkey]
      | false => rw [fillSlot_of_unmarked hc hx hmarked, setSlot_slot_ne _ _ _ _ _ _ hkey]

theorem fillSlot_ring (st : Status) (detail : Nat) (body : List Byte) (q : Nat) :
    (s.fillSlot c st detail body).ring q = s.ring q := by
  rw [fillSlot_eq]
  rfl

/-! ### The parts of a completion (R78, R79) -/

/-- RING_DONE counts the completion. -/
def State.countDone (s : State) (c : Cmd) : State :=
  s.modRing c.ring (fun x => { x with completed := x.completed + 1, lastTide := s.tide })

/-- The write-back record, where the ring has one. -/
def State.writeBack (s : State) (c : Cmd) (st : Status) : State :=
  if (s.ring c.ring).wbEn then
    s.writeHost (s.ring c.ring).wbAddr.toNat (writeBackRecord (s.ring c.ring).completed c.seq st s.tide)
  else s

/-- DONE_SIGNAL. -/
def State.signalDone (s : State) (c : Cmd) (st : Status) : State :=
  match c.doneSignal with
  | some j => if st = .ok then s.setSignal j else s
  | none => s

/-- The interrupt, where the command asks for one. -/
def State.interruptDone (s : State) (c : Cmd) : State := if c.int then s.countInt c.ring else s

/-- The command leaves its ring; an UPDATE_LAYER leaves the Tidemark that STEP_VERDICT counts from. -/
def State.leaveRing (s : State) (c : Cmd) : State :=
  if c.opcode = 0x40 then { s.dropCmd c with step := { s.step with lastUpdate := s.tide } } else s.dropCmd c

theorem announce_eq (s : State) (c : Cmd) (st : Status) :
    s.announce c st = (((s.countDone c).writeBack c st).signalDone c st).interruptDone c := rfl

theorem complete_of_silent (h : c.silent = true) (st : Status) (detail : Nat) (body : List Byte) :
    s.complete c st detail body = s.leaveRing c := if_pos h

theorem complete_of_traced (h : c.silent = false) (st : Status) (detail : Nat) (body : List Byte) :
    s.complete c st detail body = ((s.leaveRing c).fillSlot c st detail body).announce c st :=
  if_neg (Bool.eq_false_iff.mp h)

/-! ### What each part leaves -/

theorem leaveRing_eq (s : State) (c : Cmd) : s.leaveRing c = { s with
    host := { s.host with rings := (s.dropCmd c).host.rings }
    step := { s.step with lastUpdate := if c.opcode = 0x40 then s.tide else s.step.lastUpdate } } := by
  rw [State.leaveRing]
  split <;> rfl

theorem leaveRing_ring (s : State) (c : Cmd) (q : Nat) : (s.leaveRing c).ring q = (s.dropCmd c).ring q := by
  rw [leaveRing_eq]
  rfl

theorem dropCmd_ring (s : State) (c : Cmd) : (s.dropCmd c).ring c.ring = { s.ring c.ring with
    cmds := ((s.dropCmd c).ring c.ring).cmds, prior := ((s.dropCmd c).ring c.ring).prior
    blockedUntil := ((s.dropCmd c).ring c.ring).blockedUntil } := by
  rw [State.dropCmd, modRing_ring]

theorem leaveRing_slot (s : State) (c : Cmd) (r k : Nat) : (s.leaveRing c).slot r k = s.slot r k := by
  rw [leaveRing_eq]
  rfl

/-- Leaving the ring changes nothing of what a result is made of. -/
theorem leaveRing_resultIn (s : State) (c : Cmd) (st : Status) (detail : Nat) (body : List Byte) (x : Slot) :
    (s.leaveRing c).resultIn c st detail body x = s.resultIn c st detail body x := by
  rw [State.resultIn, leaveRing_ring, dropCmd_ring, leaveRing_eq]
  rfl

/-- No command of the fetch number stays in the ring. -/
theorem dropCmd_cmds_fetchOrder (s : State) {d : Cmd} (hd : d ∈ ((s.dropCmd c).ring c.ring).cmds) :
    d.fetchOrder ≠ c.fetchOrder := by
  rw [State.dropCmd, modRing_ring] at hd
  obtain ⟨e, he, rfl⟩ := List.mem_map.mp hd
  have hne : e.fetchOrder ≠ c.fetchOrder := by simpa using (List.mem_filter.mp he).2
  split
  · exact hne
  · exact hne

theorem writeBack_eq (s : State) (c : Cmd) (st : Status) : s.writeBack c st = { s with mem := (s.writeBack c st).mem } := by
  rw [State.writeBack]
  split <;> rfl

theorem writeBack_mem (s : State) (c : Cmd) (st : Status) : (s.writeBack c st).mem = if (s.ring c.ring).wbEn then
    memWriteBytes s.mem (hostKey (s.ring c.ring).wbAddr.toNat)
      (writeBackRecord (s.ring c.ring).completed c.seq st s.tide)
    else s.mem := by
  rw [State.writeBack, apply_ite State.mem]
  rfl

theorem signalDone_eq (s : State) (c : Cmd) (st : Status) : s.signalDone c st = { s with host := { s.host with
    signals := (s.signalDone c st).host.signals, signalTide := (s.signalDone c st).host.signalTide } } := by
  rw [State.signalDone]
  split
  · split <;> rfl
  · rfl

theorem interruptDone_eq (s : State) (c : Cmd) : s.interruptDone c = { s with host := { s.host with
    rings := (s.interruptDone c).host.rings, pba := (s.interruptDone c).host.pba
    msixSent := (s.interruptDone c).host.msixSent } } := by
  rw [State.interruptDone]
  split
  · rw [countInt_eq]
  · rfl

theorem countDone_ring (s : State) (c : Cmd) : (s.countDone c).ring c.ring = { s.ring c.ring with
    completed := (s.ring c.ring).completed + 1, lastTide := s.tide } := modRing_ring ..

theorem countDone_ring_ne (s : State) (c : Cmd) {q : Nat} (h : q ≠ c.ring) : (s.countDone c).ring q = s.ring q :=
  modRing_ring_ne _ _ _ _ h

theorem writeBack_ring (s : State) (c : Cmd) (st : Status) (q : Nat) : (s.writeBack c st).ring q = s.ring q := by
  rw [writeBack_eq]
  rfl

theorem signalDone_ring (s : State) (c : Cmd) (st : Status) (q : Nat) : (s.signalDone c st).ring q = s.ring q := by
  rw [signalDone_eq]
  rfl

/-- A completion's record, signal and interrupt: what `announce` does not change. -/
theorem announce_frame (s : State) (c : Cmd) (st : Status) : s.announce c st = { s with
    mem := (s.announce c st).mem
    host := { s.host with
      rings := (s.announce c st).host.rings, signals := (s.announce c st).host.signals
      signalTide := (s.announce c st).host.signalTide, pba := (s.announce c st).host.pba
      msixSent := (s.announce c st).host.msixSent } } := by
  rw [announce_eq, interruptDone_eq, signalDone_eq, writeBack_eq]
  rfl

/-! ### The ring of a completion -/

/-- An interrupt that is counted changes the counts of its ring alone. -/
theorem countInt_ring (s : State) (r : Nat) : (s.countInt r).ring r = { s.ring r with
    pendingInts := ((s.countInt r).ring r).pendingInts, oldestInt := ((s.countInt r).ring r).oldestInt } := by
  unfold State.countInt
  dsimp only
  split
  · rw [sendRingInt_ring_self, modRing_ring]
  · rw [modRing_ring]

theorem countInt_ring_ne (s : State) {r q : Nat} (h : q ≠ r) : (s.countInt r).ring q = s.ring q := by
  unfold State.countInt
  dsimp only
  split
  · rw [sendRingInt_ring_ne h, modRing_ring_ne _ _ _ _ h]
  · rw [modRing_ring_ne _ _ _ _ h]

theorem announce_ring (s : State) (c : Cmd) (st : Status) : (s.announce c st).ring c.ring = { s.ring c.ring with
    completed := (s.ring c.ring).completed + 1, lastTide := s.tide
    pendingInts := ((s.announce c st).ring c.ring).pendingInts
    oldestInt := ((s.announce c st).ring c.ring).oldestInt } := by
  rw [announce_eq, State.interruptDone]
  split
  · rw [countInt_ring, signalDone_ring, writeBack_ring, countDone_ring]
  · rw [signalDone_ring, writeBack_ring, countDone_ring]

theorem announce_ring_ne (s : State) (c : Cmd) (st : Status) {q : Nat} (h : q ≠ c.ring) :
    (s.announce c st).ring q = s.ring q := by
  rw [announce_eq, State.interruptDone]
  split
  · rw [countInt_ring_ne _ h, signalDone_ring, writeBack_ring, countDone_ring_ne _ _ h]
  · rw [signalDone_ring, writeBack_ring, countDone_ring_ne _ _ h]

theorem announce_slot (s : State) (c : Cmd) (st : Status) (r k : Nat) : (s.announce c st).slot r k = s.slot r k := by
  rw [announce_frame]
  rfl

section Traced

variable (htraced : c.silent = false) (st : Status) (detail : Nat) (body : List Byte)

include htraced

theorem complete_ring : (s.complete c st detail body).ring c.ring = { (s.dropCmd c).ring c.ring with
    completed := (s.ring c.ring).completed + 1, lastTide := s.tide
    pendingInts := ((s.complete c st detail body).ring c.ring).pendingInts
    oldestInt := ((s.complete c st detail body).ring c.ring).oldestInt } := by
  have hcount : ((s.dropCmd c).ring c.ring).completed = (s.ring c.ring).completed := by rw [dropCmd_ring]
  rw [complete_of_traced htraced, announce_ring, fillSlot_ring, leaveRing_ring, hcount, fillSlot_eq, leaveRing_eq]

theorem complete_slot (r k : Nat) : (s.complete c st detail body).slot r k =
    ((s.leaveRing c).fillSlot c st detail body).slot r k := by
  rw [complete_of_traced htraced, announce_slot]

end Traced

/-- Settles O8: RING_DONE by the completion's count, the slot by what the completion finds there. -/
theorem completionLeavesItsResult : Obligations.CompletionLeavesItsResult := by
  intro s c st detail body htraced
  have hring := complete_ring (s := s) htraced st detail body
  have hslot := complete_slot (s := s) htraced st detail body
  refine ⟨by rw [hring], by rw [hring], ?_, ?_, ?_, ?_⟩
  · intro d hd
    rw [hring] at hd
    exact dropCmd_cmds_fetchOrder s hd
  · intro k x hc hx hmarked
    rw [hslot, fillSlot_of_unmarked hc ((leaveRing_slot ..).trans hx) hmarked, setSlot_slot, leaveRing_resultIn,
      State.resultIn, ← hmarked]
  · intro k x hc hx hmarked
    rw [hslot, fillSlot_of_marked hc ((leaveRing_slot ..).trans hx) hmarked, freeSlot_slot]
  · intro r k hother
    rw [hslot, fillSlot_slot_ne hother, leaveRing_slot]

/-! ### The write-back record (R78) -/

/-- In canonical form, a run of bytes written reads back. -/
theorem memReadBytes_memWriteBytes {m : List Host.Cell} (a : Nat) (bs : List Byte) (h : Memory.wf m = true) :
    memReadBytes (memWriteBytes m a bs) a bs.length = bs := by
  induction bs generalizing m a with
  | nil => rfl
  | cons b bs ih =>
    have hfirst : memRead (memWriteBytes (memWrite m a b) (a + 1) bs) a = b := by
      rw [memRead_memWriteBytes_out _ _ _ _ (.inl (Nat.lt_succ_self a)), memRead_memWrite_same a b h]
    have hrest := ih (a + 1) (memWrite_wf a b h)
    rw [memReadBytes] at hrest
    rw [memReadBytes, List.length_cons, List.range_succ_eq_map, List.map_cons, List.map_map, memWriteBytes]
    refine congrArg₂ (· :: ·) hfirst (Eq.trans (List.map_congr_left fun i _ => ?_) hrest)
    exact congrArg (memRead _) (by simp only [Nat.succ_eq_add_one]; omega)

theorem readHost_writeHost (hinv : s.Inv) (a : Nat) (bs : List Byte) : (s.writeHost a bs).readHost a bs.length = bs :=
  memReadBytes_memWriteBytes _ bs hinv.1

theorem toBytes_length (n x : Nat) : (toBytes n x).length = n := by
  induction n generalizing x with
  | zero => rfl
  | succ n ih => rw [toBytes, List.length_cons, ih]

theorem writeBackRecord_length (n : W32) (seq : W16) (st : Status) (tide : Nat) :
    (writeBackRecord n seq st tide).length = 16 := by
  simp [writeBackRecord, toBytes_length]

/-- A completion writes its ring's record, and no other byte of memory (R78). -/
theorem complete_mem (htraced : c.silent = false) (st : Status) (detail : Nat) (body : List Byte) :
    (s.complete c st detail body).mem = if (s.ring c.ring).wbEn then
      memWriteBytes s.mem (hostKey (s.ring c.ring).wbAddr.toNat)
        (writeBackRecord ((s.ring c.ring).completed + 1) c.seq st s.tide)
    else s.mem := by
  have hannounce (t : State) : (t.announce c st).mem = ((t.countDone c).writeBack c st).mem := by
    rw [announce_eq, interruptDone_eq, signalDone_eq]
  have hkept : (((s.leaveRing c).fillSlot c st detail body).countDone c).mem = s.mem ∧
      (((s.leaveRing c).fillSlot c st detail body).countDone c).tide = s.tide := by
    rw [fillSlot_eq, leaveRing_eq]
    exact ⟨rfl, rfl⟩
  rw [complete_of_traced htraced, hannounce, writeBack_mem, hkept.1, hkept.2, countDone_ring, fillSlot_ring,
    leaveRing_ring, dropCmd_ring]

/-- What any completion changes (R46, R78). -/
theorem complete_frame (s : State) (c : Cmd) (st : Status) (detail : Nat) (body : List Byte) :
    s.complete c st detail body = { s with
      host := (s.complete c st detail body).host, mem := (s.complete c st detail body).mem
      step := { s.step with lastUpdate := if c.opcode = 0x40 then s.tide else s.step.lastUpdate } } := by
  cases hsilent : c.silent with
  | true => rw [complete_of_silent hsilent, leaveRing_eq]
  | false => rw [complete_of_traced hsilent, announce_frame, fillSlot_eq, leaveRing_eq]

theorem complete_ring_ne (s : State) (c : Cmd) (st : Status) (detail : Nat) (body : List Byte) {q : Nat}
    (h : q ≠ c.ring) : (s.complete c st detail body).ring q = s.ring q := by
  have hleave : (s.leaveRing c).ring q = s.ring q := by
    rw [leaveRing_ring, State.dropCmd, modRing_ring_ne _ _ _ _ h]
  cases hsilent : c.silent with
  | true => rw [complete_of_silent hsilent, hleave]
  | false => rw [complete_of_traced hsilent, announce_ring_ne _ _ _ h, fillSlot_ring, hleave]

/-- Settles O9: the record is the one write of a completion to memory; each part of the completion has its frame. -/
theorem completionWritesBack : Obligations.CompletionWritesBack := by
  intro s c st detail body
  refine ⟨?_, ?_, ?_, complete_frame .., fun r h => complete_ring_ne _ _ _ _ _ h, ?_⟩
  · intro hinv htraced hwb
    have hread := readHost_writeHost hinv (s.ring c.ring).wbAddr.toNat
      (writeBackRecord ((s.ring c.ring).completed + 1) c.seq st s.tide)
    rw [writeBackRecord_length] at hread
    rwa [State.readHost, complete_mem htraced, if_pos hwb]
  · intro htraced hwb x hx
    rw [complete_mem htraced, if_pos hwb]
    exact memRead_memWriteBytes_out _ _ _ _ (by rwa [writeBackRecord_length])
  · intro hwb
    cases hsilent : c.silent with
    | true => rw [complete_of_silent hsilent, leaveRing_eq]
    | false => rw [complete_mem hsilent, if_neg (Bool.eq_false_iff.mp hwb)]
  · intro hsilent
    rw [complete_of_silent hsilent, leaveRing_eq]
    exact ⟨rfl, rfl, rfl, rfl⟩

/-! ### The signal of a completion -/

theorem signalDone_signal (s : State) (c : Cmd) (st : Status) {j : Nat} (hj : j < 64) :
    (s.signalDone c st).signal j = true ↔ s.signal j = true ∨ (st = .ok ∧ c.doneSignal = some j) := by
  cases hd : c.doneSignal with
  | none => simp [State.signalDone, hd]
  | some i =>
    by_cases hst : st = .ok
    · have hset : s.signalDone c st = s.setSignal i := by simp [State.signalDone, hd, hst]
      rw [hset, setSignal_signal s i hj, Option.some_inj, or_comm, and_iff_right hst, eq_comm (a := j)]
    · simp [State.signalDone, hd, hst]

theorem complete_signal (htraced : c.silent = false) (st : Status) (detail : Nat) (body : List Byte) {j : Nat}
    (hj : j < 64) : (s.complete c st detail body).signal j = true ↔
      s.signal j = true ∨ (st = .ok ∧ c.doneSignal = some j) := by
  have hleft (t : State) : (t.announce c st).signal j = (((t.countDone c).writeBack c st).signalDone c st).signal j := by
    rw [announce_eq, interruptDone_eq]
    rfl
  rw [complete_of_traced htraced, hleft, signalDone_signal _ _ _ hj, writeBack_eq, fillSlot_eq, leaveRing_eq]
  rfl

/-- Settles O10: a completion sets its DONE_SIGNAL at most, and each operation on the signals acts bit by bit. -/
theorem signalsSetAndClear : Obligations.SignalsSetAndClear :=
  ⟨fun _ _ st detail body _ htraced hj => complete_signal htraced st detail body hj,
    fun s j _ m _ hk => ⟨setSignal_signal s j hk, clearSignals_signal s m hk, setSignals_signal s m hk,
      setSignals_eq s m⟩⟩

end Sys2Proof.Machine
end

section
/-! PROOF. Reset values, and the resets of the host side: function-level reset and PERST_N (chapters 03, 18 and 19). -/

namespace Sys2Proof.Machine

/-- Settles O4: nothing is listed at reset, so that each value is the one that an unlisted object holds. -/
theorem resetValues : Obligations.ResetValues :=
  ⟨⟨reset_mem_wf, rfl⟩, rfl, rfl, rfl, fun _ => ⟨rfl, rfl, rfl, rfl, rfl⟩, rfl, rfl, rfl, rfl, rfl, rfl, rfl, rfl, rfl,
    rfl, rfl, fun _ => rfl, fun _ => rfl, fun _ => rfl⟩

/-! ### The host side after a reset (R61, R457) -/

variable {s : State}

/-- What a reset leaves of ring `r`: its core, the count of its packets, and the commands that have started, which go
on without a trace. -/
def Ring.afterHostReset (r : Nat) (x : Ring) : Ring := { ringReset r with
  core := x.core, everFetched := x.everFetched, cmds := x.started.map (fun c => { c with silent := true }) }

/-- A table that is changed entry by entry, where what an unlisted number holds is changed to itself. -/
theorem tabGet_map_entries {α : Type} {d : α} {n : Nat} {f : Nat → α → α} (hd : f n d = d) (t : Tab α) :
    tabGet d (t.map (fun e => (e.1, f e.1 e.2))) n = f n (tabGet d t n) := by
  induction t with
  | nil => exact hd.symm
  | cons e t ih =>
    rw [List.map_cons, tabGet, tabGet, ih]
    split
    · next h => rw [← h]
    · rfl

theorem hostReset_ring (s : State) (r : Nat) : s.hostReset.ring r = (s.ring r).afterHostReset r :=
  tabGet_map_entries (d := ringReset r) (n := r) (f := fun q x => x.afterHostReset q) rfl s.host.rings

/-! ### The dispatch of the resets, and what they do -/

theorem exec_functionLevelReset (dt : Nat) (s : State) :
    exec (.functionLevelReset dt) s = .next (s.advance dt).hostReset := rfl

theorem exec_perstAssert (dt : Nat) (s : State) : exec (.perstAssert dt) s = .next { (s.advance dt).hostReset with
    power := { s.power with
      perstReleased := false, linkUp := false
      step := if s.power.phase = .serving && s.power.step = 10 then 9 else s.power.step } } := rfl

theorem exec_perstRelease (dt : Nat) (s : State) : exec (.perstRelease dt) s = execPerstRelease dt s := rfl

/-- Released in service, after step 9, PERST_N lets the link train (R408). -/
theorem perstRelease_of_ready (dt : Nat) (hready : s.power.ready = true) (hphase : s.power.phase = .serving)
    (hrefclk : s.power.refclkOk = true) (hstep : s.power.step ≠ 9) : exec (.perstRelease dt) s =
      .next { s.advance dt with power := { s.power with perstReleased := true, linkUp := true } } := by
  rw [exec_perstRelease, execPerstRelease]
  exact (if_neg (by simp [hphase])).trans ((if_neg (by simp [hstep])).trans (if_pos (by simp [hready, hrefclk])))

/-- Released in step 9 of a module that serves, it lets step 10 begin (R443). -/
theorem perstRelease_of_step9 (dt : Nat) (hphase : s.power.phase = .serving) (hstep : s.power.step = 9)
    (hrefclk : s.power.refclkOk = true) : exec (.perstRelease dt) s =
      .next ({ s.advance dt with power := { s.power with perstReleased := true } } : State).linkReady := by
  rw [exec_perstRelease, execPerstRelease]
  exact (if_neg (by simp [hphase])).trans (if_pos (by simp [hphase, hstep, hrefclk]))

/-- Settles O16: both resets are the host side's, which a release leaves alone. -/
theorem hostResets : Obligations.HostResets := by
  intro dt s
  refine ⟨⟨_, exec_functionLevelReset dt s, rfl, rfl, rfl, hostReset_ring (s.advance dt)⟩,
    ⟨_, exec_perstAssert dt s, rfl, rfl, rfl, rfl, fun r => ?_, rfl⟩, perstRelease_of_ready dt, ?_⟩
  · have hring := hostReset_ring (s.advance dt) r
    exact ⟨congrArg Ring.enable hring, congrArg Ring.tail hring, congrArg Ring.cmds hring⟩
  · intro hphase hstep hrefclk
    exact ⟨_, perstRelease_of_step9 dt hphase hstep hrefclk, rfl, rfl, rfl⟩

end Sys2Proof.Machine
end

section
/-! PROOF. BAR0's ring blocks and result slots (chapter 03): RING_BASE, RING_CONTROL, doorbells, ring resets and slot reads. -/

namespace Sys2Proof.Machine

section RingBlock

variable {s t u : State}

/-! ### What a write to a ring block changes -/

/-- Two states that differ at most in ring `r`, in what is recorded and in the interrupts sent. -/
def SameButRing (r : Nat) (s t : State) : Prop := (∀ q, q ≠ r → t.ring q = s.ring q) ∧ t = { s with
  log := t.log, power := { s.power with faultLow := t.power.faultLow }, mgmt := { s.mgmt with events := t.mgmt.events }
  host := { s.host with rings := t.host.rings, pba := t.host.pba, msixSent := t.host.msixSent } }

theorem SameButRing.rfl {r : Nat} : SameButRing r s s := ⟨fun _ _ => Eq.refl _, Eq.refl s⟩

theorem SameButRing.ring {r q : Nat} (h : SameButRing r s t) (hq : q ≠ r) : t.ring q = s.ring q := h.1 q hq

theorem SameButRing.trans {r : Nat} (hst : SameButRing r s t) (htu : SameButRing r t u) : SameButRing r s u := by
  refine ⟨fun q hq => (htu.ring hq).trans (hst.ring hq), Eq.trans htu.2 ?_⟩
  exact congrArg (fun x : State => { x with
    log := u.log, power := { x.power with faultLow := u.power.faultLow }, mgmt := { x.mgmt with events := u.mgmt.events }
    host := { x.host with rings := u.host.rings, pba := u.host.pba, msixSent := u.host.msixSent } }) hst.2

/-- What such a change leaves as it was. -/
theorem SameButRing.keeps {r : Nat} (h : SameButRing r s t) : t.tide = s.tide ∧ t.commit = s.commit ∧ t.mem = s.mem ∧
    t.host.slots = s.host.slots ∧ t.host.signals = s.host.signals ∧ t.host.held = s.host.held ∧
    t.power.ready = s.power.ready :=
  have hhost := (congrArg State.host h.2 :)
  ⟨(congrArg State.tide h.2 :), (congrArg State.commit h.2 :), (congrArg State.mem h.2 :),
    (congrArg HostPort.slots hhost :), (congrArg HostPort.signals hhost :), (congrArg HostPort.held hhost :),
    (congrArg Power.ready (congrArg State.power h.2) :)⟩

theorem sameButRing_modRing (s : State) (r : Nat) (f : Ring → Ring) : SameButRing r s (s.modRing r f) :=
  ⟨fun _ hq => modRing_ring_ne _ _ _ _ hq, Eq.refl _⟩

theorem discardedWrite_ring (s : State) (off : Nat) (v : W64) (q : Nat) : (s.discardedWrite off v).ring q = s.ring q := by
  rw [State.discardedWrite, logRec_eq]
  rfl

theorem sameButRing_discardedWrite (s : State) (r off : Nat) (v : W64) : SameButRing r s (s.discardedWrite off v) := by
  refine ⟨fun q _ => discardedWrite_ring s off v q, ?_⟩
  rw [State.discardedWrite, logRec_eq]

/-- A discarded write is recorded, unless its record is dropped (R395, R453). -/
theorem discardedWrite_recorded (s : State) (off : Nat) (v : W64) :
    (s.discardedWrite off v).log.written = s.log.written + 1 ∨
      ∃ x ∈ (s.discardedWrite off v).log.rates, x.dropped = true := by
  unfold State.discardedWrite State.logRec State.logFlag
  dsimp only
  split
  · exact .inr ⟨_, List.mem_cons_self, rfl⟩
  · rw [writeLog_eq]
    exact .inl rfl

/-- Nothing that waits for a close goes on where the ring keeps its commands (R52). -/
theorem SameButRing.closeDue {r : Nat} (h : SameButRing r s t) (hcmds : (t.ring r).cmds = (s.ring r).cmds) :
    t.closeDue = s.closeDue := by
  obtain ⟨htide, hcommit, -⟩ := h.keeps
  refine closeDue_congr ?_ htide (congrArg Commit.stepNumber hcommit)
  by_cases hr : r = 0
  · exact hr ▸ hcmds
  · rw [h.ring (Ne.symm hr)]

/-! ### A write to a ring block -/

/-- Address of the register at `k` of ring `r`'s block. -/
def ringReg (r k : Nat) : Nat := 0x10000 + 0x100 * r + k

/-- A write to the block of a ring that is served reaches the ring's registers (R12, R464). -/
theorem access_ringReg {r : Fin 17} {k size : Nat} (hk : k < 0x100) (hsize : size = 4 ∨ size = 8) (halign : k % size = 0)
    (hserved : s.ringPaused r = false) (v : W64) : s.access true (ringReg r k) size v =
      (s.writeRing r (ringReg r k) size v).getD (s.discardedWrite (ringReg r k) v) := by
  have hr := r.isLt
  have hring : (ringReg r k - 0x10000) / 0x100 = r := by rw [ringReg]; omega
  have hshape : (!((size == 4 || size == 8) && ringReg r k % size == 0)) = false := by
    rcases hsize with rfl | rfl <;> simp [ringReg] <;> omega
  have hheld : s.accessHeld true (ringReg r k) = false := by simp [State.accessHeld, hring, hserved]
  have htry : s.tryWrite (ringReg r k) size v = s.writeRing r (ringReg r k) size v := by
    have hlow : 0x10000 ≤ ringReg r k := by rw [ringReg]; omega
    have hhigh : ringReg r k < 0x11100 := by rw [ringReg]; omega
    rw [State.tryWrite, hring, if_neg (by simp only [Bool.and_eq_true, decide_eq_true_eq]; omega),
      if_neg (by simp only [Bool.and_eq_true, decide_eq_true_eq]; omega), if_pos (by simp [hlow, hhigh])]
  rw [State.access, hshape, hheld, if_neg Bool.false_ne_true, if_neg Bool.false_ne_true, if_pos rfl, State.barWrite, htry]
  cases s.writeRing r (ringReg r k) size v <;> rfl

theorem lowMask_getLsbD {i : Nat} (hi : i < 32) : (BitVec.ofNat 64 0xFFFFFFFF).getLsbD i = true := by
  rw [show 0xFFFFFFFF = 2 ^ 32 - 1 from rfl, BitVec.getLsbD_ofNat, Nat.testBit_two_pow_sub_one]
  simp [hi, hi.trans (show 32 < 64 by decide)]

/-- RING_BASE takes a write while ENABLE is 0 (R63). -/
theorem writeRing_base (s : State) (r : Nat) (v : W64) : s.writeRing r (ringReg r 0) 8 v =
    if (s.ring r).enable then none
    else some (s.modRing r (fun x => { x with base := v &&& ~~~(BitVec.ofNat 64 0xFFF) })) := by
  have hreg : ringReg r 0 % 0x100 = 0 := by rw [ringReg]; omega
  rw [State.writeRing, hreg]
  cases henable : (s.ring r).enable <;> simp [regPart]

theorem writeRing_doorbell (s : State) (r : Nat) (tail : W32) :
    s.writeRing r (ringReg r 0x10) 4 (tail.zeroExtend 64) = some (s.doorbell r tail) := by
  have hreg : ringReg r 0x10 % 0x100 = 0x10 := by rw [ringReg]; omega
  have hlow : ringReg r 0x10 % 8 ≠ 4 := by rw [ringReg]; omega
  have htail : (tail.zeroExtend 64 &&& BitVec.ofNat 64 0xFFFFFFFF).truncate 32 = tail := by
    refine BitVec.eq_of_getLsbD_eq (fun i hi => ?_)
    rw [BitVec.truncate_eq_setWidth, BitVec.getLsbD_setWidth, BitVec.getLsbD_and, lowMask_getLsbD hi]
    simp [hi, hi.trans (show 32 < 64 by decide)]
  rw [State.writeRing, hreg, ← congrArg (some <| s.doorbell r ·) htail]
  exact if_neg hlow

/-! ### RING_CONTROL (R63) -/

theorem bits_congr {x y lo len : Nat} (h : ∀ i, i < len → x.testBit (lo + i) = y.testBit (lo + i)) :
    bits x lo len = bits y lo len := by
  refine Nat.eq_of_testBit_eq (fun i => ?_)
  by_cases hi : i < len
  · simp [bits, Nat.testBit_mod_two_pow, hi, h i hi]
  · simp [bits, Nat.testBit_mod_two_pow, hi]

/-- A write of the low half gives the register's low half its bits. -/
theorem maskedWrite_low_testBit (old : W64) (w : W32) {i : Nat} (hi : i < 32) :
    (maskedWrite old (w.zeroExtend 64 &&& BitVec.ofNat 64 0xFFFFFFFF) (BitVec.ofNat 64 0xFFFFFFFF)).toNat.testBit i =
      w.toNat.testBit i := by
  have hmask := lowMask_getLsbD hi
  simp only [maskedWrite, BitVec.testBit_toNat, BitVec.getLsbD_or, BitVec.getLsbD_and, BitVec.getLsbD_not, hmask]
  simp
  omega

/-- The fields of RING_CONTROL but for ENABLE and RESET. -/
def Ring.withFields (x : Ring) (new : Nat) : Ring := { x with
  sizeLog2 := if x.enable then x.sizeLog2 else bits new 8 5, vector := bits new 16 6, wbEn := new.testBit 24 }

/-- ENABLE is asked for, and not set: the module is not READY, or SIZE_LOG2 lies outside 6 to 16. -/
def Ring.refuses (x : Ring) (ready : Bool) (new : Nat) : Bool :=
  new.testBit 0 && !x.enable && !(ready && decide (6 ≤ x.sizeLog2) && decide (x.sizeLog2 ≤ 16))

/-- The ring after a write of RING_CONTROL that does not reset. -/
def Ring.withControl (x : Ring) (ready : Bool) (new : Nat) : Ring :=
  { x.withFields new with enable := new.testBit 0 && !(x.withFields new).refuses ready new }

def State.recordIf (s : State) (b : Bool) (off : Nat) (v : W64) : State := if b then s.discardedWrite off v else s

/-- The write's fields are taken. -/
def State.takeFields (s : State) (r off : Nat) (v : W64) (new : Nat) : State :=
  (s.recordIf ((s.ring r).enable && bits new 8 5 != (s.ring r).sizeLog2) off v).modRing r (fun x => x.withFields new)

/-- Its ENABLE is taken after them. -/
def State.takeControl (s : State) (r off : Nat) (v : W64) (new : Nat) : State :=
  let t := s.takeFields r off v new
  let refuse := (t.ring r).refuses t.power.ready new
  (t.recordIf refuse off v).modRing r (fun x => { x with enable := new.testBit 0 && !refuse })

theorem sameButRing_recordIf (s : State) (r : Nat) (b : Bool) (off : Nat) (v : W64) :
    SameButRing r s (s.recordIf b off v) := by
  rw [State.recordIf]
  split
  · exact sameButRing_discardedWrite ..
  · exact .rfl

theorem recordIf_ring (s : State) (b : Bool) (off : Nat) (v : W64) (q : Nat) : (s.recordIf b off v).ring q = s.ring q := by
  rw [State.recordIf]
  split
  · exact discardedWrite_ring ..
  · rfl

theorem sameButRing_takeFields (s : State) (r off : Nat) (v : W64) (new : Nat) :
    SameButRing r s (s.takeFields r off v new) := (sameButRing_recordIf ..).trans (sameButRing_modRing ..)

theorem takeFields_ring (s : State) (r off : Nat) (v : W64) (new : Nat) :
    (s.takeFields r off v new).ring r = (s.ring r).withFields new := by
  rw [State.takeFields, modRing_ring, recordIf_ring]

theorem sameButRing_takeControl (s : State) (r off : Nat) (v : W64) (new : Nat) :
    SameButRing r s (s.takeControl r off v new) :=
  (sameButRing_takeFields ..).trans ((sameButRing_recordIf ..).trans (sameButRing_modRing ..))

theorem takeControl_ring (s : State) (r off : Nat) (v : W64) (new : Nat) :
    (s.takeControl r off v new).ring r = (s.ring r).withControl s.power.ready new := by
  obtain ⟨-, -, -, -, -, -, hready⟩ := (sameButRing_takeFields s r off v new).keeps
  rw [State.takeControl, modRing_ring, recordIf_ring, takeFields_ring, hready]
  rfl

/-- A refused ENABLE of a disabled ring is recorded (R63, R453). -/
theorem takeControl_recorded {r off new : Nat} (v : W64) (hdisabled : (s.ring r).enable = false)
    (hrefuse : ((s.ring r).withFields new).refuses s.power.ready new = true) :
    (s.takeControl r off v new).log.written = s.log.written + 1 ∨
      ∃ x ∈ (s.takeControl r off v new).log.rates, x.dropped = true := by
  have hfields : s.takeFields r off v new = s.modRing r (fun x => x.withFields new) := by
    simp [State.takeFields, State.recordIf, hdisabled]
  have hlog : (s.takeControl r off v new).log =
      ((s.modRing r (fun x => x.withFields new)).discardedWrite off v).log := by
    rw [State.takeControl, hfields, modRing_ring, modRing_power, hrefuse, State.recordIf, if_pos rfl, modRing_log]
  rw [hlog]
  exact discardedWrite_recorded ..

/-- What RING_CONTROL takes from a write of its low half. -/
def State.newControl (s : State) (r : Nat) (v : W32) : Nat :=
  (maskedWrite (BitVec.ofNat 64 (ringControlWord (s.ring r))) (v.zeroExtend 64 &&& BitVec.ofNat 64 0xFFFFFFFF)
    (BitVec.ofNat 64 0xFFFFFFFF)).toNat

theorem newControl_testBit (s : State) (r : Nat) (v : W32) {i : Nat} (hi : i < 32) :
    (s.newControl r v).testBit i = v.toNat.testBit i := maskedWrite_low_testBit _ _ hi

/-- The ring takes the written fields themselves: all lie in the low half. -/
theorem newControl_withFields (s : State) (r : Nat) (v : W32) (x : Ring) :
    x.withFields (s.newControl r v) = x.withFields v.toNat := by
  have hbits {lo len : Nat} (h : lo + len ≤ 32) : bits (s.newControl r v) lo len = bits v.toNat lo len :=
    bits_congr fun i hi => newControl_testBit s r v (by omega)
  rw [Ring.withFields, hbits (by decide), hbits (by decide), newControl_testBit s r v (by decide), Ring.withFields]

theorem newControl_refuses (s : State) (r : Nat) (v : W32) (x : Ring) (ready : Bool) :
    x.refuses ready (s.newControl r v) = x.refuses ready v.toNat := by
  rw [Ring.refuses, newControl_testBit s r v (by decide), Ring.refuses]

/-- A write of the low half of RING_CONTROL, but for its RESET. -/
def State.writeControl (s : State) (r : Nat) (v : W32) : State :=
  s.takeControl r (ringReg r 8) (v.zeroExtend 64 &&& BitVec.ofNat 64 0xFFFFFFFF) (s.newControl r v)

theorem sameButRing_writeControl (s : State) (r : Nat) (v : W32) : SameButRing r s (s.writeControl r v) :=
  sameButRing_takeControl ..

theorem writeControl_ring (s : State) (r : Nat) (v : W32) :
    (s.writeControl r v).ring r = (s.ring r).withControl s.power.ready v.toNat := by
  rw [State.writeControl, takeControl_ring, Ring.withControl, newControl_refuses, newControl_withFields,
    newControl_testBit s r v (by decide), Ring.withControl]

theorem writeControl_recorded {r : Nat} {v : W32} (hdisabled : (s.ring r).enable = false)
    (hrefuse : ((s.ring r).withFields v.toNat).refuses s.power.ready v.toNat = true) :
    (s.writeControl r v).log.written = s.log.written + 1 ∨ ∃ x ∈ (s.writeControl r v).log.rates, x.dropped = true :=
  takeControl_recorded _ hdisabled (by rwa [newControl_refuses, newControl_withFields])

theorem writeRing_control (s : State) (r : Nat) (v : W32) : s.writeRing r (ringReg r 8) 4 (v.zeroExtend 64) =
    some (if v.toNat.testBit 1 then (s.writeControl r v).resetRing r else s.writeControl r v) := by
  have hreg : ringReg r 8 % 0x100 = 8 := by rw [ringReg]; omega
  have hreset : (v.zeroExtend 64 &&& BitVec.ofNat 64 0xFFFFFFFF &&& BitVec.ofNat 64 0xFFFFFFFF).toNat.testBit 1 =
      v.toNat.testBit 1 := by
    rw [BitVec.testBit_toNat, BitVec.testBit_toNat, BitVec.getLsbD_and, BitVec.getLsbD_and, lowMask_getLsbD (by decide)]
    simp
  rw [State.writeRing, hreg, ← hreset]
  rfl

end RingBlock

section RingRows

variable {s t : State} {r : Fin 17}

/-! ### The dispatch of the rows -/

theorem exec_ringBaseWrite (dt : Nat) (r : Fin 17) (v : W64) (s : State) :
    exec (.registerWrite dt (0x10000 + 0x100 * r) 8 v) s = (s.advance dt).host0 true (ringReg r 0) 8 v := rfl

theorem exec_ringDoorbell (dt : Nat) (r : Fin 17) (tail : W32) (s : State) :
    exec (.ringDoorbell dt r tail) s = (s.advance dt).host0 true (ringReg r 0x10) 4 (tail.zeroExtend 64) := rfl

theorem exec_ringEnable {v : W32} (h : v.toNat.testBit 1 = false) (dt : Nat) (r : Fin 17) (s : State) :
    exec (.ringEnable dt r v) s = (s.advance dt).host0 true (ringReg r 8) 4 (v.zeroExtend 64) :=
  if_neg (Bool.eq_false_iff.mp h)

theorem exec_ringReset {v : W32} (h : v.toNat.testBit 1 = true) (dt : Nat) (r : Fin 17) (s : State) :
    exec (.ringReset dt r v) s = (s.advance dt).host0 true (ringReg r 8) 4 (v.zeroExtend 64) := if_pos h

/-! ### Writes through the host port -/

section Served

variable (hlink : s.power.linkUp = true) (hserved : s.ringPaused r = false)

include hlink hserved

/-- A write that a register takes, and that takes no due close away, is all that happens. -/
theorem host0_of_taken {k size : Nat} {v : W64} (hk : k < 0x100) (hsize : size = 4 ∨ size = 8) (halign : k % size = 0)
    (hwrite : s.writeRing r (ringReg r k) size v = some t) (hclose : t.closeDue = s.closeDue) :
    s.host0 true (ringReg r k) size v = .next t := by
  rw [host0_of_linkUp hlink, access_ringReg hk hsize halign hserved, hwrite, Option.getD_some,
    afterClose_of_closeDue_eq hclose]

/-- RING_BASE of a disabled ring (R63). -/
theorem ringBase_of_disabled (henable : (s.ring r).enable = false) (v : W64) : s.host0 true (ringReg r 0) 8 v =
    .next (s.modRing r (fun x => { x with base := v &&& ~~~(BitVec.ofNat 64 0xFFF) })) := by
  refine host0_of_taken hlink hserved (by decide) (.inr rfl) rfl ?_ ?_
  · rw [writeRing_base, henable]
    rfl
  · exact (sameButRing_modRing ..).closeDue (by rw [modRing_ring])

/-- RING_BASE of an enabled ring discards the write (R63, R453). -/
theorem ringBase_of_enabled (henable : (s.ring r).enable = true) (v : W64) :
    s.host0 true (ringReg r 0) 8 v = .next (s.discardedWrite (ringReg r 0) v) := by
  have hclose : (s.discardedWrite (ringReg r 0) v).closeDue = s.closeDue :=
    (sameButRing_discardedWrite s r _ v).closeDue (by rw [discardedWrite_ring])
  rw [host0_of_linkUp hlink, access_ringReg (by decide) (.inr rfl) rfl hserved, writeRing_base, if_pos henable,
    Option.getD_none, afterClose_of_closeDue_eq hclose]

/-- A write of RING_CONTROL that does not reset (R63). -/
theorem ringControl_of_no_reset {v : W32} (hreset : v.toNat.testBit 1 = false) :
    s.host0 true (ringReg r 8) 4 (v.zeroExtend 64) = .next (s.writeControl r v) := by
  refine host0_of_taken hlink hserved (by decide) (.inl rfl) rfl ?_ ?_
  · rw [writeRing_control, if_neg (Bool.eq_false_iff.mp hreset)]
  · exact (sameButRing_writeControl ..).closeDue (by rw [writeControl_ring]; rfl)

/-- A doorbell is taken by its ring alone (R64). -/
theorem ringDoorbell_of_served {tail : W32} (hclose : (s.doorbell r tail).closeDue = s.closeDue) :
    s.host0 true (ringReg r 0x10) 4 (tail.zeroExtend 64) = .next (s.doorbell r tail) :=
  host0_of_taken hlink hserved (by decide) (.inl rfl) rfl (writeRing_doorbell s r tail) hclose

end Served

/-- Settles O22: by the one equation of each register of the ring's block. -/
theorem ringBaseAndSize : Obligations.RingBaseAndSize := by
  intro dt r s hlink hserved
  have hlink' : (s.advance dt).power.linkUp = true := hlink
  refine ⟨?_, ?_, ?_⟩
  · intro v henable
    exact ⟨_, (exec_ringBaseWrite dt r v s).trans (ringBase_of_disabled hlink' hserved henable v), modRing_ring ..,
      fun q hq => modRing_ring_ne _ _ _ _ hq⟩
  · intro v henable
    exact (exec_ringBaseWrite dt r v s).trans (ringBase_of_enabled hlink' hserved henable v)
  · intro v hreset
    have hring : ((s.advance dt).writeControl r v).ring r = (s.ring r).withControl s.power.ready v.toNat :=
      writeControl_ring (s.advance dt) r v
    refine ⟨_, (exec_ringEnable hreset dt r s).trans (ringControl_of_no_reset hlink' hserved hreset), ?_, ?_, ?_, ?_⟩
    · intro henable
      simp [hring, Ring.withControl, Ring.withFields, henable]
    · intro henable
      simp [hring, Ring.withControl, Ring.withFields, henable]
    · intro henable hask hbad
      have hrefuse : ((s.ring r).withFields v.toNat).refuses s.power.ready v.toNat = true := by
        simp [Ring.refuses, Ring.withFields, henable, hask]
        omega
      refine ⟨?_, writeControl_recorded (s := s.advance dt) henable hrefuse⟩
      rw [hring, Ring.withControl, hrefuse]
      simp
    · intro hready hask hlow hhigh
      rw [hring]
      cases henable : (s.ring r).enable with
      | true => simp [Ring.withControl, Ring.refuses, Ring.withFields, henable, hask]
      | false => simp [Ring.withControl, Ring.refuses, Ring.withFields, henable, hready, hask, hlow, hhigh]

end RingRows

section RingResets

variable {s t : State}

/-! ### Halts (R65) -/

theorem halt_ring (s : State) (r cause : Nat) :
    (s.halt r cause).ring r = { s.ring r with halted := true, haltCause := cause } := by
  rw [State.halt, raise_ring, modRing_ring]

theorem sameButRing_halt (s : State) (r cause : Nat) : SameButRing r s (s.halt r cause) := by
  refine ⟨fun q hq => ?_, by rw [halt_eq]⟩
  rw [State.halt, raise_ring, modRing_ring_ne _ _ _ _ hq]

/-! ### Doorbells (R64) -/

/-- A doorbell within the queue's size sets TAIL. -/
theorem doorbell_of_fits {r : Nat} {tail : W32} (h : (tail - (s.ring r).head).toNat ≤ 2 ^ (s.ring r).sizeLog2) :
    (s.doorbell r tail).ring r = { s.ring r with tail := tail } ∧ (∀ q, q ≠ r → (s.doorbell r tail).ring q = s.ring q) ∧
      s.doorbell r tail = { s with host := { s.host with rings := (s.doorbell r tail).host.rings } } := by
  by_cases hsame : (s.ring r).tail = tail
  · rw [show s.doorbell r tail = s from if_pos hsame]
    exact ⟨by rw [← hsame], fun _ _ => rfl, rfl⟩
  · have hset : s.doorbell r tail = s.modRing r (fun x => { x with tail := tail }) :=
      (if_neg hsame).trans (if_neg (by rw [decide_eq_false (Nat.not_lt.mpr h)]; exact Bool.false_ne_true))
    rw [hset]
    exact ⟨modRing_ring .., fun q hq => modRing_ring_ne _ _ _ _ hq, modRing_eq ..⟩

/-- One beyond it halts the ring. -/
theorem doorbell_of_overrun {r : Nat} {tail : W32} (hnew : tail ≠ (s.ring r).tail)
    (h : 2 ^ (s.ring r).sizeLog2 < (tail - (s.ring r).head).toNat) (hrunning : (s.ring r).halted = false) :
    s.doorbell r tail = (s.modRing r (fun x => { x with tail := tail })).halt r 4 :=
  (if_neg (Ne.symm hnew)).trans (if_pos (by rw [decide_eq_true h, hrunning]; rfl))

theorem doorbell_keeps_cmds (s : State) (r : Nat) (tail : W32) :
    ((s.doorbell r tail).ring r).cmds = (s.ring r).cmds := by
  rw [State.doorbell]
  dsimp only
  split
  · rfl
  · split
    · rw [halt_ring, modRing_ring]
    · rw [modRing_ring]

theorem sameButRing_doorbell (s : State) (r : Nat) (tail : W32) : SameButRing r s (s.doorbell r tail) := by
  rw [State.doorbell]
  dsimp only
  split
  · exact .rfl
  · split
    · exact (sameButRing_modRing ..).trans (sameButRing_halt ..)
    · exact sameButRing_modRing ..

/-! ### Slots of dropped commands (R66) -/

/-- Slot `k` of ring `r` holds ABORTED. -/
def State.Aborted (s : State) (r k : Nat) : Prop := ∃ y, s.slot r k = some y ∧ y.ready = true ∧ y.status = .aborted

variable {r k : Nat}

theorem readySlot_eq (s : State) (c : Cmd) (st : Status) (detail : Nat) (body : List Byte) : s.readySlot c st detail body =
    { s with host := { s.host with slots := (s.readySlot c st detail body).host.slots } } := by
  unfold State.readySlot
  split
  · rfl
  · split <;> rfl

/-- A dropped command gives ABORTED to the slot that it names, and leaves every other. -/
theorem readySlot_aborted_or_same (s : State) (c : Cmd) (r k : Nat) :
    (s.readySlot c .aborted 0 []).Aborted r k ∨ (s.readySlot c .aborted 0 []).slot r k = s.slot r k := by
  cases hc : c.slot with
  | none => exact .inr (by simp [State.readySlot, hc])
  | some m =>
    cases hx : s.slot c.ring m with
    | none => exact .inr (by simp [State.readySlot, hc, hx])
    | some x =>
      rw [readySlot_of_held hc hx]
      by_cases hkey : slotKey r k = slotKey c.ring m
      · refine .inl ⟨s.resultIn c .aborted 0 [] x, ?_, rfl, rfl⟩
        rw [State.slot, hkey]
        exact tabFind_tabSet_same ..
      · exact .inr (setSlot_slot_ne _ _ _ _ _ _ hkey)

theorem readySlot_aborted_of_named {c : Cmd} (hring : c.ring = r) (hslot : c.slot = some k)
    (hheld : (s.slot r k).isSome = true) : (s.readySlot c .aborted 0 []).Aborted r k := by
  subst hring
  obtain ⟨x, hx⟩ := Option.isSome_iff_exists.mp hheld
  rw [readySlot_of_held hslot hx]
  exact ⟨s.resultIn c .aborted 0 [] x, setSlot_slot .., rfl, rfl⟩

theorem readySlot_keeps_aborted (h : s.Aborted r k) (c : Cmd) : (s.readySlot c .aborted 0 []).Aborted r k := by
  rcases readySlot_aborted_or_same s c r k with haborted | hsame
  · exact haborted
  · obtain ⟨y, hy, hready, hstatus⟩ := h
    exact ⟨y, hsame.trans hy, hready, hstatus⟩

theorem readySlot_keeps_held (h : (s.slot r k).isSome = true) (c : Cmd) :
    ((s.readySlot c .aborted 0 []).slot r k).isSome = true := by
  rcases readySlot_aborted_or_same s c r k with ⟨y, hy, -⟩ | hsame
  · rw [hy]; rfl
  · rw [hsame]; exact h

/-- Slots of the commands of a list, each given ABORTED. -/
def State.abortSlots (s : State) (gone : List Cmd) : State := gone.foldl (fun st c => st.readySlot c .aborted 0 []) s

theorem abortSlots_eq (s : State) (gone : List Cmd) :
    s.abortSlots gone = { s with host := { s.host with slots := (s.abortSlots gone).host.slots } } := by
  induction gone generalizing s with
  | nil => rfl
  | cons c gone ih =>
    have hstep : s.abortSlots (c :: gone) = (s.readySlot c .aborted 0 []).abortSlots gone := rfl
    rw [hstep, ih, readySlot_eq]

theorem abortSlots_keeps_aborted (h : s.Aborted r k) (gone : List Cmd) : (s.abortSlots gone).Aborted r k := by
  induction gone generalizing s with
  | nil => exact h
  | cons c gone ih => exact ih (readySlot_keeps_aborted h c)

theorem abortSlots_of_named {gone : List Cmd} {c : Cmd} (hc : c ∈ gone) (hring : c.ring = r) (hslot : c.slot = some k)
    (hheld : (s.slot r k).isSome = true) : (s.abortSlots gone).Aborted r k := by
  induction gone generalizing s with
  | nil => cases hc
  | cons d gone ih =>
    rcases List.mem_cons.mp hc with rfl | hc
    · exact abortSlots_keeps_aborted (readySlot_aborted_of_named hring hslot hheld) gone
    · exact ih hc (readySlot_keeps_held hheld d)

/-! ### Ring resets (R66) -/

/-- What a reset leaves of a ring. -/
def Ring.afterReset (x : Ring) : Ring := { x with
  cmds := x.started, enable := false, head := 0, tail := 0, fetched := 0, nextSeq := 0, rejects := 0, completed := 0
  halted := false, haltCause := 0, prior := .none }

theorem dropUnstarted_eq (s : State) (r : Nat) : s.dropUnstarted r =
    (s.modRing r (fun x => { x with cmds := x.started })).abortSlots (s.ring r).unstarted := rfl

theorem abortSlots_ring (s : State) (gone : List Cmd) (q : Nat) : (s.abortSlots gone).ring q = s.ring q := by
  rw [abortSlots_eq]
  rfl

theorem resetRing_ring (s : State) (r : Nat) : (s.resetRing r).ring r = (s.ring r).afterReset := by
  rw [State.resetRing, modRing_ring, dropUnstarted_eq, abortSlots_ring, modRing_ring, Ring.afterReset]

theorem resetRing_ring_ne (s : State) {r q : Nat} (h : q ≠ r) : (s.resetRing r).ring q = s.ring q := by
  rw [State.resetRing, modRing_ring_ne _ _ _ _ h, dropUnstarted_eq, abortSlots_ring, modRing_ring_ne _ _ _ _ h]

/-- Two states that differ at most in the host port's rings and slots. -/
def SameButRingsAndSlots (s t : State) : Prop :=
  t = { s with host := { s.host with rings := t.host.rings, slots := t.host.slots } }

theorem SameButRingsAndSlots.keeps (h : SameButRingsAndSlots s t) : t.tide = s.tide ∧ t.commit = s.commit ∧
    t.mem = s.mem ∧ t.host.signals = s.host.signals ∧ t.host.held = s.host.held :=
  have heq : t = { s with host := { s.host with rings := t.host.rings, slots := t.host.slots } } := h
  have hhost := (congrArg State.host heq :)
  ⟨(congrArg State.tide heq :), (congrArg State.commit heq :), (congrArg State.mem heq :),
    (congrArg HostPort.signals hhost :), (congrArg HostPort.held hhost :)⟩

theorem sameButRingsAndSlots_resetRing (s : State) (r : Nat) : SameButRingsAndSlots s (s.resetRing r) := by
  rw [SameButRingsAndSlots, State.resetRing, dropUnstarted_eq, abortSlots_eq]
  rfl

theorem resetRing_aborted {c : Cmd} (hc : c ∈ (s.ring r).unstarted) (hring : c.ring = r) (hslot : c.slot = some k)
    (hheld : (s.slot r k).isSome = true) : (s.resetRing r).Aborted r k :=
  abortSlots_of_named (s := s.modRing r (fun x => { x with cmds := x.started })) hc hring hslot hheld

/-- With no access held, none goes on. -/
theorem afterClose_of_no_held (h : t.host.held = []) : t.afterClose s = t := by
  have hreplay : t.replayHeldBar = t := by
    rw [State.replayHeldBar, h, List.foldl_nil, ← h]
  rw [State.afterClose, hreplay, ite_self]

/-- The write of RING_CONTROL that resets, with what its other fields do first. -/
theorem ringReset_of_served {r : Fin 17} {v : W32} (hlink : s.power.linkUp = true) (hserved : s.ringPaused r = false)
    (hreset : v.toNat.testBit 1 = true) (hclose : r.val ≠ 0 ∨ s.host.held = []) :
    s.host0 true (ringReg r 8) 4 (v.zeroExtend 64) = .next ((s.writeControl r v).resetRing r) := by
  have hwrite : s.writeRing r (ringReg r 8) 4 (v.zeroExtend 64) = some ((s.writeControl r v).resetRing r) := by
    rw [writeRing_control, if_pos hreset]
  obtain ⟨htide, hcommit, -, -, -, hheld, -⟩ := (sameButRing_writeControl s r v).keeps
  obtain ⟨htide', hcommit', -, -, hheld'⟩ := (sameButRingsAndSlots_resetRing (s.writeControl r v) r).keeps
  rw [host0_of_linkUp hlink, access_ringReg (by decide) (.inl rfl) rfl hserved, hwrite, Option.getD_some]
  rcases hclose with hr | hnone
  · refine congrArg _ (afterClose_of_closeDue_eq (closeDue_congr ?_ (htide'.trans htide) ?_))
    · rw [resetRing_ring_ne _ (Ne.symm hr), (sameButRing_writeControl s r v).ring (Ne.symm hr)]
    · rw [hcommit', hcommit]
  · exact congrArg _ (afterClose_of_no_held (hheld'.trans (hheld.trans hnone)))

/-- Settles O23: a doorbell by whether the queue would exceed its size; a reset by what it leaves of the ring, and by
the slots of the commands that it drops. -/
theorem doorbellsAndRingResets : Obligations.DoorbellsAndRingResets := by
  intro dt r s hlink hserved
  have hlink' : (s.advance dt).power.linkUp = true := hlink
  have hbell (tail : W32) : exec (.ringDoorbell dt r tail) s = .next ((s.advance dt).doorbell r tail) :=
    (exec_ringDoorbell dt r tail s).trans
      (ringDoorbell_of_served hlink' hserved ((sameButRing_doorbell ..).closeDue (doorbell_keeps_cmds ..)))
  refine ⟨fun tail hfits => ?_, fun tail hnew hover hrunning => ?_, fun v hreset => ?_, fun v hreset hclose => ?_⟩
  · exact ⟨_, hbell tail, doorbell_of_fits (s := s.advance dt) hfits⟩
  · refine ⟨_, (hbell tail).trans (congrArg _ (doorbell_of_overrun (s := s.advance dt) hnew hover hrunning)), ?_⟩
    rw [halt_ring, modRing_ring]
    exact ⟨rfl, rfl, rfl, rfl⟩
  · exact (exec_ringReset hreset dt r s).trans (host0_of_linkUp hlink' ..)
  · have hwritten := sameButRing_writeControl (s.advance dt) r v
    obtain ⟨-, -, hmem, hslots, hsignals, -, -⟩ := hwritten.keeps
    obtain ⟨-, -, hmem', hsignals', -⟩ :=
      (sameButRingsAndSlots_resetRing ((s.advance dt).writeControl r v) r).keeps
    have hcontrol : ((s.advance dt).writeControl r v).ring r = (s.ring r).withControl s.power.ready v.toNat :=
      writeControl_ring (s.advance dt) r v
    refine ⟨_, (exec_ringReset hreset dt r s).trans (ringReset_of_served hlink' hserved hreset hclose), ?_⟩
    rw [resetRing_ring, hcontrol]
    refine ⟨rfl, rfl, rfl, rfl, rfl, rfl, rfl, rfl, rfl, ?_, hmem'.trans hmem, hsignals'.trans hsignals, ?_⟩
    · intro q hq
      rw [resetRing_ring_ne _ hq, hwritten.ring hq]
      rfl
    · intro c hc k x hring hslot hheld
      refine resetRing_aborted (c := c) ?_ hring hslot ?_
      · rw [hcontrol]
        exact hc
      · rw [State.slot, hslots]
        exact Option.isSome_iff_exists.mpr ⟨x, hheld⟩

end RingResets

section SlotReads

variable {s : State}

/-! ### BAR0 at the result slots (R75, R455) -/

section SlotRange

variable {o : Nat} (hlow : 0x1000000 ≤ o) (hhigh : o < 0x1220000)

include hlow hhigh

theorem barWord_of_slot : s.barWord o =
    s.slotWord ((o - 0x1000000) / 0x20000) ((o - 0x1000000) % 0x20000 / 0x80) (o % 0x80 / 8) := by
  have hbelow (b : Nat) (hb : b ≤ 0x1000000) : ¬ o < b := by omega
  have hother : o ≠ 0x9000 := by omega
  simp [State.barWord, hbelow, hother, hlow, hhigh]

theorem latchFor_of_slot (hfirst : o % 0x80 = 0) :
    s.latchFor o = s.readSlot0 ((o - 0x1000000) / 0x20000) ((o - 0x1000000) % 0x20000 / 0x80) := by
  have hbelow (b : Nat) (hb : b ≤ 0x1000000) : ¬ o < b := by omega
  have htide : o ≠ 0x1000 ∧ o ≠ 0x1040 := by omega
  simp [State.latchFor, hbelow, htide, hlow, hhigh, hfirst]

/-- A read of a slot waits for its ring's core alone (R464). -/
theorem accessHeld_of_slot :
    s.accessHeld false o = s.ringPaused ((o - 0x1000000) / 0x20000) := by
  have hbelow (b : Nat) (hb : b ≤ 0x1000000) : ¬ o < b := by omega
  have habove (b : Nat) (hb : 0x1220000 ≤ b) : ¬ b ≤ o := by omega
  simp [State.accessHeld, closeReg, configReg, ctxReg, hbelow, habove, hlow, hhigh]

end SlotRange

/-- Address of a slot's first word. -/
def slotAddr (r k : Nat) : Nat := 0x1000000 + 0x20000 * r + 0x80 * k

theorem exec_slotRead (dt : Nat) (r : Fin 17) (k : Fin 1024) (s : State) :
    exec (.slotRead dt r k true) s = (s.advance dt).host0 false (slotAddr r k) 8 0 := rfl

section SlotAddr

variable (r : Fin 17) (k : Fin 1024)

theorem slotAddr_range : 0x1000000 ≤ slotAddr r k ∧ slotAddr r k < 0x1220000 := by
  have hr := r.isLt
  have hk := k.isLt
  constructor <;> rw [slotAddr] <;> omega

theorem slotAddr_ring : (slotAddr r k - 0x1000000) / 0x20000 = r := by
  have hk := k.isLt
  rw [slotAddr]
  omega

theorem slotAddr_slot : (slotAddr r k - 0x1000000) % 0x20000 / 0x80 = k := by
  have hk := k.isLt
  rw [slotAddr]
  omega

theorem slotAddr_first : slotAddr r k % 0x80 = 0 := by
  rw [slotAddr]
  omega

end SlotAddr

variable {r : Fin 17} {k : Fin 1024}

/-- The read of a slot of a ring that is served (R12, R464). -/
theorem access_slotAddr (hserved : s.ringPaused r = false) :
    s.access false (slotAddr r k) 8 0 = s.barRead (slotAddr r k) 8 := by
  obtain ⟨hlow, hhigh⟩ := slotAddr_range r k
  have halign : slotAddr r k % 8 = 0 := by rw [slotAddr]; omega
  have hheld : s.accessHeld false (slotAddr r k) = false := by rw [accessHeld_of_slot hlow hhigh, slotAddr_ring, hserved]
  rw [State.access, if_neg (by simp [halign]), hheld]
  rfl

/-- The snapshot that a read of a free slot takes (R76). -/
def State.windowFree (s : State) (r k : Nat) : State :=
  s.modRing r (fun y => { y with window := some (k, slotWords r none) })

theorem readSlot0_of_free {r k : Nat} (hfree : s.slot r k = none) : s.readSlot0 r k = s.windowFree r k := by
  simp [State.readSlot0, State.windowFree, hfree]

/-- A free slot reads PENDING from the snapshot, and the read counts nothing (R75). -/
theorem barRead_of_free (hfree : s.slot r k = none) : s.barRead (slotAddr r k) 8 =
    { s.windowFree r k with host := { (s.windowFree r k).host with readData := 1 } } := by
  obtain ⟨hlow, hhigh⟩ := slotAddr_range r k
  have hlatch : s.latchFor (slotAddr r k) = s.windowFree r k := by
    rw [latchFor_of_slot hlow hhigh (slotAddr_first r k), slotAddr_ring, slotAddr_slot, readSlot0_of_free hfree]
  have hword : (s.windowFree r k).barWord (slotAddr r k) = 1 := by
    rw [barWord_of_slot hlow hhigh, slotAddr_ring, slotAddr_slot, slotAddr_first, State.slotWord, State.windowFree,
      modRing_ring]
    simp [slotWords]
  rw [State.barRead, hlatch]
  exact congrArg (fun d : W64 => { s.windowFree r k with host := { (s.windowFree r k).host with readData := d } }) hword

theorem slotRead_of_free (hlink : s.power.linkUp = true) (hserved : s.ringPaused r = false)
    (hfree : s.slot r k = none) : s.host0 false (slotAddr r k) 8 0 =
      .next { s.windowFree r k with host := { (s.windowFree r k).host with readData := 1 } } := by
  have hclose : (s.barRead (slotAddr r k) 8).closeDue = s.closeDue := by
    rw [barRead_of_free hfree, setReadData_closeDue]
    exact (sameButRing_modRing ..).closeDue (by rw [modRing_ring])
  rw [host0_of_linkUp hlink, access_slotAddr hserved, afterClose_of_closeDue_eq hclose, barRead_of_free hfree]

/-- Settles O21: a pending slot by its words, a free one by what its read leaves. -/
theorem pendingAndFreeSlots : Obligations.PendingAndFreeSlots := by
  refine ⟨fun r x hpending => ?_, fun _ => rfl, fun dt r k s hlink hserved hfree => ?_⟩
  · rw [slotWords, hpending]
    refine congrArg (· :: _) (congrArg _ ?_)
    simp only [Bool.false_eq_true, if_false]
    omega
  · exact ⟨_, (exec_slotRead dt r k s).trans (slotRead_of_free (s := s.advance dt) hlink hserved hfree), rfl, rfl⟩

end SlotReads

end Sys2Proof.Machine
end

section
/-! PROOF. PACKET_FETCH: the packets that are accepted, and what halts a ring (chapter 03). -/

namespace Sys2Proof.Machine

variable {s : State} {r : Fin 17} {dt n : Nat} {host : List (Nat × List Byte)} {h p : List Byte}

theorem exec_packetFetch (dt : Nat) (r : Fin 17) (host : List (Nat × List Byte)) (s : State) :
    exec (.packetFetch dt r host) s = execPacketFetch dt r host s := rfl

/-! ### The units that are read (R62, R65, R71) -/

section Fetching

variable (hfetch : s.fetching r = true)

include hfetch

theorem packetFetch_of_unread (hread : (s.ring r).readUnits host 1 = none) :
    exec (.packetFetch dt r host) s = .next ((s.advance dt).halt r 5) := by
  have hguard : (!(s.advance dt).fetching r) = false := congrArg (!·) hfetch
  have hread' : ((s.advance dt).ring r).readUnits host 1 = none := hread
  rw [exec_packetFetch, execPacketFetch]
  simp only [hguard, hread', Bool.false_eq_true, if_false]

variable (hread : (s.ring r).readUnits host 1 = some h) (hn : n = 1 + fieldAt h 5 1 % 4)

include hread hn

/-- A packet of PARAM_LEN 3 halts its ring (R67). -/
theorem packetFetch_of_length (hfour : n = 4) : exec (.packetFetch dt r host) s = .next ((s.advance dt).halt r 3) := by
  have hguard : (!(s.advance dt).fetching r) = false := congrArg (!·) hfetch
  have hread' : ((s.advance dt).ring r).readUnits host 1 = some h := hread
  rw [exec_packetFetch, execPacketFetch]
  simp only [hguard, hread', Bool.false_eq_true, if_false, ← hn, hfour, if_true]

variable (hlen : n ≠ 4) (hroom : n ≤ ((s.ring r).tail - (s.ring r).head).toNat)

include hlen hroom

theorem packetFetch_of_part_unread (hrest : (s.ring r).readUnits host n = none) :
    exec (.packetFetch dt r host) s = .next ((s.advance dt).halt r 5) := by
  have hguard : (!(s.advance dt).fetching r) = false := congrArg (!·) hfetch
  have hring : (s.advance dt).ring r = s.ring r := rfl
  rw [exec_packetFetch, execPacketFetch]
  simp only [hguard, hring, hread, Bool.false_eq_true, if_false, ← hn, hlen, Nat.not_lt.mpr hroom, hrest]

/-- A whole packet is checked. -/
theorem packetFetch_of_whole (hrest : (s.ring r).readUnits host n = some p) :
    exec (.packetFetch dt r host) s = .next ((s.advance dt).checkPacket r p n) := by
  have hguard : (!(s.advance dt).fetching r) = false := congrArg (!·) hfetch
  have hring : (s.advance dt).ring r = s.ring r := rfl
  rw [exec_packetFetch, execPacketFetch]
  simp only [hguard, hring, hread, Bool.false_eq_true, if_false, ← hn, hlen, Nat.not_lt.mpr hroom, hrest]

end Fetching

/-! ### The first checks of a whole packet (R71) -/

theorem checkPacket_of_mismatch {r : Nat} (hcheck : (fieldAt p 1 1).testBit 2 = true) (hbad : checkMatches p = false) :
    s.checkPacket r p n = s.halt r 2 := if_pos (by rw [hcheck, hbad]; rfl)

theorem checkPacket_of_gap {r : Nat} (hcheck : (fieldAt p 1 1).testBit 2 = true → checkMatches p = true)
    (hgap : fieldAt p 2 2 ≠ (s.ring r).nextSeq.toNat) : s.checkPacket r p n = s.halt r 1 :=
  (if_neg (by simpa using hcheck)).trans (if_pos (by simpa using hgap))

/-! ### Halts (R65) -/

/-- A vector that is masked is collected (R462). -/
theorem raise_of_masked {v : Nat} (hen : s.vectorEnabled v = true)
    (hmask : s.host.functionMask = true ∨ s.host.vectorMask.toNat.testBit v = true) :
    s.raise v = { s with host := { s.host with pba := withBit s.host.pba v true } } := by
  have henabled : (!s.vectorEnabled v) = false := by rw [hen]; rfl
  rw [State.raise, henabled, if_neg Bool.false_ne_true, if_pos (by rwa [Bool.or_eq_true])]

theorem vectorEnabled_of_lt (s : State) {v : Nat} (h : v < 18) : s.vectorEnabled v = true := by
  rw [State.vectorEnabled, decide_eq_true h, Bool.true_or]

theorem halt_fetching (s : State) (r cause : Nat) : (s.halt r cause).fetching r = false := by
  rw [State.fetching, halt_ring]
  simp

/-- What a halt sends, or collects. -/
theorem halt_msix (s : State) (r cause : Nat) :
    (s.host.functionMask = false → s.host.vectorMask.toNat.testBit 17 = false →
      (s.halt r cause).host.msixSent = s.host.msixSent ++ [17]) ∧
    (s.host.functionMask = true ∨ s.host.vectorMask.toNat.testBit 17 = true →
      (s.halt r cause).host.pba.toNat.testBit 17 = true ∧ (s.halt r cause).host.msixSent = s.host.msixSent) := by
  have hen (x : State) : x.vectorEnabled 17 = true := vectorEnabled_of_lt x (by decide)
  refine ⟨fun hfunction hvector => ?_, fun hmask => ?_⟩
  · exact raise_msixSent (s := s.modRing r _) (hen _) hfunction hvector
  · rw [State.halt, raise_of_masked (s := s.modRing r _) (hen _) hmask]
    exact ⟨by rw [withBit_true_testBit _ (by decide)]; simp, rfl⟩

/-- Settles O28: each cause ends the fetch in a halt with that cause, and a halt changes its ring and vector 17 alone. -/
theorem ringsHalt : Obligations.RingsHalt := by
  intro dt r s hfetch host h p n cause hn hcause
  have hhalts : exec (.packetFetch dt r host) s = .next ((s.advance dt).halt r cause) := by
    rcases hcause with ⟨hread, rfl⟩ | ⟨hread, hfour, rfl⟩ | ⟨hread, hlen, hroom, hwhole⟩
    · exact packetFetch_of_unread hfetch hread
    · exact packetFetch_of_length hfetch hread hn hfour
    · rcases hwhole with ⟨hrest, rfl⟩ | ⟨hrest, hcheck, hbad, rfl⟩ | ⟨hrest, hcheck, hgap, rfl⟩
      · exact packetFetch_of_part_unread hfetch hread hn hlen hroom hrest
      · rw [packetFetch_of_whole hfetch hread hn hlen hroom hrest, checkPacket_of_mismatch hcheck hbad]
      · rw [packetFetch_of_whole hfetch hread hn hlen hroom hrest,
          checkPacket_of_gap (s := s.advance dt) (fun hset => absurd hset (by simp [hcheck])) hgap]
  obtain ⟨hsent, hcollected⟩ := halt_msix (s.advance dt) r cause
  exact ⟨_, hhalts, halt_ring .., halt_fetching .., fun q hq => (sameButRing_halt (s.advance dt) r cause).ring hq, hsent,
    hcollected⟩

/-! ### Consumption (R72) -/

theorem tabFind_filter_of_none {α : Type} {t : Tab α} {k : Nat} (hfree : tabFind t k = none) (f : Nat × α → Bool) :
    tabFind (t.filter f) k = none := by
  induction t with
  | nil => rfl
  | cons e t ih =>
    rw [tabFind] at hfree
    split at hfree
    · cases hfree
    · next hkey =>
      rw [List.filter_cons]
      split
      · exact (if_neg hkey).trans (ih hfree)
      · exact ih hfree

theorem wrapSlots_ring (s : State) (r q : Nat) : (s.wrapSlots r).ring q = s.ring q := rfl

theorem consume_ring (s : State) (r units : Nat) : (s.consume r units).ring r = { s.ring r with
    head := (s.ring r).head + BitVec.ofNat 32 units, fetched := (s.ring r).fetched + 1
    everFetched := (s.ring r).everFetched + 1, nextSeq := (s.ring r).nextSeq + 1 } := by
  rw [State.consume, wrapSlots_ring, modRing_ring]

theorem consume_ring_ne (s : State) {r q : Nat} (units : Nat) (h : q ≠ r) : (s.consume r units).ring q = s.ring q := by
  rw [State.consume, wrapSlots_ring, modRing_ring_ne _ _ _ _ h]

/-- What a consumed packet frees stays free. -/
theorem consume_slot_of_free {r q k : Nat} (hfree : s.slot q k = none) (units : Nat) :
    (s.consume r units).slot q k = none := tabFind_filter_of_none hfree _

/-! ### Acceptance (R72, R74, R82) -/

variable {c : Cmd}

theorem pendSlot_eq (s : State) (c : Cmd) :
    s.pendSlot c = { s with host := { s.host with slots := (s.pendSlot c).host.slots } } := by
  rw [State.pendSlot]
  split <;> rfl

theorem pendSlot_slot {k : Nat} (hc : c.slot = some k) : (s.pendSlot c).slot c.ring k =
    some { seq := c.seq, opcode := c.opcode, cookie := c.cookie } := by
  rw [State.pendSlot, hc]
  exact setSlot_slot ..

theorem pendSlot_ring (s : State) (c : Cmd) (q : Nat) : (s.pendSlot c).ring q = s.ring q := by
  rw [pendSlot_eq]
  rfl

/-- The fetch of a packet is numbered. -/
def State.countFetch (s : State) : State := { s with host := { s.host with nextFetch := s.host.nextFetch + 1 } }

/-- The command joins its ring as the last. -/
def State.joinRing (s : State) (c : Cmd) : State :=
  s.modRing c.ring (fun x => { x with cmds := x.cmds ++ [c], prior := .running c.fetchOrder })

theorem accept_eq (s : State) (c : Cmd) :
    s.accept c = ((s.countFetch.pendSlot c).joinRing c).refreshOldest c.ring := rfl

theorem accept_ring (s : State) (c : Cmd) : (s.accept c).ring c.ring = { s.ring c.ring with
    prior := .running c.fetchOrder, cmds := markOldest s.tide ((s.ring c.ring).cmds ++ [c]) } := by
  have htide : ((s.countFetch.pendSlot c).joinRing c).tide = s.tide := by
    rw [pendSlot_eq]
    rfl
  rw [accept_eq, State.refreshOldest, modRing_ring, State.joinRing, modRing_ring, pendSlot_ring]
  rw [← State.joinRing, htide]
  rfl

theorem accept_ring_ne (s : State) {c : Cmd} {q : Nat} (h : q ≠ c.ring) : (s.accept c).ring q = s.ring q := by
  rw [accept_eq, State.refreshOldest, modRing_ring_ne _ _ _ _ h, State.joinRing, modRing_ring_ne _ _ _ _ h, pendSlot_ring]
  rfl

theorem accept_slot {k : Nat} (hc : c.slot = some k) : (s.accept c).slot c.ring k =
    some { seq := c.seq, opcode := c.opcode, cookie := c.cookie } := pendSlot_slot (s := s.countFetch) hc

theorem accept_frame (s : State) (c : Cmd) : s.accept c = { s with host := (s.accept c).host } ∧
    (s.accept c).host.signals = s.host.signals := by
  rw [accept_eq, pendSlot_eq]
  exact ⟨rfl, rfl⟩

/-- A packet that passes its checks is consumed and accepted (R71). -/
theorem checkPacket_of_sound {r : Nat} (hcheck : (fieldAt p 1 1).testBit 2 = true → checkMatches p = true)
    (hseq : fieldAt p 2 2 = (s.ring r).nextSeq.toNat)
    (hslot : fieldAt p 6 2 = 0xFFFF ∨ (fieldAt p 6 2 ≤ 1023 ∧ s.slot r (fieldAt p 6 2) = none))
    (hheader : headerCheck r p = none) : s.checkPacket r p n =
      (s.consume r n).accept (packetCmd r p s.tide s.host.nextFetch (s.ring r).prior) := by
  have hrange : ¬ (fieldAt p 6 2 != 0xFFFF && decide (1023 < fieldAt p 6 2)) = true := by
    rcases hslot with hnone | ⟨hrange, -⟩
    · simp [hnone]
    · simp [Nat.not_lt.mpr hrange]
  have hfree : ¬ (fieldAt p 6 2 != 0xFFFF && ((s.consume r n).slot r (fieldAt p 6 2)).isSome) = true := by
    rcases hslot with hnone | ⟨-, hfree⟩
    · simp [hnone]
    · simp [consume_slot_of_free hfree]
  refine (if_neg (by simpa using hcheck)).trans ((if_neg (by simpa using hseq)).trans ?_)
  refine (if_neg hrange).trans ((if_neg hfree).trans ?_)
  rw [hheader]
  dsimp only
  rw [consume_ring]
  rfl

/-- Settles O27: a packet that passes every check is consumed and then accepted. -/
theorem packetsAreAccepted : Obligations.PacketsAreAccepted := by
  intro dt r host h p n s hfetch hread hparam hn hroom hrest hcheck hseq hslot hheader
  have hlen : n ≠ 4 := by omega
  have haccept := checkPacket_of_sound (s := s.advance dt) (n := n) hcheck hseq hslot hheader
  set u := (s.advance dt).consume r n with hu
  set c := packetCmd r p (s.advance dt).tide (s.advance dt).host.nextFetch ((s.advance dt).ring r).prior
  have hring : (u.accept c).ring r = _ := accept_ring u c
  obtain ⟨hframe, hsignals⟩ := accept_frame u c
  refine ⟨_, (packetFetch_of_whole hfetch hread hn hlen hroom hrest).trans (congrArg _ haccept), ?_, ?_, ?_, hsignals,
    hframe⟩
  · rw [hring, show u.ring c.ring = _ from consume_ring (s.advance dt) r n]
    rfl
  · intro q hq
    rw [accept_ring_ne u hq, hu, consume_ring_ne _ _ hq]
    rfl
  · intro hnamed
    exact accept_slot (show c.slot = _ from if_neg hnamed)

end Sys2Proof.Machine
end

section
/-! PROOF. The synchronising commands: NOP, FENCE, WAIT_TIDE, SIGNAL, WAIT_SIGNAL, QUERY and RELEASE (chapter 03). -/

namespace Sys2Proof.Machine

section Synchronising

variable {s u : State} {c : Cmd} {dt : Nat} {r : Fin 17}

/-! ### The dispatch of the commands, and their start -/

theorem exec_nop (dt : Nat) (r : Fin 17) (s : State) : exec (.nop dt r) s = execNop dt r s := rfl

theorem exec_signal (dt : Nat) (r : Fin 17) (s : State) : exec (.signal dt r) s = execSignal dt r s := rfl

theorem exec_fence (dt : Nat) (r : Fin 17) (s : State) : exec (.fence dt r) s = execFence dt r s := rfl

theorem exec_waitTide (dt : Nat) (r : Fin 17) (s : State) : exec (.waitTide dt r) s = execWaitTide dt r s := rfl

theorem exec_waitTideTarget (dt : Nat) (r : Fin 17) (s : State) : exec (.waitTideTarget dt r) s = execWaitTideTarget dt r s := rfl

theorem exec_waitSignal (dt : Nat) (r : Fin 17) (s : State) : exec (.waitSignal dt r) s = execWaitSignal dt r s := rfl

theorem exec_query (dt : Nat) (r : Fin 17) (s : State) : exec (.query dt r) s = execQuery dt r s := rfl

theorem exec_release (dt : Nat) (r : Fin 17) (s : State) : exec (.release dt r) s = execRelease dt r s := rfl

theorem Starts.take {r op : Nat} (h : Starts s dt r op c u) : (s.advance dt).take r op = some (c, u) := h

/-! ### Checks of reserved bytes (R11, R465) -/

theorem lowestFail_eq_min? (checks : List (Bool × Nat)) :
    lowestFail checks = ((checks.filter (fun x => !x.1)).map (fun x => x.2)).min? := by
  rw [lowestFail]
  cases (checks.filter (fun x => !x.1)).map (fun x => x.2) <;> rfl

/-- A failing check below which none fails is the one that is reported. -/
theorem lowestFail_eq_some {checks : List (Bool × Nat)} {o : Nat} (hfails : (false, o) ∈ checks)
    (hlowest : ∀ x ∈ checks, x.1 = false → o ≤ x.2) : lowestFail checks = some o := by
  rw [lowestFail_eq_min?, List.min?_eq_some_iff]
  refine ⟨List.mem_map.mpr ⟨_, List.mem_filter.mpr ⟨hfails, rfl⟩, rfl⟩, fun b hb => ?_⟩
  obtain ⟨x, hx, rfl⟩ := List.mem_map.mp hb
  obtain ⟨hx, hfail⟩ := List.mem_filter.mp hx
  exact hlowest x hx (by simpa using hfail)

theorem mem_reservedBytes {size : Nat} {used : List (Nat × Nat)} {x : Bool × Nat} :
    x ∈ reservedBytes c size used ↔ x.2 < size ∧ (∀ f ∈ used, x.2 < f.1 ∨ f.1 + f.2 ≤ x.2) ∧
      x.1 = (c.param x.2 1 == 0) := by
  rw [reservedBytes, List.mem_map]
  constructor
  · rintro ⟨i, hi, rfl⟩
    simpa using hi
  · rintro ⟨hsize, hfree, hzero⟩
    exact ⟨x.2, by simpa using ⟨hsize, fun a b => hfree (a, b)⟩, by rw [← hzero]⟩

/-- Reserved bytes that are zero pass. -/
theorem reservedBytes_pass {used : List (Nat × Nat)} {size : Nat}
    (h : ∀ i, i < size → (∀ f ∈ used, i < f.1 ∨ f.1 + f.2 ≤ i) → c.param i 1 = 0) :
    ∀ x ∈ reservedBytes c size used, x.1 = true := by
  intro x hx
  obtain ⟨hsize, hfree, hzero⟩ := mem_reservedBytes.mp hx
  rw [hzero, h x.2 hsize hfree]
  rfl

/-- With the bytes above one field zero, the reserved bytes pass. -/
theorem reservedBytes_pass_above {n : Nat} (h : ∀ i, n ≤ i → i < 64 → c.param i 1 = 0) :
    ∀ x ∈ reservedBytes c 64 [(0, n)], x.1 = true :=
  reservedBytes_pass fun i hi hfree => h i (by simpa using hfree (0, n)) hi

/-! ### NOP and SIGNAL (R82) -/

theorem nop_of_start (h : Starts s dt r 0x01 c u) : exec (.nop dt r) s = .next (u.complete c .ok 0 []) := by
  rw [exec_nop, execNop, h.take]

/-- The dispatch of SIGNAL, started. -/
theorem signal_of_start (h : Starts s dt r 0x04 c u) : exec (.signal dt r) s =
    (lowestFail (reservedBytes c 64 [(0, 16)])).elim (.next (((u.clearSignals (BitVec.ofNat 64 (c.param 0 8))).setSignals
      (BitVec.ofNat 64 (c.param 8 8))).complete c .ok 0 [])) (fun o => .next (u.badParam c o)) := by
  rw [exec_signal, execSignal, h.take]
  dsimp only
  cases lowestFail (reservedBytes c 64 [(0, 16)]) <;> rfl

/-- SIGNAL reports its lowest reserved byte that is not zero (R465). -/
theorem signal_of_reserved {i : Nat} (h : Starts s dt r 0x04 c u) (hlow : 16 ≤ i) (hhigh : i < 64)
    (hbelow : ∀ j, 16 ≤ j → j < i → c.param j 1 = 0) (hset : c.param i 1 ≠ 0) :
    exec (.signal dt r) s = .next (u.badParam c i) := by
  have hfail : lowestFail (reservedBytes c 64 [(0, 16)]) = some i := by
    refine lowestFail_eq_some (mem_reservedBytes.mpr ⟨hhigh, by simpa using hlow, by simpa using hset⟩) ?_
    intro x hx hnonzero
    obtain ⟨-, hfree, hbyte⟩ := mem_reservedBytes.mp hx
    have hreserved : 16 ≤ x.2 := by simpa using hfree (0, 16)
    by_contra hlt
    simp [hbyte, hbelow x.2 hreserved (by omega)] at hnonzero
  rw [signal_of_start h, hfail]
  rfl

/-! ### FENCE, WAIT_TIDE and WAIT_SIGNAL (R82) -/

theorem fence_of_start (h : Starts s dt r 0x02 c u) (hmask : c.param 0 4 < 2 ^ 17)
    (hreserved : ∀ i, 4 ≤ i → i < 64 → c.param i 1 = 0) : exec (.fence dt r) s =
      if u.fenceDone c && u.fencePast c then .next (u.complete c .ok 0 []) else .next (u.setWait c.ref .fence none) := by
  rw [exec_fence, execFence, h.take]
  dsimp only
  rw [lowestFail_eq_none (List.forall_mem_cons.mpr ⟨decide_eq_true hmask, reservedBytes_pass_above hreserved⟩)]

theorem fenceDone_iff : u.fenceDone c = true ↔
    ∀ d ∈ u.allCmds, fenceNames c d.ring = true → fetchedBefore d c = false := by
  simp only [State.fenceDone, List.all_eq_true, Bool.not_eq_true', Bool.and_eq_false_imp]

theorem waitTide_of_start (h : Starts s dt r 0x03 c u) (hmode : c.param 8 1 ≤ 1)
    (hreserved : ∀ i, 9 ≤ i → i < 64 → c.param i 1 = 0) : exec (.waitTide dt r) s =
      if reached u.tide c.waitTarget then .next (u.complete c .ok 0 [])
      else .next (u.setWait c.ref (.tide c.waitTarget) c.waitTarget) := by
  rw [exec_waitTide, execWaitTide, h.take]
  dsimp only
  rw [lowestFail_eq_none (List.forall_mem_cons.mpr ⟨decide_eq_true hmode, reservedBytes_pass_above hreserved⟩)]

theorem waitTarget_of_absolute (hmode : c.param 8 1 = 0) : c.waitTarget = some (c.param 0 8) := if_pos hmode

/-- A relative target counts from the completion of the packet before (R82). -/
theorem waitTarget_of_done {t : Nat} (hmode : c.param 8 1 = 1) (hprior : c.prior = .done t) :
    c.waitTarget = some (t + c.param 0 8) := by
  rw [Cmd.waitTarget, if_neg (by simp [hmode]), hprior]

theorem waitTideTarget_of_due {d : Cmd} (hfind : (s.ring r).started.find? (fun c => c.opcode == 0x03) = some d)
    (hmode : d.param 8 1 = 0) (hdue : d.param 0 8 ≤ (s.advance dt).tide) :
    exec (.waitTideTarget dt r) s = .next ((s.advance dt).complete d .ok 0 []) := by
  have hfind' : ((s.advance dt).ring r).started.find? (fun c => c.opcode == 0x03) = some d := hfind
  rw [exec_waitTideTarget, execWaitTideTarget]
  simp only [hfind', waitTarget_of_absolute hmode]
  exact if_pos (decide_eq_true hdue)

theorem waitSignal_of_start (h : Starts s dt r 0x05 c u) (hmask : c.param 0 8 ≠ 0) (hflags : c.param 8 1 < 4)
    (hreserved : ∀ i, 9 ≤ i → i < 64 → c.param i 1 = 0) : exec (.waitSignal dt r) s =
      if u.signalsHold c && u.signalsPast c then .next (u.endWaitSignal c)
      else .next (u.setWait c.ref .signals none) := by
  rw [exec_waitSignal, execWaitSignal, h.take]
  dsimp only
  rw [List.cons_append, List.cons_append, List.nil_append, lowestFail_eq_none (List.forall_mem_cons.mpr
    ⟨by simpa using hmask, List.forall_mem_cons.mpr ⟨decide_eq_true hflags, reservedBytes_pass_above hreserved⟩⟩)]

/-! ### QUERY (R52, R83) -/

section Query

variable (h : Starts s dt r 0xF0 c u)
  (hclose : c.param 0 2 = 3 → r.val = 0 ∨ (s.advance dt).closeDue = false)
  (happly : c.param 0 2 = 3 ∨ c.param 0 2 = 4 → (s.advance dt).applyDue = false)

include h hclose happly

/-- A QUERY that need not wait is taken as it starts. -/
theorem query_taken : ((s.advance dt).take r 0xF0).filter (fun x =>
    !((x.1.param 0 2 == 3 && r.val != 0 && (s.advance dt).closeDue) ||
      ((x.1.param 0 2 == 3 || x.1.param 0 2 == 4) && (s.advance dt).applyDue))) = some (c, u) := by
  have hclosed : (c.param 0 2 == 3 && r.val != 0 && (s.advance dt).closeDue) = false := by
    by_cases hcode : c.param 0 2 = 3
    · rcases hclose hcode with hr | hdue
      · simp [hr]
      · rw [hdue, Bool.and_false]
    · simp [hcode]
  have happlied : ((c.param 0 2 == 3 || c.param 0 2 == 4) && (s.advance dt).applyDue) = false := by
    by_cases hcode : c.param 0 2 = 3 ∨ c.param 0 2 = 4
    · rw [happly hcode, Bool.and_false]
    · rw [not_or] at hcode
      simp [hcode.1, hcode.2]
  rw [h.take]
  exact Option.filter_some_pos (by rw [hclosed, happlied]; rfl)

theorem query_of_answer {body : List Byte} (hanswer : queryAnswer u (c.param 0 2) (c.param 2 2) = .ok body)
    (hreserved : ∀ i, 4 ≤ i → i < 64 → c.param i 1 = 0) :
    exec (.query dt r) s = .next (u.complete c .ok 0 body) := by
  rw [exec_query, execQuery]
  simp only [query_taken h hclose happly, hanswer, lowestFail_eq_none (reservedBytes_pass_above hreserved)]

theorem query_of_error {o : Nat} (hanswer : queryAnswer u (c.param 0 2) (c.param 2 2) = .error o) :
    exec (.query dt r) s = .next (u.badParam c o) := by
  rw [exec_query, execQuery]
  simp only [query_taken h hclose happly, hanswer]

end Query

theorem queryAnswer_ring (u : State) {arg : Nat} (h : arg ≤ 16) : queryAnswer u 1 arg = .ok
    (toBytes 8 (ringHeadWord (u.ring arg)) ++ toBytes 8 (ringStatusWord (u.ring arg)) ++
      toBytes 8 (ringDoneWord (u.ring arg))) := (if_pos rfl).trans (if_neg (Nat.not_lt.mpr h))

/-- ARG of a slot query is a ring and a half. -/
theorem queryArg_fields : ∀ q, q < 17 → ∀ half, half < 2 → (q + 256 * half) % 32 = q ∧
    (q + 256 * half) &&& 0xFEE0 = 0 ∧ bits (q + 256 * half) 8 1 = half := by decide

theorem queryAnswer_slots (u : State) {q half : Nat} (hq : q ≤ 16) (hhalf : half < 2) :
    queryAnswer u 2 (q + 256 * half) = .ok (toBytes 64 ((List.range 512).foldl
      (fun acc i => if (u.slot q (512 * half + i)).isSome then acc + 2 ^ i else acc) 0)) := by
  obtain ⟨hring, hreserved, hbit⟩ := queryArg_fields q (by omega) half hhalf
  rw [queryAnswer, if_neg (by decide), if_pos rfl]
  simp only [hring, hreserved, hbit]
  exact if_neg (by simpa using hq)

theorem queryAnswer_commit (u : State) :
    queryAnswer u 3 0 = .ok ((commitWords u).flatMap (fun w => toBytes 8 w.toNat)) := rfl

theorem queryAnswer_signals (u : State) : queryAnswer u 4 0 =
    .ok (toBytes 8 u.host.signals.toNat ++ toBytes 8 u.tide ++ toBytes 8 (tideStatusWord u)) := rfl

theorem queryAnswer_of_unknown (u : State) {code : Nat} (arg : Nat) (h : 4 < code) : queryAnswer u code arg = .error 0 := by
  rw [queryAnswer, if_neg (by omega), if_neg (by omega), if_neg (by omega), if_neg (by omega)]

end Synchronising

section Releasing

variable {s u v : State} {c : Cmd} {dt q : Nat} {r : Fin 17}

/-! ### One slot (R77, R84) -/

/-- What a RELEASE leaves of a slot. -/
def Slot.released (x : Slot) : Option Slot := if x.ready then none else some { x with marked := true }

theorem slotKey_inj {q k m : Nat} : slotKey q k = slotKey q m ↔ k = m := by
  rw [slotKey, slotKey]
  omega

theorem slotKey_ne {p q k m : Nat} (hk : k < 1024) (hm : m < 1024) (h : p ≠ q) : slotKey p k ≠ slotKey q m := by
  rw [slotKey, slotKey]
  omega

theorem releaseOne_of_other {own : Option Nat} {k : Nat} (h : own ≠ some k) (acc : State × Nat × Nat × Nat) :
    releaseOne q own acc k = releaseOne q none acc k := by
  simp [releaseOne, h]

theorem releaseOne_of_free {k : Nat} (hx : v.slot q k = none) (freed marked free : Nat) :
    releaseOne q none (v, freed, marked, free) k = (v, freed, marked, free + 1) := by
  simp [releaseOne, hx]

theorem releaseOne_of_ready {k : Nat} {x : Slot} (hx : v.slot q k = some x) (hready : x.ready = true)
    (freed marked free : Nat) :
    releaseOne q none (v, freed, marked, free) k = (v.freeSlot q k, freed + 1, marked, free) := by
  simp [releaseOne, hx, hready]

theorem releaseOne_of_pending {k : Nat} {x : Slot} (hx : v.slot q k = some x) (hpending : x.ready = false)
    (freed marked free : Nat) : releaseOne q none (v, freed, marked, free) k =
      (v.setSlot q k { x with marked := true }, freed, marked + 1, free) := by
  simp [releaseOne, hx, hpending]

/-- The command's own slot is passed over. -/
theorem foldl_releaseOne_own (own : Option Nat) (ks : List Nat) (acc : State × Nat × Nat × Nat) :
    ks.foldl (releaseOne q own) acc = (ks.filter (fun k => own != some k)).foldl (releaseOne q none) acc := by
  induction ks generalizing acc with
  | nil => rfl
  | cons k ks ih =>
    by_cases hown : own = some k
    · rw [List.foldl_cons, ih, List.filter_cons_of_neg (by simp [hown]), releaseOne, if_pos hown]
    · rw [List.foldl_cons, ih, List.filter_cons_of_pos (by simpa using hown), List.foldl_cons]
      exact congrArg (List.foldl (releaseOne q none) · _) (releaseOne_of_other hown acc)

/-- A RELEASE of the slots `ks` of ring `q` takes `u` to `v`, with what it counts. -/
structure Releases (q : Nat) (ks : List Nat) (u v : State) (freed marked free : Nat) : Prop where
  slot : ∀ k, v.slot q k = if k ∈ ks then (u.slot q k).bind Slot.released else u.slot q k
  other : ∀ p k, k < 1024 → p ≠ q → v.slot p k = u.slot p k
  frame : v = { u with host := { u.host with slots := v.host.slots } }
  freed : freed = (ks.filter (fun k => (u.slot q k).any (·.ready))).length
  marked : marked = (ks.filter (fun k => (u.slot q k).any (fun x => !x.ready))).length
  free : free = (ks.filter (fun k => (u.slot q k).isNone)).length

theorem Releases.nil (q : Nat) (u : State) : Releases q [] u u 0 0 0 :=
  ⟨fun _ => rfl, fun _ _ _ _ => rfl, rfl, rfl, rfl, rfl⟩

section Append

variable {ks : List Nat} {k freed marked free : Nat} (h : Releases q ks u v freed marked free) (hlt : k < 1024)

include h hlt

/-- One more slot, released and counted. -/
theorem Releases.append {w : State} {f m e : Nat} (hslot : w.slot q k = (u.slot q k).bind Slot.released)
    (hne : ∀ p m, slotKey p m ≠ slotKey q k → w.slot p m = v.slot p m)
    (hframe : w = { v with host := { v.host with slots := w.host.slots } })
    (hf : f = freed + ([k].filter (fun k => (u.slot q k).any (·.ready))).length)
    (hm : m = marked + ([k].filter (fun k => (u.slot q k).any (fun x => !x.ready))).length)
    (he : e = free + ([k].filter (fun k => (u.slot q k).isNone)).length) : Releases q (ks ++ [k]) u w f m e where
  slot m := by
    by_cases hm : m = k
    · rw [hm, hslot, if_pos (by simp)]
    · rw [hne q m (slotKey_inj.not.mpr hm), h.slot m]
      simp [hm]
  other p m hlt' hp := by rw [hne p m (slotKey_ne hlt' hlt hp), h.other p m hlt' hp]
  frame := by rw [hframe, h.frame]
  freed := by rw [List.filter_append, List.length_append, ← h.freed, hf]
  marked := by rw [List.filter_append, List.length_append, ← h.marked, hm]
  free := by rw [List.filter_append, List.length_append, ← h.free, he]

/-- One more slot, by what it holds. -/
theorem Releases.step (hnew : k ∉ ks) : ∃ w f m e, releaseOne q none (v, freed, marked, free) k = (w, f, m, e) ∧
    Releases q (ks ++ [k]) u w f m e := by
  have hx : v.slot q k = u.slot q k := (h.slot k).trans (if_neg hnew)
  cases hu : u.slot q k with
  | none =>
    exact ⟨_, _, _, _, releaseOne_of_free (hx.trans hu) .., h.append hlt (by rw [hx, hu]; rfl) (fun _ _ _ => rfl) rfl
      (by simp [hu]) (by simp [hu]) (by simp [hu])⟩
  | some x =>
    cases hready : x.ready with
    | true =>
      exact ⟨_, _, _, _, releaseOne_of_ready (hx.trans hu) hready .., h.append hlt
        (by simp [freeSlot_slot, hu, Slot.released, hready]) (fun _ _ hkey => freeSlot_slot_ne _ hkey) rfl
        (by simp [hu, hready]) (by simp [hu, hready]) (by simp [hu])⟩
    | false =>
      exact ⟨_, _, _, _, releaseOne_of_pending (hx.trans hu) hready .., h.append hlt
        (by simp [hu, Slot.released, hready]) (fun _ _ hkey => setSlot_slot_ne _ _ _ _ _ _ hkey) rfl
        (by simp [hu, hready]) (by simp [hu, hready]) (by simp [hu])⟩

end Append

/-- Slots of ring `q`, each named once, are released one by one. -/
theorem foldl_releaseOne (u : State) {ks : List Nat} (hnodup : ks.Nodup) (hlt : ∀ k ∈ ks, k < 1024) :
    ∃ v f m e, ks.foldl (releaseOne q none) (u, 0, 0, 0) = (v, f, m, e) ∧ Releases q ks u v f m e := by
  induction ks using List.reverseRecOn with
  | nil => exact ⟨_, _, _, _, rfl, .nil q u⟩
  | append_singleton ks k ih =>
    rw [List.nodup_append_comm, List.singleton_append, List.nodup_cons] at hnodup
    obtain ⟨v, f, m, e, hfold, hreleases⟩ := ih hnodup.2 (fun m hm => hlt m (List.mem_append_left _ hm))
    rw [List.foldl_append, hfold]
    exact hreleases.step (hlt k (by simp)) hnodup.1

/-! ### The slots that a RELEASE names (R84) -/

/-- COUNT slots from FIRST on, in a ring of 1,024, but for the command's own. -/
def releaseNames (own : Option Nat) (first n : Nat) : List Nat :=
  ((List.range n).map (fun i => (first + i) % 1024)).filter (fun k => own != some k)

theorem releaseNames_nodup (own : Option Nat) (first : Nat) {n : Nat} (hn : n ≤ 1024) :
    (releaseNames own first n).Nodup := by
  refine List.Nodup.filter _ (List.Nodup.map_on (fun i hi j hj hij => ?_) List.nodup_range)
  rw [List.mem_range] at hi hj
  omega

theorem mem_releaseNames {own : Option Nat} {first n k : Nat} : k ∈ releaseNames own first n ↔
    own ≠ some k ∧ ∃ i < n, (first + i) % 1024 = k := by
  simp [releaseNames, and_comm]

/-- Two lists that name the same slots once each count alike. -/
theorem length_filter_of_same {ks : List Nat} {named : Nat → Bool} (hnodup : ks.Nodup)
    (hks : ∀ k, k ∈ ks ↔ k < 1024 ∧ named k = true) (f : Nat → Bool) :
    (ks.filter f).length = ((List.range 1024).filter (fun k => named k && f k)).length := by
  refine List.Perm.length_eq ((List.perm_ext_iff_of_nodup (hnodup.filter _) (List.nodup_range.filter _)).mpr fun k => ?_)
  simp only [List.mem_filter, List.mem_range, Bool.and_eq_true, hks]
  tauto

/-- RELEASE of slots that its ring may name (R84). -/
theorem release_of_start (h : Starts s dt r 0xF2 c u) (hq : q = c.param 0 1) (hring : q = r ∨ (r.val = 0 ∧ q ≤ 16))
    (hfirst : c.param 2 2 < 1024) (hcount : 1 ≤ c.param 4 2) (hmax : c.param 4 2 ≤ 1024)
    (hreserved : ∀ i, 6 ≤ i → i < 64 → c.param i 1 = 0) (hbyte : c.param 1 1 = 0) :
    ∃ v f m e, exec (.release dt r) s = .next (v.complete c .ok 0 (toBytes 2 f ++ toBytes 2 m ++ toBytes 2 e)) ∧
      Releases q (releaseNames (if q = r then c.slot else none) (c.param 2 2) (c.param 4 2)) u v f m e := by
  subst hq
  obtain ⟨v, f, m, e, hfold, hreleases⟩ := foldl_releaseOne (q := c.param 0 1) u
    (releaseNames_nodup (if c.param 0 1 = r then c.slot else none) (c.param 2 2) hmax)
    (fun k hk => by obtain ⟨-, i, -, rfl⟩ := mem_releaseNames.mp hk; exact Nat.mod_lt _ (by decide))
  refine ⟨v, f, m, e, ?_, hreleases⟩
  have hr := r.isLt
  have hbytes := reservedBytes_pass (c := c) (size := 64) (used := [(0, 1), (2, 4)]) (fun i hi hfree => by
    simp only [List.mem_cons, List.not_mem_nil, or_false, forall_eq_or_imp, forall_eq] at hfree
    by_cases hi1 : i = 1
    · rw [hi1, hbyte]
    · exact hreserved i (by omega) hi)
  have hchecks : lowestFail ([(decide (c.param 0 1 ≤ 16) && (r.val == 0 || c.param 0 1 == r.val), 0),
      (decide (c.param 2 2 < 1024), 2), (decide (1 ≤ c.param 4 2) && decide (c.param 4 2 ≤ 1024), 4)] ++
      reservedBytes c 64 [(0, 1), (2, 4)]) = none := by
    refine lowestFail_eq_none (List.forall_mem_append.mpr ⟨?_, hbytes⟩)
    simp [hfirst, hcount, hmax]
    omega
  rw [exec_release, execRelease, h.take]
  simp only [hchecks]
  rw [foldl_releaseOne_own, ← releaseNames, hfold]

end Releasing

section Settled

/-- Settles O30: each command by what it does once it has started; RELEASE by what it leaves of each slot that it names,
each of which it names once. -/
theorem synchronisingCommands : Obligations.SynchronisingCommands := by
  intro dt r s u c
  refine ⟨nop_of_start, ?_, ?_, ?_, ?_, fun d => waitTideTarget_of_due, ?_, ?_, ?_⟩
  · intro h hreserved
    rw [signal_of_start h, lowestFail_eq_none (reservedBytes_pass_above hreserved)]
    rfl
  · intro h hmask hreserved
    rw [fence_of_start h hmask hreserved]
    refine ⟨fun hdone hpast => if_pos ?_, fun hwaits => if_neg fun hends => ?_⟩
    · rw [fenceDone_iff.mpr hdone, hpast]
      rfl
    · obtain ⟨hdone, hpast⟩ := Bool.and_eq_true_iff.mp hends
      rcases hwaits with ⟨d, hd, hnamed, hbefore⟩ | hnow
      · exact absurd hbefore (by simp [fenceDone_iff.mp hdone d hd hnamed])
      · exact absurd hpast (by simp [hnow])
  · intro h hreserved
    refine ⟨fun hmode hdue => ?_, fun hmode hearly => ?_, fun t hmode hprior hdue => ?_⟩
    · rw [waitTide_of_start h (by omega) hreserved, waitTarget_of_absolute hmode]
      exact if_pos (decide_eq_true hdue)
    · rw [waitTide_of_start h (by omega) hreserved, waitTarget_of_absolute hmode]
      exact if_neg (by simpa [reached] using hearly)
    · rw [waitTide_of_start h (by omega) hreserved, waitTarget_of_done hmode hprior]
      exact if_pos (decide_eq_true hdue)
  · intro h hmask hflags hreserved
    rw [waitSignal_of_start h hmask hflags hreserved]
    refine ⟨fun hhold hpast => if_pos (by rw [hhold, hpast]; rfl), fun hwaits => if_neg fun hends => ?_⟩
    obtain ⟨hhold, hpast⟩ := Bool.and_eq_true_iff.mp hends
    rcases hwaits with hnot | hnow
    · exact absurd hhold (by simp [hnot])
    · exact absurd hpast (by simp [hnow])
  · intro i hlow hhigh h hbelow hset
    exact signal_of_reserved h hlow hhigh hbelow hset
  · intro h hreserved
    refine ⟨?_, ?_, ?_, ?_, ?_⟩
    · intro arg harg hcode hparam
      refine query_of_answer h (by omega) (by omega) ?_ hreserved
      rw [hcode, hparam, queryAnswer_ring u harg]
    · intro q half hq hhalf hcode hparam
      refine query_of_answer h (by omega) (by omega) ?_ hreserved
      rw [hcode, hparam, queryAnswer_slots u hq hhalf]
    · intro hcode hparam hclose happly
      refine query_of_answer h (fun _ => hclose) (fun _ => happly) ?_ hreserved
      rw [hcode, hparam, queryAnswer_commit]
    · intro hcode hparam happly
      refine query_of_answer h (by omega) (fun _ => happly) ?_ hreserved
      rw [hcode, hparam, queryAnswer_signals]
    · intro hcode
      exact query_of_error h (by omega) (by omega) (queryAnswer_of_unknown u _ hcode)
  · intro q first n own named h hq hfirst hn hring hrange hcount hmax hreserved hbyte hown hnamed
    subst hfirst hn
    obtain ⟨v, f, m, e, hexec, hreleases⟩ := release_of_start h hq hring hrange hcount hmax hreserved hbyte
    have hnames (k : Nat) : k ∈ releaseNames (if q = r then c.slot else none) (c.param 2 2) (c.param 4 2) ↔
        k < 1024 ∧ named k = true := by
      have hother : (if q = r then c.slot else none) ≠ some k ↔ own k = false := by
        rw [hown]
        by_cases hqr : q = r <;> simp [hqr]
      rw [mem_releaseNames, hother, hnamed]
      simp only [Bool.and_eq_true, Bool.not_eq_true', List.any_eq_true, List.mem_range, beq_iff_eq]
      exact ⟨fun ⟨hnot, i, hi, hk⟩ => ⟨hk ▸ Nat.mod_lt _ (by decide), hnot, i, hi, hk⟩, fun ⟨_, hall⟩ => hall⟩
    have hsame := length_filter_of_same (releaseNames_nodup _ _ hmax) hnames
    refine ⟨v, ?_, fun k hk => ?_, hreleases.other, hreleases.frame⟩
    · rw [hexec, hreleases.freed, hreleases.marked, hreleases.free, hsame, hsame, hsame]
    · rw [hreleases.slot k, ite_congr (propext (hnames k)) (fun _ => rfl) (fun _ => rfl)]
      cases u.slot q k with
      | none => simp
      | some x => cases named k <;> simp [hk, Slot.released]

end Settled

end Sys2Proof.Machine
end

section
/-! PROOF. Waves that hop down their columns (chapter 05): one cell's part of a wave, and what it leaves of its array and
of the array above. -/

namespace Sys2Proof.Machine

theorem exec_waveHop (dt : Nat) (die : Fin 12) (a : Fin 32) (row : Fin 64) (cell : HopCell) (s : State) :
    exec (.waveHop dt die a row cell) s = execWaveHop dt die a row cell s := rfl

/-! ### The arrays and cells after an update -/

section Updates

variable {s : State} {die a b : Nat}

@[simp] theorem modArray_array (s : State) (die a : Nat) (f : ArrayState → ArrayState) :
    (s.modArray die a f).array die a = f (s.array die a) := tabGet_tabSet_same ..

theorem modArray_array_ne (s : State) (f : ArrayState → ArrayState) (h : b ≠ a) :
    (s.modArray die a f).array die b = s.array die b :=
  tabGet_tabSet_ne _ _ _ _ _ (by simpa [arrayKey] using h)

variable {x : ArrayState} {row col row' col' : Nat}

@[simp] theorem setCell_cell (x : ArrayState) (row col : Nat) (c : Cell) : (x.setCell row col c).cell row col = c :=
  tabGet_tabSet_same ..

theorem setCell_cell_ne (x : ArrayState) (c : Cell) (h : cellKey row' col' ≠ cellKey row col) :
    (x.setCell row col c).cell row' col' = x.cell row' col' := tabGet_tabSet_ne _ _ _ _ _ h

theorem cellKey_succ_ne (row col : Nat) : cellKey (row + 1) col ≠ cellKey row col := by
  rw [cellKey, cellKey]
  omega

end Updates

/-! ### One cell's part of a wave (R113, R125) -/

/-- A wave into which a cell has added its products: a residue check of the cell that fails marks it. -/
def Wave.through (w : Wave) (p : Product) (bad : Bool) : Wave :=
  { w with val := addTerms w.val p.terms, checkFail := w.checkFail || bad && !p.terms.isEmpty }

/-- What a wave brings from row 63 to the bottom stage. -/
def Wave.toBottom (w : Wave) (p : Product) (bad : Bool) : Wave :=
  { w.through p bad with val := bottomVal p.chainOut (addTerms w.val p.terms), toLower := p.chainOut }

/-- The array with its cell left as `left`, the row noted where a check fails in it. -/
def ArrayState.passed (x : ArrayState) (row col : Nat) (left : Cell) (fails : Bool) : ArrayState :=
  (if fails then x.noteFail row else x).setCell row col left

/-- The array after a hop out of one of its cells, which is left as `left`. -/
def ArrayState.hop (x : ArrayState) (row col : Nat) (left : Cell) (w : Wave) (p : Product) (bad : Bool) : ArrayState :=
  let y := x.passed row col left (bad && !p.terms.isEmpty)
  if row = 63 then y.bottomTakes col (w.toBottom p bad)
  else y.setCell (row + 1) col { y.cell (row + 1) col with wave := some (w.through p bad) }

section Hop

variable (x : ArrayState) {row : Nat} (col : Nat) (left : Cell) (w : Wave) (p : Product) (bad : Bool)

theorem passed_failRow (fails : Bool) : (x.passed row col left fails).failRow =
    if fails then x.failRow.or (some row) else x.failRow := by
  cases fails <;> rfl

/-- A cell's part touches no bottom stage. -/
theorem passed_bottom_refusing (fails : Bool) : (x.passed row col left fails).bottom = x.bottom ∧
    (x.passed row col left fails).refusing = x.refusing := by
  cases fails <;> exact ⟨rfl, rfl⟩

theorem passed_cell (fails : Bool) : (x.passed row col left fails).cell row col = left := setCell_cell ..

/-- Above row 63 the wave goes on to the next row, and the bottom stage stays as it is. -/
theorem hop_of_inner (h : row < 63) :
    ((x.hop row col left w p bad).cell (row + 1) col).wave = some (w.through p bad) ∧
      (x.hop row col left w p bad).failRow =
        (if bad && !p.terms.isEmpty then x.failRow.or (some row) else x.failRow) ∧
      (x.hop row col left w p bad).cell row col = left ∧ (x.hop row col left w p bad).bottom = x.bottom := by
  rw [ArrayState.hop, if_neg (Nat.ne_of_lt h)]
  refine ⟨by rw [setCell_cell], passed_failRow x col left _, ?_, (passed_bottom_refusing x col left _).1⟩
  rw [setCell_cell_ne _ _ (cellKey_succ_ne row col).symm, passed_cell]

/-- From row 63 the wave goes to the bottom stage. -/
theorem hop_of_last : x.hop 63 col left w p bad =
    (x.passed 63 col left (bad && !p.terms.isEmpty)).bottomTakes col (w.toBottom p bad) := by
  rw [ArrayState.hop]
  exact if_pos rfl

theorem bottomTakes_cell (v : Wave) (r c : Nat) : (x.bottomTakes col v).cell r c = x.cell r c := by
  unfold ArrayState.bottomTakes
  split <;> rfl

theorem hop_of_last_cell : (x.hop 63 col left w p bad).cell 63 col = left := by
  rw [hop_of_last, bottomTakes_cell, passed_cell]

/-- A wave without a mark stands at a bottom stage that refuses none. -/
theorem hop_of_last_sound (hw : w.checkFail = false) (hx : x.refusing = false) :
    tabFind (x.hop 63 col left w p false).bottom col =
      some { w with val := bottomVal p.chainOut (addTerms w.val p.terms), toLower := p.chainOut } := by
  have hwave : w.toBottom p false =
      { w with val := bottomVal p.chainOut (addTerms w.val p.terms), toLower := p.chainOut } := by
    simp [Wave.toBottom, Wave.through, hw]
  rw [hop_of_last, ArrayState.bottomTakes, if_neg (by simp [hwave, hw, (passed_bottom_refusing ..).2, hx]), hwave]
  exact tabFind_tabSet_same ..

/-- A marked wave, or one that comes after it, is refused with what other columns had brought for the accumulator (R125). -/
theorem hop_of_last_refused (h : w.checkFail = true ∨ x.refusing = true ∨ (bad && !p.terms.isEmpty) = true) :
    (x.hop 63 col left w p bad).refusing = true ∧
      (x.hop 63 col left w p bad).bottom = x.bottom.filter (fun e => e.2.toLower) := by
  have hrefused : ((w.toBottom p bad).checkFail ||
      (x.passed 63 col left (bad && !p.terms.isEmpty)).refusing) = true := by
    rw [(passed_bottom_refusing ..).2]
    simp only [Wave.toBottom, Wave.through, Bool.or_eq_true]
    tauto
  rw [hop_of_last, ArrayState.bottomTakes, if_pos hrefused, (passed_bottom_refusing ..).1]
  exact ⟨rfl, rfl⟩

end Hop

/-! ### WAVE_HOP (R113, R117) -/

/-- The bottom stage of the array above gives up its wave of a column. -/
def State.takeUpper (s : State) (die a col : Nat) : State :=
  s.modArray die (a - 1) (fun y => { y with bottom := tabDel y.bottom col })

section Events

variable {s : State} {dt : Nat} {die : Fin 12} {a : Fin 32} {row col : Fin 64} {p : Product} {ps : List Product} {w : Wave}
  (hprods : ((s.array die a).cell row col).prods = p :: ps) (hwave : s.waveAt die a row col p = some w)
  (hheld : s.arrayHeld die a = false)

include hprods hwave hheld

/-- A wave with a free place to go to hops. -/
theorem waveHop_of_free (bad : Bool) (hfree : (if row.val = 63 then (tabFind (s.array die a).bottom col).isNone
      else ((s.array die a).cell (row.val + 1) col).wave.isNone) = true) :
    exec (.waveHop dt die a row ⟨col, bad⟩) s =
      .next ((if row.val = 0 && p.chainIn then (s.advance dt).takeUpper die a col else s.advance dt).modArray die a
        (fun x => x.hop row col (((s.array die a).cell row col).pass w p) w p bad)) := by
  have hprods' : (((s.advance dt).array die a).cell row col).prods = p :: ps := hprods
  have hwave' : (s.advance dt).waveAt die a row col p = some w := hwave
  rw [exec_waveHop, execWaveHop]
  simp only [hprods', hwave']
  exact if_neg (by
    rw [show (s.advance dt).arrayHeld die a = false from hheld, Bool.or_false, Bool.not_eq_true', Bool.not_eq_false]
    exact hfree)

/-- A wave that comes from no other array hops within its own. -/
theorem waveHop_of_own (bad : Bool) (hown : p.chainIn = false ∨ 0 < row.val)
    (hfree : (if row.val = 63 then (tabFind (s.array die a).bottom col).isNone
      else ((s.array die a).cell (row.val + 1) col).wave.isNone) = true) :
    exec (.waveHop dt die a row ⟨col, bad⟩) s = .next ((s.advance dt).modArray die a
      (fun x => x.hop row col (((s.array die a).cell row col).pass w p) w p bad)) := by
  have hnot : ¬(decide (row.val = 0) && p.chainIn) = true := by
    rcases hown with h | h
    · simp [h]
    · simp [Nat.ne_of_gt h]
  rw [waveHop_of_free hprods hwave hheld bad hfree, if_neg hnot]

end Events

/-- Settles O33: a hop changes its own array as `ArrayState.hop` says, and of the array above, where it takes its wave
from there, the bottom stage alone. -/
theorem wavesHop : Obligations.WavesHop := by
  intro dt die a row col s p ps w hprods hwave hheld
  have hother (u : State) (f : ArrayState → ArrayState) (b : Nat) (hb : b ≠ a.val) :
      (u.modArray die a f).array die b = u.array die b := modArray_array_ne u f hb
  refine ⟨?_, ?_, ?_, ?_⟩
  · intro hrow hown hnext bad
    refine ⟨_, waveHop_of_own hprods hwave hheld bad hown (by simp [Nat.ne_of_lt hrow, hnext]), ?_⟩
    rw [modArray_array]
    obtain ⟨hgoes, hnoted, hleft, hbottom⟩ := hop_of_inner (s.array die a) col
      (((s.array die a).cell row col).pass w p) w p bad hrow
    exact ⟨hgoes, hnoted, hleft, hbottom, fun b _ hb => hother _ _ b hb, rfl⟩
  · intro hrow hchain ha hnext bad
    have hupper : a.val - 1 ≠ a.val := by omega
    have hself : ((s.advance dt).takeUpper die a col).array die a = s.array die a :=
      modArray_array_ne (s.advance dt) _ hupper.symm
    obtain ⟨hgoes, -, hleft, hbottom⟩ := hop_of_inner (s.array die a) col
      (((s.array die a).cell row col).pass w p) w p bad (row := row.val) (by omega)
    refine ⟨_, (waveHop_of_free hprods hwave hheld bad (by simp [hrow, hnext])).trans
      (by rw [if_pos (by simp [hrow, hchain])]), ?_⟩
    rw [modArray_array, hself, hother _ _ _ hupper]
    rw [show row.val + 1 = 1 by rw [hrow]] at hgoes
    exact ⟨hgoes, hleft, hbottom, modArray_array .., fun b _ hb hbu =>
      (hother _ _ b hb).trans (modArray_array_ne (s.advance dt) _ hbu), rfl⟩
  · intro hrow hbottom hsound hserves
    refine ⟨_, waveHop_of_own hprods hwave hheld false (.inr (by omega)) (by simp [hrow, hbottom]), ?_⟩
    rw [modArray_array, hrow]
    exact ⟨hop_of_last_sound _ _ _ _ _ hsound hserves, hop_of_last_cell .., fun b _ hb => hother _ _ b hb, rfl⟩
  · intro bad hrow hbottom hrefused
    refine ⟨_, waveHop_of_own hprods hwave hheld bad (.inr (by omega)) (by simp [hrow, hbottom]), ?_⟩
    rw [modArray_array, hrow]
    obtain ⟨hrefuses, hkept⟩ := hop_of_last_refused (s.array die a) col
      (((s.array die a).cell 63 col).pass w p) w p bad hrefused
    exact ⟨hrefuses, hkept, hop_of_last_cell .., fun b _ hb => hother _ _ b hb, rfl⟩

end Sys2Proof.Machine
end

section
/-! PROOF. The events of an array (chapters 05 to 07): its edge words, its broadcasts, what its accumulator takes, and
the spills of its slots. -/

namespace Sys2Proof.Machine

theorem exec_edgeWordWrite (dt : Nat) (die : Fin 12) (f : FeedStep) (s : State) :
    exec (.edgeWordWrite dt die f) s = execEdgeWordWrite dt die f s := rfl

theorem exec_broadcast (dt : Nat) (die : Fin 12) (f : FeedStep) (s : State) :
    exec (.broadcast dt die f) s = execBroadcast dt die f s := rfl

theorem exec_waveAccumulate (dt : Nat) (die : Fin 12) (a : Fin 32) (s : State) :
    exec (.waveAccumulate dt die a) s = execWaveAccumulate dt die a s := rfl

theorem exec_spillWriteback (dt : Nat) (die : Fin 12) (a : Fin 32) (s : State) :
    exec (.spillWriteback dt die a) s = execSpillWriteback dt die a s := rfl

/-! ### What passing time leaves of an array's side -/

@[simp] theorem advance_array (s : State) (dt die a : Nat) : (s.advance dt).array die a = s.array die a := rfl

@[simp] theorem advance_job (s : State) (dt : Nat) (ref : CmdRef) : (s.advance dt).job ref = s.job ref := rfl

@[simp] theorem advance_arrayHeld (s : State) (dt die a : Nat) :
    (s.advance dt).arrayHeld die a = s.arrayHeld die a := rfl

@[simp] theorem advance_arrayPaused (s : State) (dt die a : Nat) :
    (s.advance dt).arrayPaused die a = s.arrayPaused die a := rfl

@[simp] theorem advance_diePaused (s : State) (dt die : Nat) : (s.advance dt).diePaused die = s.diePaused die := rfl

@[simp] theorem advance_castStopped (s : State) (dt die a : Nat) :
    (s.advance dt).castStopped die a = s.castStopped die a := rfl

@[simp] theorem advance_slotBusy (s : State) (dt order : Nat) (slots : List (Nat × Nat × Nat × Nat)) :
    (s.advance dt).slotBusy order slots = s.slotBusy order slots := rfl

@[simp] theorem advance_entryBusy (s : State) (dt order : Nat) (entries : List (Nat × Nat × Nat)) :
    (s.advance dt).entryBusy order entries = s.entryBusy order entries := rfl

section Events

variable {s : State} {dt : Nat} {die : Fin 12} {a : Fin 32} {ref : CmdRef} {q : List CmdRef} {c : Cmd} {j : ArrayJob}

/-! ### Edge words (R118, R135) -/

theorem countFeedPoison_mem (s : State) (die n : Nat) : (s.countFeedPoison die n).mem = s.mem := by
  unfold State.countFeedPoison
  split <;> rfl

theorem issueWord_mem (s : State) (c : Cmd) (j : ArrayJob) (a i : Nat) : (s.issueWord c j a i).mem = s.mem :=
  countFeedPoison_mem ..

section EdgeWord

variable (hqueue : (s.array die a).edgeQ = ref :: q) (hjob : s.job ref = some (c, j))
  (hruns : s.arrayPaused die a = false) (hleft : j.edgePos.getD (a.val - j.lead) 0 < j.passes * 64)

include hqueue hjob hruns hleft

theorem edgeWordWrite_of_next (late : Bool) : exec (.edgeWordWrite dt die ⟨a, late⟩) s =
    if late && edgeMayWait (arrParams c) j (a.val - j.lead) then .next ((s.advance dt).countFeedWait ref j 1)
    else if !(s.array die a).rowOpen (j.edgePos.getD (a.val - j.lead) 0 % 64) then .next (s.advance dt)
    else .next ((s.advance dt).issueWord c { j with feedLate := false } a (a.val - j.lead)) := by
  rw [exec_edgeWordWrite, execEdgeWordWrite]
  simp only [advance_array, advance_job, advance_arrayPaused, hqueue, hjob, hruns]
  exact if_neg (by simpa using hleft)

theorem edgeWordWrite_of_open (hopen : (s.array die a).rowOpen (j.edgePos.getD (a.val - j.lead) 0 % 64) = true) :
    exec (.edgeWordWrite dt die ⟨a, false⟩) s =
      .next ((s.advance dt).issueWord c { j with feedLate := false } a (a.val - j.lead)) := by
  rw [edgeWordWrite_of_next hqueue hjob hruns hleft, Bool.false_and, hopen]
  rfl

theorem edgeWordWrite_of_late (hwait : edgeMayWait (arrParams c) j (a.val - j.lead) = true) :
    exec (.edgeWordWrite dt die ⟨a, true⟩) s = .next ((s.advance dt).countFeedWait ref j 1) := by
  rw [edgeWordWrite_of_next hqueue hjob hruns hleft, hwait]
  rfl

end EdgeWord

/-! ### Broadcasts (R111, R135, R404) -/

theorem broadcast_of_paused (h : s.diePaused die = true) (late : Bool) : exec (.broadcast dt die ⟨a, late⟩) s =
    .next ((s.advance dt).modDie die (fun d => { d with pausedSteps := satAdd 32 d.pausedSteps 1 })) := if_pos h

section Broadcast

variable (hruns : s.diePaused die = false) (hreplay : (s.array die a).replay = [])
  (hqueue : (s.array die a).bcastQ = ref :: q) (hserves : s.arrayPaused die a = false) (hjob : s.job ref = some (c, j))
  (hleft : j.bcastPos < j.passes * j.m) (hcasts : s.castStopped die a = false)
  (hgang : ∀ b ∈ j.gang, (s.array die b).bcastQ.head? = some ref ∧ (s.array die b).replay = [] ∧
    s.arrayPaused die b = false ∧ s.castStopped die b = false)

include hruns hreplay hqueue hserves hjob hleft hcasts hgang

/-- A gang whose every array has the command in front comes to its next broadcast. -/
theorem broadcast_of_front (late : Bool) : exec (.broadcast dt die ⟨a, late⟩) s =
    if late && castMayWait c (arrParams c) (j.bcastPos / j.m) (j.bcastPos % j.m) (List.range j.chain) then
      .next ((s.advance dt).countFeedWait ref j j.gang.length)
    else if !(j.gang.all (fun b => (s.array die b).hasWeights (j.tagOf (b - j.lead) (j.bcastPos / j.m)) ref)) then
      .next ((s.advance dt).countEdgeWait c j j.gang.length)
    else if !(j.gang.all (fun b => (s.array die b).hasRoom)) then .next (s.advance dt)
    else .next (((s.advance dt).completeBroadcast c { j with feedLate := false }).measureRate die) := by
  have hfront : j.gang.all (fun b => (s.array die b).bcastQ.head? == some ref && (s.array die b).replay.isEmpty &&
      !s.arrayPaused die b && !s.castStopped die b) = true := by
    rw [List.all_eq_true]
    intro b hb
    obtain ⟨hhead, hnone, hrun, hcast⟩ := hgang b hb
    simp [hhead, hnone, hrun, hcast]
  rw [exec_broadcast, execBroadcast]
  simp only [advance_array, advance_job, advance_arrayPaused, advance_diePaused, advance_castStopped, hruns, hserves,
    hcasts, hreplay, hqueue, hjob, hfront]
  exact (if_neg Bool.false_ne_true).trans ((if_neg Bool.false_ne_true).trans (if_neg (by simpa using hleft)))

theorem broadcast_of_late
    (hwait : castMayWait c (arrParams c) (j.bcastPos / j.m) (j.bcastPos % j.m) (List.range j.chain) = true) :
    exec (.broadcast dt die ⟨a, true⟩) s = .next ((s.advance dt).countFeedWait ref j j.gang.length) := by
  rw [broadcast_of_front hruns hreplay hqueue hserves hjob hleft hcasts hgang, hwait]
  rfl

theorem broadcast_of_room
    (hroom : ∀ b ∈ j.gang, (s.array die b).hasWeights (j.tagOf (b - j.lead) (j.bcastPos / j.m)) ref = true ∧
      (s.array die b).hasRoom = true) : exec (.broadcast dt die ⟨a, false⟩) s =
        .next (((s.advance dt).completeBroadcast c { j with feedLate := false }).measureRate die) := by
  rw [broadcast_of_front hruns hreplay hqueue hserves hjob hleft hcasts hgang,
    List.all_eq_true.mpr fun b hb => (hroom b hb).1, List.all_eq_true.mpr fun b hb => (hroom b hb).2]
  rfl

theorem broadcast_of_no_weights
    (hnone : ∃ b ∈ j.gang, (s.array die b).hasWeights (j.tagOf (b - j.lead) (j.bcastPos / j.m)) ref = false) :
    exec (.broadcast dt die ⟨a, false⟩) s = .next ((s.advance dt).countEdgeWait c j j.gang.length) := by
  rw [broadcast_of_front hruns hreplay hqueue hserves hjob hleft hcasts hgang,
    List.all_eq_false.mpr (by simpa using hnone)]
  rfl

end Broadcast

/-! ### The accumulator (R153, R154) -/

/-- The accumulator takes the oldest row, whose `waves` all stand at the bottom stage. -/
theorem waveAccumulate_of_whole_row {f : Flight} {rest : List Flight} {waves : List Wave}
    (hflight : (s.array die a).flight = f :: rest) (hheld : s.arrayHeld die a = false) (hjob : s.job f.cmd = some (c, j))
    (hwaves : waves = (List.range 64).filterMap
      (fun col => (tabFind (s.array die a).bottom col).filter (fun w => !w.toLower)))
    (hwhole : waves.length = 64)
    (hnew : j.accPos.getD (j.outs.idxOf a.val) 0 ≤ f.pass * j.m + f.vec)
    (hfree : s.slotBusy c.startOrder (waveSlots j a f) = false)
    (hcopied : j.mode < 2 → (s.array die a).rowPending (j.slot + f.vec / 64) (f.vec % 64) = false) :
    exec (.waveAccumulate dt die a) s =
      .next (((((s.advance dt).modArray die a (fun x => { x with flight := rest, bottom := [] })).takeRow c j
        (j.outs.idxOf a.val) a f ((waves.take (outCols (arrParams c).shape)).map
          (fun w => toF32 (w.val.getD Num.zero))))).checkArray f.cmd) := by
  have hpending : (decide (j.mode < 2) && (s.array die a).rowPending (j.slot + f.vec / 64) (f.vec % 64)) = false := by
    by_cases hmode : j.mode < 2
    · rw [hcopied hmode, Bool.and_false]
    · simp [hmode]
  rw [exec_waveAccumulate, execWaveAccumulate]
  simp only [advance_array, advance_job, advance_arrayHeld, advance_slotBusy, hflight, hjob, hheld, hfree, hpending,
    ← hwaves, hwhole]
  exact (if_neg (by decide)).trans
    ((if_neg (Nat.not_lt.mpr hnew)).trans ((if_neg Bool.false_ne_true).trans (if_neg Bool.false_ne_true)))

end Events

/-! ### Spills (R158, R159) -/

/-- A fold over a state and what it counts or collects keeps of the state what each of its steps keeps. -/
theorem foldl_fst_keeps {α β : Type} {R : State → State → Prop} (hrfl : ∀ s, R s s)
    (htrans : ∀ s t u, R s t → R t u → R s u) {f : State × β → α → State × β} (as : List α)
    (hf : ∀ x, ∀ e ∈ as, R x.1 (f x e).1) (x : State × β) : R x.1 (as.foldl f x).1 := by
  induction as generalizing x with
  | nil => exact hrfl x.1
  | cons e as ih =>
    exact htrans _ _ _ (hf x e List.mem_cons_self) (ih (fun y g hg => hf y g (List.mem_cons_of_mem e hg)) (f x e))

theorem SameBut.rfl (s : State) (k n : Nat) : SameBut s s k n := fun _ _ => Eq.refl _

theorem SameBut.trans {s t u : State} {k n : Nat} (hst : SameBut s t k n) (htu : SameBut t u k n) : SameBut s u k n :=
  fun x hx => (htu x hx).trans (hst x hx)

/-- One element writes its own word of the entry, which it may leave poisoned. -/
theorem spillElem_eq (die entry : Nat) (write : Bool) (x : State × Nat) (e : Nat × W32 × Bool) :
    ∃ bs, bs.length = 8 ∧ ((spillElem die entry write x e).1 = x.1.write (dieKey 4 die (entry + 8 * e.1)) bs ∨
      (spillElem die entry write x e).1 =
        (x.1.write (dieKey 4 die (entry + 8 * e.1)) bs).markPoison [dieKey 4 die (entry + 8 * e.1)]) := by
  have hlength (hi lo : Nat) : (toBytes 4 hi ++ toBytes 4 lo).length = 8 := by simp [toBytes_length]
  unfold spillElem
  dsimp only
  split
  · exact ⟨_, hlength .., .inr rfl⟩
  · exact ⟨_, hlength .., .inl rfl⟩

theorem dieKey_add (space die off n : Nat) : dieKey space die (off + n) = dieKey space die off + n :=
  (Nat.add_assoc ..).symm

/-- An element of the entry's 4,096 keeps within the entry (R157). -/
theorem spillElem_within (die entry : Nat) (write : Bool) (x : State × Nat) {e : Nat × W32 × Bool} (he : e.1 < 4096) :
    SameBut x.1 (spillElem die entry write x e).1 (dieKey 4 die entry) 32768 := by
  obtain ⟨bs, hlength, h | h⟩ := spillElem_eq die entry write x e
  all_goals
    intro k hk
    rw [h]
    exact memRead_writeBytes_out _ _ _ _ _ (by rw [dieKey_add, hlength]; omega)

/-- Two states that agree in a die's count of spills, in every other die, and in the commit state. -/
structure KeepsSpills (die : Nat) (s t : State) : Prop where
  spills : (t.die die).spills = (s.die die).spills
  others : ∀ d, d ≠ die → t.die d = s.die d
  commit : t.commit = s.commit

section Keeps

variable {s t u : State} {die : Nat}

theorem KeepsSpills.rfl (s : State) : KeepsSpills die s s := ⟨Eq.refl _, fun _ _ => Eq.refl _, Eq.refl _⟩

theorem KeepsSpills.trans (hst : KeepsSpills die s t) (htu : KeepsSpills die t u) : KeepsSpills die s u :=
  ⟨htu.spills.trans hst.spills, fun d hd => (htu.others d hd).trans (hst.others d hd), htu.commit.trans hst.commit⟩

/-- What leaves the dies and the commit alone keeps the spills. -/
theorem keepsSpills_of_same (hdies : t.dies = s.dies) (hcommit : t.commit = s.commit) : KeepsSpills die s t := by
  have hdie (d : Nat) : t.die d = s.die d := by rw [State.die, hdies]; exact Eq.refl _
  exact ⟨by rw [hdie], fun d _ => hdie d, hcommit⟩

theorem keepsSpills_setJob (s : State) (ref : CmdRef) (j : ArrayJob) : KeepsSpills die s (s.setJob ref j) :=
  keepsSpills_of_same (Eq.refl _) (Eq.refl _)

theorem keepsSpills_spillElem (entry : Nat) (write : Bool) (x : State × Nat) (e : Nat × W32 × Bool) (n : Nat) :
    KeepsSpills die x.1 (spillElem n entry write x e).1 := by
  obtain ⟨bs, -, h | h⟩ := spillElem_eq n entry write x e <;> rw [h] <;>
    exact keepsSpills_of_same (Eq.refl _) (Eq.refl _)

theorem keepsSpills_countAccPoison (s : State) (n : Nat) : KeepsSpills die s (s.countAccPoison die n) := by
  unfold State.countAccPoison
  split
  · exact .rfl s
  · exact ⟨by rw [modDie_die], fun d hd => modDie_die_ne _ _ _ _ hd, Eq.refl _⟩

theorem keepsSpills_copyRow (s : State) (a slot row cols : Nat) :
    KeepsSpills die s (s.copyRow die a slot row cols).1 :=
  .trans (t := s.writeSlotRow die a slot row (List.replicate cols 0)) (keepsSpills_of_same (Eq.refl _) (Eq.refl _))
    (keepsSpills_countAccPoison ..)

/-- The rows of the next spill leave their slot, which counts their poison (R159, R169). -/
theorem keepsSpills_nextStaging (s : State) (a : Nat) : KeepsSpills die s (s.nextStaging die a) := by
  unfold State.nextStaging
  split
  · exact keepsSpills_of_same (Eq.refl _) (Eq.refl _)
  · next b rest _ =>
    refine .trans (foldl_fst_keeps .rfl (fun _ _ _ => .trans) b.rows (fun x r _ => ?_) (s, []))
      (keepsSpills_of_same (Eq.refl _) (Eq.refl _))
    exact keepsSpills_copyRow x.1 a b.slot r.row r.cols

/-- A command that the accumulator has finished with reports, and records poison it met. -/
theorem keepsSpills_checkArray (s : State) (ref : CmdRef) : KeepsSpills die s (s.checkArray ref) := by
  have hrecord (c : Cmd) (addr : Nat) : KeepsSpills die s (s.poisonConsumed c addr) := by
    rw [State.poisonConsumed, logRec_eq]
    exact keepsSpills_of_same (Eq.refl _) (Eq.refl _)
  have hfinish (t : State) (st : Status) (detail : Nat) (body : List Byte) :
      KeepsSpills die t (t.finish ref st detail body) := keepsSpills_of_same (Eq.refl _) (Eq.refl _)
  unfold State.checkArray
  split
  · exact .rfl s
  · dsimp only
    split
    · refine .trans ?_ (hfinish ..)
      split
      · exact .rfl s
      · exact hrecord ..
    · exact .rfl s

end Keeps

/-- A full staged slot is written into its entry, and counted. -/
theorem spillWriteback_of_full {s : State} {dt : Nat} {die : Fin 12} {a : Fin 32} {b : SpillJob} {c : Cmd} {j : ArrayJob}
    (hstaged : (s.array die a).staging = some b) (hjob : s.job b.cmd = some (c, j)) (hheld : s.arrayHeld die a = false)
    (hfull : b.want ≤ b.rows.length) (hfree : s.entryBusy c.startOrder [(die.val, b.addr, 1)] = false) :
    exec (.spillWriteback dt die a) s =
      .next ((((((b.rows.flatMap SpillRow.elems).foldl (spillElem die b.addr b.write) (s.advance dt, 0)).1.modDie die
        (fun d => { d with spills := d.spills + 1 })).setJob b.cmd { j with spillsLeft := j.spillsLeft - 1 }).nextStaging
          die a).checkArray b.cmd) := by
  rw [exec_spillWriteback, execSpillWriteback]
  simp only [advance_array, advance_job, advance_arrayHeld, advance_entryBusy, hstaged, hjob, hheld, hfree]
  exact if_neg (by simpa using hfull)

/-- Settles O32: each event by the guards that its premises decide; of a spill, what its elements, the count and the
next staging leave alone. -/
theorem arrayEvents : Obligations.ArrayEvents := by
  intro dt die a s
  refine ⟨?_, fun late h => broadcast_of_paused h late, ?_, ?_, ?_⟩
  · intro ref q c j hqueue hjob hruns hleft
    exact ⟨fun hopen => ⟨_, edgeWordWrite_of_open hqueue hjob hruns hleft hopen, rfl, issueWord_mem ..⟩,
      edgeWordWrite_of_late hqueue hjob hruns hleft⟩
  · intro ref q c j hruns hreplay hqueue hserves hjob hleft hcasts hgang
    exact ⟨broadcast_of_room hruns hreplay hqueue hserves hjob hleft hcasts hgang,
      broadcast_of_late hruns hreplay hqueue hserves hjob hleft hcasts hgang,
      broadcast_of_no_weights hruns hreplay hqueue hserves hjob hleft hcasts hgang⟩
  · intro f rest waves c j hflight hheld hjob hwaves hwhole hnew hfree hcopied
    exact waveAccumulate_of_whole_row hflight hheld hjob hwaves hwhole hnew hfree hcopied
  · rintro b c j hstaged hjob hheld hfull hfree v rfl
    have hspilled : KeepsSpills die (s.advance dt)
        ((b.rows.flatMap SpillRow.elems).foldl (spillElem die b.addr b.write) (s.advance dt, 0)).1 :=
      foldl_fst_keeps (R := KeepsSpills die) .rfl (fun _ _ _ => .trans) _
        (fun x e _ => keepsSpills_spillElem b.addr b.write x e die) (s.advance dt, 0)
    have hafter (t : State) : KeepsSpills die t
        (((t.setJob b.cmd { j with spillsLeft := j.spillsLeft - 1 }).nextStaging die a).checkArray b.cmd) :=
      .trans (.trans (keepsSpills_setJob ..) (keepsSpills_nextStaging ..)) (keepsSpills_checkArray ..)
    refine ⟨_, spillWriteback_of_full hstaged hjob hheld hfull hfree, rfl, fun hin => ?_, ?_, fun d hd => ?_, ?_⟩
    · exact foldl_fst_keeps (R := fun s t => SameBut s t (dieKey 4 die b.addr) 32768) (SameBut.rfl · _ _)
        (fun _ _ _ => .trans) _ (fun x e he => spillElem_within die b.addr b.write x (hin e he)) (s.advance dt, 0)
    · rw [(hafter _).spills, modDie_die]
      exact congrArg (· + 1) hspilled.spills
    · rw [(hafter _).others d hd, modDie_die_ne _ _ _ _ hd]
      exact hspilled.others d hd
    · exact (hafter _).commit.trans hspilled.commit

end Sys2Proof.Machine
end

section
/-! PROOF. The array commands (chapters 06 and 09): how one takes the ports of its gang, and each outcome of its start. -/

namespace Sys2Proof.Machine

/-! ### The ports of a gang (R144) -/

/-- An array behind whose edge port and broadcast port a further command stands. -/
def ArrayState.claimed (x : ArrayState) (ref : CmdRef) : ArrayState :=
  { x with edgeQ := x.edgeQ ++ [ref], bcastQ := x.bcastQ ++ [ref] }

/-- A command stands behind the ports of each of these arrays of a die. -/
def State.claimArrays (s : State) (die : Nat) (ref : CmdRef) (gang : List Nat) : State :=
  gang.foldl (fun t a => t.modArray die a (fun x => x.claimed ref)) s

section Claims

variable {s : State} {die : Nat} {ref : CmdRef} {gang : List Nat} {a : Nat}

theorem claimArrays_cons (s : State) (die : Nat) (ref : CmdRef) (a : Nat) (gang : List Nat) :
    s.claimArrays die ref (a :: gang) = (s.modArray die a (fun x => x.claimed ref)).claimArrays die ref gang := rfl

theorem claimArrays_frame (s : State) (die : Nat) (ref : CmdRef) (gang : List Nat) :
    s.claimArrays die ref gang = { s with arrays := (s.claimArrays die ref gang).arrays } := by
  induction gang generalizing s with
  | nil => rfl
  | cons a gang ih =>
    rw [claimArrays_cons, ih]
    rfl

/-- An array that is not of the gang stays as it is. -/
theorem claimArrays_array_of_not_mem (h : a ∉ gang) : (s.claimArrays die ref gang).array die a = s.array die a := by
  induction gang generalizing s with
  | nil => rfl
  | cons b gang ih =>
    obtain ⟨hne, hrest⟩ := not_or.mp (List.mem_cons.not.mp h)
    rw [claimArrays_cons, ih hrest, modArray_array_ne s _ hne]

/-- Each array of the gang gets the command once, behind the commands before it. -/
theorem claimArrays_array_of_mem (hnodup : gang.Nodup) (h : a ∈ gang) :
    (s.claimArrays die ref gang).array die a = (s.array die a).claimed ref := by
  induction gang generalizing s with
  | nil => exact absurd h List.not_mem_nil
  | cons b gang ih =>
    obtain ⟨hb, hrest⟩ := List.nodup_cons.mp hnodup
    rw [claimArrays_cons]
    rcases List.mem_cons.mp h with rfl | hmem
    · rw [claimArrays_array_of_not_mem hb, modArray_array]
    · rw [ih hrest hmem, modArray_array_ne s _ (ne_of_mem_of_not_mem hmem hb)]

end Claims

theorem gangOf_nodup (p : ArrParams) : (gangOf p).Nodup :=
  List.nodup_range.map (fun _ _ h => Nat.add_left_cancel h)

/-! ### What an array command's start changes (R144, R197) -/

section Start

variable (s : State) (c : Cmd) (p : ArrParams)

/-- Besides the ports of its gang, a start changes the host port and a layer's pins alone. -/
theorem startArray_frame : s.startArray c p = { s.claimArrays p.die c.ref (gangOf p) with
    host := (s.startArray c p).host, layers := (s.startArray c p).layers } := by
  unfold State.startArray
  dsimp only
  split
  · split <;> rfl
  · rfl

theorem startArray_mem : (s.startArray c p).mem = s.mem := by
  rw [startArray_frame, claimArrays_frame]

theorem startArray_poison : (s.startArray c p).poison = s.poison := by
  rw [startArray_frame, claimArrays_frame]

theorem startArray_array (die a : Nat) :
    (s.startArray c p).array die a = (s.claimArrays p.die c.ref (gangOf p)).array die a := by
  rw [startArray_frame]
  rfl

variable {p} {a : Nat}

theorem startArray_array_of_mem (h : a ∈ gangOf p) :
    (s.startArray c p).array p.die a = (s.array p.die a).claimed c.ref := by
  rw [startArray_array, claimArrays_array_of_mem (gangOf_nodup p) h]

theorem startArray_array_of_not_mem (h : a ∉ gangOf p) :
    (s.startArray c p).array p.die a = s.array p.die a := by
  rw [startArray_array, claimArrays_array_of_not_mem h]

end Start

/-! ### The outcomes of a start (R145, R196, R197, R389, R391) -/

section Outcomes

variable {s u : State} {c : Cmd} {ring op : Nat} (htaken : s.take ring op = some (c, u))

include htaken

theorem arrayCommand_of_fail {o : Nat} (hfail : arrFail u c (arrParams c) = some o) :
    s.arrayCommand ring op = .next (u.badParam c o) := by
  simp only [State.arrayCommand, htaken, hfail]

variable (hchecks : arrFail u c (arrParams c) = none)

include hchecks

theorem arrayCommand_of_bad_version {o : Nat} (hversion : u.versionCheck c = .bad o) :
    s.arrayCommand ring op = .next (u.badParam c o) := by
  simp only [State.arrayCommand, htaken, hchecks, hversion]

theorem arrayCommand_of_version_gone (hversion : u.versionCheck c = .gone) :
    s.arrayCommand ring op = .next (u.complete { c with start := none } .versionGone 0 []) := by
  simp only [State.arrayCommand, htaken, hchecks, hversion]

/-- A command that passes every check does what the state of its die says. -/
theorem arrayCommand_of_pass (hversion : u.versionCheck c = .pass) : s.arrayCommand ring op =
    if u.dieRefuses (arrParams c).die then .next (u.complete c .faulted 0 [])
    else if u.dieWaits (arrParams c).die then .next s
    else .next (u.startArray c (arrParams c)) := by
  simp only [State.arrayCommand, htaken, hchecks, hversion, State.idle]

end Outcomes

/-! ### The four commands -/

theorem exec_tileMm (dt : Nat) (r : Fin 17) (s : State) :
    exec (.tileMm dt r) s = (s.advance dt).arrayCommand r 0x10 := rfl

theorem exec_tileConv (dt : Nat) (r : Fin 17) (s : State) :
    exec (.tileConv dt r) s = (s.advance dt).arrayCommand r 0x11 := rfl

theorem exec_tileDgrad (dt : Nat) (r : Fin 17) (s : State) :
    exec (.tileDgrad dt r) s = (s.advance dt).arrayCommand r 0x12 := rfl

theorem exec_tileWgrad (dt : Nat) (r : Fin 17) (s : State) :
    exec (.tileWgrad dt r) s = (s.advance dt).arrayCommand r 0x13 := rfl

/-! ### What a start leaves of the arrays and of memory -/

section Left

variable {s u : State} {dt r op : Nat} {c : Cmd} (h : Starts s dt r op c u)

include h

theorem Starts.array (die a : Nat) : u.array die a = s.array die a := by
  rw [h.frame]
  rfl

theorem Starts.mem : u.mem = s.mem := by
  rw [h.frame, advance_mem]

theorem Starts.poison : u.poison = s.poison := by
  rw [h.frame, advance_poison]

end Left

/-- Settles O31: the four commands start alike; what each outcome leaves is said of the start's own state, whose arrays and
memory are those before it. -/
theorem arrayCommandsStart : Obligations.ArrayCommandsStart := by
  intro dt r s u c i op hcommand hstarts
  have hexec : exec i s = (s.advance dt).arrayCommand r op := by
    rcases hcommand with ⟨rfl, rfl⟩ | ⟨rfl, rfl⟩ | ⟨rfl, rfl⟩ | ⟨rfl, rfl⟩
    · exact exec_tileMm dt r s
    · exact exec_tileConv dt r s
    · exact exec_tileDgrad dt r s
    · exact exec_tileWgrad dt r s
  rw [hexec]
  refine ⟨fun o => arrayCommand_of_fail hstarts.take,
    fun o hchecks => arrayCommand_of_bad_version hstarts.take hchecks, arrayCommand_of_version_gone hstarts.take, ?_, ?_, ?_⟩
  · intro hchecks hversion hserves hfree
    refine ⟨?_, (startArray_mem ..).trans hstarts.mem, (startArray_poison ..).trans hstarts.poison, fun a ha => ?_,
      fun a _ ha => (startArray_array_of_not_mem u c ha).trans (hstarts.array ..)⟩
    · simp [arrayCommand_of_pass hstarts.take hchecks hversion, hserves, hfree]
    · rw [startArray_array_of_mem u c ha]
      exact ⟨List.mem_append_right _ List.mem_cons_self, List.mem_append_right _ List.mem_cons_self⟩
  · intro hchecks hversion hrefuses
    simp [arrayCommand_of_pass hstarts.take hchecks hversion, hrefuses]
  · intro hchecks hversion hserves hheld
    simp [arrayCommand_of_pass hstarts.take hchecks hversion, hserves, hheld]

end Sys2Proof.Machine
end

section
/-! PROOF. DRAIN and SPILL_FLUSH (chapters 07 and 08): how one starts by its SEQ, what holds it, and each outcome of its
run. -/

namespace Sys2Proof.Machine

theorem exec_drain (dt : Nat) (r : Fin 17) (seq : W16) (s : State) :
    exec (.drain dt r seq) s = execDrain dt r seq s := rfl

theorem exec_spillFlush (dt : Nat) (r : Fin 17) (seq : W16) (s : State) :
    exec (.spillFlush dt r seq) s = execSpillFlush dt r seq s := rfl

/-! ### A start by SEQ -/

/-- The command that starts is the front command of its ring, and keeps its SEQ. -/
theorem take_front_seq {s u : State} {r op : Nat} {c : Cmd} (h : s.take r op = some (c, u)) :
    (s.ring r).front.map (·.seq) = some c.seq := by
  obtain ⟨d, hfront, -, -, -, hbegin⟩ := take_some s h
  obtain ⟨rfl, -⟩ := Prod.mk.inj hbegin
  rw [hfront]
  rfl

/-- Where no command of its SEQ has started, the front command of that SEQ starts. -/
theorem startOrGo_of_take {s u : State} {ring op : Nat} {c : Cmd} (start go : Cmd → State → State)
    (h : s.take ring op = some (c, u)) (hfresh : ∀ d ∈ (s.ring ring).cmds, d.seq = c.seq → d.start = none) :
    s.startOrGo ring c.seq op start go = .next (start c u) := by
  have hnone : (s.ring ring).cmds.find? (fun d => d.seq == c.seq && d.opcode == op && d.start.isSome && d.live) = none := by
    rw [List.find?_eq_none]
    intro d hd hgoes
    simp only [Bool.and_eq_true, beq_iff_eq] at hgoes
    obtain ⟨⟨⟨hseq, -⟩, hstarted⟩, -⟩ := hgoes
    simp [hfresh d hd hseq] at hstarted
  simp only [State.startOrGo, hnone, take_front_seq h, if_true, h]

/-- A die that neither refuses commands nor makes them wait is in service. -/
theorem die_in_service {s : State} {d : Nat} (hserves : s.dieRefuses d = false) (hfree : s.dieWaits d = false) :
    (s.die d).outOfService = false := by
  rw [State.dieWaits] at hfree
  rw [State.dieRefuses, bne, hfree] at hserves
  simpa using (Bool.or_eq_false_iff.mp hserves).2

/-! ### DRAIN (R163, R167, R170, R187) -/

/-- What keeps a DRAIN from running now: an earlier command, a repair of its die, or an access that does not go on. -/
def State.drainHeld (s : State) (c : Cmd) : Bool :=
  s.drainBlocked c || s.dieWaits (drainP c).die || c.slots.any (fun x => s.arrayHeld x.1 x.2.1) ||
    s.anyStops ((drainP c).die / 2) (s.drainRanges (ctxOfRing c.ring) (drainP c))

/-- The writes of a drain, by its pipeline or as a row reduction. -/
def State.drainOut (s : State) (k : Nat) (p : DrainP) : State × DrainAcc :=
  if p.kind = 3 then s.exportRows k p else s.drainWrites k p (s.pipe k p)

section DrainRuns

variable {s : State} {c : Cmd}

theorem runDrain_of_held (h : s.drainHeld c = true) : s.runDrain c = s.setWait c.ref .drainOrder none := if_pos h

variable (hfree : s.drainHeld c = false) (hserves : s.dieRefuses (drainP c).die = false)

include hfree hserves

/-- A DRAIN that nothing holds reads its slots, and its pair, before it writes. -/
theorem runDrain_of_free : s.runDrain c =
    if s.readsPartial c then s.complete c .aborted 0 []
    else (s.pairFail (drainP c)).elim
      ((s.drainOut (ctxOfRing c.ring) (drainP c)).1.endDrain c (drainP c) (s.drainOut (ctxOfRing c.ring) (drainP c)).2)
      (s.badParam c) := by
  have hdie : s.dieWaits (drainP c).die = false := by
    simp only [State.drainHeld, Bool.or_eq_false_iff] at hfree
    exact hfree.1.1.2
  have hin := die_in_service hserves hdie
  refine (if_neg (Bool.eq_false_iff.mp hfree)).trans ((if_neg (Bool.eq_false_iff.mp hin)).trans ?_)
  cases s.pairFail (drainP c) <;> rfl

end DrainRuns

section DrainStarts

variable {s u : State} {dt : Nat} {r : Fin 17} {c : Cmd} (h : Starts s dt r 0x14 c u)
  (hfresh : ∀ d ∈ (s.ring r).cmds, d.seq = c.seq → d.start = none)

include h hfresh

theorem drain_of_fail {o : Nat} (hfail : drainFail u c = some o) :
    exec (.drain dt r c.seq) s = .next (u.badParam c o) := by
  rw [exec_drain, execDrain, startOrGo_of_take _ _ h.take hfresh]
  simp only [hfail]

/-- A DRAIN that passes its checks does what its micro-batch and its die say. -/
theorem drain_of_pass (hchecks : drainFail u c = none) : exec (.drain dt r c.seq) s = .next (
    if (drainP c).usesStash && (u.mb (ctxOfRing r) (drainP c).mb).gone then u.complete c .aborted 0 []
    else if u.dieRefuses (drainP c).die then u.complete c .faulted 0 []
    else u.runDrain c) := by
  rw [exec_drain, execDrain, startOrGo_of_take _ _ h.take hfresh]
  simp only [hchecks]

end DrainStarts

/-! ### SPILL_FLUSH (R161, R162, R186) -/

/-- The spill of a SPILL_FLUSH: each of its slots whole, with the number of poisoned words written. -/
def State.flushSlots (s : State) (c : Cmd) : State × Nat :=
  (List.range (c.param 3 1)).foldl (fun acc i => flushSlot (c.param 0 1) (c.param 1 1)
    (addrOffset (c.param 8 8) + 32768 * i) (c.param 4 1 == 1) acc (c.param 2 1 + i)) (s, 0)

section FlushRuns

variable {s : State} {c : Cmd}

theorem runFlush_of_held (h : s.slotBusy c.startOrder c.slots = true ∨ s.entryBusy c.startOrder c.entries = true ∨
    s.flushHeld c = true) : s.runFlush c = s.setWait c.ref .slotOrder none :=
  if_pos (by simpa [or_assoc] using h)

theorem flushHeld_of_dieWaits (h : s.dieWaits (c.param 0 1) = true) : s.flushHeld c = true := by
  simp [State.flushHeld, h]

variable (hslots : s.slotBusy c.startOrder c.slots = false) (hentries : s.entryBusy c.startOrder c.entries = false)
  (hfree : s.flushHeld c = false) (hserves : s.dieRefuses (c.param 0 1) = false)

include hslots hentries hfree hserves

/-- A SPILL_FLUSH that nothing holds arms its pair, or spills its slots where none is PARTIAL. -/
theorem runFlush_of_free : s.runFlush c =
    if 2 ≤ c.param 4 1 then
      (s.armPair (c.param 0 1) (c.param 1 1) (c.param 2 1) (c.param 4 1 == 3) (c.param 0x10 2)).complete c .ok 0 []
    else if (List.range (c.param 3 1)).any (fun i =>
        (s.array (c.param 0 1) (c.param 1 1)).part.toNat.testBit (c.param 2 1 + i)) then s.complete c .aborted 0 []
    else ((s.flushSlots c).1.modDie (c.param 0 1) (fun d => { d with spills := d.spills + c.param 3 1 })).complete c .ok 0
      (bodyOf [(0, 2, c.param 3 1), (4, 4, (s.flushSlots c).2)]) := by
  have hdie : s.dieWaits (c.param 0 1) = false :=
    Bool.eq_false_iff.mpr fun hwaits => Bool.eq_false_iff.mp hfree (flushHeld_of_dieWaits hwaits)
  exact (if_neg (by simp [hslots, hentries, hfree])).trans (if_neg (by simp [die_in_service hserves hdie]))

end FlushRuns

section FlushStarts

variable {s u : State} {dt : Nat} {r : Fin 17} {c : Cmd} (h : Starts s dt r 0x15 c u)
  (hfresh : ∀ d ∈ (s.ring r).cmds, d.seq = c.seq → d.start = none) (hchecks : firstFail (flushChecks u c) = none)

include h hfresh hchecks

theorem spillFlush_of_refused (hrefuses : u.dieRefuses (c.param 0 1) = true) :
    exec (.spillFlush dt r c.seq) s = .next (u.complete c .faulted 0 []) := by
  rw [exec_spillFlush, execSpillFlush, startOrGo_of_take _ _ h.take hfresh]
  simp only [hchecks, hrefuses, if_true]

/-- On a die in service a SPILL_FLUSH runs, or waits where `runFlush` would. -/
theorem spillFlush_of_served (hserves : u.dieRefuses (c.param 0 1) = false) :
    exec (.spillFlush dt r c.seq) s = .next (u.runFlush c) := by
  rw [exec_spillFlush, execSpillFlush, startOrGo_of_take _ _ h.take hfresh]
  simp only [hchecks, hserves, Bool.false_eq_true, if_false]
  cases hwaits : u.dieWaits (c.param 0 1) with
  | false => rfl
  | true => rw [runFlush_of_held (.inr (.inr (flushHeld_of_dieWaits hwaits)))]; rfl

end FlushStarts

/-- Settles O34: both commands start by their SEQ, and then run as `runDrain` and `runFlush` say. -/
theorem drainsAndFlushes : Obligations.DrainsAndFlushes := by
  intro dt r seq s u c hfresh hseq hring
  subst hseq
  refine ⟨?_, fun h => spillFlush_of_refused h hfresh, ?_, ?_⟩
  · intro p k held h hp hk hheld
    subst hp hk
    obtain rfl : held = u.drainHeld c := by rw [hheld, ← hring]; rfl
    refine ⟨fun o => drain_of_fail h hfresh, fun hchecks hstash hgone => ?_, fun hchecks hkept hrefuses => ?_,
      fun hchecks hkept hserves => ?_⟩
    · rw [drain_of_pass h hfresh hchecks, hstash, hgone]
      rfl
    all_goals
      have hstays : ¬((drainP c).usesStash && (u.mb (ctxOfRing r) (drainP c).mb).gone) = true := by
        simpa using hkept
      rw [drain_of_pass h hfresh hchecks, if_neg hstays]
    · rw [hrefuses]
      rfl
    · rw [if_neg (Bool.eq_false_iff.mp hserves)]
      refine ⟨fun hheld => by rw [runDrain_of_held hheld], fun hfree hpart => ?_, fun o hfree hwhole hpair => ?_,
        fun hfree hwhole hpair v acc hout => ?_⟩
      · rw [runDrain_of_free hfree hserves, hpart]
        rfl
      · rw [runDrain_of_free hfree hserves, hwhole, hpair]
        rfl
      · rw [runDrain_of_free hfree hserves, hwhole, hpair]
        obtain ⟨rfl, rfl⟩ := Prod.mk.inj (hout : (v, acc) = u.drainOut (ctxOfRing r) (drainP c))
        rw [← hring]
        rfl
  · intro h hchecks hserves hheld
    rw [spillFlush_of_served h hfresh hchecks hserves, runFlush_of_held hheld]
  · intro h hchecks hserves hslots hentries hfree
    rw [spillFlush_of_served h hfresh hchecks hserves, runFlush_of_free hslots hentries hfree hserves]
    refine ⟨fun ⟨i, hi, hop, hpart⟩ => ?_, fun hop => by rw [if_pos hop], fun hop hwhole v n hspilled => ?_⟩
    · rw [if_neg (by omega), if_pos (List.any_eq_true.mpr ⟨i, List.mem_range.mpr hi, hpart⟩)]
    · replace hspilled : (v, n) = u.flushSlots c := hspilled
      rw [if_neg (by omega), if_neg (by simpa using hwhole), ← hspilled]

end Sys2Proof.Machine
end

section
/-! PROOF. Memory errors (chapter 10): what ECC makes of a unit that is read, what a controller counts of it, and the
retries of a far-tier transfer. -/

namespace Sys2Proof.Machine

theorem exec_patrolScrub (dt : Nat) (a : W64) (bad : Nat) (passDone : Bool) (s : State) :
    exec (.patrolScrub dt a bad passDone) s = execPatrolScrub dt a bad passDone s := rfl

theorem exec_farParityFailure (dt : Nat) (f : Fin 16) (x : FarTransfer) (s : State) :
    exec (.farParityFailure dt f x) s = execFarParityFailure dt f x s := rfl

/-! ### What ECC reports (R213, R214) -/

section Ecc

variable {bad : Nat} (free : W64)

theorem reported_of_none (far : Bool) : (eccOf far 0 free).reported = .clean := rfl

theorem near_reported_of_one : (eccOf false 1 free).reported = .corrected := rfl

theorem near_reported_of_at_most_one (h : bad ≤ 1) : (eccOf false bad free).reported ≠ .uncorrectable := by
  obtain rfl | rfl : bad = 0 ∨ bad = 1 := by omega
  · rw [reported_of_none]
    decide
  · rw [near_reported_of_one]
    decide

theorem near_reported_of_two : (eccOf false 2 free).reported = .uncorrectable := rfl

theorem far_reported_of_few (hlow : 1 ≤ bad) (hhigh : bad ≤ 3) : (eccOf true bad free).reported = .corrected := by
  rw [eccOf, if_neg (by omega), if_pos rfl, if_pos hhigh]
  rfl

theorem far_reported_of_many (hlow : 4 ≤ bad) (hhigh : bad ≤ 5) : (eccOf true bad free).reported = .uncorrectable := by
  rw [eccOf, if_neg (by omega), if_pos rfl, if_neg (by omega), if_pos hhigh]
  rfl

end Ecc

/-! ### What a controller counts of a unit (R215, R216) -/

theorem SameButReports.memory {s t : State} (h : SameButReports s t) :
    t.mem = s.mem ∧ t.poison = s.poison ∧ t.dies = s.dies ∧ t.farStacks = s.farStacks :=
  ⟨(congrArg State.mem h.eq :), (congrArg State.poison h.eq :), (congrArg State.dies h.eq :),
    (congrArg State.farStacks h.eq :)⟩

/-- A die that holds an uncorrectable error of an offset of one of its spaces, found at a Tidemark. -/
def Die.uncorrectable (d : Die) (space off tide : Nat) : Die :=
  { d with
    nearUncorr := satAdd 32 d.nearUncorr 1, nearUncorrTide := tide, nearPoisonSpace := spaceCode space
    nearPoisonOffset := off / 8 * 8
    bankBad := if space = 4 then (nearChannelOf off * 32 + nearBankOf off) :: d.bankBad else d.bankBad }

/-- A far stack that holds an uncorrectable error of an offset, found at a Tidemark. -/
def Stack.uncorrectable (x : Stack) (off tide : Nat) : Stack :=
  { x with uncorr := satAdd 32 x.uncorr 1, uncorrTide := tide, poisonOffset := off / 64 * 64 }

/-- What a controller does with a unit that it has read. -/
def State.scrubUnit (s : State) (u : Nat) (c : Controller) (found : Ecc) : State :=
  if s.unitPoisoned u then s else match found with
    | .corrected => s.noteCorrected u c
    | .uncorrectable => s.noteUncorrectable u c
    | _ => s

section Unit

variable (s : State) (u : Nat)

theorem mem_markPoison_one (v : Nat) : v ∈ (s.markPoison [u]).poison ↔ v = u ∨ v ∈ s.poison := mem_poisonAdd ..

/-- An uncorrectable error of a die marks its unit and its die; all else is the report. -/
theorem noteUncorrectable_near (die space off : Nat) :
    SameButReports ((s.markPoison [u]).modDie die (fun d => d.uncorrectable space off s.tide))
      (s.noteUncorrectable u (.near die space off)) :=
  (sameButReports_logRec ..).trans (sameButReports_raise ..)

/-- An uncorrectable error of a far stack marks its unit and its stack; all else is the report. -/
theorem noteUncorrectable_far (f off : Nat) :
    SameButReports ((s.markPoison [u]).modStack f (fun x => x.uncorrectable off s.tide))
      (s.noteUncorrectable u (.far f off)) :=
  (sameButReports_logRec ..).trans (sameButReports_raise ..)

theorem noteUncorrectable_near_die (die space off : Nat) : (s.noteUncorrectable u (.near die space off)).die die =
    (s.die die).uncorrectable space off s.tide := by
  obtain ⟨-, -, hdies, -⟩ := (noteUncorrectable_near s u die space off).memory
  rw [State.die, hdies]
  exact modDie_die ..

theorem noteUncorrectable_near_die_ne {die n : Nat} (space off : Nat) (h : n ≠ die) :
    (s.noteUncorrectable u (.near die space off)).die n = s.die n := by
  obtain ⟨-, -, hdies, -⟩ := (noteUncorrectable_near s u die space off).memory
  rw [State.die, hdies]
  exact modDie_die_ne (s.markPoison [u]) _ _ _ h

theorem noteUncorrectable_far_stack (f off : Nat) : (s.noteUncorrectable u (.far f off)).stack f =
    (s.stack f).uncorrectable off s.tide := by
  obtain ⟨-, -, -, hstacks⟩ := (noteUncorrectable_far s u f off).memory
  rw [State.stack, hstacks]
  exact modStack_stack ..

theorem noteUncorrectable_far_stack_ne {f g : Nat} (off : Nat) (h : g ≠ f) :
    (s.noteUncorrectable u (.far f off)).stack g = s.stack g := by
  obtain ⟨-, -, -, hstacks⟩ := (noteUncorrectable_far s u f off).memory
  rw [State.stack, hstacks]
  exact modStack_stack_ne (s.markPoison [u]) _ _ _ h

theorem mem_noteUncorrectable_poison (c : Controller) (v : Nat) :
    v ∈ (s.noteUncorrectable u c).poison ↔ v = u ∨ v ∈ s.poison := by
  cases c with
  | near die space off => rw [(noteUncorrectable_near ..).memory.2.1]; exact mem_markPoison_one ..
  | far f off => rw [(noteUncorrectable_far ..).memory.2.1]; exact mem_markPoison_one ..

theorem noteCorrected_poison (c : Controller) : (s.noteCorrected u c).poison = s.poison := by
  cases c <;> rfl

theorem noteCorrected_mem (c : Controller) : (s.noteCorrected u c).mem = s.mem := by
  cases c <;> rfl

theorem noteUncorrectable_mem (c : Controller) : (s.noteUncorrectable u c).mem = s.mem := by
  cases c with
  | near die space off => exact (noteUncorrectable_near ..).memory.1
  | far f off => exact (noteUncorrectable_far ..).memory.1

variable {s u} {c : Controller} {found : Ecc}

theorem scrubUnit_of_poisoned (h : s.unitPoisoned u = true) : s.scrubUnit u c found = s := if_pos h

theorem scrubUnit_of_clean (hfound : found = .clean) : s.scrubUnit u c found = s := by
  subst hfound
  exact ite_self s

theorem scrubUnit_of_corrected (h : s.unitPoisoned u = false) (hfound : found = .corrected) :
    s.scrubUnit u c found = s.noteCorrected u c := by
  subst hfound
  exact if_neg (Bool.eq_false_iff.mp h)

theorem scrubUnit_of_uncorrectable (h : s.unitPoisoned u = false) (hfound : found = .uncorrectable) :
    s.scrubUnit u c found = s.noteUncorrectable u c := by
  subst hfound
  exact if_neg (Bool.eq_false_iff.mp h)

/-- Whatever is found, the unit stays as it was, or its controller notes it as corrected or as uncorrectable. -/
theorem scrubUnit_cases (s : State) (u : Nat) (c : Controller) (found : Ecc) : s.scrubUnit u c found = s ∨
    s.scrubUnit u c found = s.noteCorrected u c ∨ s.scrubUnit u c found = s.noteUncorrectable u c := by
  unfold State.scrubUnit
  split
  · exact .inl rfl
  · cases found with
    | clean => exact .inl rfl
    | corrected => exact .inr (.inl rfl)
    | uncorrectable => exact .inr (.inr rfl)
    | open_ odd => exact .inl rfl

theorem scrubUnit_mem (s : State) (u : Nat) (c : Controller) (found : Ecc) : (s.scrubUnit u c found).mem = s.mem := by
  rcases scrubUnit_cases s u c found with h | h | h <;> rw [h]
  · exact noteCorrected_mem ..
  · exact noteUncorrectable_mem ..

theorem scrubUnit_near_die_ne {die n : Nat} (space off : Nat) (h : n ≠ die) :
    (s.scrubUnit u (.near die space off) found).die n = s.die n := by
  rcases scrubUnit_cases s u (.near die space off) found with hs | hs | hs <;> rw [hs]
  · exact modDie_die_ne s _ _ _ h
  · exact noteUncorrectable_near_die_ne s u space off h

theorem scrubUnit_far_stack_ne {f g : Nat} (off : Nat) (h : g ≠ f) :
    (s.scrubUnit u (.far f off) found).stack g = s.stack g := by
  rcases scrubUnit_cases s u (.far f off) found with hs | hs | hs <;> rw [hs]
  · exact modStack_stack_ne s _ _ _ h
  · exact noteUncorrectable_far_stack_ne s u off h

theorem scrubUnit_far_scrubPass (s : State) (u f off : Nat) (found : Ecc) :
    ((s.scrubUnit u (.far f off) found).stack f).scrubPass = (s.stack f).scrubPass := by
  rcases scrubUnit_cases s u (.far f off) found with h | h | h <;> rw [h]
  · rw [State.noteCorrected, modStack_stack]
  · rw [noteUncorrectable_far_stack, Stack.uncorrectable]

end Unit

/-! ### PATROL_SCRUB (R152, R213, R214) -/

/-- A far stack counts a pass of its scrubber where this unit ends one. -/
def State.countPass (s : State) (f : Nat) (passDone : Bool) : State :=
  if passDone then s.modStack f (fun x => { x with scrubPass := x.scrubPass + 1 }) else s

theorem countPass_mem (s : State) (f : Nat) (passDone : Bool) : (s.countPass f passDone).mem = s.mem := by
  cases passDone <;> rfl

theorem countPass_poison (s : State) (f : Nat) (passDone : Bool) : (s.countPass f passDone).poison = s.poison := by
  cases passDone <;> rfl

theorem countPass_stack (s : State) (f : Nat) (passDone : Bool) : (s.countPass f passDone).stack f =
    { s.stack f with scrubPass := (s.stack f).scrubPass + b2n passDone } := by
  cases passDone with
  | false => rfl
  | true => exact modStack_stack ..

theorem countPass_stack_ne (s : State) {f g : Nat} (passDone : Bool) (h : g ≠ f) :
    (s.countPass f passDone).stack g = s.stack g := by
  cases passDone with
  | false => rfl
  | true => exact modStack_stack_ne s _ _ _ h

section Scrub

variable {s : State} {a : W64} {bad : Nat} (dt : Nat) (passDone : Bool) (hon : s.power.diesPowered = true)

include hon

/-- A word of an accumulator memory has no controller: an uncorrectable error of it only poisons it (R152). -/
theorem patrolScrub_of_accumulator (hacc : isAccKey a.toNat = true) (hbad : bad ≤ 2) :
    exec (.patrolScrub dt a bad passDone) s = .next (
      if (eccOf false bad s.draw.1).reported = .uncorrectable then
        (s.advance dt).markPoison [a.toNat / poisonUnit a.toNat * poisonUnit a.toNat]
      else s.advance dt) := by
  simp only [exec_patrolScrub, execPatrolScrub, advance_power, hon, Bool.not_true, Bool.false_eq_true, if_false, hacc,
    if_true, hbad]
  rfl

variable (hacc : isAccKey a.toNat = false)

include hacc

theorem patrolScrub_of_held (hheld : s.keyHeld a.toNat = true) :
    exec (.patrolScrub dt a bad passDone) s = .next (s.advance dt) := by
  have hheld' : (s.advance dt).keyHeld a.toNat = true := hheld
  simp only [exec_patrolScrub, execPatrolScrub, advance_power, hon, Bool.not_true, Bool.false_eq_true, if_false, hacc,
    hheld', if_true]
  cases (s.advance dt).controllerOf a.toNat <;> rfl

variable (hheld : s.keyHeld a.toNat = false)

include hheld

theorem patrolScrub_of_near {die space off : Nat} (hctl : s.controllerOf a.toNat = some (.near die space off))
    (hbad : bad ≤ 2) : exec (.patrolScrub dt a bad passDone) s = .next ((s.advance dt).scrubUnit
      (a.toNat / poisonUnit a.toNat * poisonUnit a.toNat) (.near die space off) (eccOf false bad s.draw.1).reported) := by
  have hheld' : (s.advance dt).keyHeld a.toNat = false := hheld
  have hctl' : (s.advance dt).controllerOf a.toNat = some (.near die space off) := hctl
  simp only [exec_patrolScrub, execPatrolScrub, advance_power, hon, Bool.not_true, Bool.false_eq_true, if_false, hacc,
    hheld', hctl', hbad, if_true]
  rfl

theorem patrolScrub_of_far {f off : Nat} (hctl : s.controllerOf a.toNat = some (.far f off)) (hbad : bad ≤ 5) :
    exec (.patrolScrub dt a bad passDone) s = .next (((s.advance dt).scrubUnit
      (a.toNat / poisonUnit a.toNat * poisonUnit a.toNat) (.far f off) (eccOf true bad s.draw.1).reported).countPass f
        passDone) := by
  have hheld' : (s.advance dt).keyHeld a.toNat = false := hheld
  have hctl' : (s.advance dt).controllerOf a.toNat = some (.far f off) := hctl
  simp only [exec_patrolScrub, execPatrolScrub, advance_power, hon, Bool.not_true, Bool.false_eq_true, if_false, hacc,
    hheld', hctl', hbad, if_true]
  rfl

end Scrub

/-! ### FAR_PARITY_FAILURE (R220) -/

/-- A transfer of a far-tier channel fails: the channel retries it or gives it up, and its stack counts which. -/
def State.failTransfer (s : State) (f ch tr : Nat) : State :=
  let c := tabGet ({} : FarChannel) (s.stack f).channels ch
  (s.modStack f (fun x => { x with
    retries := if c.retries < (c.fails tr s.tide).retries then satAdd 32 x.retries 1 else x.retries
    exhausted := if c.exhausts tr s.tide then satAdd 16 x.exhausted 1 else x.exhausted })).modFar f ch
      (fun _ => c.fails tr s.tide)

theorem farParityFailure_of_serving {s : State} (dt : Nat) {f ch : Fin 16} (tr : Nat) (hon : s.power.diesPowered = true)
    (hf : f.val < s.nStacks) (hstate : (tabGet ({} : FarChannel) (s.stack f).channels ch).state = 0) :
    exec (.farParityFailure dt f ⟨ch, tr⟩) s = .next ((s.advance dt).failTransfer f ch tr) := by
  have hgo : (decide (s.nStacks ≤ f.val) || !s.power.diesPowered ||
      decide ((tabGet ({} : FarChannel) (s.stack f).channels ch).state ≠ 0)) = false := by
    simp [hon, hstate, hf]
  exact if_neg (Bool.eq_false_iff.mp hgo)

section Transfer

variable {s : State} {f ch tr : Nat} {c : FarChannel} (hc : c = tabGet {} (s.stack f).channels ch)

include hc

theorem failTransfer_stack : (s.failTransfer f ch tr).stack f = { s.stack f with
    retries := if c.retries < (c.fails tr s.tide).retries then satAdd 32 (s.stack f).retries 1 else (s.stack f).retries
    exhausted := if c.exhausts tr s.tide then satAdd 16 (s.stack f).exhausted 1 else (s.stack f).exhausted
    channels := tabSet (s.stack f).channels ch (c.fails tr s.tide) } := by
  subst hc
  rw [State.failTransfer, State.modFar, modStack_stack, modStack_stack]
  rfl

theorem failTransfer_channel :
    tabGet {} ((s.failTransfer f ch tr).stack f).channels ch = c.fails tr s.tide := by
  rw [failTransfer_stack hc, tabGet_tabSet_same]

end Transfer

theorem failTransfer_stack_ne (s : State) {f g : Nat} (ch tr : Nat) (h : g ≠ f) :
    (s.failTransfer f ch tr).stack g = s.stack g := by
  rw [State.failTransfer, State.modFar, modStack_stack_ne _ _ _ _ h, modStack_stack_ne _ _ _ _ h]

section Channel

variable {c : FarChannel} {tr tide : Nat}

/-- A transfer that is not being retried is retried for the first time. -/
theorem fails_of_new (h : ∀ e ∈ c.replay, e.1 ≠ tr) : (c.fails tr tide).retries = c.retries + 1 ∧
    (tr, 1, tide) ∈ (c.fails tr tide).replay := by
  have hnone : (c.replay.filter (stillRetried tide)).find? (fun e => e.1 == tr) = none := by
    rw [List.find?_eq_none]
    intro e he hsame
    exact h e (List.mem_of_mem_filter he) (beq_iff_eq.mp hsame)
  simp [FarChannel.fails, hnone]

/-- The failure of a transfer's fourth retry exhausts its retries, and is none itself. -/
theorem fails_of_fourth {x : Nat} (h : c.replay = [(tr, 4, x)]) (hlive : tide ≤ x + 60) :
    (c.fails tr tide).retries = c.retries ∧ (c.fails tr tide).exhausted = true ∧ c.exhausts tr tide = true := by
  simp [FarChannel.fails, FarChannel.exhausts, stillRetried, h, hlive]

end Channel

/-- Settles O57: a unit that is read is left as `scrubUnit` says of what ECC reports, and a transfer that fails as
`failTransfer` says. -/
theorem memoryErrorsAreCounted : Obligations.MemoryErrorsAreCounted := by
  intro dt a u bad passDone s hon hu
  subst hu
  refine ⟨fun hacc => patrolScrub_of_held dt passDone hon hacc, ?_, ?_, ?_, ?_⟩
  · intro die space off hacc hheld hctl hbad
    refine ⟨_, patrolScrub_of_near dt passDone hon hacc hheld hctl hbad, scrubUnit_mem .., fun n hn =>
      scrubUnit_near_die_ne space off hn, fun hpoisoned => scrubUnit_of_poisoned hpoisoned, ?_, ?_, ?_⟩
    · rintro rfl
      exact scrubUnit_of_clean (reported_of_none _ false)
    · rintro hsound rfl
      rw [scrubUnit_of_corrected (s := s.advance dt) hsound (near_reported_of_one _)]
      refine ⟨?_, noteCorrected_poison .., ?_⟩ <;> rw [State.noteCorrected, modDie_die] <;> rfl
    · rintro hsound rfl
      rw [scrubUnit_of_uncorrectable (s := s.advance dt) hsound (near_reported_of_two _), noteUncorrectable_near_die]
      exact ⟨mem_noteUncorrectable_poison _ _ _, rfl, rfl, rfl, rfl⟩
  · intro f off hacc hheld hctl hbad
    refine ⟨_, patrolScrub_of_far dt passDone hon hacc hheld hctl hbad, ?_, fun g hg => ?_, ?_, ?_, ?_, ?_⟩
    · rw [countPass_mem]
      exact scrubUnit_mem ..
    · rw [countPass_stack_ne _ _ hg]
      exact scrubUnit_far_stack_ne off hg
    · rw [countPass_stack, scrubUnit_far_scrubPass]
      rfl
    all_goals
      rw [countPass_stack, countPass_poison]
    · intro hnothing
      have hsame : (s.advance dt).scrubUnit (a.toNat / poisonUnit a.toNat * poisonUnit a.toNat) (.far f off)
          (eccOf true bad s.draw.1).reported = s.advance dt := by
        rcases hnothing with hpoisoned | rfl
        · exact scrubUnit_of_poisoned hpoisoned
        · exact scrubUnit_of_clean (reported_of_none _ true)
      rw [hsame]
      exact ⟨rfl, rfl, rfl⟩
    · intro hsound hlow hhigh
      rw [scrubUnit_of_corrected (s := s.advance dt) hsound (far_reported_of_few _ hlow hhigh)]
      refine ⟨?_, noteCorrected_poison ..⟩
      rw [State.noteCorrected, modStack_stack]
      rfl
    · intro hsound hlow
      rw [scrubUnit_of_uncorrectable (s := s.advance dt) hsound (far_reported_of_many _ hlow hbad), noteUncorrectable_far_stack]
      exact ⟨mem_noteUncorrectable_poison _ _ _, rfl, rfl, rfl⟩
  · intro hacc hbad
    refine ⟨_, patrolScrub_of_accumulator dt passDone hon hacc hbad, ?_⟩
    obtain hfew | rfl : bad ≤ 1 ∨ bad = 2 := by omega
    · rw [if_neg (near_reported_of_at_most_one _ hfew)]
      exact ⟨rfl, rfl, fun _ => rfl, fun h => absurd h (by omega)⟩
    · rw [if_pos (near_reported_of_two _)]
      exact ⟨rfl, rfl, fun h => absurd h (by decide), fun _ => mem_markPoison_one _ _⟩
  · intro f ch tr c hc hf hstate
    refine ⟨fun hnew => ?_, fun x hfourth hlive => ?_⟩
    all_goals
      refine ⟨_, farParityFailure_of_serving dt tr hon hf (hc ▸ hstate), ?_⟩
      rw [failTransfer_channel (s := s.advance dt) hc, failTransfer_stack (s := s.advance dt) hc]
    · obtain ⟨hretries, hreplay⟩ := fails_of_new (tide := (s.advance dt).tide) hnew
      exact ⟨if_pos (by rw [hretries]; omega), fun g hg => failTransfer_stack_ne _ _ _ hg, hreplay, rfl⟩
    · obtain ⟨hretries, hgiven, hcounted⟩ := fails_of_fourth hfourth hlive
      exact ⟨if_neg (by rw [hretries]; omega), hgiven, if_pos hcounted, fun g hg => failTransfer_stack_ne _ _ _ hg, rfl⟩

end Sys2Proof.Machine
end

section
/-! PROOF. LAYER_DEFINE and LAYER_UNDEFINE (chapter 11): word 0 of an entry of the layer table. -/

namespace Sys2Proof.Machine

section LayerTable

variable {s : State} {layer : Fin 4096} {v : W64} {dt : Nat}

/-! ### The dispatch of the rows -/

/-- Address of word 0 of a layer's entry. -/
def layerAddr (layer : Nat) : Nat := 0x2000000 + 0x80 * layer

theorem exec_layerDefine (h : v.toNat.testBit 1 = true) :
    exec (.layerDefine dt layer v) s = (s.advance dt).host0 true (layerAddr layer) 8 v := if_pos h

theorem exec_layerUndefine (h : v.toNat.testBit 2 = true) :
    exec (.layerUndefine dt layer v) s = (s.advance dt).host0 true (layerAddr layer) 8 v := if_pos h

/-! ### A write of word 0 through the host port -/

/-- A write of all 64 bits is what the register takes. -/
theorem maskedWrite_allOnes (old v : W64) : maskedWrite old v (BitVec.allOnes 64) = v := by
  rw [maskedWrite, BitVec.and_allOnes, BitVec.not_allOnes, BitVec.and_zero, BitVec.zero_or]

/-- No pause and no due close holds a write to the layer table, and the entry takes it (R52, R464). -/
theorem access_layerAddr (s : State) (layer : Fin 4096) (v : W64) : s.access true (layerAddr layer) 8 v =
    (s.writeLayer0 layer v (BitVec.allOnes 64)).getD (s.discardedWrite (layerAddr layer) v) := by
  have hlayer := layer.isLt
  have hlow : 0x2000000 ≤ layerAddr layer := Nat.le_add_right ..
  have hhigh : layerAddr layer < 0x2080000 := by rw [layerAddr]; omega
  have hbelow {lo hi : Nat} (h : hi ≤ 0x2000000) :
      (decide (lo ≤ layerAddr layer) && decide (layerAddr layer < hi)) = false := by
    simp [show ¬ layerAddr layer < hi by omega]
  have hshape : (!((8 == 4 || 8 == 8) && layerAddr layer % 8 == 0)) = false := by
    simp [layerAddr]; omega
  have hheld : s.accessHeld true (layerAddr layer) = false := by simp [State.accessHeld, hbelow]
  have hindex : (layerAddr layer - 0x2000000) / 0x80 = layer := by rw [layerAddr]; omega
  have hreg : layerAddr layer % 0x80 = 0 := by rw [layerAddr]; omega
  have htry : s.tryWrite (layerAddr layer) 8 v = s.writeLayer0 layer v (BitVec.allOnes 64) := by
    simp only [State.tryWrite, hbelow, hindex, hreg, hlow, hhigh, decide_true, Bool.and_self, Bool.false_eq_true,
      if_false, if_true, Nat.reduceLeDiff]
    rfl
  rw [State.access, hshape, hheld, if_neg Bool.false_ne_true, if_neg Bool.false_ne_true, if_pos rfl, State.barWrite, htry]
  cases s.writeLayer0 layer v (BitVec.allOnes 64) <;> rfl

/-- A write that changes the layer alone takes no due close away. -/
theorem host0_of_layerWrite {f : Layer → Layer} (hlink : s.power.linkUp = true)
    (hwrite : s.writeLayer0 layer v (BitVec.allOnes 64) = some (s.modLayer layer f)) :
    s.host0 true (layerAddr layer) 8 v = .next (s.modLayer layer f) := by
  have hclose : (s.modLayer layer f).closeDue = s.closeDue := closeDue_congr rfl rfl rfl
  rw [host0_of_linkUp hlink, access_layerAddr, hwrite, Option.getD_some, afterClose_of_closeDue_eq hclose]

/-! ### DEFINE and UNDEFINE (R229) -/

theorem writeLayer0_of_define (hset : v.toNat.testBit 1 = true) (halone : v.toNat.testBit 2 = false)
    (hundefined : (s.layer layer).defined = false)
    (hchecks : s.defineOk ((s.layer layer).withWord0 v.toNat) = true) :
    s.writeLayer0 layer v (BitVec.allOnes 64) =
      some (s.modLayer layer (fun _ => ((s.layer layer).withWord0 v.toNat).define s.commit.layoutEpoch)) := by
  simp only [State.writeLayer0, maskedWrite_allOnes, BitVec.and_allOnes, hset, halone, hundefined, hchecks,
    Bool.and_false, Bool.false_eq_true, if_false, if_true]

/-- UNDEFINE of a defined entry: undefined where no version is in use, else kept with DEF_ERROR 2. -/
theorem writeLayer0_of_undefine (hset : v.toNat.testBit 2 = true) (halone : v.toNat.testBit 1 = false)
    (hdefined : (s.layer layer).defined = true) : s.writeLayer0 layer v (BitVec.allOnes 64) = some (s.modLayer layer
      (if s.mayUndefine layer then fun l => { l with defined := false, defError := 0, slots := [] }
        else fun l => { l with defError := 2 })) := by
  simp only [State.writeLayer0, BitVec.and_allOnes, hset, halone, hdefined, Bool.false_and, Bool.not_true,
    Bool.false_eq_true, if_false, if_true]
  split <;> rfl

end LayerTable

/-- Settles O24: a write of word 0 reaches its entry whatever is held, and changes that entry alone. -/
theorem layersAreDefined : Obligations.LayersAreDefined := by
  refine ⟨fun dt layer v s hlink hundefined hset halone hchecks => ?_,
    fun dt layer v s hlink hdefined hset halone => ⟨fun hfree => ?_, fun huse => ?_⟩⟩
  · rw [maskedWrite_allOnes] at hchecks
    refine ⟨_, (exec_layerDefine hset).trans (host0_of_layerWrite (s := s.advance dt) hlink
      (writeLayer0_of_define hset halone hundefined hchecks)), ?_⟩
    rw [modLayer_layer]
    exact ⟨rfl, rfl, rfl, rfl, fun l hl => modLayer_layer_ne _ _ _ _ hl, rfl⟩
  · have hwrite := writeLayer0_of_undefine (s := s.advance dt) hset halone hdefined
    rw [hfree, if_pos rfl] at hwrite
    rw [exec_layerUndefine hset, host0_of_layerWrite (s := s.advance dt) hlink hwrite]
  · have hwrite := writeLayer0_of_undefine (s := s.advance dt) hset halone hdefined
    rw [huse, if_neg Bool.false_ne_true] at hwrite
    rw [exec_layerUndefine hset, host0_of_layerWrite (s := s.advance dt) hlink hwrite]

end Sys2Proof.Machine
end

section
/-! PROOF. Pins (chapter 11): what taking one changes, and which slots a request that is granted whole pins. -/

namespace Sys2Proof.Machine

/-! ### Micro-batches and version slots after an update -/

section Records

variable (s : State)

@[simp] theorem modMb_mb (k m : Nat) (f : Mb → Mb) : (s.modMb k m f).mb k m = f (s.mb k m) := by
  simp [State.mb, State.modMb]

theorem modMb_mb_ne (k : Nat) {m n : Nat} (f : Mb → Mb) (h : n ≠ m) : (s.modMb k m f).mb k n = s.mb k n := by
  simp [State.mb, State.modMb, tabGet_tabMod_ne _ _ _ _ _ h]

@[simp] theorem modMb_layer (k m : Nat) (f : Mb → Mb) (l : Nat) : (s.modMb k m f).layer l = s.layer l := rfl

/-- Changing a micro-batch leaves everything else of its context. -/
theorem modMb_ctx (k m : Nat) (f : Mb → Mb) :
    (s.modMb k m f).ctx k = { s.ctx k with mbs := tabMod {} (s.ctx k).mbs m f } := modCtx_ctx ..

theorem modMb_ctx_ne {k n : Nat} (m : Nat) (f : Mb → Mb) (h : n ≠ k) : (s.modMb k m f).ctx n = s.ctx n :=
  modCtx_ctx_ne _ _ _ _ h

@[simp] theorem modVSlot_slot (l i : Nat) (f : VSlot → VSlot) :
    ((s.modVSlot l i f).layer l).slot i = f ((s.layer l).slot i) := by
  simp [State.modVSlot, Layer.slot]

/-- A change of a slot is what it makes of the slot that stands there. -/
theorem modVSlot_congr {s : State} {l i : Nat} {f g : VSlot → VSlot} (h : f ((s.layer l).slot i) = g ((s.layer l).slot i)) :
    s.modVSlot l i f = s.modVSlot l i g := by
  simp only [State.modVSlot, State.modLayer, tabMod]
  rw [show f (tabGet {} (tabGet {} s.layers l).slots i) = g (tabGet {} (tabGet {} s.layers l).slots i) from h]

theorem modVSlot_slot_ne (l : Nat) {i j : Nat} (f : VSlot → VSlot) (h : j ≠ i) :
    ((s.modVSlot l i f).layer l).slot j = (s.layer l).slot j := by
  simp [State.modVSlot, Layer.slot, tabGet_tabMod_ne _ _ _ _ _ h]

theorem modVSlot_layer_ne {l n : Nat} (i : Nat) (f : VSlot → VSlot) (h : n ≠ l) :
    (s.modVSlot l i f).layer n = s.layer n := modLayer_layer_ne _ _ _ _ h

@[simp] theorem modVSlot_shards (l i n : Nat) (f : VSlot → VSlot) :
    ((s.modVSlot l i f).layer n).shards = (s.layer n).shards := by
  by_cases h : n = l
  · subst h
    rw [State.modVSlot, modLayer_layer]
  · rw [modVSlot_layer_ne s i f h]

@[simp] theorem modVSlot_mb (l i k m : Nat) (f : VSlot → VSlot) : (s.modVSlot l i f).mb k m = s.mb k m := rfl

/-- A change of a slot that keeps every serial keeps them all. -/
theorem modVSlot_serial (l i n j : Nat) {f : VSlot → VSlot} (hf : ∀ x, (f x).serial = x.serial) :
    (((s.modVSlot l i f).layer n).slot j).serial = ((s.layer n).slot j).serial := by
  by_cases hl : n = l
  · subst hl
    by_cases hi : j = i
    · subst hi
      rw [modVSlot_slot, hf]
    · rw [modVSlot_slot_ne s n f hi]
  · rw [modVSlot_layer_ne s i f hl]

end Records

/-! ### One pin, and a list of them -/

/-- A micro-batch pins a slot of a layer, and nobody is asked for a hold (R231). -/
def State.pinned (s : State) (k m : Nat) (p : Nat × Nat) : State :=
  (s.modMb k m (fun x => { x with pins := x.pins ++ [(p.1, ((s.layer p.1).slot p.2).serial, p.2)] })).modVSlot p.1 p.2
    (fun x => { x with pins := x.pins + 1 })

/-- It pins several. -/
def State.pinnedAll (s : State) (k m : Nat) (picks : List (Nat × Nat)) : State :=
  picks.foldl (fun t p => t.pinned k m p) s

section Pins

variable {s : State} {k m : Nat} {p : Nat × Nat} {picks : List (Nat × Nat)}

theorem pinned_layer_ne {l : Nat} (h : l ≠ p.1) : (s.pinned k m p).layer l = s.layer l := by
  rw [State.pinned, modVSlot_layer_ne _ _ _ h, modMb_layer]

theorem pinned_slot : ((s.pinned k m p).layer p.1).slot p.2 =
    { (s.layer p.1).slot p.2 with pins := ((s.layer p.1).slot p.2).pins + 1 } := by
  rw [State.pinned, modVSlot_slot, modMb_layer]

theorem pinned_serial (l i : Nat) : (((s.pinned k m p).layer l).slot i).serial = ((s.layer l).slot i).serial :=
  modVSlot_serial _ p.1 p.2 l i (f := fun x => { x with pins := x.pins + 1 }) (fun _ => rfl)

theorem pinned_shards (l : Nat) : ((s.pinned k m p).layer l).shards = (s.layer l).shards := by
  rw [State.pinned, modVSlot_shards, modMb_layer]

theorem pinned_mb : (s.pinned k m p).mb k m = { s.mb k m with
    pins := (s.mb k m).pins ++ [(p.1, ((s.layer p.1).slot p.2).serial, p.2)] } := by
  rw [State.pinned, modVSlot_mb, modMb_mb]

/-- A pin on one layer is no pin on another. -/
theorem pinned_pinOn_ne {l : Nat} (h : l ≠ p.1) : ((s.pinned k m p).mb k m).pinOn l = (s.mb k m).pinOn l := by
  rw [pinned_mb, Mb.pinOn, Mb.pinOn, List.find?_append]
  simp [Ne.symm h]

/-- On a layer of one shard that the micro-batch does not pin, a pin is the micro-batch's and the slot's matter alone. -/
theorem pinOne_of_new (hnew : (s.mb k m).pinOn p.1 = none) (hlocal : (s.layer p.1).shards ≤ 1) (ref : CmdRef)
    (taken : List Nat) : pinOne ref k m (s, taken) p = (s.pinned k m p, taken ++ [p.1]) := by
  simp [pinOne, hnew, hlocal, State.pinned]

/-- A request over layers of one shard that the micro-batch does not pin takes every pick. -/
theorem foldl_pinOne_of_new (hnodup : (picks.map (·.1)).Nodup)
    (hnew : ∀ p ∈ picks, (s.layer p.1).shards ≤ 1 ∧ (s.mb k m).pinOn p.1 = none) (ref : CmdRef) (taken : List Nat) :
    picks.foldl (pinOne ref k m) (s, taken) = (s.pinnedAll k m picks, taken ++ picks.map (·.1)) := by
  induction picks generalizing s taken with
  | nil => simp [State.pinnedAll]
  | cons p picks ih =>
    obtain ⟨hp, hrest⟩ := List.nodup_cons.mp hnodup
    obtain ⟨hlocal, hfree⟩ := hnew p List.mem_cons_self
    have hkeeps : ∀ q ∈ picks, ((s.pinned k m p).layer q.1).shards ≤ 1 ∧ ((s.pinned k m p).mb k m).pinOn q.1 = none := by
      intro q hq
      rw [pinned_shards, pinned_pinOn_ne (ne_of_mem_of_not_mem (List.mem_map_of_mem hq) hp)]
      exact hnew q (List.mem_cons_of_mem _ hq)
    rw [List.foldl_cons, pinOne_of_new hfree hlocal, ih hrest hkeeps, List.map_cons, List.append_assoc]
    rfl

theorem takePins_of_new (hnodup : (picks.map (·.1)).Nodup)
    (hnew : ∀ p ∈ picks, (s.layer p.1).shards ≤ 1 ∧ (s.mb k m).pinOn p.1 = none) (ref : CmdRef) :
    s.takePins ref k m picks = (s.pinnedAll k m picks, picks.map (·.1)) := by
  rw [State.takePins, foldl_pinOne_of_new hnodup hnew, List.nil_append]

/-! ### What a list of pins changes -/

/-- Pins change the micro-batches of their context, and layers. -/
theorem pinnedAll_frame (s : State) (k m : Nat) (picks : List (Nat × Nat)) : s.pinnedAll k m picks = { s with
    ctxs := (s.pinnedAll k m picks).ctxs, layers := (s.pinnedAll k m picks).layers } := by
  induction picks generalizing s with
  | nil => rfl
  | cons p picks ih => exact (ih (s.pinned k m p)).trans rfl

theorem pinnedAll_mb (s : State) (k m : Nat) (picks : List (Nat × Nat)) : (s.pinnedAll k m picks).mb k m =
    { s.mb k m with pins := (s.mb k m).pins ++ picks.map (fun p => (p.1, ((s.layer p.1).slot p.2).serial, p.2)) } := by
  induction picks generalizing s with
  | nil => simp [State.pinnedAll]
  | cons p picks ih =>
    refine (ih (s.pinned k m p)).trans ?_
    simp [pinned_mb, pinned_serial]

/-- Besides its micro-batches, the context keeps everything. -/
theorem pinnedAll_ctx (s : State) (k m : Nat) (picks : List (Nat × Nat)) :
    (s.pinnedAll k m picks).ctx k = { s.ctx k with mbs := ((s.pinnedAll k m picks).ctx k).mbs } := by
  induction picks generalizing s with
  | nil => rfl
  | cons p picks ih =>
    refine (ih (s.pinned k m p)).trans ?_
    rw [show (s.pinned k m p).ctx k = _ from modMb_ctx ..]
    rfl

theorem pinnedAll_fwd (s : State) (k m : Nat) (picks : List (Nat × Nat)) :
    ((s.pinnedAll k m picks).ctx k).fwd = (s.ctx k).fwd := (congrArg Ctx.fwd (pinnedAll_ctx s k m picks) :)

theorem pinnedAll_admissions (s : State) (k m : Nat) (picks : List (Nat × Nat)) :
    ((s.pinnedAll k m picks).ctx k).admissions = (s.ctx k).admissions :=
  (congrArg Ctx.admissions (pinnedAll_ctx s k m picks) :)

theorem pinnedAll_ctx_ne {n : Nat} (h : n ≠ k) : (s.pinnedAll k m picks).ctx n = s.ctx n := by
  induction picks generalizing s with
  | nil => rfl
  | cons p picks ih => exact ih.trans (modMb_ctx_ne _ _ _ h)

theorem pinnedAll_mb_ne {n : Nat} (h : n ≠ m) : (s.pinnedAll k m picks).mb k n = s.mb k n := by
  induction picks generalizing s with
  | nil => rfl
  | cons p picks ih => exact ih.trans (modMb_mb_ne _ _ _ h)

theorem pinnedAll_layer_of_not_mem {l : Nat} (h : l ∉ picks.map (·.1)) : (s.pinnedAll k m picks).layer l = s.layer l := by
  induction picks generalizing s with
  | nil => rfl
  | cons p picks ih =>
    obtain ⟨hne, hrest⟩ := not_or.mp (List.mem_cons.not.mp h)
    exact (ih hrest).trans (pinned_layer_ne hne)

/-- Each pick counts one pin, where every layer is named once. -/
theorem pinnedAll_slot (hnodup : (picks.map (·.1)).Nodup) (h : p ∈ picks) :
    ((s.pinnedAll k m picks).layer p.1).slot p.2 =
      { (s.layer p.1).slot p.2 with pins := ((s.layer p.1).slot p.2).pins + 1 } := by
  induction picks generalizing s with
  | nil => exact absurd h List.not_mem_nil
  | cons q picks ih =>
    obtain ⟨hq, hrest⟩ := List.nodup_cons.mp hnodup
    rcases List.mem_cons.mp h with rfl | hmem
    · exact (congrArg (Layer.slot · p.2) (pinnedAll_layer_of_not_mem hq)).trans pinned_slot
    · refine (ih (s := s.pinned k m q) hrest hmem).trans ?_
      rw [pinned_layer_ne (ne_of_mem_of_not_mem (List.mem_map_of_mem hmem) hq)]

/-- A request that asks for no hold has none to await. -/
theorem pinnedAll_holdsDone {ref : CmdRef} (h : ∀ x ∈ s.coll.holdReqs, x.cmd ≠ ref) :
    (s.pinnedAll k m picks).holdsDone ref = true := by
  rw [pinnedAll_frame]
  simp only [State.holdsDone, List.all_eq_true, Bool.or_eq_true, bne_iff_ne]
  exact fun x hx => .inl (h x hx)

end Pins

/-! ### The answer to a request (R231, R233) -/

section Answer

variable {s : State} {picks : List (Nat × Nat)}

/-- One layer more is granted only over layers that are granted. -/
theorem pinLayer_eq_grant {x : Mb} {mode layer : Nat} {serial : W16} {acc : PinAnswer}
    (h : pinLayer s x mode serial acc layer = .grant picks) :
    ∃ before, acc = .grant before ∧ picks.map (·.1) = before.map (·.1) ++ [layer] := by
  cases acc with
  | bad l => exact absurd h (by simp [pinLayer])
  | gone l => exact absurd h (by simp [pinLayer])
  | wait =>
    simp only [pinLayer] at h
    split at h
    · cases h
    · split at h
      · cases h
      · cases h
      · split at h <;> cases h
  | grant before =>
    simp only [pinLayer] at h
    split at h
    · cases h
    · split at h
      · cases h
      · cases h
      · split at h
        · cases h
        · cases h
          exact ⟨before, rfl, by simp⟩

theorem foldl_pinLayer_eq_grant {x : Mb} {mode : Nat} {serial : W16} {layers : List Nat} {acc : PinAnswer}
    (h : layers.foldl (pinLayer s x mode serial) acc = .grant picks) :
    ∃ before, acc = .grant before ∧ picks.map (·.1) = before.map (·.1) ++ layers := by
  induction layers generalizing acc with
  | nil => exact ⟨picks, h, by simp⟩
  | cons layer layers ih =>
    obtain ⟨middle, hmiddle, hpicks⟩ := ih h
    obtain ⟨before, hacc, hnext⟩ := pinLayer_eq_grant hmiddle
    exact ⟨before, hacc, by rw [hpicks, hnext, List.append_assoc, List.singleton_append]⟩

variable {k m mode layer count : Nat} {serial : W16} (h : s.pinAnswer k m mode serial layer count = .grant picks)

include h

/-- A request that is granted pins a slot of each layer that it names, in their order (R231). -/
theorem pinAnswer_layers : picks.map (·.1) = (List.range count).map (fun i => layer + i) := by
  obtain ⟨before, hnone, hpicks⟩ := foldl_pinLayer_eq_grant h
  cases hnone
  exact hpicks

theorem pinAnswer_nodup : (picks.map (·.1)).Nodup := by
  rw [pinAnswer_layers h]
  exact List.nodup_range.map (fun _ _ heq => Nat.add_left_cancel heq)

end Answer

end Sys2Proof.Machine
end

section
/-! PROOF. VERSION_PIN, PIN_GRANT and PIN_TIMEOUT (chapter 11). -/

namespace Sys2Proof.Machine

section Pinning

variable {s u : State} {c : Cmd} {dt : Nat} {r : Fin 17}

/-! ### The dispatch of the rows -/

theorem exec_versionPin (dt : Nat) (r : Fin 17) (s : State) : exec (.versionPin dt r) s = execVersionPin dt r s := rfl

theorem exec_pinGrant (dt : Nat) (r : Fin 17) (seq : W16) (s : State) :
    exec (.pinGrant dt r seq) s = execPinGrant dt r seq s := rfl

theorem exec_pinTimeout (dt : Nat) (r : Fin 17) (seq : W16) (s : State) :
    exec (.pinTimeout dt r seq) s = execPinTimeout dt r seq s := rfl

/-! ### What the answer to a request makes of it (R233, R234) -/

/-- The answer to the request that a VERSION_PIN makes. -/
def State.answerTo (s : State) (c : Cmd) : PinAnswer :=
  s.pinAnswer (ctxOfRing c.ring) (pinParams c).1 (pinParams c).2.1 (pinParams c).2.2.2.1 (pinParams c).2.2.1
    (pinParams c).2.2.2.2

/-- The pins of a request that is granted are taken. -/
def State.pinsOf (s : State) (c : Cmd) (picks : List (Nat × Nat)) : State × List Nat :=
  s.takePins c.ref (ctxOfRing c.ring) (pinParams c).1 picks

theorem tryPin_of_gone {l : Nat} (h : s.answerTo c = .gone l) (first : Bool) :
    s.tryPin c first = s.complete c .versionGone l [] := by
  simp only [State.answerTo, pinParams] at h
  simp only [State.tryPin, pinParams, h]

theorem tryPin_of_wait (h : s.answerTo c = .wait) (htime : c.param 8 4 ≠ 0) :
    s.tryPin c true = s.setWait c.ref .pins (some (s.tide + 1000 * c.param 8 4)) := by
  simp only [State.answerTo, pinParams] at h
  simp only [State.tryPin, pinParams, h, htime, Bool.not_true, Bool.false_eq_true, if_false]

section Granted

variable {picks : List (Nat × Nat)} (h : s.answerTo c = .grant picks) (first : Bool)

include h

theorem tryPin_of_grant_held (hheld : (s.pinsOf c picks).1.holdsDone c.ref = true) : s.tryPin c first =
    ((s.pinsOf c picks).1.dropHolds c.ref).complete c .ok 0 ((s.pinsOf c picks).1.pinBody c) := by
  simp only [State.answerTo, pinParams] at h
  simp only [State.pinsOf, pinParams] at hheld
  simp only [State.tryPin, pinParams, h, hheld, if_true, State.pinsOf]

theorem tryPin_of_grant_waiting (hwaits : (s.pinsOf c picks).1.holdsDone c.ref = false) : s.tryPin c first =
    ((s.pinsOf c picks).1.modCmd c.ref (fun d => { d with aux := (s.pinsOf c picks).2 })).setWait c.ref .holds none := by
  simp only [State.answerTo, pinParams] at h
  simp only [State.pinsOf, pinParams] at hwaits
  simp only [State.tryPin, pinParams, h, hwaits, Bool.false_eq_true, if_false, State.pinsOf]

end Granted

/-! ### When a request is tried -/

/-- A micro-batch that is admitted is not gone (R249, R250). -/
theorem not_gone_of_admitted {x : Mb} (h : x.admitted = true) : x.gone = false := by
  cases hstate : x.state <;> simp_all [Mb.admitted, Mb.gone]

/-- A VERSION_PIN that passes its checks is tried as it starts. -/
theorem versionPin_of_checked {mb mode layer count : Nat} {serial : W16} (hstart : Starts s dt r 0x30 c u)
    (hclose : (s.advance dt).closeDue = false) (hparams : pinParams c = (mb, mode, layer, serial, count))
    (hmb : mb < 64) (hadmitted : (u.mb (ctxOfRing r) mb).admitted = true) (hmode : mode ≤ 3)
    (hserial : 2 ≤ mode ∨ serial = 0) (hone : 1 ≤ count) (hlast : layer + count ≤ 4096) (hexact : mode = 2 → count = 1)
    (hreserved : ∀ i, 12 ≤ i → i < 64 → c.param i 1 = 0) : exec (.versionPin dt r) s = .next (u.tryPin c true) := by
  have hzero : reservedFail c 64 [(0, 12)] = [] :=
    reservedFail_eq_nil fun i hi hfree => hreserved i (by simpa using hfree (0, 12)) hi
  have hchecks : ∀ x ∈ [(decide (mb < 64) && ((u.mb (ctxOfRing r) mb).admitted || (u.mb (ctxOfRing r) mb).gone), 0),
      (decide (mode ≤ 3), 1), (decide (layer < 4096), 2), (decide (2 ≤ mode) || serial == 0, 4),
      (decide (1 ≤ count) && decide (layer + count ≤ 4096) && (mode != 2 || count == 1), 6)], x.1 = true := by
    have hlayer : layer < 4096 := by omega
    have hcount : mode ≠ 2 ∨ count = 1 := or_iff_not_imp_left.mpr fun h => hexact (not_not.mp h)
    simpa [hmb, hadmitted, hmode, hlayer, hone, hlast] using ⟨hserial, hcount⟩
  rw [exec_versionPin, execVersionPin]
  simp only [hclose, Bool.false_eq_true, if_false, hstart.take, hparams, hzero, List.append_nil,
    lowestFail_eq_none hchecks]
  rw [not_gone_of_admitted hadmitted, if_neg Bool.false_ne_true]

section Waiting

variable {seq : W16} (hfind : s.findWait r seq .pins = some c)

include hfind

/-- A request that waits is tried again while it is in time (R233, R257). -/
theorem pinGrant_of_waiting (hclose : (s.advance dt).closeDue = false) (htime : (s.advance dt).past c.deadline = false) :
    exec (.pinGrant dt r seq) s = .next ((s.advance dt).tryPin c false) := by
  have hfind' : (s.advance dt).findWait r seq .pins = some c := hfind
  simp only [exec_pinGrant, execPinGrant, hfind', hclose, htime, Bool.or_self, Bool.false_eq_true, if_false]

theorem pinTimeout_of_due {d : Nat} (hdeadline : c.deadline = some d) (hdue : d ≤ (s.advance dt).tide) :
    exec (.pinTimeout dt r seq) s = .next ((s.advance dt).complete c .timeout 0 []) := by
  have hfind' : (s.advance dt).findWait r seq .pins = some c := hfind
  have hreached : (s.advance dt).due c.deadline = true := by rw [State.due, hdeadline]; exact decide_eq_true hdue
  simp only [exec_pinTimeout, execPinTimeout, hfind', hreached, if_true]

end Waiting

/-! ### A start leaves the versions and their pins -/

theorem Starts.layer {op : Nat} (h : Starts s dt r op c u) (l : Nat) : u.layer l = s.layer l := by
  rw [h.frame]
  rfl

theorem Starts.ctx {op : Nat} (h : Starts s dt r op c u) (k : Nat) : u.ctx k = s.ctx k := by
  rw [h.frame]
  rfl

theorem Starts.mb {op : Nat} (h : Starts s dt r op c u) (k m : Nat) : u.mb k m = s.mb k m := by
  rw [State.mb, h.ctx, State.mb]

end Pinning

/-- Settles O39: a request is tried as it starts and again while it waits, and each try does what its answer says; what a
grant takes is what its picks, one slot of each layer named, take one by one. -/
theorem pinsAreGrantedWhole : Obligations.PinsAreGrantedWhole := by
  intro dt r s u c mb mode layer count serial hring hparams hclose
  refine ⟨fun hstart hmb hadmitted hmode hserial hone hlast hexact hreserved => ?_, fun seq d hfind => ⟨?_, ?_, ?_⟩⟩
  · have htried := versionPin_of_checked hstart hclose hparams hmb hadmitted hmode hserial hone hlast hexact hreserved
    have hanswer : u.answerTo c = u.pinAnswer (ctxOfRing r) mb mode serial layer count := by
      rw [State.answerTo, hparams, hring]
    have hpins (picks : List (Nat × Nat)) : u.pinsOf c picks = u.takePins c.ref (ctxOfRing r) mb picks := by
      rw [State.pinsOf, hparams, hring]
    rw [htried, ← hanswer]
    refine ⟨fun l hgone => by rw [tryPin_of_gone hgone], fun hwait htime => by rw [tryPin_of_wait hwait htime], ?_⟩
    rintro picks v hgrant rfl
    rw [← hpins]
    refine ⟨fun hheld => by rw [tryPin_of_grant_held hgrant true hheld],
      fun hwaits => by rw [tryPin_of_grant_waiting hgrant true hwaits], fun hnew hfree => ?_⟩
    rw [hanswer] at hgrant
    have hnodup := pinAnswer_nodup hgrant
    have hlayers := pinAnswer_layers hgrant
    rw [hpins, takePins_of_new hnodup hnew]
    refine ⟨pinnedAll_holdsDone hfree, ?_, hlayers, fun p hp => pinnedAll_slot hnodup hp, fun l hl => ?_⟩
    · rw [pinnedAll_mb, hstart.mb]
    · refine (pinnedAll_layer_of_not_mem ?_).trans (hstart.layer l)
      rw [hlayers]
      simp only [List.mem_map, List.mem_range, not_exists, not_and]
      omega
  · intro l htime hgone
    rw [pinGrant_of_waiting hfind hclose htime, tryPin_of_gone hgone]
  · rintro picks v hgrant htime rfl hheld
    rw [pinGrant_of_waiting hfind hclose htime, tryPin_of_grant_held hgrant false hheld]
    rfl
  · intro e hdeadline hdue
    exact pinTimeout_of_due hfind hdeadline hdue

end Sys2Proof.Machine
end

section
/-! PROOF. MB_ADMIT, ADMISSION_GRANT and ADMIT_TIMEOUT (chapter 12): what an admission takes with its pins. -/

namespace Sys2Proof.Machine

/-! ### Contexts after an update -/

section Contexts

variable {s t : State} {k : Nat}

/-- What a change of a context keeps of every context, it keeps. -/
theorem modCtx_keeps {α : Type} (π : Ctx → α) {f : Ctx → Ctx} (hf : ∀ x, π (f x) = π x) (s : State) (k n : Nat) :
    π ((s.modCtx k f).ctx n) = π (s.ctx n) := by
  by_cases h : n = k
  · rw [h, modCtx_ctx, hf]
  · rw [modCtx_ctx_ne _ _ _ _ h]

theorem mb_congr (h : (t.ctx k).mbs = (s.ctx k).mbs) (m : Nat) : t.mb k m = s.mb k m := by
  rw [State.mb, h, State.mb]

/-- A change of a context that keeps its micro-batches keeps them all. -/
theorem modCtx_mb {f : Ctx → Ctx} (hf : ∀ x, (f x).mbs = x.mbs) (s : State) (k n m : Nat) :
    (s.modCtx k f).mb n m = s.mb n m := mb_congr (modCtx_keeps Ctx.mbs hf s k n) m

theorem fwdEntry_congr (h : (t.ctx k).fwd = (s.ctx k).fwd) (i : Nat) : t.entry k false i = s.entry k false i := by
  simp [State.entry, Ctx.sluice, h]

theorem SameButCompletions.ctx (h : SameButCompletions s t) (k : Nat) : t.ctx k = s.ctx k :=
  (congrArg (State.ctx · k) h.eq :)

theorem SameButCompletions.mb (h : SameButCompletions s t) (k m : Nat) : t.mb k m = s.mb k m :=
  mb_congr (congrArg Ctx.mbs (h.ctx k)) m

theorem SameButCompletions.layer (h : SameButCompletions s t) (l : Nat) : t.layer l = s.layer l :=
  (congrArg (State.layer · l) h.eq :)

/-! The end of a command's holds leaves versions and contexts. -/

@[simp] theorem dropHolds_ctx (s : State) (ref : CmdRef) (k : Nat) : (s.dropHolds ref).ctx k = s.ctx k := rfl

@[simp] theorem dropHolds_mb (s : State) (ref : CmdRef) (k m : Nat) : (s.dropHolds ref).mb k m = s.mb k m := rfl

@[simp] theorem dropHolds_entry (s : State) (ref : CmdRef) (k : Nat) (bwd : Bool) (i : Nat) :
    (s.dropHolds ref).entry k bwd i = s.entry k bwd i := rfl

@[simp] theorem dropHolds_layer (s : State) (ref : CmdRef) (l : Nat) : (s.dropHolds ref).layer l = s.layer l := rfl

end Contexts

/-! ### The parts of an admission (R246, R256) -/

/-- The entry that an admission takes. -/
def State.takeEntry (s : State) (k m : Nat) (entry : Option Nat) : State :=
  match entry with
  | some i => s.modEntry k false i (fun y => { y with state := .taken, mb := m })
  | none => s

/-- What the micro-batch takes over from its entry, or from its command where it needs none. -/
def State.entryFor (s : State) (c : Cmd) (entry : Option Nat) : Entry :=
  match entry with
  | some i => s.entry (ctxOfRing c.ring) false i
  | none => { tag := BitVec.ofNat 32 (c.param 0x0C 4) }

/-- A micro-batch that takes an entry's place, with no pin yet. -/
def Mb.entering (x : Mb) (e : Entry) (entry : Option Nat) : Mb := { x with
  tag := e.tag, fwdEntry := entry, bwdEntry := none, pins := [], bwdSpec := none
  inherited := if e.spec then some e.specStep else none }

/-- An admission that has its entry and its reservation, and no pin yet. -/
def State.entered (s : State) (c : Cmd) (entry : Option Nat) (base : Nat) : State :=
  (((s.modMb (ctxOfRing c.ring) (c.param 0 1) (fun x => x.entering (s.entryFor c entry) entry)).takeEntry
    (ctxOfRing c.ring) (c.param 0 1) entry).reserve (ctxOfRing c.ring) (c.param 0 1) base
    (footprintUnits (c.param 0x10 8)))

section Parts

variable (s : State) (k m : Nat)

theorem takeEntry_keeps {α : Type} (π : Ctx → α) (hπ : ∀ x y, π { x with fwd := y } = π x) (entry : Option Nat)
    (n : Nat) : π ((s.takeEntry k m entry).ctx n) = π (s.ctx n) := by
  cases entry with
  | none => rfl
  | some i => exact modCtx_keeps π (fun x => hπ x _) s k n

theorem takeEntry_ctx_ne {n : Nat} (h : n ≠ k) (entry : Option Nat) : (s.takeEntry k m entry).ctx n = s.ctx n := by
  cases entry with
  | none => rfl
  | some i => exact modCtx_ctx_ne _ _ _ _ h

theorem takeEntry_entry (i : Nat) : (s.takeEntry k m (some i)).entry k false i =
    { s.entry k false i with state := .taken, mb := m } := by
  simp [State.takeEntry, State.modEntry, State.modSluice, State.entry, Ctx.sluice]

theorem takeEntry_frame (entry : Option Nat) :
    s.takeEntry k m entry = { s with ctxs := (s.takeEntry k m entry).ctxs } := by
  cases entry <;> rfl

theorem reserve_mb (base n : Nat) :
    (s.reserve k m base n).mb k m = { s.mb k m with baseUnits := base, sizeUnits := n } := by
  rw [State.reserve, modCtx_mb, modMb_mb]
  exact fun _ => rfl

theorem reserve_mb_ne {j : Nat} (h : j ≠ m) (base n : Nat) : (s.reserve k m base n).mb k j = s.mb k j := by
  rw [State.reserve, modCtx_mb, modMb_mb_ne _ _ _ h]
  exact fun _ => rfl

theorem reserve_ctx_ne {j : Nat} (h : j ≠ k) (base n : Nat) : (s.reserve k m base n).ctx j = s.ctx j :=
  (modCtx_ctx_ne _ _ _ _ h).trans (modMb_ctx_ne _ _ _ h)

/-- A reservation keeps what it does not name of its context. -/
theorem reserve_keeps {α : Type} (π : Ctx → α) (hmbs : ∀ x y, π { x with mbs := y } = π x)
    (hpeak : ∀ x y, π { x with peakUnits := y } = π x) (base n j : Nat) :
    π ((s.reserve k m base n).ctx j) = π (s.ctx j) :=
  (modCtx_keeps π (fun x => hpeak x _) _ k j).trans (modCtx_keeps π (fun x => hmbs x _) s k j)

theorem enterForward_mb : (s.enterForward k m).mb k m = { s.mb k m with state := .forward, dropped := false } := by
  rw [State.enterForward, modCtx_mb, modMb_mb]
  exact fun _ => rfl

theorem enterForward_mb_ne {j : Nat} (h : j ≠ m) : (s.enterForward k m).mb k j = s.mb k j := by
  rw [State.enterForward, modCtx_mb, modMb_mb_ne _ _ _ h]
  exact fun _ => rfl

theorem enterForward_ctx_ne {j : Nat} (h : j ≠ k) : (s.enterForward k m).ctx j = s.ctx j :=
  (modCtx_ctx_ne _ _ _ _ h).trans (modMb_ctx_ne _ _ _ h)

theorem enterForward_layer (l : Nat) : (s.enterForward k m).layer l = s.layer l := rfl

theorem enterForward_admissions : ((s.enterForward k m).ctx k).admissions = (s.ctx k).admissions + 1 := by
  rw [State.enterForward, modCtx_ctx, modMb_ctx]

theorem enterForward_fwd : ((s.enterForward k m).ctx k).fwd = (s.ctx k).fwd := by
  rw [State.enterForward, modCtx_ctx, modMb_ctx]

end Parts

section Entered

variable (s : State) (c : Cmd) (entry : Option Nat) (base : Nat)

/-- An admission changes contexts alone before it takes its pins. -/
theorem entered_frame : s.entered c entry base = { s with ctxs := (s.entered c entry base).ctxs } :=
  congrArg (State.reserve · _ _ _ _) (takeEntry_frame ..)

theorem entered_layer (l : Nat) : (s.entered c entry base).layer l = s.layer l := by
  rw [entered_frame]
  rfl

theorem entered_mb : (s.entered c entry base).mb (ctxOfRing c.ring) (c.param 0 1) =
    { (s.mb (ctxOfRing c.ring) (c.param 0 1)).entering (s.entryFor c entry) entry with
      baseUnits := base, sizeUnits := footprintUnits (c.param 0x10 8) } := by
  rw [State.entered, reserve_mb, mb_congr (takeEntry_keeps _ _ _ Ctx.mbs (fun _ _ => rfl) ..), modMb_mb]

theorem entered_mb_ne {m : Nat} (h : m ≠ c.param 0 1) :
    (s.entered c entry base).mb (ctxOfRing c.ring) m = s.mb (ctxOfRing c.ring) m := by
  rw [State.entered, reserve_mb_ne _ _ _ h, mb_congr (takeEntry_keeps _ _ _ Ctx.mbs (fun _ _ => rfl) ..),
    modMb_mb_ne _ _ _ h]

theorem entered_ctx_ne {k : Nat} (h : k ≠ ctxOfRing c.ring) : (s.entered c entry base).ctx k = s.ctx k := by
  rw [State.entered, reserve_ctx_ne _ _ _ h, takeEntry_ctx_ne _ _ _ h, modMb_ctx_ne _ _ _ h]

theorem entered_admissions :
    ((s.entered c entry base).ctx (ctxOfRing c.ring)).admissions = (s.ctx (ctxOfRing c.ring)).admissions := by
  rw [State.entered, reserve_keeps _ _ _ Ctx.admissions (fun _ _ => rfl) (fun _ _ => rfl),
    takeEntry_keeps _ _ _ Ctx.admissions (fun _ _ => rfl), modMb_ctx]

theorem entered_entry (i : Nat) : ((s.entered c (some i) base).entry (ctxOfRing c.ring) false i).state = .taken ∧
    ((s.entered c (some i) base).entry (ctxOfRing c.ring) false i).mb = c.param 0 1 := by
  rw [State.entered, fwdEntry_congr (reserve_keeps _ _ _ Ctx.fwd (fun _ _ => rfl) (fun _ _ => rfl) ..), takeEntry_entry]
  exact ⟨rfl, rfl⟩

end Entered

/-! ### A grant whose pins ask for no hold (R246, R249, R256) -/

section Granted

variable {s : State} {c : Cmd} {entry : Option Nat} {base : Nat} {picks : List (Nat × Nat)}

/-- An admission is granted with the picks that answer its pin request. -/
theorem admitAnswer_picks (h : s.admitAnswer c = .grant entry base picks) :
    s.pinAnswer (ctxOfRing c.ring) (c.param 0 1) (c.param 2 1) (BitVec.ofNat 16 (c.param 8 2)) (c.param 4 2)
      (c.param 6 2) = .grant picks := by
  unfold State.admitAnswer at h
  extract_lets k m x units needsEntry taken free at h
  clear_value taken free
  split at h
  · cases h
  · split at h
    · cases h
    · split at h
      · cases h
      · split at h
        · cases h
        · split at h
          · cases h
          · cases h
          · cases h
          · rename_i hanswer
            cases h
            exact hanswer

/-- The half of a grant that takes the pins, and settles the admission where no hold is to be awaited. -/
def State.pinAdmit (s : State) (c : Cmd) (entry : Option Nat) (picks : List (Nat × Nat)) : State :=
  let (s, taken) := s.takePins c.ref (ctxOfRing c.ring) (c.param 0 1) picks
  if s.holdsDone c.ref then
    let s := (s.dropHolds c.ref).enterForward (ctxOfRing c.ring) (c.param 0 1)
    s.complete c .ok 0 (s.admitBody (ctxOfRing c.ring) (c.param 0 1) false entry picks.length)
  else (s.modCmd c.ref (fun c => { c with aux := taken })).setWait c.ref .holds none

theorem grantAdmit_eq (s : State) (c : Cmd) (entry : Option Nat) (base : Nat) (picks : List (Nat × Nat)) :
    s.grantAdmit c entry base picks = (s.entered c entry base).pinAdmit c entry picks := by
  cases entry <;> rfl

theorem pinAdmit_of_held {v : State} {taken : List Nat}
    (hpins : s.takePins c.ref (ctxOfRing c.ring) (c.param 0 1) picks = (v, taken)) (hheld : v.holdsDone c.ref = true) :
    SameButCompletions ((v.dropHolds c.ref).enterForward (ctxOfRing c.ring) (c.param 0 1)) (s.pinAdmit c entry picks) := by
  rw [State.pinAdmit, hpins]
  simp only [hheld, if_true]
  exact sameButCompletions_complete ..

/-- The micro-batch in FORWARD, and counted: all that is left of its grant is the command's completion. -/
def State.admitted (s : State) (c : Cmd) (entry : Option Nat) (base : Nat) (picks : List (Nat × Nat)) : State :=
  (((s.entered c entry base).pinnedAll (ctxOfRing c.ring) (c.param 0 1) picks).dropHolds c.ref).enterForward
    (ctxOfRing c.ring) (c.param 0 1)

theorem grantAdmit_of_new (hgrant : s.admitAnswer c = .grant entry base picks)
    (hlocal : ∀ p ∈ picks, (s.layer p.1).shards ≤ 1) (hfree : ∀ h ∈ s.coll.holdReqs, h.cmd ≠ c.ref) :
    SameButCompletions (s.admitted c entry base picks) (s.grantAdmit c entry base picks) := by
  rw [grantAdmit_eq]
  refine pinAdmit_of_held (takePins_of_new (pinAnswer_nodup (admitAnswer_picks hgrant)) (fun p hp => ⟨?_, ?_⟩) _)
    (pinnedAll_holdsDone ?_)
  · rw [entered_layer]
    exact hlocal p hp
  · rw [entered_mb]
    rfl
  · rw [entered_frame]
    exact hfree

theorem admitted_mb : (s.admitted c entry base picks).mb (ctxOfRing c.ring) (c.param 0 1) =
    { (s.mb (ctxOfRing c.ring) (c.param 0 1)).entering (s.entryFor c entry) entry with
      baseUnits := base, sizeUnits := footprintUnits (c.param 0x10 8), state := .forward, dropped := false
      pins := picks.map (fun p => (p.1, ((s.layer p.1).slot p.2).serial, p.2)) } := by
  rw [State.admitted, enterForward_mb, dropHolds_mb, pinnedAll_mb, entered_mb]
  simp only [entered_layer]
  rfl

theorem admitted_mb_ne {m : Nat} (h : m ≠ c.param 0 1) :
    (s.admitted c entry base picks).mb (ctxOfRing c.ring) m = s.mb (ctxOfRing c.ring) m :=
  (enterForward_mb_ne _ _ _ h).trans ((pinnedAll_mb_ne h).trans (entered_mb_ne _ _ _ _ h))

theorem admitted_ctx_ne {k : Nat} (h : k ≠ ctxOfRing c.ring) : (s.admitted c entry base picks).ctx k = s.ctx k :=
  (enterForward_ctx_ne _ _ _ h).trans ((pinnedAll_ctx_ne h).trans (entered_ctx_ne _ _ _ _ h))

theorem admitted_admissions : ((s.admitted c entry base picks).ctx (ctxOfRing c.ring)).admissions =
    (s.ctx (ctxOfRing c.ring)).admissions + 1 := by
  rw [State.admitted, enterForward_admissions, dropHolds_ctx, pinnedAll_admissions, entered_admissions]

theorem admitted_entry (i : Nat) : ((s.admitted c (some i) base picks).entry (ctxOfRing c.ring) false i).state = .taken ∧
    ((s.admitted c (some i) base picks).entry (ctxOfRing c.ring) false i).mb = c.param 0 1 := by
  rw [State.admitted, fwdEntry_congr (enterForward_fwd ..), dropHolds_entry, fwdEntry_congr (pinnedAll_fwd ..)]
  exact entered_entry s c base i

theorem admitted_layer_of_not_mem {l : Nat} (h : l ∉ picks.map (·.1)) :
    (s.admitted c entry base picks).layer l = s.layer l := by
  rw [State.admitted, enterForward_layer, dropHolds_layer, pinnedAll_layer_of_not_mem h, entered_layer]

theorem admitted_slot {p : Nat × Nat} (hnodup : (picks.map (·.1)).Nodup) (h : p ∈ picks) :
    ((s.admitted c entry base picks).layer p.1).slot p.2 =
      { (s.layer p.1).slot p.2 with pins := ((s.layer p.1).slot p.2).pins + 1 } := by
  rw [State.admitted, enterForward_layer, dropHolds_layer, pinnedAll_slot hnodup h, entered_layer]

end Granted

/-! ### The rows -/

section Rows

variable {s u : State} {c : Cmd} {dt : Nat} {r : Fin 17}

theorem exec_mbAdmit (dt : Nat) (r : Fin 17) (s : State) : exec (.mbAdmit dt r) s = execMbAdmit dt r s := rfl

theorem exec_admissionGrant (dt : Nat) (k : Fin 16) (s : State) :
    exec (.admissionGrant dt k) s = execAdmissionGrant dt k s := rfl

theorem exec_admitTimeout (dt : Nat) (k : Fin 16) (s : State) :
    exec (.admitTimeout dt k) s = execAdmitTimeout dt k s := rfl

/-- An MB_ADMIT that knows its deadline (R257). -/
def Cmd.timed (c : Cmd) (tide : Nat) : Cmd :=
  { c with deadline := if c.param 0x18 4 = 0 then none else some (tide + 1000 * c.param 0x18 4) }

/-- A deadline has no part in the answer. -/
theorem admitAnswer_deadline (s : State) (c : Cmd) (deadline : Option Nat) :
    s.admitAnswer { c with deadline := deadline } = s.admitAnswer c := by
  have hparam : Cmd.param { c with deadline := deadline } = Cmd.param c := rfl
  have hring : Cmd.ring { c with deadline := deadline } = Cmd.ring c := rfl
  unfold State.admitAnswer
  rw [hparam, hring]

theorem admitAnswer_timed (s : State) (c : Cmd) (tide : Nat) : s.admitAnswer (c.timed tide) = s.admitAnswer c :=
  admitAnswer_deadline ..

/-- A forward admission puts its number in ADMITTING first (R249). -/
def State.admitting (s : State) (k m : Nat) : State := s.modMb k m (fun x => { x with state := .admitting })

theorem admitting_admissions (s : State) (k m : Nat) :
    ((s.admitting k m).ctx k).admissions = (s.ctx k).admissions := by
  rw [State.admitting, modMb_ctx]

theorem tryAdmit_of_lacks {cause : Nat} (h : s.admitAnswer c = .lacks cause) (first : Bool) :
    s.tryAdmit c first = if first then s.setWait c.ref .admission c.deadline else s := by
  rw [State.tryAdmit, h]

theorem tryAdmit_of_grant {e : Option Nat} {b : Nat} {picks : List (Nat × Nat)} (h : s.admitAnswer c = .grant e b picks)
    (first : Bool) : s.tryAdmit c first = s.grantAdmit c e b picks := by
  rw [State.tryAdmit, h]

theorem tryAnyAdmit_of_forward (hdir : c.param 1 1 = 0) (first : Bool) : s.tryAnyAdmit c first = s.tryAdmit c first :=
  if_pos hdir

section Start

variable (hstart : Starts s dt r 0x20 c u) (hclose : (s.advance dt).closeDue = false)
  (hchecks : lowestFail (admitChecks u c) = none)

include hstart hclose hchecks

theorem mbAdmit_of_free (hdir : c.param 1 1 = 0) (hfree : (u.mb (ctxOfRing r) (c.param 0 1)).state = .free) :
    exec (.mbAdmit dt r) s = .next ((u.admitting (ctxOfRing r) (c.param 0 1)).tryAdmit (c.timed u.tide) true) := by
  rw [← tryAnyAdmit_of_forward (c := c.timed u.tide) hdir, exec_mbAdmit, execMbAdmit]
  simp only [hclose, Bool.false_eq_true, if_false, hstart.take, hchecks, hfree, ne_eq, not_true]
  exact if_pos hdir

theorem mbAdmit_of_busy (hdir : c.param 1 1 = 0) (hbusy : (u.mb (ctxOfRing r) (c.param 0 1)).state ≠ .free) :
    exec (.mbAdmit dt r) s = .next (u.complete c .busy 0 []) := by
  rw [exec_mbAdmit, execMbAdmit]
  simp only [hclose, Bool.false_eq_true, if_false, hstart.take, hchecks]
  exact (if_pos hdir).trans (if_pos hbusy)

theorem mbAdmit_of_backward (hdir : c.param 1 1 = 1) (hforward : (u.mb (ctxOfRing r) (c.param 0 1)).state = .forward) :
    exec (.mbAdmit dt r) s = .next (u.tryAdmitBack (c.timed u.tide) true) := by
  have hback : c.param 1 1 ≠ 0 := by simp [hdir]
  have htry : u.tryAnyAdmit (c.timed u.tide) true = u.tryAdmitBack (c.timed u.tide) true := if_neg hback
  rw [← htry, exec_mbAdmit, execMbAdmit]
  simp only [hclose, Bool.false_eq_true, if_false, hstart.take, hchecks]
  exact (if_neg hback).trans (if_pos hforward)

end Start

/-- At the last stage a backward admission needs nothing (R256). -/
theorem tryAdmitBack_of_last (h : (s.ctxItem (ctxOfRing c.ring)).nextKind = 0) (first : Bool) :
    SameButCompletions (s.modMb (ctxOfRing c.ring) (c.param 0 1)
      (fun x => { x with state := .backward, dropped := false })) (s.tryAdmitBack c first) := by
  rw [State.tryAdmitBack, if_pos h]
  exact sameButCompletions_complete ..

section Waiting

variable {k : Fin 16} (hfind : s.waitingAdmit k = some c) (hclose : (s.advance dt).closeDue = false)
  (hdir : c.param 1 1 = 0)

include hfind hclose hdir

theorem admissionGrant_of_waiting (htime : (s.advance dt).past c.deadline = false) :
    exec (.admissionGrant dt k) s = .next ((s.advance dt).tryAdmit c false) := by
  have hfind' : (s.advance dt).waitingAdmit k = some c := hfind
  rw [exec_admissionGrant, execAdmissionGrant]
  simp only [hfind', hclose, htime, Bool.or_self, Bool.false_eq_true, if_false, tryAnyAdmit_of_forward hdir]

/-- An admission that still lacks something as its time is over ends, in time for what comes at its very deadline or not
(R257). -/
theorem admitTimeout_of_lacking {d cause : Nat} (hdeadline : c.deadline = some d) (hdue : d ≤ (s.advance dt).tide)
    (hlacks : (s.advance dt).admitAnswer c = .lacks cause) :
    exec (.admitTimeout dt k) s = .next ((s.advance dt).endAdmit c .timeout 0) := by
  have hfind' : (s.advance dt).waitingAdmit k = some c := hfind
  have hreached : (s.advance dt).due c.deadline = true := by rw [State.due, hdeadline]; exact decide_eq_true hdue
  rw [exec_admitTimeout, execAdmitTimeout]
  simp only [hfind', hclose, hreached, Bool.not_true, Bool.or_self, Bool.false_eq_true, if_false,
    tryAnyAdmit_of_forward hdir, tryAdmit_of_lacks hlacks, ite_self]
  exact if_pos hdir

end Waiting

end Rows

/-- Settles O35: a forward admission's grant is its entry, its reservation and its pins in turn, each of which leaves the
others' part of the context; the other outcomes are one branch of the row each. -/
theorem microBatchesAreAdmitted : Obligations.MicroBatchesAreAdmitted := by
  rintro dt r s u c k m hring rfl rfl hclose
  refine ⟨fun hstart hchecks => ⟨?_, ?_, ?_, ?_⟩, fun ctx hfind hdir => ⟨?_, ?_⟩⟩
  · intro e b picks hdir hfree hgrant hlocal hholds
    have hexec := mbAdmit_of_free hstart hclose hchecks hdir hfree
    rw [← hring] at hgrant hexec ⊢
    have hgranted : (u.admitting (ctxOfRing c.ring) (c.param 0 1)).admitAnswer (c.timed u.tide) = .grant e b picks :=
      (admitAnswer_timed ..).trans hgrant
    have hleft : SameButCompletions ((u.admitting (ctxOfRing c.ring) (c.param 0 1)).admitted (c.timed u.tide) e b picks)
        ((u.admitting (ctxOfRing c.ring) (c.param 0 1)).grantAdmit (c.timed u.tide) e b picks) :=
      grantAdmit_of_new hgranted hlocal hholds
    have hmb := (hleft.mb (ctxOfRing c.ring) (c.param 0 1)).trans admitted_mb
    refine ⟨_, hexec.trans (congrArg _ (tryAdmit_of_grant hgranted true)), ?_, ?_, ?_, ?_, ?_, ?_, ?_, fun p hp => ?_,
      fun l hl => ?_, fun m hm => ?_, fun k hk => ?_⟩
    · exact congrArg Mb.state hmb
    · exact congrArg Mb.fwdEntry hmb
    · exact congrArg Mb.baseUnits hmb
    · exact congrArg Mb.sizeUnits hmb
    · rw [hleft.ctx, ← hstart.ctx, ← admitting_admissions u (ctxOfRing c.ring) (c.param 0 1)]
      exact admitted_admissions
    · rintro i rfl
      rw [fwdEntry_congr (congrArg Ctx.fwd (hleft.ctx (ctxOfRing c.ring)))]
      exact admitted_entry i
    · exact congrArg Mb.pins hmb
    · rw [hleft.layer]
      exact admitted_slot (pinAnswer_nodup (admitAnswer_picks hgranted)) hp
    · rw [hleft.layer, ← hstart.layer]
      exact admitted_layer_of_not_mem hl
    · rw [hleft.mb, ← hstart.mb]
      exact (admitted_mb_ne hm).trans (modMb_mb_ne _ _ _ hm)
    · rw [hleft.ctx, ← hstart.ctx]
      exact (admitted_ctx_ne hk).trans (modMb_ctx_ne _ _ _ hk)
  · intro cause hdir hfree hlacks
    have hlacking : (u.admitting (ctxOfRing r) (c.param 0 1)).admitAnswer (c.timed u.tide) = .lacks cause :=
      (admitAnswer_timed ..).trans hlacks
    exact (mbAdmit_of_free hstart hclose hchecks hdir hfree).trans (congrArg _ (tryAdmit_of_lacks hlacking true))
  · exact mbAdmit_of_busy hstart hclose hchecks
  · intro hdir hforward hlast
    have hexec := mbAdmit_of_backward hstart hclose hchecks hdir hforward
    rw [← hring] at hlast ⊢
    have hleft := tryAdmitBack_of_last (c := c.timed u.tide) hlast true
    refine ⟨_, hexec, ?_, fun m hm => ?_⟩
    · rw [hleft.mb]
      exact congrArg Mb.state (modMb_mb u (ctxOfRing c.ring) (c.param 0 1) _)
    · rw [hleft.mb, ← hstart.mb]
      exact modMb_mb_ne _ _ _ hm
  · intro e b picks hgrant htime
    rw [admissionGrant_of_waiting hfind hclose hdir htime, tryAdmit_of_grant hgrant]
  · intro d cause hdeadline hdue hlacks
    exact admitTimeout_of_lacking hfind hclose hdir hdeadline hdue hlacks

end Sys2Proof.Machine
end

section
/-! PROOF. Frames of the shard axis as they leave (chapters 14 and 15): what sending them changes, and where they are
afterwards. -/

namespace Sys2Proof.Machine

/-! ### What sending changes -/

/-- Two states that differ at most in reports, in the ports and in the counts of the switch tiles. -/
def SameButSends (s t : State) : Prop := t = { s with
  ports := t.ports, dma := t.dma, host := t.host, log := t.log, coll := { s.coll with tiles := t.coll.tiles }
  power := { s.power with faultLow := t.power.faultLow }, mgmt := { s.mgmt with events := t.mgmt.events } }

section Sends

variable {s t u : State}

theorem SameButSends.rfl : SameButSends s s := Eq.refl s

theorem SameButSends.trans (hst : SameButSends s t) (htu : SameButSends t u) : SameButSends s u :=
  Eq.trans htu (congrArg (fun x : State => { x with
    ports := u.ports, dma := u.dma, host := u.host, log := u.log, coll := { x.coll with tiles := u.coll.tiles }
    power := { x.power with faultLow := u.power.faultLow }, mgmt := { x.mgmt with events := u.mgmt.events } }) hst)

theorem SameButSends.eq (h : SameButSends s t) : t = { s with
    ports := t.ports, dma := t.dma, host := t.host, log := t.log, coll := { s.coll with tiles := t.coll.tiles }
    power := { s.power with faultLow := t.power.faultLow }, mgmt := { s.mgmt with events := t.mgmt.events } } := h

theorem SameButTraffic.sends (h : SameButTraffic s t) : SameButSends s t := by
  rw [SameButTraffic] at h; rw [h]; exact Eq.refl _

theorem SameButSends.layers (h : SameButSends s t) : t.layers = s.layers := (congrArg State.layers h.eq :)

theorem SameButSends.layer (h : SameButSends s t) (l : Nat) : t.layer l = s.layer l :=
  (congrArg (State.layer · l) h.eq :)

theorem SameButSends.mem (h : SameButSends s t) : t.mem = s.mem := (congrArg State.mem h.eq :)

theorem SameButSends.poison (h : SameButSends s t) : t.poison = s.poison := (congrArg State.poison h.eq :)

/-- Where a rank is reached stays as it was. -/
theorem SameButSends.route (h : SameButSends s t) (rank : Nat) : t.rankPort rank = s.rankPort rank ∧
    tabGet {} t.coll.shardMap rank = tabGet {} s.coll.shardMap rank ∧ t.conf.address = s.conf.address :=
  ⟨(congrArg (State.rankPort · rank) h.eq :), (congrArg (fun x : State => tabGet {} x.coll.shardMap rank) h.eq :),
    (congrArg (fun x : State => x.conf.address) h.eq :)⟩

theorem sameButSends_swDiscard (s : State) (x : Nat) : SameButSends s (s.swDiscard x) := Eq.refl _

theorem sameButSends_sendToRank (s : State) (rank : Nat) (poison : Bool) (body : FrameBody) :
    SameButSends s (s.sendToRank rank poison body) := by
  unfold State.sendToRank
  split
  · exact (sameButTraffic_send ..).sends
  · exact sameButSends_swDiscard ..

theorem sameButSends_sendShard (s : State) (kind layer : Nat) (serial : W16) (reqId rank : Nat) :
    SameButSends s (s.sendShard kind layer serial reqId rank) := sameButSends_sendToRank ..

theorem sameButSends_sendShards (s : State) (kind layer : Nat) (serial : W16) (reqId : Nat) :
    SameButSends s (s.sendShards kind layer serial reqId) :=
  foldl_keeps (R := SameButSends) (fun _ => .rfl) (fun _ _ _ => .trans) (fun _ _ => sameButSends_sendShard ..) _ s

end Sends

/-! ### Where a frame is once it has been sent (R310, R313) -/

/-- A frame with this body, from one module to another, stands in a port's queue or has left it. -/
def State.carries (s : State) (q : Nat) (dst src : W16) (body : FrameBody) : Prop :=
  ∃ f : Frame, f.hdr.dstModule = dst ∧ f.hdr.srcModule = src ∧ f.body = body ∧
    (f ∈ (s.port q).queue ∨ f ∈ (s.port q).sent)

section Carried

variable {s t : State} {q : Nat} {dst src : W16} {body : FrameBody}

theorem State.carries.spell (h : s.carries q dst src body) : ∃ hdr : FrameHdr, hdr.dstModule = dst ∧
    hdr.srcModule = src ∧ ∀ g : Frame, g = ⟨hdr, body⟩ → g ∈ (s.port q).queue ∨ g ∈ (s.port q).sent := by
  obtain ⟨f, hdst, hsrc, rfl, hf⟩ := h
  exact ⟨f.hdr, hdst, hsrc, fun g hg => hg ▸ hf⟩

theorem State.carries.congr (h : s.carries q dst src body) (hport : t.port q = s.port q) :
    t.carries q dst src body := by
  rw [State.carries, hport]
  exact h

/-- A frame that joins a queue puts none out of it. -/
theorem mem_enqueue {fs : List Frame} {f g : Frame} : g ∈ enqueue fs f ↔ g = f ∨ g ∈ fs := by
  unfold enqueue
  split
  · conv_rhs => rw [← List.takeWhile_append_dropWhile (p := fun g => frameUrgent g.body) (l := fs)]
    simp only [List.mem_append, List.mem_cons]
    tauto
  · simp only [List.mem_append, List.mem_singleton]
    tauto

theorem stampFrame_keeps (f : Frame) (tide : Nat) : (stampFrame f tide).hdr.dstModule = f.hdr.dstModule ∧
    (stampFrame f tide).hdr.srcModule = f.hdr.srcModule ∧ (stampFrame f tide).body = f.body := by
  unfold stampFrame
  split <;> exact ⟨rfl, rfl, rfl⟩

/-- The first frame of a queue leaves stamped; the others stand where they stood. -/
theorem carries_leave {p : Nat} {f : Frame} {rest : List Frame} (hqueue : (s.port p).queue = f :: rest)
    (h : s.carries q dst src body) :
    (s.modPort p (fun x => x.leave (stampFrame f s.tide) rest)).carries q dst src body := by
  by_cases hq : q = p
  · subst hq
    obtain ⟨g, hdst, hsrc, hbody, hg⟩ := h
    rw [State.carries, modPort_port]
    rw [hqueue, List.mem_cons] at hg
    rcases hg with (rfl | hrest) | hsent
    · obtain ⟨hdst', hsrc', hbody'⟩ := stampFrame_keeps g s.tide
      exact ⟨_, hdst'.trans hdst, hsrc'.trans hsrc, hbody'.trans hbody,
        .inr (List.mem_append_right _ List.mem_cons_self)⟩
    · exact ⟨g, hdst, hsrc, hbody, .inl hrest⟩
    · exact ⟨g, hdst, hsrc, hbody, .inr (List.mem_append_left _ hsent)⟩
  · exact h.congr (modPort_port_ne _ _ _ _ hq)

theorem carries_pumpN (p fuel : Nat) (h : s.carries q dst src body) : (s.pumpN p fuel).carries q dst src body := by
  induction fuel generalizing s with
  | zero => exact h
  | succ fuel ih =>
    rw [State.pumpN]
    dsimp only
    split
    · exact h
    · rename_i f rest hqueue
      split
      · exact ih ((carries_leave hqueue h).congr ((sameButReports_absorb ..).port q))
      · exact h

section Send

variable (p : Nat) (hdr : FrameHdr) (b : FrameBody)

/-- The frame that a port is given to send. -/
def State.queued (s : State) (p : Nat) (hdr : FrameHdr) (b : FrameBody) : State := s.modPort p (fun x => { x with
  queue := enqueue x.queue ⟨{ hdr with srcModule := s.conf.address, sendTide := 0 }, b⟩ })

theorem carries_send (h : s.carries q dst src body) : (s.send p hdr b).carries q dst src body := by
  refine carries_pumpN (s := s.queued p hdr b) p _ ?_
  by_cases hq : q = p
  · subst hq
    obtain ⟨g, hdst, hsrc, hbody, hg⟩ := h
    rw [State.carries, State.queued, modPort_port]
    exact ⟨g, hdst, hsrc, hbody, hg.imp (fun hmem => mem_enqueue.mpr (.inr hmem)) id⟩
  · exact h.congr (modPort_port_ne _ _ _ _ hq)

/-- What is sent is carried by its port from then on. -/
theorem send_carries (s : State) : (s.send p hdr b).carries p hdr.dstModule s.conf.address b := by
  refine carries_pumpN (s := s.queued p hdr b) p _ ?_
  rw [State.carries, State.queued, modPort_port]
  exact ⟨_, rfl, rfl, rfl, .inl (mem_enqueue.mpr (.inl rfl))⟩

end Send

theorem carries_sendToRank (rank : Nat) (poison : Bool) (b : FrameBody) (h : s.carries q dst src body) :
    (s.sendToRank rank poison b).carries q dst src body := by
  unfold State.sendToRank
  split
  · exact carries_send _ _ _ h
  · exact h.congr rfl

theorem sendToRank_carries {rank : Nat} (hport : s.rankPort rank = some q) (poison : Bool) (b : FrameBody) :
    (s.sendToRank rank poison b).carries q (tabGet {} s.coll.shardMap rank).module s.conf.address b := by
  rw [State.sendToRank, hport]
  exact send_carries ..

/-! ### Frames to several ranks -/

/-- A frame to each of these ranks. -/
def State.sendRanks (s : State) (b : Nat → FrameBody) (ranks : List Nat) : State :=
  ranks.foldl (fun t r => t.sendToRank r false (b r)) s

theorem sameButSends_sendRanks (s : State) (b : Nat → FrameBody) (ranks : List Nat) :
    SameButSends s (s.sendRanks b ranks) :=
  foldl_keeps (R := SameButSends) (fun _ => .rfl) (fun _ _ _ => .trans) (fun _ _ => sameButSends_sendToRank ..) ranks s

theorem carries_sendRanks (b : Nat → FrameBody) (ranks : List Nat) (h : s.carries q dst src body) :
    (s.sendRanks b ranks).carries q dst src body := by
  induction ranks generalizing s with
  | nil => exact h
  | cons r ranks ih => exact ih (carries_sendToRank r false (b r) h)

/-- Each rank that can be reached has its frame. -/
theorem sendRanks_carries {b : Nat → FrameBody} {ranks : List Nat} {rank : Nat} (hrank : rank ∈ ranks)
    (hport : s.rankPort rank = some q) : (s.sendRanks b ranks).carries q (tabGet {} s.coll.shardMap rank).module
      s.conf.address (b rank) := by
  induction ranks generalizing s with
  | nil => exact absurd hrank List.not_mem_nil
  | cons r ranks ih =>
    rcases List.mem_cons.mp hrank with rfl | hrest
    · exact carries_sendRanks b ranks (sendToRank_carries hport false _)
    · obtain ⟨hport', hmodule, haddress⟩ := (sameButSends_sendToRank s r false (b r)).route rank
      rw [← hmodule, ← haddress]
      exact ih hrest (hport'.trans hport)

end Carried

end Sys2Proof.Machine
end

section
/-! PROOF. Unpins, grace ends and holds (chapter 11). -/

namespace Sys2Proof.Machine

section Retiring

variable {s u : State} {c : Cmd} {dt : Nat} {r : Fin 17} {l : Fin 4096} {i : Fin 8}

theorem exec_versionUnpin (dt : Nat) (r : Fin 17) (s : State) :
    exec (.versionUnpin dt r) s = execVersionUnpin dt r s := rfl

theorem exec_graceExpiry (dt : Nat) (l : Fin 4096) (i : Fin 8) (s : State) :
    exec (.graceExpiry dt l i) s = execGraceExpiry dt l i s := rfl

theorem exec_holdTimeout (dt : Nat) (r : Fin 17) (seq : W16) (s : State) :
    exec (.holdTimeout dt r seq) s = execHoldTimeout dt r seq s := rfl

theorem exec_holdRenewal (dt : Nat) (l : Fin 4096) (i : Fin 8) (s : State) :
    exec (.holdRenewal dt l i) s = execHoldRenewal dt l i s := rfl

theorem exec_holdLeaseExpiry (dt : Nat) (l : Fin 4096) (i : Fin 8) (m : W16) (s : State) :
    exec (.holdLeaseExpiry dt l i m) s = execHoldLeaseExpiry dt l i m s := rfl

/-! ### VERSION_UNPIN (R235) -/

/-- A VERSION_UNPIN that passes its checks releases the pins that its micro-batch holds, unless this was dropped. -/
theorem versionUnpin_of_checked (hstart : Starts s dt r 0x31 c u) (hmb : c.param 0 1 < 64)
    (hadmitted : (u.mb (ctxOfRing r) (c.param 0 1)).admitted = true) (hone : 1 ≤ c.param 6 2)
    (hlast : c.param 2 2 + c.param 6 2 ≤ 4096)
    (hreserved : ∀ i, i = 1 ∨ i = 4 ∨ i = 5 ∨ (8 ≤ i ∧ i < 64) → c.param i 1 = 0) {held : List Nat}
    (hheld : held = ((List.range (c.param 6 2)).map (fun i => c.param 2 2 + i)).filter
      (fun l => ((u.mb (ctxOfRing r) (c.param 0 1)).pinOn l).isSome)) :
    exec (.versionUnpin dt r) s = if (u.mb (ctxOfRing r) (c.param 0 1)).dropped then .next (u.complete c .aborted 0 [])
      else .next ((u.unpinLayers (ctxOfRing r) (c.param 0 1) held).complete c .ok 0
        (bodyOf [(0, 2, held.length), (2, 2, c.param 6 2 - held.length)])) := by
  have hzero : reservedFail c 64 [(0, 1), (2, 2), (6, 2)] = [] := by
    refine reservedFail_eq_nil fun i hi hfree => hreserved i ?_
    have h0 := hfree (0, 1) (by simp)
    have h2 := hfree (2, 2) (by simp)
    have h6 := hfree (6, 2) (by simp)
    simp only at h0 h2 h6
    omega
  have hchecks : ∀ x ∈ [(decide (c.param 0 1 < 64) && ((u.mb (ctxOfRing r) (c.param 0 1)).admitted ||
      (u.mb (ctxOfRing r) (c.param 0 1)).gone), 0), (decide (c.param 2 2 < 4096), 2),
      (decide (1 ≤ c.param 6 2) && decide (c.param 2 2 + c.param 6 2 ≤ 4096), 6)], x.1 = true := by
    have hlayer : c.param 2 2 < 4096 := by omega
    simp [hmb, hadmitted, hlayer, hone, hlast]
  subst hheld
  rw [exec_versionUnpin, execVersionUnpin]
  simp only [hstart.take, hzero, List.append_nil, lowestFail_eq_none hchecks]

/-! ### Grace ends, timeouts and leases of holds (R227, R238, R387) -/

theorem graceExpiry_of_due (hold : ((s.layer l).slot i).state = .old) (hgrace : ((s.layer l).slot i).grace = true)
    (hdue : ((s.layer l).slot i).graceEnd ≤ (s.advance dt).tide) : exec (.graceExpiry dt l i) s =
      .next (((s.advance dt).modVSlot l i (fun x => { x with grace := false })).retire l) := by
  have hcond : (decide (((s.layer l).slot i).state = .old) && ((s.layer l).slot i).grace &&
      decide (((s.layer l).slot i).graceEnd ≤ (s.advance dt).tide)) = true := by
    simp [hold, hgrace, hdue]
  exact (exec_graceExpiry ..).trans (if_pos hcond)

/-- One hold that is late fails its request whole (R238). -/
theorem holdTimeout_of_late {seq : W16} {h : HoldReq} (hfind : s.findWait r seq .holds = some c)
    (hmem : h ∈ s.coll.holdReqs) (hcmd : h.cmd = c.ref) (hwaits : h.waiting ≠ [])
    (hlate : h.sentAt + 1000000 ≤ (s.advance dt).tide) :
    exec (.holdTimeout dt r seq) s = .next ((s.advance dt).failHolds c .faulted 0) := by
  have hfind' : (s.advance dt).findWait r seq .holds = some c := hfind
  have hany : (s.advance dt).coll.holdReqs.any (fun h => h.cmd == c.ref && !h.waiting.isEmpty &&
      decide (h.sentAt + 1000000 ≤ (s.advance dt).tide)) = true :=
    List.any_eq_true.mpr ⟨h, hmem, by simp [hcmd, hwaits, hlate]⟩
  rw [exec_holdTimeout, execHoldTimeout]
  simp only [hfind', hany, if_true]

theorem holdRenewal_of_due (hlive : ((s.layer l).slot i).state ≠ .free) (hpins : 0 < ((s.layer l).slot i).pins)
    (hshards : 1 < (s.layer l).shards) (hdue : ((s.layer l).slot i).renewAt ≤ (s.advance dt).tide) :
    exec (.holdRenewal dt l i) s = .next (((s.advance dt).modVSlot l i (fun x => { x with
      renewAt := (s.advance dt).tide + 20000000 })).sendShards 0 l ((s.layer l).slot i).serial
      ((s.layer l).slot i).reqId) := by
  have hcond : (((s.layer l).slot i).state != .free && decide (0 < ((s.layer l).slot i).pins) &&
      decide (1 < (s.layer l).shards) && decide (((s.layer l).slot i).renewAt ≤ (s.advance dt).tide)) = true := by
    simp [hlive, hpins, hshards, hdue]
  exact (exec_holdRenewal ..).trans (if_pos hcond)

/-- The only hold of a version whose lease is over. -/
theorem holdLeaseExpiry_of_only {h : W16 × Nat × Nat} (hholds : ((s.layer l).slot i).holds = [h])
    (hpast : h.2.2 < (s.advance dt).tide) : exec (.holdLeaseExpiry dt l i h.1) s =
      .next ((((s.advance dt).modVSlot l i (fun x => { x with holds := [] })).logRec 0 0x0080 sevWarning h.2.2 2
        (l.val * 65536 + ((s.layer l).slot i).serial.toNat)).retire l) := by
  have hholds' : (((s.advance dt).layer l).slot i).holds = [h] := hholds
  have hfind : (((s.advance dt).layer l).slot i).holds.find? (fun x => x.1 == h.1 &&
      decide (x.2.2 < (s.advance dt).tide)) = some h := by
    rw [hholds', List.find?_cons_of_pos (by simp [hpast])]
  have hempty : ((s.advance dt).modVSlot l i (fun x => { x with holds := x.holds.filter (fun g => g != h) })) =
      (s.advance dt).modVSlot l i (fun x => { x with holds := [] }) :=
    modVSlot_congr (by simp [hholds'])
  rw [← hempty, exec_holdLeaseExpiry, execHoldLeaseExpiry]
  simp only [hfind]
  rfl

end Retiring

/-- Settles O40: each clause is one row with its trigger held; a renewal's frames leave versions and memory alone. -/
theorem versionsRetire : Obligations.VersionsRetire := by
  refine fun dt s u c => ⟨?_, fun l i => graceExpiry_of_due, fun r seq h => holdTimeout_of_late, ?_, ?_⟩
  · rintro r layer count mb held hstart rfl rfl rfl hmb hadmitted hone hlast hreserved hheld
    rw [versionUnpin_of_checked hstart hmb hadmitted hone hlast hreserved hheld]
    exact ⟨fun hkept => by rw [hkept, if_neg Bool.false_ne_true], fun hdropped => by rw [hdropped, if_pos rfl]⟩
  · intro l i hlive hpins hshards hdue
    have hsent := sameButSends_sendShards ((s.advance dt).modVSlot l i (fun x => { x with
      renewAt := (s.advance dt).tide + 20000000 })) 0 l ((s.layer l).slot i).serial ((s.layer l).slot i).reqId
    refine ⟨_, holdRenewal_of_due hlive hpins hshards hdue, ?_, fun m hm => ?_, hsent.mem⟩
    · rw [hsent.layer, modVSlot_slot]
      rfl
    · rw [hsent.layer, modVSlot_layer_ne _ _ _ hm]
      rfl
  · rintro l i m h hholds rfl hpast
    exact holdLeaseExpiry_of_only hholds hpast

end Sys2Proof.Machine
end

section
/-! PROOF. SHARD_GATHER and SHARD frames (chapter 11): what a gather copies and asks for, and what becomes of holds. -/

namespace Sys2Proof.Machine

/-! ### What a copy and the end of a gather change -/

section Copies

variable (s : State)

theorem farFailed_congr {t : State} (hpkg : t.pkg = s.pkg) (hfar : t.farStacks = s.farStacks) :
    t.farFailed = s.farFailed := by
  funext a
  unfold State.farFailed
  rw [hpkg, hfar]

theorem writeBytes_congr {t : State} (h : t.farFailed = s.farFailed) (m : List Host.Cell) (a : Nat) (bs : List Byte) :
    t.writeBytes m a bs = s.writeBytes m a bs := by
  induction bs generalizing m a with
  | nil => rfl
  | cons b bs ih => rw [State.writeBytes, State.writeBytes, State.writeByte, State.writeByte, h, ih]

/-- A copy rests on memory, its poison and the far tier's channels alone. -/
theorem copy_congr {t : State} (hmem : t.mem = s.mem) (hpoison : t.poison = s.poison) (hpkg : t.pkg = s.pkg)
    (hfar : t.farStacks = s.farStacks) (src dst n : Nat) : (t.copy src dst n).mem = (s.copy src dst n).mem ∧
      (t.copy src dst n).poison = (s.copy src dst n).poison := by
  have hfailed := farFailed_congr s hpkg hfar
  have hread : t.read src n = s.read src n := by rw [State.read, hmem, State.read]
  have hunit : t.unitPoisoned = s.unitPoisoned := by
    funext a
    rw [State.unitPoisoned, hpoison, hfailed, State.unitPoisoned]
  have hmoved : t.movedPoison src dst n = s.movedPoison src dst n := by
    rw [State.movedPoison, hunit, State.movedPoison]
  simp only [State.copy, State.write, State.markPoison, hread, hmoved, hmem, hpoison, writeBytes_congr s hfailed, and_self]

/-- Each of these planes is copied to its destination. -/
def State.copyPlanes (s : State) (dest : Nat × Nat × Nat → Nat) (planes : List (Nat × Nat × Nat)) : State :=
  planes.foldl (fun st pl => st.copy (addrKey pl.2.1) (dest pl) pl.2.2) s

theorem copyPlanes_frame (dest : Nat × Nat × Nat → Nat) (planes : List (Nat × Nat × Nat)) :
    s.copyPlanes dest planes = { s with
      mem := (s.copyPlanes dest planes).mem, poison := (s.copyPlanes dest planes).poison } := by
  induction planes generalizing s with
  | nil => rfl
  | cons pl planes ih => exact (ih (s.copy (addrKey pl.2.1) (dest pl) pl.2.2)).trans rfl

/-- Copying its own shard, a gather changes memory and its own books. -/
theorem gatherOwn_frame (g : ShardGet) : s.gatherOwn g = { s with
    mem := (s.gatherOwn g).mem, poison := (s.gatherOwn g).poison
    coll := { s.coll with gets := (s.gatherOwn g).coll.gets } } := by
  unfold State.gatherOwn
  dsimp only
  split
  · split
    · rfl
    · rw [← State.copyPlanes, copyPlanes_frame]
      rfl
  · rfl

theorem checkGet_frame (ref : CmdRef) : s.checkGet ref = { s with
    host := (s.checkGet ref).host, coll := (s.checkGet ref).coll } := by
  unfold State.checkGet State.endGet
  split
  · rfl
  · split
    · split <;> rfl
    · rfl

end Copies

/-! ### The start of a gather (R237, R340) -/

/-- The gather that a SHARD_GATHER opens. -/
def Cmd.get (c : Cmd) (slot : Nat) : ShardGet :=
  { cmd := c.ref, collId := BitVec.ofNat 32 (c.param 0x28 4), layer := c.param 2 2
    serial := BitVec.ofNat 16 (c.param 4 2), slot := slot, first := c.param 6 2, count := c.param 8 2 }

/-- The gather is open, and its command waits for the owners. -/
def State.getting (s : State) (c : Cmd) (slot : Nat) : State :=
  ({ s with coll := { s.coll with gets := s.coll.gets ++ [c.get slot] } } : State).setWait c.ref .owners none

/-- What the owner of a shard is asked. -/
def State.askFor (s : State) (c : Cmd) (rank : Nat) : FrameBody :=
  .gather { collId := BitVec.ofNat 32 (c.param 0x28 4), kind := 3, epoch := s.commit.layoutEpoch, rank := s.coll.ownRank,
            dstRank := rank, layer := c.param 2 2, serial := BitVec.ofNat 16 (c.param 4 2), shard := rank }

/-- The ranks whose shards a gather asks for: those that it names but its own. -/
def State.asked (s : State) (c : Cmd) : List Nat :=
  ((List.range (c.param 8 2)).map (fun i => c.param 6 2 + i)).filter (fun r => r != (s.layer (c.param 2 2)).ownShard)

section Start

variable {s u : State} {c : Cmd} {i : Nat}

theorem startGather_eq : u.startGather c i = ((((u.getting c i).gatherOwn (c.get i)).sendRanks (u.askFor c)
    (u.asked c)).checkGet c.ref) := by
  have hcommit : ((u.getting c i).gatherOwn (c.get i)).commit = u.commit := by rw [gatherOwn_frame]; rfl
  have hrank : ((u.getting c i).gatherOwn (c.get i)).coll.ownRank = u.coll.ownRank := by rw [gatherOwn_frame]; rfl
  have hask : ((u.getting c i).gatherOwn (c.get i)).askFor c = u.askFor c := by
    funext rank
    rw [State.askFor, hcommit, hrank, State.askFor]
  rw [← hask]
  rfl

theorem mem_asked {rank : Nat} : rank ∈ u.asked c ↔ c.param 6 2 ≤ rank ∧ rank < c.param 6 2 + c.param 8 2 ∧
    rank ≠ (u.layer (c.param 2 2)).ownShard := by
  simp only [State.asked, List.mem_filter, List.mem_map, List.mem_range, bne_iff_ne]
  constructor
  · rintro ⟨⟨j, hj, rfl⟩, hne⟩
    exact ⟨by omega, by omega, hne⟩
  · rintro ⟨hlow, hhigh, hne⟩
    exact ⟨⟨rank - c.param 6 2, by omega, by omega⟩, hne⟩

/-- The owner of every other shard that the gather names, where it can be reached, is asked for it. -/
theorem startGather_carries {rank q : Nat} (hlow : c.param 6 2 ≤ rank) (hhigh : rank < c.param 6 2 + c.param 8 2)
    (hother : rank ≠ (u.layer (c.param 2 2)).ownShard) (hport : u.rankPort rank = some q) :
    (u.startGather c i).carries q (tabGet {} u.coll.shardMap rank).module u.conf.address (u.askFor c rank) := by
  have hroute : ((u.getting c i).gatherOwn (c.get i)).rankPort rank = u.rankPort rank ∧
      ((u.getting c i).gatherOwn (c.get i)).coll.shardMap = u.coll.shardMap ∧
      ((u.getting c i).gatherOwn (c.get i)).conf = u.conf := by
    rw [gatherOwn_frame]
    exact ⟨rfl, rfl, rfl⟩
  obtain ⟨hrankPort, hmap, hconf⟩ := hroute
  have hsent := sendRanks_carries (b := u.askFor c) (mem_asked.mpr ⟨hlow, hhigh, hother⟩) (hrankPort.trans hport)
  rw [hmap, hconf] at hsent
  rw [startGather_eq, checkGet_frame]
  exact hsent.congr rfl

/-- Of memory, a gather's start changes what the copy of its own shard changes. -/
theorem startGather_mem : (u.startGather c i).mem = ((u.getting c i).gatherOwn (c.get i)).mem ∧
    (u.startGather c i).poison = ((u.getting c i).gatherOwn (c.get i)).poison := by
  have hsends := sameButSends_sendRanks ((u.getting c i).gatherOwn (c.get i)) (u.askFor c) (u.asked c)
  rw [startGather_eq, checkGet_frame]
  exact ⟨hsends.mem, hsends.poison⟩

/-! ### The own shard (R237) -/

/-- A version that is whole and named by the gather is copied, on a format without a scale plane as one run of bytes. -/
theorem gatherOwn_of_whole {g : ShardGet} (hfind : s.findCmd g.cmd = some c)
    (hserial : ((s.layer g.layer).slot g.slot).serial = g.serial) (hwhole : ((s.layer g.layer).slot g.slot).whole = true)
    (hlow : g.first ≤ (s.layer g.layer).ownShard) (hhigh : (s.layer g.layer).ownShard < g.first + g.count)
    (hnew : g.got = []) (hfmt : fmtIsMx (s.layer g.layer).workFmt = false) (hheld : s.ownHeld c g = false) :
    ∃ got : ShardGet → Tab (Nat × Nat), s.gatherOwn g =
      (s.copy ((s.layer g.layer).workOf g.slot) (gatherDest s c g 0 (s.layer g.layer).ownShard)
        (s.layer g.layer).workBytes).modGet g.cmd (fun x => { x with got := got x }) := by
  have hstate : ((s.layer g.layer).slot g.slot).state ≠ .free ∧ ((s.layer g.layer).slot g.slot).state ≠ .receiving ∧
      ((s.layer g.layer).slot g.slot).state ≠ .writing := by
    cases hstate : ((s.layer g.layer).slot g.slot).state <;> simp_all [VSlot.whole]
  obtain ⟨hlive, hreceived, hwritten⟩ := hstate
  have hplanes : (s.layer g.layer).planes g.slot =
      [(0, (s.layer g.layer).workOf g.slot, (s.layer g.layer).workBytes)] := by
    simp [Layer.planes, hfmt]
  unfold State.gatherOwn
  dsimp only
  rw [hfind]
  dsimp only
  rw [if_neg, hplanes]
  · exact ⟨_, rfl⟩
  · simpa [hserial, hlive, hreceived, hwritten, hnew, hheld, tabFind] using ⟨hlow, hhigh⟩

theorem resolve_congr {t : State} (h : t.pkg = s.pkg) : t.resolve = s.resolve := by
  funext allowed die addr n
  unfold State.resolve
  rw [h]

/-- What an opened gather changes has no part in where its shards go, nor in what is held. -/
theorem getting_dest (g : ShardGet) (work : Work) (deadline : Option Nat) :
    gatherDest (u.getting c i) { c with work := work, deadline := deadline } g = gatherDest u c g := by
  have hparam : Cmd.param { c with work := work, deadline := deadline } = Cmd.param c := rfl
  funext plane shard
  unfold gatherDest
  rw [hparam, resolve_congr (s := u) (t := u.getting c i) rfl]

theorem getting_copyStops : (u.getting c i).copyStops = u.copyStops := rfl

theorem getting_ownHeld (g : ShardGet) (work : Work) (deadline : Option Nat) :
    (u.getting c i).ownHeld { c with work := work, deadline := deadline } g = u.ownHeld c g := by
  unfold State.ownHeld
  rw [getting_dest, getting_copyStops]
  rfl

/-- The own shard of a gather that names it is copied as the gather starts. -/
theorem startGather_copies {l : Layer} (hl : l = u.layer (c.param 2 2)) (hfind : u.findCmd c.ref = some c)
    (hlow : c.param 6 2 ≤ l.ownShard) (hhigh : l.ownShard < c.param 6 2 + c.param 8 2)
    (hserial : (l.slot i).serial = BitVec.ofNat 16 (c.param 4 2)) (hwhole : (l.slot i).whole = true)
    (hfmt : fmtIsMx l.workFmt = false) (hheld : u.ownHeld c (c.get i) = false) :
    (u.startGather c i).mem = (u.copy (l.workOf i) (gatherDest u c (c.get i) 0 l.ownShard) l.workBytes).mem ∧
    (u.startGather c i).poison =
      (u.copy (l.workOf i) (gatherDest u c (c.get i) 0 l.ownShard) l.workBytes).poison := by
  subst hl
  have hfound : (u.getting c i).findCmd c.ref = some { c with work := .waiting .owners, deadline := none } :=
    findCmd_modCmd (s := { u with coll := { u.coll with gets := u.coll.gets ++ [c.get i] } }) (fun _ => rfl) hfind
  obtain ⟨got, hown⟩ := gatherOwn_of_whole (s := u.getting c i) (g := c.get i) hfound hserial hwhole hlow hhigh rfl hfmt
    ((getting_ownHeld ..).trans hheld)
  obtain ⟨hmem, hpoison⟩ := startGather_mem (u := u) (c := c) (i := i)
  rw [hmem, hpoison, hown, getting_dest]
  exact copy_congr (s := u) (t := u.getting c i) rfl rfl rfl rfl ..

end Start

end Sys2Proof.Machine
end

section
/-! PROOF. The outcomes of a SHARD_GATHER, and SHARD frames that are received (chapter 11). -/

namespace Sys2Proof.Machine

/-! ### Retirement (R227) -/

section Retirement

variable {s : State}

/-- A filter that keeps what a table holds at a number changes nothing there. -/
theorem tabGet_filter_of_kept {α : Type} {d : α} {t : Tab α} {n : Nat} {p : Nat × α → Bool}
    (h : p (n, tabGet d t n) = true) : tabGet d (t.filter p) n = tabGet d t n := by
  induction t with
  | nil => rfl
  | cons e t ih =>
    obtain ⟨k, v⟩ := e
    by_cases hk : k = n
    · subst hk
      have hv : tabGet d ((k, v) :: t) k = v := if_pos rfl
      rw [hv] at h ⊢
      rw [List.filter_cons_of_pos h, tabGet, if_pos rfl]
    · have hrest : tabGet d ((k, v) :: t) n = tabGet d t n := if_neg hk
      rw [hrest] at h ⊢
      rw [List.filter_cons]
      split
      · exact (if_neg hk).trans (ih h)
      · exact ih h

theorem tickUpdates_layer (l : Nat) : s.tickUpdates.layer l = s.layer l := rfl

/-- A slot that is not OLD outlasts the retirement of its layer's others. -/
theorem retire_slot {l i : Nat} (h : ((s.layer l).slot i).state ≠ .old) :
    ((s.retire l).layer l).slot i = (s.layer l).slot i := by
  rw [State.retire, tickUpdates_layer, modLayer_layer]
  refine tabGet_filter_of_kept ?_
  have hstate : ((tabGet {} (s.layer l).slots i).state == .old) = false := beq_eq_false_iff_ne.mpr h
  simp only [hstate, Bool.false_and, Bool.not_false]

theorem retire_layer_ne {l n : Nat} (h : n ≠ l) : (s.retire l).layer n = s.layer n := by
  rw [State.retire, tickUpdates_layer, modLayer_layer_ne _ _ _ _ h]

end Retirement

/-! ### The outcomes of a SHARD_GATHER (R240) -/

section Outcomes

variable {s u : State} {c : Cmd} {dt : Nat} {r : Fin 17}

theorem exec_shardGather (dt : Nat) (r : Fin 17) (s : State) :
    exec (.shardGather dt r) s = execShardGather dt r s := rfl

variable (hstart : Starts s dt r 0x32 c u) (hchecks : lowestFail (gatherChecks u c) = none)

include hstart hchecks

/-- A gather of a version that is gone, for a micro-batch that was not dropped if it names one. -/
theorem shardGather_of_gone
    (hkept : c.param 1 1 = 0xFF ∨ (u.mb (ctxOfRing r) (c.param 1 1)).gone = false)
    (hgone : u.gatherSlot (ctxOfRing r) (c.param 1 1) (c.param 2 2) (BitVec.ofNat 16 (c.param 4 2)) = none) :
    exec (.shardGather dt r) s = .next (u.complete c .versionGone 0 []) := by
  have hdropped : ¬((decide (c.param 1 1 ≠ 0xFF) && decide (c.param 1 1 < 64) &&
      (u.mb (ctxOfRing r) (c.param 1 1)).gone) = true) := by
    rcases hkept with hnone | hkept
    · simp [hnone]
    · simp [hkept]
  rw [exec_shardGather, execShardGather]
  simp only [hstart.take, hchecks, hgone]
  exact if_neg hdropped

/-- A gather of a slot that its micro-batch pins, if it names one, does what the slot's epoch and its dies say. -/
theorem shardGather_of_slot {i : Nat}
    (hslot : u.gatherSlot (ctxOfRing r) (c.param 1 1) (c.param 2 2) (BitVec.ofNat 16 (c.param 4 2)) = some i)
    (hpin : c.param 1 1 = 0xFF ∨ c.param 1 1 < 64 ∧ (u.mb (ctxOfRing r) (c.param 1 1)).admitted = true ∧
      (u.mb (ctxOfRing r) (c.param 1 1)).pinOn (c.param 2 2) = some (BitVec.ofNat 16 (c.param 4 2))) :
    exec (.shardGather dt r) s =
      if ((u.layer (c.param 2 2)).slot i).epoch ≠ u.commit.layoutEpoch then .next (u.complete c .epochStale 0 [])
      else if u.dieRefuses (c.param 0 1) || !u.ownServed c then .next (u.complete c .faulted 0 [])
      else if u.dieWaits (c.param 0 1) then .next (s.advance dt)
      else .next (u.startGather c i) := by
  have hdropped : ¬((decide (c.param 1 1 ≠ 0xFF) && decide (c.param 1 1 < 64) &&
      (u.mb (ctxOfRing r) (c.param 1 1)).gone) = true) := by
    rcases hpin with hnone | ⟨-, hadmitted, -⟩
    · simp [hnone]
    · simp [not_gone_of_admitted hadmitted]
  have hpinned : ¬((decide (c.param 1 1 ≠ 0xFF) && !(decide (c.param 1 1 < 64) &&
      (u.mb (ctxOfRing r) (c.param 1 1)).admitted &&
      (u.mb (ctxOfRing r) (c.param 1 1)).pinOn (c.param 2 2) == some (BitVec.ofNat 16 (c.param 4 2)))) = true) := by
    rcases hpin with hnone | ⟨hmb, hadmitted, hpinOn⟩
    · simp [hnone]
    · simp [hmb, hadmitted, hpinOn]
  rw [exec_shardGather, execShardGather]
  simp only [hstart.take, hchecks, hslot, State.idle]
  rw [if_neg hdropped, if_neg hpinned]

end Outcomes

/-! ### SHARD frames (R238, R339) -/

section Frames

variable {s : State} {dt : Nat} {p : Fin 24} {hdr : FrameHdr} {f : ShardF}

theorem exec_shardFrame (dt : Nat) (p : Fin 24) (hdr : FrameHdr) (f : ShardF) (s : State) :
    exec (.shardFrame dt p hdr f) s = execShardFrame dt p hdr f s := rfl

/-- What the owner of a shard answers to the module that holds it. -/
def State.answerShard (s : State) (p : Nat) (hdr : FrameHdr) (f : ShardF) (kind : Nat) : State :=
  match s.rankOf hdr.srcModule with
  | none => s.swDiscard (p / 4)
  | some r => s.sendShard kind f.layer f.serial f.reqId r

/-- The hold that a HOLD frame asks for is noted until 100 ms later (R387). -/
def State.noteHold (s : State) (hdr : FrameHdr) (f : ShardF) (i : Nat) : State :=
  s.modVSlot f.layer i (fun x => x.hold hdr.srcModule f.reqId (s.tide + 100000000))

/-- The hold that a RELEASE frame names ends. -/
def State.endHold (s : State) (hdr : FrameHdr) (f : ShardF) (i : Nat) : State :=
  s.modVSlot f.layer i (fun x => { x with
    holds := x.holds.filter (fun h => !(h.1 == hdr.srcModule && h.2.1 == f.reqId)) })

theorem answerShard_of_rank {rank : Nat} (h : s.rankOf hdr.srcModule = some rank) (p kind : Nat) :
    s.answerShard p hdr f kind = s.sendShard kind f.layer f.serial f.reqId rank := by
  rw [State.answerShard, h]

/-- An answer leaves through the port of its rank. -/
theorem sendShard_carries {rank q : Nat} (hport : s.rankPort rank = some q) (kind layer : Nat) (serial : W16)
    (reqId : Nat) : (s.sendShard kind layer serial reqId rank).carries q (tabGet {} s.coll.shardMap rank).module
      s.conf.address (.shard { kind := kind, layer := layer, serial := serial, dstRank := rank
                               epoch := s.commit.layoutEpoch, reqId := reqId }) :=
  sendToRank_carries hport ..

section Taken

variable (hactive : s.portActive p = true) (hrole : s.roleOf p = 5) (hunits : ∀ n, (s.unit n).armed = false)
  (haddress : hdr.dstModule = s.conf.address) (hpast : hdr.sendTide < (s.advance dt).tide)

include hactive hrole hunits hpast

/-- A SHARD frame is taken, and changes its port's counts alone where no check unit is armed. -/
theorem receive_shard (t : State → State) : (s.advance dt).receive p hdr (.shard f) true t =
    .next (t ((s.advance dt).modPort p (·.taken hdr))) := by
  have hcarried : (s.advance dt).roleOf p ∈ frameRoles (.shard f) := List.mem_singleton.mpr hrole
  have hlater : (s.advance dt).pastSend hdr (.shard f) = true := decide_eq_true hpast
  rw [receive_of_carried (s := s.advance dt) hactive hlater hcarried, acceptFrame_of_unarmed (s := s.advance dt) hunits]

include haddress

/-- A frame of another layout epoch is discarded, and counted by the tile of its port. -/
theorem shardFrame_of_stale (hstale : f.epoch ≠ s.commit.layoutEpoch) : exec (.shardFrame dt p hdr f) s =
    .next (((s.advance dt).modPort p (·.taken hdr)).swDiscard (p / 4)) := by
  rw [exec_shardFrame, execShardFrame]
  dsimp only
  rw [receive_shard hactive hrole hunits hpast, modPort_conf, advance_conf, if_neg (not_not.mpr haddress), modPort_commit,
    advance_commit, if_pos hstale]

variable (hepoch : f.epoch = s.commit.layoutEpoch)

include hepoch

/-- A HOLD is noted and acknowledged where a slot carries its version; else it waits for a version still to come, or is
refused. -/
theorem shardFrame_of_hold (hkind : f.kind = 0) : exec (.shardFrame dt p hdr f) s = .next
    (((s.layer f.layer).holdIdx f.serial hdr.srcModule f.reqId).elim
      (if (s.layer f.layer).defined && serialNewer f.serial (s.layer f.layer).newest then
          (s.advance dt).modPort p (·.taken hdr)
        else ((s.advance dt).modPort p (·.taken hdr)).answerShard p hdr f 3)
      (fun i => (((s.advance dt).modPort p (·.taken hdr)).noteHold hdr f i).answerShard p hdr f 2)) := by
  have hlayer : ((s.advance dt).modPort p (·.taken hdr)).layer f.layer = s.layer f.layer := rfl
  rw [exec_shardFrame, execShardFrame]
  dsimp only
  rw [receive_shard hactive hrole hunits hpast, modPort_conf, advance_conf, if_neg (not_not.mpr haddress), modPort_commit,
    advance_commit, if_neg (not_not.mpr hepoch), if_pos hkind, hlayer]
  cases (s.layer f.layer).holdIdx f.serial hdr.srcModule f.reqId <;> rfl

/-- A RELEASE ends its hold, and the version may retire. -/
theorem shardFrame_of_release {i : Nat} (hkind : f.kind = 1)
    (hindex : (s.layer f.layer).holdIdx f.serial hdr.srcModule f.reqId = some i) : exec (.shardFrame dt p hdr f) s =
      .next ((((s.advance dt).modPort p (·.taken hdr)).endHold hdr f i).retire f.layer) := by
  have hlayer : ((s.advance dt).modPort p (·.taken hdr)).layer f.layer = s.layer f.layer := rfl
  rw [exec_shardFrame, execShardFrame]
  dsimp only
  rw [receive_shard hactive hrole hunits hpast, modPort_conf, advance_conf, if_neg (not_not.mpr haddress), modPort_commit,
    advance_commit, if_neg (not_not.mpr hepoch), if_neg (by simp [hkind]), if_pos hkind, hlayer, hindex]
  rfl

end Taken

end Frames

/-- Settles O41: a gather's start is its outcome's branch, whose requests stay with their ports and whose copy is memory's
only change; a SHARD frame is taken by its port, and what its answer sends leaves the layers as its hold left them. -/
theorem shardsAreHeldAndGathered : Obligations.ShardsAreHeldAndGathered := by
  refine fun dt s => ⟨fun r c u hstart hchecks hgone hkept => shardGather_of_gone hstart hchecks hkept hgone,
    fun r c u i hstart hchecks hslot hpin => ?_, fun p hdr f hactive hrole hunits haddress hpast => ⟨fun hstale => ?_,
      fun i rank hepoch hkind hindex hrank => ?_, fun rank q hepoch hkind hindex hgone hrank hport => ?_,
      fun i hepoch hkind hindex hlive => ?_⟩⟩
  · have hexec := shardGather_of_slot hstart hchecks hslot hpin
    refine ⟨fun hstale => by rw [hexec, if_pos hstale], fun hepoch => ?_⟩
    rw [if_neg (not_not.mpr hepoch)] at hexec
    refine ⟨fun hrefused => ?_, fun hserves howned => ⟨fun hheld => ?_, fun hfree => ⟨u.startGather c i, ?_, rfl,
      fun rank q hlow hhigh hother hport => (startGather_carries hlow hhigh hother hport).spell, ?_⟩⟩⟩
    · rw [hexec, if_pos (by simpa using hrefused)]
    · simp [hexec, hserves, howned, hheld]
    · simp [hexec, hserves, howned, hfree]
    · rintro l g hl hfind hlow hhigh hserial hwhole hfmt rfl hheld
      exact startGather_copies hl hfind hlow hhigh hserial hwhole hfmt hheld
  · rw [acceptFrame_of_unarmed (s := s.advance dt) hunits]
    exact shardFrame_of_stale hactive hrole hunits haddress hpast hstale
  · have hexec := shardFrame_of_hold hactive hrole hunits haddress hpast hepoch hkind
    have hrank' : (((s.advance dt).modPort p (·.taken hdr)).noteHold hdr f i).rankOf hdr.srcModule = some rank := hrank
    rw [hindex, Option.elim_some, answerShard_of_rank hrank'] at hexec
    have hsent := sameButSends_sendShard (((s.advance dt).modPort p (·.taken hdr)).noteHold hdr f i) 2 f.layer f.serial
      f.reqId rank
    refine ⟨_, hexec, ?_, fun q hport => (sendShard_carries (s := ((s.advance dt).modPort p (·.taken hdr)).noteHold hdr f i)
      hport ..).spell, fun l hl => ?_, hsent.mem⟩
    · rw [hsent.layer, State.noteHold, modVSlot_slot]
      rfl
    · rw [hsent.layer, State.noteHold, modVSlot_layer_ne _ _ _ hl]
      rfl
  · have hexec := shardFrame_of_hold hactive hrole hunits haddress hpast hepoch hkind
    have hrank' : ((s.advance dt).modPort p (·.taken hdr)).rankOf hdr.srcModule = some rank := hrank
    have hpast : ¬(((s.layer f.layer).defined && serialNewer f.serial (s.layer f.layer).newest) = true) := by
      rcases hgone with hundefined | hold
      · simp [hundefined]
      · simp [hold]
    rw [hindex, Option.elim_none, if_neg hpast, answerShard_of_rank hrank'] at hexec
    exact ⟨_, hexec, (sameButSends_sendShard ..).layers, (sendShard_carries (s := (s.advance dt).modPort p (·.taken hdr))
      hport ..).spell⟩
  · have hended : ((((s.advance dt).modPort p (·.taken hdr)).endHold hdr f i).layer f.layer).slot i =
        { (s.layer f.layer).slot i with
          holds := ((s.layer f.layer).slot i).holds.filter (fun h => !(h.1 == hdr.srcModule && h.2.1 == f.reqId)) } :=
      modVSlot_slot ..
    have hstays : (((((s.advance dt).modPort p (·.taken hdr)).endHold hdr f i).layer f.layer).slot i).state ≠ .old := by
      rw [hended]
      exact hlive
    refine ⟨_, shardFrame_of_release hactive hrole hunits haddress hpast hepoch hkind hindex, ?_, fun l hl => ?_, rfl⟩
    · rw [retire_slot hstays, hended]
    · rw [retire_layer_ne hl, State.endHold, modVSlot_layer_ne _ _ _ hl]
      rfl

end Sys2Proof.Machine
end

section
/-! PROOF. SEND_ACT and SEND_GRAD (chapter 12): their start, the credit that they take, and their transfer. -/

namespace Sys2Proof.Machine

/-! ### Frames that leave through a port (R313) -/

section Ports

variable {p q : Nat}

theorem pumpN_port_ne (h : q ≠ p) (fuel : Nat) (s : State) : (s.pumpN p fuel).port q = s.port q := by
  induction fuel generalizing s with
  | zero => rfl
  | succ fuel ih =>
    rw [State.pumpN]
    dsimp only
    split
    · rfl
    · split
      · rw [ih, (sameButReports_absorb ..).port, modPort_port_ne _ _ _ _ h]
      · rfl

/-- A frame that is sent leaves every other port as it was. -/
theorem send_port_ne (h : q ≠ p) (s : State) (hdr : FrameHdr) (body : FrameBody) :
    (s.send p hdr body).port q = s.port q :=
  (pumpN_port_ne h _ (s.queued p hdr body)).trans (modPort_port_ne _ _ _ _ h)

/-- Frames sent through one port, each with its header. -/
def State.sendAll {α : Type} (s : State) (p : Nat) (hdr : α → FrameHdr) (body : α → FrameBody) (fs : List α) : State :=
  fs.foldl (fun st f => st.send p (hdr f) (body f)) s

variable {α : Type} (s : State) (hdr : α → FrameHdr) (body : α → FrameBody) (fs : List α)

theorem sameButTraffic_sendAll : SameButTraffic s (s.sendAll p hdr body fs) :=
  foldl_keeps (fun _ => .rfl) (fun _ _ _ => .trans) (fun s f => sameButTraffic_send s p (hdr f) (body f)) fs s

theorem sendAll_port_ne (h : q ≠ p) : (s.sendAll p hdr body fs).port q = s.port q :=
  foldl_keeps (R := fun s t => t.port q = s.port q) (fun _ => rfl) (fun _ _ _ hst htu => htu.trans hst)
    (fun s f => send_port_ne h s (hdr f) (body f)) fs s

end Ports

theorem SameButTraffic.ctx {s t : State} (h : SameButTraffic s t) (k : Nat) : t.ctx k = s.ctx k :=
  (congrArg (State.ctx · k) h.eq :)

theorem SameButTraffic.mem {s t : State} (h : SameButTraffic s t) : t.mem = s.mem := (congrArg State.mem h.eq :)

theorem SameButTraffic.commit {s t : State} (h : SameButTraffic s t) : t.commit = s.commit :=
  (congrArg State.commit h.eq :)

section Sends

variable {s u : State} {c : Cmd} {e : Nat}

/-! ### The credit of a send (R255) -/

/-- The credits that a send may take: those of its side. -/
def State.sendCredits (s : State) (c : Cmd) : W64 :=
  if c.sendsBack then (s.ctx (ctxOfRing c.ring)).prevCredits else (s.ctx (ctxOfRing c.ring)).nextCredits

theorem bitsSet_head {x n i : Nat} (h : (bitsSet x n).head? = some i) :
    i < n ∧ x.testBit i = true ∧ ∀ j, j < i → x.testBit j = false := by
  rw [bitsSet, List.head?_filter, List.find?_range_eq_some] at h
  obtain ⟨hbit, hrange, hlower⟩ := h
  exact ⟨List.mem_range.mp hrange, hbit, fun j hj => by simpa using hlower j hj⟩

/-- A send takes the lowest credit of its side, and only into an entry from which nothing holds it. -/
theorem sendCredit_lowest (h : s.sendCredit c = some e) : s.sendHeld c e = false ∧ e < 64 ∧
    (s.sendCredits c).toNat.testBit e = true ∧ ∀ j, j < e → (s.sendCredits c).toNat.testBit j = false := by
  unfold State.sendCredit at h
  extract_lets x w older at h
  split at h
  · cases h
  · obtain ⟨hhead, hfree⟩ := Option.filter_eq_some_iff.mp h
    exact ⟨by simpa using hfree, bitsSet_head hhead⟩

/-- A context with its credits toward one side changed. -/
def Ctx.credited (x : Ctx) (toPrev : Bool) (f : W64 → W64) : Ctx :=
  if toPrev then { x with prevCredits := f x.prevCredits } else { x with nextCredits := f x.nextCredits }

theorem modCredits_ctx (s : State) (k : Nat) (toPrev : Bool) (f : W64 → W64) :
    (s.modCredits k toPrev f).ctx k = (s.ctx k).credited toPrev f := modCtx_ctx ..

theorem modCredits_ctx_ne (s : State) {k n : Nat} (toPrev : Bool) (f : W64 → W64) (h : n ≠ k) :
    (s.modCredits k toPrev f).ctx n = s.ctx n := modCtx_ctx_ne _ _ _ _ h

/-! ### The transfer (R255, R259, R315) -/

/-- The credit of an entry is taken, and the command keeps the entry and the Tidemark at which it took it. -/
def State.claim (s : State) (c : Cmd) (e : Nat) (spec : Bool) (step : W32) : State :=
  (s.modCredits (ctxOfRing c.ring) c.sendsBack (fun w => withBit w e false)).modCmd c.ref
    (fun d => { d with aux := [b2n spec, step.toNat, e, s.tide] })

theorem claim_ctx (s : State) (c : Cmd) (e : Nat) (spec : Bool) (step : W32) (k : Nat) : (s.claim c e spec step).ctx k =
    (s.modCredits (ctxOfRing c.ring) c.sendsBack (fun w => withBit w e false)).ctx k := rfl

section Transfer

variable {kind port peer room : Nat} {m : W16} {spec : Bool} {step : W32}
  (hside : sendSide (s.ctxItem (ctxOfRing c.ring)) c.sendsBack = (kind, port, m, peer, room))
  (haux : c.aux = [b2n spec, step.toNat])

include hside haux

/-- A transfer claims its entry; into a local peer it lands its frames and ends, over a causeway it sends them and
waits for the peer's receiver. -/
theorem transfer_eq : s.transfer c e = if kind = 2 then
      ((sendFrames s c e spec step).foldl (fun st f => st.arriveData peer f.2 f.1) (s.claim c e spec step)).endSend
        { c with aux := [b2n spec, step.toNat, e, s.tide] }
    else ((s.claim c e spec step).setWait c.ref .peer none).sendAll port
      (fun f => { poison := f.1, srcCtx := ctxOfRing c.ring, dstCtx := peer, dstModule := m }) (fun f => .data f.2)
      (sendFrames s c e spec step) := by
  have hspec : (b2n spec == 1) = spec := by cases spec <;> rfl
  have hstep : BitVec.ofNat 32 step.toNat = step := by simp
  unfold State.transfer
  simp only [hside, haux, hspec, hstep]
  rfl

/-- Over a causeway a transfer takes its credit, and changes the ports only where its frames leave. -/
theorem transfer_of_causeway (hkind : kind = 1) :
    (s.transfer c e).ctx (ctxOfRing c.ring) =
      (s.ctx (ctxOfRing c.ring)).credited c.sendsBack (fun w => withBit w e false) ∧
    (∀ k, k ≠ ctxOfRing c.ring → (s.transfer c e).ctx k = s.ctx k) ∧
    (∀ p, p ≠ port → (s.transfer c e).port p = s.port p) ∧ (s.transfer c e).mem = s.mem ∧
    (s.transfer c e).commit = s.commit := by
  rw [transfer_eq hside haux, if_neg (by simp [hkind])]
  have hsent := sameButTraffic_sendAll (p := port) ((s.claim c e spec step).setWait c.ref .peer none)
    (fun f => { poison := f.1, srcCtx := ctxOfRing c.ring, dstCtx := peer, dstModule := m })
    (fun f => .data f.2) (sendFrames s c e spec step)
  refine ⟨?_, fun k hk => ?_, fun p hp => sendAll_port_ne _ _ _ _ hp, hsent.mem, hsent.commit⟩
  · rw [hsent.ctx, ← modCredits_ctx]
    exact claim_ctx s c e spec step _
  · rw [hsent.ctx, ← modCredits_ctx_ne s c.sendsBack (fun w => withBit w e false) hk]
    exact claim_ctx s c e spec step k

end Transfer

theorem trySend_of_none (h : s.sendCredit c = none) : s.trySend c true = s.setWait c.ref .credit c.deadline := by
  rw [State.trySend, h]
  rfl

theorem trySend_of_some (h : s.sendCredit c = some e) (first : Bool) : s.trySend c first = s.transfer c e := by
  rw [State.trySend, h]

/-! ### The start of a send (R253, R260, R389, R391) -/

/-- A send knows whether what it sends is speculative, its step, and when it times out. -/
def Cmd.sending (c : Cmd) (spec : Bool) (step : W32) (tide : Nat) : Cmd := { c with
  aux := [b2n spec, step.toNat]
  deadline := if c.param 0x14 4 = 0 then none else some (tide + 1000 * c.param 0x14 4) }

/-- What a send carries is speculative (R262). -/
def State.sendSpec (s : State) (c : Cmd) : Bool :=
  s.mbSpec (s.mb (ctxOfRing c.ring) (c.param 0 1)) ||
    (c.sendsBack && (s.mb (ctxOfRing c.ring) (c.param 0 1)).bwdSpec.isSome)

theorem startSend_of_alone (before : State) (h : (sendSide (s.ctxItem (ctxOfRing c.ring)) c.sendsBack).1 = 0) :
    s.startSend before c = .next (s.complete c .badParam 0 []) := if_pos h

/-- A send that passes its checks, of a micro-batch that may send. -/
theorem startSend_of_sendable (before : State)
    (hkind : (sendSide (s.ctxItem (ctxOfRing c.ring)) c.sendsBack).1 ≠ 0)
    (hchecks : lowestFail (sendChecks s c) = none)
    (hsendable : (s.mb (ctxOfRing c.ring) (c.param 0 1)).sendable c.sendsBack = true) : s.startSend before c =
      if (s.ctx (ctxOfRing c.ring)).mismatch c.sendsBack then .next (s.complete c .faulted 0 [])
      else if s.dieRefuses (c.param 1 1) || (sendSegments s c).any (fun g => !s.keyServed g.1) then
        .next (s.complete c .faulted 0 [])
      else if s.dieWaits (c.param 1 1) then .next before
      else .next ((s.modCmd c.ref (fun d => { d with aux := [b2n (s.sendSpec c), s.commit.stepNumber.toNat] })).trySend
        (c.sending (s.sendSpec c) s.commit.stepNumber s.tide) true) := by
  refine (if_neg hkind).trans ?_
  rw [hchecks]
  dsimp only
  rw [hsendable]
  rfl

end Sends

section Rows

variable {s u : State} {c : Cmd} {dt : Nat} {r : Fin 17}

theorem exec_sendAct (dt : Nat) (r : Fin 17) (s : State) : exec (.sendAct dt r) s = execSendAct dt r s := rfl

theorem exec_sendGrad (dt : Nat) (r : Fin 17) (s : State) : exec (.sendGrad dt r) s = execSendGrad dt r s := rfl

theorem exec_sendCreditTake (dt : Nat) (r : Fin 17) (seq : W16) (s : State) :
    exec (.sendCreditTake dt r seq) s = execSendCreditTake dt r seq s := rfl

theorem exec_sendTimeout (dt : Nat) (r : Fin 17) (seq : W16) (s : State) :
    exec (.sendTimeout dt r seq) s = execSendTimeout dt r seq s := rfl

/-- Both sends start alike. -/
theorem send_of_start {i : Instr} {op : Nat}
    (hi : (i = .sendAct dt r ∧ op = 0x21) ∨ (i = .sendGrad dt r ∧ op = 0x22)) (hstart : Starts s dt r op c u) :
    exec i s = u.startSend (s.advance dt) c := by
  rcases hi with ⟨rfl, rfl⟩ | ⟨rfl, rfl⟩
  · rw [exec_sendAct, execSendAct]
    simp only [hstart.take]
  · rw [exec_sendGrad, execSendGrad]
    simp only [hstart.take]

section Waiting

variable {seq : W16} (hfind : s.findWait r seq .credit = some c)

include hfind

theorem sendCreditTake_of_credit {e : Nat} (hcredit : (s.advance dt).sendCredit c = some e)
    (htime : (s.advance dt).past c.deadline = false) :
    exec (.sendCreditTake dt r seq) s = .next ((s.advance dt).transfer c e) := by
  have hfind' : (s.advance dt).findWait r seq .credit = some c := hfind
  rw [exec_sendCreditTake, execSendCreditTake]
  simp only [hfind', htime, Bool.false_eq_true, if_false, trySend_of_some hcredit]

/-- No credit came up to the deadline: one that comes later is not taken. -/
theorem sendTimeout_of_late {d : Nat} (hdeadline : c.deadline = some d) (hdue : d ≤ (s.advance dt).tide)
    (hnone : (s.advance dt).sendCredit c = none ∨ d < (s.advance dt).tide) :
    exec (.sendTimeout dt r seq) s = .next ((s.advance dt).complete c .timeout 0 []) := by
  have hfind' : (s.advance dt).findWait r seq .credit = some c := hfind
  have hreached : (s.advance dt).due c.deadline = true := by rw [State.due, hdeadline]; exact decide_eq_true hdue
  have hlost : (if (s.advance dt).past c.deadline then none else (s.advance dt).sendCredit c) = none := by
    rcases hnone with hnone | hlate
    · rw [hnone, ite_self]
    · have hpast : (s.advance dt).past c.deadline = true := by rw [hdeadline]; exact decide_eq_true hlate
      rw [hpast, if_pos rfl]
  rw [exec_sendTimeout, execSendTimeout]
  simp only [hfind', hreached, Bool.not_true, Bool.false_eq_true, if_false, hlost]

end Waiting

end Rows

/-- Settles O36: both sends start alike, and each outcome of their start is one branch; a transfer claims its entry, and
then lands its frames or sends them through its port. -/
theorem sendsTakeCredits : Obligations.SendsTakeCredits := by
  rintro dt r s u c k m rfl rfl
  refine ⟨fun i op kind port peerModule peer room hi hstart hside => ⟨fun hkind => ?_, fun hkind hchecks hsendable => ?_⟩,
    fun e hcredit => ?_, fun seq hfind => ⟨fun e hcredit htime => sendCreditTake_of_credit hfind hcredit htime,
      fun d hdeadline hdue hnone => sendTimeout_of_late hfind hdeadline hdue hnone⟩⟩
  · rw [send_of_start hi hstart, startSend_of_alone _ (by rw [hside, hkind])]
  · have hexec := (send_of_start hi hstart).trans
      (startSend_of_sendable (s.advance dt) (by rw [hside]; exact hkind) hchecks hsendable)
    refine ⟨fun hmismatch => by rw [hexec, if_pos hmismatch], fun hmatch hrefused => ?_,
      fun hmatch hserves hserved => ⟨fun hwaits => ?_, ?_⟩⟩
    · rw [hexec, hmatch, if_neg Bool.false_ne_true, if_pos (by simpa using hrefused)]
    · rw [hexec, hmatch, if_neg Bool.false_ne_true, if_neg (by simpa [hserves] using hserved), if_pos hwaits]
    · intro spec v c1 hfree hspec hc1 hv
      replace hexec : exec i s = .next (v.trySend c1 true) := by
        rw [hexec, hmatch, if_neg Bool.false_ne_true, if_neg (by simpa [hserves] using hserved), hfree,
          if_neg Bool.false_ne_true, hv, hc1, hspec]
        rfl
      have hsent : c1.ref = c.ref ∧ c1.ring = c.ring ∧ c1.sendsBack = c.sendsBack ∧
          c1.aux = [b2n spec, u.commit.stepNumber.toNat] := by
        rw [hc1]
        exact ⟨rfl, rfl, rfl, rfl⟩
      obtain ⟨href, hring, hback, haux⟩ := hsent
      have hside' : sendSide (v.ctxItem (ctxOfRing c1.ring)) c1.sendsBack = (kind, port, peerModule, peer, room) := by
        rw [hring, hback, hv]
        exact hside
      refine ⟨fun hnone => hexec.trans (congrArg _ (href ▸ trySend_of_none hnone)), fun e hsome =>
        ⟨(sendCredit_lowest hsome).2.1, hexec.trans (congrArg _ (trySend_of_some hsome true)), fun hone => ?_, fun htwo => ?_⟩⟩
      · obtain ⟨hctx, hothers, hports, hmem, hcommit⟩ := transfer_of_causeway (e := e) hside' haux hone
        have hstarted (k : Nat) : v.ctx k = s.ctx k := by
          rw [hv]
          exact hstart.ctx k
        have hkept : v.mem = s.mem ∧ v.commit = s.commit ∧ ∀ p, v.port p = s.port p := by
          rw [hv, hstart.frame]
          exact ⟨rfl, rfl, fun _ => rfl⟩
        obtain ⟨hmem', hcommit', hports'⟩ := hkept
        rw [hring, hback, hstarted] at hctx
        refine ⟨_, rfl, fun hfwd => ?_, fun hbwd => ?_, fun k hk => ?_, fun p hp => (hports p hp).trans (hports' p),
          hmem.trans hmem', hcommit.trans hcommit'⟩
        · rw [hctx, hfwd]
          rfl
        · rw [hctx, hbwd]
          rfl
        · rw [hothers k (hring ▸ hk), hstarted]
      · rw [transfer_eq hside' haux, if_pos htwo, State.claim, hring, hback, hc1]
        rfl
  · obtain ⟨hfree, -, hset, hlower⟩ := sendCredit_lowest hcredit
    refine ⟨hfree, fun hside => ?_, fun hside => ?_⟩
    · rw [State.sendCredits, hside] at hset hlower
      exact ⟨hset, hlower⟩
    · rw [State.sendCredits, hside] at hset hlower
      exact ⟨hset, hlower⟩

end Sys2Proof.Machine
end

section
/-! PROOF. The sluices of a stage context (chapter 12): what a change of one, a credit that returns and an entry that is
discarded leave of the contexts and of the rest. -/

namespace Sys2Proof.Machine

section Sluices

variable {α : Type} {s t : State} {k e : Nat} {bwd : Bool}

/-! ### A context after a change of its sluice -/

/-- A context with one of its sluices given. -/
def Ctx.withSluice (x : Ctx) (bwd : Bool) (t : Tab Entry) : Ctx := if bwd then { x with bwd := t } else { x with fwd := t }

/-- A context that has counted a discarded entry. -/
def Ctx.countDiscard (x : Ctx) (bwd : Bool) : Ctx :=
  if bwd then { x with bwdDiscarded := satAdd 32 x.bwdDiscarded 1 }
  else { x with fwdDiscarded := satAdd 32 x.fwdDiscarded 1 }

/-- What of a context the traffic of one of its sluices leaves alone. -/
structure Aside (bwd : Bool) (π : Ctx → α) : Prop where
  credits : ∀ x toPrev f, π (Ctx.credited x toPrev f) = π x
  count : ∀ x, π (Ctx.countDiscard x bwd) = π x
  sluice : ∀ x t, π (Ctx.withSluice x bwd t) = π x

theorem credited_sluice (x : Ctx) (toPrev : Bool) (f : W64 → W64) (b : Bool) :
    (x.credited toPrev f).sluice b = x.sluice b := by
  cases toPrev <;> cases b <;> rfl

theorem countDiscard_sluice (x : Ctx) (bwd b : Bool) : (x.countDiscard bwd).sluice b = x.sluice b := by
  cases bwd <;> cases b <;> rfl

theorem withSluice_sluice (x : Ctx) (bwd : Bool) (t : Tab Entry) : (x.withSluice bwd t).sluice bwd = t := by
  cases bwd <;> rfl

theorem withSluice_sluice_ne (x : Ctx) (t : Tab Entry) {b : Bool} (h : b ≠ bwd) :
    (x.withSluice bwd t).sluice b = x.sluice b := by
  cases bwd <;> cases b <;> simp_all [Ctx.withSluice, Ctx.sluice]

theorem aside_sluice {b : Bool} (h : b ≠ bwd) : Aside bwd (Ctx.sluice · b) :=
  ⟨fun x toPrev f => credited_sluice x toPrev f b, fun x => countDiscard_sluice x bwd b,
    fun x t => withSluice_sluice_ne x t h⟩

theorem aside_mbs : Aside bwd Ctx.mbs :=
  ⟨fun _ toPrev _ => by cases toPrev <;> rfl, fun _ => by cases bwd <;> rfl, fun _ _ => by cases bwd <;> rfl⟩

theorem aside_drops : Aside bwd Ctx.drops :=
  ⟨fun _ toPrev _ => by cases toPrev <;> rfl, fun _ => by cases bwd <;> rfl, fun _ _ => by cases bwd <;> rfl⟩

theorem modSluice_eq (s : State) (k : Nat) (bwd : Bool) (f : Tab Entry → Tab Entry) :
    s.modSluice k bwd f = s.modCtx k (fun x => x.withSluice bwd (f (x.sluice bwd))) := by
  cases bwd <;> rfl

theorem modCredits_eq (s : State) (k : Nat) (toPrev : Bool) (f : W64 → W64) :
    s.modCredits k toPrev f = s.modCtx k (·.credited toPrev f) := rfl

theorem entry_congr {b : Bool} (h : (t.ctx k).sluice b = (s.ctx k).sluice b) (i : Nat) : t.entry k b i = s.entry k b i := by
  rw [State.entry, h, State.entry]

/-! ### Entries (R254) -/

theorem modSluice_entry (s : State) (k : Nat) (bwd : Bool) (f : Tab Entry → Tab Entry) (i : Nat) :
    (s.modSluice k bwd f).entry k bwd i = tabGet {} (f ((s.ctx k).sluice bwd)) i := by
  rw [State.entry, modSluice_eq, modCtx_ctx, withSluice_sluice]

theorem modEntry_entry (s : State) (k : Nat) (bwd : Bool) (e : Nat) (f : Entry → Entry) :
    (s.modEntry k bwd e f).entry k bwd e = f (s.entry k bwd e) :=
  (modSluice_entry ..).trans (tabGet_tabMod_same ..)

theorem modEntry_entry_ne (s : State) (k : Nat) (bwd : Bool) {e i : Nat} (f : Entry → Entry) (h : i ≠ e) :
    (s.modEntry k bwd e f).entry k bwd i = s.entry k bwd i :=
  (modSluice_entry ..).trans (tabGet_tabMod_ne _ _ _ _ _ h)

theorem modEntry_ctx_ne (s : State) {k n : Nat} (bwd : Bool) (e : Nat) (f : Entry → Entry) (h : n ≠ k) :
    (s.modEntry k bwd e f).ctx n = s.ctx n := modCtx_ctx_ne _ _ _ _ h

theorem modEntry_keeps {π : Ctx → α} (hπ : Aside bwd π) (s : State) (k e : Nat) (f : Entry → Entry) (n : Nat) :
    π ((s.modEntry k bwd e f).ctx n) = π (s.ctx n) := by
  rw [State.modEntry, modSluice_eq]
  exact modCtx_keeps π (fun x => hπ.sluice x _) s k n

/-! ### Credits that return, and entries that are emptied and discarded (R250, R255) -/

theorem tabGet_tabDel_same (d : α) (t : Tab α) (n : Nat) : tabGet d (tabDel t n) n = d := by
  induction t with
  | nil => rfl
  | cons e t ih =>
    rw [tabDel, List.filter_cons]
    split
    · next h => exact (if_neg (by simpa using h)).trans ih
    · exact ih

theorem tabGet_tabDel_ne (d : α) (t : Tab α) {n m : Nat} (h : m ≠ n) : tabGet d (tabDel t n) m = tabGet d t m :=
  tabGet_filter_of_kept (by simpa using h)

/-- What no credit of a context touches, a credit that returns leaves. -/
theorem returnCredit_keeps {π : Ctx → α} (hπ : ∀ x toPrev f, π (Ctx.credited x toPrev f) = π x) (s : State) (k : Nat)
    (bwd : Bool) (e n : Nat) : π ((s.returnCredit k bwd e).ctx n) = π (s.ctx n) := by
  unfold State.returnCredit
  split
  split
  · exact modCtx_keeps π (fun x => hπ x bwd (fun w => withBit w e true)) s _ n
  · split
    · rw [(sameButTraffic_send ..).ctx]
    · rfl

theorem returnCredit_entry (s : State) (k : Nat) (bwd : Bool) (e n : Nat) (b : Bool) (i : Nat) :
    (s.returnCredit k bwd e).entry n b i = s.entry n b i :=
  entry_congr (returnCredit_keeps (π := (Ctx.sluice · b)) (fun x toPrev f => credited_sluice x toPrev f b) s k bwd e n) i

/-- To a sender on a causeway a credit returns by a frame, which no context shows. -/
theorem returnCredit_ctx (h : ((s.ctxItem k).sender bwd).1 = 1) (e n : Nat) :
    (s.returnCredit k bwd e).ctx n = s.ctx n := by
  unfold State.returnCredit
  split
  next heq =>
  rw [heq] at h
  replace h : _ = 1 := h
  rw [if_neg (by omega), if_pos h, (sameButTraffic_send ..).ctx]

theorem emptyEntry_entry (s : State) (k : Nat) (bwd : Bool) (e : Nat) : (s.emptyEntry k bwd e).entry k bwd e = {} :=
  (returnCredit_entry ..).trans ((modSluice_entry ..).trans (tabGet_tabDel_same ..))

theorem emptyEntry_entry_ne (s : State) (k : Nat) (bwd : Bool) {e i : Nat} (h : i ≠ e) :
    (s.emptyEntry k bwd e).entry k bwd i = s.entry k bwd i :=
  (returnCredit_entry ..).trans ((modSluice_entry ..).trans (tabGet_tabDel_ne _ _ h))

theorem emptyEntry_keeps {π : Ctx → α} (hπ : Aside bwd π) (s : State) (k e n : Nat) :
    π ((s.emptyEntry k bwd e).ctx n) = π (s.ctx n) := by
  refine (returnCredit_keeps hπ.credits ..).trans ?_
  rw [modSluice_eq]
  exact modCtx_keeps π (fun x => hπ.sluice x _) s k n

/-- The discard of an entry is counted first. -/
theorem discardEntry_eq (s : State) (k : Nat) (bwd : Bool) (e : Nat) :
    s.discardEntry k bwd e = (s.modCtx k (·.countDiscard bwd)).emptyEntry k bwd e := rfl

theorem discardEntry_entry (s : State) (k : Nat) (bwd : Bool) (e : Nat) : (s.discardEntry k bwd e).entry k bwd e = {} :=
  emptyEntry_entry ..

theorem discardEntry_entry_ne (s : State) (k : Nat) (bwd : Bool) {e i : Nat} (h : i ≠ e) :
    (s.discardEntry k bwd e).entry k bwd i = s.entry k bwd i := by
  refine (emptyEntry_entry_ne _ k bwd h).trans (entry_congr ?_ i)
  exact modCtx_keeps (Ctx.sluice · bwd) (fun x => countDiscard_sluice x bwd bwd) s k k

theorem discardEntry_keeps {π : Ctx → α} (hπ : Aside bwd π) (s : State) (k e n : Nat) :
    π ((s.discardEntry k bwd e).ctx n) = π (s.ctx n) :=
  (emptyEntry_keeps hπ ..).trans (modCtx_keeps π hπ.count s k n)

theorem discardEntry_ctx_ne (h : ((s.ctxItem k).sender bwd).1 = 1) (e : Nat) {n : Nat} (hn : n ≠ k) :
    (s.discardEntry k bwd e).ctx n = s.ctx n :=
  (returnCredit_ctx (s := (s.modCtx k (·.countDiscard bwd)).modSluice k bwd (fun t => tabDel t e)) h e n).trans
    ((modCtx_ctx_ne _ _ _ _ hn).trans (modCtx_ctx_ne _ _ _ _ hn))

/-! ### What the traffic of a sluice changes besides -/

/-- A relation of states that a change of a context, a frame that leaves and a record of the log keep. -/
structure AcrossSluices (R : State → State → Prop) : Prop where
  rfl : ∀ s, R s s
  trans : ∀ s t u, R s t → R t u → R s u
  modCtx : ∀ s k f, R s (State.modCtx s k f)
  send : ∀ s p hdr body, R s (State.send s p hdr body)
  logRec : ∀ s src code sev a0 a1 a2, R s (State.logRec s src code sev a0 a1 a2)

namespace AcrossSluices

variable {R : State → State → Prop} (hR : AcrossSluices R)

include hR

theorem returnCredit (s : State) (k : Nat) (bwd : Bool) (e : Nat) : R s (s.returnCredit k bwd e) := by
  unfold State.returnCredit
  split
  split
  · exact hR.modCtx ..
  · split
    · exact hR.send ..
    · exact hR.rfl _

theorem emptyEntry (s : State) (k : Nat) (bwd : Bool) (e : Nat) : R s (s.emptyEntry k bwd e) :=
  hR.trans _ _ _ (hR.modCtx ..) (hR.returnCredit ..)

theorem discardEntry (s : State) (k : Nat) (bwd : Bool) (e : Nat) : R s (s.discardEntry k bwd e) :=
  hR.trans _ _ _ (hR.modCtx ..) (hR.emptyEntry ..)

theorem modEntry (s : State) (k : Nat) (bwd : Bool) (e : Nat) (f : Entry → Entry) : R s (s.modEntry k bwd e f) :=
  hR.modCtx ..

end AcrossSluices

/-- Two states that differ at most in the contexts, in the ports and in reports. -/
def SameButStage (s t : State) : Prop := t = { s with
  ctxs := t.ctxs, ports := t.ports, dma := t.dma, host := t.host, log := t.log
  power := { s.power with faultLow := t.power.faultLow }, mgmt := { s.mgmt with events := t.mgmt.events } }

theorem SameButStage.eq (h : SameButStage s t) : t = { s with
    ctxs := t.ctxs, ports := t.ports, dma := t.dma, host := t.host, log := t.log
    power := { s.power with faultLow := t.power.faultLow }, mgmt := { s.mgmt with events := t.mgmt.events } } := h

theorem SameButTraffic.stage (h : SameButTraffic s t) : SameButStage s t := by
  rw [SameButTraffic] at h; rw [h]; exact Eq.refl _

theorem SameButStage.trans {u : State} (hst : SameButStage s t) (htu : SameButStage t u) : SameButStage s u :=
  Eq.trans htu (congrArg (fun x : State => { x with
    ctxs := u.ctxs, ports := u.ports, dma := u.dma, host := u.host, log := u.log
    power := { x.power with faultLow := u.power.faultLow }, mgmt := { x.mgmt with events := u.mgmt.events } }) hst)

theorem sameButStage_across : AcrossSluices SameButStage :=
  ⟨fun s => Eq.refl s, fun _ _ _ => .trans, fun _ _ _ => Eq.refl _, fun _ _ _ _ => (sameButTraffic_send ..).stage,
    fun _ _ _ _ _ _ _ => (sameButReports_logRec ..).traffic.stage⟩

theorem SameButStage.keeps (h : SameButStage s t) : t.mem = s.mem ∧ t.poison = s.poison ∧ t.conf = s.conf ∧
    t.pkg = s.pkg ∧ t.farStacks = s.farStacks :=
  ⟨(congrArg State.mem h.eq :), (congrArg State.poison h.eq :), (congrArg State.conf h.eq :),
    (congrArg State.pkg h.eq :), (congrArg State.farStacks h.eq :)⟩

/-- Frames received are counted as they arrive alone. -/
def SameReceived (s t : State) : Prop := ∀ q, (t.port q).framesRx = (s.port q).framesRx

theorem sameReceived_modPort (s : State) (p : Nat) (f : Port → Port) (hf : ∀ x, (f x).framesRx = x.framesRx) :
    SameReceived s (s.modPort p f) := by
  intro q
  by_cases h : q = p
  · rw [h, modPort_port, hf]
  · rw [modPort_port_ne _ _ _ _ h]

theorem sameReceived_pumpN (s : State) (p fuel : Nat) : SameReceived s (s.pumpN p fuel) := by
  induction fuel generalizing s with
  | zero => exact fun _ => rfl
  | succ fuel ih =>
    rw [State.pumpN]
    dsimp only
    split
    · exact fun _ => rfl
    · rename_i f rest _
      split
      · intro q
        rw [ih, (sameButReports_absorb ..).port]
        exact sameReceived_modPort s p (·.leave (stampFrame f s.tide) rest) (fun _ => rfl) q
      · exact fun _ => rfl

theorem sameReceived_queued (s : State) (p : Nat) (hdr : FrameHdr) (body : FrameBody) :
    SameReceived s (s.queued p hdr body) := sameReceived_modPort _ _ _ (fun _ => rfl)

theorem sameReceived_across : AcrossSluices SameReceived :=
  ⟨fun _ _ => rfl, fun _ _ _ hst htu q => (htu q).trans (hst q), fun _ _ _ _ => rfl,
    fun s p hdr body q => (sameReceived_pumpN _ p _ q).trans (sameReceived_queued s p hdr body q),
    fun _ _ _ _ _ _ _ q => congrArg Port.framesRx ((sameButReports_logRec ..).port q)⟩

end Sluices

end Sys2Proof.Machine
end

section
/-! PROOF. DATA, CREDIT and CHECKPOINT frames (chapters 12 and 14). -/

namespace Sys2Proof.Machine

/-! ### Memory that a payload lands in (R222, R314) -/

section Landing

variable {s : State}

theorem mem_foldl_poisonAdd {us vs : List Nat} {v : Nat} : v ∈ us.foldl poisonAdd vs ↔ v ∈ us ∨ v ∈ vs := by
  induction us generalizing vs with
  | nil => simp
  | cons u us ih => rw [List.foldl_cons, ih, mem_poisonAdd, List.mem_cons]; tauto

/-- Where no channel has failed, every byte is written. -/
theorem writeBytes_of_sound (m : List Host.Cell) (a : Nat) (bs : List Byte)
    (h : ∀ i, i < bs.length → s.farFailed (a + i) = false) : s.writeBytes m a bs = memWriteBytes m a bs := by
  induction bs generalizing m a with
  | nil => rfl
  | cons b bs ih =>
    have hfirst : s.farFailed a = false := h 0 (by simp)
    rw [State.writeBytes, State.writeByte, hfirst, if_neg Bool.false_ne_true, memWriteBytes]
    refine ih _ _ (fun i hi => ?_)
    rw [Nat.add_right_comm]
    exact h (i + 1) (by simpa using hi)

theorem read_write (hinv : s.Inv) (a : Nat) (bs : List Byte)
    (h : ∀ i, i < bs.length → s.farFailed (a + i) = false) : (s.write a bs).read a bs.length = bs :=
  (congrArg (memReadBytes · a bs.length) (writeBytes_of_sound s.mem a bs h)).trans
    (memReadBytes_memWriteBytes a bs hinv.1)

theorem landPayload_frame (s : State) (key : Nat) (bs : List Byte) (poison : Bool) : s.landPayload key bs poison =
    { s with mem := (s.write key bs).mem, poison := (s.landPayload key bs poison).poison } := by
  unfold State.landPayload
  dsimp only
  split <;> rfl

theorem landPayload_poison (key : Nat) (bs : List Byte) {x : Nat} (h : x ∈ frameUnits key bs.length) :
    x ∈ (s.landPayload key bs true).poison := mem_foldl_poisonAdd.mpr (.inl h)

theorem write_mem_congr {t : State} (hmem : t.mem = s.mem) (hpkg : t.pkg = s.pkg) (hfar : t.farStacks = s.farStacks)
    (a : Nat) (bs : List Byte) : (t.write a bs).mem = (s.write a bs).mem := by
  rw [State.write, State.write, hmem, writeBytes_congr s (farFailed_congr s hpkg hfar)]

end Landing

/-! ### Sends that were aborted (log 27) -/

section Stalled

variable {s : State} {k e i : Nat} {bwd : Bool}

theorem tabGet_mem {α : Type} {d : α} {t : Tab α} {n : Nat} (h : tabGet d t n ≠ d) : (n, tabGet d t n) ∈ t := by
  induction t with
  | nil => exact absurd rfl h
  | cons x t ih =>
    obtain ⟨k, v⟩ := x
    by_cases hk : k = n
    · subst hk
      rw [tabGet, if_pos rfl]
      exact List.mem_cons_self
    · have hrest : tabGet d ((k, v) :: t) n = tabGet d t n := if_neg hk
      rw [hrest] at h ⊢
      exact List.mem_cons_of_mem _ (ih h)

theorem mem_entriesWhere {p : Entry → Bool} (hempty : p {} = false) (h : p (s.entry k bwd i) = true) :
    i ∈ s.entriesWhere k bwd p := by
  have hlisted : (i, s.entry k bwd i) ∈ (s.ctx k).sluice bwd :=
    tabGet_mem (fun heq => Bool.false_ne_true (hempty.symm.trans ((congrArg p heq).symm.trans h)))
  exact List.mem_map.mpr ⟨_, List.mem_filter.mpr ⟨hlisted, h⟩, rfl⟩

/-- Of these entries, every one but `e` is discarded. -/
def State.discardOthers (s : State) (k : Nat) (bwd : Bool) (e : Nat) (is : List Nat) : State :=
  is.foldl (fun st i => if i = e then st else st.discardEntry k bwd i) s

theorem dropStalled_eq (s : State) (k : Nat) (f : DataF) : s.dropStalled k f =
    s.discardOthers k f.bwd f.entry (s.entriesWhere k f.bwd (fun x => x.state == .arriving)) := rfl

variable (is : List Nat)

/-- What a discard keeps, the discard of several keeps. -/
theorem discardOthers_keeps {R : State → State → Prop} (hrfl : ∀ s, R s s) (htrans : ∀ s t u, R s t → R t u → R s u)
    (hR : ∀ s i, i ≠ e → R s (s.discardEntry k bwd i)) (s : State) : R s (s.discardOthers k bwd e is) := by
  refine foldl_keeps hrfl htrans (fun s i => ?_) is s
  split
  · exact hrfl s
  · next h => exact hR s i h

theorem discardOthers_across {R : State → State → Prop} (hR : AcrossSluices R) (s : State) :
    R s (s.discardOthers k bwd e is) :=
  discardOthers_keeps is hR.rfl hR.trans (fun s i _ => hR.discardEntry s k bwd i) s

theorem discardOthers_entry (s : State) : (s.discardOthers k bwd e is).entry k bwd e = s.entry k bwd e :=
  discardOthers_keeps (R := fun s t => t.entry k bwd e = s.entry k bwd e) is (fun _ => rfl)
    (fun _ _ _ hst htu => htu.trans hst) (fun s _ hi => discardEntry_entry_ne s k bwd (Ne.symm hi)) s

theorem discardOthers_entry_of_empty (h : s.entry k bwd i = {}) : (s.discardOthers k bwd e is).entry k bwd i = {} := by
  refine discardOthers_keeps (R := fun s t => s.entry k bwd i = {} → t.entry k bwd i = {}) is (fun _ => id)
    (fun _ _ _ hst htu => htu ∘ hst) (fun s j _ hs => ?_) s h
  by_cases hj : i = j
  · rw [hj, discardEntry_entry]
  · rw [discardEntry_entry_ne _ _ _ hj, hs]

theorem discardOthers_entry_of_mem {is : List Nat} (h : i ∈ is) (hi : i ≠ e) :
    (s.discardOthers k bwd e is).entry k bwd i = {} := by
  induction is generalizing s with
  | nil => exact absurd h List.not_mem_nil
  | cons j is ih =>
    rcases List.mem_cons.mp h with rfl | hrest
    · refine discardOthers_entry_of_empty is (s := if i = e then s else s.discardEntry k bwd i) ?_
      rw [if_neg hi, discardEntry_entry]
    · exact ih hrest

theorem dropStalled_entry_of_arriving {f : DataF} (h : (s.entry k f.bwd i).state = .arriving) (hi : i ≠ f.entry) :
    (s.dropStalled k f).entry k f.bwd i = {} :=
  discardOthers_entry_of_mem (mem_entriesWhere rfl (beq_iff_eq.mpr h)) hi

/-- Entries of a sluice that a causeway fills are discarded without a trace in another context. -/
theorem discardOthers_ctx_ne (h : ((s.ctxItem k).sender bwd).1 = 1) {n : Nat} (hn : n ≠ k) :
    (s.discardOthers k bwd e is).ctx n = s.ctx n := by
  refine (discardOthers_keeps (e := e) (k := k) (bwd := bwd)
    (R := fun s t => ((s.ctxItem k).sender bwd).1 = 1 → ((t.ctxItem k).sender bwd).1 = 1 ∧ t.ctx n = s.ctx n) is
    (fun _ hs => ⟨hs, rfl⟩) (fun _ _ _ hst htu hs => ?_) (fun s i _ hs => ⟨?_, discardEntry_ctx_ne hs i hn⟩) s h).2
  · obtain ⟨ht, hctx⟩ := hst hs
    exact ⟨(htu ht).1, (htu ht).2.trans hctx⟩
  · rw [State.ctxItem, (sameButStage_across.discardEntry s k bwd i).keeps.2.2.1]
    exact hs

end Stalled

/-! ### Arrivals (R254, R315) -/

section Arrivals

variable {s : State} {k e : Nat} {bwd : Bool}

/-- An entry into which a frame has come. -/
def Entry.arrived (x : Entry) (f : DataF) (poison : Bool) : Entry := { x with
  state := .arriving
  tag := f.tag
  spec := f.spec
  specStep := f.specStep
  poison := x.poison || poison
  last := x.last || f.last
  bytes := x.bytes + f.payload.length
  total := f.totalBytes }

/-- The frame is in its entry, and its payload in memory. -/
def State.landData (s : State) (k : Nat) (f : DataF) (poison : Bool) : State :=
  (s.modEntry k f.bwd f.entry (·.arrived f poison)).landPayload
    ((s.ctxItem k).entryAddr f.bwd f.entry + f.offset) f.payload poison

theorem landData_ctx (s : State) (k : Nat) (f : DataF) (poison : Bool) (n : Nat) :
    (s.landData k f poison).ctx n = (s.modEntry k f.bwd f.entry (·.arrived f poison)).ctx n := by
  rw [State.landData, landPayload_frame]
  rfl

theorem landData_entry (s : State) (k : Nat) (f : DataF) (poison : Bool) :
    (s.landData k f poison).entry k f.bwd f.entry = (s.entry k f.bwd f.entry).arrived f poison :=
  (entry_congr (congrArg (Ctx.sluice · f.bwd) (landData_ctx s k f poison k)) _).trans (modEntry_entry ..)

theorem landData_entry_ne (s : State) (k : Nat) (f : DataF) (poison : Bool) {i : Nat} (h : i ≠ f.entry) :
    (s.landData k f poison).entry k f.bwd i = s.entry k f.bwd i :=
  (entry_congr (congrArg (Ctx.sluice · f.bwd) (landData_ctx s k f poison k)) _).trans (modEntry_entry_ne _ _ _ _ h)

theorem arriveData_eq (s : State) (k : Nat) (f : DataF) (poison : Bool) : s.arriveData k f poison =
    if ((s.entry k f.bwd f.entry).last || f.last) &&
        decide (f.totalBytes ≤ (s.entry k f.bwd f.entry).bytes + f.payload.length) then
      (s.landData k f poison).arriveEntry k f.bwd f.entry
    else s.landData k f poison := by
  have hentry := landData_entry s k f poison
  unfold State.arriveData
  extract_lets item key s1 s2 x
  have hland : s2 = s.landData k f poison := rfl
  have hx : x = (s.entry k f.bwd f.entry).arrived f poison := hentry
  rw [hx, hland]
  rfl

/-- The entry of a complete arrival, before its SPEC mark and an abort are looked at. -/
def State.readyEntry (s : State) (k : Nat) (bwd : Bool) (e : Nat) : State :=
  (s.modCtx k (fun c => { c with arrivals := c.arrivals + 1 })).modEntry k bwd e
    (fun y => { y with state := .ready, order := (s.ctx k).arrivals })

/-- A complete arrival either stays, or loses its mark, or is discarded with or without a record. -/
theorem arriveEntry_cases (s : State) (k : Nat) (bwd : Bool) (e : Nat) :
    s.arriveEntry k bwd e = s.readyEntry k bwd e ∨
    s.arriveEntry k bwd e = (s.readyEntry k bwd e).modEntry k bwd e (fun y => { y with spec := false }) ∨
    s.arriveEntry k bwd e = (s.readyEntry k bwd e).discardEntry k bwd e ∨
    s.arriveEntry k bwd e = ((s.readyEntry k bwd e).discardEntry k bwd e).logDiscards k bwd 1 := by
  unfold State.arriveEntry
  extract_lets x order s1 s2
  split
  · exact .inr (.inr (.inl rfl))
  · split
    · exact .inl rfl
    · split
      · exact .inr (.inl rfl)
      · exact .inr (.inr (.inl rfl))
      · split
        · exact .inr (.inr (.inr rfl))
        · exact .inl rfl

/-- An entry that is neither aborted nor speculative stays as it has arrived. -/
theorem arriveEntry_of_plain (hdiscard : (s.entry k bwd e).discard = false) (hspec : (s.entry k bwd e).spec = false) :
    s.arriveEntry k bwd e = s.readyEntry k bwd e := by
  unfold State.arriveEntry
  extract_lets x order s1 s2
  have hx : x.discard = false ∧ x.spec = false := ⟨hdiscard, hspec⟩
  rw [hx.1, hx.2]
  rfl

theorem readyEntry_sluice (s : State) (k n : Nat) (b : Bool) :
    ((s.modCtx k (fun c => { c with arrivals := c.arrivals + 1 })).ctx n).sluice b = (s.ctx n).sluice b :=
  modCtx_keeps (Ctx.sluice · b) (fun _ => by cases b <;> rfl) s k n

theorem readyEntry_entry (s : State) (k : Nat) (bwd : Bool) (e : Nat) : (s.readyEntry k bwd e).entry k bwd e =
    { s.entry k bwd e with state := .ready, order := (s.ctx k).arrivals } := by
  rw [State.readyEntry, modEntry_entry, entry_congr (readyEntry_sluice s k k bwd)]

theorem readyEntry_entry_ne (s : State) (k : Nat) (bwd : Bool) {e i : Nat} (h : i ≠ e) :
    (s.readyEntry k bwd e).entry k bwd i = s.entry k bwd i := by
  rw [State.readyEntry, modEntry_entry_ne _ _ _ _ h, entry_congr (readyEntry_sluice s k k bwd)]

theorem arriveEntry_across {R : State → State → Prop} (hR : AcrossSluices R) (s : State) (k : Nat) (bwd : Bool)
    (e : Nat) : R s (s.arriveEntry k bwd e) := by
  have hready : R s (s.readyEntry k bwd e) := hR.trans _ _ _ (hR.modCtx ..) (hR.modEntry ..)
  rcases arriveEntry_cases s k bwd e with h | h | h | h <;> rw [h]
  · exact hready
  · exact hR.trans _ _ _ hready (hR.modEntry ..)
  · exact hR.trans _ _ _ hready (hR.discardEntry ..)
  · exact hR.trans _ _ _ hready (hR.trans _ _ _ (hR.discardEntry ..) (hR.logRec ..))

/-- A record of discarded entries shows in no context. -/
theorem logDiscards_ctx (s : State) (k : Nat) (bwd : Bool) (m n : Nat) : (s.logDiscards k bwd m).ctx n = s.ctx n :=
  (sameButReports_logRec ..).traffic.ctx n

theorem arriveEntry_entry_ne (s : State) (k : Nat) (bwd : Bool) {e i : Nat} (h : i ≠ e) :
    (s.arriveEntry k bwd e).entry k bwd i = s.entry k bwd i := by
  have hready := readyEntry_entry_ne s k bwd h
  rcases arriveEntry_cases s k bwd e with hs | hs | hs | hs <;> rw [hs]
  · exact hready
  · exact (modEntry_entry_ne _ _ _ _ h).trans hready
  · exact (discardEntry_entry_ne _ _ _ h).trans hready
  · exact (entry_congr (congrArg (Ctx.sluice · bwd) (logDiscards_ctx ..)) i).trans
      ((discardEntry_entry_ne _ _ _ h).trans hready)

theorem arriveEntry_ctx_ne (h : ((s.ctxItem k).sender bwd).1 = 1) (e : Nat) {n : Nat} (hn : n ≠ k) :
    (s.arriveEntry k bwd e).ctx n = s.ctx n := by
  have hready : (s.readyEntry k bwd e).ctx n = s.ctx n :=
    (modEntry_ctx_ne _ _ _ _ hn).trans (modCtx_ctx_ne _ _ _ _ hn)
  have hdiscard : ((s.readyEntry k bwd e).discardEntry k bwd e).ctx n = s.ctx n :=
    (discardEntry_ctx_ne (s := s.readyEntry k bwd e) h e hn).trans hready
  rcases arriveEntry_cases s k bwd e with hs | hs | hs | hs <;> rw [hs]
  · exact hready
  · exact (modEntry_ctx_ne _ _ _ _ hn).trans hready
  · exact hdiscard
  · exact (logDiscards_ctx ..).trans hdiscard

/-! What a frame's arrival leaves, whether its entry is complete or not. -/

section Arrival

variable (s : State) (k : Nat) (f : DataF) (poison : Bool)

theorem arriveData_cases : s.arriveData k f poison = s.landData k f poison ∨
    s.arriveData k f poison = (s.landData k f poison).arriveEntry k f.bwd f.entry := by
  rw [arriveData_eq]
  split
  · exact .inr rfl
  · exact .inl rfl

theorem arriveData_stage : SameButStage (s.landData k f poison) (s.arriveData k f poison) := by
  rcases arriveData_cases s k f poison with h | h <;> rw [h]
  · exact sameButStage_across.rfl _
  · exact arriveEntry_across sameButStage_across ..

theorem arriveData_mem : (s.arriveData k f poison).mem =
    (s.write ((s.ctxItem k).entryAddr f.bwd f.entry + f.offset) f.payload).mem := by
  rw [(arriveData_stage s k f poison).keeps.1, State.landData, landPayload_frame]
  exact write_mem_congr (s := s) (t := s.modEntry k f.bwd f.entry (·.arrived f poison)) rfl rfl rfl _ _

theorem arriveData_poison {x : Nat}
    (h : x ∈ frameUnits ((s.ctxItem k).entryAddr f.bwd f.entry + f.offset) f.payload.length) :
    x ∈ (s.arriveData k f true).poison := by
  rw [(arriveData_stage s k f true).keeps.2.1]
  exact landPayload_poison (s := s.modEntry k f.bwd f.entry _) _ _ h

theorem arriveData_received : SameReceived s (s.arriveData k f poison) := by
  have hland : SameReceived s (s.landData k f poison) := by
    rw [State.landData, landPayload_frame]
    exact fun _ => rfl
  rcases arriveData_cases s k f poison with h | h <;> rw [h]
  · exact hland
  · exact sameReceived_across.trans _ _ _ hland (arriveEntry_across sameReceived_across _ _ _ _)

variable {s k f}

theorem arriveData_entry_ne {i : Nat} (h : i ≠ f.entry) :
    (s.arriveData k f poison).entry k f.bwd i = s.entry k f.bwd i := by
  have hland := landData_entry_ne s k f poison h
  rcases arriveData_cases s k f poison with hs | hs <;> rw [hs]
  · exact hland
  · exact (arriveEntry_entry_ne _ _ _ h).trans hland

theorem arriveData_ctx_ne (h : ((s.ctxItem k).sender f.bwd).1 = 1) {n : Nat} (hn : n ≠ k) :
    (s.arriveData k f poison).ctx n = s.ctx n := by
  have hland : (s.landData k f poison).ctx n = s.ctx n := (landData_ctx ..).trans (modEntry_ctx_ne _ _ _ _ hn)
  have hitem : (s.landData k f poison).ctxItem k = s.ctxItem k := by
    rw [State.landData, landPayload_frame]
    rfl
  rcases arriveData_cases s k f poison with hs | hs <;> rw [hs]
  · exact hland
  · exact (arriveEntry_ctx_ne (hitem ▸ h) _ hn).trans hland

/-- The last frame of an entry makes it READY. -/
theorem arriveData_entry_of_last (hlast : f.last = true)
    (hwhole : f.totalBytes ≤ (s.entry k f.bwd f.entry).bytes + f.payload.length) (hspec : f.spec = false)
    (hdiscard : (s.entry k f.bwd f.entry).discard = false) :
    ((s.arriveData k f poison).entry k f.bwd f.entry).state = .ready ∧
      ((s.arriveData k f poison).entry k f.bwd f.entry).tag = f.tag := by
  have hentry := landData_entry s k f poison
  rw [arriveData_eq, hlast, Bool.or_true, decide_eq_true hwhole, Bool.and_self, if_pos rfl,
    arriveEntry_of_plain (by rw [hentry]; exact hdiscard) (by rw [hentry]; exact hspec), readyEntry_entry, hentry]
  exact ⟨rfl, rfl⟩

/-- Before its last frame an entry is ARRIVING. -/
theorem arriveData_entry_of_more (hmore : f.last = false) (hlast : (s.entry k f.bwd f.entry).last = false) :
    (s.arriveData k f poison).entry k f.bwd f.entry = (s.entry k f.bwd f.entry).arrived f poison := by
  rw [arriveData_eq, hmore, hlast, Bool.or_self, Bool.false_and, if_neg Bool.false_ne_true, landData_entry]

end Arrival

end Arrivals

/-! ### The rows -/

section Rows

variable {s : State} {dt : Nat} {p : Fin 24} {hdr : FrameHdr}

theorem exec_dataFrame (dt : Nat) (p : Fin 24) (hdr : FrameHdr) (f : DataF) (s : State) :
    exec (.dataFrame dt p hdr f) s = execDataFrame dt p hdr f s := rfl

theorem exec_creditFrame (dt : Nat) (p : Fin 24) (hdr : FrameHdr) (f : CreditF) (s : State) :
    exec (.creditFrame dt p hdr f) s = execCreditFrame dt p hdr f s := rfl

theorem exec_checkpointFrame (dt : Nat) (p : Fin 24) (hdr : FrameHdr) (f : CheckpointF) (s : State) :
    exec (.checkpointFrame dt p hdr f) s = execCheckpointFrame dt p hdr f s := rfl

/-- A frame that its port's role does not carry, or that fails its check, is discarded and counted (R312, R315). -/
theorem receive_of_discarded {body : FrameBody} {ok : Bool} (hactive : s.portActive p = true)
    (hpast : s.pastSend hdr body = true) (h : s.roleOf p ∉ frameRoles body ∨ ok = false) (f : State → State) :
    s.receive p hdr body ok f = .next (s.discardFrame p) := by
  have hturned : (!(frameRoles body).contains (s.roleOf p) || !ok) = true := by
    rcases h with h | h <;> simp [h]
  rw [State.receive, hactive, hpast, hturned]
  rfl

/-- A frame that is taken changes its port's counts alone, where no check unit is armed. -/
theorem receive_of_taken (hactive : s.portActive p = true) (hunits : ∀ n, (s.unit n).armed = false)
    {body : FrameBody} (hlater : (s.advance dt).pastSend hdr body = true)
    (hrole : s.roleOf p ∈ frameRoles body) (f : State → State) :
    (s.advance dt).receive p hdr body true f = .next (f ((s.advance dt).modPort p (·.taken hdr))) := by
  rw [receive_of_carried (s := s.advance dt) hactive hlater hrole, acceptFrame_of_unarmed (s := s.advance dt) hunits]

variable (hactive : s.portActive p = true) (hpast : hdr.sendTide < (s.advance dt).tide)

include hactive hpast

section Taken

variable (hunits : ∀ n, (s.unit n).armed = false)

include hunits

/-- A DATA frame that is not held and names an entry of its sender's sluice lands there. -/
theorem dataFrame_of_sound {f : DataF} (hrole : s.roleOf p = 1 ∨ s.roleOf p = 2)
    (hfree : (s.advance dt).landHeld p [(s.dataKey hdr f, f.payload.length)] = false)
    (hok : s.dataFrameOk p hdr f = true) : exec (.dataFrame dt p hdr f) s =
      .next ((((s.advance dt).modPort p (·.taken hdr)).dropStalled hdr.dstCtx f).arriveData hdr.dstCtx f hdr.poison) := by
  have hok' : (s.advance dt).dataFrameOk p hdr f = true := hok
  have hfree' : (s.advance dt).landHeld p [((s.advance dt).dataKey hdr f, f.payload.length)] = false := hfree
  have hcarried : s.roleOf p ∈ frameRoles (.data f) := by simpa [frameRoles] using hrole
  rw [exec_dataFrame, execDataFrame]
  rw [hok', hfree', Bool.and_false, if_neg Bool.false_ne_true,
    receive_of_taken hactive hunits (body := .data f) (decide_eq_true hpast) hcarried]

/-- A CREDIT frame on a CHECKPOINT port gives units (R318). -/
theorem creditFrame_of_checkpoint (f : CreditF) (hrole : s.roleOf p = 6) : exec (.creditFrame dt p hdr f) s =
    .next (((s.advance dt).modPort p (·.taken hdr)).modPort p
      (fun x => { x with ckptUnits := x.ckptUnits + f.ckptUnits })) := by
  have hrole' : ((s.advance dt).modPort p (·.taken hdr)).roleOf p = 6 := hrole
  rw [exec_creditFrame, execCreditFrame]
  dsimp only
  rw [receive_of_taken hactive hunits (body := .credit f) (decide_eq_true hpast) (by simp [frameRoles, hrole]), if_pos hrole']

/-- A CREDIT frame from the peer of a side gives back the entries of its mask (R316). -/
theorem creditFrame_of_peer (f : CreditF) (hrole : s.roleOf p = 1 ∨ s.roleOf p = 2)
    (hkind : (sendSide (s.ctxItem hdr.dstCtx) f.bwd).1 = 1) (hport : (sendSide (s.ctxItem hdr.dstCtx) f.bwd).2.1 = p.val)
    (hmodule : (sendSide (s.ctxItem hdr.dstCtx) f.bwd).2.2.1 = hdr.srcModule)
    (hctx : (sendSide (s.ctxItem hdr.dstCtx) f.bwd).2.2.2.1 = hdr.srcCtx) : exec (.creditFrame dt p hdr f) s =
      .next (((s.advance dt).modPort p (·.taken hdr)).modCredits hdr.dstCtx f.bwd (fun w => w ||| f.entryMask)) := by
  have hrole' : ((s.advance dt).modPort p (·.taken hdr)).roleOf p ≠ 6 := by
    have : ((s.advance dt).modPort p (·.taken hdr)).roleOf p = s.roleOf p := rfl
    omega
  have hmine : (decide ((sendSide (s.ctxItem hdr.dstCtx) f.bwd).1 = 1) &&
      (sendSide (s.ctxItem hdr.dstCtx) f.bwd).2.1 == p.val &&
      (sendSide (s.ctxItem hdr.dstCtx) f.bwd).2.2.1 == hdr.srcModule &&
      (sendSide (s.ctxItem hdr.dstCtx) f.bwd).2.2.2.1 == hdr.srcCtx) = true := by
    simp [hkind, hport, hmodule, hctx]
  rw [exec_creditFrame, execCreditFrame]
  dsimp only
  rw [receive_of_taken hactive hunits (body := .credit f) (decide_eq_true hpast) (by simp [frameRoles]; omega), if_neg hrole']
  exact congrArg _ (if_pos hmine)

theorem checkpointFrame_of_carried (f : CheckpointF) (hrole : s.roleOf p = 6) :
    exec (.checkpointFrame dt p hdr f) s = .next ((s.advance dt).modPort p (·.taken hdr)) := by
  rw [exec_checkpointFrame, execCheckpointFrame]
  rw [receive_of_taken hactive hunits (body := .checkpoint f) (decide_eq_true hpast) (by simp [frameRoles, hrole])]

end Taken

/-- A DATA frame for another module, or on a port whose role carries none. -/
theorem dataFrame_of_discarded {f : DataF} (h : hdr.dstModule ≠ s.conf.address ∨ (s.roleOf p ≠ 1 ∧ s.roleOf p ≠ 2 ∧
      (s.advance dt).landHeld p [(s.dataKey hdr f, f.payload.length)] = false)) :
    exec (.dataFrame dt p hdr f) s = .next ((s.advance dt).discardFrame p) := by
  have hlands : ((s.advance dt).dataFrameOk p hdr f &&
      (s.advance dt).landHeld p [((s.advance dt).dataKey hdr f, f.payload.length)]) = false ∧
      ((s.advance dt).roleOf p ∉ frameRoles (.data f) ∨ (s.advance dt).dataFrameOk p hdr f = false) := by
    rcases h with hother | ⟨hprev, hnext, hfree⟩
    · have hfails : (s.advance dt).dataFrameOk p hdr f = false := by simp [State.dataFrameOk, hother]
      exact ⟨by rw [hfails, Bool.false_and], .inr hfails⟩
    · have hfree' : (s.advance dt).landHeld p [((s.advance dt).dataKey hdr f, f.payload.length)] = false := hfree
      exact ⟨by rw [hfree', Bool.and_false], .inl (by simpa [frameRoles] using ⟨hprev, hnext⟩)⟩
  rw [exec_dataFrame, execDataFrame]
  rw [hlands.1, if_neg Bool.false_ne_true]
  exact receive_of_discarded (s := s.advance dt) (body := .data f) hactive (decide_eq_true hpast) hlands.2 _

theorem creditFrame_of_discarded (f : CreditF) (h : s.roleOf p ∉ [1, 2, 6]) :
    exec (.creditFrame dt p hdr f) s = .next ((s.advance dt).discardFrame p) := by
  rw [exec_creditFrame, execCreditFrame]
  exact receive_of_discarded (s := s.advance dt) (body := .credit f) hactive (decide_eq_true hpast) (.inl h) _

theorem checkpointFrame_of_discarded (f : CheckpointF) (h : s.roleOf p ≠ 6) :
    exec (.checkpointFrame dt p hdr f) s = .next ((s.advance dt).discardFrame p) := by
  rw [exec_checkpointFrame, execCheckpointFrame]
  exact receive_of_discarded (s := s.advance dt) (body := .checkpoint f) hactive (decide_eq_true hpast)
    (.inl (List.mem_singleton.not.mpr h)) _

end Rows

/-- Settles O37: a DATA frame lands after the aborted sends of its sluice were discarded, and each part of that leaves
the others' entries; the other frames change one thing each, or are discarded. -/
theorem dataAndCreditFrames : Obligations.DataAndCreditFrames := by
  intro dt p hdr s hactive hunits hpast
  refine ⟨?_, fun f h => dataFrame_of_discarded hactive hpast h,
    fun f hprev hnext hckpt => creditFrame_of_discarded hactive hpast f (by simp [hprev, hnext, hckpt]),
    fun f hrole => checkpointFrame_of_discarded hactive hpast f hrole, ?_, ?_,
    fun f hrole => checkpointFrame_of_carried hactive hpast hunits f hrole⟩
  · rintro f key n k hrole rfl rfl rfl hfree hok
    have hsender : ((s.ctxItem hdr.dstCtx).sender f.bwd).1 = 1 := by
      simp only [State.dataFrameOk, Bool.and_eq_true, beq_iff_eq] at hok
      exact hok.1.1.1.1.2
    have hdrop : SameButStage ((s.advance dt).modPort p (·.taken hdr))
        (((s.advance dt).modPort p (·.taken hdr)).dropStalled hdr.dstCtx f) :=
      discardOthers_across _ sameButStage_across _
    have hreceived : SameReceived ((s.advance dt).modPort p (·.taken hdr))
        (((s.advance dt).modPort p (·.taken hdr)).dropStalled hdr.dstCtx f) :=
      discardOthers_across _ sameReceived_across _
    have hentry : (((s.advance dt).modPort p (·.taken hdr)).dropStalled hdr.dstCtx f).entry hdr.dstCtx f.bwd f.entry =
        s.entry hdr.dstCtx f.bwd f.entry := discardOthers_entry (s := (s.advance dt).modPort p (·.taken hdr)) _
    have hothers (i : Nat) (hi : i ≠ f.entry) (harriving : (s.entry hdr.dstCtx f.bwd i).state = .arriving) :
        (((s.advance dt).modPort p (·.taken hdr)).dropStalled hdr.dstCtx f).entry hdr.dstCtx f.bwd i = {} :=
      dropStalled_entry_of_arriving (s := (s.advance dt).modPort p (·.taken hdr)) harriving hi
    have hctx (n : Nat) (hn : n ≠ hdr.dstCtx) :
        (((s.advance dt).modPort p (·.taken hdr)).dropStalled hdr.dstCtx f).ctx n = s.ctx n :=
      discardOthers_ctx_ne (s := (s.advance dt).modPort p (·.taken hdr)) _ hsender hn
    have hexec := dataFrame_of_sound hactive hpast hunits hrole hfree hok
    generalize ((s.advance dt).modPort p (·.taken hdr)).dropStalled hdr.dstCtx f = u at *
    obtain ⟨hmem, hpoison, hconf, hpkg, hfar⟩ := hdrop.keeps
    have hitem : u.ctxItem hdr.dstCtx = s.ctxItem hdr.dstCtx := by
      rw [State.ctxItem, hconf]
      rfl
    have hkey : (u.ctxItem hdr.dstCtx).entryAddr f.bwd f.entry + f.offset = s.dataKey hdr f := by
      rw [hitem, State.dataKey]
    have hwritten : (u.arriveData hdr.dstCtx f hdr.poison).mem = (s.write (s.dataKey hdr f) f.payload).mem := by
      rw [arriveData_mem, hkey]
      exact write_mem_congr (s := s) hmem hpkg hfar _ _
    refine ⟨_, hexec, ?_, fun hlast hwhole hspec hdiscard => ?_, fun hmore hlast => ?_, fun i hi harriving => ?_,
      hwritten, fun x hx => ?_, fun hinv hsound => ?_, fun hmarked x hx => ?_, fun n hn => ?_⟩
    · rw [arriveData_received, hreceived, modPort_port]
      rfl
    · exact arriveData_entry_of_last _ hlast (by rw [hentry]; exact hwhole) hspec (by rw [hentry]; exact hdiscard)
    · rw [arriveData_entry_of_more _ hmore (by rw [hentry]; exact hlast), hentry]
      exact ⟨rfl, rfl, rfl⟩
    · rw [arriveData_entry_ne _ hi, hothers i hi harriving]
    · rw [hwritten]
      exact memRead_writeBytes_out _ _ _ _ _ hx
    · exact (congrArg (memReadBytes · (s.dataKey hdr f) f.payload.length) hwritten).trans (read_write hinv _ _ hsound)
    · rw [hmarked]
      exact arriveData_poison _ _ _ (by rwa [hkey])
    · rw [arriveData_ctx_ne _ (hitem ▸ hsender) hn, hctx n hn]
  · intro f hrole hkind hport hmodule hpeer
    have hexec := creditFrame_of_peer hactive hpast hunits f hrole hkind hport hmodule hpeer
    have hcredits := modCredits_ctx ((s.advance dt).modPort p (·.taken hdr)) hdr.dstCtx f.bwd (fun w => w ||| f.entryMask)
    refine ⟨_, hexec, fun hfwd => ?_, fun hbwd => ?_, fun n hn => modCredits_ctx_ne _ _ _ hn, rfl⟩
    · rw [hcredits, hfwd]
      rfl
    · rw [hcredits, hbwd]
      rfl
  · intro f hrole
    refine ⟨_, creditFrame_of_checkpoint hactive hpast hunits f hrole, ?_, rfl, rfl⟩
    rw [modPort_port, modPort_port]
    rfl

end Sys2Proof.Machine
end

section
/-! PROOF. Commands that stay in their rings, whatever else goes on, and commands that an abort takes out of them (chapters
03 and 12). -/

namespace Sys2Proof.Machine

/-! ### What leaves every command in its ring -/

/-- What the progress of a command leaves of it. -/
def Cmd.identity (c : Cmd) : Cmd := { c with work := .unstarted, finishedAt := 0, aux := [], prior := .none }

/-- Memory, slots and the rings are as they were, but for the progress of the commands in them. -/
structure KeepsCommands (s t : State) : Prop where
  mem : t.mem = s.mem
  slots : t.host.slots = s.host.slots
  books : ∀ r, t.ring r = { s.ring r with cmds := (t.ring r).cmds }
  cmds : ∀ r, (t.ring r).cmds.map Cmd.identity = (s.ring r).cmds.map Cmd.identity

section Keeping

variable {s t u : State} {c : Cmd} {k m : Nat}

theorem KeepsCommands.rfl : KeepsCommands s s := ⟨Eq.refl _, Eq.refl _, fun _ => Eq.refl _, fun _ => Eq.refl _⟩

theorem KeepsCommands.trans (hst : KeepsCommands s t) (htu : KeepsCommands t u) : KeepsCommands s u := by
  refine ⟨htu.mem.trans hst.mem, htu.slots.trans hst.slots, fun r => ?_, fun r => (htu.cmds r).trans (hst.cmds r)⟩
  rw [htu.books r, hst.books r]

theorem KeepsCommands.symm (h : KeepsCommands s t) : KeepsCommands t s :=
  ⟨h.mem.symm, h.slots.symm, fun r => by rw [h.books r], fun r => (h.cmds r).symm⟩

theorem KeepsCommands.exists_of_mem (h : KeepsCommands s t) {r : Nat} (hc : c ∈ (t.ring r).cmds) :
    ∃ d ∈ (s.ring r).cmds, c.identity = d.identity := by
  have hmem := List.mem_map_of_mem (f := Cmd.identity) hc
  rw [h.cmds] at hmem
  obtain ⟨d, hd, heq⟩ := List.mem_map.mp hmem
  exact ⟨d, hd, heq.symm⟩

theorem keepsCommands_of_rings (hmem : t.mem = s.mem) (hslots : t.host.slots = s.host.slots)
    (hring : ∀ r, ∃ f : Cmd → Cmd, (∀ c, (f c).identity = c.identity) ∧
      t.ring r = { s.ring r with cmds := (s.ring r).cmds.map f }) : KeepsCommands s t := by
  refine ⟨hmem, hslots, fun r => ?_, fun r => ?_⟩
  · obtain ⟨f, -, heq⟩ := hring r
    rw [heq]
  · obtain ⟨f, hf, heq⟩ := hring r
    rw [heq, List.map_map]
    exact List.map_congr_left fun c _ => hf c

/-- What touches neither memory nor the rings and slots. -/
theorem keepsCommands_of_host (hmem : t.mem = s.mem) (hslots : t.host.slots = s.host.slots)
    (hrings : t.host.rings = s.host.rings) : KeepsCommands s t := by
  refine keepsCommands_of_rings hmem hslots fun r => ⟨id, fun _ => Eq.refl _, ?_⟩
  rw [List.map_id, State.ring, hrings, State.ring]

theorem keepsCommands_modCmd (s : State) (ref : CmdRef) {f : Cmd → Cmd} (hf : ∀ c, (f c).identity = c.identity) :
    KeepsCommands s (s.modCmd ref f) := by
  refine keepsCommands_of_rings (Eq.refl _) (Eq.refl _) fun r => ?_
  by_cases hr : r = ref.ring
  · refine ⟨fun c => if c.fetchOrder = ref.id then f c else c, fun c => ?_, ?_⟩
    · dsimp only
      split
      · exact hf c
      · exact Eq.refl _
    · rw [hr, State.modCmd, modRing_ring]
  · exact ⟨id, fun _ => Eq.refl _, by rw [State.modCmd, modRing_ring_ne _ _ _ _ hr, List.map_id]⟩

/-! ### Reports, frames and the wait of updates -/

theorem keepsCommands_modUnit (s : State) (n : Nat) (f : CheckUnit → CheckUnit) : KeepsCommands s (s.modUnit n f) :=
  keepsCommands_of_host (Eq.refl _) (Eq.refl _) (Eq.refl _)

theorem keepsCommands_modCtx (s : State) (k : Nat) (f : Ctx → Ctx) : KeepsCommands s (s.modCtx k f) :=
  keepsCommands_of_host (Eq.refl _) (Eq.refl _) (Eq.refl _)

theorem keepsCommands_modPort (s : State) (p : Nat) (f : Port → Port) : KeepsCommands s (s.modPort p f) :=
  keepsCommands_of_host (Eq.refl _) (Eq.refl _) (Eq.refl _)

theorem keepsCommands_modLayer (s : State) (l : Nat) (f : Layer → Layer) : KeepsCommands s (s.modLayer l f) :=
  keepsCommands_of_host (Eq.refl _) (Eq.refl _) (Eq.refl _)

theorem keepsCommands_finish (s : State) (ref : CmdRef) (st : Status) (detail : Nat) (body : List Byte) :
    KeepsCommands s (s.finish ref st detail body) := keepsCommands_modCmd s ref fun _ => Eq.refl _

theorem keepsCommands_raise (s : State) (v : Nat) : KeepsCommands s (s.raise v) := by
  rw [raise_eq]
  exact keepsCommands_of_host (Eq.refl _) (Eq.refl _) (Eq.refl _)

theorem keepsCommands_logRec (s : State) (src code sev a0 a1 a2 : Nat) :
    KeepsCommands s (s.logRec src code sev a0 a1 a2) := by
  rw [logRec_eq]
  exact keepsCommands_of_host (Eq.refl _) (Eq.refl _) (Eq.refl _)

theorem keepsCommands_compareUnit (s : State) (n : Nat) (expect : W64) :
    KeepsCommands s (s.compareUnit n expect).1 := by
  unfold State.compareUnit
  dsimp only
  split
  · exact (keepsCommands_modUnit ..).trans (keepsCommands_raise ..)
  · exact keepsCommands_modUnit ..

theorem keepsCommands_limitUnit (s : State) (n : Nat) : KeepsCommands s (s.limitUnit n) := by
  unfold State.limitUnit
  dsimp only
  split
  · have hdone := (keepsCommands_compareUnit s n (s.unit n).armExpect).trans (keepsCommands_modUnit _ n
      (fun u => { u with armed := false, limit := 0, cmd := none, deadline := none }))
    split
    · exact hdone
    · exact hdone.trans (keepsCommands_finish ..)
  · exact .rfl

theorem keepsCommands_absorbUnit (s : State) (n : Nat) (bs : List Byte) (poison : Option (Nat × Nat)) :
    KeepsCommands s (s.absorbUnit n bs poison) := by
  unfold State.absorbUnit
  dsimp only
  refine .trans ?_ ((keepsCommands_modUnit ..).trans (keepsCommands_limitUnit ..))
  split
  · split
    · exact .rfl
    · unfold State.unitConsumed
      split <;> exact keepsCommands_logRec ..
  · exact .rfl

theorem keepsCommands_absorb (s : State) (source num : Nat) (bs : List Byte) (poison : Option (Nat × Nat)) :
    KeepsCommands s (s.absorb source num bs poison) := by
  refine foldl_keeps (fun _ => .rfl) (fun _ _ _ => .trans) (fun s n => ?_) _ s
  dsimp only
  split
  · exact keepsCommands_absorbUnit ..
  · exact .rfl

theorem keepsCommands_pumpN (s : State) (p fuel : Nat) : KeepsCommands s (s.pumpN p fuel) := by
  induction fuel generalizing s with
  | zero => exact .rfl
  | succ fuel ih =>
    rw [State.pumpN]
    dsimp only
    split
    · exact .rfl
    · split
      · exact ((keepsCommands_modPort ..).trans (keepsCommands_absorb ..)).trans (ih _)
      · exact .rfl

theorem keepsCommands_send (s : State) (p : Nat) (hdr : FrameHdr) (body : FrameBody) :
    KeepsCommands s (s.send p hdr body) := (keepsCommands_modPort ..).trans (keepsCommands_pumpN ..)

theorem keepsCommands_across : AcrossSluices KeepsCommands :=
  ⟨fun _ => .rfl, fun _ _ _ => .trans, keepsCommands_modCtx, keepsCommands_send, keepsCommands_logRec⟩

theorem keepsCommands_sendShards (s : State) (kind layer : Nat) (serial : W16) (reqId : Nat) :
    KeepsCommands s (s.sendShards kind layer serial reqId) := by
  refine foldl_keeps (R := KeepsCommands) (fun _ => .rfl) (fun _ _ _ => .trans) (fun s rank => ?_) _ s
  unfold State.sendShard State.sendToRank
  split
  · exact keepsCommands_send ..
  · exact keepsCommands_of_host (Eq.refl _) (Eq.refl _) (Eq.refl _)

theorem tabGet_map {α β : Type} (d : α) (t : Tab α) (f : α → β) (n : Nat) :
    tabGet (f d) (t.map (fun e => (e.1, f e.2))) n = f (tabGet d t n) := by
  induction t with
  | nil => rfl
  | cons e t ih =>
    rw [List.map_cons, tabGet, tabGet, ih, apply_ite f]

theorem tickUpdate_identity (s : State) (c : Cmd) : (s.tickUpdate c).identity = c.identity := by
  unfold State.tickUpdate
  dsimp only
  split <;> rfl

/-- The commands of a ring once each has followed a change of what R271 names. -/
def Ring.ticked (x : Ring) (s : State) : Ring := { x with cmds := x.cmds.map s.tickUpdate }

theorem tickUpdates_ring (s : State) (r : Nat) : s.tickUpdates.ring r = (s.ring r).ticked s :=
  tabGet_map (ringReset r) s.host.rings (·.ticked s) r

theorem keepsCommands_tickUpdates (s : State) : KeepsCommands s s.tickUpdates :=
  keepsCommands_of_rings (Eq.refl _) (Eq.refl _) fun r =>
    ⟨s.tickUpdate, tickUpdate_identity s, tickUpdates_ring s r⟩

/-! ### Commands that name a micro-batch (R203, R250) -/

theorem mem_mbCmds : c ∈ s.mbCmds k m ↔ c ∈ (s.ring (k + 1)).cmds ∧ c.start.isSome = true ∧ c.namesMb = some m := by
  simp only [State.mbCmds, Ring.started, List.mem_filter, beq_iff_eq, and_assoc]

theorem namesMb_congr {d : Cmd} (h : c.identity = d.identity) : c.namesMb = d.namesMb :=
  (congrArg Cmd.namesMb h :)

theorem KeepsCommands.exists_mbCmd (h : KeepsCommands s t) (hc : c ∈ t.mbCmds k m) :
    ∃ d ∈ s.mbCmds k m, c.identity = d.identity := by
  obtain ⟨hmem, hstart, hnames⟩ := mem_mbCmds.mp hc
  obtain ⟨d, hd, heq⟩ := h.exists_of_mem hmem
  exact ⟨d, mem_mbCmds.mpr ⟨hd, (congrArg Cmd.start heq :) ▸ hstart, namesMb_congr heq ▸ hnames⟩, heq⟩

/-- No DRAIN of a micro-batch appears or goes. -/
theorem KeepsCommands.stashHeld (h : KeepsCommands s t) (hfree : s.stashHeld k m = false) : t.stashHeld k m = false := by
  rw [State.stashHeld, List.any_eq_false] at hfree ⊢
  intro c hc
  obtain ⟨d, hd, heq⟩ := h.exists_mbCmd hc
  rw [show c.opcode = d.opcode from (congrArg Cmd.opcode heq :)]
  exact hfree d hd

end Keeping

/-! ### Pins that are given back (R235, R238) -/

/-- Of a stage context at most the pins of one micro-batch and the credits differ. -/
structure SameButPins (k m : Nat) (s t : State) : Prop where
  mb : t.mb k m = { s.mb k m with pins := (t.mb k m).pins }
  others : ∀ n, n ≠ m → t.mb k n = s.mb k n
  drops : (t.ctx k).drops = (s.ctx k).drops
  entry : ∀ b i, t.entry k b i = s.entry k b i

section Pins

variable {s t u : State} {k m : Nat}

theorem SameButPins.trans (hst : SameButPins k m s t) (htu : SameButPins k m t u) : SameButPins k m s u := by
  refine ⟨?_, fun n hn => (htu.others n hn).trans (hst.others n hn), htu.drops.trans hst.drops,
    fun b i => (htu.entry b i).trans (hst.entry b i)⟩
  rw [htu.mb, hst.mb]

theorem sameButPins_of_ctx (h : t.ctx k = s.ctx k) : SameButPins k m s t :=
  ⟨by rw [mb_congr (congrArg Ctx.mbs h)], fun n _ => mb_congr (congrArg Ctx.mbs h) n, congrArg Ctx.drops h,
    fun b i => entry_congr (congrArg (Ctx.sluice · b) h) i⟩

theorem SameButPins.rfl : SameButPins k m s s := sameButPins_of_ctx (Eq.refl _)

theorem modCredits_keeps {α : Type} {π : Ctx → α} (hπ : ∀ x toPrev f, π (Ctx.credited x toPrev f) = π x) (s : State)
    (n : Nat) (toPrev : Bool) (f : W64 → W64) (k : Nat) : π ((s.modCredits n toPrev f).ctx k) = π (s.ctx k) :=
  modCtx_keeps π (fun x => hπ x toPrev f) s n k

theorem modCredits_mb (s : State) (n : Nat) (toPrev : Bool) (f : W64 → W64) (k m : Nat) :
    (s.modCredits n toPrev f).mb k m = s.mb k m :=
  mb_congr (modCredits_keeps (aside_mbs (bwd := false)).credits s n toPrev f k) m

theorem sameButPins_modCredits (s : State) (k n m : Nat) (toPrev : Bool) (f : W64 → W64) :
    SameButPins k m s (s.modCredits n toPrev f) :=
  ⟨by rw [modCredits_mb], fun i _ => modCredits_mb s n toPrev f k i,
    modCredits_keeps (aside_drops (bwd := false)).credits s n toPrev f k,
    fun b i => entry_congr (modCredits_keeps (π := (Ctx.sluice · b)) (fun x toPrev f => credited_sluice x toPrev f b)
      s n toPrev f k) i⟩

theorem unpinSlot_ctx (s : State) (l i : Nat) (n : Nat) : (s.unpinSlot l i).ctx n = s.ctx n := by
  unfold State.unpinSlot
  dsimp only
  have hretire (x : State) : (x.retire l).ctx n = x.ctx n := rfl
  rw [hretire]
  split
  · exact congrArg (tabGet {} · n) (congrArg State.ctxs (sameButSends_sendShards ..).eq :)
  · rfl

theorem keepsCommands_unpinSlot (s : State) (l i : Nat) : KeepsCommands s (s.unpinSlot l i) := by
  unfold State.unpinSlot
  dsimp only
  have hretire (x : State) : KeepsCommands x (x.retire l) :=
    (keepsCommands_modLayer ..).trans (keepsCommands_tickUpdates _)
  refine .trans ?_ (hretire _)
  split
  · exact (keepsCommands_modLayer ..).trans (keepsCommands_sendShards ..)
  · exact keepsCommands_modLayer ..

theorem unpinMb_keeps (s : State) (k m l : Nat) : KeepsCommands s (s.unpinMb k m l) ∧ SameButPins k m s (s.unpinMb k m l) := by
  unfold State.unpinMb
  split
  · exact ⟨.rfl, .rfl⟩
  · refine ⟨(keepsCommands_modCtx ..).trans (keepsCommands_unpinSlot ..),
      .trans ?_ (sameButPins_of_ctx (unpinSlot_ctx ..))⟩
    refine ⟨by rw [modMb_mb], fun n hn => modMb_mb_ne _ _ _ hn, ?_, fun b i => entry_congr ?_ i⟩
    · rw [modMb_ctx]
    · rw [modMb_ctx]
      cases b <;> rfl

theorem unpinLayers_keeps (s : State) (k m : Nat) (ls : List Nat) :
    KeepsCommands s (s.unpinLayers k m ls) ∧ SameButPins k m s (s.unpinLayers k m ls) :=
  foldl_keeps (R := fun s t => KeepsCommands s t ∧ SameButPins k m s t) (fun _ => ⟨.rfl, .rfl⟩)
    (fun _ _ _ hst htu => ⟨hst.1.trans htu.1, hst.2.trans htu.2⟩) (fun s l => unpinMb_keeps s k m l) ls s

end Pins

/-! ### Aborted commands (R250, R264) -/

section Aborts

variable {s t : State} {c d : Cmd} {k m r : Nat}

/-- What an abort takes back of a command before it completes it: a send's frames and credit, a request's pins. -/
def State.withdraw (s : State) (c : Cmd) : State :=
  if c.opcode = 0x21 || c.opcode = 0x22 then s.abortSend (ctxOfRing c.ring) c
  else if c.opcode = 0x30 && c.work == .waiting .holds then s.undoPins c (ctxOfRing c.ring) (c.param 0 1)
  else s

/-- The bookkeeping of a command's gather and holds ends, and it is to complete. -/
def State.forget (s : State) (c : Cmd) : State := (s.dropGet c.ref).dropHolds c.ref

theorem abortCmd_eq (s : State) (c : Cmd) : s.abortCmd c =
    ((s.withdraw c).forget c).complete c .aborted 0 ((s.withdraw c).getBody c.ref) := rfl

/-- An aborted send leaves, or its unsent frames go, with its credit or without. -/
theorem abortSend_cases (s : State) (k : Nat) (c : Cmd) : s.abortSend k c = s ∨ ∃ p f, s.abortSend k c = s.modPort p f ∨
    ∃ g, s.abortSend k c = (s.modPort p f).modCredits k c.sendsBack g := by
  unfold State.abortSend
  extract_lets item kind
  split
  · split
    · extract_lets _ _ withdrawn
      split
      · exact .inr ⟨_, _, .inr ⟨_, rfl⟩⟩
      · exact .inr ⟨_, _, .inl rfl⟩
    · exact .inl rfl
  · exact .inl rfl

theorem abortSend_keeps (s : State) (k n m : Nat) (c : Cmd) :
    KeepsCommands s (s.abortSend n c) ∧ SameButPins k m s (s.abortSend n c) := by
  rcases abortSend_cases s n c with h | ⟨p, f, h | ⟨g, h⟩⟩ <;> rw [h]
  · exact ⟨.rfl, .rfl⟩
  · exact ⟨keepsCommands_modPort .., sameButPins_of_ctx rfl⟩
  · exact ⟨(keepsCommands_modPort s p f).trans (keepsCommands_modCtx ..),
      (sameButPins_of_ctx (s := s) (t := s.modPort p f) rfl).trans
        (sameButPins_modCredits (s.modPort p f) k n m c.sendsBack g)⟩

theorem abortSend_mb (s : State) (n : Nat) (c : Cmd) (k m : Nat) : (s.abortSend n c).mb k m = s.mb k m := by
  rcases abortSend_cases s n c with h | ⟨p, f, h | ⟨g, h⟩⟩ <;> rw [h]
  · rfl
  · exact modCredits_mb (s.modPort p f) n c.sendsBack g k m

theorem param_of_namesMb (hop : c.opcode = 0x30) (h : c.namesMb = some m) : c.param 0 1 = m := by
  simpa [Cmd.namesMb, hop] using h

theorem withdraw_keeps (s : State) (hctx : ctxOfRing c.ring = k) (h : c.namesMb = some m) :
    KeepsCommands s (s.withdraw c) ∧ SameButPins k m s (s.withdraw c) := by
  unfold State.withdraw
  split
  · exact abortSend_keeps ..
  · split
    · next hpins =>
      have hmb := param_of_namesMb (by simpa using (Bool.and_eq_true_iff.mp hpins).1) h
      rw [State.undoPins, hctx, hmb]
      obtain ⟨hcmds, hsame⟩ := unpinLayers_keeps s k m c.aux
      exact ⟨hcmds.trans (keepsCommands_of_host rfl rfl rfl), hsame.trans (sameButPins_of_ctx rfl)⟩
    · exact ⟨.rfl, .rfl⟩

/-- Only a request that waits for its holds has pins to give back (R238). -/
theorem withdraw_mb (hwork : c.work ≠ .waiting .holds) (n m : Nat) : (s.withdraw c).mb n m = s.mb n m := by
  unfold State.withdraw
  split
  · exact abortSend_mb ..
  · rw [if_neg (by simp [hwork])]

theorem abortCmd_ctx (s : State) (c : Cmd) (n : Nat) : (s.abortCmd c).ctx n = (s.withdraw c).ctx n :=
  (sameButCompletions_complete ((s.withdraw c).forget c) ..).ctx n

theorem abortCmd_pins (s : State) (hctx : ctxOfRing c.ring = k) (h : c.namesMb = some m) :
    SameButPins k m s (s.abortCmd c) :=
  (withdraw_keeps s hctx h).2.trans (sameButPins_of_ctx (abortCmd_ctx s c k))

/-! The command leaves its ring, and its slot is filled. -/

theorem dropCmd_exists (h : d ∈ ((s.dropCmd c).ring c.ring).cmds) :
    ∃ e ∈ (s.ring c.ring).cmds, d.identity = e.identity := by
  rw [State.dropCmd, modRing_ring] at h
  obtain ⟨e, he, rfl⟩ := List.mem_map.mp h
  refine ⟨e, (List.mem_filter.mp he).1, ?_⟩
  split <;> rfl

theorem complete_cmds (s : State) (c : Cmd) (st : Status) (detail : Nat) (body : List Byte) :
    ((s.complete c st detail body).ring c.ring).cmds = ((s.dropCmd c).ring c.ring).cmds := by
  cases hsilent : c.silent with
  | true => rw [complete_of_silent hsilent, leaveRing_ring]
  | false => rw [complete_ring hsilent]

theorem abortCmd_cmds (hctx : ctxOfRing c.ring = k) (hmb : c.namesMb = some m)
    (h : d ∈ ((s.abortCmd c).ring c.ring).cmds) :
    (∃ e ∈ (s.ring c.ring).cmds, d.identity = e.identity) ∧ d.fetchOrder ≠ c.fetchOrder := by
  rw [abortCmd_eq, complete_cmds] at h
  obtain ⟨e, he, heq⟩ := dropCmd_exists h
  have hkept : KeepsCommands s ((s.withdraw c).forget c) :=
    (withdraw_keeps s hctx hmb).1.trans (keepsCommands_of_host rfl rfl rfl)
  obtain ⟨e', he', heq'⟩ := hkept.exists_of_mem he
  exact ⟨⟨e', he', heq.trans heq'⟩, dropCmd_cmds_fetchOrder _ h⟩

/-- A slot that holds the result of an aborted command. -/
def Slot.aborted (x : Slot) : Prop := x.marked = false ∧ x.ready = true ∧ x.status = .aborted

theorem forget_slot (hctx : ctxOfRing c.ring = k) (hmb : c.namesMb = some m) (q j : Nat) :
    ((s.withdraw c).forget c).slot q j = s.slot q j :=
  congrArg (tabFind · (slotKey q j)) (withdraw_keeps s hctx hmb).1.slots

theorem abortCmd_slot_of_named (hctx : ctxOfRing c.ring = k) (hmb : c.namesMb = some m) (htraced : c.silent = false)
    {j : Nat} {x : Slot} (hslot : c.slot = some j) (hx : s.slot c.ring j = some x) (hmarked : x.marked = false) :
    ∃ y, (s.abortCmd c).slot c.ring j = some y ∧ y.aborted := by
  have hx' : (((s.withdraw c).forget c).leaveRing c).slot c.ring j = some x :=
    (leaveRing_slot ..).trans ((forget_slot hctx hmb ..).trans hx)
  rw [abortCmd_eq, complete_slot htraced, fillSlot_of_unmarked hslot hx' hmarked, setSlot_slot]
  exact ⟨_, rfl, rfl, rfl, rfl⟩

theorem abortCmd_slot_of_other (hctx : ctxOfRing c.ring = k) (hmb : c.namesMb = some m) {j : Nat}
    (h : c.silent = true ∨ c.slot ≠ some j) : (s.abortCmd c).slot c.ring j = s.slot c.ring j := by
  have hleft : (((s.withdraw c).forget c).leaveRing c).slot c.ring j = s.slot c.ring j :=
    (leaveRing_slot ..).trans (forget_slot hctx hmb ..)
  rw [abortCmd_eq]
  cases hsilent : c.silent with
  | true => rw [complete_of_silent hsilent, hleft]
  | false =>
    rw [complete_slot hsilent, fillSlot_slot_ne ?_, hleft]
    have hother : c.slot ≠ some j := h.resolve_left (by simp [hsilent])
    cases hslot : c.slot with
    | none => exact .inl rfl
    | some i =>
      refine .inr (fun hkey => hother ?_)
      have : j = i := by simpa [slotKey] using hkey
      rw [hslot, this]

/-! ### The commands of a micro-batch, aborted one after the other -/

/-- Each of these commands is aborted. -/
def State.abortCmds (s : State) (cs : List Cmd) : State := cs.foldl (fun st c => st.abortCmd c) s

theorem abortMbCmds_eq (s : State) (k m : Nat) : s.abortMbCmds k m = s.abortCmds (s.mbCmds k m) := rfl

/-- Commands of a context's ring that name a micro-batch. -/
def NamesMb (k m : Nat) (cs : List Cmd) : Prop := ∀ c ∈ cs, c.ring = k + 1 ∧ c.namesMb = some m

theorem mbCmds_namesMb (h : ∀ d ∈ (s.ring (k + 1)).cmds, d.ring = k + 1) : NamesMb k m (s.mbCmds k m) := by
  intro c hc
  obtain ⟨hmem, -, hnames⟩ := mem_mbCmds.mp hc
  exact ⟨h c hmem, hnames⟩

theorem ctxOfRing_succ (h : c.ring = k + 1) : ctxOfRing c.ring = k := by rw [h]; rfl

variable {cs : List Cmd} (hcs : NamesMb k m cs)

include hcs

theorem abortCmds_pins (s : State) : SameButPins k m s (s.abortCmds cs) := by
  induction cs generalizing s with
  | nil => exact .rfl
  | cons c cs ih =>
    obtain ⟨hring, hmb⟩ := hcs c List.mem_cons_self
    exact (abortCmd_pins s (ctxOfRing_succ hring) hmb).trans (ih (fun d hd => hcs d (List.mem_cons_of_mem _ hd)) _)

theorem abortCmds_cmds (h : d ∈ ((s.abortCmds cs).ring (k + 1)).cmds) :
    (∃ e ∈ (s.ring (k + 1)).cmds, d.identity = e.identity) ∧ ∀ c ∈ cs, d.fetchOrder ≠ c.fetchOrder := by
  induction cs generalizing s with
  | nil => exact ⟨⟨d, h, rfl⟩, fun c hc => absurd hc List.not_mem_nil⟩
  | cons c cs ih =>
    obtain ⟨hring, hmb⟩ := hcs c List.mem_cons_self
    obtain ⟨⟨e, he, heq⟩, hrest⟩ := ih (fun d hd => hcs d (List.mem_cons_of_mem _ hd)) h
    rw [← hring] at he ⊢
    obtain ⟨⟨e', he', heq'⟩, hne⟩ := abortCmd_cmds (ctxOfRing_succ hring) hmb he
    refine ⟨⟨e', he', heq.trans heq'⟩, fun c' hc' => ?_⟩
    rcases List.mem_cons.mp hc' with rfl | hmem
    · rw [show d.fetchOrder = e.fetchOrder from (congrArg Cmd.fetchOrder heq :)]
      exact hne
    · exact hrest c' hmem

/-- Once filled by one of them, a slot stays an aborted command's. -/
theorem abortCmds_slot_of_aborted {j : Nat} {x : Slot} (hx : s.slot (k + 1) j = some x) (hab : x.aborted) :
    ∃ y, (s.abortCmds cs).slot (k + 1) j = some y ∧ y.aborted := by
  induction cs generalizing s x with
  | nil => exact ⟨x, hx, hab⟩
  | cons c cs ih =>
    obtain ⟨hring, hmb⟩ := hcs c List.mem_cons_self
    have hnext : ∃ y, (s.abortCmd c).slot (k + 1) j = some y ∧ y.aborted := by
      rw [← hring] at hx ⊢
      by_cases hmine : c.silent = false ∧ c.slot = some j
      · exact abortCmd_slot_of_named (ctxOfRing_succ hring) hmb hmine.1 hmine.2 hx hab.1
      · have hother : c.silent = true ∨ c.slot ≠ some j := by
          simpa [or_iff_not_imp_left] using hmine
        rw [abortCmd_slot_of_other (ctxOfRing_succ hring) hmb hother]
        exact ⟨x, hx, hab⟩
    obtain ⟨y, hy, hyab⟩ := hnext
    exact ih (fun d hd => hcs d (List.mem_cons_of_mem _ hd)) hy hyab

/-- The slot of each of them that leaves a trace becomes ready with ABORTED (R250). -/
theorem abortCmds_slot {j : Nat} {x : Slot} (hc : c ∈ cs) (htraced : c.silent = false) (hslot : c.slot = some j)
    (hx : s.slot (k + 1) j = some x) (hmarked : x.marked = false) :
    ∃ y, (s.abortCmds cs).slot (k + 1) j = some y ∧ y.aborted := by
  induction cs generalizing s x with
  | nil => exact absurd hc List.not_mem_nil
  | cons d cs ih =>
    obtain ⟨hring, hmb⟩ := hcs d List.mem_cons_self
    have hrest : NamesMb k m cs := fun e he => hcs e (List.mem_cons_of_mem _ he)
    by_cases hmine : d.silent = false ∧ d.slot = some j
    · have hnext : ∃ y, (s.abortCmd d).slot (k + 1) j = some y ∧ y.aborted := by
        rw [← hring] at hx ⊢
        exact abortCmd_slot_of_named (ctxOfRing_succ hring) hmb hmine.1 hmine.2 hx hmarked
      obtain ⟨y, hy, hyab⟩ := hnext
      exact abortCmds_slot_of_aborted hrest hy hyab
    · have hother : d.silent = true ∨ d.slot ≠ some j := by
        simpa [or_iff_not_imp_left] using hmine
      have hnext : (s.abortCmd d).slot (k + 1) j = some x := by
        rw [← hring] at hx ⊢
        rw [abortCmd_slot_of_other (ctxOfRing_succ hring) hmb hother, hx]
      rcases List.mem_cons.mp hc with rfl | hmem
      · exact absurd ⟨htraced, hslot⟩ hmine
      · exact ih hrest hmem hnext hmarked

omit hcs in
theorem abortCmds_mb (hwork : ∀ c ∈ cs, c.work ≠ .waiting .holds) (n m : Nat) : (s.abortCmds cs).mb n m = s.mb n m := by
  induction cs generalizing s with
  | nil => rfl
  | cons c cs ih =>
    refine (ih fun d hd => hwork d (List.mem_cons_of_mem _ hd)).trans ?_
    rw [mb_congr (congrArg Ctx.mbs (abortCmd_ctx s c n)), withdraw_mb (hwork c List.mem_cons_self)]

end Aborts

section Emptied

variable {s t : State} {k m : Nat} (hring : ∀ d ∈ (s.ring (k + 1)).cmds, d.ring = k + 1)
  (hkept : KeepsCommands (s.abortMbCmds k m) t)

include hring hkept

/-- From the abort of a micro-batch's commands on, none of them is found. -/
theorem findCmd_of_aborted {d : Cmd} (h : d ∈ s.mbCmds k m) : t.findCmd d.ref = none := by
  refine List.find?_eq_none.mpr fun c hc => ?_
  have hc' : c ∈ (t.ring (k + 1)).cmds := by
    rw [← (mbCmds_namesMb hring d h).1]
    exact hc
  obtain ⟨e, he, heq⟩ := hkept.exists_of_mem hc'
  have hne := (abortCmds_cmds (mbCmds_namesMb hring) he).2 d h
  rw [show c.fetchOrder = e.fetchOrder from (congrArg Cmd.fetchOrder heq :)]
  exact fun hfound => hne (beq_iff_eq.mp hfound)

/-- Nor does a DRAIN hold its reservation any more (R203). -/
theorem stashHeld_of_aborted : t.stashHeld k m = false := by
  refine hkept.stashHeld (List.any_eq_false.mpr fun c hc => ?_)
  obtain ⟨hmem, hstart, hnames⟩ := mem_mbCmds.mp hc
  obtain ⟨⟨e, he, heq⟩, hgone⟩ := abortCmds_cmds (mbCmds_namesMb hring) hmem
  have hnamed : e ∈ s.mbCmds k m :=
    mem_mbCmds.mpr ⟨he, (congrArg Cmd.start heq :) ▸ hstart, namesMb_congr heq ▸ hnames⟩
  exact absurd (congrArg Cmd.fetchOrder heq :) (hgone e hnamed)

end Emptied

end Sys2Proof.Machine
end

section
/-! PROOF. Drops and rewinds of a micro-batch, its release, and entries that it frees (chapter 12). -/

namespace Sys2Proof.Machine

/-! ### Entries that a micro-batch held (R250, R261) -/

section Held

variable {α : Type} {s : State} {k e : Nat} {bwd : Bool} {o : Option Nat}

/-- The entry that a micro-batch held, if any, is discarded. -/
def State.discardHeld (s : State) (k : Nat) (bwd : Bool) (o : Option Nat) : State :=
  match o with
  | some e => s.discardEntry k bwd e
  | none => s

/-- It is emptied. -/
def State.emptyHeld (s : State) (k : Nat) (bwd : Bool) (o : Option Nat) : State :=
  match o with
  | some e => s.emptyEntry k bwd e
  | none => s

/-- The forward entry of a dropped micro-batch is discarded where it is speculative, and else returned. -/
def State.giveBack (s : State) (k : Nat) (o : Option Nat) : State :=
  match o with
  | some e => if (s.entry k false e).spec then s.discardEntry k false e else s.returnEntry k e
  | none => s

theorem discardHeld_across {R : State → State → Prop} (hR : AcrossSluices R) (s : State) (k : Nat) (bwd : Bool)
    (o : Option Nat) : R s (s.discardHeld k bwd o) := by
  cases o with
  | none => exact hR.rfl s
  | some e => exact hR.discardEntry s k bwd e

theorem emptyHeld_across {R : State → State → Prop} (hR : AcrossSluices R) (s : State) (k : Nat) (bwd : Bool)
    (o : Option Nat) : R s (s.emptyHeld k bwd o) := by
  cases o with
  | none => exact hR.rfl s
  | some e => exact hR.emptyEntry s k bwd e

theorem giveBack_across {R : State → State → Prop} (hR : AcrossSluices R) (s : State) (k : Nat) (o : Option Nat) :
    R s (s.giveBack k o) := by
  cases o with
  | none => exact hR.rfl s
  | some e =>
    unfold State.giveBack
    dsimp only
    split
    · exact hR.discardEntry s k false e
    · exact hR.modEntry ..

theorem discardHeld_keeps {π : Ctx → α} (hπ : Aside bwd π) (s : State) (k : Nat) (o : Option Nat) (n : Nat) :
    π ((s.discardHeld k bwd o).ctx n) = π (s.ctx n) := by
  cases o with
  | none => rfl
  | some e => exact discardEntry_keeps hπ s k e n

theorem emptyHeld_keeps {π : Ctx → α} (hπ : Aside bwd π) (s : State) (k : Nat) (o : Option Nat) (n : Nat) :
    π ((s.emptyHeld k bwd o).ctx n) = π (s.ctx n) := by
  cases o with
  | none => rfl
  | some e => exact emptyEntry_keeps hπ s k e n

theorem giveBack_keeps {π : Ctx → α} (hπ : Aside false π) (s : State) (k : Nat) (o : Option Nat) (n : Nat) :
    π ((s.giveBack k o).ctx n) = π (s.ctx n) := by
  cases o with
  | none => rfl
  | some e =>
    unfold State.giveBack
    dsimp only
    split
    · exact discardEntry_keeps hπ s k e n
    · exact modEntry_keeps hπ s k e _ n

theorem discardHeld_entry (s : State) (k : Nat) (bwd : Bool) (e : Nat) :
    (s.discardHeld k bwd (some e)).entry k bwd e = {} := discardEntry_entry s k bwd e

theorem giveBack_entry_of_spec (h : (s.entry k false e).spec = true) :
    (s.giveBack k (some e)).entry k false e = {} := by
  rw [State.giveBack, if_pos h, discardEntry_entry]

theorem giveBack_entry_of_sound (h : (s.entry k false e).spec = false) :
    ((s.giveBack k (some e)).entry k false e).state = .ready ∧
      ((s.giveBack k (some e)).entry k false e).returned = true := by
  rw [State.giveBack, if_neg (by simp [h]), State.returnEntry, modEntry_entry]
  exact ⟨rfl, rfl⟩

end Held

/-! ### The end of a drop, of a rewind and of a reservation (R248, R250, R263) -/

section Ends

variable {s : State} {k m : Nat}

theorem modMb_entry (s : State) (k m : Nat) (f : Mb → Mb) (b : Bool) (i : Nat) :
    (s.modMb k m f).entry k b i = s.entry k b i :=
  entry_congr (by rw [modMb_ctx]; cases b <;> rfl) i

theorem modMb_drops (s : State) (k m : Nat) (f : Mb → Mb) : ((s.modMb k m f).ctx k).drops = (s.ctx k).drops := by
  rw [modMb_ctx]

/-- A micro-batch without its reservation. -/
def Mb.unreserved (x : Mb) : Mb := { x with releasing := false, baseUnits := 0, sizeUnits := 0 }

theorem freeReservation_of_free (h : s.stashHeld k m = false) :
    s.freeReservation k m = s.modMb k m (·.unreserved) := by
  rw [State.freeReservation, h, if_neg Bool.false_ne_true]
  rfl

/-- What a drop of a context counts. -/
def Ctx.countDrop (x : Ctx) : Ctx := { x with drops := satAdd 16 x.drops 1 }

theorem noteDrop_ctx (s : State) (k n : Nat) : (s.noteDrop k).ctx n = (s.modCtx k (·.countDrop)).ctx n := by
  unfold State.noteDrop
  dsimp only
  split <;> rfl

theorem keepsCommands_noteDrop (s : State) (k : Nat) : KeepsCommands s (s.noteDrop k) := by
  unfold State.noteDrop
  dsimp only
  split
  · exact (keepsCommands_modCtx s k _).trans (keepsCommands_of_host rfl rfl rfl)
  · exact keepsCommands_modCtx ..

theorem noteDrop_mb (s : State) (k n : Nat) : (s.noteDrop k).mb k n = s.mb k n :=
  mb_congr ((congrArg Ctx.mbs (noteDrop_ctx s k k)).trans (modCtx_keeps Ctx.mbs (f := Ctx.countDrop) (fun _ => rfl) s k k)) n

theorem noteDrop_entry (s : State) (k : Nat) (b : Bool) (i : Nat) : (s.noteDrop k).entry k b i = s.entry k b i :=
  entry_congr ((congrArg (Ctx.sluice · b) (noteDrop_ctx s k k)).trans
    (modCtx_keeps (Ctx.sluice · b) (f := Ctx.countDrop) (fun _ => by cases b <;> rfl) s k k)) i

theorem noteDrop_drops (s : State) (k : Nat) : ((s.noteDrop k).ctx k).drops = satAdd 16 (s.ctx k).drops 1 := by
  rw [noteDrop_ctx, modCtx_ctx]
  rfl

/-- A micro-batch that is dropped (R250). -/
def Mb.dropOut (x : Mb) : Mb := { x with
  state := .free, dropped := true, inherited := none, bwdSpec := none, fwdEntry := none, bwdEntry := none,
  tag := 0, pins := [] }

/-- A micro-batch that is rewound (R263). -/
def Mb.rewind (x : Mb) : Mb := { x with state := .forward, dropped := true, bwdSpec := none, bwdEntry := none }

/-- A micro-batch that is released (R261). -/
def Mb.release (x : Mb) : Mb := { x with
  state := .free, inherited := none, bwdSpec := none, fwdEntry := none, bwdEntry := none, tag := 0 }

/-- The forward and the backward entry of a micro-batch leave it by a drop. -/
def State.dropEntries (s : State) (k : Nat) (x : Mb) : State :=
  (s.discardHeld k true x.bwdEntry).giveBack k x.fwdEntry

/-- Its pins are given back and its commands aborted. -/
def State.strip (s : State) (k m : Nat) : State :=
  (s.unpinLayers k m ((s.mb k m).pins.map (·.1))).abortMbCmds k m

theorem dropMb_eq (s : State) (k m : Nat) : s.dropMb k m =
    ((((s.strip k m).dropEntries k (s.mb k m)).modMb k m (·.dropOut)).freeReservation k m).noteDrop k := rfl

theorem rewindMb_eq (s : State) (k m : Nat) : s.rewindMb k m =
    (((s.abortMbCmds k m).discardHeld k true (s.mb k m).bwdEntry).modMb k m (·.rewind)).noteDrop k := rfl

theorem dropEntries_mb (s : State) (k : Nat) (x : Mb) (n : Nat) : (s.dropEntries k x).mb k n = s.mb k n :=
  mb_congr ((giveBack_keeps aside_mbs ..).trans (discardHeld_keeps aside_mbs ..)) n

theorem dropEntries_drops (s : State) (k : Nat) (x : Mb) : ((s.dropEntries k x).ctx k).drops = (s.ctx k).drops :=
  (giveBack_keeps aside_drops ..).trans (discardHeld_keeps aside_drops ..)

theorem keepsCommands_dropEntries (s : State) (k : Nat) (x : Mb) : KeepsCommands s (s.dropEntries k x) :=
  (discardHeld_across keepsCommands_across ..).trans (giveBack_across keepsCommands_across ..)

theorem dropEntries_bwd {x : Mb} {e : Nat} (h : x.bwdEntry = some e) : (s.dropEntries k x).entry k true e = {} := by
  have hback := giveBack_keeps (aside_sluice (b := true) (by simp)) (s.discardHeld k true x.bwdEntry) k x.fwdEntry k
  rw [State.dropEntries, entry_congr hback, h, discardHeld_entry]

theorem dropEntries_fwd {x : Mb} {e : Nat} (h : x.fwdEntry = some e) :
    ((s.entry k false e).spec = true → ((s.dropEntries k x).entry k false e).state = .empty) ∧
    ((s.entry k false e).spec = false → ((s.dropEntries k x).entry k false e).state = .ready ∧
      ((s.dropEntries k x).entry k false e).returned = true) := by
  have hkept : (s.discardHeld k true x.bwdEntry).entry k false e = s.entry k false e :=
    entry_congr (discardHeld_keeps (aside_sluice (b := false) (by simp)) s k x.bwdEntry k) e
  rw [State.dropEntries, h, ← hkept]
  exact ⟨fun hspec => by rw [giveBack_entry_of_spec hspec], fun hsound => giveBack_entry_of_sound hsound⟩

end Ends

/-- The end of a drop or of a rewind: the micro-batch as it is then, and the drop counted. -/
def State.endDrop (s : State) (k m : Nat) (f : Mb → Mb) : State := (s.modMb k m f).noteDrop k

section EndDrop

variable (s : State) (k m : Nat) (f : Mb → Mb)

theorem keepsCommands_endDrop : KeepsCommands s (s.endDrop k m f) :=
  (keepsCommands_modCtx ..).trans (keepsCommands_noteDrop ..)

theorem endDrop_mb : (s.endDrop k m f).mb k m = f (s.mb k m) := by rw [State.endDrop, noteDrop_mb, modMb_mb]

theorem endDrop_mb_ne {n : Nat} (h : n ≠ m) : (s.endDrop k m f).mb k n = s.mb k n := by
  rw [State.endDrop, noteDrop_mb, modMb_mb_ne _ _ _ h]

theorem endDrop_entry (b : Bool) (i : Nat) : (s.endDrop k m f).entry k b i = s.entry k b i := by
  rw [State.endDrop, noteDrop_entry, modMb_entry]

theorem endDrop_drops : ((s.endDrop k m f).ctx k).drops = satAdd 16 (s.ctx k).drops 1 := by
  rw [State.endDrop, noteDrop_drops, modMb_drops]

end EndDrop

/-! ### Drops and rewinds -/

section Drops

variable {s : State} {k m : Nat} (hring : ∀ d ∈ (s.ring (k + 1)).cmds, d.ring = k + 1)

include hring

/-- Pins that are given back leave the commands of the context's ring their ring. -/
theorem unpinLayers_ring (ls : List Nat) : ∀ d ∈ ((s.unpinLayers k m ls).ring (k + 1)).cmds, d.ring = k + 1 := by
  intro d hd
  obtain ⟨e, he, heq⟩ := (unpinLayers_keeps s k m ls).1.exists_of_mem hd
  exact (congrArg Cmd.ring heq :).trans (hring e he)

theorem strip_pins : SameButPins k m s (s.strip k m) :=
  (unpinLayers_keeps s k m _).2.trans (abortCmds_pins (mbCmds_namesMb (unpinLayers_ring hring _)) _)

variable {t : State} (hkept : KeepsCommands (s.strip k m) t)

include hkept

theorem findCmd_of_stripped {d : Cmd} (h : d ∈ s.mbCmds k m) : t.findCmd d.ref = none := by
  obtain ⟨e, he, heq⟩ := (unpinLayers_keeps s k m ((s.mb k m).pins.map (·.1))).1.symm.exists_mbCmd h
  rw [show d.ref = e.ref from (congrArg Cmd.ref heq :)]
  exact findCmd_of_aborted (unpinLayers_ring hring _) hkept he

theorem stashHeld_of_stripped : t.stashHeld k m = false := stashHeld_of_aborted (unpinLayers_ring hring _) hkept

theorem slot_of_stripped {d : Cmd} (h : d ∈ s.mbCmds k m) (htraced : d.silent = false) {j : Nat} {x : Slot}
    (hslot : d.slot = some j) (hx : s.slot (k + 1) j = some x) (hmarked : x.marked = false) :
    ∃ y, t.slot (k + 1) j = some y ∧ y.ready = true ∧ y.status = .aborted := by
  have hunpin := (unpinLayers_keeps s k m ((s.mb k m).pins.map (·.1))).1
  obtain ⟨e, he, heq⟩ := hunpin.symm.exists_mbCmd h
  have hx' : (s.unpinLayers k m ((s.mb k m).pins.map (·.1))).slot (k + 1) j = some x :=
    (congrArg (tabFind · (slotKey (k + 1) j)) hunpin.slots).trans hx
  obtain ⟨y, hy, -, hready, hstatus⟩ := abortCmds_slot (mbCmds_namesMb (unpinLayers_ring hring _)) he
    ((congrArg Cmd.silent heq.symm).trans htraced) ((congrArg Cmd.slot heq.symm).trans hslot) hx' hmarked
  exact ⟨y, (congrArg (tabFind · (slotKey (k + 1) j)) hkept.slots).trans hy, hready, hstatus⟩

end Drops

section Dropped

variable {s : State} {k m : Nat}

/-- What is left of a drop once the commands are aborted: the entries, the micro-batch itself, and its reservation,
which no DRAIN holds any more. -/
theorem dropMb_of_stripped (hring : ∀ d ∈ (s.ring (k + 1)).cmds, d.ring = k + 1) : s.dropMb k m =
    (((s.strip k m).dropEntries k (s.mb k m)).modMb k m (·.dropOut)).endDrop k m (·.unreserved) := by
  have hkept : KeepsCommands (s.strip k m) (((s.strip k m).dropEntries k (s.mb k m)).modMb k m (·.dropOut)) :=
    (keepsCommands_dropEntries ..).trans (keepsCommands_modCtx ..)
  rw [dropMb_eq, freeReservation_of_free (stashHeld_of_stripped hring hkept), State.endDrop]

variable (hring : ∀ d ∈ (s.ring (k + 1)).cmds, d.ring = k + 1)

include hring

theorem keepsCommands_dropMb : KeepsCommands (s.strip k m) (s.dropMb k m) := by
  rw [dropMb_of_stripped hring]
  exact ((keepsCommands_dropEntries ..).trans (keepsCommands_modCtx ..)).trans (keepsCommands_endDrop ..)

theorem dropMb_mb : (s.dropMb k m).mb k m =
    (((s.strip k m).dropEntries k (s.mb k m)).mb k m).dropOut.unreserved := by
  rw [dropMb_of_stripped hring, endDrop_mb, modMb_mb]

theorem dropMb_mb_ne {n : Nat} (h : n ≠ m) : (s.dropMb k m).mb k n = s.mb k n := by
  rw [dropMb_of_stripped hring, endDrop_mb_ne _ _ _ _ h, modMb_mb_ne _ _ _ h, dropEntries_mb, (strip_pins hring).others n h]

theorem dropMb_drops : ((s.dropMb k m).ctx k).drops = satAdd 16 (s.ctx k).drops 1 := by
  rw [dropMb_of_stripped hring, endDrop_drops, modMb_drops, dropEntries_drops, (strip_pins hring).drops]

theorem dropMb_entry (b : Bool) (i : Nat) :
    (s.dropMb k m).entry k b i = ((s.strip k m).dropEntries k (s.mb k m)).entry k b i := by
  rw [dropMb_of_stripped hring, endDrop_entry, modMb_entry]

theorem dropMb_fwd {e : Nat} (h : (s.mb k m).fwdEntry = some e) :
    ((s.entry k false e).spec = true → ((s.dropMb k m).entry k false e).state = .empty) ∧
    ((s.entry k false e).spec = false → ((s.dropMb k m).entry k false e).state = .ready ∧
      ((s.dropMb k m).entry k false e).returned = true) := by
  rw [dropMb_entry hring, ← (strip_pins hring).entry]
  exact dropEntries_fwd h

end Dropped

section Rewound

variable {s : State} {k m : Nat}

theorem rewindMb_of_aborted (s : State) (k m : Nat) : s.rewindMb k m =
    ((s.abortMbCmds k m).discardHeld k true (s.mb k m).bwdEntry).endDrop k m (·.rewind) := rfl

theorem keepsCommands_rewindMb (s : State) (k m : Nat) : KeepsCommands (s.abortMbCmds k m) (s.rewindMb k m) :=
  (discardHeld_across keepsCommands_across ..).trans (keepsCommands_endDrop ..)

theorem discardHeld_mb (s : State) (k : Nat) (bwd : Bool) (o : Option Nat) (n : Nat) :
    (s.discardHeld k bwd o).mb k n = s.mb k n := mb_congr (discardHeld_keeps aside_mbs ..) n

theorem rewindMb_mb (s : State) (k m : Nat) : (s.rewindMb k m).mb k m = ((s.abortMbCmds k m).mb k m).rewind := by
  rw [rewindMb_of_aborted, endDrop_mb, discardHeld_mb]

theorem rewindMb_bwd {e : Nat} (h : (s.mb k m).bwdEntry = some e) : (s.rewindMb k m).entry k true e = {} := by
  rw [rewindMb_of_aborted, endDrop_entry, h, discardHeld_entry]

variable (hring : ∀ d ∈ (s.ring (k + 1)).cmds, d.ring = k + 1)

include hring

theorem abortMbCmds_pins : SameButPins k m s (s.abortMbCmds k m) := abortCmds_pins (mbCmds_namesMb hring) s

theorem rewindMb_mb_ne {n : Nat} (h : n ≠ m) : (s.rewindMb k m).mb k n = s.mb k n := by
  rw [rewindMb_of_aborted, endDrop_mb_ne _ _ _ _ h, discardHeld_mb, (abortMbCmds_pins hring).others n h]

theorem rewindMb_drops : ((s.rewindMb k m).ctx k).drops = satAdd 16 (s.ctx k).drops 1 := by
  rw [rewindMb_of_aborted, endDrop_drops, discardHeld_keeps aside_drops, (abortMbCmds_pins hring).drops]

end Rewound

/-! ### MB_RELEASE and its effect (R248, R261) -/

section Releases

variable {s u : State} {c : Cmd} {dt : Nat} {r : Fin 17}

theorem exec_mbRelease (dt : Nat) (r : Fin 17) (s : State) : exec (.mbRelease dt r) s = execMbRelease dt r s := rfl

theorem exec_releaseEffect (dt : Nat) (k : Fin 16) (m : Fin 64) (s : State) :
    exec (.releaseEffect dt k m) s = execReleaseEffect dt k m s := rfl

theorem exec_reservationRelease (dt : Nat) (k : Fin 16) (m : Fin 64) (s : State) :
    exec (.reservationRelease dt k m) s = execReservationRelease dt k m s := rfl

/-- A release that names one of the context's micro-batches waits, unless the micro-batch was dropped. -/
theorem mbRelease_of_checked (hstart : Starts s dt r 0x23 c u) (hmb : c.param 0 1 < 64)
    (hreserved : ∀ i, 1 ≤ i → i < 64 → c.param i 1 = 0)
    (hstate : (u.mb (ctxOfRing r) (c.param 0 1)).state = .forward ∨
      (u.mb (ctxOfRing r) (c.param 0 1)).state = .backward ∨ (u.mb (ctxOfRing r) (c.param 0 1)).gone = true) :
    exec (.mbRelease dt r) s = if (u.mb (ctxOfRing r) (c.param 0 1)).gone then .next (u.complete c .aborted 0 [])
      else .next ((u.modMb (ctxOfRing r) (c.param 0 1) (fun x => { x with state := .releasing })).setWait
        c.ref .release none) := by
  have hzero : reservedFail c 64 [(0, 1)] = [] :=
    reservedFail_eq_nil fun i hi hfree => hreserved i (by have := hfree (0, 1) (by simp); simp at this; omega) hi
  have hok : (decide (c.param 0 1 < 64) && ((u.mb (ctxOfRing r) (c.param 0 1)).state == .forward ||
      (u.mb (ctxOfRing r) (c.param 0 1)).state == .backward || (u.mb (ctxOfRing r) (c.param 0 1)).gone)) = true := by
    rcases hstate with h | h | h <;> simp [hmb, h]
  rw [exec_mbRelease, execMbRelease]
  simp only [hstart.take, hzero, hok]
  rfl

/-- A micro-batch's pins and entries are gone. -/
def State.unentered (s : State) (k m : Nat) : State :=
  ((s.unpinLayers k m ((s.mb k m).pins.map (·.1))).emptyHeld k false (s.mb k m).fwdEntry).emptyHeld k true
    (s.mb k m).bwdEntry

/-- A release whose micro-batch no command and no speculation holds: pins, entries and reservation go. -/
def State.released (s : State) (k m : Nat) : State := ((s.unentered k m).modMb k m (·.release)).freeReservation k m

variable {k : Fin 16} {m : Fin 64}

theorem releaseEffect_of_last (hlast : s.mbCmds k m = [c]) (hop : c.opcode = 0x23)
    (hstate : (s.mb k m).state = .releasing) (hspec : s.mbSpec (s.mb k m) = false) (hbwd : (s.mb k m).bwdSpec = none) :
    exec (.releaseEffect dt k m) s = .next (((s.advance dt).released k m).complete c .ok 0
      (bodyOf [(0, 2, (s.mb k m).pins.length), (4, 4, (s.mb k m).sizeUnits)])) := by
  have hlast' : (s.advance dt).mbCmds k m = [c] := hlast
  have hmb : (s.advance dt).mb k m = s.mb k m := rfl
  have hspec' : (s.advance dt).mbSpec (s.mb k m) = false := hspec
  have hfind : [c].find? (fun d => d.opcode == 0x23) = some c := List.find?_cons_of_pos (by simp [hop])
  rw [exec_releaseEffect, execReleaseEffect]
  simp only [hlast', hfind, hmb, hstate, hspec', hbwd]
  rfl

end Releases

section Released

variable {s : State} {c : Cmd} {k m : Nat} (hfree : s.stashHeld k m = false)

theorem keepsCommands_unentered (s : State) (k m : Nat) : KeepsCommands s (s.unentered k m) :=
  (unpinLayers_keeps ..).1.trans
    ((emptyHeld_across keepsCommands_across ..).trans (emptyHeld_across keepsCommands_across ..))

theorem unentered_mb_ne (s : State) (k : Nat) {m n : Nat} (h : n ≠ m) : (s.unentered k m).mb k n = s.mb k n :=
  (mb_congr ((emptyHeld_keeps aside_mbs ..).trans (emptyHeld_keeps aside_mbs ..)) n).trans
    ((unpinLayers_keeps s k m _).2.others n h)

include hfree

theorem released_eq : s.released k m = ((s.unentered k m).modMb k m (·.release)).modMb k m (·.unreserved) :=
  freeReservation_of_free (((keepsCommands_unentered s k m).trans (keepsCommands_modCtx ..)).stashHeld hfree)

theorem keepsCommands_released : KeepsCommands s (s.released k m) := by
  rw [released_eq hfree]
  exact ((keepsCommands_unentered s k m).trans (keepsCommands_modCtx ..)).trans (keepsCommands_modCtx ..)

theorem released_mb : (s.released k m).mb k m = ((s.unentered k m).mb k m).release.unreserved := by
  rw [released_eq hfree, modMb_mb, modMb_mb]

theorem released_mb_ne {n : Nat} (h : n ≠ m) : (s.released k m).mb k n = s.mb k n := by
  rw [released_eq hfree, modMb_mb_ne _ _ _ h, modMb_mb_ne _ _ _ h, unentered_mb_ne _ _ h]

end Released

/-- A completion writes no byte of memory but its ring's record (R78). -/
theorem complete_sameBut (s : State) (c : Cmd) (st : Status) (detail : Nat) (body : List Byte) :
    SameBut s (s.complete c st detail body) (hostKey (s.ring c.ring).wbAddr.toNat) 16 := by
  intro x hx
  cases hsilent : c.silent with
  | true => rw [complete_of_silent hsilent, leaveRing_eq]
  | false =>
    rw [complete_mem hsilent]
    split
    · exact memRead_memWriteBytes_out _ _ _ _ (by rwa [writeBackRecord_length])
    · rfl

/-! ### FREE_IN (R259, R263) -/

/-- An entry that a micro-batch frees is EMPTY, or FREEING where the micro-batch is speculative. -/
theorem freeEntry_entry {s : State} {k m e : Nat} {bwd : Bool}
    (h : (if bwd then (s.mb k m).bwdEntry else (s.mb k m).fwdEntry) = some e) :
    ((s.freeEntry k m bwd).entry k bwd e).state =
      if s.mbSpec (s.mb k m) || (s.mb k m).bwdSpec.isSome then .freeing else .empty := by
  unfold State.freeEntry
  dsimp only
  rw [h]
  dsimp only
  split
  · rw [modEntry_entry]
  · rw [emptyEntry_entry]

end Sys2Proof.Machine
end

section
/-! PROOF. Idle accounting of the stage contexts (chapter 12): what a sample changes, and the causes that it names. -/

namespace Sys2Proof.Machine

/-! ### Samples (R265) -/

section Samples

variable {s t u : State} {k : Nat}

/-- Two states that differ at most in the contexts, the engines and the free values drawn. -/
def SameButSamples (s t : State) : Prop := t = { s with ctxs := t.ctxs, dies := t.dies, fresh := t.fresh }

theorem SameButSamples.rfl : SameButSamples s s := Eq.refl s

theorem SameButSamples.trans (hst : SameButSamples s t) (htu : SameButSamples t u) : SameButSamples s u :=
  Eq.trans htu (congrArg (fun x : State => { x with ctxs := u.ctxs, dies := u.dies, fresh := u.fresh }) hst)

theorem SameButSamples.tide (h : SameButSamples s t) : t.tide = s.tide := (congrArg State.tide h :)

theorem sampleEngines_keeps (s : State) (k : Nat) :
    SameButSamples s (s.sampleEngines k) ∧ ∀ n, (s.sampleEngines k).ctx n = s.ctx n := by
  refine foldl_keeps (R := fun s t => SameButSamples s t ∧ ∀ n, t.ctx n = s.ctx n) (fun s => ⟨.rfl, fun _ => rfl⟩)
    (fun _ _ _ hst htu => ⟨hst.1.trans htu.1, fun n => (htu.2 n).trans (hst.2 n)⟩) (fun s e => ?_) s.dies s
  dsimp only
  split
  · split
    · exact ⟨Eq.refl _, fun _ => rfl⟩
    · exact ⟨.rfl, fun _ => rfl⟩
  · exact ⟨.rfl, fun _ => rfl⟩

/-- A context that was found idle, by a cause if there is one. -/
def Ctx.idled (x : Ctx) (tide : Nat) (cause : Option Nat) : Ctx := { x with
  lastSample := tide
  idleTotal := x.idleTotal + 16
  idle := match cause with
    | some c => if c < 12 then tabMod 0 x.idle c (fun n => n + 16) else x.idle
    | none => x.idle }

/-- A sample of a context. -/
def Ctx.sampled (x : Ctx) (tide : Nat) (busy : Bool) (cause : Option Nat) : Ctx :=
  if busy then { x with lastSample := tide } else x.idled tide cause

theorem sampleCtx_eq (s : State) (k : Nat) : sampleCtx s k = (s.sampleEngines k).modCtx k
    (·.sampled s.tide (ctxBusy (s.sampleEngines k) k) (idleCause (s.sampleEngines k) k)) := by
  have htide := (sampleEngines_keeps s k).1.tide
  unfold sampleCtx
  dsimp only
  rw [htide]
  cases ctxBusy (s.sampleEngines k) k <;> rfl

theorem sampleCtx_keeps (s : State) (k : Nat) :
    SameButSamples s (sampleCtx s k) ∧ ∀ n, n ≠ k → (sampleCtx s k).ctx n = s.ctx n := by
  obtain ⟨hsame, hctx⟩ := sampleEngines_keeps s k
  rw [sampleCtx_eq]
  exact ⟨hsame.trans (Eq.refl _), fun n hn => (modCtx_ctx_ne _ _ _ _ hn).trans (hctx n)⟩

theorem sampleCtx_ctx (s : State) (k : Nat) : (sampleCtx s k).ctx k =
    (s.ctx k).sampled s.tide (ctxBusy (s.sampleEngines k) k) (idleCause (s.sampleEngines k) k) := by
  rw [sampleCtx_eq, modCtx_ctx, (sampleEngines_keeps s k).2]

theorem sampled_lastSample (x : Ctx) (tide : Nat) (busy : Bool) (cause : Option Nat) :
    (x.sampled tide busy cause).lastSample = tide := by
  cases busy <;> rfl

/-- An idle context counts 16 ticks under its cause, if the cause has a counter (R266). -/
theorem idled_counts (x : Ctx) (tide : Nat) (cause : Option Nat) (n : Nat) :
    tabGet 0 (x.idled tide cause).idle n = tabGet 0 x.idle n + if cause = some n ∧ n < 12 then 16 else 0 := by
  cases cause with
  | none => simp [Ctx.idled]
  | some c =>
    by_cases hn : n = c
    · subst hn
      by_cases hc : n < 12 <;> simp [Ctx.idled, hc]
    · have hother : ¬(some c = some n ∧ n < 12) := fun h => hn (Option.some.inj h.1).symm
      rw [if_neg hother, Nat.add_zero, Ctx.idled]
      dsimp only
      split
      · exact tabGet_tabMod_ne _ _ _ _ _ hn
      · rfl

/-- Each of these contexts is sampled. -/
def State.sampleAll (s : State) (ks : List Nat) : State := ks.foldl sampleCtx s

theorem sampleAll_keeps (s : State) (ks : List Nat) :
    SameButSamples s (s.sampleAll ks) ∧ ∀ n, n ∉ ks → (s.sampleAll ks).ctx n = s.ctx n := by
  induction ks generalizing s with
  | nil => exact ⟨.rfl, fun _ _ => rfl⟩
  | cons k ks ih =>
    obtain ⟨hsame, hctx⟩ := sampleCtx_keeps s k
    obtain ⟨hrest, hothers⟩ := ih (sampleCtx s k)
    refine ⟨hsame.trans hrest, fun n hn => ?_⟩
    obtain ⟨hne, hmem⟩ := not_or.mp (List.mem_cons.not.mp hn)
    exact (hothers n hmem).trans (hctx n hne)

theorem sampleAll_lastSample {ks : List Nat} (h : k ∈ ks) : ((s.sampleAll ks).ctx k).lastSample = s.tide := by
  induction ks generalizing s with
  | nil => exact absurd h List.not_mem_nil
  | cons j ks ih =>
    by_cases hk : k ∈ ks
    · exact (ih hk).trans (sampleCtx_keeps s j).1.tide
    · have hj : k = j := (List.mem_cons.mp h).resolve_right hk
      subst hj
      have hctx : (s.sampleAll (k :: ks)).ctx k = (sampleCtx s k).ctx k := (sampleAll_keeps (sampleCtx s k) ks).2 k hk
      rw [hctx, sampleCtx_ctx, sampled_lastSample]

theorem exec_idleSample (dt : Nat) (s : State) : exec (.idleSample dt) s = execIdleSample dt s := rfl

/-- The contexts whose last sample lies 16 ticks back. -/
def State.samplesDue (s : State) : List Nat :=
  (List.range 16).filter (fun k => decide ((s.ctx k).lastSample + 16 ≤ s.tide))

theorem mem_samplesDue : k ∈ s.samplesDue ↔ k < 16 ∧ (s.ctx k).lastSample + 16 ≤ s.tide := by
  simp [State.samplesDue]

theorem samplesDue_eq_singleton (hk : k < 16) (hdue : (s.ctx k).lastSample + 16 ≤ s.tide)
    (hothers : ∀ j, j < 16 → j ≠ k → s.tide < (s.ctx j).lastSample + 16) : s.samplesDue = [k] := by
  have hnodup : s.samplesDue.Nodup := List.nodup_range.filter _
  refine List.perm_singleton.mp ((List.perm_ext_iff_of_nodup hnodup (List.nodup_singleton k)).mpr fun j => ?_)
  rw [mem_samplesDue, List.mem_singleton]
  refine ⟨fun ⟨hj, hjdue⟩ => ?_, fun hj => hj ▸ ⟨hk, hdue⟩⟩
  by_contra hne
  have := hothers j hj hne
  omega

theorem idleSample_of_ready {dt : Nat} (h : s.power.ready = true) :
    exec (.idleSample dt) s = .next ((s.advance dt).sampleAll (s.advance dt).samplesDue) := by
  have h' : (s.advance dt).power.ready = true := h
  rw [exec_idleSample, execIdleSample, h']
  rfl

end Samples

/-! ### Causes (R266) -/

section Causes

variable {s : State} {k : Nat} {c : Cmd}

theorem idleCause_of_empty (h : (s.ring (k + 1)).cmds = []) : idleCause s k = some 8 := by
  unfold idleCause
  simp [h]

theorem idleCause_of_paused (h : ∃ d ∈ (s.ring (k + 1)).cmds, heldByPause s d = true) : idleCause s k = some 0xA :=
  if_pos (List.any_eq_true.mpr h)

/-- The cause that a wait gives by itself: what an admission lacks, and the fixed causes of the table. -/
def waitCause (s : State) (c : Cmd) : WaitFor → Option Nat
  | .admission =>
    if c.param 1 1 = 1 then some 1
    else match s.admitAnswer c with
      | .lacks n => some n
      | _ => none
  | .pins => some 3
  | .holds => some 3
  | .coll => some 4
  | .owners => some 5
  | .credit => some 7
  | .prefetchClose => some 0xB
  | _ => none

variable (hpause : heldByPause s c = false)

include hpause

/-- A command that waits is held by the cause of its wait, where neither a pause nor a cut of a route holds it. -/
theorem heldBy_of_waiting {w : WaitFor} {n : Nat} (hwork : c.work = .waiting w) (hcause : waitCause s c w = some n)
    (hcut : (heldRanges s c).2.any (fun r => s.rangeCut (heldRanges s c).1 r.1 r.2) = false) :
    heldBy s k 20 c = some (some n) := by
  have hpower : heldByPower s c = false := by rw [heldByPower, hwork]
  rw [show (20 : Nat) = 19 + 1 from rfl, heldBy]
  simp only [hpause, hcut, hpower, hwork, Bool.false_eq_true, if_false]
  cases w with
  | admission =>
    rw [waitCause] at hcause
    dsimp only
    split at hcause
    · next hback => rw [if_pos hback, hcause]
    · next hforward =>
      rw [if_neg hforward]
      cases hanswer : s.admitAnswer c with
      | lacks m => rw [hanswer] at hcause; exact congrArg some hcause
      | _ => rw [hanswer] at hcause; cases hcause
  | pins | holds | coll | owners | credit | prefetchClose => exact congrArg some hcause
  | _ => cases hcause

/-- A lone command that has started, and that nothing pauses, gives the cause of what holds it. -/
theorem idleCause_of_lone (hlone : (s.ring (k + 1)).cmds = [c]) (hstart : c.start.isSome = true)
    (hpower : ∀ d, c.namesDie = some d → s.diePaused d = false) {o : Option Nat} (hheld : heldBy s k 20 c = some o) :
    idleCause s k = o := by
  have hstarted : c.start.isNone = false := by
    rw [← Option.not_isSome, hstart]
    rfl
  unfold idleCause
  simp only [hlone, List.any_cons, List.any_nil, hpause, hstarted, Bool.false_and, Bool.or_false, Bool.false_eq_true,
    if_false, List.filter_cons, hheld, Option.isSome_some, Bool.or_true, if_true, Option.join_some]
  refine if_neg ?_
  cases hnames : c.namesDie with
  | none => simp
  | some d => simp [hpower d hnames]

end Causes

/-- Settles O38: a release and a drop give back pins and entries without touching another command or micro-batch; what an
abort takes from its ring is not found again; a sample changes its own context, by the cause that the table gives. -/
theorem microBatchesAreReleased : Obligations.MicroBatchesAreReleased := by
  refine fun dt s u c => ⟨?_, ?_, ?_, ?_, ?_, ?_, ?_, ?_, ?_⟩
  · rintro r m hstart rfl hmb hreserved
    refine ⟨fun hstate => ?_, fun hgone => ?_⟩
    · have hkept : (u.mb (ctxOfRing r) (c.param 0 1)).gone = false := by
        rcases hstate with h | h <;> simp [Mb.gone, h]
      rw [mbRelease_of_checked hstart hmb hreserved (hstate.imp_right .inl), if_neg (by simp [hkept])]
    · rw [mbRelease_of_checked hstart hmb hreserved (.inr (.inr hgone)), if_pos hgone]
  · intro k m hlast hop hstate hspec hbwd
    have hfree : (s.advance dt).stashHeld k m = false := by
      rw [State.stashHeld, show (s.advance dt).mbCmds k m = [c] from hlast]
      simp [hop]
    have hkept := keepsCommands_released hfree
    have hmb (n : Nat) (body : List Byte) : (((s.advance dt).released k m).complete c .ok 0 body).mb k n =
        ((s.advance dt).released k m).mb k n := (sameButCompletions_complete ..).mb k n
    refine ⟨_, releaseEffect_of_last hlast hop hstate hspec hbwd, ?_, ?_, ?_, ?_, fun n hn => ?_, fun x hx => ?_⟩
    · rw [hmb, released_mb hfree]
      rfl
    · rw [hmb, released_mb hfree]
      rfl
    · rw [hmb, released_mb hfree]
      rfl
    · rw [hmb, released_mb hfree]
      rfl
    · rw [hmb, released_mb_ne hfree hn]
      rfl
    · have hbook : (((s.advance dt).released k m).ring c.ring).wbAddr = (s.ring c.ring).wbAddr := by
        rw [hkept.books]
        rfl
      rw [← hbook] at hx
      rw [complete_sameBut _ _ _ _ _ x hx, hkept.mem]
      rfl
  · intro k m hreleasing hfree
    have hcond : (((s.advance dt).mb k m).releasing && !(s.advance dt).stashHeld k m) = true := by
      have hfree' : (s.advance dt).stashHeld k m = false := hfree
      have hreleasing' : ((s.advance dt).mb k m).releasing = true := hreleasing
      rw [hfree', hreleasing']
      rfl
    rw [exec_reservationRelease, execReservationRelease, if_pos hcond,
      freeReservation_of_free (s := s.advance dt) hfree]
    rfl
  · rintro k m t hring rfl
    have hkept := keepsCommands_dropMb (m := m) hring
    have hmb := dropMb_mb (m := m) hring
    refine ⟨congrArg Mb.state hmb, congrArg Mb.dropped hmb, congrArg Mb.pins hmb, congrArg Mb.sizeUnits hmb,
      congrArg Mb.fwdEntry hmb, congrArg Mb.bwdEntry hmb, fun n hn => dropMb_mb_ne hring hn, dropMb_drops hring,
      fun d hd => findCmd_of_stripped hring hkept hd,
      fun d hd j x htraced hslot hx hmarked => slot_of_stripped hring hkept hd htraced hslot hx hmarked,
      fun e he => ?_, fun e he => dropMb_fwd hring he⟩
    rw [dropMb_entry hring, dropEntries_bwd he]
  · rintro k m t hring rfl
    have hpins := abortMbCmds_pins (m := m) hring
    have hmb := (rewindMb_mb s k m).trans (congrArg Mb.rewind hpins.mb)
    refine ⟨congrArg Mb.state hmb, congrArg Mb.dropped hmb, congrArg Mb.bwdEntry hmb,
      (congrArg Mb.fwdEntry hmb :), (congrArg Mb.sizeUnits hmb :), (congrArg Mb.baseUnits hmb :),
      fun n hn => rewindMb_mb_ne hring hn, rewindMb_drops hring,
      fun d hd => findCmd_of_aborted hring (keepsCommands_rewindMb s k m) hd, fun e he => ?_, fun hwork => ?_⟩
    · rw [rewindMb_bwd he]
    · exact (congrArg Mb.pins (rewindMb_mb s k m)).trans (congrArg Mb.pins (abortCmds_mb hwork k m) :)
  · rintro k m e bwd spec rfl hentry
    exact freeEntry_entry hentry
  · intro hready
    obtain ⟨hsame, hothers⟩ := sampleAll_keeps (s.advance dt) (s.advance dt).samplesDue
    refine ⟨_, idleSample_of_ready hready, hsame, fun k => ⟨fun hdue => ?_, fun hrecent => ?_⟩⟩
    · exact sampleAll_lastSample (mem_samplesDue.mpr ⟨k.isLt, hdue⟩)
    · refine hothers k fun hmem => ?_
      have : (s.ctx k).lastSample + 16 ≤ (s.advance dt).tide := (mem_samplesDue.mp hmem).2
      omega
  · rintro k v hready rfl hdue hothers
    have hexec := idleSample_of_ready (dt := dt) hready
    rw [samplesDue_eq_singleton (s := s.advance dt) k.isLt hdue hothers] at hexec
    refine ⟨_, hexec, fun hbusy => ?_, fun hidle => ?_⟩
    · refine (sampleCtx_ctx (s.advance dt) k).trans ?_
      rw [hbusy]
      rfl
    · have hctx := sampleCtx_ctx (s.advance dt) k
      rw [hidle] at hctx
      exact ⟨congrArg Ctx.idleTotal hctx, fun n => (congrArg (tabGet 0 ·.idle n) hctx).trans (idled_counts ..)⟩
  · refine fun k => ⟨idleCause_of_empty, idleCause_of_paused, fun hlone hpause hstart hpower hcut => ?_⟩
    have hcause {w : WaitFor} {n : Nat} (hwork : c.work = .waiting w) (hn : waitCause s c w = some n) :
        idleCause s k = some n :=
      idleCause_of_lone hpause hlone hstart hpower (heldBy_of_waiting hpause hwork hn hcut)
    refine ⟨fun hwork hback => hcause hwork (if_pos hback), fun n hwork hforward hlacks => hcause hwork ?_,
      fun hwork => hwork.elim (hcause · rfl) (hcause · rfl), (hcause · rfl), (hcause · rfl), (hcause · rfl),
      (hcause · rfl)⟩
    rw [waitCause, if_neg (by simp [hforward]), hlacks]

end Sys2Proof.Machine
end

section
/-! PROOF. The instructions of the update engine (chapter 13): arithmetic lane by lane, the stores, and the ends of an
element. -/

namespace Sys2Proof.Machine

/-! ### Two states that differ in memory alone -/

/-- Two states that differ at most in memory and its poison. -/
def SameButMemory (s t : State) : Prop := t = { s with mem := t.mem, poison := t.poison }

section Memory

variable {s t u : State}

theorem SameButMemory.rfl : SameButMemory s s := Eq.refl s

theorem SameButMemory.trans (hst : SameButMemory s t) (htu : SameButMemory t u) : SameButMemory s u :=
  Eq.trans htu (congrArg (fun x : State => { x with mem := u.mem, poison := u.poison }) hst)

theorem SameButMemory.eq (h : SameButMemory s t) : t = { s with mem := t.mem, poison := t.poison } := h

theorem SameButMemory.layers (h : SameButMemory s t) : t.layers = s.layers := (congrArg State.layers h.eq :)

theorem sameButMemory_write (s : State) (a : Nat) (bs : List Byte) : SameButMemory s (s.write a bs) := Eq.refl _

theorem sameButMemory_writeElems (s : State) (key : Nat) (elems : List (Nat × Nat × Nat)) :
    SameButMemory s (s.writeElems key elems) := by
  unfold State.writeElems
  dsimp only
  have hwrite (x : State) (a : Nat) (bs : List Byte) (h : SameButMemory s x) : SameButMemory s (x.write a bs) :=
    h.trans (sameButMemory_write ..)
  split
  on_goal 2 => refine hwrite _ _ _ ?_
  all_goals
    refine foldl_fst_keeps (R := SameButMemory) (fun _ => .rfl) (fun _ _ _ => .trans) _ (fun x i _ => ?_) (s, _)
    split
    · split
      · exact .rfl
      · exact sameButMemory_write ..
    · exact .rfl

theorem sameButMemory_putWork (s : State) (l : Layer) (slot : Nat) (m : WorkMap) (e0 : Nat) (vals : List W32)
    (rnd : List (Option Nat)) : SameButMemory s (s.putWork l slot m e0 vals rnd).1 := by
  unfold State.putWork
  dsimp only
  split
  · exact (sameButMemory_writeElems ..).trans (sameButMemory_write ..)
  · exact sameButMemory_writeElems ..

theorem advance_write_mem (s : State) (dt a : Nat) (bs : List Byte) :
    ((s.advance dt).write a bs).mem = (s.write a bs).mem :=
  write_mem_congr (s := s) (t := s.advance dt) rfl rfl rfl a bs

theorem f32Bytes_length (xs : List W32) : (f32Bytes xs).length = 4 * xs.length := by
  simp [f32Bytes, toBytes_length, Nat.mul_comm]

end Memory

/-! ### Values that are not finite (R106, R287) -/

section Nonfinite

variable (s : State)

theorem sameButReports_noteNonfinite (source : Nat) : SameButReports
    { s with step := { s.step with localNonfinite := true } } (s.noteNonfinite source) := by
  unfold State.noteNonfinite
  dsimp only
  split
  · exact sameButReports_logRec ..
  · exact .rfl

theorem noteNonfinite_step (source : Nat) :
    (s.noteNonfinite source).step = { s.step with localNonfinite := true } :=
  (congrArg State.step (sameButReports_noteNonfinite s source).eq :)

theorem countUpdNonfinite_zero (c : Cmd) (die : Nat) : s.countUpdNonfinite c die 0 = s := if_pos rfl

theorem countUpdNonfinite_of_some (c : Cmd) (die : Nat) {n : Nat} (h : n ≠ 0) : s.countUpdNonfinite c die n =
    (s.modDie die (fun d => { d with
      updNonfinite := satAdd 32 d.updNonfinite n, updNonfiniteTide := s.tide })).noteNonfinite (srcRing c.ring) :=
  if_neg h

theorem countUpdNonfinite_keeps (c : Cmd) (die n : Nat) : (s.countUpdNonfinite c die n).mem = s.mem ∧
    (s.countUpdNonfinite c die n).poison = s.poison ∧ (s.countUpdNonfinite c die n).layers = s.layers := by
  unfold State.countUpdNonfinite
  split
  · exact ⟨rfl, rfl, rfl⟩
  · have hnote := sameButReports_noteNonfinite (s.modDie die (fun d => { d with
      updNonfinite := satAdd 32 d.updNonfinite n, updNonfiniteTide := s.tide })) (srcRing c.ring)
    obtain ⟨hmem, hpoison, -, -⟩ := hnote.memory
    exact ⟨hmem, hpoison, (congrArg State.layers hnote.eq :)⟩

end Nonfinite

/-! ### The engine of a die -/

section Engines

variable (s : State)

@[simp] theorem setEngine_die (n : Nat) (x : Option Engine) :
    (s.setEngine n x).die n = { s.die n with engine := x } := modDie_die ..

theorem setEngine_die_ne (x : Option Engine) {n m : Nat} (h : m ≠ n) : (s.setEngine n x).die m = s.die m :=
  modDie_die_ne _ _ _ _ h

theorem setEngine_eq (n : Nat) (x : Option Engine) : s.setEngine n x = { s with dies := (s.setEngine n x).dies } := rfl

variable {s} {e : Engine} {c : Cmd} {die op : Nat}

/-- The engine executes its instruction where that has the operation and nothing holds its part. -/
theorem engineStep_of_ready (he : (s.die die).engine = some e) (hc : s.findCmd e.cmd = some c)
    (hheld : s.partHeld (updP c) e.nstate = false) (hop : iOp (e.prog.getD e.pc 0) = op)
    (f : Engine → Cmd → W32 → State) : s.engineStep die op f = .next (f e c (e.prog.getD e.pc 0)) := by
  have hguard : (decide (iOp (e.prog.getD e.pc 0) = op) && !s.partHeld (updP c) e.nstate) = true := by
    rw [hop, hheld, decide_eq_true rfl]
    rfl
  simp only [State.engineStep, he, hc]
  exact if_pos hguard

end Engines

/-! ### Arithmetic (R280) -/

section Arithmetic

/-- The results of an arithmetic instruction, one of each lane. -/
def Engine.results (e : Engine) (w : W32) (g : W32 → W32 → W32 → W32 → Nat → W32) : List W32 :=
  (List.range e.lanes).map (fun i =>
    g (e.operand (iA w) i) (e.operand (iB w) i) (e.operand (iC w) i) (e.operand (iD w) i) (iX w))

/-- The engine with the results in register D, at its next instruction. -/
def Engine.computed (e : Engine) (w : W32) (g : W32 → W32 → W32 → W32 → Nat → W32) : Engine :=
  { e with regs := tabSet e.regs (iD w) (e.results w g), pc := e.pc + 1 }

variable {s : State} {e : Engine} {c : Cmd} {die op : Nat} {w : W32} {g : W32 → W32 → W32 → W32 → Nat → W32}

theorem computed_lane {lane : Nat} (h : lane < e.lanes) : (tabGet [] (e.computed w g).regs (iD w)).getD lane 0 =
    g (e.operand (iA w) lane) (e.operand (iB w) lane) (e.operand (iC w) lane) (e.operand (iD w) lane) (iX w) := by
  rw [Engine.computed, tabGet_tabSet_same]
  simp [Engine.results, h]

theorem computed_other {k : Nat} (h : k ≠ iD w) : tabGet [] (e.computed w g).regs k = tabGet [] e.regs k :=
  tabGet_tabSet_ne _ _ _ _ _ h

theorem alu_of_ready (he : (s.die die).engine = some e) (hc : s.findCmd e.cmd = some c)
    (hheld : s.partHeld (updP c) e.nstate = false) (hop : iOp (e.prog.getD e.pc 0) = op) :
    s.alu die op g = .next (s.setEngine die (some (e.computed (e.prog.getD e.pc 0) g))) :=
  engineStep_of_ready he hc hheld hop _

end Arithmetic

/-- Settles O43: each of the eleven rows is the one shared step with its own function, and that step changes register D
and the program counter of its die's engine. -/
theorem engineArithmetic : Obligations.EngineArithmetic := by
  intro dt die s e c w i op g he hc hheld hw hop hrow
  subst hw
  have hexec : exec i s = (s.advance dt).alu die op g := by
    rcases hrow with h | h | h | h | h | h | h | h | h | h | h
    all_goals
      obtain ⟨rfl, rfl, rfl⟩ := h
      rfl
  refine ⟨_, e.computed (e.prog.getD e.pc 0) g, hexec.trans (alu_of_ready he hc hheld hop), ?_,
    fun _ => computed_lane, fun _ => computed_other, rfl, fun m hm => setEngine_die_ne _ _ hm,
    setEngine_die .., setEngine_eq ..⟩
  rw [setEngine_die]

/-! ### NACC, STS, STW, NEXTPASS and END (R279 to R282) -/

theorem exec_nacc (dt : Nat) (die : Fin 12) (s : State) : exec (.nacc dt die) s = execNacc dt die s := rfl

theorem exec_sts (dt : Nat) (die : Fin 12) (s : State) : exec (.sts dt die) s = execSts dt die s := rfl

theorem exec_stw (dt : Nat) (die : Fin 12) (s : State) : exec (.stw dt die) s = execStw dt die s := rfl

theorem exec_nextpass (dt : Nat) (die : Fin 12) (s : State) : exec (.nextpass dt die) s = execNextpass dt die s := rfl

theorem exec_endElem (dt : Nat) (die : Fin 12) (s : State) : exec (.endElem dt die) s = execEndElem dt die s := rfl

section Stores

variable {dt : Nat} {die : Fin 12} {s : State} {e : Engine} {c : Cmd}

/-- The norm that NACC adds its lanes' products into. -/
def Engine.norm (e : Engine) (w : W32) : W32 := (List.range e.lanes).foldl
  (fun acc i => f32Fma (e.operand (iA w) i) (e.operand (iB w) i) acc) (e.norms.getD (iX w) 0)

/-- What STS does: the values written at a key, those that are not finite counted, and the engine at its next
instruction. -/
def State.storeWord (s : State) (die : Nat) (c : Cmd) (e : Engine) (key : Nat) (vals : List W32) : State :=
  let bad := (vals.filter f32NonFinite).length
  let s := (s.write key (f32Bytes vals)).countUpdNonfinite c die bad
  s.setEngine die (some { e with
    pc := e.pc + 1, nonfinite := e.nonfinite + bad, banks := s.holdBanks e.banks [key, key + 4 * e.lanes - 1] })

/-- What STW does with the values that it has collected and their random bits. -/
def State.storeWork (s : State) (die : Nat) (c : Cmd) (e : Engine) (l : Layer) (held : List (Nat × W32 × Bool))
    (rnd : List (Option Nat)) : State :=
  let m := (updP c).map
  let first := (held.headD (0, 0, false)).1
  let (s, sats, bad) := s.putWork l e.slotIndex m (m.first + first) (held.map (·.2.1)) rnd
  let s := s.countUpdNonfinite c die bad
  s.setEngine die (some { e with
    mxBlock := [], pc := e.pc + 1, nonfinite := e.nonfinite + bad, saturations := e.saturations + sats,
    banks := s.holdBanks e.banks (m.stored l e.slotIndex first (held.getLastD (0, 0, false)).1) })

theorem storeWord_mem (s : State) (die : Nat) (c : Cmd) (e : Engine) (key : Nat) (vals : List W32) :
    (s.storeWord die c e key vals).mem = (s.write key (f32Bytes vals)).mem := (countUpdNonfinite_keeps ..).1

theorem storeWord_poison (s : State) (die : Nat) (c : Cmd) (e : Engine) (key : Nat) (vals : List W32) :
    (s.storeWord die c e key vals).poison = (s.write key (f32Bytes vals)).poison := (countUpdNonfinite_keeps ..).2.1

theorem storeWord_sameBut (s : State) (die : Nat) (c : Cmd) (e : Engine) (key : Nat) {vals : List W32}
    (h : vals.length = e.lanes) : SameBut s (s.storeWord die c e key vals) key (4 * e.lanes) := by
  intro x hx
  rw [storeWord_mem]
  exact memRead_writeBytes_out _ _ _ _ _ (by rwa [f32Bytes_length, h])

theorem storeWord_of_finite (s : State) (die : Nat) (c : Cmd) (e : Engine) (key : Nat) {vals : List W32}
    (h : ∀ v ∈ vals, f32NonFinite v = false) : (s.storeWord die c e key vals).step = s.step ∧
      ((s.storeWord die c e key vals).die die).updNonfinite = (s.die die).updNonfinite := by
  have hnone : vals.filter f32NonFinite = [] := List.filter_eq_nil_iff.mpr fun v hv => by simp [h v hv]
  simp only [State.storeWord, hnone, List.length_nil, countUpdNonfinite_zero, setEngine_die]
  exact ⟨rfl, rfl⟩

theorem storeWord_of_nonfinite (s : State) (die : Nat) (c : Cmd) (e : Engine) (key : Nat) {vals : List W32}
    (h : ∃ v ∈ vals, f32NonFinite v = true) : (s.storeWord die c e key vals).step.localNonfinite = true := by
  obtain ⟨v, hv, hbad⟩ := h
  have hsome : (vals.filter f32NonFinite).length ≠ 0 :=
    List.length_pos_iff_ne_nil.mpr (List.ne_nil_of_mem (List.mem_filter.mpr ⟨hv, hbad⟩)) |>.ne'
  simp only [State.storeWord, countUpdNonfinite_of_some _ _ _ hsome, State.setEngine, modDie_step, noteNonfinite_step]

theorem storeWork_mem (s : State) (die : Nat) (c : Cmd) (e : Engine) (l : Layer) (held : List (Nat × W32 × Bool))
    (rnd : List (Option Nat)) : (s.storeWork die c e l held rnd).mem = (s.putWork l e.slotIndex (updP c).map
      ((updP c).map.first + (held.headD (0, 0, false)).1) (held.map (·.2.1)) rnd).1.mem :=
  (countUpdNonfinite_keeps ..).1

theorem storeWork_layers (s : State) (die : Nat) (c : Cmd) (e : Engine) (l : Layer) (held : List (Nat × W32 × Bool))
    (rnd : List (Option Nat)) : (s.storeWork die c e l held rnd).layers = s.layers :=
  (countUpdNonfinite_keeps ..).2.2.trans (sameButMemory_putWork ..).layers

variable (he : (s.die die).engine = some e) (hc : s.findCmd e.cmd = some c)
  (hheld : (s.advance dt).partHeld (updP c) e.nstate = false)

include he hc hheld

theorem nacc_of_norm (hop : iOp (e.prog.getD e.pc 0) = 0x0C) (hx : iX (e.prog.getD e.pc 0) ≠ 4) :
    exec (.nacc dt die) s = .next ((s.advance dt).setEngine die (some { e with
      norms := e.norms.set (iX (e.prog.getD e.pc 0)) (e.norm (e.prog.getD e.pc 0)), pc := e.pc + 1 })) := by
  rw [exec_nacc, execNacc]
  exact (engineStep_of_ready (s := s.advance dt) he hc hheld hop _).trans (congrArg _ (if_neg hx))

theorem nacc_of_lanes (hop : iOp (e.prog.getD e.pc 0) = 0x0C) (hx : iX (e.prog.getD e.pc 0) = 4) :
    exec (.nacc dt die) s = .next ((s.advance dt).setEngine die (some { e with
      regs := tabSet e.regs (iD (e.prog.getD e.pc 0)) (List.replicate e.lanes
        (laneDot (e.operand (iA (e.prog.getD e.pc 0))) (e.operand (iB (e.prog.getD e.pc 0)))))
      pc := e.pc + 1 })) := by
  rw [exec_nacc, execNacc]
  exact (engineStep_of_ready (s := s.advance dt) he hc hheld hop _).trans (congrArg _ (if_pos hx))

theorem sts_of_ready (hop : iOp (e.prog.getD e.pc 0) = 0x0D) : exec (.sts dt die) s =
    .next ((s.advance dt).storeWord die c e ((updP c).provisional (s.layer e.layer).stateSel +
      4 * (iX (e.prog.getD e.pc 0) * (updP c).map.count + e.elem))
        ((List.range e.lanes).map (fun i => e.operand (iA (e.prog.getD e.pc 0)) i))) := by
  rw [exec_sts, execSts]
  exact engineStep_of_ready (s := s.advance dt) he hc hheld hop _

/-- The last instruction of pass 1 takes the element after it, or begins pass 2 with its norms (R279). -/
theorem nextpass_of_ready (hop : iOp (e.prog.getD e.pc 0) = 0x0F) : exec (.nextpass dt die) s =
    .next ((s.advance dt).setEngine die (some ((s.advance dt).loadElem (if e.elem + e.lanes < (updP c).map.count then
      { e with elem := e.elem + e.lanes }
      else { e with elem := 0, pass2 := true, s12 := e.norms.getD 0 0, s13 := e.norms.getD 1 0 }) (updP c)))) := by
  rw [exec_nextpass, execNextpass]
  exact engineStep_of_ready (s := s.advance dt) he hc hheld hop _

/-- END counts its elements, and takes the next one or ends the part. -/
theorem endElem_of_ready (hop : iOp (e.prog.getD e.pc 0) = 0) {v : State}
    (hv : v = (s.advance dt).modDie die (fun d => { d with updElements := (d.updElements + e.lanes) % 2 ^ 64 })) :
    exec (.endElem dt die) s = .next (if e.elem + e.lanes < (updP c).map.count then
      v.setEngine die (some (v.loadElem { e with elem := e.elem + e.lanes } (updP c)))
      else v.endPart c (updP c) { e with elem := e.elem + e.lanes }) := by
  subst hv
  rw [exec_endElem, execEndElem]
  exact engineStep_of_ready (s := s.advance dt) he hc hheld hop _

variable {held : List (Nat × W32 × Bool)} (hop : iOp (e.prog.getD e.pc 0) = 0x0E)
  (hvals : held = e.mxBlock ++ (List.range e.lanes).map (fun i =>
    (e.elem + i, e.operand (iA (e.prog.getD e.pc 0)) i, (iX (e.prog.getD e.pc 0)).testBit 0)))

include hop hvals

/-- Values of an MX block that is not whole wait in the engine. -/
theorem stw_of_short (hmx : fmtIsMx (s.layer e.layer).workFmt = true) (hshort : held.length < 32) :
    exec (.stw dt die) s =
      .next ((s.advance dt).setEngine die (some { e with mxBlock := held, pc := e.pc + 1 })) := by
  subst hvals
  rw [exec_stw, execStw]
  refine (engineStep_of_ready (s := s.advance dt) he hc hheld hop _).trans (congrArg _ (if_pos ?_))
  rw [Bool.and_eq_true]
  exact ⟨hmx, decide_eq_true hshort⟩

/-- Values that are whole are stored: with fresh random bits where X asks for them, to nearest even where not. -/
theorem stw_of_whole (hwhole : fmtIsMx (s.layer e.layer).workFmt = false ∨ 32 ≤ held.length) :
    exec (.stw dt die) s = .next (if (iX (e.prog.getD e.pc 0)).testBit 0 then
      ((s.advance dt).draws held.length).2.storeWork die c e (s.layer e.layer) held
        (((s.advance dt).draws held.length).1.map some)
      else (s.advance dt).storeWork die c e (s.layer e.layer) held (held.map (fun _ => none))) := by
  subst hvals
  rw [exec_stw, execStw]
  refine (engineStep_of_ready (s := s.advance dt) he hc hheld hop _).trans (congrArg _ ((if_neg ?_).trans ?_))
  · rw [Bool.and_eq_true]
    rintro ⟨hmx, hshort⟩
    rcases hwhole with h | h
    · exact Bool.false_ne_true (h.symm.trans hmx)
    · exact absurd (of_decide_eq_true hshort) (Nat.not_lt.mpr h)
  · generalize e.mxBlock ++ (List.range e.lanes).map (fun i =>
      (e.elem + i, e.operand (iA (e.prog.getD e.pc 0)) i, (iX (e.prog.getD e.pc 0)).testBit 0)) = held
    cases hrandom : (iX (e.prog.getD e.pc 0)).testBit 0 with
    | true =>
      simp only [if_true, List.length_map]
      rfl
    | false =>
      simp only [Bool.false_eq_true, if_false, List.map_map]
      rfl

end Stores

/-- Settles O44: each row is the shared step with its own effect. A store changes memory by its one write, or by what
`putWork` writes; what it counts and reports stands beside that. -/
theorem engineStores : Obligations.EngineStores := by
  intro dt die s e c w he hc hheld hw
  subst hw
  refine ⟨fun hop hx => nacc_of_norm he hc hheld hop (Nat.ne_of_lt hx), nacc_of_lanes he hc hheld, ?_, ?_,
    fun hop hmore => ?_, fun hop hlast => ?_, fun v hop hv => ⟨fun hmore => ?_, fun hlast => ?_⟩⟩
  · rintro vals key hop hvals rfl
    subst hvals
    refine ⟨_, _, sts_of_ready he hc hheld hop, (storeWord_mem ..).trans (advance_write_mem ..),
      storeWord_sameBut _ _ _ _ _ (by simp), storeWord_poison .., congrArg Die.engine (setEngine_die ..), rfl, rfl,
      rfl, storeWord_of_finite _ _ _ _ _, storeWord_of_nonfinite _ _ _ _ _⟩
  · rintro l held hop hx rfl hvals
    have hbit : decide (iX (e.prog.getD e.pc 0) = 1) = (iX (e.prog.getD e.pc 0)).testBit 0 := by
      generalize iX (e.prog.getD e.pc 0) = x at hx
      interval_cases x <;> rfl
    rw [hbit] at hvals
    refine ⟨stw_of_short he hc hheld hop hvals, fun v rnd hwhole hrandom => ?_⟩
    have hexec := stw_of_whole he hc hheld hop hvals hwhole
    rcases hrandom with ⟨hzero, rfl, rfl⟩ | ⟨hone, rfl, rfl⟩
    · rw [hzero, if_neg (by decide)] at hexec
      exact ⟨_, _, hexec, storeWork_mem .., congrArg Die.engine (setEngine_die ..), rfl, rfl, storeWork_layers ..⟩
    · rw [hone, if_pos (by decide)] at hexec
      exact ⟨_, _, hexec, storeWork_mem .., congrArg Die.engine (setEngine_die ..), rfl, rfl, storeWork_layers ..⟩
  · rw [nextpass_of_ready he hc hheld hop, if_pos hmore]
  · rw [nextpass_of_ready he hc hheld hop, if_neg (Nat.not_lt.mpr hlast)]
  · rw [endElem_of_ready he hc hheld hop hv, if_pos hmore]
  · rw [endElem_of_ready he hc hheld hop hv, if_neg (Nat.not_lt.mpr hlast)]

end Sys2Proof.Machine
end

section
/-! PROOF. PREFETCH_STATE and UPDATE_LAYER (chapter 13): their start, their waits, and the part that takes the
engine. -/

namespace Sys2Proof.Machine

/-! ### The dispatch -/

theorem exec_updateLayer (dt : Nat) (r : Fin 17) (s : State) :
    exec (.updateLayer dt r) s = execUpdateLayer dt r s := rfl

theorem exec_prefetchState (dt : Nat) (r : Fin 17) (seq : W16) (s : State) :
    exec (.prefetchState dt r seq) s = execPrefetchState dt r seq s := rfl

theorem exec_prefetchTimeout (dt : Nat) (r : Fin 17) (seq : W16) (s : State) :
    exec (.prefetchTimeout dt r seq) s = execPrefetchTimeout dt r seq s := rfl

theorem exec_updatePartRun (dt : Nat) (r : Fin 17) (seq : W16) (s : State) :
    exec (.updatePartRun dt r seq) s = execUpdatePartRun dt r seq s := rfl

theorem exec_updateTimeout (dt : Nat) (r : Fin 17) (seq : W16) (s : State) :
    exec (.updateTimeout dt r seq) s = execUpdateTimeout dt r seq s := rfl

/-! ### UPDATE_LAYER starts (R205, R271, R274, R390, R391) -/

section UpdateStarts

variable {dt : Nat} {r : Fin 17} {s u : State} {c : Cmd} (hstart : Starts s dt r 0x40 c u)

include hstart

theorem updateLayer_of_fail {o : Nat} (hfail : firstFail (updChecks u c) = some o) (ho : o ≠ 0x10) :
    exec (.updateLayer dt r) s =
      .next ((u.failWaiting c).complete c .badParam (64 + o) (bodyOf [(3, 1, 0)])) := by
  rw [exec_updateLayer, execUpdateLayer]
  simp [hstart.take, hfail, ho]

variable (hchecks : firstFail (updChecks u c) = none)

include hchecks

theorem updateLayer_of_refused (h : u.dieRefuses (updP c).die = true ∨ u.partServed (updP c) = false) :
    exec (.updateLayer dt r) s = .next ((u.failWaiting c).complete c .faulted 0 []) := by
  have hguard : (u.dieRefuses (updP c).die || !u.partServed (updP c)) = true := by simpa using h
  rw [exec_updateLayer, execUpdateLayer]
  simp only [hstart.take, hchecks, hguard, if_true]

variable (hserves : u.dieRefuses (updP c).die = false) (hserved : u.partServed (updP c) = true)

include hserves hserved

theorem updateLayer_of_held (hwaits : u.dieWaits (updP c).die = true) :
    exec (.updateLayer dt r) s = .next (s.advance dt) := by
  rw [exec_updateLayer, execUpdateLayer]
  simp [hstart.take, hchecks, hserves, hserved, hwaits, State.idle]

theorem updateLayer_of_clean (hfree : u.dieWaits (updP c).die = false) (hclean : u.progPoison (updP c) = none) :
    exec (.updateLayer dt r) s = .next ((u.setWait c.ref .update
      (if c.param 0x3C 4 = 0 then none else some (u.tide + 1000 * c.param 0x3C 4))).modCmd c.ref (fun d => { d with
        aux := [0, u.tide, b2n (updateCause u c).isSome, 0] })) := by
  rw [exec_updateLayer, execUpdateLayer]
  simp [hstart.take, hchecks, hserves, hserved, hfree, hclean]

end UpdateStarts

/-! ### PREFETCH_STATE (R277) -/

section Prefetch

variable {dt : Nat} {r : Fin 17} {s u : State} {c : Cmd}

/-- What a PREFETCH_STATE that passes its checks does as it starts. -/
def State.startPrefetch (s : State) (c : Cmd) : State :=
  if s.dieRefuses (c.param 0 1) then s.complete c .faulted 0 []
  else if (s.layer (c.param 2 2)).hasProvisional || (s.stagedServed c && s.stagedHeld c) then
    s.setWait c.ref .prefetchClose (if c.param 0x28 4 = 0 then none else some (s.tide + 1000 * c.param 0x28 4))
  else if !s.stagedServed c then s.complete c .faulted 0 []
  else s.stageCopy c

theorem prefetchState_of_pass (hstart : Starts s dt r 0x33 c u)
    (hfresh : ∀ d ∈ (s.ring r).cmds, d.seq = c.seq → d.start = none)
    (hchecks : lowestFail (prefetchChecks u c) = none) :
    exec (.prefetchState dt r c.seq) s = .next (u.startPrefetch c) := by
  rw [exec_prefetchState, execPrefetchState, startOrGo_of_take _ _ hstart.take hfresh]
  simp only [hchecks]
  rfl

theorem startPrefetch_of_refused (h : u.dieRefuses (c.param 0 1) = true ∨
    ((u.layer (c.param 2 2)).hasProvisional = false ∧ u.stagedServed c = false)) :
    u.startPrefetch c = u.complete c .faulted 0 [] := by
  rw [State.startPrefetch]
  rcases h with h | ⟨hprov, hserved⟩
  · exact if_pos h
  · simp [hprov, hserved]

theorem startPrefetch_of_free (hserves : u.dieRefuses (c.param 0 1) = false)
    (hprov : (u.layer (c.param 2 2)).hasProvisional = false) (hserved : u.stagedServed c = true)
    (hfree : u.stagedHeld c = false) : u.startPrefetch c = u.stageCopy c := by
  simp [State.startPrefetch, hserves, hprov, hserved, hfree]

theorem startPrefetch_of_held (hserves : u.dieRefuses (c.param 0 1) = false)
    (h : (u.layer (c.param 2 2)).hasProvisional = true ∨ (u.stagedServed c = true ∧ u.stagedHeld c = true)) :
    u.startPrefetch c = u.setWait c.ref .prefetchClose
      (if c.param 0x28 4 = 0 then none else some (u.tide + 1000 * c.param 0x28 4)) := by
  have hguard : ((u.layer (c.param 2 2)).hasProvisional || (u.stagedServed c && u.stagedHeld c)) = true := by
    simpa using h
  simp [State.startPrefetch, hserves, hguard]

/-- The committed slot of the layer that a PREFETCH_STATE names. -/
def State.stageSource (s : State) (c : Cmd) : Nat :=
  if (s.layer (c.param 2 2)).stateSel then c.param 0x18 8 else c.param 0x10 8

/-- The staging entry that a copy leaves in its die. -/
def State.stageEntry (s : State) (c : Cmd) (d : Die) : StageEntry :=
  { layer := c.param 2 2, elemFirst := c.param 4 4, elemCount := c.param 8 4, nstate := c.param 1 1,
    landAddr := c.param 0x20 8, stateSel := (s.layer (c.param 2 2)).stateSel, order := d.stageOrder,
    index := stageIndex d }

theorem stageCopy_eq (u : State) (c : Cmd) : u.stageCopy c =
    ((u.copy (u.stageSource c) (c.param 0x20 8) (4 * c.param 1 1 * c.param 8 4)).modDie (c.param 0 1) (fun d => { d with
      stageOrder := d.stageOrder + 1
      staging := d.staging.filter (fun x => x.index != stageIndex d) ++ [u.stageEntry c d] })).complete c .ok 0 [] :=
  rfl

theorem SameButCompletions.die {s t : State} (h : SameButCompletions s t) (n : Nat) : t.die n = s.die n :=
  (congrArg (State.die · n) h.eq :)

theorem stageCopy_staged (u : State) (c : Cmd) : ∃ x ∈ ((u.stageCopy c).die (c.param 0 1)).staging,
    x = u.stageEntry c (u.die (c.param 0 1)) := by
  refine ⟨_, ?_, rfl⟩
  rw [stageCopy_eq, (sameButCompletions_complete ..).die, modDie_die]
  exact List.mem_append_right _ List.mem_cons_self

theorem stageCopy_die_ne (u : State) (c : Cmd) {d : Nat} (h : d ≠ c.param 0 1) : (u.stageCopy c).die d = u.die d := by
  rw [stageCopy_eq, (sameButCompletions_complete ..).die, modDie_die_ne _ _ _ _ h]
  rfl

/-- A copy writes its destination, and the write-back record of its completion. -/
theorem stageCopy_sameBut (u : State) (c : Cmd) :
    SameBut (u.copy (u.stageSource c) (c.param 0x20 8) (4 * c.param 1 1 * c.param 8 4)) (u.stageCopy c)
      (hostKey (u.ring c.ring).wbAddr.toNat) 16 := by
  rw [stageCopy_eq]
  intro x hx
  exact complete_sameBut _ _ _ _ _ x hx

theorem prefetchTimeout_of_due {seq : W16} {d : Nat} (hfind : s.findWait r seq .prefetchClose = some c)
    (hdeadline : c.deadline = some d) (hdue : d ≤ (s.advance dt).tide) :
    exec (.prefetchTimeout dt r seq) s = .next ((s.advance dt).complete c .timeout 0 []) := by
  have hfind' : (s.advance dt).findWait r seq .prefetchClose = some c := hfind
  have hreached : (s.advance dt).due c.deadline = true := by rw [State.due, hdeadline]; exact decide_eq_true hdue
  simp only [exec_prefetchTimeout, execPrefetchTimeout, hfind', hreached, if_true]

end Prefetch

/-! ### The books of a ring, which a start leaves -/

/-- Two states whose rings differ at most in their commands. -/
def SameBooks (s t : State) : Prop := ∀ q, t.ring q = { s.ring q with cmds := (t.ring q).cmds }

theorem SameBooks.trans {s t u : State} (hst : SameBooks s t) (htu : SameBooks t u) : SameBooks s u :=
  fun q => by rw [htu q, hst q]

theorem sameBooks_of_rings {s t : State} (h : t.host.rings = s.host.rings) : SameBooks s t := by
  intro q
  rw [State.ring, h, State.ring]

theorem sameBooks_modRing (s : State) (r : Nat) (f : List Cmd → List Cmd) :
    SameBooks s (s.modRing r (fun x => { x with cmds := f x.cmds })) := by
  intro q
  by_cases hq : q = r
  · rw [hq, modRing_ring]
  · rw [modRing_ring_ne _ _ _ _ hq]

/-- A start changes of each ring no more than its commands. -/
theorem sameBooks_begin (s : State) (c : Cmd) (t : Nat) : SameBooks s (s.begin c t).2 := by
  unfold State.begin
  dsimp only
  refine .trans ?_ (sameBooks_modRing _ _ _)
  have hcmd (x : State) (f : Cmd → Cmd) (h : SameBooks s x) : SameBooks s (x.modCmd c.ref f) :=
    h.trans (sameBooks_modRing _ _ _)
  split
  · exact (hcmd _ _ (sameBooks_of_rings rfl)).trans (sameBooks_of_rings rfl)
  · exact hcmd _ _ (sameBooks_of_rings rfl)

theorem Starts.books {s u : State} {dt r op : Nat} {c : Cmd} (h : Starts s dt r op c u) : SameBooks s u := by
  obtain ⟨d, -, -, -, -, hbegin⟩ := take_some _ h
  obtain ⟨rfl, rfl⟩ := Prod.mk.inj hbegin
  exact (sameBooks_of_rings rfl).trans (sameBooks_begin (s.advance dt) d _)

/-! ### A part takes the engine (R270, R271) -/

section Parts

variable (s : State) (p : UpdP)

/-- The first part of a layer's version begins it in a FREE slot. -/
theorem beginVersion_of_first {i : Nat} (hnew : (s.layer p.layer).stateIdx .writing = none)
    (hfree : (s.layer p.layer).stateIdx .free = some i) : s.beginVersion p = s.modLayer p.layer (fun l => { l with
      newest := l.newest + 1
      partsTotal := some p.parts
      slots := tabSet l.slots i { serial := l.newest + 1, state := .writing, epoch := s.commit.layoutEpoch } }) := by
  simp only [State.beginVersion, hnew, hfree]

theorem beginVersion_frame : s.beginVersion p = { s with layers := (s.beginVersion p).layers } := by
  unfold State.beginVersion
  dsimp only
  split <;> rfl

/-- The part noted in its layer, whose version may have begun with it. -/
def State.notePart (s : State) (c : Cmd) : State :=
  let p := updP c
  let s := s.beginVersion p
  let img := s.progImage ((s.resolve [0, 1] (some p.die) p.prog 64).getD 0)
  s.modLayer p.layer (fun l => { l with
    parts := l.parts ++ [{ part := p.part, die := p.die, elemFirst := p.map.first, elemCount := p.map.count,
                           nstate := img.nstate, state0 := p.state0, state1 := p.state1 }] })

/-- Loading an element leaves what names the part, its norms and its place, and begins the pass. -/
theorem loadElem_keeps {e : Engine} (hpass : e.pass2 = false) : (s.loadElem e p).cmd = e.cmd ∧
    (s.loadElem e p).elem = e.elem ∧ (s.loadElem e p).pc = 0 ∧ (s.loadElem e p).norms = e.norms ∧
    (s.loadElem e p).layer = e.layer ∧ (s.loadElem e p).part = e.part :=
  ⟨rfl, rfl, if_neg (by simp [hpass]), rfl, rfl, rfl⟩

/-- A part that starts is noted in its layer, takes its staging entry, and has its die's engine at the first element. -/
theorem startPart_eq (c : Cmd) : ∃ (f : Die → Die) (e : Engine), s.startPart c =
    ((((s.notePart c).modDie (updP c).die f).setWork c.ref .running).setEngine (updP c).die (some e)).tickUpdates ∧
      e.cmd = c.ref ∧ e.elem = 0 ∧ e.pc = 0 ∧ e.norms = [0, 0, 0, 0] ∧ e.layer = (updP c).layer ∧
      e.part = (updP c).part := by
  unfold State.startPart State.notePart
  dsimp only
  exact ⟨_, _, rfl, loadElem_keeps _ _ rfl⟩

/-- The parts of a start after the first change neither memory nor the layers. -/
theorem startPart_keeps (c : Cmd) : (s.startPart c).mem = (s.notePart c).mem ∧
    ∀ l, (s.startPart c).layer l = (s.notePart c).layer l := by
  obtain ⟨f, e, heq, -⟩ := startPart_eq s c
  rw [heq]
  generalize s.notePart c = v
  exact ⟨rfl, fun _ => rfl⟩

theorem startPart_mem (c : Cmd) : (s.startPart c).mem = s.mem := by
  rw [(startPart_keeps s c).1, State.notePart, beginVersion_frame]
  rfl

theorem startPart_engine (c : Cmd) : ∃ e, ((s.startPart c).die (updP c).die).engine = some e ∧ e.cmd = c.ref ∧
    e.elem = 0 ∧ e.pc = 0 ∧ e.norms = [0, 0, 0, 0] ∧ e.layer = (updP c).layer ∧ e.part = (updP c).part := by
  obtain ⟨f, e, heq, he⟩ := startPart_eq s c
  refine ⟨e, ?_, he⟩
  rw [heq]
  exact congrArg Die.engine (setEngine_die ..)

theorem startPart_begins (c : Cmd) {i : Nat} (hnew : (s.layer (updP c).layer).stateIdx .writing = none)
    (hfree : (s.layer (updP c).layer).stateIdx .free = some i) :
    ((s.startPart c).layer (updP c).layer).newest = (s.layer (updP c).layer).newest + 1 ∧
      ((s.startPart c).layer (updP c).layer).slot i = {
        serial := (s.layer (updP c).layer).newest + 1, state := .writing, epoch := s.commit.layoutEpoch } := by
  rw [(startPart_keeps s c).2, State.notePart, modLayer_layer, beginVersion_of_first s (updP c) hnew hfree,
    modLayer_layer]
  exact ⟨rfl, tabGet_tabSet_same ..⟩

theorem failLayer_failed (l : Nat) : ((s.failLayer l).layer l).failed = true := by
  show ((s.modLayer l (fun l => { l with failed := true })).layer l).failed = true
  rw [modLayer_layer]

theorem failWaiting_failed {c : Cmd} (hopen : s.ofOpenStep c = true)
    (hbegun : ∃ i, (s.layer (updP c).layer).stateIdx .writing = some i) :
    ((s.failWaiting c).layer (updP c).layer).failed = true := by
  obtain ⟨i, hi⟩ := hbegun
  have hguard : (s.ofOpenStep c && ((s.layer (updP c).layer).stateIdx .writing).isSome) = true := by simp [hopen, hi]
  rw [State.failWaiting]
  simp only [hguard, if_true]
  exact failLayer_failed ..

end Parts

/-! ### UPDATE_PART_RUN and UPDATE_TIMEOUT (R270, R271) -/

section PartRuns

variable {dt : Nat} {r : Fin 17} {seq : W16} {s : State} {c : Cmd} (hfind : s.findWait r seq .update = some c)

include hfind

theorem updateTimeout_of_late (h : (s.advance dt).updLate c = true ∨
    ((∃ d, c.deadline = some d ∧ d ≤ (s.advance dt).tide) ∧ (updateCause (s.advance dt) c).isSome = true)) :
    exec (.updateTimeout dt r seq) s =
      .next (((s.advance dt).failWaiting c).complete c .timeout 0 ((s.advance dt).waitBody c)) := by
  have hfind' : (s.advance dt).findWait r seq .update = some c := hfind
  have hguard : ((s.advance dt).updLate c ||
      ((s.advance dt).due c.deadline && (updateCause (s.advance dt) c).isSome)) = true := by
    rcases h with h | ⟨⟨d, hdeadline, hdue⟩, hcause⟩
    · simp [h]
    · have hreached : (s.advance dt).due c.deadline = true := by rw [State.due, hdeadline]; exact decide_eq_true hdue
      simp [hreached, hcause]
  simp only [exec_updateTimeout, execUpdateTimeout, hfind', hguard, if_true]

theorem updatePartRun_of_busy (h : (s.die (updP c).die).engine.isSome = true ∨
    (updateCause (s.advance dt) c).isSome = true ∨ (s.advance dt).updLate c = true) :
    exec (.updatePartRun dt r seq) s = .next (s.advance dt) := by
  have hfind' : (s.advance dt).findWait r seq .update = some c := hfind
  have hguard : ((updateCause (s.advance dt) c).isSome || (s.advance dt).updLate c ||
      ((s.advance dt).die (updP c).die).engine.isSome) = true := by
    rw [Bool.or_eq_true, Bool.or_eq_true]
    exact h.elim .inr .inl
  simp only [exec_updatePartRun, execUpdatePartRun, hfind', hguard, if_true, State.idle]

variable (hcause : updateCause (s.advance dt) c = none) (htime : (s.advance dt).updLate c = false)
  (hengine : (s.die (updP c).die).engine = none)
  (hheld : (s.advance dt).partHeld (updP c) ((s.advance dt).progImage
    (((s.advance dt).resolve [0, 1] (some (updP c).die) (updP c).prog 64).getD 0)).nstate = false)

include hcause htime hengine hheld

/-- A part that nothing holds does what its layer's number of parts and its memory say. -/
theorem updatePartRun_of_free : exec (.updatePartRun dt r seq) s =
    if (s.layer (updP c).layer).partsTotal.isSome && (s.layer (updP c).layer).partsTotal != some (updP c).parts then
      .next (((s.advance dt).failWaiting c).complete c .badParam 0x46 ((s.advance dt).waitBody c))
    else if !(s.advance dt).partServed (updP c) then
      .next (((s.advance dt).failWaiting c).complete c .faulted 0 ((s.advance dt).waitBody c))
    else .next ((s.advance dt).startPart c) := by
  have hfind' : (s.advance dt).findWait r seq .update = some c := hfind
  have hengine' : ((s.advance dt).die (updP c).die).engine = none := hengine
  simp only [exec_updatePartRun, execUpdatePartRun, hfind', hcause, htime, hengine', hheld, Option.isSome_none,
    Bool.or_self, Bool.false_eq_true, if_false]
  rfl

end PartRuns

/-- Settles O42: a start and each wait are one branch of their row, which the premises decide; what a part that takes
the engine leaves is said of the last thing that its start does there. -/
theorem updatesStartAndWait : Obligations.UpdatesStartAndWait := by
  intro dt r seq s u c
  refine ⟨fun hstart => ⟨fun o ho hfail => updateLayer_of_fail hstart hfail ho, fun hchecks =>
      ⟨updateLayer_of_refused hstart hchecks, fun hserves hserved =>
        ⟨updateLayer_of_held hstart hchecks hserves hserved,
          updateLayer_of_clean hstart hchecks hserves hserved⟩⟩⟩,
    ?_, fun hfind d => prefetchTimeout_of_due hfind, ?_⟩
  · rintro die layer src dst n hstart hfresh rfl hchecks rfl rfl rfl rfl rfl
    have hexec := prefetchState_of_pass hstart hfresh hchecks
    refine ⟨fun h => hexec.trans (congrArg _ (startPrefetch_of_refused h)), fun hserves hprov hserved hfree =>
      ⟨_, hexec.trans (congrArg _ (startPrefetch_of_free hserves hprov hserved hfree)), rfl, ?_, ?_, ?_⟩,
      fun hserves h => hexec.trans (congrArg _ (startPrefetch_of_held hserves h))⟩
    · rw [show (s.ring c.ring).wbAddr = (u.ring c.ring).wbAddr from by rw [hstart.books]]
      exact stageCopy_sameBut u c
    · obtain ⟨x, hx, rfl⟩ := stageCopy_staged u c
      exact ⟨_, hx, rfl, rfl, rfl, rfl, rfl⟩
    · intro d hd
      rw [stageCopy_die_ne u c hd, hstart.frame]
      rfl
  · rintro p nstate hfind rfl rfl
    refine ⟨fun hcause htime hengine hheld => ?_, updatePartRun_of_busy hfind, updateTimeout_of_late hfind,
      failWaiting_failed s⟩
    have hexec := updatePartRun_of_free hfind hcause htime hengine hheld
    refine ⟨fun ⟨n, hn, hne⟩ => ?_, fun hparts => ?_⟩
    · rw [hexec, hn, if_pos (by simpa using hne)]
    · rw [if_neg (by rcases hparts with h | h <;> simp [h])] at hexec
      refine ⟨fun hserved => ?_, fun hserved => ?_⟩
      · rw [hexec, hserved]
        rfl
      · rw [hserved] at hexec
        exact ⟨_, hexec, rfl, startPart_mem .., startPart_engine .., fun i => startPart_begins (s.advance dt) c⟩

end Sys2Proof.Machine
end

section
/-! PROOF. The skim stream (chapter 13): its start and stop, the bytes that go out, and the end of a step. -/

namespace Sys2Proof.Machine

theorem exec_skimStart (dt : Nat) (s : State) : exec (.skimStart dt) s = execSkimStart dt s := rfl

theorem exec_skimStop (dt : Nat) (s : State) : exec (.skimStop dt) s = execSkimStop dt s := rfl

theorem exec_skimRecordEmit (dt : Nat) (s : State) : exec (.skimRecordEmit dt) s = execSkimRecordEmit dt s := rfl

theorem SameButCompletions.skim {s t : State} (h : SameButCompletions s t) : t.skim = s.skim :=
  (congrArg State.skim h.eq :)

theorem SameButReports.skim {s t : State} (h : SameButReports s t) : t.skim = s.skim := (congrArg State.skim h.eq :)

theorem SameButReports.commit {s t : State} (h : SameButReports s t) : t.commit = s.commit :=
  (congrArg State.commit h.eq :)

theorem SameButMemory.skim {s t : State} (h : SameButMemory s t) : t.skim = s.skim := (congrArg State.skim h.eq :)

theorem SameButMemory.commit {s t : State} (h : SameButMemory s t) : t.commit = s.commit :=
  (congrArg State.commit h.eq :)

theorem Starts.skim {s u : State} {dt r op : Nat} {c : Cmd} (h : Starts s dt r op c u) : u.skim = s.skim := by
  rw [h.frame]
  rfl

/-! ### SKIM_START and SKIM_STOP (R292) -/

section SkimCommands

variable {dt : Nat} {s u : State} {c : Cmd}

/-- A stream into a memory ring, as a SKIM_START sets it up. -/
def Skim.begun (x : Skim) (c : Cmd) : Skim :=
  { x with
    running := true, toPort := false, port := c.param 1 1, basePending := (c.param 2 1).testBit 0,
    ringAddr := c.param 8 8, ringBytes := c.param 0x10 8, wr := 0, rd := 0, stepStart := 0, records := [], out := [],
    outPoison := [], stopCmds := [] }

theorem skimStart_of_checked (hstart : Starts s dt 0 0x80 c u) (hdest : c.param 0 1 = 0) (hflags : c.param 2 1 < 2)
    (haddr : c.param 8 8 % 4096 = 0) (hbytes : c.param 0x10 8 % 4096 = 0) (hmin : 2 ^ 20 ≤ c.param 0x10 8)
    (hspace : u.inSpace [2, 4] none (c.param 8 8) (c.param 0x10 8) = true)
    (hreserved : ∀ i, (3 ≤ i ∧ i < 8) ∨ (24 ≤ i ∧ i < 64) → c.param i 1 = 0) : exec (.skimStart dt) s =
      .next (if u.skim.running then u.complete c .busy 0 []
        else ({ u with skim := u.skim.begun c } : State).complete c .ok 0 []) := by
  have hzero : reservedFail c 64 [(0, 3), (8, 0x10)] = [] := reservedFail_eq_nil (fun i hi hfree =>
    hreserved i (by simp only [List.mem_cons, List.not_mem_nil, or_false, forall_eq_or_imp, forall_eq] at hfree; omega))
  have hring : (c.param 0 1 == 1) = false := by rw [hdest]; rfl
  rw [exec_skimStart, execSkimStart, hstart.take]
  dsimp only
  rw [lowestFail_eq_none ?checks, hring]
  case checks =>
    rw [hzero, hring]
    simp [hdest, hflags, haddr, hbytes, hspace]
    omega
  exact (apply_ite _ _ _ _).symm

theorem skimStop_of_start (hstart : Starts s dt 0 0x81 c u) : exec (.skimStop dt) s =
    .next (if u.skim.running then
      ({ u with skim := { u.skim with stopCmds := u.skim.stopCmds ++ [c.ref] } } : State).setWait c.ref .skimEnd none
      else u.complete c .ok 0 []) := by
  rw [exec_skimStop, execSkimStop, hstart.take]
  dsimp only
  cases u.skim.running <;> rfl

end SkimCommands

/-! ### Bytes into the ring (R217, R292, R293) -/

section Emission

variable {dt : Nat} {s : State} {r : SkimRec} {rest : List SkimRec}

theorem sameButMemory_writeMarked (s : State) (key : Nat) (bs : List (Byte × Bool)) :
    SameButMemory s (s.writeMarked key bs) := Eq.refl _

theorem sameButMemory_skimToRing (s : State) (bs : List (Byte × Bool)) : SameButMemory s (s.skimToRing bs) := by
  unfold State.skimToRing
  dsimp only
  split
  · exact (sameButMemory_writeMarked ..).trans (sameButMemory_writeMarked ..)
  · exact sameButMemory_writeMarked ..

/-- Bytes that do not reach the ring's end are one write. -/
theorem skimToRing_mem {bs : List (Byte × Bool)}
    (hfits : s.skim.wr.toNat % s.skim.ringBytes + bs.length ≤ s.skim.ringBytes) : (s.skimToRing bs).mem =
      (s.write (s.skim.ringAddr + s.skim.wr.toNat % s.skim.ringBytes) (bs.map (·.1))).mem := by
  have hall : bs.take (s.skim.ringBytes - s.skim.wr.toNat % s.skim.ringBytes) = bs :=
    List.take_of_length_le (by omega)
  unfold State.skimToRing
  dsimp only
  rw [hall, if_neg (Nat.lt_irrefl _)]
  rfl

/-- The ring takes bytes of a record, and the check units absorb them. -/
def State.skimTaken (s : State) (r : SkimRec) (bs : List (Byte × Bool)) : State :=
  (s.skimToRing bs).absorb 3 0 (bs.map (·.1))
    (if bs.any (·.2) then some (bs.findIdx (·.2), (s.skimToRing bs).skimPoisonAt r) else none)

theorem absorb_eq_skimTaken (s : State) (r : SkimRec) (bs : List (Byte × Bool)) :
    (s.skimToRing bs).absorb 3 0 (bs.map (·.1))
      (if bs.any (·.2) then some (bs.findIdx (·.2), (s.skimToRing bs).skimPoisonAt r) else none) =
        s.skimTaken r bs := by
  rw [State.skimTaken]

theorem sameButReports_skimTaken (s : State) (r : SkimRec) (bs : List (Byte × Bool)) :
    SameButReports (s.skimToRing bs) (s.skimTaken r bs) := sameButReports_absorb ..

/-- The stream once `n` bytes of the record in hand have gone out. -/
def Skim.sent (x : Skim) (n : Nat) : Skim :=
  { x with wr := x.wr + BitVec.ofNat 64 n, out := x.out.drop n, outPoison := x.outPoison.drop n }

/-- Bytes of the record in hand go out, and SKIM_WR counts them. -/
def State.skimOut (s : State) (r : SkimRec) (bs : List (Byte × Bool)) : State :=
  { s.skimTaken r bs with skim := (s.skimTaken r bs).skim.sent bs.length }

/-- A record in hand of a stream into a ring: as many of its bytes go out as the ring has room for. -/
theorem skimRecordEmit_of_some {bs : List (Byte × Bool)} (hrecords : s.skim.records = r :: rest)
    (hrun : s.skim.running = true) (hring : s.skim.toPort = false) (hout : s.skim.out ≠ [])
    (hheld : (s.advance dt).skimHeld r = false) (hbs : bs = (s.skim.out.zip s.skim.outPoison).take s.skimRoom)
    (hsome : bs ≠ []) : exec (.skimRecordEmit dt) s =
      .next (if ((s.advance dt).skimOut r bs).skim.out.isEmpty then
        ({ (s.advance dt).skimOut r bs with
          skim := { ((s.advance dt).skimOut r bs).skim with records := rest } } : State).skimDone r
        else (s.advance dt).skimOut r bs) := by
  have hlist : s.skim.out.isEmpty = false := by simpa using hout
  have hroom : ((s.skim.out.zip s.skim.outPoison).take (s.advance dt).skimRoom) = bs := hbs.symm
  have hgo : bs.isEmpty = false := by simpa using hsome
  rw [exec_skimRecordEmit, execSkimRecordEmit]
  simp only [advance_skim, hrecords, hrun, hheld, hlist, hring, hroom, hgo, Bool.not_true, Bool.or_self,
    Bool.false_eq_true, if_false, absorb_eq_skimTaken, State.skimOut, Skim.sent]
  exact (apply_ite Host.Outcome.next _ _ _).symm

theorem skimOut_skim (s : State) (r : SkimRec) (bs : List (Byte × Bool)) :
    (s.skimOut r bs).skim = s.skim.sent bs.length := by
  have hkept : (s.skimTaken r bs).skim = s.skim :=
    (sameButReports_skimTaken s r bs).skim.trans (sameButMemory_skimToRing s bs).skim
  rw [State.skimOut, hkept]

/-- Bytes that go out leave the layers and the commit state, and write what the ring takes. -/
theorem skimOut_keeps (s : State) (r : SkimRec) (bs : List (Byte × Bool)) : (s.skimOut r bs).layers = s.layers ∧
    (s.skimOut r bs).commit = s.commit ∧ (s.skimOut r bs).mem = (s.skimToRing bs).mem := by
  have hring := sameButMemory_skimToRing s bs
  have htaken := sameButReports_skimTaken s r bs
  obtain ⟨-, -, -, -, hmem, hlayers⟩ := htaken.keeps
  simp only [State.skimOut]
  exact ⟨hlayers.trans hring.layers, htaken.commit.trans hring.commit, hmem⟩

theorem skimOut_cmds (s : State) (r : SkimRec) (bs : List (Byte × Bool)) (q : Nat) :
    ((s.skimOut r bs).ring q).cmds.map Cmd.identity = (s.ring q).cmds.map Cmd.identity := by
  have hring : (s.skimToRing bs).ring q = s.ring q :=
    (congrArg (fun x : State => x.ring q) (sameButMemory_skimToRing s bs).eq :)
  have htaken : KeepsCommands (s.skimToRing bs) (s.skimTaken r bs) := keepsCommands_absorb ..
  rw [← hring, ← htaken.cmds q]
  simp only [State.skimOut, State.ring]

/-- With as many poison marks as bytes, the bytes that go out are the first of those that are left. -/
theorem skimBytes_out {out : List Byte} {marks : List Bool} (h : marks.length = out.length) (room : Nat) :
    ((out.zip marks).take room).map (·.1) = out.take room := by
  rw [List.map_take, List.map_fst_zip h.ge]

end Emission

/-! ### The end of a step (R292, R293) -/

section StepEnd

variable {s t : State} {d : Cmd}

/-- Commands that are kept in their ring are found under their numbers. -/
theorem findCmd_of_cmds {ref : CmdRef}
    (h : (t.ring ref.ring).cmds.map Cmd.identity = (s.ring ref.ring).cmds.map Cmd.identity)
    (hd : s.findCmd ref = some d) : ∃ d', t.findCmd ref = some d' := by
  have hpred : (fun c : Cmd => c.fetchOrder == ref.id) ∘ Cmd.identity = fun c => c.fetchOrder == ref.id := rfl
  have hfind (x : State) : (x.findCmd ref).map Cmd.identity =
      ((x.ring ref.ring).cmds.map Cmd.identity).find? (fun c => c.fetchOrder == ref.id) := by
    rw [List.find?_map, hpred, State.findCmd]
  have hsome : (t.findCmd ref).map Cmd.identity = some d.identity := by
    rw [hfind t, h, ← hfind s, hd, Option.map_some]
  obtain ⟨d', hd', -⟩ := Option.map_eq_some_iff.mp hsome
  exact ⟨d', hd'⟩

/-- A change of one command leaves every other where it is found. -/
theorem findCmd_modCmd_ne {ref other : CmdRef} {f : Cmd → Cmd} (hf : ∀ c, (f c).fetchOrder = c.fetchOrder)
    (h : ref ≠ other) : (s.modCmd other f).findCmd ref = s.findCmd ref := by
  by_cases hring : ref.ring = other.ring
  · have hid : ref.id ≠ other.id := fun hid => h (by cases ref; cases other; cases hring; cases hid; rfl)
    have hpred : (fun c : Cmd => c.fetchOrder == ref.id) ∘ (fun c => if c.fetchOrder = other.id then f c else c) =
        fun c => c.fetchOrder == ref.id := by
      funext c
      by_cases hc : c.fetchOrder = other.id <;> simp [hc, hf]
    rw [State.findCmd, State.modCmd, hring, modRing_ring, List.find?_map, hpred, State.findCmd, hring]
    cases hfound : (s.ring other.ring).cmds.find? (fun c => c.fetchOrder == ref.id) with
    | none => rfl
    | some c =>
      have hc : c.fetchOrder = ref.id := by simpa using List.find?_some hfound
      rw [Option.map_some, if_neg (by rwa [hc])]
  · rw [State.findCmd, State.modCmd, modRing_ring_ne _ _ _ _ hring, State.findCmd]

/-- Commands that all finish in one way have all finished so. -/
theorem foldl_finish_found (st : Status) (refs : List CmdRef) {ref : CmdRef} (hd : s.findCmd ref = some d)
    (h : ref ∈ refs ∨ d.work = .finished st 0 []) :
    ∃ d', (refs.foldl (fun x r => x.finish r st 0 []) s).findCmd ref = some d' ∧ d'.work = .finished st 0 [] := by
  induction refs generalizing s d with
  | nil => exact ⟨d, hd, h.resolve_left (List.not_mem_nil)⟩
  | cons r refs ih =>
    rw [List.foldl_cons]
    by_cases hr : ref = r
    · subst hr
      exact ih (findCmd_modCmd (fun _ => rfl) hd) (.inr rfl)
    · refine ih (Eq.trans (findCmd_modCmd_ne (by exact fun _ => rfl) hr) hd) (h.imp_left fun hmem => ?_)
      exact (List.mem_cons.mp hmem).resolve_left hr

theorem skimDone_of_running {step : W32} (h : s.skim.stopCmds = []) :
    s.skimDone (.finish step) = { s with skim := { s.skim with last := step } } := by
  simp [State.skimDone, h]

/-- The stream stopped after a step, before the commands that wait for it finish. -/
def State.skimStopped (s : State) (step : W32) : State :=
  { s with
    skim := { s.skim with last := step, running := false, stopCmds := [], records := [] }
    layers := s.layers.map (fun (e : Nat × Layer) => (e.1, { e.2 with skimPending := false })) }

theorem skimDone_of_stopping {step : W32} (h : s.skim.stopCmds ≠ []) : s.skimDone (.finish step) =
    s.skim.stopCmds.foldl (fun x ref => x.finish ref .ok 0 []) (s.skimStopped step).tickUpdates := by
  have hsome : s.skim.stopCmds.isEmpty = false := by simpa using h
  simp only [State.skimDone, hsome, Bool.false_eq_true, if_false]
  rfl

theorem sameButReports_finishes (refs : List CmdRef) (st : Status) (s : State) :
    SameButReports s (refs.foldl (fun x ref => x.finish ref st 0 []) s) :=
  foldl_keeps (R := SameButReports) (fun _ => .rfl) (fun _ _ _ => .trans) (fun _ _ => sameButReports_finish ..) refs s

theorem skimStopped_layer (step : W32) (l : Nat) : ((s.skimStopped step).layer l).skimPending = false :=
  congrArg Layer.skimPending
    (tabGet_map {} s.layers (fun x : Layer => ({ x with skimPending := false } : Layer)) l :)

/-- The last byte of an END record gives the last step; a stream that is to stop has stopped, and the commands that wait
for it have finished. -/
theorem skimDone_stops {step : W32} (h : s.skim.stopCmds ≠ []) {refs : List CmdRef} (hrefs : refs = s.skim.stopCmds) :
    (s.skimDone (.finish step)).skim = (s.skimStopped step).skim ∧
      (∀ l, ((s.skimDone (.finish step)).layer l).skimPending = false) ∧
      (∀ ref ∈ refs, ∀ d, s.findCmd ref = some d →
        ∃ d', (s.skimDone (.finish step)).findCmd ref = some d' ∧ d'.work = .finished .ok 0 []) := by
  subst hrefs
  have hkept := sameButReports_finishes s.skim.stopCmds .ok (s.skimStopped step).tickUpdates
  obtain ⟨-, -, -, -, -, hlayers⟩ := hkept.keeps
  rw [skimDone_of_stopping h]
  refine ⟨hkept.skim, fun l => ?_, fun ref href d hd => ?_⟩
  · rw [State.layer, hlayers]
    exact skimStopped_layer step l
  · obtain ⟨d', hd'⟩ := findCmd_of_cmds
      ((keepsCommands_tickUpdates (s.skimStopped step)).cmds ref.ring)
      (show (s.skimStopped step).findCmd ref = some d from hd)
    exact foldl_finish_found .ok _ hd' (.inl href)

/-- A record in hand that the ring does not take whole: the bytes that it has room for go out. -/
theorem skimRecordEmit_of_part {dt : Nat} {r : SkimRec} {rest : List SkimRec} {bs : List Byte}
    (hrecords : s.skim.records = r :: rest) (hrun : s.skim.running = true) (hring : s.skim.toPort = false)
    (hout : s.skim.out ≠ []) (hmarks : s.skim.outPoison.length = s.skim.out.length)
    (hheld : (s.advance dt).skimHeld r = false) (hbs : bs = s.skim.out.take s.skimRoom) (hsome : bs ≠ [])
    (hpart : bs ≠ s.skim.out) : ∃ t, exec (.skimRecordEmit dt) s = .next t ∧ t.skim = s.skim.sent bs.length ∧
      t.layers = s.layers ∧
      (s.skim.wr.toNat % s.skim.ringBytes + bs.length ≤ s.skim.ringBytes →
        t.mem = (s.write (s.skim.ringAddr + s.skim.wr.toNat % s.skim.ringBytes) bs).mem) ∧ t.commit = s.commit := by
  obtain ⟨ms, hms⟩ : ∃ ms, ms = (s.skim.out.zip s.skim.outPoison).take s.skimRoom := ⟨_, rfl⟩
  have hbytes : ms.map (·.1) = bs := by rw [hms, hbs]; exact skimBytes_out hmarks _
  have hlength : ms.length = bs.length := by rw [← hbytes, List.length_map]
  have hmssome : ms ≠ [] := fun h => hsome (by rw [← hbytes, h]; rfl)
  have hskim : ((s.advance dt).skimOut r ms).skim = s.skim.sent bs.length := by rw [skimOut_skim, hlength]; rfl
  obtain ⟨hlayers, hcommit, hmem⟩ := skimOut_keeps (s.advance dt) r ms
  have hleft : (s.skim.sent bs.length).out.isEmpty = false := by
    refine Bool.eq_false_iff.mpr fun hempty => hpart ?_
    have hall : s.skim.out.length ≤ bs.length := List.drop_eq_nil_iff.mp (List.isEmpty_iff.mp hempty)
    rw [hbs] at hall ⊢
    exact List.take_of_length_le (hall.trans (List.length_take_le ..))
  have hexec := skimRecordEmit_of_some hrecords hrun hring hout hheld hms hmssome
  rw [hskim, hleft, if_neg Bool.false_ne_true] at hexec
  refine ⟨_, hexec, hskim, hlayers, fun hfits => ?_, hcommit⟩
  rw [hmem, skimToRing_mem (by rw [hlength]; exact hfits), hbytes]
  exact advance_write_mem ..

/-- An END record that the ring takes whole gives the last step. -/
theorem skimRecordEmit_of_end {dt : Nat} {step : W32} {rest : List SkimRec}
    (hrecords : s.skim.records = .finish step :: rest) (hrun : s.skim.running = true) (hring : s.skim.toPort = false)
    (hout : s.skim.out ≠ []) (hmarks : s.skim.outPoison.length = s.skim.out.length)
    (hheld : (s.advance dt).skimHeld (.finish step) = false) (hroom : s.skim.out.length ≤ s.skimRoom) :
    ∃ v : State, exec (.skimRecordEmit dt) s = .next (v.skimDone (.finish step)) ∧
      v.skim = { s.skim.sent s.skim.out.length with records := rest } ∧ v.layers = s.layers ∧
      ∀ ref d, s.findCmd ref = some d → ∃ d', v.findCmd ref = some d' := by
  obtain ⟨ms, hms⟩ : ∃ ms, ms = (s.skim.out.zip s.skim.outPoison).take s.skimRoom := ⟨_, rfl⟩
  have hbytes : ms.map (·.1) = s.skim.out := by rw [hms, skimBytes_out hmarks, List.take_of_length_le hroom]
  have hlength : ms.length = s.skim.out.length := by rw [← hbytes, List.length_map]
  have hmssome : ms ≠ [] := fun h => hout (by rw [← hbytes, h]; rfl)
  have hskim : ((s.advance dt).skimOut (.finish step) ms).skim = s.skim.sent s.skim.out.length := by
    rw [skimOut_skim, hlength]; rfl
  obtain ⟨hlayers, -, -⟩ := skimOut_keeps (s.advance dt) (.finish step) ms
  have hcmds := skimOut_cmds (s.advance dt) (.finish step) ms
  have hleft : (s.skim.sent s.skim.out.length).out.isEmpty = true := by simp [Skim.sent]
  have hexec := skimRecordEmit_of_some hrecords hrun hring hout hheld hms hmssome
  generalize (s.advance dt).skimOut (.finish step) ms = v at hskim hlayers hcmds hexec
  rw [hskim, hleft, if_pos rfl] at hexec
  exact ⟨_, hexec, rfl, hlayers, fun ref d hd =>
    findCmd_of_cmds (s := s.advance dt) (hcmds ref.ring) hd⟩

end StepEnd

/-! ### XORed words (R295) -/

section Words

variable {s : State}

theorem ofBytes_toBytes (n x : Nat) : ofBytes (toBytes n x) = x % 256 ^ n := by
  induction n generalizing x with
  | zero => simp [toBytes, ofBytes, Nat.mod_one]
  | succ n ih =>
    rw [toBytes, ofBytes, ih, BitVec.toNat_ofNat, Nat.pow_succ' (m := 256), Nat.mod_mul (a := 256)]

/-- Pieces of one length, joined: the piece at a place is found there. -/
theorem flatMap_piece {α β : Type} {f : α → List β} {n : Nat} (hf : ∀ a, (f a).length = n) {l : List α} {i : Nat}
    {a : α} (h : l[i]? = some a) : ((l.flatMap f).drop (n * i)).take n = f a := by
  induction l generalizing i with
  | nil => simp at h
  | cons b l ih =>
    cases i with
    | zero =>
      obtain rfl : b = a := by simpa using h
      rw [List.flatMap_cons, Nat.mul_zero, List.drop_zero, List.take_left' (hf b)]
    | succ i =>
      rw [List.flatMap_cons, Nat.mul_succ, Nat.add_comm, ← List.drop_drop, List.drop_left' (hf b)]
      exact ih (by simpa using h)

theorem memReadBytes_part (m : List Host.Cell) (a : Nat) {k n len : Nat} (h : k + n ≤ len) :
    memReadBytes m (a + k) n = ((memReadBytes m a len).drop k).take n := by
  apply List.ext_getElem
  · simp [memReadBytes]; omega
  · intro i hi hi'
    simp [memReadBytes, Nat.add_assoc]

/-- The bytes of words XORed into a slot. -/
def State.xorBytes (s : State) (key : Nat) (base : Bool) (ws : List Nat) : List Byte :=
  ws.zipIdx.flatMap (fun w => toBytes 4 (w.1 ^^^ (if base then 0 else s.readNat (key + 4 * w.2) 4)))

theorem xorWords_eq (key : Nat) (base : Bool) (ws : List Nat) :
    s.xorWords key base ws = s.write key (s.xorBytes key base ws) := rfl

theorem xorBytes_length (key : Nat) (base : Bool) (ws : List Nat) :
    (s.xorBytes key base ws).length = 4 * ws.length := by
  simp [State.xorBytes, toBytes_length, Nat.mul_comm]

theorem xorWords_sameBut (key : Nat) (base : Bool) (ws : List Nat) :
    SameBut s (s.xorWords key base ws) key (4 * ws.length) := by
  intro x hx
  rw [xorWords_eq]
  exact memRead_writeBytes_out _ _ _ _ _ (by rwa [xorBytes_length])

theorem xorWords_word (hinv : s.Inv) {key : Nat} {base : Bool} {ws : List Nat}
    (hsound : ∀ i, i < 4 * ws.length → s.farFailed (key + i) = false) {i x : Nat} (hx : ws[i]? = some x) :
    (s.xorWords key base ws).readNat (key + 4 * i) 4 =
      (x ^^^ (if base then 0 else s.readNat (key + 4 * i) 4)) % 2 ^ 32 := by
  have hi : i < ws.length := (List.getElem?_eq_some_iff.mp hx).1
  have hword : ws.zipIdx[i]? = some (x, i) := by simp [hx]
  have hread : (s.xorWords key base ws).read key (4 * ws.length) = s.xorBytes key base ws := by
    rw [xorWords_eq, ← xorBytes_length key base ws]
    exact read_write hinv key _ (fun j hj => hsound j (by rwa [xorBytes_length] at hj))
  rw [State.readNat, memReadNat, memReadBytes_part _ _ (show 4 * i + 4 ≤ 4 * ws.length by omega)]
  rw [State.read] at hread
  rw [hread, State.xorBytes, flatMap_piece (fun _ => toBytes_length ..) hword, ofBytes_toBytes]
  rfl

end Words

end Sys2Proof.Machine
end

section
/-! PROOF. TAKEOVER_LOAD (chapter 13): the records that it replays, and the layers that take effect. -/

namespace Sys2Proof.Machine

theorem exec_takeoverLoad (dt : Nat) (s : State) : exec (.takeoverLoad dt) s = execTakeoverLoad dt s := rfl

/-! ### The command (R294, R295) -/

/-- A TAKEOVER_LOAD of a stream that its map fits takes effect whole. -/
theorem takeoverLoad_of_fit {dt mapKey key : Nat} {s u : State} {c : Cmd} {entries : List LoadEntry} {a : Load}
    (hstart : Starts s dt 0 0x82 c u) (hreserved : ∀ i, i < 4 ∨ (34 ≤ i ∧ i < 128) → c.param i 1 = 0)
    (hmap : u.resolve [2, 4] none (c.param 0x18 8) (64 * c.param 0x20 2) = some mapKey)
    (hkey : u.resolve [2, 4] none (c.param 8 8) (c.param 0x10 8) = some key)
    (hentries : entries = (List.range (c.param 0x20 2)).map (fun i => loadEntry (u.read (mapKey + 64 * i) 64)))
    (hok : ∀ e ∈ entries, e.ok u = true) (hbusy : u.loadBusy entries = false)
    (hserved : u.loadServed key mapKey entries = true) (hheld : u.loadHeld key (c.param 0x10 8) mapKey entries = false)
    (hclean : u.firstPoison mapKey (64 * c.param 0x20 2) = none)
    (hrun : runLoad entries (BitVec.ofNat 32 (c.param 4 4)) (c.param 0x10 8 / 32 + 1) key (u.read key (c.param 0x10 8))
      { st := u } = a) (hfit : a.failed = false) :
    exec (.takeoverLoad dt) s = .next ((a.st.commitLoad a).complete c .ok 0 a.body) := by
  have hzero : reservedFail c 128 [(4, 0x1E)] = [] := reservedFail_eq_nil (fun i hi hfree =>
    hreserved i (by simp only [List.mem_singleton, forall_eq] at hfree; omega))
  have hall : entries.all (LoadEntry.ok u) = true := List.all_eq_true.mpr hok
  rw [exec_takeoverLoad, execTakeoverLoad, hstart.take]
  simp only [hmap, hkey, Option.getD_some, ← hentries, State.inSpace, hzero, hbusy, hall, hserved, hheld, hclean, hrun,
    hfit]
  rfl

/-! ### The records (R295) -/

theorem SameButMemory.books {s t : State} (h : SameButMemory s t) : SameBooks s t :=
  sameBooks_of_rings (congrArg (fun x : State => x.host.rings) h.eq :)

theorem SameButMemory.ite {s : State} {p : Prop} [Decidable p] {a b : Load} (ha : SameButMemory s a.st)
    (hb : SameButMemory s b.st) : SameButMemory s (if p then a else b).st := by
  split
  · exact ha
  · exact hb

theorem sameButMemory_applyPart (a : Load) (entries : List LoadEntry) (h body : List Byte) :
    SameButMemory a.st (a.applyPart entries h body).st := by
  unfold Load.applyPart
  dsimp only
  cases entries.find? _ with
  | none => exact .rfl
  | some e =>
    refine .ite .rfl ?_
    split
    · exact .rfl
    · exact .rfl
    · exact sameButMemory_write ..

/-- Records replayed change nothing but memory. -/
theorem sameButMemory_runLoad (entries : List LoadEntry) (target : W32) (fuel key : Nat) (bs : List Byte) (a : Load) :
    SameButMemory a.st (runLoad entries target fuel key bs a).st := by
  induction fuel generalizing key bs a with
  | zero => exact .rfl
  | succ fuel ih =>
    have hstop : SameButMemory a.st (if a.last.isSome && a.left.isNone then a else a.fail none).st := .ite .rfl .rfl
    have hpart (rest : List Byte) (key : Nat) (b : Load) (hb : SameButMemory a.st b.st) :
        SameButMemory a.st (if b.failed then b else runLoad entries target fuel key rest b).st :=
      .ite hb (hb.trans (ih ..))
    rw [runLoad]
    refine .ite hstop ?_
    cases a.st.firstPoison key (min 32 bs.length) with
    | some w => exact .rfl
    | none =>
      refine .ite .rfl (.ite (.ite hstop (.ite .rfl (ih ..))) (.ite (.ite .rfl ?_) (.ite (ih ..) .rfl)))
      cases a.st.firstPoison (key + 32) _ with
      | some w => exact .rfl
      | none => exact .ite .rfl (hpart _ _ _ (sameButMemory_applyPart ..))

theorem sameButMemory_rebuildWork (s : State) (l : Layer) (slot : Nat) (e : LoadEntry) (key : Nat) :
    SameButMemory s (s.rebuildWork l slot e key) :=
  foldl_keeps (R := SameButMemory) (fun _ => .rfl) (fun _ _ _ => .trans) (fun _ _ => sameButMemory_putWork ..) _ s

/-! ### A version becomes CURRENT (R226, R227, R295) -/

section Versions

variable {s : State} {l : Layer}

/-- A slot once a newer version has become CURRENT. -/
def VSlot.superseded (x : VSlot) (shards tide : Nat) : VSlot :=
  if x.state = .current then { x with state := .old, grace := decide (1 < shards), graceEnd := tide + 200000 } else x

theorem supersede_slot (tide j : Nat) : (l.supersede tide).slot j = (l.slot j).superseded l.shards tide := by
  have hslots : (l.supersede tide).slots = l.slots.map (fun e => (e.1, e.2.superseded l.shards tide)) :=
    List.map_congr_left fun e _ => (apply_ite (Prod.mk e.1) _ _ _).symm
  rw [Layer.slot, hslots]
  exact tabGet_map {} l.slots (fun x => x.superseded l.shards tide) j

/-- A layer once a loaded version has become CURRENT in a slot. -/
def Layer.loaded (l : Layer) (tide slot : Nat) (serial : W16) (step : W32) (epoch : W16) : Layer :=
  { l.supersede tide with
    stateSel := !l.stateSel, newest := if serialNewer l.newest serial then l.newest else serial, lastCommit := step
    slots := tabSet (l.supersede tide).slots slot { serial := serial, state := .current, epoch := epoch } }

variable {tide i j : Nat} {serial epoch : W16} {step : W32}

theorem loaded_slot : (l.loaded tide i serial step epoch).slot i =
    { serial := serial, state := .current, epoch := epoch } :=
  tabGet_tabSet_same ..

theorem loaded_slot_ne (h : j ≠ i) :
    (l.loaded tide i serial step epoch).slot j = (l.slot j).superseded l.shards tide :=
  (tabGet_tabSet_ne _ _ _ _ _ h).trans (supersede_slot ..)

theorem retire_layer (n : Nat) :
    (s.retire n).layer n = { s.layer n with slots := retireSlots (s.layer n).slots } := by
  rw [State.retire, tickUpdates_layer, modLayer_layer]

/-- A slot in its grace time outlasts the retirement of its layer's others. -/
theorem retire_slot_of_grace {n : Nat} (h : ((s.layer n).slot i).grace = true) :
    ((s.retire n).layer n).slot i = (s.layer n).slot i := by
  rw [retire_layer]
  refine tabGet_filter_of_kept ?_
  have hgrace : (tabGet {} (s.layer n).slots i).grace = true := h
  simp only [hgrace, Bool.not_true, Bool.and_false, Bool.not_false]

theorem sameBooks_modLayer (s : State) (n : Nat) (f : Layer → Layer) : SameBooks s (s.modLayer n f) :=
  sameBooks_of_rings rfl

theorem sameBooks_retire (s : State) (n : Nat) : SameBooks s (s.retire n) :=
  (keepsCommands_tickUpdates (s.modLayer n (fun x => { x with slots := retireSlots x.slots }))).books

end Versions

/-! ### The loaded layers (R295) -/

section Layers

variable {s : State} {a : Load} {layer : Nat}

/-- A layer that is loaded has its working copy rebuilt and its new version CURRENT. -/
theorem loadLayer_of_some {i : Nat} {e : LoadEntry} {serial : W16} {step : W32}
    (hslot : (s.layer layer).stateIdx .free = some i)
    (hlast : (a.done.filter (fun d => d.1.layer == layer)).getLast? = some (e, serial, step)) :
    ∃ x, SameButMemory s x ∧ s.loadLayer a layer =
      (x.modLayer layer (fun l => l.loaded x.tide i serial step x.commit.layoutEpoch)).retire layer := by
  unfold State.loadLayer
  simp only [hslot, hlast]
  exact ⟨_, foldl_keeps (R := SameButMemory) (fun _ => .rfl) (fun _ _ _ => .trans)
    (fun _ _ => sameButMemory_rebuildWork ..) _ s, rfl⟩

theorem loadLayer_of_none (h : (s.layer layer).stateIdx .free = none ∨
    (a.done.filter (fun d => d.1.layer == layer)).getLast? = none) : s.loadLayer a layer = s := by
  unfold State.loadLayer
  dsimp only
  split
  · next hslot hlast =>
    exact h.elim (fun h => by simp [h] at hslot) (fun h => by simp [h] at hlast)
  · rfl

theorem loadLayer_keeps (s : State) (a : Load) (layer : Nat) :
    (∀ n, n ≠ layer → (s.loadLayer a layer).layer n = s.layer n) ∧ (s.loadLayer a layer).commit = s.commit ∧
      SameBooks s (s.loadLayer a layer) := by
  cases hslot : (s.layer layer).stateIdx .free with
  | none =>
    rw [loadLayer_of_none (.inl hslot)]
    exact ⟨fun _ _ => rfl, rfl, fun _ => rfl⟩
  | some i =>
    cases hlast : (a.done.filter (fun d => d.1.layer == layer)).getLast? with
    | none =>
      rw [loadLayer_of_none (.inr hlast)]
      exact ⟨fun _ _ => rfl, rfl, fun _ => rfl⟩
    | some d =>
      obtain ⟨e, serial, step⟩ := d
      obtain ⟨x, hx, heq⟩ := loadLayer_of_some hslot hlast
      rw [heq]
      refine ⟨fun n hn => ?_, ?_, ?_⟩
      · rw [retire_layer_ne hn, modLayer_layer_ne _ _ _ _ hn, State.layer, hx.layers, State.layer]
      · exact hx.commit
      · exact hx.books.trans ((sameBooks_modLayer x layer _).trans (sameBooks_retire _ layer))

/-- What a loaded layer is. -/
theorem loadLayer_layer {i : Nat} {e : LoadEntry} {serial : W16} {step : W32}
    (hslot : (s.layer layer).stateIdx .free = some i)
    (hlast : (a.done.filter (fun d => d.1.layer == layer)).getLast? = some (e, serial, step)) :
    ((s.loadLayer a layer).layer layer).stateSel = !(s.layer layer).stateSel ∧
      ((s.loadLayer a layer).layer layer).lastCommit = step ∧
      ((s.loadLayer a layer).layer layer).slot i =
        { serial := serial, state := .current, epoch := s.commit.layoutEpoch } ∧
      (∀ j, 1 < (s.layer layer).shards → ((s.layer layer).slot j).state = .current →
        (((s.loadLayer a layer).layer layer).slot j).state = .old) := by
  obtain ⟨x, hx, heq⟩ := loadLayer_of_some hslot hlast
  have hlayer : x.layer layer = s.layer layer := by rw [State.layer, hx.layers, State.layer]
  obtain ⟨y, hy⟩ : ∃ y, y = x.modLayer layer (fun l => l.loaded x.tide i serial step x.commit.layoutEpoch) := ⟨_, rfl⟩
  have hloaded : y.layer layer = (s.layer layer).loaded x.tide i serial step s.commit.layoutEpoch := by
    rw [hy, modLayer_layer, hlayer, hx.commit]
  rw [heq, ← hy]
  refine ⟨?_, ?_, ?_, fun j hshards hcurrent => ?_⟩
  · rw [retire_layer, hloaded]; rfl
  · rw [retire_layer, hloaded]; rfl
  · rw [retire_slot (by rw [hloaded, loaded_slot]; exact VState.noConfusion), hloaded, loaded_slot]
  · have hne : j ≠ i := by
      rintro rfl
      have hfree : ((s.layer layer).slot j).state = .free := by
        simpa using List.find?_some hslot
      rw [hcurrent] at hfree
      exact VState.noConfusion hfree
    have hold : (y.layer layer).slot j =
        { (s.layer layer).slot j with state := .old, grace := true, graceEnd := x.tide + 200000 } := by
      rw [hloaded, loaded_slot_ne hne, VSlot.superseded, if_pos hcurrent, decide_eq_true hshards]
    rw [retire_slot_of_grace (by rw [hold]), hold]

theorem foldl_loadLayer_keeps (a : Load) (ls : List Nat) (s : State) :
    (ls.foldl (fun st l => st.loadLayer a l) s).commit = s.commit ∧
      SameBooks s (ls.foldl (fun st l => st.loadLayer a l) s) := by
  refine foldl_keeps (R := fun s t => t.commit = s.commit ∧ SameBooks s t) (fun _ => ⟨rfl, fun _ => rfl⟩)
    (fun _ _ _ hst htu => ⟨htu.1.trans hst.1, hst.2.trans htu.2⟩) (fun s l => (loadLayer_keeps s a l).2) ls s

theorem foldl_loadLayer_layer_ne (a : Load) {ls : List Nat} (s : State) {l : Nat} (h : l ∉ ls) :
    (ls.foldl (fun st l => st.loadLayer a l) s).layer l = s.layer l := by
  induction ls generalizing s with
  | nil => rfl
  | cons n ls ih =>
    obtain ⟨hn, hls⟩ := not_or.mp (mt List.mem_cons.mpr h)
    rw [List.foldl_cons, ih _ hls, (loadLayer_keeps s a n).1 l hn]

/-- Layers that are loaded, none twice: each is loaded from where it stood. -/
theorem foldl_loadLayer_layer (a : Load) {ls : List Nat} (hnodup : ls.Nodup) (s : State) {l : Nat} (h : l ∈ ls) :
    ∃ x : State, x.layer l = s.layer l ∧ x.commit = s.commit ∧
      (ls.foldl (fun st l => st.loadLayer a l) s).layer l = (x.loadLayer a l).layer l := by
  induction ls generalizing s with
  | nil => exact absurd h List.not_mem_nil
  | cons n ls ih =>
    obtain ⟨hn, hls⟩ := List.nodup_cons.mp hnodup
    rw [List.foldl_cons]
    by_cases hl : l = n
    · subst hl
      exact ⟨s, rfl, rfl, foldl_loadLayer_layer_ne a _ hn⟩
    · obtain ⟨hother, hcommit, -⟩ := loadLayer_keeps s a n
      obtain ⟨x, hx, hxcommit, heq⟩ := ih hls (s.loadLayer a n) ((List.mem_cons.mp h).resolve_left hl)
      exact ⟨x, hx.trans (hother l hl), hxcommit.trans hcommit, heq⟩

/-- A list without its repetitions lists nothing twice. -/
theorem nodup_eraseDups (ls : List Nat) : ls.eraseDups.Nodup := by
  induction hn : ls.length using Nat.strong_induction_on generalizing ls with
  | _ n ih =>
    cases ls with
    | nil => simp
    | cons x xs =>
      have hshort : (xs.filter (fun y => !y == x)).length < n := by
        rw [← hn, List.length_cons]
        exact Nat.lt_succ_of_le (List.length_filter_le ..)
      rw [List.eraseDups_cons, List.nodup_cons]
      exact ⟨by simp, ih _ hshort _ rfl⟩

end Layers

/-! ### The commit (R295) -/

section Commit

theorem commitLoad_layer (s : State) (a : Load) (l : Nat) : (s.commitLoad a).layer l =
    (((a.done.map (fun d => d.1.layer)).eraseDups).foldl (fun st l => st.loadLayer a l) s).layer l := rfl

theorem commitLoad_layer_ne (s : State) {a : Load} {l : Nat} (h : ∀ d ∈ a.done, d.1.layer ≠ l) :
    (s.commitLoad a).layer l = s.layer l := by
  refine (commitLoad_layer s a l).trans (foldl_loadLayer_layer_ne a s ?_)
  rw [List.mem_eraseDups, List.mem_map]
  rintro ⟨d, hd, heq⟩
  exact h d hd heq

/-- The version of a loaded layer is CURRENT, and the one before it OLD. -/
theorem commitLoad_loaded (s : State) {a : Load} {l i : Nat} {e : LoadEntry} {serial : W16} {step : W32}
    (hslot : (s.layer l).stateIdx .free = some i)
    (hlast : (a.done.filter (fun d => d.1.layer == l)).getLast? = some (e, serial, step)) :
    ((s.commitLoad a).layer l).stateSel = !(s.layer l).stateSel ∧ ((s.commitLoad a).layer l).lastCommit = step ∧
      ((s.commitLoad a).layer l).slot i = { serial := serial, state := .current, epoch := s.commit.layoutEpoch } ∧
      (∀ j, 1 < (s.layer l).shards → ((s.layer l).slot j).state = .current →
        (((s.commitLoad a).layer l).slot j).state = .old) := by
  have hmem : l ∈ (a.done.map (fun d => d.1.layer)).eraseDups := by
    obtain ⟨hd, hl⟩ := List.mem_filter.mp (List.mem_of_getLast? hlast)
    exact List.mem_eraseDups.mpr (List.mem_map.mpr ⟨_, hd, eq_of_beq hl⟩)
  obtain ⟨x, hx, hcommit, heq⟩ := foldl_loadLayer_layer a (nodup_eraseDups _) s hmem
  rw [commitLoad_layer, heq, ← hx, ← hcommit]
  exact loadLayer_layer (by rw [hx]; exact hslot) hlast

/-- The record of a load's command is all that its completion writes, where the start's ring has it. -/
theorem commitLoad_complete_sameBut {dt : Nat} {s u : State} {c : Cmd} {a : Load} (hstart : Starts s dt 0 0x82 c u)
    (hrecords : SameButMemory u a.st) (body : List Byte) :
    SameBut (((a.done.map (fun d => d.1.layer)).eraseDups).foldl (fun st l => st.loadLayer a l) a.st)
      ((a.st.commitLoad a).complete c .ok 0 body) (hostKey (s.ring c.ring).wbAddr.toNat) 16 := by
  obtain ⟨-, hfold⟩ := foldl_loadLayer_keeps a (a.done.map (fun d => d.1.layer)).eraseDups a.st
  have hbooks : SameBooks s (a.st.commitLoad a) :=
    hstart.books.trans (hrecords.books.trans (hfold.trans (sameBooks_of_rings rfl)))
  have hwb : ((a.st.commitLoad a).ring c.ring).wbAddr = (s.ring c.ring).wbAddr := by rw [hbooks c.ring]
  intro x hx
  rw [← hwb] at hx
  exact complete_sameBut (a.st.commitLoad a) c .ok 0 body x hx

end Commit

/-! ### The obligation -/

section Settled

variable {dt : Nat} {s u : State} {c : Cmd}

/-- An END record that the ring takes whole gives the last step, and ends a stream that is to stop. -/
theorem skimEnd_runs {step : W32} {rest : List SkimRec} (hrecords : s.skim.records = .finish step :: rest)
    (hrun : s.skim.running = true) (hring : s.skim.toPort = false) (hout : s.skim.out ≠ [])
    (hmarks : s.skim.outPoison.length = s.skim.out.length) (hheld : (s.advance dt).skimHeld (.finish step) = false)
    (hroom : s.skim.out.length ≤ s.skimRoom) :
    ∃ t, exec (.skimRecordEmit dt) s = .next t ∧ t.skim.last = step ∧
      t.skim.wr = s.skim.wr + BitVec.ofNat 64 s.skim.out.length ∧
      (s.skim.stopCmds = [] → t.skim.running = true ∧ t.skim.records = rest ∧ t.layers = s.layers) ∧
      (s.skim.stopCmds ≠ [] → t.skim.running = false ∧ t.skim.records = [] ∧ t.skim.stopCmds = [] ∧
        (∀ l, (t.layer l).skimPending = false) ∧
        (∀ ref ∈ s.skim.stopCmds, ∀ d, s.findCmd ref = some d →
          ∃ d', t.findCmd ref = some d' ∧ d'.work = .finished .ok 0 [])) := by
  obtain ⟨v, hexec, hskim, hlayers, hfound⟩ :=
    skimRecordEmit_of_end (dt := dt) hrecords hrun hring hout hmarks hheld hroom
  have hstop : v.skim.stopCmds = s.skim.stopCmds := by rw [hskim]; rfl
  have hwr : v.skim.wr = s.skim.wr + BitVec.ofNat 64 s.skim.out.length := by rw [hskim]; rfl
  refine ⟨_, hexec, ?_⟩
  by_cases hnone : s.skim.stopCmds = []
  · rw [skimDone_of_running (hstop.trans hnone)]
    refine ⟨rfl, hwr, fun _ => ⟨?_, ?_, hlayers⟩, fun h => absurd hnone h⟩
    · exact (congrArg Skim.running hskim).trans hrun
    · exact congrArg Skim.records hskim
  · obtain ⟨hstopped, hpending, hfinished⟩ := skimDone_stops (step := step) (hstop ▸ hnone) hstop.symm
    rw [hstopped]
    refine ⟨rfl, hwr, fun h => absurd h hnone, fun _ => ⟨rfl, rfl, rfl, hpending, fun ref href d hd => ?_⟩⟩
    obtain ⟨d', hd'⟩ := hfound ref d hd
    exact hfinished ref href d' hd'

end Settled

/-- Settles O49: the skim stream's commands by their start, its bytes by what goes out of the record in hand, and
TAKEOVER_LOAD by the fold over the loaded layers, each of which is loaded once. -/
theorem skimStreamRuns : Obligations.SkimStreamRuns := by
  unfold Obligations.SkimStreamRuns
  intro dt s u c
  refine ⟨fun hstart hdest hflags haddr hbytes hmin hspace hreserved => ?start, fun hstart => ?stop,
    fun r rest bs hrecords hrun hring hout hmarks hheld hbs hsome hpart => ?part,
    fun step rest hrecords hrun hring hout hmarks hheld hroom => ?finish,
    fun key base ws => ⟨xorWords_sameBut key base ws, fun hinv hsound i x hx => xorWords_word hinv hsound hx⟩,
    fun entries mapKey key a hstart hreserved hmap hkey hentries hok hbusy hserved hheld hclean hrun hfit => ?load⟩
  case start =>
    rw [skimStart_of_checked hstart hdest hflags haddr hbytes hmin hspace hreserved, hstart.skim]
    refine ⟨fun hrun => by rw [if_pos hrun], fun hidle => ?_⟩
    rw [if_neg (by rw [hidle]; exact Bool.false_ne_true)]
    exact ⟨_, rfl, (sameButCompletions_complete ..).skim⟩
  case stop =>
    rw [skimStop_of_start hstart, hstart.skim]
    exact ⟨fun hidle => by rw [hidle, if_neg Bool.false_ne_true], fun hrun => by rw [if_pos hrun]⟩
  case part =>
    exact skimRecordEmit_of_part hrecords hrun hring hout hmarks hheld hbs hsome hpart
  case finish =>
    exact skimEnd_runs hrecords hrun hring hout hmarks hheld hroom
  case load =>
    have hrecords : SameButMemory u a.st := by
      rw [← hrun]
      exact sameButMemory_runLoad _ _ _ _ _ { st := u }
    have hlayer (l : Nat) : a.st.layer l = u.layer l := by rw [State.layer, hrecords.layers, State.layer]
    have hcommit : a.st.commit = s.commit := by rw [hrecords.commit, hstart.frame]; rfl
    have hdone := sameButCompletions_complete (a.st.commitLoad a) c .ok 0 a.body
    have hstep := congrArg State.step hdone.eq
    refine ⟨_, takeoverLoad_of_fit hstart hreserved hmap hkey hentries hok hbusy hserved hheld hclean hrun hfit,
      by rw [hdone.commit]; rfl, by rw [hstep]; rfl, by rw [hstep]; rfl, by rw [hstep]; rfl, by rw [hstep]; rfl,
      by rw [hdone.skim]; rfl, commitLoad_complete_sameBut hstart hrecords a.body,
      fun l i e serial step hslot hlast => ?_, fun l hnone => ?_⟩
    · rw [← hlayer l] at hslot
      obtain ⟨hsel, hlast, hnew, hold⟩ := commitLoad_loaded a.st hslot hlast
      rw [hlayer l] at hsel hold
      rw [hdone.layer, ← hcommit]
      exact ⟨hsel, hlast, hnew, fun j _ => hold j⟩
    · rw [hdone.layer, commitLoad_layer_ne a.st hnone, hlayer, Starts.layer (r := 0) hstart]

end Sys2Proof.Machine
end

section
/-! PROOF. The training of every link stays as it is while frames leave and collectives go on (chapters 14 and 15). -/

namespace Sys2Proof.Machine

variable (s : State)

/-! ### What holds the training of the links -/

/-- Only the ports and the seam links hold a training. -/
theorem train_congr {s t : State} (hports : t.ports = s.ports) (hseams : t.seamTrain = s.seamTrain) :
    t.train = s.train := by
  funext l
  cases l with
  | port p => exact congrArg (fun ps => (tabGet {} ps p.val : Port).train) hports
  | seam k => exact congrArg (tabGet {} · k.val) hseams

theorem SameButReports.train {s t : State} (h : SameButReports s t) : t.train = s.train :=
  train_congr (congrArg State.ports h.eq :) (congrArg State.seamTrain h.eq :)

@[simp] theorem advance_train (dt : Nat) : (s.advance dt).train = s.train := train_congr rfl rfl
@[simp] theorem modTile_train (x : Nat) (f : Tile → Tile) : (s.modTile x f).train = s.train := train_congr rfl rfl
@[simp] theorem write_train (a : Nat) (bs : List Byte) : (s.write a bs).train = s.train := train_congr rfl rfl
@[simp] theorem markPoison_train (us : List Nat) : (s.markPoison us).train = s.train := train_congr rfl rfl
@[simp] theorem copy_train (src dst n : Nat) : (s.copy src dst n).train = s.train := train_congr rfl rfl
@[simp] theorem putColl_train (x : CollCtx) : (s.putColl x).train = s.train := train_congr rfl rfl
@[simp] theorem putSweep_train (w : Sweep) : (s.putSweep w).train = s.train := train_congr rfl rfl
@[simp] theorem dropSweep_train (ref : CmdRef) : (s.dropSweep ref).train = s.train := train_congr rfl rfl
@[simp] theorem swDiscard_train (x : Nat) : (s.swDiscard x).train = s.train := train_congr rfl rfl
@[simp] theorem modGet_train (ref : CmdRef) (f : ShardGet → ShardGet) : (s.modGet ref f).train = s.train :=
  train_congr rfl rfl
@[simp] theorem dropGet_train (ref : CmdRef) : (s.dropGet ref).train = s.train := train_congr rfl rfl
@[simp] theorem modShift_train (id : W32) (f : Shift → Shift) : (s.modShift id f).train = s.train := train_congr rfl rfl
@[simp] theorem dropShift_train (id : W32) : (s.dropShift id).train = s.train := train_congr rfl rfl

@[simp] theorem finish_train (ref : CmdRef) (st : Status) (detail : Nat) (body : List Byte) :
    (s.finish ref st detail body).train = s.train := train_congr rfl rfl

@[simp] theorem raise_train (v : Nat) : (s.raise v).train = s.train := (sameButReports_raise ..).train

@[simp] theorem logRec_train (src code sev a0 a1 a2 : Nat) : (s.logRec src code sev a0 a1 a2).train = s.train :=
  (sameButReports_logRec ..).train

@[simp] theorem poisonConsumed_train (c : Cmd) (addr : Nat) : (s.poisonConsumed c addr).train = s.train :=
  logRec_train ..

@[simp] theorem noteNonfinite_train (source : Nat) : (s.noteNonfinite source).train = s.train :=
  (sameButReports_noteNonfinite ..).train

@[simp] theorem absorb_train (source num : Nat) (bs : List Byte) (poison : Option (Nat × Nat)) :
    (s.absorb source num bs poison).train = s.train := (sameButReports_absorb ..).train

theorem modPort_train (p : Nat) {f : Port → Port} (hf : ∀ x, (f x).train = x.train) :
    (s.modPort p f).train = s.train := by
  funext l
  cases l with
  | seam k => rfl
  | port q =>
    change ((s.modPort p f).port q).train = (s.port q).train
    by_cases h : q.val = p
    · rw [h, modPort_port, hf]
    · rw [modPort_port_ne _ _ _ _ h]

theorem foldl_train {α : Type} {f : State → α → State} (hf : ∀ s a, (f s a).train = s.train) (as : List α) :
    (as.foldl f s).train = s.train :=
  foldl_keeps (R := fun s t => t.train = s.train) (fun _ => rfl) (fun _ _ _ hst htu => htu.trans hst) hf as s

/-! ### Frames that leave -/

@[simp] theorem pumpN_train (p fuel : Nat) : (s.pumpN p fuel).train = s.train := by
  induction fuel generalizing s with
  | zero => rfl
  | succ fuel ih =>
    rw [State.pumpN]
    dsimp only
    split
    · rfl
    · split
      · refine (ih _).trans ((absorb_train ..).trans (modPort_train s p ?_))
        exact fun _ => rfl
      · rfl

@[simp] theorem pump_train (p : Nat) : (s.pump p).train = s.train := pumpN_train ..

@[simp] theorem send_train (p : Nat) (hdr : FrameHdr) (body : FrameBody) : (s.send p hdr body).train = s.train :=
  (pump_train ..).trans (modPort_train _ _ (fun _ => rfl))

@[simp] theorem sendTree_train (p : Nat) (body : FrameBody) : (s.sendTree p body).train = s.train := send_train ..

@[simp] theorem sendPorts_train (ps : List Nat) (body : FrameBody) : (s.sendPorts ps body).train = s.train :=
  foldl_train s (fun s p => sendTree_train s p body) ps

@[simp] theorem sendToRank_train (rank : Nat) (poison : Bool) (body : FrameBody) :
    (s.sendToRank rank poison body).train = s.train := by
  unfold State.sendToRank
  split
  · exact send_train ..
  · exact swDiscard_train ..

/-! ### Contexts that close or are refused (R319, R331) -/

@[simp] theorem closeColl_train (x : CollCtx) : (s.closeColl x).train = s.train := by
  unfold State.closeColl
  dsimp only
  split <;> exact train_congr rfl rfl

@[simp] theorem countRefusal_train (x : Nat) (st : Status) : (s.countRefusal x st).train = s.train := by
  unfold State.countRefusal
  split
  · exact modTile_train ..
  · exact modTile_train ..
  · rfl

@[simp] theorem refuseColl_train (x : CollCtx) (st : Status) (offender : Option Nat) (body : List Byte) :
    (s.refuseColl x st offender body).train = s.train := by
  unfold State.refuseColl
  dsimp only
  split <;> simp

/-! ### A reduction goes on (R325 to R329) -/

@[simp] theorem notePoisonSource_train (x : CollCtx) (c : Cmd) (todo : List Nat) :
    (s.notePoisonSource x c todo).1.train = s.train := by
  unfold State.notePoisonSource
  split
  · rfl
  · exact poisonConsumed_train ..

@[simp] theorem addLocals_train (x : CollCtx) (c : Cmd) : (s.addLocals x c).1.train = s.train :=
  (modTile_train ..).trans (notePoisonSource_train ..)

@[simp] theorem landBlocks_train (x : CollCtx) (p : RedP) (first : Nat) (ws : List WireBlock) :
    (s.landBlocks x p first ws).train = s.train := by
  refine foldl_train s (fun s w => ?_) _
  dsimp only
  split <;> simp

@[simp] theorem sendRun_train (x : CollCtx) (c : Cmd) : (s.sendRun x c).2.train = s.train := by
  unfold State.sendRun
  dsimp only
  split
  · rfl
  · split
    · simp
    · split <;> simp

@[simp] theorem runReduce_train (collId step : W32) (epoch : W16) (fuel : Nat) :
    (s.runReduce collId step epoch fuel).train = s.train := by
  induction fuel generalizing s with
  | zero => rfl
  | succ fuel ih =>
    rw [State.runReduce]
    split
    · rfl
    · split
      · rfl
      · split
        · exact refuseColl_train ..
        · dsimp only
          split
          · simp
          · split <;> simp [ih]

@[simp] theorem absorbReduce_train (x : CollCtx) (c : Cmd) (port : Nat) (f : ReduceF) :
    (s.absorbReduce x c port f).train = s.train := by
  unfold State.absorbReduce
  dsimp only
  split
  · exact refuseColl_train ..
  · split
    · simp
    · split <;> simp

@[simp] theorem drainReduce_train (collId step : W32) (epoch : W16) (fs : List (Nat × ReduceF)) :
    (s.drainReduce collId step epoch fs).train = s.train := by
  refine foldl_train s (fun s f => ?_) fs
  split
  · rfl
  · split
    · rfl
    · exact absorbReduce_train ..

@[simp] theorem wakeReduce_train (x : CollCtx) : (s.wakeReduce x).train = s.train := by
  unfold State.wakeReduce
  split
  · rfl
  · split
    · rfl
    · simp

/-! ### A sweep hears from the root (R371 to R373) -/

@[simp] theorem sweepLand_train (w : Sweep) (poison : Bool) (f : GatherF) :
    (s.sweepLand w poison f).1.train = s.train := by
  unfold State.sweepLand
  dsimp only
  split
  · split <;> simp
  · rfl

@[simp] theorem reportMismatch_train (w : Sweep) (bad : List Nat) : (s.reportMismatch w bad).train = s.train := by
  unfold State.reportMismatch
  split <;> simp

@[simp] theorem finishSweep_train (ref : CmdRef) (st : Status) (body : List Byte) :
    (s.finishSweep ref st body).train = s.train := train_congr rfl rfl

@[simp] theorem endCompare_train (w : Sweep) : (s.endCompare w).train = s.train := by
  unfold State.endCompare
  dsimp only
  split
  · simp
  · split <;> simp

@[simp] theorem settleSweep_train (x : CollCtx) (w : Sweep) : (s.settleSweep x w).train = s.train := by
  unfold State.settleSweep
  dsimp only
  split
  · simp
  · split
    · simp
    · split <;> simp

@[simp] theorem sweepDown_train (x : CollCtx) (ref : CmdRef) (poison : Bool) (f : GatherF) :
    (s.sweepDown x ref poison f).train = s.train := by
  unfold State.sweepDown
  split
  · rfl
  · exact (settleSweep_train ..).trans ((sweepLand_train ..).trans (foldl_train s (fun s _ => send_train s ..) _))

/-! ### Gathers and barriers go on (R322, R334, R335) -/

@[simp] theorem landPayload_train (key : Nat) (bs : List Byte) (poison : Bool) :
    (s.landPayload key bs poison).train = s.train := by
  rw [landPayload_frame]
  exact train_congr rfl rfl

@[simp] theorem checkGather_train (x : CollCtx) (c : Cmd) : (s.checkGather x c).train = s.train := by
  unfold State.checkGather
  dsimp only
  split <;> simp

@[simp] theorem gatherDown_train (x : CollCtx) (c : Cmd) (poison : Bool) (f : GatherF) :
    (s.gatherDown x c poison f).train = s.train := by
  unfold State.gatherDown
  dsimp only
  split <;> simp [foldl_train]

@[simp] theorem absorbGather_train (x : CollCtx) (c : Cmd) (poison : Bool) (f : GatherF) :
    (s.absorbGather x c poison f).train = s.train := by
  unfold State.absorbGather
  split
  · exact sweepDown_train ..
  · split
    · exact refuseColl_train ..
    · split
      · exact send_train ..
      · exact gatherDown_train ..

@[simp] theorem wakeGather_train (x : CollCtx) : (s.wakeGather x).train = s.train := by
  unfold State.wakeGather
  split
  · rfl
  · rename_i c _
    generalize (if c.opcode = 0x62 then [] else s.gatRanges (gatP c)) = ranges
    split
    · rfl
    · refine (foldl_train _ (fun s f => ?_) _).trans (putColl_train ..)
      split
      · rfl
      · exact absorbGather_train ..

@[simp] theorem runBarrier_train (x : CollCtx) : (s.runBarrier x).train = s.train := by
  unfold State.runBarrier
  split
  · rfl
  · dsimp only
    split
    · rfl
    · split
      · simp
      · split <;> simp

@[simp] theorem wakeCtx_train (x : CollCtx) : (s.wakeCtx x).train = s.train := by
  unfold State.wakeCtx
  split
  · exact wakeReduce_train ..
  · exact wakeGather_train ..
  · exact runBarrier_train ..

/-! ### Votes, ring shifts and the shard axis (R240, R333, R337) -/

@[simp] theorem verdictArrives_train (f : VerdictF) : (s.verdictArrives f).train = s.train := by
  cases h : s.verdictCmd with
  | none => rw [verdictArrives_of_none h]
  | some c =>
    rw [verdictArrives_of_some h, finish_train]
    unfold State.verdictTaken
    dsimp only
    split <;> exact train_congr rfl rfl

@[simp] theorem vote_train : s.vote.train = s.train := by
  unfold State.vote
  split
  · rfl
  · dsimp only
    split
    · rfl
    · have hsampled : State.train { s with step := { s.step with sampled := none } } = s.train := train_congr rfl rfl
      split <;> simp [hsampled]

@[simp] theorem sendShift_train (c : Cmd) : (s.sendShift c).train = s.train :=
  foldl_train s (fun s _ => send_train s ..) _

@[simp] theorem runShift_train (c : Cmd) : (s.runShift c).train = s.train := by
  unfold State.runShift
  dsimp only
  split
  · rfl
  · split <;> split <;> simp

@[simp] theorem sendShardData_train (req : GatherF) (i : Nat) : (s.sendShardData req i).train = s.train :=
  foldl_train s (fun s _ => foldl_train s (fun s _ => sendToRank_train s ..) _) _

@[simp] theorem refuseShard_train (f : GatherF) (st : Status) : (s.refuseShard f st).train = s.train :=
  sendToRank_train ..

@[simp] theorem gatherOwn_train (g : ShardGet) : (s.gatherOwn g).train = s.train := by
  unfold State.gatherOwn
  dsimp only
  split
  · split
    · rfl
    · simp [foldl_train]
  · rfl

@[simp] theorem checkGet_train (ref : CmdRef) : (s.checkGet ref).train = s.train := by
  unfold State.checkGet
  split
  · rfl
  · split
    · unfold State.endGet
      split <;> simp
    · rfl

@[simp] theorem serveShards_train : s.serveShards.train = s.train := by
  refine (foldl_train _ (fun s g => (checkGet_train ..).trans (gatherOwn_train ..)) _).trans
    ((foldl_train _ (fun v w => ?_) _).trans (train_congr rfl rfl))
  split
  · exact sendShardData_train ..
  · split
    · exact refuseShard_train ..
    · rfl

/-- What a pause held goes on without a change to any link's training. -/
@[simp] theorem wakeHeld_train : s.wakeHeld.train = s.train := by
  unfold State.wakeHeld
  refine (serveShards_train _).trans ((foldl_train _ (fun v h => ?_) _).trans
    ((vote_train _).trans (foldl_train s wakeCtx_train _)))
  split
  · exact runShift_train ..
  · rfl

end Sys2Proof.Machine
end

section
/-! PROOF. The training of a link (chapter 14): its states, the width-agreement exchange and its failures. -/

namespace Sys2Proof.Machine

variable {s : State} {l m : Link}

/-! ### A link's training after a change -/

section Changes

variable (s l)

@[simp] theorem modTrain_train (f : Train → Train) : (s.modTrain l f).train l = f (s.train l) := by
  cases l with
  | port p => exact congrArg Port.train (modPort_port ..)
  | seam k => exact tabGet_tabMod_same ..

theorem modTrain_train_ne (f : Train → Train) (h : m ≠ l) : (s.modTrain l f).train m = s.train m := by
  cases l with
  | port p =>
    cases m with
    | port q => exact congrArg Port.train (modPort_port_ne _ _ _ _ (fun hval => h (congrArg Link.port (Fin.ext hval))))
    | seam k => rfl
  | seam k =>
    cases m with
    | port q => rfl
    | seam j => exact tabGet_tabMod_ne _ _ _ _ _ (fun hval => h (congrArg Link.seam (Fin.ext hval)))

@[simp] theorem modTrain_tide (f : Train → Train) : (s.modTrain l f).tide = s.tide := by cases l <;> rfl

/-- A training that has just reached a state. -/
def Train.enter (t : Train) (st : LState) (tide : Nat) : Train := { t with state := st, lastChange := tide }

/-- A new state is entered; the interrupt of a change to or from ACTIVE is all that happens besides. -/
theorem sameButReports_setTrain {st : LState} (h : (s.train l).state ≠ st) :
    SameButReports (s.modTrain l (·.enter st s.tide)) (s.setTrain l st) := by
  rw [State.setTrain, if_neg h]
  cases l with
  | seam k => exact .rfl
  | port p =>
    dsimp only
    split
    · exact sameButReports_raise ..
    · exact .rfl

theorem setTrain_train {st : LState} (h : (s.train l).state ≠ st) :
    (s.setTrain l st).train l = (s.train l).enter st s.tide := by
  rw [(sameButReports_setTrain s l h).train, modTrain_train]

theorem setTrain_train_ne (st : LState) (h : m ≠ l) : (s.setTrain l st).train m = s.train m := by
  by_cases hst : (s.train l).state = st
  · rw [State.setTrain, if_pos hst]
  · rw [(sameButReports_setTrain s l hst).train, modTrain_train_ne s l _ h]

/-- Whatever its state was, a link is in the state that it is set to. -/
theorem setTrain_state (st : LState) : ((s.setTrain l st).train l).state = st := by
  by_cases h : (s.train l).state = st
  · rw [State.setTrain, if_pos h, h]
  · rw [setTrain_train s l h]
    rfl

/-- A change between states neither of which is ACTIVE raises nothing. -/
theorem setTrain_quiet {st : LState} (h : (s.train l).state ≠ st) (hold : (s.train l).state ≠ .active)
    (hnew : st ≠ .active) : s.setTrain l st = s.modTrain l (·.enter st s.tide) := by
  rw [State.setTrain, if_neg h]
  cases l with
  | seam k => rfl
  | port p => exact if_neg (by simp [hold, hnew])

theorem modTrain_port (p : Fin 24) (f : Train → Train) :
    (s.modTrain (.port p) f).port p = { s.port p with train := f (s.port p).train } := modPort_port ..

theorem modTrain_port_ne {p : Fin 24} {q : Nat} (f : Train → Train) (h : q ≠ p.val) :
    (s.modTrain (.port p) f).port q = s.port q := modPort_port_ne _ _ _ _ h

theorem setTrain_port_ne {p : Fin 24} {q : Nat} (st : LState) (h : q ≠ p.val) :
    (s.setTrain (.port p) st).port q = s.port q := by
  by_cases hst : (s.train (.port p)).state = st
  · rw [State.setTrain, if_pos hst]
  · exact ((sameButReports_setTrain s _ hst).port q).trans (modTrain_port_ne s _ h)

end Changes

/-! ### The end of step 9 (R301, R406) -/

theorem endStep9_eq (s : State) : s.endStep9 = { s with power := s.endStep9.power } := by
  unfold State.endStep9
  dsimp only
  split
  · split <;> rfl
  · rfl

theorem endStep9_of_phase (h : s.power.phase ≠ .starting) : s.endStep9 = s := by
  unfold State.endStep9
  dsimp only
  exact if_neg (by simp [h])

@[simp] theorem endStep9_train (s : State) : s.endStep9.train = s.train :=
  train_congr (congrArg State.ports (endStep9_eq s) :) (congrArg State.seamTrain (endStep9_eq s) :)

/-! ### DETECT and CALIBRATE (R301) -/

theorem exec_portDetect (dt : Nat) (p : Fin 24) (present : Bool) (s : State) :
    exec (.portDetect dt p present) s = execPortDetect dt p present s := rfl

/-- A port that has just looked for its peer. -/
def State.looked (s : State) (p : Fin 24) : State := s.modTrain (.port p) (fun t => { t with lastLook := some s.tide })

theorem looked_train (s : State) (p : Fin 24) :
    (s.looked p).train (.port p) = { (s.port p).train with lastLook := some s.tide } := modTrain_train ..

/-- A port that looks again only 1 ms after its latest look (R301). -/
theorem lastLook_any_of_due {dt : Nat} {p : Fin 24}
    (hdue : ∀ t0, (s.train (.port p)).lastLook = some t0 → t0 + 1000000 ≤ (s.advance dt).tide) :
    (s.train (.port p)).lastLook.any (fun t0 => decide ((s.advance dt).tide < t0 + 1000000)) = false := by
  cases h : (s.train (.port p)).lastLook with
  | none => rfl
  | some t0 =>
    rw [Option.any_some]
    exact decide_eq_false (Nat.not_lt.mpr (hdue t0 h))

/-- A look that is due and finds the peer takes the port to CALIBRATE. -/
theorem portDetect_of_present {dt : Nat} {p : Fin 24}
    (hstate : (s.train (.port p)).state = .detect ∨ (s.train (.port p)).state = .down) (hport : p.val < s.nPorts)
    (hdue : ∀ t0, (s.train (.port p)).lastLook = some t0 → t0 + 1000000 ≤ (s.advance dt).tide) :
    exec (.portDetect dt p true) s =
      .next (((s.advance dt).looked p).setTrain (.port p) .calibrate).endStep9 := by
  have hlink : (s.advance dt).hasLink (.port p) = true := decide_eq_true hport
  rw [exec_portDetect, execPortDetect]
  refine (if_neg ?_).trans (congrArg (fun t : State => Host.Outcome.next t.endStep9) (if_pos rfl))
  rw [advance_train, lastLook_any_of_due hdue, hlink]
  simpa [Decidable.or_iff_not_imp_left] using hstate

theorem looked_state {p : Fin 24} (hstate : (s.train (.port p)).state = .detect ∨ (s.train (.port p)).state = .down) :
    ((s.looked p).train (.port p)).state = .detect ∨ ((s.looked p).train (.port p)).state = .down := by
  rw [looked_train]
  exact hstate

/-- Neither DETECT, DOWN nor CALIBRATE is ACTIVE, so that nothing but the port's training changes. -/
theorem looked_calibrate {p : Fin 24}
    (hstate : (s.train (.port p)).state = .detect ∨ (s.train (.port p)).state = .down) :
    (s.looked p).setTrain (.port p) .calibrate = (s.looked p).modTrain (.port p) (·.enter .calibrate s.tide) := by
  refine setTrain_quiet _ _ ?_ ?_ (by decide) <;> rcases looked_state hstate with h | h <;> rw [h] <;> decide

theorem exec_calibrationDone (dt : Nat) (l : Link) (margins : List Nat) (s : State) :
    exec (.calibrationDone dt l margins) s = execCalibrationDone dt l margins s := rfl

/-- The eye margin of a lane: one below the least margin fails it (R301). -/
def Lane.measure (x : Lane) (margin : Nat) : Lane :=
  { x with margin := margin, failed := x.failed || decide (margin < Config.eyeMargin) }

/-- A training with one lane changed. -/
def Train.modLane (t : Train) (i : Nat) (f : Lane → Lane) : Train := { t with lanes := tabMod {} t.lanes i f }

theorem modLane_lane (t : Train) (i : Nat) (f : Lane → Lane) : (t.modLane i f).lane i = f (t.lane i) :=
  tabGet_tabMod_same ..

theorem modLane_lane_ne (t : Train) {i j : Nat} (f : Lane → Lane) (h : i ≠ j) : (t.modLane j f).lane i = t.lane i :=
  tabGet_tabMod_ne _ _ _ _ _ h

/-- The margins of some positions, one after the other. -/
def Train.measure (t : Train) (margins : List Nat) (positions : List Nat) : Train :=
  positions.foldl (fun t i => t.modLane i (·.measure (margins.getD i 0))) t

/-- The training with the margins of its positions and of its spare. -/
def Train.calibrated (t : Train) (margins : List Nat) : Train :=
  let t := t.measure margins (List.range 8)
  { t with spareFailed := t.spareFailed || decide (margins.getD 8 0 < Config.eyeMargin) }

theorem measure_lane_of_notMem {margins positions : List Nat} {i : Nat} (h : i ∉ positions) (t : Train) :
    (t.measure margins positions).lane i = t.lane i := by
  induction positions generalizing t with
  | nil => rfl
  | cons j js ih =>
    obtain ⟨hne, hrest⟩ := not_or.mp (fun hmem => h (List.mem_cons.mpr hmem))
    exact (ih hrest _).trans (modLane_lane_ne t _ hne)

/-- Every position is measured once. -/
theorem measure_lane {margins positions : List Nat} {i : Nat} (hnodup : positions.Nodup) (h : i ∈ positions)
    (t : Train) : (t.measure margins positions).lane i = (t.lane i).measure (margins.getD i 0) := by
  induction positions generalizing t with
  | nil => cases h
  | cons j js ih =>
    obtain ⟨hnot, hrest⟩ := List.nodup_cons.mp hnodup
    rcases List.mem_cons.mp h with rfl | h
    · exact (measure_lane_of_notMem hnot _).trans (modLane_lane t i _)
    · have hne : i ≠ j := fun hij => hnot (hij ▸ h)
      exact (ih hrest h _).trans (congrArg (Lane.measure · _) (modLane_lane_ne t _ hne))

theorem calibrated_lane {i : Nat} (hi : i < 8) (t : Train) (margins : List Nat) :
    (t.calibrated margins).lane i = (t.lane i).measure (margins.getD i 0) := by
  have hlanes : (t.calibrated margins).lanes = (t.measure margins (List.range 8)).lanes := rfl
  rw [Train.lane, hlanes]
  exact measure_lane List.nodup_range (List.mem_range.mpr hi) t

theorem measure_state (t : Train) (margins positions : List Nat) : (t.measure margins positions).state = t.state := by
  induction positions generalizing t with
  | nil => rfl
  | cons j js ih => exact ih _

theorem calibrated_state (t : Train) (margins : List Nat) : (t.calibrated margins).state = t.state :=
  measure_state t margins (List.range 8)

theorem calibrationDone_of_calibrate {dt : Nat} {margins : List Nat} (h : (s.train l).state = .calibrate) :
    exec (.calibrationDone dt l margins) s =
      .next (((s.advance dt).modTrain l (·.calibrated margins)).toAlign l 1) := by
  rw [exec_calibrationDone, execCalibrationDone]
  exact if_neg (by simp [h])

/-! ### ALIGN and WIDTH (R301, R305) -/

/-- A training in ALIGN with the attempt and the serial that follow it. -/
def Train.aligning (t : Train) (attempt : Nat) (id : W16) (tide : Nat) : Train :=
  let t := { t with
    attempt := attempt, trainId := id, peerOffer := none, peerConfirm := none, ownAgreed := none }
  t.enter .align tide

theorem aligning_lane (t : Train) (attempt : Nat) (id : W16) (tide i : Nat) :
    (t.aligning attempt id tide).lane i = t.lane i := rfl

theorem alignWith_train {attempt : Nat} {id : W16} (h : (s.train l).state ≠ .align) :
    (s.alignWith l attempt id).train l = (s.train l).aligning attempt id s.tide := by
  rw [State.alignWith, setTrain_train _ _ (by rwa [modTrain_train]), modTrain_train, modTrain_tide]
  rfl

theorem alignWith_train_ne (attempt : Nat) (id : W16) (h : m ≠ l) :
    (s.alignWith l attempt id).train m = s.train m := by
  rw [State.alignWith, setTrain_train_ne _ _ _ h, modTrain_train_ne _ _ _ h]

theorem toAlign_train {attempt : Nat} (h : (s.train l).state ≠ .align) :
    ∃ id, (s.toAlign l attempt).train l = (s.train l).aligning attempt id s.tide := ⟨_, alignWith_train h⟩

theorem alignWith_mem (s : State) (l : Link) (attempt : Nat) (id : W16) : (s.alignWith l attempt id).mem = s.mem := by
  obtain ⟨-, -, -, hmem, -⟩ := (keepsCommitted_modTrain s l _).trans (keepsCommitted_setTrain _ l .align)
  exact hmem

theorem exec_symbolLock (dt : Nat) (l : Link) (s : State) : exec (.symbolLock dt l) s = execSymbolLock dt l s := rfl

/-- A link whose attempt begins (R305). -/
def State.started (s : State) (l : Link) : State := s.modTrain l (fun t => { t with attemptStart := s.tide })

theorem started_train (s : State) (l : Link) :
    (s.started l).train l = { s.train l with attemptStart := s.tide } := modTrain_train ..

theorem symbolLock_of_align {dt : Nat} (h : (s.train l).state = .align) :
    exec (.symbolLock dt l) s = .next (((s.advance dt).started l).setTrain l .width) := by
  rw [exec_symbolLock, execSymbolLock]
  exact if_neg (by simp [h])

theorem exec_roleWaitRetry (dt : Nat) (p : Fin 24) (s : State) :
    exec (.roleWaitRetry dt p) s = execRoleWaitRetry dt p s := rfl

theorem roleWaitRetry_of_due {dt : Nat} {p : Fin 24} (h : (s.train (.port p)).state = .roleWait)
    (hdue : (s.train (.port p)).attemptStart + 1000000 ≤ (s.advance dt).tide) :
    exec (.roleWaitRetry dt p) s = .next ((s.advance dt).nextAttempt (.port p) 1) := by
  rw [exec_roleWaitRetry, execRoleWaitRetry]
  exact if_neg (by simp [h, Nat.not_lt.mpr hdue])

/-! ### A failed attempt (R305, R376) -/

theorem attemptFault_of_none (h : ∀ r ∈ s.log.recoveries, r.ofLink l = false) : s.attemptFault l = s := by
  rw [State.attemptFault, List.find?_eq_none.mpr (fun r hr => by simp [h r hr])]

@[simp] theorem logFlag_train (s : State) (overlap : Bool) (src code sev a0 a1 a2 : Nat) :
    (s.logFlag overlap src code sev a0 a1 a2).train = s.train := by
  rw [logFlag_eq]
  exact train_congr rfl rfl

theorem declareFault_train (s : State) (source cls unit : Nat) (noSpare : Bool) :
    (s.declareFault source cls unit noSpare).train = s.train :=
  (train_congr rfl rfl).trans ((logFlag_train ..).trans (train_congr rfl rfl))

@[simp] theorem attemptFault_train (s : State) (l : Link) : (s.attemptFault l).train = s.train := by
  unfold State.attemptFault
  split
  · exact declareFault_train ..
  · rfl

theorem linkDown_train (s : State) (l : Link) : (s.linkDown l).train = (s.setTrain l .down).train := by
  cases l with
  | port p => rfl
  | seam k => exact (logRec_train ..).trans (train_congr rfl rfl)

section Failures

variable (next : State → Nat → State)

theorem afterFailure_of_attempt (h1 : 1 ≤ (s.train l).attempt) (h3 : (s.train l).attempt < 3) :
    s.afterFailure l next = next (s.attemptFault l) ((s.train l).attempt + 1) := by
  rw [State.afterFailure, if_neg (by omega), if_pos h3]

theorem afterFailure_of_last (h : 3 ≤ (s.train l).attempt) :
    s.afterFailure l next = next ((s.attemptFault l).noteFallback l) 0 := by
  rw [State.afterFailure, if_neg (by omega), if_neg (by omega)]

theorem afterFailure_of_fallback (h : (s.train l).attempt = 0) :
    s.afterFailure l next = (s.attemptFault l).linkDown l := by
  rw [State.afterFailure, if_pos h]

end Failures

theorem exec_widthAttemptTimeout (dt : Nat) (l : Link) (s : State) :
    exec (.widthAttemptTimeout dt l) s = execWidthAttemptTimeout dt l s := rfl

theorem widthAttemptTimeout_of_due {dt : Nat} (h : (s.train l).state = .width)
    (hdue : (s.train l).attemptStart + 20000 ≤ (s.advance dt).tide) : exec (.widthAttemptTimeout dt l) s =
      .next ((s.advance dt).afterFailure l (fun s a => s.nextAttempt l a)) := by
  rw [exec_widthAttemptTimeout, execWidthAttemptTimeout]
  exact if_neg (by simp [h, Nat.not_lt.mpr hdue])

/-! ### Training blocks (R302, R308) -/

theorem exec_trainingBlockReceive (dt : Nat) (l : Link) (b : List Byte) (crc : W32) (s : State) :
    exec (.trainingBlockReceive dt l b crc) s = execTrainingBlockReceive dt l b crc s := rfl

section Blocks

variable {dt : Nat} {b : List Byte} {crc : W32} {w : WidthWord}

theorem trainingBlockReceive_of_bad (h : trainingWord (b ++ toBytes 4 crc.toNat) = none) :
    exec (.trainingBlockReceive dt l b crc) s = .next (s.advance dt) := by
  rw [exec_trainingBlockReceive, execTrainingBlockReceive, h]
  rfl

theorem trainingBlockReceive_of_active (h : trainingWord (b ++ toBytes 4 crc.toNat) = some w)
    (hactive : (s.train l).state = .active) : exec (.trainingBlockReceive dt l b crc) s =
      .next (((s.advance dt).countRetrain l).alignWith l 1 (s.train l).trainId) := by
  rw [exec_trainingBlockReceive, execTrainingBlockReceive, h]
  simp only [advance_train, hactive, decide_true, Bool.true_or, if_pos, State.blockInService]

theorem trainingBlockReceive_of_exchange (h : trainingWord (b ++ toBytes 4 crc.toNat) = some w)
    (hstate : (s.train l).state = .width ∨ (s.train l).state = .roleWait) :
    exec (.trainingBlockReceive dt l b crc) s = .next ((s.advance dt).takeWord l w) := by
  rw [exec_trainingBlockReceive, execTrainingBlockReceive, h]
  rcases hstate with hstate | hstate <;> simp [hstate]

end Blocks

/-- A port that its peer has sent back to ALIGN keeps its lanes, and counts the retrain. -/
theorem retrained_port {p : Fin 24} {attempt : Nat} {id : W16} (hactive : (s.port p).train.state = .active) :
    ((s.countRetrain (.port p)).alignWith (.port p) attempt id).port p = { s.port p with
      retrains := satAdd 16 (s.port p).retrains 1
      train := (s.port p).train.aligning attempt id s.tide } := by
  have hcounted : (s.countRetrain (.port p)).port p =
      { s.port p with retrains := satAdd 16 (s.port p).retrains 1 } := modPort_port ..
  have hstate : ((s.countRetrain (.port p)).train (.port p)).state ≠ .align := by
    rw [show ((s.countRetrain (.port p)).train (.port p)).state = .active from
      (congrArg (fun x : Port => x.train.state) hcounted).trans hactive]
    decide
  rw [State.alignWith, (sameButReports_setTrain _ _ (by rwa [modTrain_train])).port, modTrain_port, modTrain_port,
    hcounted, modTrain_tide]
  rfl

theorem retrained_port_ne {p : Fin 24} {q attempt : Nat} {id : W16} (h : q ≠ p.val) :
    ((s.countRetrain (.port p)).alignWith (.port p) attempt id).port q = s.port q :=
  (setTrain_port_ne _ _ h).trans ((modTrain_port_ne _ _ h).trans (modPort_port_ne _ _ _ _ h))

/-! ### The width-agreement exchange (R303 to R306) -/

section Exchange

variable {w : WidthWord}

theorem serialNewer_self (a : W16) : serialNewer a a = false := by
  simp [serialNewer]

/-- A word of the attempt in progress neither resets it nor is newer (R306). -/
theorem takeWord_of_current (hreset : w.reset = false) (hid : w.trainId = (s.train l).trainId) :
    s.takeWord l w = s.acceptWord l w := by
  have hadopts : (s.train l).adopts w = none := by
    simp [Train.adopts, hreset, hid, serialNewer_self]
  simp [State.takeWord, hreset, hadopts, hid]

theorem spareOk_modTrain (s : State) (l : Link) {f : Train → Train}
    (hf : (f (s.train l)).spareFailed = (s.train l).spareFailed) : (s.modTrain l f).spareOk l = s.spareOk l := by
  cases l with
  | seam k => rfl
  | port p =>
    have hport : ((s.modTrain (.port p) f).port p).train.spareFailed = (s.port p).train.spareFailed :=
      (congrArg (fun x : Port => x.train.spareFailed) (modTrain_port s p f)).trans hf
    exact congrArg (fun failed => (s.portItem p).spare.isSome && !failed) hport

theorem advance_rolesPair (s : State) (dt : Nat) (l : Link) (w : WidthWord) :
    (s.advance dt).rolesPair l w = s.rolesPair l w := by
  cases l <;> rfl

theorem rolesPair_modTrain (s : State) (l : Link) (f : Train → Train) (w : WidthWord) :
    (s.modTrain l f).rolesPair l w = s.rolesPair l w := by
  cases l <;> rfl

theorem judge_of_unconfirmed (h : (s.train l).peerConfirm = none) : s.judge l = s := by
  rw [State.judge, h]
  split
  · rename_i heq
    cases heq
  · rfl

theorem judge_of_agreed {own : Byte} {offer : WidthWord} (hown : (s.train l).ownAgreed = some own)
    (hoffer : (s.train l).peerOffer = some offer) (hconfirm : (s.train l).peerConfirm = some w)
    (hagreed : w.agreed = own) (hsome : own ≠ 0) : s.judge l =
      if s.rolesPair l w then
        s.toVerify l own (steer (s.train l).mask offer.mask (s.spareOk l && offer.spareOk)).2
      else (s.modTrain l (fun t => { t with roleMismatch := true })).setTrain l .roleWait := by
  rw [State.judge, hown, hoffer, hconfirm]
  simp only [hagreed, ne_eq, not_true_eq_false, if_false, hsome]

/-- The training of a link that has heard of its peer's module and port. -/
def Train.hear (t : Train) (w : WidthWord) : Train := { t with peerModule := w.module, peerPort := w.port }

/-- The training of a link that answers an offer of its attempt (R304). -/
def Train.answer (t : Train) (seam : Bool) (w : WidthWord) (c : Nat) : Train :=
  { t with peerOffer := some w, ownAgreed := some (agreedOf seam (t.attempt == 0) c) }

/-- The training of a link that holds a confirm of its peer (R304). -/
def Train.confirm (t : Train) (w : WidthWord) : Train := { t with peerConfirm := some w }

/-- What this end answers an offer with: the positions that both ends can use, and the one steered onto the spare. -/
def State.steered (s : State) (l : Link) (w : WidthWord) : Nat × Option Nat :=
  steer (s.train l).mask w.mask (s.spareOk l && w.spareOk)

/-- A change of a training that leaves its lanes and its spare leaves what the link answers. -/
theorem steered_modTrain (s : State) (l : Link) {f : Train → Train} (hlanes : (f (s.train l)).lanes = (s.train l).lanes)
    (hspare : (f (s.train l)).spareFailed = (s.train l).spareFailed) (w : WidthWord) :
    (s.modTrain l f).steered l w = s.steered l w := by
  have hmask : ((s.modTrain l f).train l).mask = (s.train l).mask := by
    rw [modTrain_train]
    unfold Train.mask Train.lane
    rw [hlanes]
  rw [State.steered, hmask, spareOk_modTrain s l hspare]
  rfl

/-- An offer is answered; with no confirm held there is nothing to judge. -/
theorem acceptWord_of_offer (hword : w.confirm = false) (hnone : (s.train l).peerConfirm = none) : s.acceptWord l w =
    (s.modTrain l (·.hear w)).modTrain l (fun t => t.answer (seamOf l).isSome w (s.steered l w).1) := by
  have hsteered := steered_modTrain s l (f := (·.hear w)) rfl rfl w
  rw [State.steered] at hsteered
  refine (if_neg (by simp [hword])).trans ((judge_of_unconfirmed ?_).trans ?_)
  · rw [modTrain_train]
    exact (congrArg Train.peerConfirm (modTrain_train s l (·.hear w))).trans hnone
  · exact congrArg (fun c : Nat × Option Nat => (s.modTrain l (·.hear w)).modTrain l
      (fun t => t.answer (seamOf l).isSome w c.1)) hsteered

/-- A link that holds a confirm of its peer. -/
def State.confirmed (s : State) (l : Link) (w : WidthWord) : State :=
  (s.modTrain l (·.hear w)).modTrain l (·.confirm w)

theorem confirmed_train (s : State) (l : Link) (w : WidthWord) :
    (s.confirmed l w).train l = ((s.train l).hear w).confirm w := by
  rw [State.confirmed, modTrain_train, modTrain_train]

theorem confirmed_train_ne (h : m ≠ l) (w : WidthWord) : (s.confirmed l w).train m = s.train m :=
  (modTrain_train_ne _ _ _ h).trans (modTrain_train_ne _ _ _ h)

/-- A confirm of what this end agreed on takes the link to VERIFY, or to ROLE_WAIT where the roles do not pair. -/
theorem acceptWord_of_confirm {own : Byte} {offer : WidthWord} (hword : w.confirm = true)
    (hown : (s.train l).ownAgreed = some own) (hoffer : (s.train l).peerOffer = some offer) (hagreed : w.agreed = own)
    (hsome : own ≠ 0) : s.acceptWord l w =
      if s.rolesPair l w then (s.confirmed l w).toVerify l own (s.steered l offer).2
      else ((s.confirmed l w).modTrain l (fun t => { t with roleMismatch := true })).setTrain l .roleWait := by
  have htrain := confirmed_train s l w
  have hsteered : (s.confirmed l w).steered l offer = s.steered l offer :=
    (steered_modTrain _ l (f := (·.confirm w)) rfl rfl offer).trans
      (steered_modTrain s l (f := (·.hear w)) rfl rfl offer)
  have hroles : (s.confirmed l w).rolesPair l w = s.rolesPair l w :=
    (rolesPair_modTrain ..).trans (rolesPair_modTrain ..)
  refine (if_pos hword).trans ((judge_of_agreed (s := s.confirmed l w) (own := own) (offer := offer) ?_ ?_ ?_ hagreed
    hsome).trans ?_)
  · rw [htrain]
    exact hown
  · rw [htrain]
    exact hoffer
  · rw [htrain]
    rfl
  · rw [hroles, ← State.steered, hsteered]

/-- A training in VERIFY with the lanes agreed on (R301, R304). -/
def Train.verifying (t : Train) (agreed : Byte) (sparePos : Option Nat) (tide : Nat) : Train :=
  let t := { t with
    agreed := agreed, sparePos := sparePos, roleMismatch := false, verifyLeft := 64, verifyCorrected := [] }
  t.enter .verify tide

theorem toVerify_train (h : (s.train l).state ≠ .verify) (agreed : Byte) (sparePos : Option Nat) :
    (s.toVerify l agreed sparePos).train l = (s.train l).verifying agreed sparePos s.tide := by
  rw [State.toVerify, setTrain_train _ _ (by rwa [modTrain_train]), modTrain_train, modTrain_tide]
  rfl

theorem toVerify_train_ne (h : m ≠ l) (agreed : Byte) (sparePos : Option Nat) :
    (s.toVerify l agreed sparePos).train m = s.train m :=
  (setTrain_train_ne _ _ _ h).trans (modTrain_train_ne _ _ _ h)

end Exchange

end Sys2Proof.Machine
end

section
/-! PROOF. Test codewords (chapter 14): VERIFY ends in ACTIVE or fails a lane and its attempt. -/

namespace Sys2Proof.Machine

variable {s : State} {l m : Link} {cw : CodewordIn}

/-! ### Corrected symbols (R307, R309) -/

/-- A codeword without a wrong symbol has none to correct. -/
theorem correctedOn_of_clean (h : cw.errors = []) (agreed : Byte) (i : Nat) : correctedOn agreed cw i = 0 := by
  simp [correctedOn, wrongOn, h]

/-- An uncorrectable codeword has no corrected symbol. -/
theorem correctedOn_of_uncorrectable (h : uncorrectable cw = true) (agreed : Byte) (i : Nat) :
    correctedOn agreed cw i = 0 := if_pos h

theorem uncorrectable_of_clean (h : cw.errors = []) : uncorrectable cw = false := by
  simp [uncorrectable, h]

theorem mem_bitsSet_lt {x n i : Nat} (h : i ∈ bitsSet x n) : i < n := (mem_bitsSet.mp h).1

/-- A table that lists a function's values on some numbers. -/
theorem tabGet_map_self {α : Type} (d : α) (g : Nat → α) {is : List Nat} {i : Nat} (h : i ∈ is) :
    tabGet d (is.map (fun j => (j, g j))) i = g i := by
  induction is with
  | nil => cases h
  | cons j js ih =>
    rw [List.map_cons, tabGet]
    split
    · next hj => rw [hj]
    · next hj => exact ih ((List.mem_cons.mp h).resolve_left (Ne.symm hj))

/-! ### Counting a codeword -/

/-- A port that has counted corrected symbols. -/
def Port.addFec (x : Port) (n : Nat) : Port := { x with fecCorrected := (x.fecCorrected + n) % 2 ^ 64 }

theorem addFec_train (x : Port) (n : Nat) : (x.addFec n).train = x.train := rfl

theorem countFec_port (s : State) (p : Fin 24) (cw : CodewordIn) : s.countFec (.port p) cw =
    (s.modTrain (.port p) (fun t => t.correct s.tide cw)).modPort p
      (·.addFec (sumNat ((List.range 8).map (correctedOn (s.train (.port p)).agreed cw)))) := rfl

/-- The corrections are all that a counted codeword changes of the trainings. -/
theorem countFec_trains (s : State) (l : Link) (cw : CodewordIn) :
    (s.countFec l cw).train = (s.modTrain l (fun t => t.correct s.tide cw)).train := by
  cases l with
  | port p =>
    rw [countFec_port, modPort_train]
    exact (addFec_train · _)
  | seam k => rfl

theorem countUncorr_train (s : State) (l : Link) : (s.countUncorr l).train = s.train := by
  cases l with
  | port p => exact modPort_train _ _ (fun _ => rfl)
  | seam k => rfl

/-! ### A test codeword (R301) -/

/-- A training that has counted a test codeword. -/
def Train.tested (t : Train) (tide : Nat) (cw : CodewordIn) : Train :=
  let t := t.correct tide cw
  { t with
    verifyLeft := t.verifyLeft - 1
    verifyCorrected := (List.range 8).map (fun i => (i, tabGet 0 t.verifyCorrected i + correctedOn t.agreed cw i)) }

theorem tested_attempt (t : Train) (tide : Nat) (cw : CodewordIn) : (t.tested tide cw).attempt = t.attempt := rfl

theorem tested_state (t : Train) (tide : Nat) (cw : CodewordIn) : (t.tested tide cw).state = t.state := rfl

/-- A test codeword counted, before it is judged. -/
def State.tested (s : State) (l : Link) (cw : CodewordIn) : State :=
  (if uncorrectable cw then (s.countFec l cw).countUncorr l else s.countFec l cw).modTrain l (fun t => { t with
    verifyLeft := t.verifyLeft - 1
    verifyCorrected := (List.range 8).map (fun i => (i, tabGet 0 t.verifyCorrected i + correctedOn t.agreed cw i)) })

theorem tested_train (s : State) (l : Link) (cw : CodewordIn) :
    (s.tested l cw).train l = (s.train l).tested s.tide cw := by
  rw [State.tested, modTrain_train]
  have hcounted : (if uncorrectable cw then (s.countFec l cw).countUncorr l else s.countFec l cw).train l =
      (s.train l).correct s.tide cw := by
    split
    · rw [countUncorr_train, countFec_trains, modTrain_train]
    · rw [countFec_trains, modTrain_train]
  rw [hcounted]
  rfl

theorem tested_train_ne (h : m ≠ l) : (s.tested l cw).train m = s.train m := by
  rw [State.tested, modTrain_train_ne _ _ _ h]
  split
  · rw [countUncorr_train, countFec_trains, modTrain_train_ne _ _ _ h]
  · rw [countFec_trains, modTrain_train_ne _ _ _ h]

theorem verifyWord_of_passed (h : ((s.tested l cw).train l).verifyFailed cw = none) : s.verifyWord l cw =
    if ((s.tested l cw).train l).verifyLeft = 0 then (s.tested l cw).toActive l else s.tested l cw := by
  change (match ((s.tested l cw).train l).verifyFailed cw with
    | some i => _
    | none => _) = _
  rw [h]
  rfl

/-- A position that a failed VERIFY fails: the spare that carries it, or its own lane. -/
def Train.failPosition (t : Train) (i : Nat) : Train :=
  if t.sparePos = some i then { t with spareFailed := true } else t.failLane i

theorem failPosition_keeps (t : Train) (i : Nat) :
    (t.failPosition i).attempt = t.attempt ∧ (t.failPosition i).state = t.state := by
  unfold Train.failPosition
  split <;> exact ⟨rfl, rfl⟩

theorem verifyWord_of_failed {i : Nat} (h : ((s.tested l cw).train l).verifyFailed cw = some i) : s.verifyWord l cw =
    ((s.tested l cw).modTrain l (·.failPosition i)).afterFailure l (fun s a => s.toAlign l a) := by
  change (match ((s.tested l cw).train l).verifyFailed cw with
    | some i => _
    | none => _) = _
  rw [h]
  rfl

/-- Where no position has more than 8 corrected symbols and the codeword adds none, only an uncorrectable one fails a
lane (R301; log 34). -/
theorem verifyFailed_tested {t : Train} {tide : Nat} (hfew : ∀ i, i < 8 → tabGet 0 t.verifyCorrected i ≤ 8)
    (hnone : ∀ i, correctedOn t.agreed cw i = 0) :
    (t.tested tide cw).verifyFailed cw = if uncorrectable cw then worstLane t.agreed cw else none := by
  have hcorrected (i : Nat) (hi : i ∈ bitsSet t.agreed.toNat 8) :
      ¬ decide (8 < tabGet 0 (t.tested tide cw).verifyCorrected i) = true := by
    have hlt : i < 8 := mem_bitsSet_lt hi
    have hget : tabGet 0 (t.tested tide cw).verifyCorrected i =
        tabGet 0 t.verifyCorrected i + correctedOn t.agreed cw i :=
      tabGet_map_self 0 (fun i => tabGet 0 t.verifyCorrected i + correctedOn t.agreed cw i) (List.mem_range.mpr hlt)
    rw [hget, hnone, decide_eq_true_eq]
    exact Nat.not_lt.mpr (hfew i hlt)
  have hfind : (bitsSet (t.tested tide cw).agreed.toNat 8).find?
      (fun i => decide (8 < tabGet 0 (t.tested tide cw).verifyCorrected i)) = none :=
    List.find?_eq_none.mpr hcorrected
  rw [Train.verifyFailed, hfind]
  rfl

/-! ### ACTIVE (R253, R301) -/

theorem compareSide_train (s : State) (k : Nat) (prev : Bool) : (s.compareSide k prev).train = s.train := by
  unfold State.compareSide
  dsimp only
  have hnote (x : State) (bad : Bool) : (if (x.ctx k).mismatch prev = bad then x
      else x.modCtx k (fun y =>
        if prev then { y with prevMismatch := bad } else { y with nextMismatch := bad })).train = x.train := by
    split
    · rfl
    · exact train_congr rfl rfl
  refine (hnote _ _).trans ?_
  generalize (if prev = true then (s.ctxItem k).prevKind else (s.ctxItem k).nextKind) = kind
  split
  · rfl
  · split
    · rfl
    · exact train_congr rfl rfl

theorem hearPeer_train (s : State) (k : Nat) (prev : Bool) : (s.hearPeer k prev).train = s.train := by
  unfold State.hearPeer
  dsimp only
  generalize (if prev = true then (s.ctxItem k).prevKind else (s.ctxItem k).nextKind) = kind
  have hdraw : s.draw.2.train = s.train := train_congr rfl rfl
  split
  · rfl
  · split
    · exact (compareSide_train ..).trans hdraw
    · exact hdraw

theorem hearPeers_train (s : State) (p : Nat → Bool) : (s.hearPeers p).train = s.train := by
  refine foldl_train s (fun s k => ?_) _
  dsimp only
  have hside (v : State) (named prev : Bool) : (if named then v.hearPeer k prev else v).train = v.train := by
    split
    · exact hearPeer_train ..
    · rfl
  exact (hside ..).trans (hside ..)

/-- What a link that comes up sets going leaves its training, and every other link's, as it stands. -/
theorem toActive_train (s : State) (l : Link) : (s.toActive l).train = (s.setTrain l .active).train := by
  cases l with
  | port p =>
    unfold State.toActive
    dsimp only
    rw [endStep9_train, pump_train, hearPeers_train]
  | seam k =>
    unfold State.toActive
    dsimp only
    rw [wakeHeld_train]
    exact train_congr rfl rfl

/-! ### CODEWORD_RECEIVE in VERIFY -/

theorem exec_codewordReceive (dt : Nat) (l : Link) (cw : CodewordIn) (s : State) :
    exec (.codewordReceive dt l cw) s = execCodewordReceive dt l cw s := rfl

theorem codewordReceive_of_verify {dt : Nat} (h : (s.train l).state = .verify) :
    exec (.codewordReceive dt l cw) s = .next ((s.advance dt).verifyWord l cw) := by
  rw [exec_codewordReceive]
  unfold execCodewordReceive
  exact if_pos h

/-- A clean test codeword that is not the last one is counted. -/
theorem verifyWord_of_clean (hclean : cw.errors = []) (hfew : ∀ i, i < 8 → tabGet 0 (s.train l).verifyCorrected i ≤ 8) :
    s.verifyWord l cw = if (s.train l).verifyLeft - 1 = 0 then (s.tested l cw).toActive l else s.tested l cw := by
  have hpassed : ((s.tested l cw).train l).verifyFailed cw = none := by
    rw [tested_train, verifyFailed_tested hfew (correctedOn_of_clean hclean _), uncorrectable_of_clean hclean]
    rfl
  rw [verifyWord_of_passed hpassed, tested_train]
  rfl

/-- The last clean one takes the link to ACTIVE. -/
theorem toActive_tested (hstate : (s.train l).state = .verify) :
    (((s.tested l cw).toActive l).train l).state = .active ∧
      (((s.tested l cw).toActive l).train l).agreed = (s.train l).agreed ∧
      ∀ k, k ≠ l → (((s.tested l cw).toActive l).train k).state = (s.train k).state := by
  have htested := tested_train s l cw
  have hne : ((s.tested l cw).train l).state ≠ .active := by
    rw [htested, tested_state, hstate]
    decide
  refine ⟨?_, ?_, fun k hk => ?_⟩
  · rw [toActive_train, setTrain_state]
  · rw [toActive_train, setTrain_train _ _ hne, htested]
    rfl
  · rw [toActive_train, setTrain_train_ne _ _ _ hk, tested_train_ne hk]

/-- An uncorrectable test codeword fails the worst lane, and the attempt (R301, R305; log 34). -/
theorem verifyWord_of_uncorrectable {i : Nat} (hstate : (s.train l).state = .verify) (hbad : uncorrectable cw = true)
    (hfew : ∀ j, j < 8 → tabGet 0 (s.train l).verifyCorrected j ≤ 8)
    (hworst : worstLane (s.train l).agreed cw = some i) (h1 : 1 ≤ (s.train l).attempt) (h3 : (s.train l).attempt < 3) :
    ∃ id tide, (s.verifyWord l cw).train l =
      (((s.train l).tested s.tide cw).failPosition i).aligning ((s.train l).attempt + 1) id tide := by
  have hfailed : ((s.tested l cw).train l).verifyFailed cw = some i := by
    rw [tested_train, verifyFailed_tested hfew (correctedOn_of_uncorrectable hbad _), if_pos hbad, hworst]
  have htrain : ((s.tested l cw).modTrain l (·.failPosition i)).train l =
      ((s.train l).tested s.tide cw).failPosition i := by
    rw [modTrain_train, tested_train]
  obtain ⟨hattempt, hverify⟩ := failPosition_keeps ((s.train l).tested s.tide cw) i
  rw [tested_attempt] at hattempt
  rw [tested_state, hstate] at hverify
  rw [verifyWord_of_failed hfailed,
    afterFailure_of_attempt _ (by rwa [htrain, hattempt]) (by rwa [htrain, hattempt]), htrain, hattempt]
  obtain ⟨id, hid⟩ := toAlign_train (s := ((s.tested l cw).modTrain l (·.failPosition i)).attemptFault l) (l := l)
    (attempt := (s.train l).attempt + 1) (by rw [attemptFault_train, htrain, hverify]; decide)
  rw [attemptFault_train, htrain] at hid
  exact ⟨id, _, hid⟩

theorem failPosition_spare {t : Train} {i : Nat} (h : t.sparePos = some i) : (t.failPosition i).spareFailed = true := by
  rw [Train.failPosition, if_pos h]

theorem failPosition_lane {t : Train} {i : Nat} (h : t.sparePos ≠ some i) :
    ((t.failPosition i).lane i).failed = true := by
  rw [Train.failPosition, if_neg h]
  exact congrArg Lane.failed (modLane_lane t i (fun x => { x with failed := true }))

end Sys2Proof.Machine
end

section
/-! PROOF. Codewords of an ACTIVE port (chapter 14): what is taken, and what asks for a replay. -/

namespace Sys2Proof.Machine

variable {s t u : State} {p : Fin 24} {cw : CodewordIn} {x : Port}

/-! ### A change of one port -/

/-- Two states that differ at most in one port. -/
def SameButPort (p : Nat) (s t : State) : Prop := (∀ q, q ≠ p → t.port q = s.port q) ∧ t = { s with ports := t.ports }

theorem SameButPort.trans {p : Nat} (hst : SameButPort p s t) (htu : SameButPort p t u) : SameButPort p s u := by
  obtain ⟨hst, hs⟩ := hst
  obtain ⟨htu, ht⟩ := htu
  exact ⟨fun q hq => (htu q hq).trans (hst q hq), ht.trans (congrArg (fun v : State => { v with ports := u.ports }) hs)⟩

theorem sameButPort_modPort (s : State) (p : Nat) (f : Port → Port) : SameButPort p s (s.modPort p f) :=
  ⟨fun _ hq => modPort_port_ne _ _ _ _ hq, rfl⟩

/-! ### Corrections that a codeword does not bring (R307) -/

/-- Corrected symbols of a lane within 1 ms. -/
def Lane.recentSum (x : Lane) : Nat := sumNat (x.recent.map (fun e => e.2))

theorem correct_recentSum_le (x : Lane) (tide : Nat) : (x.correct tide 0).recentSum ≤ x.recentSum :=
  List.Sublist.sum_le_sum (List.filter_sublist.map _) (fun _ _ => Nat.zero_le _)

theorem tooMany_eq_none_iff {t : Train} :
    t.tooMany = none ↔ ∀ i ∈ bitsSet t.agreed.toNat 8, (t.lane i).recentSum ≤ 4096 := by
  simp [Train.tooMany, Lane.recentSum]

/-- Without a corrected symbol no lane's corrections of the last 1 ms grow. -/
theorem correct_lane_recentSum_le {t : Train} (hnone : ∀ i, correctedOn t.agreed cw i = 0) (tide i : Nat) :
    ((t.correct tide cw).lane i).recentSum ≤ (t.lane i).recentSum := by
  unfold Train.lane Train.correct
  dsimp only
  refine List.foldlRecOn (motive := fun ls : Tab Lane => (tabGet {} ls i).recentSum ≤ (tabGet {} t.lanes i).recentSum)
    (List.range 8) _ (Nat.le_refl _) (fun ls hle j _ => ?_)
  split
  · exact hle
  · rw [hnone j]
    by_cases hij : i = j
    · subst hij
      rw [tabGet_tabMod_same]
      exact (correct_recentSum_le ..).trans hle
    · rwa [tabGet_tabMod_ne _ _ _ _ _ hij]

theorem correct_tooMany {t : Train} (hnone : ∀ i, correctedOn t.agreed cw i = 0) (h : t.tooMany = none) (tide : Nat) :
    (t.correct tide cw).tooMany = none :=
  tooMany_eq_none_iff.mpr (fun i hi => (correct_lane_recentSum_le hnone tide i).trans (tooMany_eq_none_iff.mp h i hi))

/-! ### What the receiver does with a codeword (R310, R311) -/

theorem header_eq (x : Port) (h : cwNak cw = false) :
    x.header cw = { x with unacked := (x.header cw).unacked, sent := (x.header cw).sent } := by
  have hheader : x.header cw = x.acked (cwAck cw) := if_neg (by simp [h])
  rw [hheader]
  unfold Port.acked
  dsimp only
  split <;> rfl

theorem refuse_eq (x : Port) (cw : CodewordIn) :
    x.refuse cw = { x with nakOwed := true, failing := (x.refuse cw).failing } := by
  unfold Port.refuse
  split <;> rfl

theorem mem_of_mem_tabSet {α : Type} {m : Tab α} {n : Nat} {v : α} {e : Nat × α} (h : e ∈ tabSet m n v) :
    e = (n, v) ∨ e ∈ m := by
  induction m with
  | nil => exact .inl (List.mem_singleton.mp h)
  | cons y ys ih =>
    obtain ⟨k, w⟩ := y
    rw [tabSet] at h
    split at h
    · exact List.mem_cons.mp h
    · split at h
      · exact (List.mem_cons.mp h).imp_right (List.mem_cons_of_mem _)
      · rcases List.mem_cons.mp h with rfl | h
        · exact .inr List.mem_cons_self
        · exact (ih h).imp_right (List.mem_cons_of_mem _)

theorem mem_of_tabFind {α : Type} {m : Tab α} {n : Nat} {v : α} (h : tabFind m n = some v) : (n, v) ∈ m := by
  induction m with
  | nil => cases h
  | cons y ys ih =>
    obtain ⟨k, w⟩ := y
    rw [tabFind] at h
    split at h
    · next hk =>
      cases h
      rw [hk]
      exact List.mem_cons_self
    · exact List.mem_cons_of_mem _ (ih h)

/-- A refusal adds at most one failed replay to a codeword's count (R307). -/
theorem refuse_failing (h : ∀ e ∈ x.failing, e.2 < 15) : ∀ e ∈ (x.refuse cw).failing, e.2 < 16 := by
  intro e he
  unfold Port.refuse at he
  split at he
  · exact Nat.lt_succ_of_lt (h e he)
  · rcases mem_of_mem_tabSet he with rfl | he
    · cases hfind : tabFind x.failing (cwSeq cw) with
      | none => exact Nat.succ_pos 15
      | some n => exact Nat.succ_lt_succ (h _ (mem_of_tabFind hfind))
    · exact Nat.lt_succ_of_lt (h e he)

theorem accept_failing (h : ∀ e ∈ x.failing, e.2 < 16) (seq : Nat) : ∀ e ∈ (x.accept seq).failing, e.2 < 16 :=
  fun e he => h e (List.mem_of_mem_filter he)

/-! ### A codeword of an ACTIVE port -/

/-- The port's state once a codeword has been counted and taken or refused, before the lanes are looked at. -/
def State.portBody (s : State) (p : Fin 24) (cw : CodewordIn) : State :=
  let s := s.countFec (.port p) cw
  if uncorrectable cw then (s.countUncorr (.port p)).modPort p (fun x => x.refuse cw)
  else
    let s := s.modPort p (fun x => x.header cw)
    let s := if !cwIdle cw && cwSeq cw == (s.port p).expected then s.takeBody p cw else s
    s.pump p

/-- Where no lane has had too many corrections and no codeword has failed 16 replays, no lane fails (R307). -/
theorem portWord_of_sound {y : Port} (hport : (s.portBody p cw).port p = y) (htooMany : y.train.tooMany = none)
    (hfailing : ∀ e ∈ y.failing, e.2 < 16) : s.portWord p cw = s.portBody p cw := by
  have hfew : ((s.portBody p cw).port p).failing.any (fun e => decide (16 ≤ e.2)) = false := by
    rw [hport]
    simpa using hfailing
  rw [← hport] at htooMany
  change (match ((s.portBody p cw).port p).train.tooMany with
    | some i => _
    | none => if ((s.portBody p cw).port p).failing.any (fun e => decide (16 ≤ e.2)) then _ else _) = _
  rw [htooMany, hfew]
  rfl

/-- A port that has counted a codeword's corrections. -/
def Port.counted (x : Port) (tide : Nat) (cw : CodewordIn) : Port :=
  let n := sumNat ((List.range 8).map (correctedOn x.train.agreed cw))
  ({ x with train := x.train.correct tide cw } : Port).addFec n

theorem countFec_at (s : State) (p : Fin 24) (cw : CodewordIn) :
    (s.countFec (.port p) cw).port p = (s.port p).counted s.tide cw := by
  rw [countFec_port, modPort_port, modTrain_port]
  rfl

theorem sameButPort_countFec (s : State) (p : Fin 24) (cw : CodewordIn) :
    SameButPort p s (s.countFec (.port p) cw) :=
  (sameButPort_modPort s p _).trans (sameButPort_modPort _ p _)

/-- A port that has counted an uncorrectable codeword, or a payload CRC failure. -/
def Port.countUncorr (x : Port) (tide : Nat) : Port := { x with fecUncorr := satAdd 32 x.fecUncorr 1, fecTide := tide }

/-- What an uncorrectable codeword does (R310). -/
theorem portBody_of_uncorrectable (h : uncorrectable cw = true) :
    (s.portBody p cw).port p = (((s.port p).counted s.tide cw).countUncorr s.tide).refuse cw ∧
      SameButPort p s (s.portBody p cw) := by
  have hbody : s.portBody p cw =
      ((s.countFec (.port p) cw).modPort p (·.countUncorr s.tide)).modPort p (·.refuse cw) := if_pos h
  rw [hbody]
  refine ⟨?_, (sameButPort_countFec s p cw).trans ((sameButPort_modPort ..).trans (sameButPort_modPort ..))⟩
  rw [modPort_port, modPort_port, countFec_at]

/-- The port once the header of a codeword has been read. -/
def Port.headed (x : Port) (tide : Nat) (cw : CodewordIn) : Port := (x.counted tide cw).header cw

/-- A header that asks for no replay changes what is held for one. -/
theorem headed_keeps (x : Port) (tide : Nat) (h : cwNak cw = false) :
    (x.headed tide cw).train = x.train.correct tide cw ∧ (x.headed tide cw).queue = x.queue ∧
      (x.headed tide cw).failing = x.failing ∧ (x.headed tide cw).rxSeq = x.rxSeq ∧
      (x.headed tide cw).discarded = x.discarded ∧ (x.headed tide cw).fecUncorr = x.fecUncorr := by
  rw [Port.headed, header_eq _ h]
  exact ⟨rfl, rfl, rfl, rfl, rfl, rfl⟩

/-- What a good codeword that is expected does, where nothing is queued and its header asks for nothing (R310). -/
theorem portBody_of_good {g : Port → Port} (hclean : cw.errors = []) (hqueue : (s.port p).queue = [])
    (hnak : cwNak cw = false) (hidle : cwIdle cw = false) (hseq : cwSeq cw = (s.port p).expected)
    (hbody : ∀ v : State, v.tide = s.tide → (v.takeBody p cw).port p = g (v.port p) ∧ SameButPort p v (v.takeBody p cw))
    (hg : ∀ y, (g y).queue = y.queue) :
    (s.portBody p cw).port p = g ((s.port p).headed s.tide cw) ∧ SameButPort p s (s.portBody p cw) := by
  have hheaded : ((s.countFec (.port p) cw).modPort p (fun x => x.header cw)).port p = (s.port p).headed s.tide cw := by
    rw [modPort_port, countFec_at]
    rfl
  obtain ⟨-, hqueued, -, hrx, -, -⟩ := headed_keeps (s.port p) s.tide hnak
  have hexpected : ((s.port p).headed s.tide cw).expected = (s.port p).expected := congrArg (fun n => (n + 1) % 512) hrx
  have hnext : (!cwIdle cw && cwSeq cw ==
      (((s.countFec (.port p) cw).modPort p (fun x => x.header cw)).port p).expected) = true := by
    rw [hheaded, hexpected, hseq, hidle]
    simp
  obtain ⟨hport, hother⟩ := hbody ((s.countFec (.port p) cw).modPort p (fun x => x.header cw)) rfl
  rw [hheaded] at hport
  have hbody : s.portBody p cw = ((s.countFec (.port p) cw).modPort p (fun x => x.header cw)).takeBody p cw := by
    have htaken : s.portBody p cw =
        (((s.countFec (.port p) cw).modPort p (fun x => x.header cw)).takeBody p cw).pump p :=
      (if_neg (by simp [uncorrectable_of_clean hclean])).trans (congrArg (State.pump · p) (if_pos hnext))
    rw [htaken, State.pump, hport, hg, hqueued, hqueue]
    rfl
  rw [hbody]
  exact ⟨hport, (sameButPort_countFec s p cw).trans ((sameButPort_modPort ..).trans hother)⟩

/-! ### CODEWORD_RECEIVE of an ACTIVE port -/

theorem codewordReceive_of_active {dt : Nat} (h : s.portActive p = true) :
    exec (.codewordReceive dt (.port p) cw) s = .next ((s.advance dt).portWord p cw) := by
  obtain ⟨-, hactive⟩ := portActive_iff.mp h
  have hstate : ((s.advance dt).train (.port p)).state ≠ .verify := by
    rw [show ((s.advance dt).train (.port p)).state = .active from hactive]
    decide
  rw [exec_codewordReceive]
  unfold execCodewordReceive
  exact (if_neg hstate).trans (if_pos h)

/-- A port that has taken a codeword (R310, R312). -/
def Port.take (x : Port) (cw : CodewordIn) : Port :=
  { x.accept (cwSeq cw) with discarded := satAdd 32 x.discarded cw.reserved }

theorem takeBody_of_sound (h : cw.crcFirst = none) (v : State) :
    (v.takeBody p cw).port p = (v.port p).take cw ∧ SameButPort p v (v.takeBody p cw) := by
  have htake : v.takeBody p cw = v.modPort p (·.take cw) := by
    rw [State.takeBody, h]
    rfl
  rw [htake]
  exact ⟨modPort_port .., sameButPort_modPort ..⟩

/-- A port that asks for a frame again whose payload CRC has failed (R311). -/
def Port.crcFailed (x : Port) (tide first : Nat) (cw : CodewordIn) : Port := (x.countUncorr tide).rewind first cw

theorem crcFailed_eq (x : Port) (tide first : Nat) (cw : CodewordIn) : x.crcFailed tide first cw = { x with
    rxSeq := (first + 511) % 512, nakOwed := true, fecUncorr := satAdd 32 x.fecUncorr 1, fecTide := tide
    failing := (x.crcFailed tide first cw).failing } := by
  rw [Port.crcFailed, Port.rewind, refuse_eq]
  rfl

theorem crcFailed_failing (h : ∀ e ∈ x.failing, e.2 < 15) (tide first : Nat) (cw : CodewordIn) :
    ∀ e ∈ (x.crcFailed tide first cw).failing, e.2 < 16 := by
  rw [Port.crcFailed, Port.rewind]
  dsimp only
  exact refuse_failing (x := x.countUncorr tide) h

theorem takeBody_of_crc {first : Nat} (h : cw.crcFirst = some first) (v : State) :
    (v.takeBody p cw).port p = (v.port p).crcFailed v.tide first cw ∧ SameButPort p v (v.takeBody p cw) := by
  have htake : v.takeBody p cw = (v.modPort p (·.countUncorr v.tide)).modPort p (·.rewind first cw) := by
    rw [State.takeBody, h]
    rfl
  rw [htake, modPort_port, modPort_port]
  exact ⟨rfl, (sameButPort_modPort ..).trans (sameButPort_modPort ..)⟩

end Sys2Proof.Machine
end

section
/-! PROOF. The training of a link and its codewords (chapter 14): the obligation. -/

namespace Sys2Proof.Machine

variable {dt : Nat} {s : State} {l : Link}

/-- A port that looks for its peer and finds it. -/
theorem portDetect_reaches_calibrate {p : Fin 24}
    (hstate : (s.train (.port p)).state = .detect ∨ (s.train (.port p)).state = .down) (hport : p.val < s.nPorts)
    (hdue : ∀ t0, (s.train (.port p)).lastLook = some t0 → t0 + 1000000 ≤ (s.advance dt).tide) :
    ∃ t, exec (.portDetect dt p true) s = .next t ∧ t.train (.port p) = { s.train (.port p) with
        state := .calibrate, lastChange := (s.advance dt).tide, lastLook := some (s.advance dt).tide } ∧
      (∀ q, q ≠ p.val → t.port q = s.port q) ∧
      (s.power.phase ≠ .starting → t = { s.advance dt with ports := t.ports }) := by
  have hquiet := looked_calibrate (s := s.advance dt) (p := p) hstate
  refine ⟨_, portDetect_of_present hstate hport hdue, ?_, fun q hq => ?_, fun hphase => ?_⟩
  · rw [endStep9_train, hquiet, modTrain_train, looked_train]
    rfl
  · have hports : ((((s.advance dt).looked p).setTrain (.port p) .calibrate).endStep9).port q =
        (((s.advance dt).looked p).setTrain (.port p) .calibrate).port q := by
      rw [endStep9_eq]
      rfl
    rw [hports, setTrain_port_ne _ _ hq]
    exact modTrain_port_ne _ _ hq
  · have hkept : ((s.advance dt).looked p).setTrain (.port p) .calibrate =
        { s.advance dt with ports := (((s.advance dt).looked p).setTrain (.port p) .calibrate).ports } := by
      rw [hquiet]
      rfl
    rwa [endStep9_of_phase (by rw [hkept]; exact hphase)]

theorem calibrationDone_reaches_align (margins : List Nat) (h : (s.train l).state = .calibrate) :
    ∃ t, exec (.calibrationDone dt l margins) s = .next t ∧ (t.train l).state = .align ∧ (t.train l).attempt = 1 ∧
      (t.train l).peerOffer = none ∧ (∀ i, i < 8 → ((t.train l).lane i).margin = margins.getD i 0 ∧
        ((t.train l).lane i).failed = (((s.train l).lane i).failed || decide (margins.getD i 0 < Config.eyeMargin))) ∧
      (∀ m, m ≠ l → t.train m = s.train m) ∧ t.mem = s.mem := by
  have hcalibrated : ((s.advance dt).modTrain l (·.calibrated margins)).train l = (s.train l).calibrated margins :=
    modTrain_train ..
  obtain ⟨id, htrain⟩ := toAlign_train (s := (s.advance dt).modTrain l (·.calibrated margins)) (l := l) (attempt := 1)
    (by rw [hcalibrated, calibrated_state, h]; decide)
  rw [hcalibrated] at htrain
  refine ⟨_, calibrationDone_of_calibrate h, ?_⟩
  rw [htrain]
  refine ⟨rfl, rfl, rfl, fun i hi => ?_, fun m hm => ?_, ?_⟩
  · rw [aligning_lane, calibrated_lane hi]
    exact ⟨rfl, rfl⟩
  · exact (alignWith_train_ne _ _ hm).trans (modTrain_train_ne _ _ _ hm)
  · obtain ⟨-, -, -, hmem, -⟩ := keepsCommitted_modTrain (s.advance dt) l (·.calibrated margins)
    exact (alignWith_mem ..).trans hmem

theorem symbolLock_reaches_width (h : (s.train l).state = .align) :
    ∃ t, exec (.symbolLock dt l) s = .next t ∧ t.train l = { s.train l with
        state := .width, attemptStart := (s.advance dt).tide, lastChange := (s.advance dt).tide } ∧
      (∀ m, m ≠ l → t.train m = s.train m) := by
  refine ⟨_, symbolLock_of_align h, ?_, fun m hm => ?_⟩
  · have hne : (((s.advance dt).started l).train l).state ≠ .width := by
      rw [started_train]
      exact fun hwidth => absurd (h.symm.trans hwidth) (by decide)
    rw [setTrain_train _ _ hne, started_train, State.started, modTrain_tide]
    rfl
  · exact (setTrain_train_ne _ _ _ hm).trans (modTrain_train_ne _ _ _ hm)

theorem widthAttemptTimeout_by_attempt (h : (s.train l).state = .width)
    (hdue : (s.train l).attemptStart + 20000 ≤ (s.advance dt).tide) :
    (∀ a, (s.train l).attempt = a → 1 ≤ a → a < 3 →
      exec (.widthAttemptTimeout dt l) s = .next (((s.advance dt).attemptFault l).nextAttempt l (a + 1))) ∧
    (3 ≤ (s.train l).attempt → exec (.widthAttemptTimeout dt l) s =
      .next ((((s.advance dt).attemptFault l).noteFallback l).nextAttempt l 0)) ∧
    ((s.train l).attempt = 0 → exec (.widthAttemptTimeout dt l) s =
      .next (((s.advance dt).attemptFault l).linkDown l) ∧
      ((((s.advance dt).attemptFault l).linkDown l).train l).state = .down) ∧
    ((∀ r ∈ s.log.recoveries, r.ofLink l = false) → (s.advance dt).attemptFault l = s.advance dt) := by
  rw [widthAttemptTimeout_of_due h hdue]
  refine ⟨?_, fun h3 => ?_, fun h0 => ⟨?_, ?_⟩, fun hnone => attemptFault_of_none hnone⟩
  · rintro a rfl h1 h3
    rw [afterFailure_of_attempt (s := s.advance dt) _ h1 h3]
    rfl
  · rw [afterFailure_of_last (s := s.advance dt) _ h3]
  · rw [afterFailure_of_fallback (s := s.advance dt) _ h0]
  · rw [linkDown_train, setTrain_state]

theorem trainingBlock_retrains_active {p : Fin 24} {b : List Byte} {crc : W32} {w : WidthWord}
    (hword : trainingWord (b ++ toBytes 4 crc.toNat) = some w) (hactive : (s.port p).train.state = .active) :
    ∃ t, exec (.trainingBlockReceive dt (.port p) b crc) s = .next t ∧ (t.port p).train.state = .align ∧
      (t.port p).train.attempt = 1 ∧ (t.port p).retrains = satAdd 16 (s.port p).retrains 1 ∧
      (t.port p).train.lanes = (s.port p).train.lanes ∧ (∀ q, q ≠ p.val → t.port q = s.port q) := by
  refine ⟨_, trainingBlockReceive_of_active hword hactive, ?_⟩
  rw [retrained_port (s := s.advance dt) hactive]
  exact ⟨rfl, rfl, rfl, rfl, fun q hq => retrained_port_ne hq⟩

section Exchange

variable {b : List Byte} {crc : W32} {w : WidthWord} (hword : trainingWord (b ++ toBytes 4 crc.toNat) = some w)
  (hwidth : (s.train l).state = .width) (hreset : w.reset = false) (hid : w.trainId = (s.train l).trainId)

include hword hwidth hreset hid

/-- A word of the attempt in progress is accepted (R302 to R304). -/
theorem trainingBlockReceive_of_current :
    exec (.trainingBlockReceive dt l b crc) s = .next ((s.advance dt).acceptWord l w) := by
  rw [trainingBlockReceive_of_exchange hword (.inl hwidth), takeWord_of_current (s := s.advance dt) hreset hid]

theorem offer_is_answered (hoffer : w.confirm = false) (hnone : (s.train l).peerConfirm = none) :
    ∃ t, exec (.trainingBlockReceive dt l b crc) s = .next t ∧ (t.train l).state = .width ∧
      (t.train l).peerOffer = some w ∧ (t.train l).ownAgreed =
        some (agreedOf (seamOf l).isSome ((s.train l).attempt == 0) (s.steered l w).1) := by
  refine ⟨_, trainingBlockReceive_of_current hword hwidth hreset hid, ?_⟩
  rw [acceptWord_of_offer (s := s.advance dt) hoffer hnone, modTrain_train, modTrain_train]
  exact ⟨hwidth, rfl, rfl⟩

theorem confirm_ends_exchange {own : Byte} {offer : WidthWord} (hconfirm : w.confirm = true)
    (hown : (s.train l).ownAgreed = some own) (hoffer : (s.train l).peerOffer = some offer) (hagreed : w.agreed = own)
    (hsome : own ≠ 0) :
    ∃ t, exec (.trainingBlockReceive dt l b crc) s = .next t ∧ (∀ k, k ≠ l → t.train k = s.train k) ∧
      (s.rolesPair l w = true → (t.train l).state = .verify ∧ (t.train l).agreed = own ∧
        (t.train l).sparePos = (s.steered l offer).2 ∧ (t.train l).verifyLeft = 64) ∧
      (s.rolesPair l w = false → (t.train l).state = .roleWait ∧ (t.train l).roleMismatch = true) := by
  have hheard : (((s.advance dt).confirmed l w).train l).state = .width := by
    rw [confirmed_train]
    exact hwidth
  refine ⟨_, trainingBlockReceive_of_current hword hwidth hreset hid, ?_⟩
  rw [acceptWord_of_confirm (s := s.advance dt) hconfirm hown hoffer hagreed hsome, advance_rolesPair]
  cases hroles : s.rolesPair l w with
  | true =>
    rw [if_pos rfl, toVerify_train (by rw [hheard]; decide)]
    exact ⟨fun k hk => (toVerify_train_ne hk _ _).trans (confirmed_train_ne hk w), fun _ => ⟨rfl, rfl, rfl, rfl⟩,
      fun h => absurd h (by decide)⟩
  | false =>
    have hne : ((((s.advance dt).confirmed l w).modTrain l (fun t => { t with roleMismatch := true })).train l).state ≠
        .roleWait := by
      rw [modTrain_train]
      exact fun h => absurd (hheard.symm.trans h) (by decide)
    rw [if_neg Bool.false_ne_true, setTrain_train _ _ hne, modTrain_train]
    exact ⟨fun k hk =>
        (setTrain_train_ne _ _ _ hk).trans ((modTrain_train_ne _ _ _ hk).trans (confirmed_train_ne hk w)),
      fun h => absurd h (by decide), fun _ => ⟨rfl, rfl⟩⟩

end Exchange

section Verify

variable {cw : CodewordIn} (hverify : (s.train l).state = .verify)
  (hfew : ∀ i, i < 8 → tabGet 0 (s.train l).verifyCorrected i ≤ 8)

include hverify hfew

theorem clean_codeword_is_verified (hclean : cw.errors = []) :
    (2 ≤ (s.train l).verifyLeft → ∃ t, exec (.codewordReceive dt l cw) s = .next t ∧ (t.train l).state = .verify ∧
      (t.train l).verifyLeft = (s.train l).verifyLeft - 1) ∧
    ((s.train l).verifyLeft = 1 → ∃ t, exec (.codewordReceive dt l cw) s = .next t ∧ (t.train l).state = .active ∧
      (t.train l).agreed = (s.train l).agreed ∧ (∀ k, k ≠ l → (t.train k).state = (s.train k).state)) := by
  rw [codewordReceive_of_verify hverify, verifyWord_of_clean (s := s.advance dt) hclean hfew]
  refine ⟨fun hmore => ⟨_, congrArg _ (if_neg (by rw [advance_train]; omega)), ?_⟩,
    fun hlast => ⟨_, congrArg _ (if_pos (by rw [advance_train]; omega)), toActive_tested (s := s.advance dt) hverify⟩⟩
  rw [tested_train]
  exact ⟨hverify, rfl⟩

theorem uncorrectable_codeword_fails_attempt {i : Nat} (hbad : uncorrectable cw = true)
    (hworst : worstLane (s.train l).agreed cw = some i)
    (h1 : 1 ≤ (s.train l).attempt) (h3 : (s.train l).attempt < 3) :
    ∃ t, exec (.codewordReceive dt l cw) s = .next t ∧ (t.train l).state = .align ∧
      (t.train l).attempt = (s.train l).attempt + 1 ∧
      ((s.train l).sparePos = some i → (t.train l).spareFailed = true) ∧
      ((s.train l).sparePos ≠ some i → ((t.train l).lane i).failed = true) := by
  obtain ⟨id, tide, htrain⟩ := verifyWord_of_uncorrectable (s := s.advance dt) hverify hbad hfew hworst h1 h3
  refine ⟨_, codewordReceive_of_verify hverify, ?_⟩
  rw [htrain]
  exact ⟨rfl, rfl, fun h => failPosition_spare (t := (s.train l).tested _ cw) h,
    fun h => failPosition_lane (t := (s.train l).tested _ cw) h⟩

end Verify

section Codewords

variable {p : Fin 24} {cw : CodewordIn} (hactive : s.portActive p = true)
  (htooMany : (s.port p).train.tooMany = none)

include hactive htooMany

/-- A codeword without a corrected symbol does what its body does, where no codeword has failed 16 replays. -/
theorem codewordReceive_of_sound {y : Port} (hnone : ∀ i, correctedOn (s.port p).train.agreed cw i = 0)
    (hbody : ((s.advance dt).portBody p cw).port p = y ∧ SameButPort p (s.advance dt) ((s.advance dt).portBody p cw))
    (htrain : y.train = (s.port p).train.correct (s.advance dt).tide cw) (hfailing : ∀ e ∈ y.failing, e.2 < 16) :
    ∃ t, exec (.codewordReceive dt (.port p) cw) s = .next t ∧ t.port p = y ∧ (∀ q, q ≠ p.val → t.port q = s.port q) ∧
      t = { s.advance dt with ports := t.ports } := by
  obtain ⟨hport, hothers, hrest⟩ := hbody
  refine ⟨_, codewordReceive_of_active hactive, ?_⟩
  rw [portWord_of_sound hport (by rw [htrain]; exact correct_tooMany hnone htooMany _) hfailing]
  exact ⟨hport, hothers, hrest⟩

theorem bad_codeword_asks_replay (hbad : uncorrectable cw = true) (hfailing : ∀ e ∈ (s.port p).failing, e.2 < 15) :
    ∃ t, exec (.codewordReceive dt (.port p) cw) s = .next t ∧ (t.port p).rxSeq = (s.port p).rxSeq ∧
      (t.port p).nakOwed = true ∧ (t.port p).fecUncorr = satAdd 32 (s.port p).fecUncorr 1 ∧
      (t.port p).fecTide = (s.advance dt).tide ∧ (∀ q, q ≠ p.val → t.port q = s.port q) ∧
      t = { s.advance dt with ports := t.ports } := by
  obtain ⟨t, hexec, hport, hframe⟩ := codewordReceive_of_sound (dt := dt) hactive htooMany
    (correctedOn_of_uncorrectable hbad _) (portBody_of_uncorrectable (s := s.advance dt) hbad)
    (by rw [refuse_eq]; rfl) (refuse_failing hfailing)
  refine ⟨t, hexec, ?_⟩
  rw [hport, refuse_eq]
  exact ⟨rfl, rfl, rfl, rfl, hframe⟩

variable (hclean : cw.errors = []) (hqueue : (s.port p).queue = []) (hnak : cwNak cw = false)
  (hidle : cwIdle cw = false) (hseq : cwSeq cw = (s.port p).expected)

include hclean hqueue hnak hidle hseq

theorem good_codeword_is_taken (hcrc : cw.crcFirst = none) (hfailing : ∀ e ∈ (s.port p).failing, e.2 < 16) :
    ∃ t, exec (.codewordReceive dt (.port p) cw) s = .next t ∧ (t.port p).rxSeq = cwSeq cw ∧
      (t.port p).nakOwed = false ∧ (t.port p).discarded = satAdd 32 (s.port p).discarded cw.reserved ∧
      (∀ q, q ≠ p.val → t.port q = s.port q) ∧ t = { s.advance dt with ports := t.ports } := by
  obtain ⟨htrain, -, hsame, -, hdiscarded, -⟩ := headed_keeps ((s.advance dt).port p) (s.advance dt).tide hnak
  obtain ⟨t, hexec, hport, hframe⟩ := codewordReceive_of_sound (dt := dt) hactive htooMany
    (correctedOn_of_clean hclean _) (portBody_of_good (s := s.advance dt) (g := (·.take cw)) hclean hqueue hnak hidle
      hseq (fun v _ => takeBody_of_sound hcrc v) (fun _ => rfl))
    htrain (accept_failing (by rw [hsame]; exact hfailing) _)
  refine ⟨t, hexec, ?_⟩
  rw [hport]
  exact ⟨rfl, rfl, congrArg (satAdd 32 · cw.reserved) hdiscarded, hframe⟩

theorem crc_failure_asks_replay {first : Nat} (hcrc : cw.crcFirst = some first)
    (hfailing : ∀ e ∈ (s.port p).failing, e.2 < 15) :
    ∃ t, exec (.codewordReceive dt (.port p) cw) s = .next t ∧ (t.port p).rxSeq = (first + 511) % 512 ∧
      (t.port p).nakOwed = true ∧ (t.port p).fecUncorr = satAdd 32 (s.port p).fecUncorr 1 ∧
      (t.port p).discarded = (s.port p).discarded ∧ (∀ q, q ≠ p.val → t.port q = s.port q) ∧
      t = { s.advance dt with ports := t.ports } := by
  obtain ⟨htrain, -, hsame, -, hdiscarded, huncorr⟩ := headed_keeps ((s.advance dt).port p) (s.advance dt).tide hnak
  obtain ⟨t, hexec, hport, hframe⟩ := codewordReceive_of_sound (dt := dt) hactive htooMany
    (correctedOn_of_clean hclean _) (portBody_of_good (s := s.advance dt)
      (g := (·.crcFailed (s.advance dt).tide first cw)) hclean hqueue hnak hidle hseq
      (fun v hv => hv ▸ takeBody_of_crc hcrc v) (fun _ => by rw [crcFailed_eq]))
    (by rw [crcFailed_eq]; exact htrain) (crcFailed_failing (by rw [hsame]; exact hfailing) _ _ _)
  refine ⟨t, hexec, ?_⟩
  rw [hport, crcFailed_eq]
  exact ⟨rfl, rfl, congrArg (satAdd 32 · 1) huncorr, hdiscarded, hframe⟩

end Codewords

/-- Settles O46: each event of a link's training by the state that it finds the link in, a failed attempt by its number,
a test codeword by what it adds to the corrections so far (an uncorrectable one fails its worst lane, log 34), and a
codeword of an ACTIVE port by what it makes of that port alone. -/
theorem linksTrain : Obligations.LinksTrain := by
  unfold Obligations.LinksTrain
  intro dt s
  refine ⟨fun p hstate hport hdue => portDetect_reaches_calibrate hstate hport hdue,
    fun l margins h => calibrationDone_reaches_align margins h, fun l h => symbolLock_reaches_width h,
    fun p h hdue => roleWaitRetry_of_due h hdue, fun l h hdue => widthAttemptTimeout_by_attempt h hdue,
    fun l b crc hbad => trainingBlockReceive_of_bad hbad,
    fun p b crc w hword hactive => trainingBlock_retrains_active hword hactive,
    fun l b crc w hword hstate => trainingBlockReceive_of_exchange hword hstate,
    fun l b crc w m hword hwidth hreset hid => ⟨fun hoffer hnone hm => ?offer,
      fun own offer hconfirm hown hoffer hagreed hsome hm => ?confirm⟩,
    fun l cw hverify => ⟨fun hclean hfew => clean_codeword_is_verified hverify hfew hclean,
      fun i hbad hfew hworst h1 h3 => uncorrectable_codeword_fails_attempt hverify hfew hbad hworst h1 h3⟩,
    fun p cw hactive htooMany => ⟨fun hclean hqueue hnak hidle hseq =>
        ⟨fun hcrc hfailing =>
          good_codeword_is_taken hactive htooMany hclean hqueue hnak hidle hseq hcrc hfailing,
        fun first hcrc hfailing =>
          crc_failure_asks_replay hactive htooMany hclean hqueue hnak hidle hseq hcrc hfailing⟩,
      fun hbad hfailing => bad_codeword_asks_replay hactive htooMany hbad hfailing⟩⟩
  case offer =>
    rw [hm]
    exact offer_is_answered hword hwidth hreset hid hoffer hnone
  case confirm =>
    rw [hm]
    exact confirm_ends_exchange hword hwidth hreset hid hconfirm hown hoffer hagreed hsome

end Sys2Proof.Machine
end

section
/-! PROOF. The queue of coming commands under the basic updates: signals, log, completions and rings. -/

namespace Sys2Proof.Machine

@[simp] theorem foldl_pending {α : Type} {f : State → α → State} (hf : ∀ s a, (f s a).pending = s.pending)
    (as : List α) (s : State) :
    (as.foldl f s).pending = s.pending :=
  foldl_keeps (R := fun s t => t.pending = s.pending) (fun _ => rfl) (fun _ _ _ hst htu => htu.trans hst) hf as s

@[simp] theorem foldl_fst_pending {α β : Type} {f : State × β → α → State × β}
    (hf : ∀ a b, (f a b).1.pending = a.1.pending) (as : List α) (a : State × β) :
    (as.foldl f a).1.pending = a.1.pending := by
  induction as generalizing a with
  | nil => rfl
  | cons b bs ih => exact (ih _).trans (hf a b)

@[simp] theorem ite_pending (c : Prop) [Decidable c] (s t : State) :
    (if c then s else t).pending = if c then s.pending else t.pending :=
  apply_ite ..

@[simp] theorem copy_pending (s : State) (src dst n : ℕ) : (s.copy src dst n).pending = s.pending := rfl

@[simp] theorem draw_pending (s : State) : s.draw.2.pending = s.pending := rfl

@[simp] theorem draws_pending (s : State) (n : ℕ) : (s.draws n).2.pending = s.pending := rfl

@[simp] theorem setSignals_pending (s : State) (mask : W64) : (s.setSignals mask).pending = s.pending := by
  unfold State.setSignals
  simp -implicitDefEqProofs

@[simp] theorem raise_pending (s : State) (v : ℕ) : (s.raise v).pending = s.pending := by simp [State.raise]

@[simp] theorem refreshFault_pending (s : State) : s.refreshFault.pending = s.pending := rfl

@[simp] theorem writeLog_pending (s : State) (r : LogRec) : (s.writeLog r).pending = s.pending := by
  unfold State.writeLog
  dsimp only
  split <;> split <;> simp

@[simp] theorem logFlag_pending (s : State) (overlap : Bool) (source code severity arg0 arg1 arg2 : ℕ) :
    (s.logFlag overlap source code severity arg0 arg1 arg2).pending = s.pending := by
  unfold State.logFlag
  dsimp only
  split <;> simp

@[simp] theorem logRec_pending (s : State) (source code severity arg0 arg1 arg2 : ℕ) :
    (s.logRec source code severity arg0 arg1 arg2).pending = s.pending := by
  simp [State.logRec]

@[simp] theorem discardedWrite_pending (s : State) (offset : ℕ) (value : W64) :
    (s.discardedWrite offset value).pending = s.pending := by
  simp [State.discardedWrite]

@[simp] theorem sendRingInt_pending (s : State) (r : ℕ) : (s.sendRingInt r).pending = s.pending := by
  simp [State.sendRingInt]

@[simp] theorem countInt_pending (s : State) (r : ℕ) : (s.countInt r).pending = s.pending := by
  unfold State.countInt
  dsimp only
  split <;> simp

@[simp] theorem readySlot_pending (s : State) (c : Cmd) (st : Status) (detail : ℕ) (body : List Byte) :
    (s.readySlot c st detail body).pending = s.pending := by
  unfold State.readySlot
  split
  · simp
  · split <;> simp

@[simp] theorem fillSlot_pending (s : State) (c : Cmd) (st : Status) (detail : ℕ) (body : List Byte) :
    (s.fillSlot c st detail body).pending = s.pending := by
  unfold State.fillSlot
  split <;> simp

@[simp] theorem announce_pending (s : State) (c : Cmd) (st : Status) : (s.announce c st).pending = s.pending := by
  unfold State.announce
  split <;> simp

@[simp] theorem dropCmd_pending (s : State) (c : Cmd) : (s.dropCmd c).pending = s.pending := rfl

@[simp] theorem complete_pending (s : State) (c : Cmd) (st : Status) (detail : ℕ) (body : List Byte) :
    (s.complete c st detail body).pending = s.pending := by
  unfold State.complete
  dsimp only
  split <;> split <;> simp

@[simp] theorem badParam_pending (s : State) (c : Cmd) (off : ℕ) : (s.badParam c off).pending = s.pending := by
  simp [State.badParam]

@[simp] theorem refreshOldest_pending (s : State) (r : ℕ) : (s.refreshOldest r).pending = s.pending := rfl

@[simp] theorem tickUpdates_pending (s : State) : s.tickUpdates.pending = s.pending := rfl

@[simp] theorem begin_pending (s : State) (c : Cmd) (readyAt : ℕ) : (s.begin c readyAt).2.pending = s.pending := by
  unfold State.begin
  split <;> simp

theorem take_pending {s t : State} {r op : ℕ} {c : Cmd} (h : s.take r op = some (c, t)) : t.pending = s.pending := by
  obtain ⟨d, -, -, -, -, hbegin⟩ := take_some s h
  exact (congrArg (fun x : Cmd × State => x.2.pending) hbegin).trans (begin_pending ..)

@[simp] theorem halt_pending (s : State) (r cause : ℕ) : (s.halt r cause).pending = s.pending := by simp [State.halt]

@[simp] theorem wrapSlots_pending (s : State) (r : ℕ) : (s.wrapSlots r).pending = s.pending := rfl

@[simp] theorem consume_pending (s : State) (r units : ℕ) : (s.consume r units).pending = s.pending := rfl

@[simp] theorem reject_pending (s : State) (r : ℕ) (p : List Byte) (st : Status) :
    (s.reject r p st).pending = s.pending := by
  simp [State.reject]

@[simp] theorem pendSlot_pending (s : State) (c : Cmd) : (s.pendSlot c).pending = s.pending := by
  unfold State.pendSlot
  split <;> simp

@[simp] theorem accept_pending (s : State) (c : Cmd) : (s.accept c).pending = s.pending := by simp [State.accept]

@[simp] theorem checkPacket_pending (s : State) (r : ℕ) (p : List Byte) (units : ℕ) :
    (s.checkPacket r p units).pending = s.pending := by
  unfold State.checkPacket
  split
  · simp
  · split
    · simp
    · split <;> simp

@[simp] theorem dropUnstarted_pending (s : State) (r : ℕ) : (s.dropUnstarted r).pending = s.pending := by
  simp [State.dropUnstarted]

@[simp] theorem resetRing_pending (s : State) (r : ℕ) : (s.resetRing r).pending = s.pending := by
  simp [State.resetRing]

@[simp] theorem doorbell_pending (s : State) (r : ℕ) (tail : W32) : (s.doorbell r tail).pending = s.pending := by
  simp [State.doorbell]

theorem discardedWriteIf_pending (s : State) (c : Prop) [Decidable c] (off : Nat) (v : W64) :
    (if c then s.discardedWrite off v else s).pending = s.pending := by
  split
  · exact discardedWrite_pending ..
  · rfl

@[simp] theorem writeRingControl_pending (s : State) (r off : Nat) (v mask : W64) :
    (s.writeRingControl r off v mask).pending = s.pending := by
  unfold State.writeRingControl
  dsimp only
  split
  · rw [resetRing_pending, modRing_pending, discardedWriteIf_pending, modRing_pending, discardedWriteIf_pending]
  · rw [modRing_pending, discardedWriteIf_pending, modRing_pending, discardedWriteIf_pending]

theorem writeRing_pending (s : State) (r off size : ℕ) (value : W64) {t : State}
    (h : (s.writeRing r off size value) = some t) :
    t.pending = s.pending := by
  unfold State.writeRing at h
  dsimp only at h
  split at h
  · split at h
    · cases h; rfl
    · cases h
  · split at h
    · cases h; simp
    · split at h
      · split at h <;> cases h <;> simp
      · split at h
        · split at h <;> cases h <;> rfl
        · split at h <;> cases h <;> rfl

@[simp] theorem readSlot0_pending (s : State) (r slot : ℕ) : (s.readSlot0 r slot).pending = s.pending := by
  unfold State.readSlot0
  dsimp only
  split <;> simp

@[simp] theorem hostReset_pending (s : State) : s.hostReset.pending = s.pending := rfl

@[simp] theorem endWaitSignal_pending (s : State) (c : Cmd) : (s.endWaitSignal c).pending = s.pending := by
  unfold State.endWaitSignal
  split <;> simp

@[simp] theorem releaseOne_pending (r : ℕ) (own : Option ℕ) (acc : State × ℕ × ℕ × ℕ) (slot : ℕ) :
    (releaseOne r own acc slot).1.pending = acc.1.pending := by
  unfold releaseOne
  split
  · split
    · simp
    · split
      · simp
      · split <;> simp

end Sys2Proof.Machine
end

section
/-! PROOF. The queue under poison, the check units, frames that go out and pinned versions. -/

namespace Sys2Proof.Machine

@[simp] theorem writeSlotRow_pending (s : State) (die a slot row : ℕ) (xs : List W32) :
    (s.writeSlotRow die a slot row xs).pending = s.pending :=
  rfl

@[simp] theorem noteNonfinite_pending (s : State) (source : ℕ) : (s.noteNonfinite source).pending = s.pending := by
  unfold State.noteNonfinite
  dsimp only
  split <;> simp

@[simp] theorem requestAbort_pending (s : State) : s.requestAbort.pending = s.pending := rfl

@[simp] theorem poisonConsumed_pending (s : State) (c : Cmd) (addr : ℕ) :
    (s.poisonConsumed c addr).pending = s.pending := by
  simp [State.poisonConsumed]

@[simp] theorem countFeedPoison_pending (s : State) (die n : ℕ) : (s.countFeedPoison die n).pending = s.pending := by
  unfold State.countFeedPoison
  split <;> simp

@[simp] theorem countAccPoison_pending (s : State) (die n : ℕ) : (s.countAccPoison die n).pending = s.pending := by
  unfold State.countAccPoison
  split <;> simp

@[simp] theorem countDrainPoison_pending (s : State) (die n : ℕ) :
    (s.countDrainPoison die n).pending = s.pending := by
  unfold State.countDrainPoison
  split <;> simp

@[simp] theorem countDrainNonfinite_pending (s : State) (die n : ℕ) :
    (s.countDrainNonfinite die n).pending = s.pending := by
  unfold State.countDrainNonfinite
  split <;> simp

@[simp] theorem compareUnit_pending (s : State) (n : ℕ) (expect : W64) :
    (s.compareUnit n expect).1.pending = s.pending := by
  unfold State.compareUnit
  dsimp only
  split <;> simp

@[simp] theorem limitUnit_pending (s : State) (n : ℕ) : (s.limitUnit n).pending = s.pending := by
  unfold State.limitUnit
  dsimp only
  split
  · split <;> simp
  · simp

@[simp] theorem unitConsumed_pending (s : State) (u : CheckUnit) (addr : ℕ) :
    (s.unitConsumed u addr).pending = s.pending := by
  unfold State.unitConsumed
  split <;> simp

@[simp] theorem absorbUnit_pending (s : State) (n : ℕ) (bs : List Byte) (poison : Option (ℕ × ℕ)) :
    (s.absorbUnit n bs poison).pending = s.pending := by
  unfold State.absorbUnit
  dsimp only
  split <;> split <;> simp

@[simp] theorem absorb_pending (s : State) (source num : ℕ) (bs : List Byte) (poison : Option (ℕ × ℕ)) :
    (s.absorb source num bs poison).pending = s.pending := by
  simp [State.absorb]

@[simp] theorem pumpN_pending (s : State) (p fuel : ℕ) : (s.pumpN p fuel).pending = s.pending := by
  induction fuel generalizing s with
  | zero => rfl
  | succ fuel ih =>
    rw [State.pumpN]
    dsimp only
    split
    · rfl
    · split
      · simp [ih]
      · rfl

@[simp] theorem pump_pending (s : State) (p : ℕ) : (s.pump p).pending = s.pending := by simp [State.pump]

@[simp] theorem send_pending (s : State) (p : ℕ) (hdr : FrameHdr) (body : FrameBody) :
    (s.send p hdr body).pending = s.pending := by
  simp [State.send]

@[simp] theorem forward_pending (s : State) (p : ℕ) (hdr : FrameHdr) (body : FrameBody) :
    (s.forward p hdr body).pending = s.pending := by
  simp [State.forward]

@[simp] theorem swDiscard_pending (s : State) (x : ℕ) : (s.swDiscard x).pending = s.pending := rfl

@[simp] theorem sendToRank_pending (s : State) (rank : ℕ) (poison : Bool) (body : FrameBody) :
    (s.sendToRank rank poison body).pending = s.pending := by
  unfold State.sendToRank
  split <;> simp

@[simp] theorem modVSlot_pending (s : State) (l i : ℕ) (f : VSlot → VSlot) : (s.modVSlot l i f).pending = s.pending :=
  rfl

@[simp] theorem retire_pending (s : State) (l : ℕ) : (s.retire l).pending = s.pending := rfl

@[simp] theorem sendShard_pending (s : State) (kind layer : ℕ) (serial : W16) (reqId rank : ℕ) :
    (s.sendShard kind layer serial reqId rank).pending = s.pending := by
  simp [State.sendShard]

@[simp] theorem sendShards_pending (s : State) (kind layer : ℕ) (serial : W16) (reqId : ℕ) :
    (s.sendShards kind layer serial reqId).pending = s.pending := by
  simp [State.sendShards]

@[simp] theorem modMb_pending (s : State) (k m : ℕ) (f : Mb → Mb) : (s.modMb k m f).pending = s.pending := rfl

@[simp] theorem placeHolds_pending (s : State) (ref : CmdRef) (layer i : ℕ) :
    (s.placeHolds ref layer i).pending = s.pending := by
  simp [State.placeHolds]

@[simp] theorem shareHolds_pending (s : State) (ref : CmdRef) (layer i : ℕ) :
    (s.shareHolds ref layer i).pending = s.pending := by
  unfold State.shareHolds
  dsimp only
  split <;> simp

@[simp] theorem pinOne_pending (ref : CmdRef) (k mb : ℕ) (acc : State × List ℕ) (p : ℕ × ℕ) :
    (pinOne ref k mb acc p).1.pending = acc.1.pending := by
  unfold pinOne
  split <;> split <;> simp

@[simp] theorem takePins_pending (s : State) (ref : CmdRef) (k mb : ℕ) (picks : List (ℕ × ℕ)) :
    (s.takePins ref k mb picks).1.pending = s.pending := by
  unfold State.takePins
  simp

@[simp] theorem unpinSlot_pending (s : State) (layer i : ℕ) : (s.unpinSlot layer i).pending = s.pending := by
  unfold State.unpinSlot
  dsimp only
  split <;> simp

@[simp] theorem unpinSerial_pending (s : State) (layer i : ℕ) (serial : W16) :
    (s.unpinSerial layer i serial).pending = s.pending := by
  unfold State.unpinSerial
  dsimp only
  split <;> simp

@[simp] theorem unpinMb_pending (s : State) (k mb layer : ℕ) : (s.unpinMb k mb layer).pending = s.pending := by
  unfold State.unpinMb
  split <;> simp

@[simp] theorem unpinLayers_pending (s : State) (k mb : ℕ) (layers : List ℕ) :
    (s.unpinLayers k mb layers).pending = s.pending := by
  simp [State.unpinLayers]

@[simp] theorem dropHolds_pending (s : State) (ref : CmdRef) : (s.dropHolds ref).pending = s.pending := rfl

@[simp] theorem tryPin_pending (s : State) (c : Cmd) (first : Bool) : (s.tryPin c first).pending = s.pending := by
  unfold State.tryPin
  dsimp only
  split <;> simp

@[simp] theorem undoPins_pending (s : State) (c : Cmd) (k mb : ℕ) : (s.undoPins c k mb).pending = s.pending := by
  simp [State.undoPins]

@[simp] theorem sendShardData_pending (s : State) (req : GatherF) (i : ℕ) :
    (s.sendShardData req i).pending = s.pending := by
  simp [State.sendShardData]

@[simp] theorem modGet_pending (s : State) (ref : CmdRef) (f : ShardGet → ShardGet) :
    (s.modGet ref f).pending = s.pending :=
  rfl

@[simp] theorem dropGet_pending (s : State) (ref : CmdRef) : (s.dropGet ref).pending = s.pending := rfl

@[simp] theorem gatherOwn_pending (s : State) (g : ShardGet) : (s.gatherOwn g).pending = s.pending := by
  unfold State.gatherOwn
  split
  · simp -implicitDefEqProofs
  · simp

@[simp] theorem endGet_pending (s : State) (ref : CmdRef) (st : Status) : (s.endGet ref st).pending = s.pending := by
  unfold State.endGet
  split <;> simp

@[simp] theorem checkGet_pending (s : State) (ref : CmdRef) : (s.checkGet ref).pending = s.pending := by
  unfold State.checkGet
  split <;> simp

@[simp] theorem refuseShard_pending (s : State) (f : GatherF) (st : Status) :
    (s.refuseShard f st).pending = s.pending := by
  simp [State.refuseShard]

@[simp] theorem serveShards_pending (s : State) : s.serveShards.pending = s.pending := by
  refine (foldl_pending (fun s g => (checkGet_pending ..).trans (gatherOwn_pending ..)) _ _).trans
    (foldl_pending (fun s w => ?_) _ _)
  split
  · exact sendShardData_pending ..
  · split
    · exact refuseShard_pending ..
    · rfl

@[simp] theorem startGather_pending (s : State) (c : Cmd) (slot : ℕ) :
    (s.startGather c slot).pending = s.pending := by
  simp [State.startGather]

theorem writeLayer0_pending (s : State) (layer : ℕ) (v mask : W64) {t : State}
    (h : (s.writeLayer0 layer v mask) = some t) :
    t.pending = s.pending := by
  unfold State.writeLayer0 at h
  dsimp only at h
  repeat' split at h
  all_goals cases h; try simp

theorem writeLayer_pending (s : State) (layer off size : ℕ) (value : W64) {t : State}
    (h : s.writeLayer layer off size value = some t) : t.pending = s.pending := by
  unfold State.writeLayer at h
  dsimp only at h
  split at h
  · exact writeLayer0_pending _ _ _ _ h
  · split at h
    · cases h
    · split at h
      · split at h <;> cases h
        rfl
      · split at h
        · cases h; rfl
        · split at h
          · split at h <;> cases h
            rfl
          · split at h <;> cases h
            rfl

end Sys2Proof.Machine
end

section
/-! PROOF. The queue under sluices, credits, micro-batches and their transfers. -/

namespace Sys2Proof.Machine

@[simp] theorem modSluice_pending (s : State) (k : ℕ) (bwd : Bool) (f : Tab Entry → Tab Entry) :
    (s.modSluice k bwd f).pending = s.pending :=
  rfl

@[simp] theorem modEntry_pending (s : State) (k : ℕ) (bwd : Bool) (e : ℕ) (f : Entry → Entry) :
    (s.modEntry k bwd e f).pending = s.pending :=
  rfl

@[simp] theorem modCredits_pending (s : State) (k : ℕ) (toPrev : Bool) (f : W64 → W64) :
    (s.modCredits k toPrev f).pending = s.pending :=
  rfl

@[simp] theorem returnCredit_pending (s : State) (k : ℕ) (bwd : Bool) (e : ℕ) :
    (s.returnCredit k bwd e).pending = s.pending := by
  simp [State.returnCredit]

@[simp] theorem emptyEntry_pending (s : State) (k : ℕ) (bwd : Bool) (e : ℕ) :
    (s.emptyEntry k bwd e).pending = s.pending := by
  simp [State.emptyEntry]

@[simp] theorem discardEntry_pending (s : State) (k : ℕ) (bwd : Bool) (e : ℕ) :
    (s.discardEntry k bwd e).pending = s.pending := by
  simp [State.discardEntry]

@[simp] theorem logDiscards_pending (s : State) (k : ℕ) (bwd : Bool) (n : ℕ) :
    (s.logDiscards k bwd n).pending = s.pending := by
  simp [State.logDiscards]

@[simp] theorem returnEntry_pending (s : State) (k e : ℕ) : (s.returnEntry k e).pending = s.pending := rfl

@[simp] theorem arriveEntry_pending (s : State) (k : ℕ) (bwd : Bool) (e : ℕ) :
    (s.arriveEntry k bwd e).pending = s.pending := by
  unfold State.arriveEntry
  dsimp only
  split
  · simp
  · split
    · simp
    · split <;> simp

@[simp] theorem landPayload_pending (s : State) (key : ℕ) (bs : List Byte) (poison : Bool) :
    (s.landPayload key bs poison).pending = s.pending := by
  unfold State.landPayload
  split <;> simp

@[simp] theorem dropStalled_pending (s : State) (k : ℕ) (f : DataF) : (s.dropStalled k f).pending = s.pending := by
  simp [State.dropStalled]

@[simp] theorem arriveData_pending (s : State) (k : ℕ) (f : DataF) (poison : Bool) :
    (s.arriveData k f poison).pending = s.pending := by
  unfold State.arriveData
  dsimp only
  split <;> simp

@[simp] theorem compareSide_pending (s : State) (k : ℕ) (prev : Bool) :
    (s.compareSide k prev).pending = s.pending := by
  unfold State.compareSide
  dsimp only
  split
  · split
    · simp
    · split <;> simp
  · split
    · simp
    · split <;> simp

@[simp] theorem hearPeer_pending (s : State) (k : ℕ) (prev : Bool) : (s.hearPeer k prev).pending = s.pending := by
  simp [State.hearPeer]

@[simp] theorem hearPeers_pending (s : State) (p : ℕ → Bool) : (s.hearPeers p).pending = s.pending := by
  simp [State.hearPeers]

@[simp] theorem freeReservation_pending (s : State) (k m : ℕ) : (s.freeReservation k m).pending = s.pending := by
  unfold State.freeReservation
  split <;> simp

@[simp] theorem abortSend_pending (s : State) (k : ℕ) (c : Cmd) : (s.abortSend k c).pending = s.pending := by
  unfold State.abortSend
  split <;> split <;> simp

@[simp] theorem abortCmd_pending (s : State) (c : Cmd) : (s.abortCmd c).pending = s.pending := by
  simp [State.abortCmd]

@[simp] theorem abortMbCmds_pending (s : State) (k m : ℕ) : (s.abortMbCmds k m).pending = s.pending := by
  simp [State.abortMbCmds]

@[simp] theorem noteDrop_pending (s : State) (k : ℕ) : (s.noteDrop k).pending = s.pending := by
  unfold State.noteDrop
  dsimp only
  split <;> simp

@[simp] theorem dropMb_pending (s : State) (k m : ℕ) : (s.dropMb k m).pending = s.pending := by
  unfold State.dropMb
  dsimp only
  split <;> split <;> simp

@[simp] theorem rewindMb_pending (s : State) (k m : ℕ) : (s.rewindMb k m).pending = s.pending := by
  unfold State.rewindMb
  dsimp only
  split <;> simp

@[simp] theorem abortSluice_pending (s : State) (k : ℕ) (bwd : Bool) (step : W32) :
    (s.abortSluice k bwd step).pending = s.pending := by
  simp [State.abortSluice]

@[simp] theorem abortCtx_pending (s : State) (step : W32) (k : ℕ) (pinned : List ℕ) :
    (s.abortCtx step k pinned).pending = s.pending := by
  simp [State.abortCtx]

@[simp] theorem commitCtx_pending (s : State) (step : W32) (k : ℕ) : (s.commitCtx step k).pending = s.pending := by
  simp [State.commitCtx]

@[simp] theorem reserve_pending (s : State) (k m base n : ℕ) : (s.reserve k m base n).pending = s.pending := rfl

@[simp] theorem endAdmit_pending (s : State) (c : Cmd) (st : Status) (detail : ℕ) :
    (s.endAdmit c st detail).pending = s.pending := by
  simp [State.endAdmit]

@[simp] theorem enterForward_pending (s : State) (k m : ℕ) : (s.enterForward k m).pending = s.pending := rfl

@[simp] theorem grantAdmit_pending (s : State) (c : Cmd) (entry : Option ℕ) (base : ℕ) (picks : List (ℕ × ℕ)) :
    (s.grantAdmit c entry base picks).pending = s.pending := by
  unfold State.grantAdmit
  split <;> simp

@[simp] theorem tryAdmit_pending (s : State) (c : Cmd) (first : Bool) : (s.tryAdmit c first).pending = s.pending := by
  unfold State.tryAdmit
  split <;> simp

@[simp] theorem tryAdmitBack_pending (s : State) (c : Cmd) (first : Bool) :
    (s.tryAdmitBack c first).pending = s.pending := by
  unfold State.tryAdmitBack
  dsimp only
  split
  · simp
  · split <;> simp

@[simp] theorem tryAnyAdmit_pending (s : State) (c : Cmd) (first : Bool) :
    (s.tryAnyAdmit c first).pending = s.pending := by
  unfold State.tryAnyAdmit
  split <;> simp

@[simp] theorem failHolds_pending (s : State) (c : Cmd) (st : Status) (detail : ℕ) :
    (s.failHolds c st detail).pending = s.pending := by
  unfold State.failHolds
  dsimp only
  split
  · split <;> simp
  · simp

@[simp] theorem settleHolds_pending (s : State) (ref : CmdRef) : (s.settleHolds ref).pending = s.pending := by
  unfold State.settleHolds
  split <;> simp

@[simp] theorem freeEntry_pending (s : State) (k m : ℕ) (bwd : Bool) : (s.freeEntry k m bwd).pending = s.pending := by
  unfold State.freeEntry
  dsimp only
  split <;> simp

@[simp] theorem endSend_pending (s : State) (c : Cmd) : (s.endSend c).pending = s.pending := by
  unfold State.endSend
  dsimp only
  split <;> split <;> simp

@[simp] theorem transfer_pending (s : State) (c : Cmd) (e : ℕ) : (s.transfer c e).pending = s.pending := by
  unfold State.transfer
  dsimp only
  split <;> simp

@[simp] theorem trySend_pending (s : State) (c : Cmd) (first : Bool) : (s.trySend c first).pending = s.pending := by
  unfold State.trySend
  split <;> simp

theorem writeCtx_pending (s : State) (k off size : ℕ) (value : W64) {t : State}
    (h : (s.writeCtx k off size value) = some t) :
    t.pending = s.pending := by
  unfold State.writeCtx at h
  dsimp only at h
  repeat' split at h
  all_goals cases h; try simp

end Sys2Proof.Machine
end

section
/-! PROOF. The queue under arrays, spills and tensors. -/

namespace Sys2Proof.Machine

@[simp] theorem startArray_pending (s : State) (c : Cmd) (p : ArrParams) :
    (s.startArray c p).pending = s.pending := by
  unfold State.startArray
  dsimp only
  split
  · split <;> simp -implicitDefEqProofs
  · simp -implicitDefEqProofs

@[simp] theorem setJob_pending (s : State) (ref : CmdRef) (j : ArrayJob) : (s.setJob ref j).pending = s.pending := rfl

@[simp] theorem issueWord_pending (s : State) (c : Cmd) (j : ArrayJob) (a i : ℕ) :
    (s.issueWord c j a i).pending = s.pending := by
  simp [State.issueWord]

@[simp] theorem countFeedWait_pending (s : State) (ref : CmdRef) (j : ArrayJob) (n : ℕ) :
    (s.countFeedWait ref j n).pending = s.pending :=
  rfl

@[simp] theorem latchArray_pending (s : State) (c : Cmd) (j : ArrayJob) (a pass m : ℕ) (vec : List Sys2Proof.Num) :
    (s.latchArray c j a pass m vec).pending = s.pending :=
  rfl

@[simp] theorem completeBroadcast_pending (s : State) (c : Cmd) (j : ArrayJob) :
    (s.completeBroadcast c j).pending = s.pending := by
  unfold State.completeBroadcast
  simp -implicitDefEqProofs

@[simp] theorem countEdgeWait_pending (s : State) (c : Cmd) (j : ArrayJob) (n : ℕ) :
    (s.countEdgeWait c j n).pending = s.pending :=
  rfl

@[simp] theorem replayOne_pending (s : State) (die a : ℕ) (f : Flight) (rest : List Flight) (late : Bool) :
    (s.replayOne die a f rest late).pending = s.pending := by
  unfold State.replayOne
  split <;> simp

@[simp] theorem measureRate_pending (s : State) (die : ℕ) : (s.measureRate die).pending = s.pending := rfl

@[simp] theorem setPartial_pending (s : State) (die a : ℕ) (slots : List ℕ) (b : Bool) :
    (s.setPartial die a slots b).pending = s.pending :=
  rfl

@[simp] theorem disarm_pending (s : State) (die a slot : ℕ) : (s.disarm die a slot).pending = s.pending := rfl

@[simp] theorem addSlotRow_pending (s : State) (die a slot row : ℕ) (xs : List W32) :
    (s.addSlotRow die a slot row xs).pending = s.pending := by
  simp [State.addSlotRow]

@[simp] theorem armPair_pending (s : State) (die a slot : ℕ) (isMin : Bool) (base : ℕ) :
    (s.armPair die a slot isMin base).pending = s.pending := by
  unfold State.armPair
  dsimp only
  rw [setPartial_pending, modArray_pending]
  refine foldl_pending (fun s m => ?_) _ _
  rw [writeSlotRow_pending, writeSlotRow_pending]

@[simp] theorem reduceRow_pending (s : State) (die a slot row : ℕ) (isMin : Bool) (cOff : ℕ) (xs : List W32) :
    (s.reduceRow die a slot row isMin cOff xs).pending = s.pending := by
  unfold State.reduceRow
  dsimp only
  rw [writeSlotRow_pending, writeSlotRow_pending]
  split
  · rfl
  · exact armPair_pending ..

@[simp] theorem compareRow_pending (s : State) (die a row : ℕ) (first : Bool) (xs : List W32) :
    (s.compareRow die a row first xs).1.pending = s.pending :=
  rfl

@[simp] theorem copyRow_pending (s : State) (die a slot row cols : ℕ) :
    (s.copyRow die a slot row cols).1.pending = s.pending :=
  (countAccPoison_pending ..).trans (writeSlotRow_pending ..)

@[simp] theorem stageRow_pending (s : State) (die a : ℕ) (new : SpillJob) (row cols : ℕ) :
    (s.stageRow die a new row cols).pending = s.pending := by
  unfold State.stageRow
  dsimp only
  split
  · simp
  · split
    · simp
    · split <;> simp

@[simp] theorem nextStaging_pending (s : State) (die a : ℕ) : (s.nextStaging die a).pending = s.pending := by
  unfold State.nextStaging
  split <;> simp

@[simp] theorem spillElem_pending (die entry : ℕ) (write : Bool) (acc : State × ℕ) (e : ℕ × W32 × Bool) :
    (spillElem die entry write acc e).1.pending = acc.1.pending := by
  unfold spillElem
  dsimp only
  split
  · rw [markPoison_pending, write_pending]
  · rw [write_pending]

@[simp] theorem advanceBase_pending (s : State) (die a slot n : ℕ) :
    (s.advanceBase die a slot n).pending = s.pending :=
  rfl

@[simp] theorem endArrayPin_pending (s : State) (c : Cmd) : (s.endArrayPin c).pending = s.pending := by
  unfold State.endArrayPin
  split
  · split <;> simp
  · simp

@[simp] theorem checkArray_pending (s : State) (ref : CmdRef) : (s.checkArray ref).pending = s.pending := by
  unfold State.checkArray
  split <;> simp

theorem writtenOrAdded_pending (s : State) (p : Prop) [Decidable p] (die a slot row : ℕ) (xs : List W32) :
    (if p then (s.writeSlotRow die a slot row xs).setPartial die a [slot] false
      else s.addSlotRow die a slot row xs).pending = s.pending := by
  split
  · rw [setPartial_pending, writeSlotRow_pending]
  · exact addSlotRow_pending ..

@[simp] theorem takeRow_pending (s : State) (c : Cmd) (j : ArrayJob) (o a : ℕ) (f : Flight) (xs : List W32) :
    (s.takeRow c j o a f xs).pending = s.pending := by
  unfold State.takeRow
  dsimp only
  split
  · split
    · rw [compareRow_pending, setJob_pending]
    · split
      · rw [advanceBase_pending, reduceRow_pending, compareRow_pending, setJob_pending]
      · rw [reduceRow_pending, compareRow_pending, setJob_pending]
  · split
    · rw [stageRow_pending, writtenOrAdded_pending, disarm_pending, setJob_pending]
    · rw [writtenOrAdded_pending, disarm_pending, setJob_pending]

/-- The slot's 64 rows are kept as a number that the kernel does not know, so that it does not run through them. -/
@[simp] theorem flushSlot_pending (die a entry : ℕ) (write : Bool) (acc : State × ℕ) (slot : ℕ) :
    (flushSlot die a entry write acc slot).1.pending = acc.1.pending := by
  obtain ⟨n, hn⟩ : ∃ n, n = 64 := ⟨_, rfl⟩
  have heq := Eq.refl @flushSlot
  conv at heq => rhs; delta flushSlot; rw [← hn]
  rw [heq]
  dsimp only
  rw [disarm_pending]
  refine foldl_fst_pending (fun acc row => ?_) _ _
  exact (foldl_fst_pending (spillElem_pending die entry write) _ _).trans (copyRow_pending ..)

/-- A fold's steps named by what they answer, so that the kernel compares the steps and does not run them. -/
theorem foldl_fst_pending_of_eq {α β : Type} {f : State × β → α → State × β}
    (hf : ∀ a b y, f a b = y → y.1.pending = a.1.pending) (as : List α) (a : State × β) :
    (as.foldl f a).1.pending = a.1.pending :=
  foldl_fst_pending (fun a b => hf a b _ rfl) as a

@[simp] theorem runFlush_pending (s : State) (c : Cmd) : (s.runFlush c).pending = s.pending := by
  unfold State.runFlush
  dsimp only
  split
  · rw [setWait_pending]
  · split
    · rw [complete_pending]
    · split
      · rw [complete_pending, armPair_pending]
      · split
        · rw [complete_pending]
        · rw [complete_pending, modDie_pending]
          exact foldl_fst_pending_of_eq (fun acc i y h => h ▸ flushSlot_pending ..) _ _

@[simp] theorem abortArray_pending (s : State) (c : Cmd) (j : ArrayJob) (st : Status) :
    (s.abortArray c j st).pending = s.pending := by
  unfold State.abortArray
  dsimp only
  rw [endArrayPin_pending, complete_pending]
  refine ((foldl_pending (fun s a => ?_) _ _).trans (foldl_pending (fun s p => ?_) _ _)).trans
    (foldl_pending (fun s a => ?_) _ _)
  · split
    · split
      · exact nextStaging_pending ..
      · rfl
    · rfl
  · exact setPartial_pending ..
  · exact modArray_pending ..

@[simp] theorem refeed_pending (s : State) (die a : ℕ) (flights : List Flight) :
    (s.refeed die a flights).pending = s.pending := by
  unfold State.refeed
  refine (foldl_pending (fun s ref => ?_) _ _).trans (modArray_pending ..)
  split
  · rfl
  · dsimp only
    split
    · rw [modArray_pending, setJob_pending]
    · rw [setJob_pending]

@[simp] theorem refeedChain_pending (s : State) (die a : ℕ) : (s.refeedChain die a).pending = s.pending := by
  unfold State.refeedChain
  dsimp only
  split <;> simp

@[simp] theorem reloadWord_pending (die a row : ℕ) (s : State) (owner : CmdRef × ℕ) :
    (State.reloadWord die a row s owner).pending = s.pending := by
  unfold State.reloadWord
  split <;> simp

@[simp] theorem reloadRow_pending (s : State) (die a row : ℕ) : (s.reloadRow die a row).pending = s.pending := by
  simp [State.reloadRow]

@[simp] theorem replayRefused_pending (s : State) (die a : ℕ) : (s.replayRefused die a).pending = s.pending := by
  unfold State.replayRefused
  dsimp only
  split <;> simp

@[simp] theorem refeedRow_pending (s : State) (die a row : ℕ) : (s.refeedRow die a row).pending = s.pending := by
  unfold State.refeedRow
  dsimp only
  split <;> simp

@[simp] theorem writeElems_pending (s : State) (key : ℕ) (elems : List (ℕ × ℕ × ℕ)) :
    (s.writeElems key elems).pending = s.pending := by
  have hfold (mask val n : ℕ) (acc : State × List (ℕ × Byte)) :=
    foldl_fst_pending (f := fun (acc : State × List (ℕ × Byte)) i =>
      let mb := mask >>> (8 * i) % 256
      if mb = 0 then
        (match acc.2 with
         | [] => acc
         | (a, _) :: _ => (acc.1.write (key + a) (acc.2.map (·.2)), []))
      else
        let old := (memRead acc.1.mem (key + i)).toNat
        (acc.1, acc.2 ++ [(i, BitVec.ofNat 8 ((old &&& (255 - mb)) ||| (val >>> (8 * i) % 256)))])) (by
      intro a b
      dsimp only
      split
      · split <;> rfl
      · rfl) (List.range n) acc
  unfold State.writeElems
  dsimp only
  split
  · exact hfold ..
  · exact (write_pending ..).trans (hfold ..)

@[simp] theorem writeTensor_pending (s : State) (k : ℕ) (p : DrainP) (t : Tensor) (v : Converted) :
    (s.writeTensor k p t v).pending = s.pending := by
  unfold State.writeTensor
  simp -implicitDefEqProofs

@[simp] theorem putTensor_pending (s : State) (k : ℕ) (p : DrainP) (t : Tensor) (rounds main : Bool)
    (m : List (List W32)) (acc : DrainAcc) :
    (s.putTensor k p t rounds main m acc).1.pending = s.pending := by
  unfold State.putTensor
  dsimp only
  split <;> simp

@[simp] theorem putRowState_pending (s : State) (k : ℕ) (p : DrainP) (m : ℕ) (r : RowState) :
    (s.putRowState k p m r).pending = s.pending :=
  rfl

@[simp] theorem drainWrites_pending (s : State) (k : ℕ) (p : DrainP) (v : Pipe) :
    (s.drainWrites k p v).1.pending = s.pending := by
  unfold State.drainWrites
  split <;> split <;> split <;> split <;> split <;> split <;> simp -implicitDefEqProofs

@[simp] theorem exportRows_pending (s : State) (k : ℕ) (p : DrainP) : (s.exportRows k p).1.pending = s.pending := by
  unfold State.exportRows
  split <;> simp

@[simp] theorem endDrain_pending (s : State) (c : Cmd) (p : DrainP) (acc : DrainAcc) :
    (s.endDrain c p acc).pending = s.pending := by
  unfold State.endDrain
  dsimp only
  split <;> split <;> simp

@[simp] theorem runDrain_pending (s : State) (c : Cmd) : (s.runDrain c).pending = s.pending := by
  unfold State.runDrain
  dsimp only
  split
  · simp
  · split
    · simp
    · split
      · simp
      · split
        · simp
        · split <;> simp

end Sys2Proof.Machine
end

section
/-! PROOF. The queue under update engines, frames that come in and reductions. -/

namespace Sys2Proof.Machine

@[simp] theorem putWork_pending (s : State) (l : Layer) (slot : ℕ) (w : WorkMap) (e0 : ℕ) (vals : List W32)
    (rnd : List (Option ℕ)) :
    (s.putWork l slot w e0 vals rnd).1.pending = s.pending := by
  unfold State.putWork
  dsimp only
  split <;> simp

@[simp] theorem failLayer_pending (s : State) (layer : ℕ) : (s.failLayer layer).pending = s.pending := rfl

@[simp] theorem failWaiting_pending (s : State) (c : Cmd) : (s.failWaiting c).pending = s.pending := by
  unfold State.failWaiting
  dsimp only
  split <;> simp

@[simp] theorem setEngine_pending (s : State) (die : ℕ) (e : Option Engine) :
    (s.setEngine die e).pending = s.pending :=
  rfl

@[simp] theorem beginVersion_pending (s : State) (p : UpdP) : (s.beginVersion p).pending = s.pending := by
  unfold State.beginVersion
  dsimp only
  split <;> simp

@[simp] theorem startPart_pending (s : State) (c : Cmd) : (s.startPart c).pending = s.pending := by
  simp [State.startPart]

@[simp] theorem failEngine_pending (s : State) (die : ℕ) (st : Status) :
    (s.failEngine die st).pending = s.pending := by
  unfold State.failEngine
  split <;> simp

@[simp] theorem cleanPart_pending (s : State) (p : UpdP) (e : Engine) : (s.cleanPart p e).pending = s.pending := rfl

@[simp] theorem endPart_pending (s : State) (c : Cmd) (p : UpdP) (e : Engine) :
    (s.endPart c p e).pending = s.pending := by
  simp [State.endPart]

@[simp] theorem countUpdNonfinite_pending (s : State) (c : Cmd) (die n : ℕ) :
    (s.countUpdNonfinite c die n).pending = s.pending := by
  unfold State.countUpdNonfinite
  split <;> simp

@[simp] theorem stageCopy_pending (s : State) (c : Cmd) : (s.stageCopy c).pending = s.pending := by
  simp [State.stageCopy]

@[simp] theorem discardFrame_pending (s : State) (p : ℕ) : (s.discardFrame p).pending = s.pending := rfl

@[simp] theorem acceptFrame_pending (s : State) (p : ℕ) (hdr : FrameHdr) (body : FrameBody) :
    (s.acceptFrame p hdr body).pending = s.pending := by
  simp [State.acceptFrame]

@[simp] theorem sendTree_pending (s : State) (p : ℕ) (body : FrameBody) :
    (s.sendTree p body).pending = s.pending := by
  simp [State.sendTree]

@[simp] theorem sendPorts_pending (s : State) (ps : List ℕ) (body : FrameBody) :
    (s.sendPorts ps body).pending = s.pending := by
  simp [State.sendPorts]

@[simp] theorem countRefusal_pending (s : State) (x : ℕ) (st : Status) :
    (s.countRefusal x st).pending = s.pending := by
  unfold State.countRefusal
  split <;> simp

@[simp] theorem putColl_pending (s : State) (c : CollCtx) : (s.putColl c).pending = s.pending := rfl

@[simp] theorem closeColl_pending (s : State) (c : CollCtx) : (s.closeColl c).pending = s.pending := by
  unfold State.closeColl
  split <;> simp

theorem openColl_pending (s : State) (c : CollCtx) {t : State} (h : s.openColl c = some t) :
    t.pending = s.pending := by
  unfold State.openColl at h
  split at h <;> cases h
  rfl

@[simp] theorem openColl_getD_pending (s : State) (c : CollCtx) : ((s.openColl c).getD s).pending = s.pending := by
  cases h : s.openColl c with
  | none => rfl
  | some t => exact openColl_pending s c h

@[simp] theorem refuseColl_pending (s : State) (c : CollCtx) (st : Status) (offender : Option ℕ) (body : List Byte) :
    (s.refuseColl c st offender body).pending = s.pending := by
  unfold State.refuseColl
  dsimp only
  split <;> simp

@[simp] theorem turnAway_pending (s : State) (p kind : ℕ) (collId step : W32) (epoch : W16) (st : Status) :
    (s.turnAway p kind collId step epoch st).pending = s.pending := by
  simp [State.turnAway]

@[simp] theorem landBlocks_pending (s : State) (x : CollCtx) (p : RedP) (first : ℕ) (ws : List WireBlock) :
    (s.landBlocks x p first ws).pending = s.pending := by
  refine foldl_pending (fun s w => ?_) _ _
  dsimp only
  split
  · rw [noteNonfinite_pending, write_pending, write_pending]
  · rw [write_pending, write_pending]

@[simp] theorem notePoisonSource_pending (s : State) (x : CollCtx) (c : Cmd) (todo : List ℕ) :
    (s.notePoisonSource x c todo).1.pending = s.pending := by
  unfold State.notePoisonSource
  split <;> simp

@[simp] theorem addLocals_pending (s : State) (x : CollCtx) (c : Cmd) : (s.addLocals x c).1.pending = s.pending := by
  simp [State.addLocals]

@[simp] theorem sendRun_pending (s : State) (x : CollCtx) (c : Cmd) : (s.sendRun x c).2.pending = s.pending := by
  unfold State.sendRun
  dsimp only
  split
  · simp
  · split
    · simp
    · split <;> simp

@[simp] theorem runReduce_pending (s : State) (collId step : W32) (epoch : W16) (fuel : ℕ) :
    (s.runReduce collId step epoch fuel).pending = s.pending := by
  induction fuel generalizing s with
  | zero => rfl
  | succ fuel ih =>
    rw [State.runReduce]
    split
    · rfl
    · split
      · rfl
      · split
        · simp
        · dsimp only
          split
          · simp
          · split <;> simp [ih]

@[simp] theorem absorbReduce_pending (s : State) (x : CollCtx) (c : Cmd) (port : ℕ) (f : ReduceF) :
    (s.absorbReduce x c port f).pending = s.pending := by
  unfold State.absorbReduce
  dsimp only
  split
  · exact refuseColl_pending ..
  · split
    · simp
    · split <;> simp

@[simp] theorem drainReduce_pending (s : State) (collId step : W32) (epoch : W16) (fs : List (ℕ × ReduceF)) :
    (s.drainReduce collId step epoch fs).pending = s.pending := by
  refine foldl_pending (fun s f => ?_) _ _
  split
  · rfl
  · split
    · rfl
    · exact absorbReduce_pending ..

@[simp] theorem wakeReduce_pending (s : State) (x : CollCtx) : (s.wakeReduce x).pending = s.pending := by
  unfold State.wakeReduce
  split
  · rfl
  · split
    · rfl
    · simp

@[simp] theorem loadTable_pending (s : State) (c : Cmd) (x : CollCtx) : (s.loadTable c x).1.pending = s.pending := by
  unfold State.loadTable
  dsimp only
  split <;> simp

@[simp] theorem takeReduce_pending (s : State) (port : ℕ) (f : ReduceF) :
    (s.takeReduce port f).pending = s.pending := by
  unfold State.takeReduce
  dsimp only
  split
  · exact swDiscard_pending ..
  · split
    · split
      · exact swDiscard_pending ..
      · split
        · split <;> simp
        · rw [openColl_getD_pending, sendPorts_pending]
    · split
      · exact turnAway_pending ..
      · split
        · exact turnAway_pending ..
        · next t x hopened =>
          have ht : t.pending = s.pending := by
            split at hopened
            · cases hopened; rfl
            · obtain ⟨u, hu, hx⟩ := Option.map_eq_some_iff.mp hopened
              cases hx
              exact openColl_pending _ _ hu
          split <;> simp [ht]

@[simp] theorem runBarrier_pending (s : State) (x : CollCtx) : (s.runBarrier x).pending = s.pending := by
  unfold State.runBarrier
  dsimp only
  split
  · simp
  · split
    · simp
    · split <;> simp

end Sys2Proof.Machine
end

section
/-! PROOF. The queue under sweeps, gathers, shifts and permutes. -/

namespace Sys2Proof.Machine

@[simp] theorem putSweep_pending (s : State) (w : Sweep) : (s.putSweep w).pending = s.pending := rfl

@[simp] theorem dropSweep_pending (s : State) (ref : CmdRef) : (s.dropSweep ref).pending = s.pending := rfl

@[simp] theorem finishSweep_pending (s : State) (ref : CmdRef) (st : Status) (body : List Byte) :
    (s.finishSweep ref st body).pending = s.pending :=
  rfl

@[simp] theorem completeAt_pending (s : State) (tide : ℕ) (c : Cmd) (st : Status) (body : List Byte) :
    (s.completeAt tide c st body).pending = s.pending := by
  simp [State.completeAt]

@[simp] theorem reportMismatch_pending (s : State) (w : Sweep) (bad : List ℕ) :
    (s.reportMismatch w bad).pending = s.pending := by
  unfold State.reportMismatch
  split <;> simp

@[simp] theorem endCompare_pending (s : State) (w : Sweep) : (s.endCompare w).pending = s.pending := by
  simp [State.endCompare]

@[simp] theorem sweepLand_pending (s : State) (w : Sweep) (poison : Bool) (f : GatherF) :
    (s.sweepLand w poison f).1.pending = s.pending := by
  unfold State.sweepLand
  split <;> simp

@[simp] theorem settleSweep_pending (s : State) (x : CollCtx) (w : Sweep) :
    (s.settleSweep x w).pending = s.pending := by
  simp [State.settleSweep]

@[simp] theorem sweepDown_pending (s : State) (x : CollCtx) (ref : CmdRef) (poison : Bool) (f : GatherF) :
    (s.sweepDown x ref poison f).pending = s.pending := by
  unfold State.sweepDown
  split <;> simp

@[simp] theorem sweepSend_pending (s : State) (w : Sweep) : (s.sweepSend w).pending = s.pending := by
  simp [State.sweepSend]

@[simp] theorem finishReads_pending (s : State) (w : Sweep) (c : Cmd) : (s.finishReads w c).pending = s.pending := by
  unfold State.finishReads
  dsimp only
  split
  · split <;> simp
  · split <;> split <;> split <;> simp

@[simp] theorem voidSweeps_pending (s : State) (flipped : List ℕ) : (s.voidSweeps flipped).pending = s.pending := by
  simp [State.voidSweeps]

@[simp] theorem repairCopy_pending (s : State) (w : Sweep) : (s.repairCopy w).pending = s.pending := by
  unfold State.repairCopy
  simp -implicitDefEqProofs

@[simp] theorem closeSweeps_pending (s : State) (open_ : List ℕ) (tide : ℕ) :
    (s.closeSweeps open_ tide).pending = s.pending := by
  refine foldl_pending (fun s w => ?_) _ _
  split
  · rfl
  · split <;> simp

@[simp] theorem checkGather_pending (s : State) (x : CollCtx) (c : Cmd) :
    (s.checkGather x c).pending = s.pending := by
  unfold State.checkGather
  dsimp only
  split <;> simp

@[simp] theorem gatherDown_pending (s : State) (x : CollCtx) (c : Cmd) (poison : Bool) (f : GatherF) :
    (s.gatherDown x c poison f).pending = s.pending := by
  unfold State.gatherDown
  dsimp only
  split <;> simp

@[simp] theorem absorbGather_pending (s : State) (x : CollCtx) (c : Cmd) (poison : Bool) (f : GatherF) :
    (s.absorbGather x c poison f).pending = s.pending := by
  unfold State.absorbGather
  split
  · simp
  · split
    · simp
    · split <;> simp

@[simp] theorem sendOwn_pending (s : State) (collId : W32) (epoch : W16) (c : Cmd) :
    (s.sendOwn collId epoch c).pending = s.pending := by
  unfold State.sendOwn
  dsimp only
  split
  · rfl
  · split
    · rfl
    · refine (foldl_pending (fun s part => ?_) _ _).trans ((putColl_pending ..).trans (copy_pending ..))
      split
      · rfl
      · exact absorbGather_pending ..

@[simp] theorem wakeGather_pending (s : State) (x : CollCtx) : (s.wakeGather x).pending = s.pending := by
  unfold State.wakeGather
  split
  · rfl
  · rename_i c _
    generalize (if c.opcode = 0x62 then [] else s.gatRanges (gatP c)) = ranges
    split
    · rfl
    · refine (foldl_pending (fun s f => ?_) _ _).trans (putColl_pending ..)
      split
      · rfl
      · exact absorbGather_pending ..

@[simp] theorem sendShift_pending (s : State) (c : Cmd) : (s.sendShift c).pending = s.pending := by
  simp [State.sendShift]

@[simp] theorem modShift_pending (s : State) (collId : W32) (f : Shift → Shift) :
    (s.modShift collId f).pending = s.pending :=
  rfl

@[simp] theorem dropShift_pending (s : State) (collId : W32) : (s.dropShift collId).pending = s.pending := rfl

@[simp] theorem runShift_pending (s : State) (c : Cmd) : (s.runShift c).pending = s.pending := by
  unfold State.runShift
  dsimp only
  split <;> simp

@[simp] theorem startShift_pending (s : State) (c : Cmd) : (s.startShift c).pending = s.pending := by
  unfold State.startShift
  dsimp only
  split <;> simp

@[simp] theorem forwardRank_pending (s : State) (port : ℕ) (hdr : FrameHdr) (body : FrameBody) (rank : ℕ) :
    (s.forwardRank port hdr body rank).pending = s.pending := by
  unfold State.forwardRank
  split <;> simp

@[simp] theorem takeShardReq_pending (s : State) (port : ℕ) (hdr : FrameHdr) (f : GatherF) :
    (s.takeShardReq port hdr f).pending = s.pending := by
  unfold State.takeShardReq
  dsimp only
  split
  · simp
  · split
    · simp
    · split <;> simp

@[simp] theorem takeShardData_pending (s : State) (port : ℕ) (poison : Bool) (f : GatherF) :
    (s.takeShardData port poison f).pending = s.pending := by
  unfold State.takeShardData
  split
  · simp
  · split
    · simp
    · split <;> simp

@[simp] theorem takeTreeGather_pending (s : State) (port : ℕ) (poison : Bool) (f : GatherF) :
    (s.takeTreeGather port poison f).pending = s.pending := by
  unfold State.takeTreeGather
  dsimp only
  split
  · exact swDiscard_pending ..
  · split
    · split
      · exact swDiscard_pending ..
      · exact turnAway_pending ..
    · split
      · split
        · rfl
        · exact turnAway_pending ..
      · next t x hopened =>
        have ht : t.pending = s.pending := by
          split at hopened
          · cases hopened; rfl
          · obtain ⟨u, hu, hx⟩ := Option.map_eq_some_iff.mp hopened
            cases hx
            exact openColl_pending _ _ hu
        split
        · split <;> simp [ht]
        · split <;> simp [ht]

@[simp] theorem modPermute_pending (s : State) (f : Permute → Permute) : (s.modPermute f).pending = s.pending := rfl

@[simp] theorem modSeg_pending (s : State) (i : ℕ) (f : Segment → Segment) : (s.modSeg i f).pending = s.pending := rfl

@[simp] theorem sendSegment_pending (s : State) (p : Permute) (i plane key total : ℕ) (serial : W16) :
    (s.sendSegment p i plane key total serial).pending = s.pending := by
  simp [State.sendSegment]

@[simp] theorem startSegment_pending (s : State) (i : ℕ) (g : Segment) :
    (s.startSegment i g).pending = s.pending := by
  unfold State.startSegment
  split <;> simp

@[simp] theorem takeRaw_pending (s : State) (f : PermuteF) (poison : Bool) (g : Segment) :
    (s.takeRaw f poison g).pending = s.pending := by
  unfold State.takeRaw
  split <;> simp

@[simp] theorem takeWork_pending (s : State) (f : PermuteF) (poison : Bool) (g : Segment) :
    (s.takeWork f poison g).pending = s.pending := by
  unfold State.takeWork
  dsimp only
  split <;> simp

@[simp] theorem takeSegment_pending (s : State) (f : PermuteF) (poison : Bool) :
    (s.takeSegment f poison).pending = s.pending := by
  unfold State.takeSegment
  split
  · simp
  · split <;> simp

@[simp] theorem retryHeld_pending (s : State) : s.retryHeld.pending = s.pending := by
  unfold State.retryHeld
  split <;> simp

@[simp] theorem freeReceiving_pending (s : State) (p : Permute) : (s.freeReceiving p).pending = s.pending := by
  refine foldl_pending (fun s g => ?_) _ _
  split <;> rfl

@[simp] theorem layoutSwitch_pending (s : State) (tide : ℕ) : (s.layoutSwitch tide).pending = s.pending := by
  unfold State.layoutSwitch
  dsimp only
  split
  · simp
  · split <;> simp -implicitDefEqProofs

theorem writeSwitch_pending (s : State) (off size : ℕ) (value : W64) {t : State}
    (h : (s.writeSwitch off size value) = some t) :
    t.pending = s.pending := by
  unfold State.writeSwitch at h
  dsimp only at h
  repeat' split at h
  all_goals cases h; try simp

end Sys2Proof.Machine
end

section
/-! PROOF. The queue under step verdicts, skims, loads and DMA channels. -/

namespace Sys2Proof.Machine

@[simp] theorem verdictArrives_pending (s : State) (f : VerdictF) : (s.verdictArrives f).pending = s.pending := by
  unfold State.verdictArrives
  split <;> simp

@[simp] theorem vote_pending (s : State) : s.vote.pending = s.pending := by
  unfold State.vote
  dsimp only
  split
  · simp
  · split
    · simp
    · split <;> simp

@[simp] theorem queueSkim_pending (s : State) (parts : List SkimPart) (step : W32) :
    (s.queueSkim parts step).pending = s.pending := by
  unfold State.queueSkim
  split <;> simp

@[simp] theorem abortUpdate_pending (s : State) (c : Cmd) : (s.abortUpdate c).pending = s.pending := by
  unfold State.abortUpdate
  dsimp only
  split <;> simp

@[simp] theorem dropVersionWaits_pending (s : State) (layer : ℕ) (serial : W16) :
    (s.dropVersionWaits layer serial).pending = s.pending := by
  simp [State.dropVersionWaits]

@[simp] theorem resendSegments_pending (s : State) (layers : List ℕ) :
    (s.resendSegments layers).pending = s.pending := by
  unfold State.resendSegments
  split <;> simp

theorem layoutSwitchIf_pending (s : State) (p : Prop) [Decidable p] (tide : ℕ) (f : Permute → Permute) :
    (if p then s.layoutSwitch tide else (s.modPermute f).retryHeld).pending = s.pending := by
  split
  · exact layoutSwitch_pending ..
  · rw [retryHeld_pending, modPermute_pending]

theorem queueSkimIf_pending (s : State) (p : Prop) [Decidable p] (parts : List SkimPart) (step : W32) :
    (if p then s.queueSkim parts step else s).pending = s.pending := by
  split
  · exact queueSkim_pending ..
  · rfl

@[simp] theorem closeStep_pending (s : State) (committed halve : Bool) (tide : ℕ) :
    (s.closeStep committed halve tide).pending = s.pending := by
  unfold State.closeStep
  dsimp only
  rw [tickUpdates_pending, hearPeers_pending, layoutSwitchIf_pending, closeSweeps_pending, voidSweeps_pending,
    resendSegments_pending, queueSkimIf_pending]
  refine (foldl_pending (fun s g => by exact dropVersionWaits_pending ..) _ _).trans
    ((foldl_pending retire_pending _ _).trans ?_)
  dsimp only
  have hended : (match s.verdictCmd with
      | some c => s.complete c .aborted 0 (verdictBody c false false 0)
      | none => s).pending = s.pending := by split <;> simp
  by_cases hcommitted : committed = true
  · rw [if_pos hcommitted]
    exact (foldl_pending (fun s k => by exact commitCtx_pending ..) _ _).trans
      ((foldl_pending abortUpdate_pending _ _).trans hended)
  · rw [if_neg hcommitted]
    exact (foldl_pending (fun s k => by exact abortCtx_pending ..) _ _).trans
      ((foldl_pending abortUpdate_pending _ _).trans hended)

@[simp] theorem writeMarked_pending (s : State) (key : ℕ) (bs : List (Byte × Bool)) :
    (s.writeMarked key bs).pending = s.pending :=
  rfl

@[simp] theorem skimToRing_pending (s : State) (bs : List (Byte × Bool)) : (s.skimToRing bs).pending = s.pending := by
  unfold State.skimToRing
  dsimp only
  split <;> simp

@[simp] theorem skimToPort_pending (s : State) (bs : List (Byte × Bool)) : (s.skimToPort bs).pending = s.pending := by
  simp [State.skimToPort]

@[simp] theorem skimDone_pending (s : State) (r : SkimRec) : (s.skimDone r).pending = s.pending := by
  unfold State.skimDone
  split
  · simp
  · simp
  · simp -implicitDefEqProofs

@[simp] theorem xorWords_pending (s : State) (key : ℕ) (base : Bool) (ws : List ℕ) :
    (s.xorWords key base ws).pending = s.pending :=
  rfl

theorem applyPart_pending (a : Load) (entries : List LoadEntry) (h body : List Byte) :
    (a.applyPart entries h body).st.pending = a.st.pending := by
  unfold Load.applyPart
  dsimp only
  split
  · rfl
  · next e _ =>
    generalize (if (a.st.layer e.layer).stateSel then e.state0 else e.state1) = slot
    split
    · rfl
    · split <;> rfl

theorem loadPending_if {p : Prop} [Decidable p] {a b : Load} {q : List Instr} (ha : a.st.pending = q)
    (hb : b.st.pending = q) : (if p then a else b).st.pending = q := by
  split <;> assumption

theorem runLoad_pending (entries : List LoadEntry) (target : W32) (fuel key : ℕ) (bs : List Byte) (a : Load) :
    (runLoad entries target fuel key bs a).st.pending = a.st.pending := by
  induction fuel generalizing key bs a with
  | zero => rfl
  | succ fuel ih =>
    have hstop : (if a.last.isSome && a.left.isNone then a else a.fail none).st.pending = a.st.pending := by
      split <;> rfl
    rw [runLoad]
    dsimp only
    split
    · exact hstop
    · split
      · rfl
      · split
        · rfl
        · split
          · split
            · exact hstop
            · exact loadPending_if rfl (ih ..)
          · split
            · split
              · rfl
              · split
                · rfl
                · split
                  · rfl
                  · split
                    · exact applyPart_pending ..
                    · exact (ih ..).trans (applyPart_pending ..)
            · split
              · exact ih ..
              · rfl

@[simp] theorem rebuildWork_pending (s : State) (l : Layer) (slot : ℕ) (e : LoadEntry) (key : ℕ) :
    (s.rebuildWork l slot e key).pending = s.pending := by
  simp [State.rebuildWork]

@[simp] theorem loadLayer_pending (s : State) (a : Load) (layer : ℕ) : (s.loadLayer a layer).pending = s.pending := by
  unfold State.loadLayer
  dsimp only
  split <;> simp

@[simp] theorem commitLoad_pending (s : State) (a : Load) : (s.commitLoad a).pending = s.pending := by
  simp [State.commitLoad]

@[simp] theorem endDma_pending (s : State) (n : ℕ) (st : Status) (detail : ℕ) :
    (s.endDma n st detail).pending = s.pending := by
  unfold State.endDma
  dsimp only
  split <;> simp

@[simp] theorem stopChannel_pending (s : State) (n cause : ℕ) (st : Status) (detail : ℕ) :
    (s.stopChannel n cause st detail).pending = s.pending := by
  unfold State.stopChannel
  split <;> simp

@[simp] theorem failChannel_pending (s : State) (n : ℕ) (st : Status) (detail : ℕ) :
    (s.failChannel n st detail).pending = s.pending := by
  simp [State.failChannel]

@[simp] theorem badProgram_pending (s : State) (n : ℕ) : (s.badProgram n).pending = s.pending := by
  simp [State.badProgram]

@[simp] theorem busError_pending (s : State) (d : ℕ) (addr : W64) : (s.busError d addr).pending = s.pending := by
  unfold State.busError
  simp -implicitDefEqProofs

@[simp] theorem fetchInstr_pending (n : ℕ) (acc : State × Bool) (i : ℕ) :
    (fetchInstr n acc i).1.pending = acc.1.pending := by
  unfold fetchInstr
  dsimp only
  split
  · simp
  · split
    · simp
    · split
      · simp
      · split <;> simp

@[simp] theorem fetchAhead_pending (s : State) (n : ℕ) : (s.fetchAhead n).pending = s.pending := by
  unfold State.fetchAhead
  simp

@[simp] theorem revokeChannel_pending (s : State) (n : ℕ) : (s.revokeChannel n).pending = s.pending := by
  unfold State.revokeChannel
  dsimp only
  split <;> simp

@[simp] theorem stopRequest_pending (s : State) (n : ℕ) : (s.stopRequest n).pending = s.pending := by
  simp [State.stopRequest]

@[simp] theorem poisonedInstr_pending (s : State) (n u : ℕ) : (s.poisonedInstr n u).pending = s.pending := by
  unfold State.poisonedInstr
  split <;> simp

theorem readBack_pending (s : State) (n : ℕ) {go : State → State} (hgo : ∀ s, (go s).pending = s.pending) :
    (s.readBack n go).pending = s.pending := by
  unfold State.readBack
  dsimp only
  split
  · rfl
  · split <;> simp [hgo]

@[simp] theorem chanNext_pending (s : State) (n : ℕ) : (s.chanNext n).pending = s.pending := rfl

@[simp] theorem moveBurst_pending (s : State) (n src dst : ℕ) (bytes : List Byte) (fromHost last : Bool) :
    (s.moveBurst n src dst bytes fromHost last).pending = s.pending := by
  unfold State.moveBurst
  dsimp only
  split <;> simp

@[simp] theorem disarmUnit_pending (s : State) (u : ℕ) (st : Status) : (s.disarmUnit u st).pending = s.pending := by
  unfold State.disarmUnit
  dsimp only
  split <;> simp

theorem chanStore_pending (s : State) (n addr : ℕ) (bytes : List Byte) {f : State → State}
    (hf : ∀ s, (f s).pending = s.pending) :
    (s.chanStore n addr bytes f).pending = s.pending := by
  unfold State.chanStore
  dsimp only
  split
  · simp
  · split
    · rfl
    · split <;> simp [hf]

@[simp] theorem armUnit_pending (s : State) (c : Cmd) : (s.armUnit c).pending = s.pending := by
  unfold State.armUnit
  dsimp only
  split <;> simp

@[simp] theorem startSweep_pending (s : State) (c : Cmd) (w : Sweep) : (s.startSweep c w).pending = s.pending := by
  unfold State.startSweep
  dsimp only
  split
  · rfl
  · split
    · split <;> simp
    · rw [wakeGather_pending, putColl_pending, openColl_getD_pending, setWait_pending]

theorem writeChannel_pending (s : State) (n off size : ℕ) (value : W64) {t : State}
    (h : (s.writeChannel n off size value) = some t) :
    t.pending = s.pending := by
  unfold State.writeChannel at h
  dsimp only at h
  repeat' split at h
  all_goals cases h; try simp

theorem writeUnit_pending (s : State) (u off size : ℕ) (value : W64) {t : State}
    (h : (s.writeUnit u off size value) = some t) :
    t.pending = s.pending := by
  unfold State.writeUnit at h
  dsimp only at h
  repeat' split at h
  all_goals cases h; try simp

end Sys2Proof.Machine
end

section
/-! PROOF. The queue under faults of blocks and the training of links. -/

namespace Sys2Proof.Machine

@[simp] theorem modClass_pending (s : State) (cls : ℕ) (f : FaultClass → FaultClass) :
    (s.modClass cls f).pending = s.pending :=
  rfl

@[simp] theorem declareFault_pending (s : State) (source cls unit : ℕ) (noSpare : Bool) :
    (s.declareFault source cls unit noSpare).pending = s.pending := by
  simp [State.declareFault]

@[simp] theorem modTrain_pending (s : State) (l : Link) (f : Train → Train) :
    (s.modTrain l f).pending = s.pending := by
  unfold State.modTrain
  split <;> simp

@[simp] theorem setTrain_pending (s : State) (l : Link) (st : LState) : (s.setTrain l st).pending = s.pending := by
  unfold State.setTrain
  split <;> simp

@[simp] theorem alignWith_pending (s : State) (l : Link) (attempt : ℕ) (id : W16) :
    (s.alignWith l attempt id).pending = s.pending := by
  simp [State.alignWith]

@[simp] theorem toAlign_pending (s : State) (l : Link) (attempt : ℕ) : (s.toAlign l attempt).pending = s.pending := by
  simp [State.toAlign]

@[simp] theorem noteFallback_pending (s : State) (l : Link) : (s.noteFallback l).pending = s.pending := by
  unfold State.noteFallback
  split <;> simp

@[simp] theorem linkDown_pending (s : State) (l : Link) : (s.linkDown l).pending = s.pending := by
  unfold State.linkDown
  split <;> simp

@[simp] theorem attemptFault_pending (s : State) (l : Link) : (s.attemptFault l).pending = s.pending := by
  unfold State.attemptFault
  split <;> simp

theorem afterFailure_pending (s : State) (l : Link) {next : State → ℕ → State}
    (hnext : ∀ s a, (next s a).pending = s.pending) : (s.afterFailure l next).pending = s.pending := by
  unfold State.afterFailure
  dsimp only
  split
  · simp
  · split <;> simp [hnext]

@[simp] theorem nextAttempt_pending (s : State) (l : Link) (attempt : ℕ) :
    (s.nextAttempt l attempt).pending = s.pending := by
  simp [State.nextAttempt]

@[simp] theorem toVerify_pending (s : State) (l : Link) (agreed : Byte) (sparePos : Option ℕ) :
    (s.toVerify l agreed sparePos).pending = s.pending := by
  simp [State.toVerify]

@[simp] theorem judge_pending (s : State) (l : Link) : (s.judge l).pending = s.pending := by
  unfold State.judge
  dsimp only
  split
  · split
    · exact afterFailure_pending _ _ (fun s a => nextAttempt_pending s l a)
    · split
      · rfl
      · split <;> simp
  · rfl

@[simp] theorem acceptWord_pending (s : State) (l : Link) (w : WidthWord) :
    (s.acceptWord l w).pending = s.pending := by
  unfold State.acceptWord
  split <;> simp

@[simp] theorem noteAdopted_pending (s : State) (l : Link) (attempt : ℕ) :
    (s.noteAdopted l attempt).pending = s.pending := by
  unfold State.noteAdopted
  split <;> simp

@[simp] theorem takeWord_pending (s : State) (l : Link) (w : WidthWord) : (s.takeWord l w).pending = s.pending := by
  unfold State.takeWord
  dsimp only
  split
  · simp
  · split <;> simp

@[simp] theorem linkReady_pending (s : State) : s.linkReady.pending = s.pending := rfl

@[simp] theorem endStep9_pending (s : State) : s.endStep9.pending = s.pending := by simp [State.endStep9]

@[simp] theorem countRetrain_pending (s : State) (l : Link) : (s.countRetrain l).pending = s.pending := by
  unfold State.countRetrain
  split <;> simp

@[simp] theorem partialRetrain_pending (s : State) (p : ℕ) : (s.partialRetrain p).pending = s.pending := by
  unfold State.partialRetrain
  split <;> simp

@[simp] theorem blockInService_pending (s : State) (l : Link) (w : WidthWord) :
    (s.blockInService l w).pending = s.pending := by
  unfold State.blockInService
  dsimp only
  split
  · simp
  · split <;> simp

@[simp] theorem laneFault_pending (s : State) (p lane : ℕ) : (s.laneFault p lane).pending = s.pending := by
  simp [State.laneFault]

@[simp] theorem wakeCtx_pending (s : State) (c : CollCtx) : (s.wakeCtx c).pending = s.pending := by
  unfold State.wakeCtx
  split <;> simp

@[simp] theorem wakeHeld_pending (s : State) : s.wakeHeld.pending = s.pending := by
  unfold State.wakeHeld
  dsimp only
  rw [serveShards_pending]
  refine (foldl_pending (fun s h => ?_) _ _).trans ((vote_pending _).trans (foldl_pending wakeCtx_pending _ _))
  split
  · exact runShift_pending ..
  · rfl

@[simp] theorem toActive_pending (s : State) (l : Link) : (s.toActive l).pending = s.pending := by
  unfold State.toActive
  split <;> simp

@[simp] theorem countFec_pending (s : State) (l : Link) (cw : CodewordIn) :
    (s.countFec l cw).pending = s.pending := by
  unfold State.countFec
  split <;> simp

@[simp] theorem countUncorr_pending (s : State) (l : Link) : (s.countUncorr l).pending = s.pending := by
  unfold State.countUncorr
  split <;> simp

@[simp] theorem verifyWord_pending (s : State) (l : Link) (cw : CodewordIn) :
    (s.verifyWord l cw).pending = s.pending := by
  have hcounted : (if uncorrectable cw then (s.countFec l cw).countUncorr l else s.countFec l cw).pending = s.pending := by
    split <;> simp
  unfold State.verifyWord
  dsimp only
  generalize (if uncorrectable cw then (s.countFec l cw).countUncorr l else s.countFec l cw) = t at hcounted ⊢
  split
  · rw [afterFailure_pending _ _ (fun s a => toAlign_pending s l a), modTrain_pending, modTrain_pending, hcounted]
  · split
    · rw [toActive_pending, modTrain_pending, hcounted]
    · rw [modTrain_pending, hcounted]

@[simp] theorem takeBody_pending (s : State) (p : Fin 24) (cw : CodewordIn) :
    (s.takeBody p cw).pending = s.pending := by
  unfold State.takeBody
  split <;> simp

@[simp] theorem portWord_pending (s : State) (p : Fin 24) (cw : CodewordIn) :
    (s.portWord p cw).pending = s.pending := by
  unfold State.portWord
  dsimp only
  split
  · simp
  · split
    · split
      · split <;> simp
      · simp
    · split
      · split
        · split <;> simp
        · simp
      · split
        · split <;> simp
        · simp

@[simp] theorem setError_pending (s : State) (est source : ℕ) : (s.setError est source).pending = s.pending := by
  unfold State.setError
  dsimp only
  split <;> simp

@[simp] theorem reachReady_pending (s : State) (tide : ℕ) : (s.reachReady tide).pending = s.pending := rfl

@[simp] theorem adoptTime_pending (s : State) (tide hops est : ℕ) :
    (s.adoptTime tide hops est).pending = s.pending := by
  unfold State.adoptTime
  dsimp only
  split <;> simp

@[simp] theorem followTime_pending (s : State) (offset : ℤ) (hops est : ℕ) :
    (s.followTime offset hops est).pending = s.pending := by
  simp [State.followTime]

@[simp] theorem refitSluice_pending (s : State) (old : Conf) (k : ℕ) (bwd : Bool) :
    (s.refitSluice old k bwd).pending = s.pending := by
  simp [State.refitSluice]

@[simp] theorem refitCredits_pending (s : State) (k : ℕ) : (s.refitCredits k).pending = s.pending := rfl

@[simp] theorem setMismatches_pending (s : State) : s.setMismatches.pending = s.pending := by
  simp [State.setMismatches]

@[simp] theorem rebind_pending (s : State) (old : Conf) (ks : List ℕ) : (s.rebind old ks).pending = s.pending := by
  unfold State.rebind
  simp -implicitDefEqProofs

@[simp] theorem follow_pending (s : State) (p : ℕ) : (s.follow p).pending = s.pending := by
  unfold State.follow
  split <;> simp

@[simp] theorem record_pending (s : State) (index : ℕ) (bytes : List Byte) :
    (s.record index bytes).pending = s.pending :=
  rfl

@[simp] theorem measureConf_pending (s : State) : s.measureConf.pending = s.pending := rfl

@[simp] theorem applyConf_pending (s : State) (g : Staged) : (s.applyConf g).pending = s.pending := by
  simp [State.applyConf]

@[simp] theorem applyOrRestore_pending (s : State) (c : Cmd) (g : Staged) (faultAt : Option ℕ) :
    (s.applyOrRestore c g faultAt).pending = s.pending := by
  unfold State.applyOrRestore
  split <;> simp

end Sys2Proof.Machine
end

section
/-! PROOF. The queue under start-up, power and the registers. -/

namespace Sys2Proof.Machine

@[simp] theorem enterOff_pending (s : State) : s.enterOff.pending = s.pending := rfl

@[simp] theorem stopDies_pending (s : State) : s.stopDies.pending = s.pending := rfl

@[simp] theorem stopStart_pending (s : State) (step cause : ℕ) : (s.stopStart step cause).pending = s.pending := rfl

@[simp] theorem logPopulation_pending (s : State) (derived : ℕ) : (s.logPopulation derived).pending = s.pending := by
  simp [State.logPopulation]

@[simp] theorem loadFw_pending (s : State) (images : List (ℕ × Bool × ImageIn)) (comp : ℕ) :
    (s.loadFw images comp).2.pending = s.pending := by
  unfold State.loadFw
  split <;> simp

@[simp] theorem noteFeatures_pending (s : State) (reports : List DieReport) :
    (s.noteFeatures reports).pending = s.pending := by
  simp [State.noteFeatures]

@[simp] theorem assignArrays_pending (s : State) (found : List ArrayTest) (die : ℕ) :
    (s.assignArrays found die).pending = s.pending := by
  simp [State.assignArrays]

@[simp] theorem assignBanks_pending (s : State) (tests : List BankTest) (die : ℕ) :
    (s.assignBanks tests die).pending = s.pending := by
  unfold State.assignBanks
  simp -implicitDefEqProofs

@[simp] theorem testDie_pending (s : State) (inp : StartInput) (die : ℕ) :
    (s.testDie inp die).pending = s.pending := by
  simp [State.testDie]

@[simp] theorem refreshTherm_pending (s : State) : s.refreshTherm.pending = s.pending := rfl

@[simp] theorem thermPause_pending (s : State) (n celsius : ℕ) : (s.thermPause n celsius).pending = s.pending := by
  unfold State.thermPause
  dsimp only
  split <;> simp

@[simp] theorem thermCheck_pending (s : State) (n : ℕ) : (s.thermCheck n).pending = s.pending := by
  simp [State.thermCheck]

@[simp] theorem trainSeam_pending (s : State) (x : SeamIn) (k : Fin 3) : (s.trainSeam x k).pending = s.pending := by
  unfold State.trainSeam
  split <;> simp

@[simp] theorem bringLinks_pending (s : State) : s.bringLinks.pending = s.pending := by simp [State.bringLinks]

@[simp] theorem bringFar_pending (s : State) (inp : StartInput) : (s.bringFar inp).pending = s.pending := by
  unfold State.bringFar
  dsimp only
  split <;> simp

@[simp] theorem bringSeams_pending (s : State) (inp : StartInput) (present : List DieReport) :
    (s.bringSeams inp present).pending = s.pending := by
  simp [State.bringSeams]

@[simp] theorem bringUp_pending (s : State) (inp : StartInput) : (s.bringUp inp).pending = s.pending := by
  simp [State.bringUp]

@[simp] theorem loadRecord_pending (s : State) (inp : StartInput) : (s.loadRecord inp).pending = s.pending := by
  unfold State.loadRecord
  dsimp only
  split
  · simp
  · split <;> simp

@[simp] theorem pinActs_pending (s : State) (heldNs : ℕ) : (s.pinActs heldNs).2.pending = s.pending := by
  unfold State.pinActs
  split
  · simp
  · split <;> simp

@[simp] theorem throttleDie_pending (s : State) (n power budget : ℕ) :
    (s.throttleDie n power budget).pending = s.pending := by
  unfold State.throttleDie
  simp -implicitDefEqProofs

@[simp] theorem sendPending_pending (s : State) (v : ℕ) : (s.sendPending v).pending = s.pending := by
  unfold State.sendPending
  split <;> simp

@[simp] theorem unmask_pending (s : State) (m : MsixTarget) : (s.unmask m).pending = s.pending := by
  cases m with
  | vector v => exact sendPending_pending ..
  | function => exact foldl_pending (fun s v => sendPending_pending s v) _ _

@[simp] theorem writeMsix_pending (s : State) (o : ℕ) (v mask : W64) :
    (s.writeMsix o v mask).pending = s.pending := by
  unfold State.writeMsix
  split <;> simp

@[simp] theorem latchFor_pending (s : State) (off : ℕ) : (s.latchFor off).pending = s.pending := by
  simp [State.latchFor]

@[simp] theorem barRead_pending (s : State) (off size : ℕ) : (s.barRead off size).pending = s.pending := by
  simp [State.barRead]

@[simp] theorem writeLogControl_pending (s : State) (v mask : W64) : (s.writeLogControl v mask).pending = s.pending :=
  rfl

theorem writeTide_pending (s : State) (off size : ℕ) (value : W64) {t : State}
    (h : (s.writeTide off size value) = some t) :
    t.pending = s.pending := by
  unfold State.writeTide at h
  dsimp only at h
  repeat' split at h
  all_goals cases h; try simp

theorem tryWrite_pending (s : State) (o size : ℕ) (v : W64) {t : State} (h : s.tryWrite o size v = some t) :
    t.pending = s.pending := by
  unfold State.tryWrite at h
  split at h
  · exact writeTide_pending _ _ _ _ h
  · split at h
    · cases h; exact writeMsix_pending ..
    · split at h
      · exact writeRing_pending _ _ _ _ _ h
      · split at h
        · exact writeCtx_pending _ _ _ _ _ h
        · split at h
          · exact writeChannel_pending _ _ _ _ _ h
          · split at h
            · exact writeSwitch_pending _ _ _ _ h
            · split at h
              · exact writeUnit_pending _ _ _ _ _ h
              · split at h
                · exact writeLayer_pending _ _ _ _ _ h
                · cases h

@[simp] theorem barWrite_pending (s : State) (o size : ℕ) (v : W64) : (s.barWrite o size v).pending = s.pending := by
  unfold State.barWrite
  split
  · next h => exact tryWrite_pending _ _ _ _ h
  · simp

@[simp] theorem access_pending (s : State) (write : Bool) (off size : ℕ) (v : W64) :
    (s.access write off size v).pending = s.pending := by
  simp [State.access]

@[simp] theorem replayHeldBar_pending (s : State) : s.replayHeldBar.pending = s.pending := by
  simp [State.replayHeldBar]

@[simp] theorem afterClose_pending (s before : State) : (s.afterClose before).pending = s.pending := by
  unfold State.afterClose
  split
  · exact replayHeldBar_pending ..
  · rfl

@[simp] theorem withdrawClose_pending (s : State) : s.withdrawClose.pending = s.pending := by
  simp [State.withdrawClose]

end Sys2Proof.Machine
end

section
/-! PROOF. The queue under the service of dies, recovery and management. -/

namespace Sys2Proof.Machine

@[simp] theorem revokeColl_pending (s : State) (x : CollCtx) : (s.revokeColl x).pending = s.pending := by
  simp [State.revokeColl]

@[simp] theorem endCollCmd_pending (s : State) (c : Cmd) (st : Status) : (s.endCollCmd c st).pending = s.pending := by
  unfold State.endCollCmd
  split
  · simp
  · split <;> simp

@[simp] theorem revokeBanks_pending (s : State) (e : Engine) : (s.revokeBanks e).pending = s.pending := by
  simp [State.revokeBanks]

@[simp] theorem endUpdateCmd_pending (s : State) (c : Cmd) (st : Status) :
    (s.endUpdateCmd c st).pending = s.pending := by
  unfold State.endUpdateCmd
  dsimp only
  split <;> simp

@[simp] theorem endOnDie_pending (s : State) (c : Cmd) (st : Status) : (s.endOnDie c st).pending = s.pending := by
  unfold State.endOnDie
  split <;> simp

@[simp] theorem setService_pending (s : State) (die state : ℕ) : (s.setService die state).pending = s.pending := by
  simp [State.setService]

@[simp] theorem drained_pending (s : State) (die : ℕ) : (s.drained die).pending = s.pending := by simp [State.drained]

@[simp] theorem dieLeaves_pending (s : State) (die : ℕ) (st : Status) :
    (s.dieLeaves die st).1.pending = s.pending := by
  unfold State.dieLeaves
  dsimp only
  rw [drained_pending]
  refine (foldl_pending (fun s m => dropMb_pending ..) _ _).trans (foldl_pending (fun s c => ?_) _ _)
  split
  · split
    · exact endOnDie_pending ..
    · rfl
  · rfl

@[simp] theorem endDieDrain_pending (s : State) (c : Cmd) : (s.endDieDrain c).pending = s.pending := by
  unfold State.endDieDrain
  split <;> simp

@[simp] theorem wipeDie_pending (s : State) (die : ℕ) : (s.wipeDie die).pending = s.pending := rfl

@[simp] theorem endRepair_pending (s : State) (c : Cmd) : (s.endRepair c).pending = s.pending := by
  unfold State.endRepair
  dsimp only
  split <;> simp

@[simp] theorem noteCorrected_pending (s : State) (a : ℕ) (c : Controller) :
    (s.noteCorrected a c).pending = s.pending := by
  cases c <;> rfl

@[simp] theorem noteUncorrectable_pending (s : State) (u : ℕ) (c : Controller) :
    (s.noteUncorrectable u c).pending = s.pending := by
  cases c <;> simp [State.noteUncorrectable]

@[simp] theorem modFar_pending (s : State) (f ch : ℕ) (g : FarChannel → FarChannel) :
    (s.modFar f ch g).pending = s.pending :=
  rfl

@[simp] theorem revokePart_pending (s : State) (die : ℕ) (banks : List (ℕ × ℕ)) :
    (s.revokePart die banks).pending = s.pending := by
  simp [State.revokePart]

@[simp] theorem farFails_pending (s : State) (f ch : ℕ) : (s.farFails f ch).pending = s.pending := by
  simp [State.farFails]

@[simp] theorem repairRow_pending (s : State) (die a row : ℕ) : (s.repairRow die a row).pending = s.pending := by
  simp [State.repairRow]

@[simp] theorem swapArray_pending (s : State) (die a : ℕ) (p : Fin 34) (bad : List ℕ) :
    (s.swapArray die a p bad).pending = s.pending := by
  simp [State.swapArray]

@[simp] theorem recoverArray_pending (s : State) (die a : ℕ) (bad : List ℕ) :
    (s.recoverArray die a bad).2.pending = s.pending := by
  unfold State.recoverArray
  split
  · simp
  · split <;> simp

@[simp] theorem recoverComplex_pending (s : State) (d : ℕ) : (s.recoverComplex d).2.pending = s.pending := by
  simp [State.recoverComplex]

@[simp] theorem handOver_pending (s : State) (core to_ : ℕ) : (s.handOver core to_).pending = s.pending := by
  unfold State.handOver
  simp -implicitDefEqProofs

@[simp] theorem startRotation_pending (s : State) : s.startRotation.pending = s.pending := by
  unfold State.startRotation
  split
  · simp
  · split <;> simp

@[simp] theorem endRotation_pending (s : State) : s.endRotation.pending = s.pending := rfl

@[simp] theorem rotateOn_pending (s : State) : s.rotateOn.pending = s.pending := by
  unfold State.rotateOn
  split
  · simp
  · split
    · simp
    · split <;> simp

@[simp] theorem resumeRings_pending (s : State) (core : ℕ) : (s.resumeRings core).pending = s.pending := by
  unfold State.resumeRings
  simp -implicitDefEqProofs

@[simp] theorem recoverCore_pending (s : State) (core : ℕ) : (s.recoverCore core).2.pending = s.pending := by
  unfold State.recoverCore
  dsimp only
  split
  · simp
  · split
    · simp
    · split
      · simp
      · split <;> simp

@[simp] theorem recoverTile_pending (s : State) (x : ℕ) (ok : Bool) : (s.recoverTile x ok).pending = s.pending := by
  unfold State.recoverTile
  split <;> simp

@[simp] theorem recordRecovery_pending (s : State) (t : ℕ) (r : Recovery) (ok : Bool) :
    (s.recordRecovery t r ok).pending = s.pending := by
  unfold State.recordRecovery
  split <;> simp

@[simp] theorem resumeNear_pending (s : State) (die ch bank : ℕ) : (s.resumeNear die ch bank).pending = s.pending :=
  rfl

@[simp] theorem recover_pending (s : State) (r : Recovery) (bad : List ℕ) :
    (s.recover r bad).2.pending = s.pending := by
  unfold State.recover
  split
  · simp
  · simp
  · split <;> simp
  · simp
  · simp
  · simp
  · simp
  · simp
  · simp
  · simp

@[simp] theorem reply_pending (s : State) (code : ℕ) (body : List Byte) :
    (s.reply code body).pending = s.pending := by
  unfold State.reply
  split <;> simp

@[simp] theorem modMgmt_pending (s : State) (f : Mgmt → Mgmt) : (s.modMgmt f).pending = s.pending := rfl

theorem spdm_pending (s : State) {f : State → State} (hf : ∀ s, (f s).pending = s.pending) :
    (s.spdm f).pending = s.pending := by
  unfold State.spdm
  split <;> simp [hf]

theorem update_pending (s : State) (states : List ℕ) {f : State → State} (hf : ∀ s, (f s).pending = s.pending) :
    (s.update states f).pending = s.pending := by
  unfold State.update
  split
  · exact hf s
  · split <;> simp

@[simp] theorem writeSlot_pending (s : State) (img : Option ImageIn) : (s.writeSlot img).pending = s.pending := by
  unfold State.writeSlot
  split <;> simp

@[simp] theorem applyComponent_pending (s : State) (component : ℕ) (img : ImageIn) :
    (s.applyComponent component img).pending = s.pending := by
  unfold State.applyComponent
  dsimp only
  split <;> split <;> simp

@[simp] theorem leaveChannel_pending (s : State) (c : Cmd) : (s.leaveChannel c).pending = s.pending := by
  unfold State.leaveChannel
  split <;> simp

@[simp] theorem completeShift_pending (s : State) (c : Cmd) : (s.completeShift c).pending = s.pending := by
  simp [State.completeShift]

theorem completion_pending (s : State) (c : Cmd) {t : State} (h : s.completion c = some t) :
    t.pending = s.pending := by
  unfold State.completion at h
  split at h
  · split at h <;> cases h
    rw [endArrayPin_pending, complete_pending, leaveChannel_pending]
  · split at h <;> cases h
    exact complete_pending ..
  · split at h <;> cases h
    exact endWaitSignal_pending ..
  · split at h <;> cases h
    exact complete_pending ..
  · split at h <;> cases h
    exact endSend_pending ..
  · split at h <;> cases h
    exact completeShift_pending ..
  · split at h <;> cases h
    exact endDieDrain_pending ..
  · cases h
    exact endRepair_pending ..
  · cases h

@[simp] theorem sampleEngines_pending (s : State) (k : ℕ) : (s.sampleEngines k).pending = s.pending := by
  refine foldl_pending (fun s e => ?_) _ _
  split
  · split
    · rw [setEngine_pending, draw_pending]
    · rfl
  · rfl

@[simp] theorem sampleCtx_pending (s : State) (k : ℕ) : (sampleCtx s k).pending = s.pending := by
  unfold sampleCtx
  dsimp only
  split <;> simp

end Sys2Proof.Machine
end

section
/-! PROOF. What it is for a command to go on, and the shared forms of the commands. -/

namespace Sys2Proof.Machine

/-- A command answers a next state and leaves the queue at `q`. -/
def GoesOn (q : List Instr) (r : Result) : Prop := ∃ t, r = .next t ∧ t.pending = q

@[simp] theorem goesOn_next {q : List Instr} {t : State} : GoesOn q (.next t) ↔ t.pending = q := by simp [GoesOn]

@[simp] theorem goesOn_idle {q : List Instr} {t : State} : GoesOn q t.idle ↔ t.pending = q := goesOn_next

@[simp] theorem goesOn_ite {q : List Instr} {p : Prop} [Decidable p] {a b : Result} :
    GoesOn q (if p then a else b) ↔ if p then GoesOn q a else GoesOn q b := by
  split <;> rfl

theorem startOrGo_goesOn (s : State) (ring : ℕ) (seq : W16) (op : ℕ) {start go : Cmd → State → State}
    (hstart : ∀ c t, (start c t).pending = t.pending) (hgo : ∀ c t, (go c t).pending = t.pending) :
    GoesOn s.pending (s.startOrGo ring seq op start go) := by
  unfold State.startOrGo
  split
  · simp [hgo]
  · split
    · split
      · simp
      · next h => simp [hstart, take_pending h]
    · simp

theorem engineStep_goesOn (s : State) (die op : ℕ) {f : Engine → Cmd → W32 → State}
    (hf : ∀ e c w, (f e c w).pending = s.pending) :
    GoesOn s.pending (s.engineStep die op f) := by
  unfold State.engineStep
  split
  · simp
  · split
    · simp
    · dsimp only
      split <;> simp [hf]

theorem receive_goesOn (s : State) (p : ℕ) (hdr : FrameHdr) (body : FrameBody) (ok : Bool) {f : State → State}
    (hf : ∀ t, (f t).pending = t.pending) : GoesOn s.pending (s.receive p hdr body ok f) := by
  unfold State.receive
  split
  · simp
  · split <;> simp [hf]

theorem chanStep_goesOn (s : State) (n op : ℕ) {f : Channel → List Byte → State}
    (hf : ∀ x bs, (f x bs).pending = s.pending) :
    GoesOn s.pending (s.chanStep n op f) := by
  unfold State.chanStep
  dsimp only
  split
  · simp
  · split
    · simp
    · split
      · simp
      · simp
      · split
        · simp
        · split <;> simp [hf]

theorem serve_goesOn (s : State) {f : State → State} (hf : ∀ t, (f t).pending = t.pending) :
    GoesOn s.pending (s.serve f) := by
  unfold State.serve
  split <;> simp [hf]

theorem startSend_goesOn (s before : State) (c : Cmd) (h : before.pending = s.pending) :
    GoesOn s.pending (s.startSend before c) := by
  unfold State.startSend
  dsimp only
  split
  · simp
  · split
    · simp
    · split
      · simp
      · split
        · simp
        · split
          · simp
          · split <;> simp [h]

theorem arrayCommand_goesOn (s : State) (ring op : ℕ) : GoesOn s.pending (s.arrayCommand ring op) := by
  unfold State.arrayCommand
  dsimp only
  split
  · simp
  · next h =>
    have ht := take_pending h
    split
    · simp [ht]
    · split
      · simp [ht]
      · simp [ht]
      · split
        · simp [ht]
        · split <;> simp [ht]

theorem alu_goesOn (s : State) (die op : ℕ) (f : W32 → W32 → W32 → W32 → ℕ → W32) :
    GoesOn s.pending (s.alu die op f) :=
  engineStep_goesOn s die op (fun _ _ _ => setEngine_pending ..)

theorem host0_goesOn (s : State) (write : Bool) (off size : ℕ) (v : W64) :
    GoesOn s.pending (s.host0 write off size v) := by
  unfold State.host0
  split <;> simp

theorem goesOn_if {q : List Instr} {p : Prop} [Decidable p] {a b : Result} (ha : GoesOn q a) (hb : GoesOn q b) :
    GoesOn q (if p then a else b) := by
  split
  · exact ha
  · exact hb

theorem pending_if {q : List Instr} {p : Prop} [Decidable p] {a b : State} (ha : a.pending = q) (hb : b.pending = q) :
    (if p then a else b).pending = q := by
  split
  · exact ha
  · exact hb

end Sys2Proof.Machine
end

section
/-! PROOF. The commands of the rings, the synchronising commands, pins, micro-batches and transfers go on. -/

namespace Sys2Proof.Machine

theorem execPacketFetch_goesOn (dt : ℕ) (ring : Fin 17) (host : List (ℕ × List Byte)) (s : State) :
    GoesOn s.pending (execPacketFetch dt ring host s) := by
  unfold execPacketFetch
  dsimp only
  split
  · simp
  · split
    · simp
    · split
      · simp
      · split
        · simp
        · split <;> simp

theorem execCoalesceTimeout_goesOn (dt : ℕ) (ring : Fin 17) (s : State) :
    GoesOn s.pending (execCoalesceTimeout dt ring s) := by
  unfold execCoalesceTimeout
  simp

theorem execNop_goesOn (dt : ℕ) (ring : Fin 17) (s : State) : GoesOn s.pending (execNop dt ring s) := by
  unfold execNop
  dsimp only
  split
  · simp
  · next h =>
    have ht := take_pending h
    simp [ht]

theorem execFence_goesOn (dt : ℕ) (ring : Fin 17) (s : State) : GoesOn s.pending (execFence dt ring s) := by
  unfold execFence
  dsimp only
  split
  · simp
  · next h =>
    have ht := take_pending h
    split <;> simp [ht]

theorem execWaitTide_goesOn (dt : ℕ) (ring : Fin 17) (s : State) : GoesOn s.pending (execWaitTide dt ring s) := by
  unfold execWaitTide
  dsimp only
  split
  · simp
  · next h =>
    have ht := take_pending h
    split <;> simp [ht]

theorem execWaitTideTarget_goesOn (dt : ℕ) (ring : Fin 17) (s : State) :
    GoesOn s.pending (execWaitTideTarget dt ring s) := by
  unfold execWaitTideTarget
  dsimp only
  split <;> simp

theorem execSignal_goesOn (dt : ℕ) (ring : Fin 17) (s : State) : GoesOn s.pending (execSignal dt ring s) := by
  unfold execSignal
  dsimp only
  split
  · simp
  · next h =>
    have ht := take_pending h
    split <;> simp [ht]

theorem execWaitSignal_goesOn (dt : ℕ) (ring : Fin 17) (s : State) : GoesOn s.pending (execWaitSignal dt ring s) := by
  unfold execWaitSignal
  dsimp only
  split
  · simp
  · next h =>
    have ht := take_pending h
    split <;> simp [ht]

theorem execRelease_goesOn (dt : ℕ) (ring : Fin 17) (s : State) : GoesOn s.pending (execRelease dt ring s) := by
  unfold execRelease
  dsimp only
  split
  · simp
  · next h =>
    have ht := take_pending h
    split <;> simp [ht]

theorem execVersionPin_goesOn (dt : ℕ) (ring : Fin 17) (s : State) : GoesOn s.pending (execVersionPin dt ring s) := by
  unfold execVersionPin
  dsimp only
  split
  · simp
  · next h =>
    split at h
    · cases h
    · have ht := take_pending h
      split
      · simp [ht]
      · split <;> simp [ht]

theorem execPinGrant_goesOn (dt : ℕ) (ring : Fin 17) (seq : W16) (s : State) :
    GoesOn s.pending (execPinGrant dt ring seq s) := by
  unfold execPinGrant
  dsimp only
  split <;> simp

theorem execPinTimeout_goesOn (dt : ℕ) (ring : Fin 17) (seq : W16) (s : State) :
    GoesOn s.pending (execPinTimeout dt ring seq s) := by
  unfold execPinTimeout
  dsimp only
  split <;> simp

theorem execVersionUnpin_goesOn (dt : ℕ) (ring : Fin 17) (s : State) : GoesOn s.pending (execVersionUnpin dt ring s) := by
  unfold execVersionUnpin
  dsimp only
  split
  · simp
  · next h =>
    have ht := take_pending h
    split <;> simp [ht]

theorem execGraceExpiry_goesOn (dt : ℕ) (layer : Fin 4096) (slot : Fin 8) (s : State) :
    GoesOn s.pending (execGraceExpiry dt layer slot s) := by
  unfold execGraceExpiry
  simp

theorem execHoldRenewal_goesOn (dt : ℕ) (layer : Fin 4096) (slot : Fin 8) (s : State) :
    GoesOn s.pending (execHoldRenewal dt layer slot s) := by
  unfold execHoldRenewal
  simp

theorem execShardGather_goesOn (dt : ℕ) (ring : Fin 17) (s : State) : GoesOn s.pending (execShardGather dt ring s) := by
  unfold execShardGather
  dsimp only
  split
  · simp
  · next h =>
    have ht := take_pending h
    split
    · simp [ht]
    · split
      · simp [ht]
      · split <;> simp [ht]

theorem execMbAdmit_goesOn (dt : ℕ) (ring : Fin 17) (s : State) : GoesOn s.pending (execMbAdmit dt ring s) := by
  unfold execMbAdmit
  dsimp only
  split
  · simp
  · next h =>
    split at h
    · cases h
    · have ht := take_pending h
      split
      · simp [ht]
      · split
        · split <;> simp [ht]
        · split
          · simp [ht]
          · split <;> simp [ht]

theorem execAdmissionGrant_goesOn (dt : ℕ) (ctx : Fin 16) (s : State) : GoesOn s.pending (execAdmissionGrant dt ctx s) := by
  unfold execAdmissionGrant
  dsimp only
  split <;> simp

theorem execAdmitTimeout_goesOn (dt : ℕ) (ctx : Fin 16) (s : State) : GoesOn s.pending (execAdmitTimeout dt ctx s) := by
  unfold execAdmitTimeout
  dsimp only
  split
  · simp
  · split
    · simp
    · split <;> simp

theorem execHoldTimeout_goesOn (dt : ℕ) (ring : Fin 17) (seq : W16) (s : State) :
    GoesOn s.pending (execHoldTimeout dt ring seq s) := by
  unfold execHoldTimeout
  dsimp only
  split <;> simp

theorem takenSend_goesOn (s : State) (ring op : ℕ) : GoesOn s.pending
    (match s.take ring op with
      | none => s.idle
      | some (c, t) => t.startSend s c) := by
  split
  · simp
  · next h => exact take_pending h ▸ startSend_goesOn _ _ _ (take_pending h).symm

theorem execSendAct_goesOn (dt : ℕ) (ring : Fin 17) (s : State) : GoesOn s.pending (execSendAct dt ring s) :=
  takenSend_goesOn (s.advance dt) ring 0x21

theorem execSendGrad_goesOn (dt : ℕ) (ring : Fin 17) (s : State) : GoesOn s.pending (execSendGrad dt ring s) :=
  takenSend_goesOn (s.advance dt) ring 0x22

theorem execSendCreditTake_goesOn (dt : ℕ) (ring : Fin 17) (seq : W16) (s : State) :
    GoesOn s.pending (execSendCreditTake dt ring seq s) := by
  unfold execSendCreditTake
  dsimp only
  split <;> simp

theorem execSendTimeout_goesOn (dt : ℕ) (ring : Fin 17) (seq : W16) (s : State) :
    GoesOn s.pending (execSendTimeout dt ring seq s) := by
  unfold execSendTimeout
  dsimp only
  split
  · simp
  · split
    · simp
    · split <;> simp

theorem execMbRelease_goesOn (dt : ℕ) (ring : Fin 17) (s : State) : GoesOn s.pending (execMbRelease dt ring s) := by
  unfold execMbRelease
  dsimp only
  split
  · simp
  · next h =>
    have ht := take_pending h
    split <;> simp [ht]

theorem execReleaseEffect_goesOn (dt : ℕ) (ctx : Fin 16) (mb : Fin 64) (s : State) :
    GoesOn s.pending (execReleaseEffect dt ctx mb s) := by
  unfold execReleaseEffect
  dsimp only
  split
  · simp
  · split
    · simp
    · split <;> split <;> simp

theorem execReservationRelease_goesOn (dt : ℕ) (ctx : Fin 16) (mb : Fin 64) (s : State) :
    GoesOn s.pending (execReservationRelease dt ctx mb s) := by
  unfold execReservationRelease
  simp

end Sys2Proof.Machine
end

section
/-! PROOF. The commands of the arrays, the update engines and the frames that come in go on. -/

namespace Sys2Proof.Machine

theorem execTileMm_goesOn (dt : ℕ) (ring : Fin 17) (s : State) : GoesOn s.pending (execTileMm dt ring s) := by
  unfold execTileMm
  exact arrayCommand_goesOn ..

theorem execTileConv_goesOn (dt : ℕ) (ring : Fin 17) (s : State) : GoesOn s.pending (execTileConv dt ring s) := by
  unfold execTileConv
  exact arrayCommand_goesOn ..

theorem execTileDgrad_goesOn (dt : ℕ) (ring : Fin 17) (s : State) : GoesOn s.pending (execTileDgrad dt ring s) := by
  unfold execTileDgrad
  exact arrayCommand_goesOn ..

theorem execTileWgrad_goesOn (dt : ℕ) (ring : Fin 17) (s : State) : GoesOn s.pending (execTileWgrad dt ring s) := by
  unfold execTileWgrad
  exact arrayCommand_goesOn ..

theorem execEdgeWordWrite_goesOn (dt : ℕ) (die : Fin 12) (f : FeedStep) (s : State) :
    GoesOn s.pending (execEdgeWordWrite dt die f s) := by
  unfold execEdgeWordWrite
  dsimp only
  split
  · simp
  · split <;> simp

theorem execBroadcast_goesOn (dt : ℕ) (die : Fin 12) (f : FeedStep) (s : State) :
    GoesOn s.pending (execBroadcast dt die f s) := by
  unfold execBroadcast
  dsimp only
  split
  · simp
  · split
    · simp
    · split
      · simp
      · split
        · simp
        · split <;> simp

theorem execWaveHop_goesOn (dt : ℕ) (die : Fin 12) (array : Fin 32) (row : Fin 64) (cell : HopCell) (s : State) :
    GoesOn s.pending (execWaveHop dt die array row cell s) := by
  unfold execWaveHop
  dsimp only
  split
  · simp
  · split <;> simp

theorem execWaveAccumulate_goesOn (dt : ℕ) (die : Fin 12) (array : Fin 32) (s : State) :
    GoesOn s.pending (execWaveAccumulate dt die array s) := by
  unfold execWaveAccumulate
  dsimp only
  split
  · simp
  · split
    · simp
    · split <;> simp

theorem execSpillWriteback_goesOn (dt : ℕ) (die : Fin 12) (array : Fin 32) (s : State) :
    GoesOn s.pending (execSpillWriteback dt die array s) := by
  unfold execSpillWriteback
  dsimp only
  split
  · simp
  · split <;> simp

theorem execSpillFlush_goesOn (dt : ℕ) (ring : Fin 17) (seq : W16) (s : State) :
    GoesOn s.pending (execSpillFlush dt ring seq s) := by
  refine startOrGo_goesOn (s.advance dt) _ _ _ (fun c t => ?_) (fun c t => runFlush_pending ..)
  split
  · simp
  · split
    · simp
    · split <;> simp

theorem execDrain_goesOn (dt : ℕ) (ring : Fin 17) (seq : W16) (s : State) : GoesOn s.pending (execDrain dt ring seq s) := by
  refine startOrGo_goesOn (s.advance dt) _ _ _ (fun c t => ?_) (fun c t => runDrain_pending ..)
  split
  · simp
  · exact pending_if (complete_pending ..) (pending_if (complete_pending ..) (runDrain_pending ..))

theorem execUpdateLayer_goesOn (dt : ℕ) (ring : Fin 17) (s : State) : GoesOn s.pending (execUpdateLayer dt ring s) := by
  unfold execUpdateLayer
  dsimp only
  split
  · simp
  · next h =>
    have ht := take_pending h
    split
    · simp [ht]
    · split
      · simp [ht]
      · split
        · simp
        · split <;> simp [ht]

theorem execUpdatePartRun_goesOn (dt : ℕ) (ring : Fin 17) (seq : W16) (s : State) :
    GoesOn s.pending (execUpdatePartRun dt ring seq s) := by
  unfold execUpdatePartRun
  dsimp only
  split <;> simp

theorem execUpdateTimeout_goesOn (dt : ℕ) (ring : Fin 17) (seq : W16) (s : State) :
    GoesOn s.pending (execUpdateTimeout dt ring seq s) := by
  unfold execUpdateTimeout
  dsimp only
  split <;> simp

theorem execFma_goesOn (dt : ℕ) (die : Fin 12) (s : State) : GoesOn s.pending (execFma dt die s) := by
  unfold execFma
  exact alu_goesOn ..

theorem execMul_goesOn (dt : ℕ) (die : Fin 12) (s : State) : GoesOn s.pending (execMul dt die s) := by
  unfold execMul
  exact alu_goesOn ..

theorem execAdd_goesOn (dt : ℕ) (die : Fin 12) (s : State) : GoesOn s.pending (execAdd dt die s) := by
  unfold execAdd
  exact alu_goesOn ..

theorem execSub_goesOn (dt : ℕ) (die : Fin 12) (s : State) : GoesOn s.pending (execSub dt die s) := by
  unfold execSub
  exact alu_goesOn ..

theorem execRcp_goesOn (dt : ℕ) (die : Fin 12) (s : State) : GoesOn s.pending (execRcp dt die s) := by
  unfold execRcp
  exact alu_goesOn ..

theorem execSqrt_goesOn (dt : ℕ) (die : Fin 12) (s : State) : GoesOn s.pending (execSqrt dt die s) := by
  unfold execSqrt
  exact alu_goesOn ..

theorem execRsqrt_goesOn (dt : ℕ) (die : Fin 12) (s : State) : GoesOn s.pending (execRsqrt dt die s) := by
  unfold execRsqrt
  exact alu_goesOn ..

theorem execMin_goesOn (dt : ℕ) (die : Fin 12) (s : State) : GoesOn s.pending (execMin dt die s) := by
  unfold execMin
  exact alu_goesOn ..

theorem execMax_goesOn (dt : ℕ) (die : Fin 12) (s : State) : GoesOn s.pending (execMax dt die s) := by
  unfold execMax
  exact alu_goesOn ..

theorem execClamp_goesOn (dt : ℕ) (die : Fin 12) (s : State) : GoesOn s.pending (execClamp dt die s) := by
  unfold execClamp
  exact alu_goesOn ..

theorem execSel_goesOn (dt : ℕ) (die : Fin 12) (s : State) : GoesOn s.pending (execSel dt die s) := by
  unfold execSel
  exact alu_goesOn ..

theorem execNacc_goesOn (dt : ℕ) (die : Fin 12) (s : State) : GoesOn s.pending (execNacc dt die s) := by
  unfold execNacc
  refine engineStep_goesOn (s.advance dt) _ _ (fun e c w => ?_)
  split <;> simp

theorem execSts_goesOn (dt : ℕ) (die : Fin 12) (s : State) : GoesOn s.pending (execSts dt die s) := by
  unfold execSts
  exact engineStep_goesOn (s.advance dt) _ _ (fun e c w => by
    rw [setEngine_pending, countUpdNonfinite_pending, write_pending])

theorem execStw_goesOn (dt : ℕ) (die : Fin 12) (s : State) : GoesOn s.pending (execStw dt die s) := by
  unfold execStw
  refine engineStep_goesOn (s.advance dt) _ _ (fun e c w => ?_)
  dsimp only
  split
  · simp
  · rw [setEngine_pending, countUpdNonfinite_pending, putWork_pending]
    split <;> simp

theorem execNextpass_goesOn (dt : ℕ) (die : Fin 12) (s : State) : GoesOn s.pending (execNextpass dt die s) := by
  unfold execNextpass
  exact engineStep_goesOn (s.advance dt) _ _ (fun e c w => setEngine_pending ..)

theorem execEndElem_goesOn (dt : ℕ) (die : Fin 12) (s : State) : GoesOn s.pending (execEndElem dt die s) := by
  unfold execEndElem
  refine engineStep_goesOn (s.advance dt) _ _ (fun e c w => ?_)
  dsimp only
  split <;> simp

theorem execPrefetchState_goesOn (dt : ℕ) (ring : Fin 17) (seq : W16) (s : State) :
    GoesOn s.pending (execPrefetchState dt ring seq s) := by
  refine startOrGo_goesOn (s.advance dt) _ _ _ (fun c t => ?_) (fun c t => ?_)
  · split
    · simp
    · split
      · simp
      · split
        · simp
        · split <;> simp
  · split
    · rfl
    · split <;> simp

theorem execPrefetchTimeout_goesOn (dt : ℕ) (ring : Fin 17) (seq : W16) (s : State) :
    GoesOn s.pending (execPrefetchTimeout dt ring seq s) := by
  unfold execPrefetchTimeout
  dsimp only
  split <;> simp

theorem execDataFrame_goesOn (dt : ℕ) (port : Fin 24) (hdr : FrameHdr) (f : DataF) (s : State) :
    GoesOn s.pending (execDataFrame dt port hdr f s) := by
  unfold execDataFrame
  dsimp only
  split
  · simp
  · exact receive_goesOn _ _ _ _ _ (fun _ => by simp)

theorem execCreditFrame_goesOn (dt : ℕ) (port : Fin 24) (hdr : FrameHdr) (f : CreditF) (s : State) :
    GoesOn s.pending (execCreditFrame dt port hdr f s) := by
  unfold execCreditFrame
  exact receive_goesOn _ _ _ _ _ (fun _ => by simp)

theorem execCheckpointFrame_goesOn (dt : ℕ) (port : Fin 24) (hdr : FrameHdr) (f : CheckpointF) (s : State) :
    GoesOn s.pending (execCheckpointFrame dt port hdr f s) := by
  unfold execCheckpointFrame
  exact receive_goesOn _ _ _ _ _ (fun _ => by simp)

end Sys2Proof.Machine
end

section
/-! PROOF. The commands of the collectives, verdicts, skims and DMA channels go on. -/

namespace Sys2Proof.Machine

theorem execCollReduce_goesOn (dt : ℕ) (ring : Fin 17) (s : State) : GoesOn s.pending (execCollReduce dt ring s) := by
  unfold execCollReduce
  dsimp only
  split
  · simp
  · next h =>
    have ht := take_pending h
    split
    · simp [ht]
    · split
      · simp [ht]
      · split
        · simp
        · split
          · split <;> simp [ht]
          · simp [ht]

theorem execReduceFrame_goesOn (dt : ℕ) (port : Fin 24) (hdr : FrameHdr) (f : ReduceF) (s : State) :
    GoesOn s.pending (execReduceFrame dt port hdr f s) := by
  unfold execReduceFrame
  dsimp only
  split
  · simp
  · exact receive_goesOn _ _ _ _ _ (fun _ => by simp)

theorem execCollBarrier_goesOn (dt : ℕ) (ring : Fin 17) (s : State) : GoesOn s.pending (execCollBarrier dt ring s) := by
  unfold execCollBarrier
  dsimp only
  split
  · simp
  · next h =>
    have ht := take_pending h
    split
    · simp [ht]
    · split
      · split <;> simp [ht]
      · simp [ht]

theorem execBarrierFrame_goesOn (dt : ℕ) (port : Fin 24) (hdr : FrameHdr) (f : BarrierF) (s : State) :
    GoesOn s.pending (execBarrierFrame dt port hdr f s) := by
  unfold execBarrierFrame
  dsimp only
  split
  · simp
  · refine receive_goesOn _ _ _ _ _ (fun s => ?_)
    split
    · simp
    · split
      · simp
      · next t x hopened =>
        have ht : t.pending = s.pending := by
          split at hopened
          · cases hopened; rfl
          · obtain ⟨u, hu, hx⟩ := Option.map_eq_some_iff.mp hopened
            cases hx
            exact openColl_pending _ _ hu
        split
        · split <;> simp [ht]
        · split
          · split <;> simp [ht]
          · simp [ht]

theorem execCollGather_goesOn (dt : ℕ) (ring : Fin 17) (s : State) : GoesOn s.pending (execCollGather dt ring s) := by
  unfold execCollGather
  dsimp only
  split
  · simp
  · next h =>
    have ht := take_pending h
    split
    · simp [ht]
    · split
      · simp [ht]
      · split
        · simp
        · split
          · simp [ht]
          · split
            · simp
            · split
              · split <;> simp [ht]
              · simp [ht]

theorem execGatherFrame_goesOn (dt : ℕ) (port : Fin 24) (hdr : FrameHdr) (f : GatherF) (s : State) :
    GoesOn s.pending (execGatherFrame dt port hdr f s) := by
  unfold execGatherFrame
  dsimp only
  split
  · simp
  · refine receive_goesOn _ _ _ _ _ (fun s => ?_)
    split
    · simp
    · split
      · simp
      · split
        · simp
        · split
          · split <;> simp
          · simp

theorem execShardFrame_goesOn (dt : ℕ) (port : Fin 24) (hdr : FrameHdr) (f : ShardF) (s : State) :
    GoesOn s.pending (execShardFrame dt port hdr f s) := by
  unfold execShardFrame
  refine receive_goesOn (s.advance dt) _ _ _ _ (fun s => ?_)
  dsimp only
  split
  · simp
  · split
    · simp
    · split
      · split
        · split <;> simp
        · split
          · rfl
          · split <;> simp
      · split
        · split <;> simp
        · split
          · exact foldl_pending (fun s h => settleHolds_pending ..) _ _
          · refine foldl_pending (fun s h => ?_) _ _
            split <;> simp

theorem execSeqFrame_goesOn (dt : ℕ) (port : Fin 24) (hdr : FrameHdr) (f : SeqF) (s : State) :
    GoesOn s.pending (execSeqFrame dt port hdr f s) := by
  unfold execSeqFrame
  dsimp only
  split
  · simp
  · split <;> exact receive_goesOn _ _ _ _ _ (fun _ => by split <;> simp)

theorem execCollPermute_goesOn (dt : ℕ) (s : State) : GoesOn s.pending (execCollPermute dt s) := by
  unfold execCollPermute
  dsimp only
  split
  · simp
  · next h =>
    have ht := take_pending h
    split <;> simp [ht]

theorem execPermuteWorkSend_goesOn (dt seg : ℕ) (s : State) : GoesOn s.pending (execPermuteWorkSend dt seg s) := by
  unfold execPermuteWorkSend
  dsimp only
  split
  · simp
  · split
    · simp
    · split <;> simp

theorem execPermuteTimeout_goesOn (dt : ℕ) (s : State) : GoesOn s.pending (execPermuteTimeout dt s) := by
  unfold execPermuteTimeout
  dsimp only
  split
  · simp
  · split
    · simp
    · split <;> simp

theorem execPermuteFrame_goesOn (dt : ℕ) (port : Fin 24) (hdr : FrameHdr) (f : PermuteF) (s : State) :
    GoesOn s.pending (execPermuteFrame dt port hdr f s) := by
  unfold execPermuteFrame
  dsimp only
  split
  · simp
  · refine receive_goesOn _ _ _ _ _ (fun s => ?_)
    split
    · simp
    · split
      · split <;> simp
      · split
        · simp
        · split <;> simp

theorem execContextLeaseExpiry_goesOn (dt : ℕ) (tile : Fin 6) (collId : W32) (s : State) :
    GoesOn s.pending (execContextLeaseExpiry dt tile collId s) := by
  unfold execContextLeaseExpiry
  dsimp only
  split
  · split
    · simp
    · split <;> simp
  · split
    · simp
    · split <;> simp

theorem execLossScaleSet_goesOn (dt : ℕ) (s : State) : GoesOn s.pending (execLossScaleSet dt s) := by
  unfold execLossScaleSet
  dsimp only
  split
  · simp
  · next h =>
    have ht := take_pending h
    split <;> simp [ht]

theorem execStepVerdict_goesOn (dt : ℕ) (s : State) : GoesOn s.pending (execStepVerdict dt s) := by
  unfold execStepVerdict
  dsimp only
  split
  · simp
  · next h =>
    have ht := take_pending h
    split <;> simp [ht]

theorem execVerdictFrame_goesOn (dt : ℕ) (port : Fin 24) (hdr : FrameHdr) (f : VerdictF) (s : State) :
    GoesOn s.pending (execVerdictFrame dt port hdr f s) := by
  unfold execVerdictFrame
  dsimp only
  split
  · simp
  · exact receive_goesOn _ _ _ _ _ (fun _ => by simp)

theorem execSkimRecordEmit_goesOn (dt : ℕ) (s : State) : GoesOn s.pending (execSkimRecordEmit dt s) := by
  unfold execSkimRecordEmit
  dsimp only
  split <;> simp

theorem execSkimStart_goesOn (dt : ℕ) (s : State) : GoesOn s.pending (execSkimStart dt s) := by
  unfold execSkimStart
  dsimp only
  split
  · simp
  · next h =>
    have ht := take_pending h
    split <;> simp [ht]

theorem execSkimStop_goesOn (dt : ℕ) (s : State) : GoesOn s.pending (execSkimStop dt s) := by
  unfold execSkimStop
  dsimp only
  split
  · simp
  · next h =>
    have ht := take_pending h
    simp [ht]

/-- A takeover load that has ended completes its command, whether it broke or not. -/
theorem endLoad_goesOn (a : Load) (c : Cmd) {q : List Instr} (ha : a.st.pending = q) :
    GoesOn q (if a.failed then
        (let s := match a.poison with
          | some u => a.st.poisonConsumed c u
          | none => a.st
        .next (s.complete c .faulted 0 a.body))
      else .next ((a.st.commitLoad a).complete c .ok 0 a.body)) := by
  refine goesOn_if (goesOn_next.mpr ((complete_pending ..).trans ?_))
    (goesOn_next.mpr ((complete_pending ..).trans ((commitLoad_pending ..).trans ha)))
  split
  · exact (poisonConsumed_pending ..).trans ha
  · exact ha

theorem execTakeoverLoad_goesOn (dt : ℕ) (s : State) : GoesOn s.pending (execTakeoverLoad dt s) := by
  unfold execTakeoverLoad
  dsimp only
  split
  · exact goesOn_idle.mpr rfl
  · next c t h =>
    have ht : t.pending = s.pending := (take_pending h).trans (advance_pending ..)
    split
    · exact goesOn_next.mpr ((badParam_pending ..).trans ht)
    · refine goesOn_if (goesOn_next.mpr ((complete_pending ..).trans ht)) (goesOn_if
        (goesOn_next.mpr ((complete_pending ..).trans ht)) (goesOn_if (goesOn_idle.mpr rfl) ?_))
      split
      · exact endLoad_goesOn (Load.fail { st := t } _) c ht
      · exact endLoad_goesOn _ c (runLoad_pending .. |>.trans ht)

theorem execBusError_goesOn (dt : ℕ) (complex : Fin 6) (addr : W64) (s : State) :
    GoesOn s.pending (execBusError dt complex addr s) := by
  unfold execBusError
  simp

theorem execDmaStart_goesOn (dt : ℕ) (ring : Fin 17) (host : List Byte) (s : State) :
    GoesOn s.pending (execDmaStart dt ring host s) := by
  unfold execDmaStart
  dsimp only
  split
  · simp
  · next h =>
    have ht := take_pending h
    split <;> simp [ht]

theorem execChannelLeaseExpiry_goesOn (dt : ℕ) (channel : Fin 192) (s : State) :
    GoesOn s.pending (execChannelLeaseExpiry dt channel s) := by
  unfold execChannelLeaseExpiry
  simp

theorem execMove_goesOn (dt : ℕ) (channel : Fin 192) (host : List Byte) (s : State) :
    GoesOn s.pending (execMove dt channel host s) := by
  unfold execMove
  refine chanStep_goesOn (s.advance dt) _ _ (fun x bs => ?_)
  dsimp only
  split
  · split
    · simp
    · split
      · rfl
      · split
        · simp
        · split
          · simp
          · rw [moveBurst_pending]
            split <;> simp
  · simp

theorem execLoop_goesOn (dt : ℕ) (channel : Fin 192) (s : State) : GoesOn s.pending (execLoop dt channel s) := by
  unfold execLoop
  refine chanStep_goesOn (s.advance dt) _ _ (fun x bs => ?_)
  dsimp only
  split
  · simp
  · split
    · split <;> simp
    · simp

theorem execWait_goesOn (dt : ℕ) (channel : Fin 192) (s : State) : GoesOn s.pending (execWait dt channel s) := by
  unfold execWait
  refine chanStep_goesOn (s.advance dt) _ _ (fun x bs => ?_)
  dsimp only
  have hgo (t : State) : ((if (fieldAt bs 1 1).testBit 1 then t.clearSignals (BitVec.ofNat 64 (fieldAt bs 8 8))
      else t).chanNext channel).pending = t.pending := by
    rw [chanNext_pending]
    exact pending_if rfl rfl
  exact pending_if (pending_if (readBack_pending _ _ hgo) (hgo _)) (modChannel_pending ..)

theorem execDmaSignal_goesOn (dt : ℕ) (channel : Fin 192) (s : State) : GoesOn s.pending (execDmaSignal dt channel s) := by
  unfold execDmaSignal
  exact chanStep_goesOn (s.advance dt) _ _ (fun x bs => readBack_pending _ _ (fun s => by
    rw [chanNext_pending, setSignals_pending, clearSignals_pending]))

theorem execCheck_goesOn (dt : ℕ) (channel : Fin 192) (s : State) : GoesOn s.pending (execCheck dt channel s) := by
  unfold execCheck
  refine chanStep_goesOn (s.advance dt) _ _ (fun x bs => ?_)
  dsimp only
  split
  · simp
  · split
    · split <;> simp
    · split
      · simp
      · split
        · split <;> simp
        · exact chanStore_pending _ _ _ _ (fun s => chanNext_pending ..)

theorem execDmaEnd_goesOn (dt : ℕ) (channel : Fin 192) (s : State) : GoesOn s.pending (execDmaEnd dt channel s) := by
  unfold execDmaEnd
  refine chanStep_goesOn (s.advance dt) _ _ (fun x bs => readBack_pending _ _ (fun s => ?_))
  dsimp only
  split
  · exact chanStore_pending _ _ _ _ (fun s => by simp)
  · simp

theorem execCheckArm_goesOn (dt : ℕ) (ring : Fin 17) (s : State) : GoesOn s.pending (execCheckArm dt ring s) := by
  unfold execCheckArm
  dsimp only
  split
  · simp
  · next h =>
    have ht := take_pending h
    split <;> simp [ht]

theorem execCheckArmTimeout_goesOn (dt : ℕ) (unit : Fin 64) (s : State) :
    GoesOn s.pending (execCheckArmTimeout dt unit s) := by
  unfold execCheckArmTimeout
  simp

theorem execReplicaSweep_goesOn (dt : ℕ) (s : State) : GoesOn s.pending (execReplicaSweep dt s) := by
  unfold execReplicaSweep
  dsimp only
  split
  · simp
  · split
    · simp
    · next h =>
      have ht := take_pending h
      split
      · simp [ht]
      · split <;> simp [ht]

theorem execSweepTimeout_goesOn (dt : ℕ) (s : State) : GoesOn s.pending (execSweepTimeout dt s) := by
  unfold execSweepTimeout
  dsimp only
  split
  · simp
  · split <;> simp

end Sys2Proof.Machine
end

section
/-! PROOF. The commands of the links, the configuration, power and the registers go on. -/

namespace Sys2Proof.Machine

theorem execPortDetect_goesOn (dt : ℕ) (port : Fin 24) (present : Bool) (s : State) :
    GoesOn s.pending (execPortDetect dt port present s) := by
  unfold execPortDetect
  simp

theorem execCalibrationDone_goesOn (dt : ℕ) (link : Link) (margins : List ℕ) (s : State) :
    GoesOn s.pending (execCalibrationDone dt link margins s) := by
  unfold execCalibrationDone
  simp

theorem execSymbolLock_goesOn (dt : ℕ) (link : Link) (s : State) : GoesOn s.pending (execSymbolLock dt link s) := by
  unfold execSymbolLock
  simp

theorem execRoleWaitRetry_goesOn (dt : ℕ) (port : Fin 24) (s : State) : GoesOn s.pending (execRoleWaitRetry dt port s) := by
  unfold execRoleWaitRetry
  simp

theorem execWidthAttemptTimeout_goesOn (dt : ℕ) (link : Link) (s : State) :
    GoesOn s.pending (execWidthAttemptTimeout dt link s) := by
  unfold execWidthAttemptTimeout
  dsimp only
  split
  · simp
  · exact goesOn_next.mpr (afterFailure_pending _ _ (fun s a => nextAttempt_pending s link a))

theorem execTrainingBlockReceive_goesOn (dt : ℕ) (link : Link) (fields : List Byte) (crc : W32) (s : State) :
    GoesOn s.pending (execTrainingBlockReceive dt link fields crc s) := by
  unfold execTrainingBlockReceive
  split <;> simp

theorem execLaneFault_goesOn (dt : ℕ) (port : Fin 24) (lane : Fin 8) (s : State) :
    GoesOn s.pending (execLaneFault dt port lane s) := by
  unfold execLaneFault
  simp

theorem execSeamSublinkFault_goesOn (dt : ℕ) (seam : Fin 3) (sub : Fin 8) (s : State) :
    GoesOn s.pending (execSeamSublinkFault dt seam sub s) := by
  unfold execSeamSublinkFault
  simp

theorem execCodewordReceive_goesOn (dt : ℕ) (link : Link) (cw : CodewordIn) (s : State) :
    GoesOn s.pending (execCodewordReceive dt link cw s) := by
  unfold execCodewordReceive
  split <;> simp

theorem execTimeFrameSend_goesOn (dt : ℕ) (port : Fin 24) (s : State) : GoesOn s.pending (execTimeFrameSend dt port s) := by
  unfold execTimeFrameSend
  simp

theorem timeFrameTaken_goesOn (s : State) (p : Prop) [Decidable p] {r : Result} (h : GoesOn s.pending r) :
    GoesOn s.pending (if p then s.idle else r) := by
  split
  · exact goesOn_idle.mpr rfl
  · exact h

theorem execTimeFrameReceive_goesOn (dt : ℕ) (port : Fin 24) (hdr : FrameHdr) (f : TimeF) (s : State) :
    GoesOn s.pending (execTimeFrameReceive dt port hdr f s) := by
  refine timeFrameTaken_goesOn (s.advance dt) _ (receive_goesOn (s.advance dt) _ _ _ _ (fun s => ?_))
  dsimp only
  split
  · simp
  · split
    · split <;> simp
    · split <;> simp

theorem execConfigStage_goesOn (dt : ℕ) (host : Option (List Byte)) (s : State) :
    GoesOn s.pending (execConfigStage dt host s) := by
  unfold execConfigStage
  dsimp only
  split
  · simp
  · next h =>
    have ht := take_pending h
    split
    · simp [ht]
    · split
      · simp [ht]
      · split
        · simp
        · split
          · simp [ht]
          · split
            · simp [ht]
            · split <;> simp [ht]

theorem loadFws_pending (images : List (ℕ × Bool × ImageIn)) (cs : List ℕ) (acc : Bool × State) :
    (cs.foldl (fun (acc : Bool × State) c => if acc.1 then acc.2.loadFw images c else acc) acc).2.pending =
      acc.2.pending := by
  induction cs generalizing acc with
  | nil => rfl
  | cons c cs ih =>
    refine (ih _).trans ?_
    dsimp only
    split
    · exact loadFw_pending ..
    · rfl

theorem execStartUp_goesOn (dt : ℕ) (inp : StartInput) (s : State) : GoesOn s.pending (execStartUp dt inp s) := by
  have hdrawn : ((s.advance dt).pinActs inp.heldNs).2.draw.2.pending = s.pending :=
    (draw_pending _).trans (pinActs_pending ..)
  unfold execStartUp
  dsimp only
  refine goesOn_if (goesOn_idle.mpr (pinActs_pending ..)) (goesOn_if (goesOn_next.mpr (pinActs_pending ..))
    (goesOn_if (goesOn_next.mpr ((stopStart_pending ..).trans hdrawn))
      (goesOn_if (goesOn_next.mpr ((stopStart_pending ..).trans ((loadFw_pending ..).trans hdrawn))) (goesOn_if ?_ ?_))))
  · exact goesOn_next.mpr ((stopStart_pending ..).trans ((loadFws_pending ..).trans ((loadFw_pending ..).trans hdrawn)))
  · exact goesOn_next.mpr ((loadRecord_pending ..).trans ((loadFws_pending ..).trans ((loadFw_pending ..).trans hdrawn)))

theorem execAlignmentWaitTimeout_goesOn (dt : ℕ) (s : State) : GoesOn s.pending (execAlignmentWaitTimeout dt s) := by
  unfold execAlignmentWaitTimeout
  simp

theorem execModResetAssert_goesOn (level : PinLevel) (s : State) : GoesOn s.pending (execModResetAssert level s) := by
  unfold execModResetAssert
  simp

theorem execPwrEnFall_goesOn (level : PinLevel) (s : State) : GoesOn s.pending (execPwrEnFall level s) := by
  unfold execPwrEnFall
  simp

theorem execInputFault_goesOn (dt mv us : ℕ) (s : State) : GoesOn s.pending (execInputFault dt mv us s) := by
  unfold execInputFault
  simp

theorem execInputBelow30v_goesOn (dt : ℕ) (s : State) : GoesOn s.pending (execInputBelow30v dt s) := by
  unfold execInputBelow30v
  simp

theorem execPerstAssert_goesOn (dt : ℕ) (s : State) : GoesOn s.pending (execPerstAssert dt s) := by
  unfold execPerstAssert
  simp

theorem execPerstRelease_goesOn (dt : ℕ) (s : State) : GoesOn s.pending (execPerstRelease dt s) := by
  unfold execPerstRelease
  simp

theorem execFunctionLevelReset_goesOn (dt : ℕ) (s : State) : GoesOn s.pending (execFunctionLevelReset dt s) := by
  unfold execFunctionLevelReset
  simp

theorem execRefclkLoss_goesOn (dt : ℕ) (s : State) : GoesOn s.pending (execRefclkLoss dt s) := by
  unfold execRefclkLoss
  simp

theorem execRefclkReturn_goesOn (dt : ℕ) (s : State) : GoesOn s.pending (execRefclkReturn dt s) := by
  unfold execRefclkReturn
  simp

theorem execTideSyncInEdge_goesOn (dt tenths : ℕ) (s : State) : GoesOn s.pending (execTideSyncInEdge dt tenths s) := by
  unfold execTideSyncInEdge
  simp

theorem execSyncOutPulse_goesOn (dt : ℕ) (s : State) : GoesOn s.pending (execSyncOutPulse dt s) := by
  unfold execSyncOutPulse
  simp

theorem execTemperatureThreshold_goesOn (dt : ℕ) (die : ThermDie) (celsius : ℕ) (s : State) :
    GoesOn s.pending (execTemperatureThreshold dt die celsius s) := by
  unfold execTemperatureThreshold
  split <;> simp

theorem execPowerBudgetExchange_goesOn (dt mv : ℕ) (power request : List ℕ) (s : State) :
    GoesOn s.pending (execPowerBudgetExchange dt mv power request s) := by
  unfold execPowerBudgetExchange
  simp

theorem execWaitTimeoutExpiry_goesOn (dt : ℕ) (ring : Fin 17) (s : State) :
    GoesOn s.pending (execWaitTimeoutExpiry dt ring s) := by
  unfold execWaitTimeoutExpiry
  dsimp only
  split
  · simp
  · split <;> simp

theorem execQuery_goesOn (dt : ℕ) (ring : Fin 17) (s : State) : GoesOn s.pending (execQuery dt ring s) := by
  unfold execQuery
  dsimp only
  split
  · simp
  · next h =>
    have ht := take_pending (Option.filter_eq_some_iff.mp h).1
    split
    · simp [ht]
    · split <;> simp [ht]

theorem execBarAccess_goesOn (dt : ℕ) (write : Bool) (offset size : ℕ) (value : W64) (s : State) :
    GoesOn s.pending (execBarAccess dt write offset size value s) := by
  unfold execBarAccess
  exact host0_goesOn ..

theorem execRegisterWrite_goesOn (dt offset size : ℕ) (value : W64) (s : State) :
    GoesOn s.pending (execRegisterWrite dt offset size value s) := by
  unfold execRegisterWrite
  exact host0_goesOn ..

theorem execTideNowRead_goesOn (dt : ℕ) (wide : Bool) (s : State) : GoesOn s.pending (execTideNowRead dt wide s) := by
  unfold execTideNowRead
  exact host0_goesOn ..

theorem execLastCommitTideRead_goesOn (dt : ℕ) (wide : Bool) (s : State) :
    GoesOn s.pending (execLastCommitTideRead dt wide s) := by
  unfold execLastCommitTideRead
  exact host0_goesOn ..

theorem execIdleSnapTideRead_goesOn (dt : ℕ) (ctx : Fin 16) (wide : Bool) (s : State) :
    GoesOn s.pending (execIdleSnapTideRead dt ctx wide s) := by
  unfold execIdleSnapTideRead
  exact host0_goesOn ..

theorem execSlotRead_goesOn (dt : ℕ) (ring : Fin 17) (slot : Fin 1024) (wide : Bool) (s : State) :
    GoesOn s.pending (execSlotRead dt ring slot wide s) := by
  unfold execSlotRead
  exact host0_goesOn ..

theorem execRingDoorbell_goesOn (dt : ℕ) (ring : Fin 17) (tail : W32) (s : State) :
    GoesOn s.pending (execRingDoorbell dt ring tail s) := host0_goesOn (s.advance dt) ..

theorem execRingEnable_goesOn (dt : ℕ) (ring : Fin 17) (value : W32) (s : State) :
    GoesOn s.pending (execRingEnable dt ring value s) := by
  unfold execRingEnable
  dsimp only
  split
  · simp
  · exact host0_goesOn (s.advance dt) ..

theorem execRingReset_goesOn (dt : ℕ) (ring : Fin 17) (value : W32) (s : State) :
    GoesOn s.pending (execRingReset dt ring value s) := by
  unfold execRingReset
  dsimp only
  split
  · exact host0_goesOn (s.advance dt) ..
  · simp

theorem execLayerDefine_goesOn (dt : ℕ) (layer : Fin 4096) (value : W64) (s : State) :
    GoesOn s.pending (execLayerDefine dt layer value s) := by
  unfold execLayerDefine
  dsimp only
  split
  · exact host0_goesOn (s.advance dt) ..
  · simp

theorem execLayerUndefine_goesOn (dt : ℕ) (layer : Fin 4096) (value : W64) (s : State) :
    GoesOn s.pending (execLayerUndefine dt layer value s) := by
  unfold execLayerUndefine
  dsimp only
  split
  · exact host0_goesOn (s.advance dt) ..
  · simp

theorem execSkimRdWrite_goesOn (dt : ℕ) (value : W64) (s : State) : GoesOn s.pending (execSkimRdWrite dt value s) := by
  unfold execSkimRdWrite
  exact host0_goesOn ..

theorem execChannelStop_goesOn (dt : ℕ) (channel : Fin 192) (s : State) :
    GoesOn s.pending (execChannelStop dt channel s) := host0_goesOn (s.advance dt) ..

theorem execLogSelectWrite_goesOn (dt : ℕ) (value : W64) (s : State) :
    GoesOn s.pending (execLogSelectWrite dt value s) := by
  unfold execLogSelectWrite
  exact host0_goesOn ..

theorem execFatalClear_goesOn (dt : ℕ) (value : W64) (s : State) : GoesOn s.pending (execFatalClear dt value s) := by
  unfold execFatalClear
  split
  · exact host0_goesOn ..
  · simp

theorem execMismatchClear_goesOn (dt : ℕ) (unit : Fin 64) (s : State) :
    GoesOn s.pending (execMismatchClear dt unit s) := host0_goesOn (s.advance dt) ..

theorem execMsixUnmask_goesOn (dt : ℕ) (target : MsixTarget) (s : State) :
    GoesOn s.pending (execMsixUnmask dt target s) := by
  unfold execMsixUnmask
  simp

end Sys2Proof.Machine
end

section
/-! PROOF. The commands of the step close, the service of dies, faults, management and sampling go on. -/

namespace Sys2Proof.Machine

theorem execStepCommit_goesOn (dt : ℕ) (s : State) : GoesOn s.pending (execStepCommit dt s) := by
  unfold execStepCommit
  dsimp only
  split
  · simp
  · next h =>
    have ht := take_pending h
    split <;> simp [ht]

theorem execStepAbort_goesOn (dt : ℕ) (s : State) : GoesOn s.pending (execStepAbort dt s) := by
  unfold execStepAbort
  dsimp only
  split
  · simp
  · next h =>
    have ht := take_pending h
    split <;> simp [ht]

theorem execVerdictTimeout_goesOn (dt : ℕ) (s : State) : GoesOn s.pending (execVerdictTimeout dt s) := by
  unfold execVerdictTimeout
  dsimp only
  split <;> simp

theorem execConfigCommit_goesOn (a : ApplyIn) (s : State) : GoesOn s.pending (execConfigCommit a s) := by
  unfold execConfigCommit
  dsimp only
  split
  · simp
  · next h =>
    have ht := take_pending h
    split
    · simp [ht]
    · split
      · simp [ht]
      · split <;> simp [ht]

theorem execConfigApply_goesOn (dt : ℕ) (faultAt : Option ℕ) (s : State) :
    GoesOn s.pending (execConfigApply dt faultAt s) := by
  unfold execConfigApply
  dsimp only
  split
  · split
    · simp
    · split <;> simp
  · simp

theorem execConfigCommitTimeout_goesOn (dt : ℕ) (s : State) : GoesOn s.pending (execConfigCommitTimeout dt s) := by
  unfold execConfigCommitTimeout
  dsimp only
  split
  · simp
  · split
    · simp
    · split
      · simp
      · split <;> simp

theorem execDieDrain_goesOn (dt : ℕ) (s : State) : GoesOn s.pending (execDieDrain dt s) := by
  unfold execDieDrain
  dsimp only
  split
  · simp
  · next h =>
    have ht := take_pending h
    split <;> simp [ht]

theorem execDrainTimeout_goesOn (dt : ℕ) (die : Fin 12) (s : State) : GoesOn s.pending (execDrainTimeout dt die s) := by
  unfold execDrainTimeout
  dsimp only
  split <;> simp

theorem execDieRepair_goesOn (dt : ℕ) (inp : RepairInput) (s : State) : GoesOn s.pending (execDieRepair dt inp s) := by
  unfold execDieRepair
  dsimp only
  split
  · simp
  · next h =>
    have ht := take_pending h
    split <;> simp [ht]

theorem execDieReturn_goesOn (dt : ℕ) (s : State) : GoesOn s.pending (execDieReturn dt s) := by
  unfold execDieReturn
  dsimp only
  split
  · simp
  · next h =>
    have ht := take_pending h
    split <;> simp [ht]

theorem execLogRead_goesOn (dt : ℕ) (ring : Fin 17) (s : State) : GoesOn s.pending (execLogRead dt ring s) := by
  unfold execLogRead
  dsimp only
  split
  · simp
  · next h =>
    have ht := take_pending h
    split <;> simp [ht]

theorem execPatrolScrub_goesOn (dt : ℕ) (addr : W64) (bad : ℕ) (passDone : Bool) (s : State) :
    GoesOn s.pending (execPatrolScrub dt addr bad passDone s) := by
  have hdrawn (p : Prop) [Decidable p] : (if p then s.advance dt else (s.advance dt).draw.2).pending = s.pending :=
    pending_if rfl rfl
  unfold execPatrolScrub
  dsimp only
  refine goesOn_if (goesOn_idle.mpr rfl) (goesOn_if ?_ ?_)
  · exact goesOn_next.mpr (pending_if ((markPoison_pending ..).trans (hdrawn _)) (hdrawn _))
  · split
    · exact goesOn_idle.mpr rfl
    · next c _ =>
      refine goesOn_if (goesOn_idle.mpr rfl) ?_
      cases c with
      | far f off =>
        refine goesOn_next.mpr (pending_if ((modStack_pending ..).trans ?_) ?_) <;>
          exact pending_if (hdrawn _) (by split <;> simp [hdrawn])
      | near die space off => exact goesOn_next.mpr (pending_if (hdrawn _) (by split <;> simp [hdrawn]))

theorem execNearBankFault_goesOn (dt : ℕ) (die : Fin 12) (channel : Fin 64) (bank : Fin 32) (second : Bool)
    (s : State) :
    GoesOn s.pending (execNearBankFault dt die channel bank second s) := by
  unfold execNearBankFault
  simp

theorem execBankCopyDone_goesOn (dt : ℕ) (die : Fin 12) (channel : Fin 64) (s : State) :
    GoesOn s.pending (execBankCopyDone dt die channel s) := by
  unfold execBankCopyDone
  dsimp only
  split <;> simp

theorem execFarParityFailure_goesOn (dt : ℕ) (stack : Fin 16) (x : FarTransfer) (s : State) :
    GoesOn s.pending (execFarParityFailure dt stack x s) := by
  unfold execFarParityFailure
  simp

theorem execFarChannelFault_goesOn (dt : ℕ) (stack channel : Fin 16) (failingCa : List CaLane)
    (failingD0 failingD1 : List DataLane) (s : State) :
    GoesOn s.pending (execFarChannelFault dt stack channel failingCa failingD0 failingD1 s) := by
  unfold execFarChannelFault
  simp

theorem execCellRowFault_goesOn (dt : ℕ) (die : Fin 12) (array : Fin 32) (row : Fin 64) (s : State) :
    GoesOn s.pending (execCellRowFault dt die array row s) := by
  unfold execCellRowFault
  simp -implicitDefEqProofs

theorem execArrayFault_goesOn (dt : ℕ) (die : Fin 12) (array : Fin 32) (s : State) :
    GoesOn s.pending (execArrayFault dt die array s) := by
  unfold execArrayFault
  simp

theorem execDmaComplexFault_goesOn (dt : ℕ) (complex : Fin 6) (s : State) :
    GoesOn s.pending (execDmaComplexFault dt complex s) := by
  unfold execDmaComplexFault
  simp

theorem execCoreFault_goesOn (dt : ℕ) (core : Fin 6) (s : State) : GoesOn s.pending (execCoreFault dt core s) := by
  unfold execCoreFault
  simp

theorem execSwitchTileFault_goesOn (dt : ℕ) (tile : Fin 6) (selfTestOk : Bool) (s : State) :
    GoesOn s.pending (execSwitchTileFault dt tile selfTestOk s) := by
  unfold execSwitchTileFault
  simp

theorem execRecoveryDone_goesOn (dt cls : ℕ) (x : Recovered) (s : State) :
    GoesOn s.pending (execRecoveryDone dt cls x s) := by
  unfold execRecoveryDone
  dsimp only
  split <;> simp

theorem execHoldLeaseExpiry_goesOn (dt : ℕ) (layer : Fin 4096) (slot : Fin 8) (holder : W16) (s : State) :
    GoesOn s.pending (execHoldLeaseExpiry dt layer slot holder s) := by
  unfold execHoldLeaseExpiry
  dsimp only
  split <;> simp

theorem execBankLeaseExpiry_goesOn (dt : ℕ) (die : Fin 12) (s : State) :
    GoesOn s.pending (execBankLeaseExpiry dt die s) := by
  unfold execBankLeaseExpiry
  dsimp only
  split
  · simp
  · split
    · simp
    · split <;> simp

theorem execSetdasa_goesOn (dt static dynamic : ℕ) (s : State) : GoesOn s.pending (execSetdasa dt static dynamic s) := by
  unfold execSetdasa
  exact serve_goesOn _ (fun _ => by simp)

theorem execEntdaa_goesOn (dt dynamic : ℕ) (s : State) : GoesOn s.pending (execEntdaa dt dynamic s) := by
  unfold execEntdaa
  exact serve_goesOn _ (fun _ => by simp)

theorem execSetEndpointId_goesOn (dt : ℕ) (eid : Byte) (s : State) : GoesOn s.pending (execSetEndpointId dt eid s) := by
  unfold execSetEndpointId
  exact serve_goesOn _ (fun _ => by simp)

theorem execSetEventReceiver_goesOn (dt : ℕ) (eid : Byte) (s : State) :
    GoesOn s.pending (execSetEventReceiver dt eid s) := by
  unfold execSetEventReceiver
  exact serve_goesOn _ (fun _ => by simp)

theorem execGetVersion_goesOn (dt : ℕ) (s : State) : GoesOn s.pending (execGetVersion dt s) := by
  unfold execGetVersion
  exact serve_goesOn _ (fun _ => by simp)

theorem execGetCapabilities_goesOn (dt : ℕ) (s : State) : GoesOn s.pending (execGetCapabilities dt s) := by
  unfold execGetCapabilities
  exact serve_goesOn _ (fun _ => by simp)

theorem execNegotiateAlgorithms_goesOn (dt : ℕ) (hashOffered asymOffered : Bool) (s : State) :
    GoesOn s.pending (execNegotiateAlgorithms dt hashOffered asymOffered s) := by
  unfold execNegotiateAlgorithms
  exact serve_goesOn _ (fun _ => by simp)

theorem execGetDigests_goesOn (dt : ℕ) (s : State) : GoesOn s.pending (execGetDigests dt s) := by
  unfold execGetDigests
  exact serve_goesOn _ (fun _ => spdm_pending _ (fun _ => by simp))

theorem execGetCertificate_goesOn (dt slot offset length : ℕ) (s : State) :
    GoesOn s.pending (execGetCertificate dt slot offset length s) := by
  unfold execGetCertificate
  exact serve_goesOn _ (fun _ => spdm_pending _ (fun _ => by simp))

theorem execChallenge_goesOn (dt slot : ℕ) (nonce : List Byte) (s : State) :
    GoesOn s.pending (execChallenge dt slot nonce s) := by
  unfold execChallenge
  exact serve_goesOn _ (fun _ => spdm_pending _ (fun _ => by simp))

theorem execGetMeasurements_goesOn (dt slot index : ℕ) (sign : Bool) (nonce : List Byte) (s : State) :
    GoesOn s.pending (execGetMeasurements dt slot index sign nonce s) := by
  unfold execGetMeasurements
  dsimp only
  split
  · simp
  · exact serve_goesOn _ (fun _ => spdm_pending _ (fun _ => by simp))

theorem execSpdmOtherRequest_goesOn (dt : ℕ) (code : Byte) (s : State) :
    GoesOn s.pending (execSpdmOtherRequest dt code s) := by
  unfold execSpdmOtherRequest
  exact serve_goesOn _ (fun _ => by simp)

theorem execGetSensorReading_goesOn (dt sensor : ℕ) (s : State) : GoesOn s.pending (execGetSensorReading dt sensor s) := by
  unfold execGetSensorReading
  exact serve_goesOn _ (fun _ => by split <;> simp)

theorem execQueryDeviceIdentifiers_goesOn (dt : ℕ) (s : State) : GoesOn s.pending (execQueryDeviceIdentifiers dt s) := by
  unfold execQueryDeviceIdentifiers
  exact serve_goesOn _ (fun _ => by simp)

theorem execGetFirmwareParameters_goesOn (dt : ℕ) (s : State) : GoesOn s.pending (execGetFirmwareParameters dt s) := by
  unfold execGetFirmwareParameters
  exact serve_goesOn _ (fun _ => by simp)

theorem execRequestUpdate_goesOn (dt maxTransfer : ℕ) (s : State) :
    GoesOn s.pending (execRequestUpdate dt maxTransfer s) := by
  unfold execRequestUpdate
  exact serve_goesOn _ (fun _ => by simp)

theorem execPassComponentTable_goesOn (dt component : ℕ) (s : State) :
    GoesOn s.pending (execPassComponentTable dt component s) := by
  unfold execPassComponentTable
  exact serve_goesOn _ (fun _ => update_pending _ _ (fun _ => by simp))

theorem execUpdateComponent_goesOn (dt component size : ℕ) (s : State) :
    GoesOn s.pending (execUpdateComponent dt component size s) := by
  unfold execUpdateComponent
  exact serve_goesOn _ (fun _ => update_pending _ _ (fun _ => by simp))

theorem execRequestFirmwareData_goesOn (dt offset : ℕ) (data : List Byte) (s : State) :
    GoesOn s.pending (execRequestFirmwareData dt offset data s) := by
  unfold execRequestFirmwareData
  exact serve_goesOn _ (fun _ => by simp)

theorem execTransferComplete_goesOn (dt : ℕ) (ok : Bool) (s : State) : GoesOn s.pending (execTransferComplete dt ok s) := by
  unfold execTransferComplete
  exact serve_goesOn _ (fun _ => update_pending _ _ (fun _ => by simp))

theorem execVerifyComplete_goesOn (dt : ℕ) (img : ImageIn) (s : State) :
    GoesOn s.pending (execVerifyComplete dt img s) := by
  unfold execVerifyComplete
  exact serve_goesOn _ (fun _ => update_pending _ _ (fun _ => by simp))

theorem execApplyComplete_goesOn (dt : ℕ) (s : State) : GoesOn s.pending (execApplyComplete dt s) := by
  unfold execApplyComplete
  exact serve_goesOn _ (fun _ => update_pending _ _ (fun _ => by split <;> simp))

theorem execGetStatus_goesOn (dt : ℕ) (s : State) : GoesOn s.pending (execGetStatus dt s) := by
  unfold execGetStatus
  exact serve_goesOn _ (fun _ => by simp)

theorem execCancelUpdateComponent_goesOn (dt : ℕ) (s : State) : GoesOn s.pending (execCancelUpdateComponent dt s) := by
  unfold execCancelUpdateComponent
  exact serve_goesOn _ (fun _ => update_pending _ _ (fun _ => by simp))

theorem execCancelUpdate_goesOn (dt : ℕ) (s : State) : GoesOn s.pending (execCancelUpdate dt s) := by
  unfold execCancelUpdate
  exact serve_goesOn _ (fun _ => update_pending _ _ (fun _ => by simp))

theorem execActivateFirmware_goesOn (dt : ℕ) (selfContained : Bool) (s : State) :
    GoesOn s.pending (execActivateFirmware dt selfContained s) := by
  unfold execActivateFirmware
  exact serve_goesOn _ (fun _ => update_pending _ _ (fun _ => by simp))

theorem execCoreRestartDone_goesOn (dt : ℕ) (core : Fin 6) (s : State) :
    GoesOn s.pending (execCoreRestartDone dt core s) := by
  unfold execCoreRestartDone
  simp

theorem execOemLogRead_goesOn (dt first count minSeverity : ℕ) (s : State) :
    GoesOn s.pending (execOemLogRead dt first count minSeverity s) := by
  unfold execOemLogRead
  exact serve_goesOn _ (fun _ => by simp)

theorem execOemRegisterRead_goesOn (dt offset count : ℕ) (s : State) :
    GoesOn s.pending (execOemRegisterRead dt offset count s) := by
  unfold execOemRegisterRead
  dsimp only
  split
  · simp
  · exact serve_goesOn _ (fun _ => by simp)

theorem execCommandCompletion_goesOn (dt : ℕ) (ring : Fin 17) (seq : W16) (s : State) :
    GoesOn s.pending (execCommandCompletion dt ring seq s) := by
  unfold execCommandCompletion
  dsimp only
  split
  · simp
  · split
    · simp
    · next h =>
      obtain ⟨c, -, hc⟩ := List.exists_of_findSome?_eq_some h
      exact goesOn_next.mpr (completion_pending (s.advance dt) _ hc)

theorem execIdleSample_goesOn (dt : ℕ) (s : State) : GoesOn s.pending (execIdleSample dt s) := by
  unfold execIdleSample
  simp

theorem execIdleVoltageTimer_goesOn (dt : ℕ) (die : Fin 12) (s : State) :
    GoesOn s.pending (execIdleVoltageTimer dt die s) := by
  unfold execIdleVoltageTimer
  dsimp only
  split
  · simp
  · split
    · simp
    · split
      · simp
      · simp -implicitDefEqProofs

end Sys2Proof.Machine
end

section
/-! PROOF. Every command goes on. -/

namespace Sys2Proof.Machine

theorem exec_goesOn (c : Instr) (s : State) : GoesOn s.pending (exec c s) := by
  cases c with
  | startUp => exact execStartUp_goesOn ..
  | alignmentWaitTimeout => exact execAlignmentWaitTimeout_goesOn ..
  | modResetAssert => exact execModResetAssert_goesOn ..
  | pwrEnFall => exact execPwrEnFall_goesOn ..
  | inputFault => exact execInputFault_goesOn ..
  | perstAssert => exact execPerstAssert_goesOn ..
  | perstRelease => exact execPerstRelease_goesOn ..
  | functionLevelReset => exact execFunctionLevelReset_goesOn ..
  | refclkLoss => exact execRefclkLoss_goesOn ..
  | refclkReturn => exact execRefclkReturn_goesOn ..
  | tideSyncInEdge => exact execTideSyncInEdge_goesOn ..
  | syncOutPulse => exact execSyncOutPulse_goesOn ..
  | timeFrameSend => exact execTimeFrameSend_goesOn ..
  | timeFrameReceive => exact execTimeFrameReceive_goesOn ..
  | temperatureThreshold => exact execTemperatureThreshold_goesOn ..
  | powerBudgetExchange => exact execPowerBudgetExchange_goesOn ..
  | idleVoltageTimer => exact execIdleVoltageTimer_goesOn ..
  | barAccess => exact execBarAccess_goesOn ..
  | registerWrite => exact execRegisterWrite_goesOn ..
  | tideNowRead => exact execTideNowRead_goesOn ..
  | lastCommitTideRead => exact execLastCommitTideRead_goesOn ..
  | idleSnapTideRead => exact execIdleSnapTideRead_goesOn ..
  | slotRead => exact execSlotRead_goesOn ..
  | ringDoorbell => exact execRingDoorbell_goesOn ..
  | ringEnable => exact execRingEnable_goesOn ..
  | ringReset => exact execRingReset_goesOn ..
  | layerDefine => exact execLayerDefine_goesOn ..
  | layerUndefine => exact execLayerUndefine_goesOn ..
  | skimRdWrite => exact execSkimRdWrite_goesOn ..
  | channelStop => exact execChannelStop_goesOn ..
  | logSelectWrite => exact execLogSelectWrite_goesOn ..
  | fatalClear => exact execFatalClear_goesOn ..
  | mismatchClear => exact execMismatchClear_goesOn ..
  | msixUnmask => exact execMsixUnmask_goesOn ..
  | packetFetch => exact execPacketFetch_goesOn ..
  | waitTimeoutExpiry => exact execWaitTimeoutExpiry_goesOn ..
  | commandCompletion => exact execCommandCompletion_goesOn ..
  | coalesceTimeout => exact execCoalesceTimeout_goesOn ..
  | nop => exact execNop_goesOn ..
  | fence => exact execFence_goesOn ..
  | waitTide => exact execWaitTide_goesOn ..
  | waitTideTarget => exact execWaitTideTarget_goesOn ..
  | signal => exact execSignal_goesOn ..
  | waitSignal => exact execWaitSignal_goesOn ..
  | tileMm => exact execTileMm_goesOn ..
  | tileConv => exact execTileConv_goesOn ..
  | tileDgrad => exact execTileDgrad_goesOn ..
  | tileWgrad => exact execTileWgrad_goesOn ..
  | drain => exact execDrain_goesOn ..
  | spillFlush => exact execSpillFlush_goesOn ..
  | mbAdmit => exact execMbAdmit_goesOn ..
  | admissionGrant => exact execAdmissionGrant_goesOn ..
  | admitTimeout => exact execAdmitTimeout_goesOn ..
  | sendAct => exact execSendAct_goesOn ..
  | sendGrad => exact execSendGrad_goesOn ..
  | sendCreditTake => exact execSendCreditTake_goesOn ..
  | sendTimeout => exact execSendTimeout_goesOn ..
  | mbRelease => exact execMbRelease_goesOn ..
  | releaseEffect => exact execReleaseEffect_goesOn ..
  | reservationRelease => exact execReservationRelease_goesOn ..
  | versionPin => exact execVersionPin_goesOn ..
  | pinGrant => exact execPinGrant_goesOn ..
  | pinTimeout => exact execPinTimeout_goesOn ..
  | versionUnpin => exact execVersionUnpin_goesOn ..
  | graceExpiry => exact execGraceExpiry_goesOn ..
  | holdTimeout => exact execHoldTimeout_goesOn ..
  | holdRenewal => exact execHoldRenewal_goesOn ..
  | shardGather => exact execShardGather_goesOn ..
  | prefetchState => exact execPrefetchState_goesOn ..
  | prefetchTimeout => exact execPrefetchTimeout_goesOn ..
  | updateLayer => exact execUpdateLayer_goesOn ..
  | updatePartRun => exact execUpdatePartRun_goesOn ..
  | updateTimeout => exact execUpdateTimeout_goesOn ..
  | fma => exact execFma_goesOn ..
  | mul => exact execMul_goesOn ..
  | add => exact execAdd_goesOn ..
  | sub => exact execSub_goesOn ..
  | rcp => exact execRcp_goesOn ..
  | sqrt => exact execSqrt_goesOn ..
  | rsqrt => exact execRsqrt_goesOn ..
  | min => exact execMin_goesOn ..
  | max => exact execMax_goesOn ..
  | clamp => exact execClamp_goesOn ..
  | sel => exact execSel_goesOn ..
  | nacc => exact execNacc_goesOn ..
  | sts => exact execSts_goesOn ..
  | stw => exact execStw_goesOn ..
  | nextpass => exact execNextpass_goesOn ..
  | endElem => exact execEndElem_goesOn ..
  | stepVerdict => exact execStepVerdict_goesOn ..
  | verdictTimeout => exact execVerdictTimeout_goesOn ..
  | stepCommit => exact execStepCommit_goesOn ..
  | stepAbort => exact execStepAbort_goesOn ..
  | lossScaleSet => exact execLossScaleSet_goesOn ..
  | skimRecordEmit => exact execSkimRecordEmit_goesOn ..
  | collReduce => exact execCollReduce_goesOn ..
  | collGather => exact execCollGather_goesOn ..
  | collPermute => exact execCollPermute_goesOn ..
  | permuteWorkSend => exact execPermuteWorkSend_goesOn ..
  | permuteTimeout => exact execPermuteTimeout_goesOn ..
  | collBarrier => exact execCollBarrier_goesOn ..
  | contextLeaseExpiry => exact execContextLeaseExpiry_goesOn ..
  | dmaStart => exact execDmaStart_goesOn ..
  | channelLeaseExpiry => exact execChannelLeaseExpiry_goesOn ..
  | move => exact execMove_goesOn ..
  | loop => exact execLoop_goesOn ..
  | wait => exact execWait_goesOn ..
  | dmaSignal => exact execDmaSignal_goesOn ..
  | check => exact execCheck_goesOn ..
  | dmaEnd => exact execDmaEnd_goesOn ..
  | busError => exact execBusError_goesOn ..
  | checkArm => exact execCheckArm_goesOn ..
  | checkArmTimeout => exact execCheckArmTimeout_goesOn ..
  | replicaSweep => exact execReplicaSweep_goesOn ..
  | sweepTimeout => exact execSweepTimeout_goesOn ..
  | configStage => exact execConfigStage_goesOn ..
  | configCommit => exact execConfigCommit_goesOn ..
  | configApply => exact execConfigApply_goesOn ..
  | configCommitTimeout => exact execConfigCommitTimeout_goesOn ..
  | dieDrain => exact execDieDrain_goesOn ..
  | drainTimeout => exact execDrainTimeout_goesOn ..
  | dieRepair => exact execDieRepair_goesOn ..
  | dieReturn => exact execDieReturn_goesOn ..
  | skimStart => exact execSkimStart_goesOn ..
  | skimStop => exact execSkimStop_goesOn ..
  | takeoverLoad => exact execTakeoverLoad_goesOn ..
  | query => exact execQuery_goesOn ..
  | logRead => exact execLogRead_goesOn ..
  | release => exact execRelease_goesOn ..
  | broadcast => exact execBroadcast_goesOn ..
  | waveHop => exact execWaveHop_goesOn ..
  | edgeWordWrite => exact execEdgeWordWrite_goesOn ..
  | waveAccumulate => exact execWaveAccumulate_goesOn ..
  | spillWriteback => exact execSpillWriteback_goesOn ..
  | patrolScrub => exact execPatrolScrub_goesOn ..
  | nearBankFault => exact execNearBankFault_goesOn ..
  | bankCopyDone => exact execBankCopyDone_goesOn ..
  | farParityFailure => exact execFarParityFailure_goesOn ..
  | farChannelFault => exact execFarChannelFault_goesOn ..
  | cellRowFault => exact execCellRowFault_goesOn ..
  | arrayFault => exact execArrayFault_goesOn ..
  | laneFault => exact execLaneFault_goesOn ..
  | seamSublinkFault => exact execSeamSublinkFault_goesOn ..
  | dmaComplexFault => exact execDmaComplexFault_goesOn ..
  | coreFault => exact execCoreFault_goesOn ..
  | switchTileFault => exact execSwitchTileFault_goesOn ..
  | recoveryDone => exact execRecoveryDone_goesOn ..
  | holdLeaseExpiry => exact execHoldLeaseExpiry_goesOn ..
  | bankLeaseExpiry => exact execBankLeaseExpiry_goesOn ..
  | idleSample => exact execIdleSample_goesOn ..
  | portDetect => exact execPortDetect_goesOn ..
  | trainingBlockReceive => exact execTrainingBlockReceive_goesOn ..
  | widthAttemptTimeout => exact execWidthAttemptTimeout_goesOn ..
  | roleWaitRetry => exact execRoleWaitRetry_goesOn ..
  | codewordReceive => exact execCodewordReceive_goesOn ..
  | dataFrame => exact execDataFrame_goesOn ..
  | creditFrame => exact execCreditFrame_goesOn ..
  | reduceFrame => exact execReduceFrame_goesOn ..
  | gatherFrame => exact execGatherFrame_goesOn ..
  | permuteFrame => exact execPermuteFrame_goesOn ..
  | verdictFrame => exact execVerdictFrame_goesOn ..
  | shardFrame => exact execShardFrame_goesOn ..
  | barrierFrame => exact execBarrierFrame_goesOn ..
  | checkpointFrame => exact execCheckpointFrame_goesOn ..
  | seqFrame => exact execSeqFrame_goesOn ..
  | setdasa => exact execSetdasa_goesOn ..
  | entdaa => exact execEntdaa_goesOn ..
  | setEndpointId => exact execSetEndpointId_goesOn ..
  | getVersion => exact execGetVersion_goesOn ..
  | getCapabilities => exact execGetCapabilities_goesOn ..
  | negotiateAlgorithms => exact execNegotiateAlgorithms_goesOn ..
  | getDigests => exact execGetDigests_goesOn ..
  | getCertificate => exact execGetCertificate_goesOn ..
  | challenge => exact execChallenge_goesOn ..
  | getMeasurements => exact execGetMeasurements_goesOn ..
  | spdmOtherRequest => exact execSpdmOtherRequest_goesOn ..
  | getSensorReading => exact execGetSensorReading_goesOn ..
  | queryDeviceIdentifiers => exact execQueryDeviceIdentifiers_goesOn ..
  | getFirmwareParameters => exact execGetFirmwareParameters_goesOn ..
  | requestUpdate => exact execRequestUpdate_goesOn ..
  | passComponentTable => exact execPassComponentTable_goesOn ..
  | updateComponent => exact execUpdateComponent_goesOn ..
  | requestFirmwareData => exact execRequestFirmwareData_goesOn ..
  | transferComplete => exact execTransferComplete_goesOn ..
  | verifyComplete => exact execVerifyComplete_goesOn ..
  | applyComplete => exact execApplyComplete_goesOn ..
  | activateFirmware => exact execActivateFirmware_goesOn ..
  | coreRestartDone => exact execCoreRestartDone_goesOn ..
  | getStatus => exact execGetStatus_goesOn ..
  | cancelUpdateComponent => exact execCancelUpdateComponent_goesOn ..
  | cancelUpdate => exact execCancelUpdate_goesOn ..
  | oemLogRead => exact execOemLogRead_goesOn ..
  | oemRegisterRead => exact execOemRegisterRead_goesOn ..
  | inputBelow30v => exact execInputBelow30v_goesOn ..
  | setEventReceiver => exact execSetEventReceiver_goesOn ..
  | calibrationDone => exact execCalibrationDone_goesOn ..
  | symbolLock => exact execSymbolLock_goesOn ..

/-- Settles O2: each command answers a next state in every branch of its meaning, and no update that a branch makes
touches the queue of coming commands. -/
theorem everyCommandGoesOn : Obligations.EveryCommandGoesOn := by
  unfold Obligations.EveryCommandGoesOn
  exact exec_goesOn

end Sys2Proof.Machine
end

section
/-! PROOF. What resets, input faults and the thermal trip leave of the state (chapters 18 and 19). -/

namespace Sys2Proof.Machine

variable {s : State}

theorem exec_inputBelow30v (dt : Nat) (s : State) : exec (.inputBelow30v dt) s = .next (s.advance dt).enterOff := rfl

theorem exec_inputFault (dt mv us : Nat) (s : State) : exec (.inputFault dt mv us) s = execInputFault dt mv us s := rfl

theorem exec_temperatureThreshold (dt : Nat) (die : ThermDie) (celsius : Nat) (s : State) :
    exec (.temperatureThreshold dt die celsius) s = execTemperatureThreshold dt die celsius s := rfl

/-- A level that the glitch filter always lets through acts, and no value is drawn for it (R441). -/
theorem pinActs_of_long {heldNs : Nat} (h : 100000 ≤ heldNs) : s.pinActs heldNs = (true, s) := by
  rw [State.pinActs, if_neg (by omega), if_pos h]

/-! ### Off -/

/-- Entering Off keeps what a pin's change does not touch: LostAll speaks of the flash, which both states share. -/
theorem lostAll_enterOff {u : State} (hpending : u.pending = s.pending) (hfresh : u.fresh = s.fresh)
    (hrecord : u.power.configRecord = s.power.configRecord) (howner : u.power.ownerKey = s.power.ownerKey)
    (hfw : u.power.fw = s.power.fw) : LostAll s u.enterOff := by
  have hstate : u.enterOff = { State.reset with
      pending := s.pending, fresh := s.fresh, power := u.enterOff.power } := by
    rw [← hpending, ← hfresh]
    rfl
  have hkeys : u.enterOff.power.fw.map (·.1) = s.power.fw.map (·.1) := by
    rw [← hfw]
    exact List.map_map
  exact ⟨hstate, rfl, rfl, rfl, rfl, hrecord, howner, hkeys⟩

/-- Settles O12: a level held that long passes the glitch filter, and the module enters Off. -/
theorem resetAndPowerOffLoseEverything : Obligations.ResetAndPowerOffLoseEverything := by
  intro level s hheld
  refine ⟨⟨_, ?_, lostAll_enterOff (u := { s.advance level.dt with power := { s.power with modReset := true } })
      rfl rfl rfl rfl rfl, rfl⟩,
    ⟨_, ?_, lostAll_enterOff (u := { s.advance level.dt with power := { s.power with pwrEn := false } })
      rfl rfl rfl rfl rfl, rfl⟩⟩
  · rw [exec_modResetAssert, execModResetAssert, pinActs_of_long hheld]
    rfl
  · rw [exec_pwrEnFall, execPwrEnFall, pinActs_of_long hheld]
    rfl

/-! ### Power leaves the dies -/

/-- The power state of a module that stops: no cause has to be kept for FAULT_N to be low (R400, R405, R438). -/
theorem stopDies_power (s : State) : s.stopDies.power = { s.power with
    phase := .stopped, ready := false, linkUp := false, pwrGood := false, diesPowered := false, faultLow := true
    thermAlert := s.power.thermalTrip, thermLow := s.power.thermalTrip } := rfl

/-- An input out of bounds for longer than its time (R400). -/
theorem inputFault_of_bad {mv us : Nat} (dt : Nat) (hon : s.power.phase ≠ .off)
    (hbad : (mv < 38000 ∧ 100 < us) ∨ (50000 < mv ∧ 10 < us)) : exec (.inputFault dt mv us) s =
      .next (State.stopDies { s.advance dt with power := { s.power with vin := mv, inputFault := true } }) := by
  rw [exec_inputFault, execInputFault]
  exact if_neg (by rcases hbad with ⟨hmv, hus⟩ | ⟨hmv, hus⟩ <;> simp [hmv, hus, hon])

/-! ### Temperatures -/

/-- A die of each kind takes its temperature. -/
def State.setTemp (s : State) (die : ThermDie) (celsius : Nat) : State :=
  match die with
  | .compute n => (s.modDie n (fun d => { d with tj := celsius })).thermCheck n
  | .stack f => s.modStack f (fun x => { x with temp := celsius, refreshDoubled := decide (85 < celsius) })
  | .other src => { s with power := { s.power with otherTemps := tabSet s.power.otherTemps src celsius } }

section Powered

variable (hpowered : s.power.diesPowered = true)

include hpowered

theorem temperatureThreshold_of_trip {celsius : Nat} (dt : Nat) (die : ThermDie) (h : 120 ≤ celsius) :
    exec (.temperatureThreshold dt die celsius) s = .next
      (let u := ((s.advance dt).setTemp die celsius).refreshTherm
      let v := State.stopDies { u with power := { u.power with thermalTrip := true, inputFault := true } }
      { v with power := { v.power with thermLow := true } }) := by
  rw [exec_temperatureThreshold]
  unfold execTemperatureThreshold
  exact (if_neg (by simp [hpowered])).trans (if_pos h)

theorem temperatureThreshold_of_below {celsius : Nat} (dt : Nat) (die : ThermDie) (h : celsius < 120) :
    exec (.temperatureThreshold dt die celsius) s = .next ((s.advance dt).setTemp die celsius).refreshTherm := by
  rw [exec_temperatureThreshold]
  unfold execTemperatureThreshold
  exact (if_neg (by simp [hpowered])).trans (if_neg (Nat.not_le.mpr h))

end Powered

/-- Settles O13: the input's guard holds, and power leaves every die by `stopDies`; below 30 V the module enters Off. -/
theorem faultsOfTheInputStopTheDies : Obligations.FaultsOfTheInputStopTheDies := by
  intro dt s
  refine ⟨⟨_, exec_inputBelow30v dt s, lostAll_enterOff rfl rfl rfl rfl rfl⟩, fun mv us hon hbad => ?input,
    fun n celsius hpowered htrip => ?trip⟩
  case input =>
    refine ⟨_, inputFault_of_bad dt hon hbad, ?_⟩
    rw [stopDies_power]
    exact ⟨rfl, rfl, rfl, rfl, rfl, rfl, rfl, rfl, rfl, rfl, rfl, rfl, rfl⟩
  case trip =>
    refine ⟨_, temperatureThreshold_of_trip hpowered dt (.compute n) htrip, ?_⟩
    dsimp only
    rw [stopDies_power]
    exact ⟨rfl, rfl, rfl, rfl, rfl, rfl, rfl, rfl⟩

/-! ### Temperatures below the trip -/

/-- A pause by the temperature changes nothing but the pauses and their count. -/
theorem thermPause_frame (s : State) (n celsius : Nat) : s.thermPause n celsius = { s with power := { s.power with
    thermPaused := (s.thermPause n celsius).power.thermPaused
    throttleEvents := (s.thermPause n celsius).power.throttleEvents } } := by
  unfold State.thermPause
  dsimp only
  split <;> rfl

/-- The pause of a die: from 105 °C, and held until 103 °C (R405). -/
theorem thermPause_testBit (s : State) {n : Nat} (hn : n < 12) (celsius : Nat) :
    (s.thermPause n celsius).power.thermPaused.toNat.testBit n =
      (decide (105 ≤ celsius) || (s.power.thermPaused.toNat.testBit n && decide (103 < celsius))) := by
  unfold State.thermPause
  dsimp only
  split
  · next h => exact h
  · have hbit : (BitVec.ofNat 12 (2 ^ n)).getLsbD n = true := by
      rw [BitVec.getLsbD_ofNat, Nat.testBit_two_pow_self, Bool.and_true]
      exact decide_eq_true hn
    rw [BitVec.testBit_toNat, BitVec.testBit_toNat]
    cases decide (105 ≤ celsius) || (s.power.thermPaused.getLsbD n && decide (103 < celsius))
    · simp only [Bool.false_eq_true, if_false, BitVec.getLsbD_and, BitVec.getLsbD_not, hbit, Bool.not_true, Bool.and_false]
    · simp only [if_true, BitVec.getLsbD_or, hbit, Bool.or_true]

/-- THERM_ALERT_N follows the temperatures, and nothing else changes (R405, R438). -/
theorem refreshTherm_alert {n : Nat} (hn : n < 12) (hhot : 100 ≤ (s.die n).tj) :
    s.refreshTherm.power.thermAlert = true ∧ s.refreshTherm.power.thermLow = true := by
  have hany : (List.range 12).any (fun n => decide (100 ≤ (s.die n).tj)) = true :=
    List.any_eq_true.mpr ⟨n, List.mem_range.mpr hn, decide_eq_true hhot⟩
  unfold State.refreshTherm
  simp only [hany, Bool.true_or, and_self]

theorem refreshTherm_die (s : State) (n : Nat) : s.refreshTherm.die n = s.die n := rfl

theorem refreshTherm_stack (s : State) (f : Nat) : s.refreshTherm.stack f = s.stack f := rfl

theorem thermPause_die (s : State) (n celsius m : Nat) : (s.thermPause n celsius).die m = s.die m := by
  rw [thermPause_frame]
  rfl

theorem setTemp_compute_eq (s : State) (n : Fin 12) (celsius : Nat) : s.setTemp (.compute n) celsius =
    (s.modDie n (fun d => { d with tj := celsius })).thermPause n celsius := by
  simp [State.setTemp, State.thermCheck]

theorem setTemp_stack_stack (s : State) (f : Fin 16) (celsius : Nat) : (s.setTemp (.stack f) celsius).refreshTherm.stack f =
    { s.stack f with temp := celsius, refreshDoubled := decide (85 < celsius) } := by
  unfold State.setTemp
  rw [refreshTherm_stack, modStack_stack]

theorem setTemp_stack_stack_ne (s : State) (f : Fin 16) (celsius : Nat) {g : Nat} (hg : g ≠ f) :
    (s.setTemp (.stack f) celsius).refreshTherm.stack g = s.stack g := by
  unfold State.setTemp
  rw [refreshTherm_stack, modStack_stack_ne _ _ _ _ hg]

theorem setTemp_compute_frame (s : State) (n : Fin 12) (celsius : Nat) {u : State}
    (hu : u = (s.setTemp (.compute n) celsius).refreshTherm) : u = { s with
      dies := u.dies
      power := { s.power with
        thermPaused := u.power.thermPaused, throttleEvents := u.power.throttleEvents
        thermAlert := u.power.thermAlert, thermLow := u.power.thermLow } } := by
  subst hu
  rw [setTemp_compute_eq, thermPause_frame]
  rfl

/-- Settles O14: the temperature is set first, the pause and THERM_ALERT_N follow it, and each touches its own fields. -/
theorem temperaturesAreHeldAndActedOn : Obligations.TemperaturesAreHeldAndActedOn := by
  intro dt s celsius hpowered hbelow
  refine ⟨fun n => ⟨_, temperatureThreshold_of_below hpowered dt (.compute n) hbelow, ?_⟩,
    fun f => ⟨_, temperatureThreshold_of_below hpowered dt (.stack f) hbelow, ?_⟩⟩
  · have hdie : ((s.advance dt).setTemp (.compute n) celsius).die n = { s.die n with tj := celsius } := by
      rw [setTemp_compute_eq, thermPause_die, modDie_die]
      rfl
    have hpause : ((s.advance dt).setTemp (.compute n) celsius).power.thermPaused.toNat.testBit n =
        (decide (105 ≤ celsius) || (s.power.thermPaused.toNat.testBit n && decide (103 < celsius))) := by
      rw [setTemp_compute_eq]
      exact thermPause_testBit _ n.isLt celsius
    refine ⟨congrArg Die.tj hdie, fun h => hpause.trans (by simp [h]), fun h => hpause.trans ?_,
      fun h => refreshTherm_alert n.isLt (hdie ▸ h), fun m hm => ?_, setTemp_compute_frame (s.advance dt) n celsius rfl⟩
    · simp [Nat.not_lt.mpr h]
      omega
    · rw [refreshTherm_die, setTemp_compute_eq, thermPause_die, modDie_die_ne _ _ _ _ hm]
      rfl
  · have hstack : ((s.advance dt).setTemp (.stack f) celsius).refreshTherm.stack f =
        { s.stack f with temp := celsius, refreshDoubled := decide (85 < celsius) } := setTemp_stack_stack ..
    exact ⟨congrArg Stack.temp hstack, congrArg Stack.refreshDoubled hstack,
      fun g hg => setTemp_stack_stack_ne (s.advance dt) f celsius hg, rfl⟩

end Sys2Proof.Machine
end

section
/-! PROOF. Reads of BAR0 (chapter 20): the register's value, and the reads that latch. -/

namespace Sys2Proof.Machine

variable {s : State}

/-- The answer of an aligned read of 8 bytes: what the register reads as once the latch is taken. -/
theorem barRead_eq (off : Nat) : s.barRead off 8 =
    { s.latchFor off with host := { (s.latchFor off).host with readData := (s.latchFor off).barWord off } } := rfl

/-- No latch takes a due close away: it concerns ring 0's commands, the Tidemark and the open step alone. -/
theorem host0_read {off : Nat} {v : W64} (hlink : s.power.linkUp = true) (halign : off % 8 = 0)
    (hheld : s.accessHeld false off = false) (hclose : (s.latchFor off).closeDue = s.closeDue) :
    s.host0 false off 8 v = .next (s.barRead off 8) := by
  have haccess : s.access false off 8 v = s.barRead off 8 := by
    rw [State.access, if_neg (by simp [halign]), hheld]
    rfl
  rw [host0_of_linkUp hlink, haccess, afterClose_of_closeDue_eq]
  exact (setReadData_closeDue (s.latchFor off) _).trans hclose

/-! ### The latching reads (R455) -/

theorem tideNowRead_of_linkUp (hlink : s.power.linkUp = true) : s.host0 false 0x1000 8 0 = .next { s with
    time := { s.time with latchHi := BitVec.ofNat 32 (s.tide / 2 ^ 32) }
    host := { s.host with readData := BitVec.ofNat 64 s.tide } } :=
  host0_read hlink rfl (by simp [State.accessHeld, closeReg, configReg, ctxReg]) rfl

theorem lastCommitTideRead_of_linkUp (hlink : s.power.linkUp = true) (hclose : s.closeDue = false)
    (happly : s.applyDue = false) : s.host0 false 0x1040 8 0 = .next { s with
      commit := { s.commit with latch := commitWords s }
      host := { s.host with readData := BitVec.ofNat 64 s.commit.lastCommitTide } } := by
  refine (host0_read hlink rfl (by simp [State.accessHeld, hclose, happly]) rfl).trans (congrArg _ ?_)
  have hword : (s.latchFor 0x1040).barWord 0x1040 = BitVec.ofNat 64 s.commit.lastCommitTide :=
    BitVec.ofNat_toNat ..
  rw [barRead_eq, hword]
  rfl

/-- Address of a context's sample of the idle counts. -/
def idleAddr (k : Nat) : Nat := 0x100000 + 0x1000 * k + 0x100

section IdleAddr

variable (k : Fin 16)

theorem idleAddr_range : 0x100100 ≤ idleAddr k ∧ idleAddr k < 0x110000 ∧ idleAddr k % 0x1000 = 0x100 ∧
    (idleAddr k - 0x100000) / 0x1000 = k := by
  have hk := k.isLt
  rw [idleAddr]
  omega

theorem latchFor_idleAddr : s.latchFor (idleAddr k) =
    s.modCtx k (fun x => { x with idleLatch := x.idleWords ++ [x.lastSample] }) := by
  obtain ⟨hlow, hhigh, hsample, hctx⟩ := idleAddr_range k
  have htide : idleAddr k ≠ 0x1000 ∧ idleAddr k ≠ 0x1040 := by omega
  have hblock : 0x100000 ≤ idleAddr k := by omega
  simp [State.latchFor, htide, hblock, hhigh, hsample, hctx]

theorem barWord_idleAddr : s.barWord (idleAddr k) = BitVec.ofNat 64 (s.ctx k).lastSample := by
  obtain ⟨hlow, hhigh, hsample, hctx⟩ := idleAddr_range k
  have hbelow (b : Nat) (hb : b ≤ 0x100000) : ¬ idleAddr k < b := by omega
  have hpba : idleAddr k ≠ 0x9000 := by omega
  have hblock : 0x100000 ≤ idleAddr k := by omega
  simp [State.barWord, State.ctxWord, hbelow, hpba, hblock, hhigh, hsample, hctx]

/-- The idle counts are no part of what a close or a configuration apply changes (R52). -/
theorem accessHeld_idleAddr : s.accessHeld false (idleAddr k) = false := by
  obtain ⟨hlow, hhigh, hsample, hctx⟩ := idleAddr_range k
  have hbelow (b : Nat) (hb : b ≤ 0x100000) : ¬ idleAddr k < b := by omega
  have habove (b : Nat) (hb : 0x110000 ≤ b) : ¬ b ≤ idleAddr k := by omega
  simp [State.accessHeld, closeReg, configReg, ctxReg, hbelow, habove, hsample]

theorem idleSnapTideRead_of_linkUp (hlink : s.power.linkUp = true) : s.host0 false (idleAddr k) 8 0 =
    .next (let t := s.modCtx k (fun x => { x with idleLatch := x.idleWords ++ [x.lastSample] })
      { t with host := { s.host with readData := BitVec.ofNat 64 (t.ctx k).lastSample } }) := by
  have halign : idleAddr k % 8 = 0 := by rw [idleAddr]; omega
  have hclose : (s.latchFor (idleAddr k)).closeDue = s.closeDue := by rw [latchFor_idleAddr]; rfl
  rw [host0_read hlink halign (accessHeld_idleAddr k) hclose, barRead_eq, latchFor_idleAddr, barWord_idleAddr]
  rfl

end IdleAddr

/-! ### The first word of a slot (R76) -/

section HeldSlot

variable {r : Fin 17} {k : Fin 1024} {x : Slot} (hheld : s.slot r k = some x)

include hheld

/-- The read counts itself, and its snapshot holds the count. -/
theorem readSlot0_of_held : s.readSlot0 r k =
    (s.setSlot r k { x with readCount := satAdd 16 x.readCount 1 }).modRing r
      (fun y => { y with window := some (k.val, slotWords r (some { x with readCount := satAdd 16 x.readCount 1 })) }) := by
  rw [State.readSlot0, hheld]
  rfl

theorem readSlot0_slot : (s.readSlot0 r k).slot r k = some { x with readCount := satAdd 16 x.readCount 1 } := by
  rw [readSlot0_of_held hheld]
  exact setSlot_slot ..

theorem readSlot0_slot_ne {r' k' : Nat} (h : slotKey r' k' ≠ slotKey r k) :
    (s.readSlot0 r k).slot r' k' = s.slot r' k' := by
  rw [readSlot0_of_held hheld]
  exact setSlot_slot_ne _ _ _ _ _ _ h

theorem readSlot0_frame : s.readSlot0 r k = { s with host := (s.readSlot0 r k).host } := by
  rw [readSlot0_of_held hheld]
  rfl

theorem readSlot0_closeDue : (s.readSlot0 r k).closeDue = s.closeDue := by
  rw [readSlot0_of_held hheld]
  exact (sameButRing_modRing ..).closeDue (by rw [modRing_ring])

theorem readSlot0_slotWord : (s.readSlot0 r k).slotWord r k 0 =
    (slotWords r (some { x with readCount := satAdd 16 x.readCount 1 })).getD 0 0 := by
  rw [readSlot0_of_held hheld, State.slotWord, modRing_ring]
  exact if_pos rfl

theorem slotRead_of_held (hlink : s.power.linkUp = true) (hserved : s.ringPaused r = false) :
    s.host0 false (slotAddr r k) 8 0 = .next { s.readSlot0 r k with host := { (s.readSlot0 r k).host with
      readData := (slotWords r (some { x with readCount := satAdd 16 x.readCount 1 })).getD 0 0 } } := by
  obtain ⟨hlow, hhigh⟩ := slotAddr_range r k
  have halign : slotAddr r k % 8 = 0 := by rw [slotAddr]; omega
  have hfree : s.accessHeld false (slotAddr r k) = false := by
    rw [accessHeld_of_slot hlow hhigh, slotAddr_ring, hserved]
  have hlatch : s.latchFor (slotAddr r k) = s.readSlot0 r k := by
    rw [latchFor_of_slot hlow hhigh (slotAddr_first r k), slotAddr_ring, slotAddr_slot]
  have hword : (s.readSlot0 r k).barWord (slotAddr r k) =
      (slotWords r (some { x with readCount := satAdd 16 x.readCount 1 })).getD 0 0 := by
    rw [barWord_of_slot hlow hhigh, slotAddr_ring, slotAddr_slot, slotAddr_first]
    exact readSlot0_slotWord hheld
  rw [host0_read hlink halign hfree (by rw [hlatch, readSlot0_closeDue hheld]), barRead_eq, hlatch, hword]

end HeldSlot

/-- Settles O20: each read by what its latch leaves and what the register then reads as; none of the latches can take a
due close away, so that nothing held goes on. -/
theorem readsAnswerTheRegister : Obligations.ReadsAnswerTheRegister := by
  intro dt s hlink
  have hlink' : (s.advance dt).power.linkUp = true := hlink
  refine ⟨fun off v halign hheld hlatch => ?_, tideNowRead_of_linkUp hlink', lastCommitTideRead_of_linkUp hlink',
    fun k => ?_, fun r k x hserved hheld => ?_⟩
  · rw [exec_barAccess, host0_read hlink' halign hheld (congrArg _ hlatch), barRead_eq, hlatch]
    rfl
  · have hctx : ((s.advance dt).modCtx k (fun x => { x with idleLatch := x.idleWords ++ [x.lastSample] })).ctx k =
        { s.ctx k with idleLatch := (s.ctx k).idleWords ++ [(s.ctx k).lastSample] } := modCtx_ctx ..
    exact ⟨_, idleSnapTideRead_of_linkUp k hlink',
      congrArg (fun x : Ctx => { s.host with readData := BitVec.ofNat 64 x.lastSample }) hctx,
      congrArg Ctx.idleLatch hctx, rfl⟩
  · have hheld' : (s.advance dt).slot r k = some x := hheld
    have hslot := readSlot0_slot hheld'
    refine ⟨_, (exec_slotRead dt r k s).trans (slotRead_of_held hheld' hlink' hserved), hslot, ?_, ?_,
      fun r' k' h => readSlot0_slot_ne hheld' h⟩
    · exact congrArg (fun y => (slotWords r y).getD 0 0) hslot.symm
    · rw [readSlot0_frame hheld']

end Sys2Proof.Machine
end

section
/-! PROOF. The register writes of chapter 20 beside the rings, and SKIM_RD. -/

namespace Sys2Proof.Machine

variable {s t : State}

/-! ### Writes of 8 bytes that no pause of a ring's core holds (R464) -/

section Aligned

variable {off : Nat} {v : W64} (hlink : s.power.linkUp = true) (halign : off % 8 = 0)
  (hother : off < 0x10000 ∨ 0x11100 ≤ off)

include hlink halign hother

theorem access_write : s.access true off 8 v = s.barWrite off 8 v := by
  have hheld : s.accessHeld true off = false := by
    simp [State.accessHeld]
    omega
  rw [State.access, if_neg (by simp [halign]), hheld]
  rfl

/-- A write that a register takes, and that takes no due close away, is all that happens. -/
theorem host0_write (hwrite : s.tryWrite off 8 v = some t) (hclose : t.closeDue = s.closeDue) :
    s.host0 true off 8 v = .next t := by
  have hbar : s.barWrite off 8 v = t := by rw [State.barWrite, hwrite]
  rw [host0_of_linkUp hlink, access_write hlink halign hother, hbar, afterClose_of_closeDue_eq hclose]

/-- A write that no register takes is recorded (R453). -/
theorem host0_discarded (hwrite : s.tryWrite off 8 v = none) :
    s.host0 true off 8 v = .next (s.discardedWrite off v) := by
  have hbar : s.barWrite off 8 v = s.discardedWrite off v := by rw [State.barWrite, hwrite]
  rw [host0_of_linkUp hlink, access_write hlink halign hother, hbar,
    afterClose_of_closeDue_eq ((sameButRing_discardedWrite s 0 off v).closeDue (by rw [discardedWrite_ring]))]

end Aligned

/-! ### SKIM_RD (R463) -/

theorem exec_skimRdWrite (dt : Nat) (v : W64) (s : State) :
    exec (.skimRdWrite dt v) s = (s.advance dt).host0 true 0x10D0 8 v := rfl

theorem tryWrite_skimRd (v : W64) : s.tryWrite 0x10D0 8 v =
    if s.skim.rd.toNat ≤ v.toNat ∧ v.toNat ≤ s.skim.wr.toNat then some { s with skim := { s.skim with rd := v } }
    else none := by
  simp [State.tryWrite, State.writeTide, regPart, BitVec.ule]

theorem complete_skim (s : State) (c : Cmd) (st : Status) (detail : Nat) (body : List Byte) :
    (s.complete c st detail body).skim = s.skim := by
  rw [complete_frame]

section SkimPointers

variable {dt : Nat} {u : State} {c : Cmd}

/-- SKIM_STOP leaves both counters, whether a stream runs or not. -/
theorem skimStop_counters (h : exec (.skimStop dt) s = .next t) :
    t.skim.wr = s.skim.wr ∧ t.skim.rd = s.skim.rd := by
  cases htake : (s.advance dt).take 0 0x81 with
  | none =>
    rw [exec_skimStop, execSkimStop, htake] at h
    cases h
    exact ⟨rfl, rfl⟩
  | some x =>
    obtain ⟨c, u⟩ := x
    have hstart : Starts s dt 0 0x81 c u := htake
    rw [skimStop_of_start hstart] at h
    cases h
    split
    · rw [setWait_skim, ← hstart.skim]
      exact ⟨rfl, rfl⟩
    · rw [complete_skim, hstart.skim]
      exact ⟨rfl, rfl⟩

/-- A SKIM_START that has a stream run where none did has set both counters to 0: a failed check leaves the stream. -/
theorem skimStart_counters (hstart : Starts s dt 0 0x80 c u) (h : exec (.skimStart dt) s = .next t)
    (hidle : s.skim.running = false) (hrun : t.skim.running = true) : t.skim.wr = 0 ∧ t.skim.rd = 0 := by
  have hidle' : u.skim.running = false := by rw [hstart.skim, hidle]
  rw [exec_skimStart, execSkimStart, hstart.take] at h
  dsimp only at h
  split at h
  · cases h
    rw [State.badParam, complete_skim, hidle'] at hrun
    cases hrun
  · rw [hidle'] at h
    cases h
    rw [complete_skim]
    exact ⟨rfl, rfl⟩

end SkimPointers

/-- Settles O25: SKIM_RD by its one comparison; SKIM_STOP and SKIM_START by what each leaves of the stream. -/
theorem skimReadPointer : Obligations.SkimReadPointer := by
  refine ⟨fun dt v s hlink => ⟨fun hlow hhigh => ?taken, fun hout => ?discarded⟩, fun dt s t => skimStop_counters,
    fun dt s t u c => skimStart_counters⟩
  case taken =>
    have hwrite := (tryWrite_skimRd (s := s.advance dt) v).trans (if_pos ⟨hlow, hhigh⟩)
    exact (exec_skimRdWrite dt v s).trans (host0_write hlink rfl (.inl (by decide)) hwrite rfl)
  case discarded =>
    have hwrite := (tryWrite_skimRd (s := s.advance dt) v).trans
      (if_neg (fun h => hout.elim (Nat.not_lt.mpr h.1) (Nat.not_lt.mpr h.2)))
    exact (exec_skimRdWrite dt v s).trans (host0_discarded hlink rfl (.inl (by decide)) hwrite)

end Sys2Proof.Machine
end

section
/-! PROOF. The firmware update and the rotation of the cores (chapter 18). -/

namespace Sys2Proof.Machine

variable {s : State}

/-! ### Requests of the update (R425) -/

theorem update_of_contains {states : List Nat} (h : states.contains s.mgmt.updState = true) (f : State → State) :
    s.update states f = f s := if_pos h

theorem update_of_none {states : List Nat} (hnone : s.mgmt.updState = 0) (h : states.contains 0 = false)
    (f : State → State) : s.update states f = s.reply pldmNotInUpdate [] :=
  (if_neg (by rw [hnone, h]; decide)).trans (if_pos hnone)

/-- The components that have an index: those with two slots, and the two records (R425). -/
theorem componentIndex_of_slot {component : Nat} (h1 : 1 ≤ component) (h6 : component ≤ 6) :
    componentIndex component = some (component - 1) := if_pos (by simp [h1, h6])

theorem componentIndex_isSome {component : Nat}
    (h : (1 ≤ component ∧ component ≤ 6) ∨ component = 0x10 ∨ component = 0x11) :
    (componentIndex component).isSome = true := by
  rcases h with ⟨h1, h6⟩ | rfl | rfl
  · rw [componentIndex_of_slot h1 h6]
    rfl
  · rfl
  · rfl

section Serving

variable {dt : Nat} (hon : s.power.phase ≠ .off)

include hon

theorem updateRequest_of_contains {states : List Nat} (h : states.contains s.mgmt.updState = true)
    (f : State → State) : (s.advance dt).serve (fun s => s.update states f) = .next (f (s.advance dt)) :=
  (serve_of_on (s := s.advance dt) hon _).trans (congrArg _ (update_of_contains (s := s.advance dt) h f))

theorem requestUpdate_of_idle (max : Nat) (hidle : s.mgmt.updState = 0) : exec (.requestUpdate dt max) s =
    .next (({ s.advance dt with mgmt := { s.mgmt with
      updState := 1, updMax := min max 4096, updTable := [], updComponent := none, updData := []
      updImage := none } } : State).reply 0 []) := by
  change execRequestUpdate dt max s = _
  refine (serve_of_on (s := s.advance dt) hon _).trans ?_
  exact congrArg _ (if_neg (not_not.mpr hidle))

theorem requestUpdate_of_begun (max : Nat) (hbegun : s.mgmt.updState ≠ 0) :
    exec (.requestUpdate dt max) s = .next ((s.advance dt).reply pldmInUpdate []) := by
  change execRequestUpdate dt max s = _
  refine (serve_of_on (s := s.advance dt) hon _).trans ?_
  exact congrArg _ (if_pos hbegun)

theorem passComponentTable_of_known {component : Nat}
    (hknown : (1 ≤ component ∧ component ≤ 6) ∨ component = 0x10 ∨ component = 0x11)
    (hstate : s.mgmt.updState = 1 ∨ s.mgmt.updState = 2) : exec (.passComponentTable dt component) s =
      .next (({ s.advance dt with mgmt := { s.mgmt with
        updState := 2, updTable := s.mgmt.updTable ++ [component] } } : State).reply 0 []) := by
  change execPassComponentTable dt component s = _
  refine (updateRequest_of_contains hon (by rcases hstate with h | h <;> rw [h] <;> rfl) _).trans (congrArg _ (if_neg ?_))
  rw [Option.isNone_eq_false_iff.mpr (componentIndex_isSome hknown)]
  exact Bool.false_ne_true

theorem updateComponent_of_listed {component : Nat} (size : Nat) (hstate : s.mgmt.updState = 2)
    (hlisted : component ∈ s.mgmt.updTable) : exec (.updateComponent dt component size) s =
      .next (({ s.advance dt with mgmt := { s.mgmt with
        updState := 3, updComponent := some component, updSize := size, updData := [] } } : State).reply 0 []) := by
  change execUpdateComponent dt component size s = _
  refine (updateRequest_of_contains hon (by rw [hstate]; rfl) _).trans (congrArg _ (if_neg ?_))
  simp [hlisted]

/-- What a transfer holds after data at an offset. -/
def withData (old : List Byte) (off : Nat) (data : List Byte) : List Byte :=
  padTo off old ++ data ++ old.drop (off + data.length)

theorem requestFirmwareData_of_fits {off : Nat} {data : List Byte} (hstate : s.mgmt.updState = 3)
    (hmax : data.length ≤ s.mgmt.updMax) (hsize : off + data.length ≤ s.mgmt.updSize) :
    exec (.requestFirmwareData dt off data) s = .next { (s.advance dt).writeSlot none with
      mgmt := { ((s.advance dt).writeSlot none).mgmt with
        updData := withData ((s.advance dt).writeSlot none).mgmt.updData off data } } := by
  change execRequestFirmwareData dt off data s = _
  refine (serve_of_on (s := s.advance dt) hon _).trans (congrArg _ (if_neg ?_))
  simp [hstate, Nat.not_lt.mpr hmax, Nat.not_lt.mpr hsize]

theorem transferComplete_of_whole (hstate : s.mgmt.updState = 3) (hwhole : s.mgmt.updData.length = s.mgmt.updSize) :
    exec (.transferComplete dt true) s =
      .next (({ s.advance dt with mgmt := { s.mgmt with updState := 4 } } : State).reply 0 []) := by
  change execTransferComplete dt true s = _
  refine (updateRequest_of_contains hon (by rw [hstate]; rfl) _).trans (congrArg _ (if_pos ?_))
  simp [hwhole]

theorem transferComplete_of_failed (hstate : s.mgmt.updState = 3) : exec (.transferComplete dt false) s =
    .next (({ s.advance dt with mgmt := { s.mgmt with
      updState := 2, updComponent := none, updData := [] } } : State).reply 1 []) := by
  change execTransferComplete dt false s = _
  exact updateRequest_of_contains hon (by rw [hstate]; rfl) _

theorem verifyComplete_of_transferred (img : ImageIn) {v : State} (hstate : s.mgmt.updState = 4)
    (hv : v = (s.advance dt).writeSlot (if ImageIn.bytes img = s.mgmt.updData then some img else none)) :
    exec (.verifyComplete dt img) s = .next (if v.verifyOk (s.mgmt.updComponent.getD 0) img then
        ({ v with mgmt := { v.mgmt with updState := 5, updImage := some img } } : State).reply 0 []
      else ({ v with mgmt := { v.mgmt with updState := 2, updComponent := none, updData := [] } } : State).reply 1 []) := by
  subst hv
  change execVerifyComplete dt img s = _
  exact updateRequest_of_contains hon (by rw [hstate]; rfl) _

theorem applyComplete_of_verified {img : ImageIn} {component : Nat} (hstate : s.mgmt.updState = 5)
    (himage : s.mgmt.updImage = some img) (hcomponent : s.mgmt.updComponent = some component) :
    exec (.applyComplete dt) s = .next (({ (s.advance dt).applyComponent component img with
      mgmt := { ((s.advance dt).applyComponent component img).mgmt with
        updState := 2, updComponent := none, updData := [], updImage := none } } : State).reply 0 []) := by
  change execApplyComplete dt s = _
  refine (updateRequest_of_contains hon (by rw [hstate]; rfl) _).trans ?_
  rw [advance_mgmt, himage, hcomponent]
  rfl

theorem cancelUpdateComponent_of_begun (hstate : s.mgmt.updState = 3 ∨ s.mgmt.updState = 4 ∨ s.mgmt.updState = 5) :
    exec (.cancelUpdateComponent dt) s = .next (({ s.advance dt with mgmt := { s.mgmt with
      updState := 2, updComponent := none, updData := [], updImage := none } } : State).reply 0 []) := by
  change execCancelUpdateComponent dt s = _
  exact updateRequest_of_contains hon (by rcases hstate with h | h | h <;> rw [h] <;> rfl) _

theorem cancelUpdate_of_begun (hlow : 1 ≤ s.mgmt.updState) (hhigh : s.mgmt.updState ≤ 5) :
    exec (.cancelUpdate dt) s = .next (({ s.advance dt with mgmt := { s.mgmt with
      updState := 0, updComponent := none, updTable := [], updData := [], updImage := none } } : State).reply 0 []) := by
  change execCancelUpdate dt s = _
  refine updateRequest_of_contains hon ?_ _
  rw [List.contains_iff_mem]
  simp only [List.mem_cons, List.not_mem_nil, or_false]
  omega

theorem cancelUpdate_of_idle (hidle : s.mgmt.updState = 0) :
    exec (.cancelUpdate dt) s = .next ((s.advance dt).reply pldmNotInUpdate []) := by
  change execCancelUpdate dt s = _
  exact (serve_of_on (s := s.advance dt) hon _).trans
    (congrArg _ (update_of_none (s := s.advance dt) hidle (by decide) _))

/-! ### ACTIVATE_FIRMWARE (R428) -/

theorem activateFirmware_of_update (self : Bool) (hstate : s.mgmt.updState = 2) {t : State}
    (ht : t = ({ s.advance dt with mgmt := { s.mgmt with updState := 0, updTable := [] } } : State).reply 0 []) :
    exec (.activateFirmware dt self) s =
      .next (if self && t.power.ready && (tabGet {} t.power.fw 1).pending && t.host.rotation.isNone then
        t.startRotation else t) := by
  subst ht
  change execActivateFirmware dt self s = _
  exact updateRequest_of_contains hon (by rw [hstate]; rfl) _

end Serving

/-! ### A response changes the management state alone -/

theorem reply_frame (s : State) (code : Nat) (body : List Byte) :
    s.reply code body = { s with mgmt := (s.reply code body).mgmt } := by
  unfold State.reply
  split <;> rfl

/-! ### The inactive slot (R412, R425) -/

theorem writeSlot_frame (s : State) (img : Option ImageIn) :
    s.writeSlot img = { s with power := { s.power with fw := (s.writeSlot img).power.fw } } := by
  unfold State.writeSlot
  split <;> rfl

theorem writeSlot_of_slot {component : Nat} (hcomponent : s.mgmt.updComponent = some component) (h1 : 1 ≤ component)
    (h6 : component ≤ 6) (img : Option ImageIn) : (s.writeSlot img).power.fw =
      tabMod {} s.power.fw (component - 1) (fun f =>
        if f.activeB then { f with imageA := img, pending := false } else { f with imageB := img, pending := false }) := by
  have hslot : (s.mgmt.updComponent.bind componentIndex).filter (fun n => decide (n < 6)) = some (component - 1) := by
    rw [hcomponent, Option.bind_some, componentIndex_of_slot h1 h6]
    exact if_pos (decide_eq_true (by omega))
  rw [State.writeSlot, hslot]

/-! ### The data of a transfer -/

theorem padTo_length (n : Nat) (bs : List Byte) : (padTo n bs).length = n := by
  simp [padTo]
  omega

/-- The data stand at their offset. -/
theorem withData_at (old : List Byte) (off : Nat) (data : List Byte) :
    ((withData old off data).drop off).take data.length = data := by
  rw [withData, List.append_assoc, List.drop_left' (padTo_length off old), List.take_left' rfl]

/-- Data that follow what is there extend it. -/
theorem withData_next (old data : List Byte) : withData old old.length data = old ++ data := by
  simp [withData, padTo]

/-! ### The component that is applied (R420, R425) -/

theorem applyComponent_frame (s : State) (component : Nat) (img : ImageIn) :
    s.applyComponent component img = { s with power := (s.applyComponent component img).power } := by
  unfold State.applyComponent
  split
  · split <;> rfl
  · rfl

theorem applyComponent_owner {img : ImageIn} (hkey : img.key ≠ []) : (s.applyComponent 0x11 img).power =
    { s.power with ownerKey := img.key, ownerSerial := img.svn } := by
  have hkey' : img.key.isEmpty = false := by rwa [List.isEmpty_eq_false_iff]
  simp [State.applyComponent, hkey']

theorem applyComponent_slot {component : Nat} (h1 : 1 ≤ component) (h6 : component ≤ 6) (img : ImageIn) :
    (s.applyComponent component img).power = { s.power with
      fw := tabMod {} s.power.fw (component - 1) (fun f => { f with pending := true }) } := by
  have hrecord : ¬ component - 1 = 6 := by omega
  rw [State.applyComponent, if_neg (by omega), componentIndex_of_slot h1 h6]
  simp [hrecord]

/-! ### The rotation of the cores (R428) -/

theorem startRotation_of_standby {x : Nat} (h : s.host.standby = some x) :
    s.startRotation.host.restarting = some x ∧ s.startRotation.host.standby = none ∧
      s.startRotation.host.rotation.isSome = true ∧ s.startRotation.host.rings = s.host.rings ∧
      (∀ img, (tabGet {} s.power.fw 1).waiting = some img →
        s.startRotation.power = (s.record 3 (ImageIn.bytes img)).power) ∧
      ((tabGet {} s.power.fw 1).waiting = none → s.startRotation.power = s.power) := by
  rw [State.startRotation, h]
  cases (tabGet ({} : FwState) s.power.fw 1).waiting with
  | none =>
    refine ⟨rfl, rfl, rfl, rfl, fun img himg => ?_, fun _ => rfl⟩
    cases himg
  | some i =>
    refine ⟨rfl, rfl, rfl, rfl, fun img himg => ?_, fun hnone => ?_⟩
    · cases himg
      rfl
    · cases hnone

theorem exec_coreRestartDone (dt : Nat) (core : Fin 6) (s : State) :
    exec (.coreRestartDone dt core) s = execCoreRestartDone dt core s := rfl

/-- The core has restarted, and is the standby on the new image. -/
def State.restarted (s : State) (core : Nat) : State :=
  { s with host := { s.host with restarting := none, standby := some core, newImage := s.host.newImage ++ [core] } }

section Restart

variable {dt : Nat} {core : Fin 6}

/-- A core whose fault is being recovered holds the rotation up (R385). -/
theorem coreRestartDone_of_recovering (h : ∃ r ∈ s.log.recoveries, r.cls = 8) :
    exec (.coreRestartDone dt core) s = .next (s.advance dt) := by
  obtain ⟨r, hr, hcls⟩ := h
  have hany : s.log.recoveries.any (fun r => r.cls == 8) = true := List.any_eq_true.mpr ⟨r, hr, beq_iff_eq.mpr hcls⟩
  rw [exec_coreRestartDone, execCoreRestartDone]
  exact if_pos (by rw [advance_log, hany]; exact Bool.or_true _)

theorem coreRestartDone_of_restarting (hcore : s.host.restarting = some core.val)
    (hfree : ∀ r ∈ s.log.recoveries, r.cls ≠ 8) : exec (.coreRestartDone dt core) s =
      .next ((s.advance dt).restarted core).rotateOn.replayHeldBar := by
  have hany : s.log.recoveries.any (fun r => r.cls == 8) = false := by
    rw [List.any_eq_false]
    exact fun r hr h => hfree r hr (beq_iff_eq.mp h)
  rw [exec_coreRestartDone, execCoreRestartDone]
  exact if_neg (by rw [advance_log, hany, advance_host, hcore]; simp)

end Restart

/-- With no access held, none is replayed. -/
theorem replayHeldBar_of_no_held (h : s.host.held = []) : s.replayHeldBar = s := by
  rw [State.replayHeldBar, h, List.foldl_nil, ← h]

/-- The last core has restarted. -/
theorem rotateOn_of_done (h : s.host.rotation = some []) : s.rotateOn = s.endRotation := by
  rw [State.rotateOn, h]
  rfl

/-- The next core hands its rings to the standby core. -/
theorem rotateOn_of_next {c x : Nat} {rest : List Nat} (h : s.host.rotation = some (c :: rest))
    (hfailed : s.host.failedCores = []) (hstandby : s.host.standby = some x) : s.rotateOn =
      { s.handOver c x with host := { (s.handOver c x).host with
        standby := none, restarting := some c, rotation := some (rest.filter (fun _ => true)) } } := by
  rw [State.rotateOn, h]
  simp [hfailed, hstandby]

/-- Rings named once in a list take the new core, the others keep theirs. -/
theorem foldl_setCore_ring (core q : Nat) (rs : List Nat) (s : State) :
    ((rs.foldl (fun st r => st.modRing r (fun x => { x with core := core })) s).ring q).core =
      if q ∈ rs then core else (s.ring q).core := by
  induction rs generalizing s with
  | nil => rfl
  | cons r rs ih =>
    rw [List.foldl_cons, ih]
    by_cases hq : q = r
    · subst hq
      simp
    · rw [modRing_ring_ne _ _ _ _ hq]
      simp [hq]

theorem handOver_ring {q : Nat} (hq : q < 17) (c x : Nat) :
    ((s.handOver c x).ring q).core = if (s.ring q).core = c then x else (s.ring q).core := by
  rw [State.handOver, foldl_setCore_ring]
  simp [State.ringsOf, hq]

/-- A hand-over touches rings alone. -/
theorem handOver_frame (s : State) (c x : Nat) :
    s.handOver c x = { s with host := { s.host with rings := (s.handOver c x).host.rings } } :=
  foldl_keeps (R := fun s t => t = { s with host := { s.host with rings := t.host.rings } }) (fun _ => rfl)
    (fun _ _ _ hst htu => by rw [htu, hst]) (fun _ _ => rfl) _ s

section Rotation

variable {dt : Nat} {core : Fin 6} (hcore : s.host.restarting = some core.val) (hfree : ∀ r ∈ s.log.recoveries, r.cls ≠ 8)
  (hheld : s.host.held = [])

include hcore hfree hheld

theorem coreRestartDone_of_last (hlast : s.host.rotation = some []) :
    ∃ t, exec (.coreRestartDone dt core) s = .next t ∧ t.host.standby = some core.val ∧ t.host.restarting = none ∧
      t.host.rotation = none ∧ (tabGet {} t.power.fw 1).activeB = !(tabGet {} s.power.fw 1).activeB ∧
      (tabGet {} t.power.fw 1).pending = false := by
  refine ⟨_, coreRestartDone_of_restarting hcore hfree, ?_⟩
  rw [rotateOn_of_done (s := (s.advance dt).restarted core) hlast,
    replayHeldBar_of_no_held (s := ((s.advance dt).restarted core).endRotation) hheld]
  have hfw (f : FwState) : tabGet {} (tabSet s.power.fw 1 f) 1 = f := tabGet_tabSet_same ..
  exact ⟨rfl, rfl, rfl, congrArg FwState.activeB (hfw _), congrArg FwState.pending (hfw _)⟩

theorem coreRestartDone_of_next {x : Nat} {rest : List Nat} (hfailed : s.host.failedCores = [])
    (hnext : s.host.rotation = some (x :: rest)) : ∃ t, exec (.coreRestartDone dt core) s = .next t ∧
      t.host.restarting = some x ∧ t.host.standby = none ∧ t.host.rotation = some rest ∧
      (∀ q, q < 17 → (t.ring q).core = (if (s.ring q).core = x then core.val else (s.ring q).core)) := by
  refine ⟨_, coreRestartDone_of_restarting hcore hfree, ?_⟩
  rw [rotateOn_of_next (s := (s.advance dt).restarted core) hnext hfailed rfl, replayHeldBar_of_no_held ?held]
  case held =>
    rw [handOver_frame]
    exact hheld
  exact ⟨rfl, rfl, congrArg some (List.filter_true rest), fun q hq => handOver_ring hq x core⟩

end Rotation

/-- Settles O60: each request by the state of the update that it finds, what it then leaves, and its response; a core's
restart by what is left of the rotation. -/
theorem firmwareUpdatesRun : Obligations.FirmwareUpdatesRun := by
  unfold Obligations.FirmwareUpdatesRun
  rintro dt s u m hon rfl rfl
  refine ⟨serve_of_on (s := s.advance dt) hon _, serve_of_on (s := s.advance dt) hon _,
    serve_of_on (s := s.advance dt) hon _,
    fun max => ⟨requestUpdate_of_idle hon max, requestUpdate_of_begun hon max⟩,
    fun component hknown hstate => passComponentTable_of_known hon hknown hstate,
    fun component size hstate hlisted => updateComponent_of_listed hon size hstate hlisted,
    fun off data hstate hmax hsize => ?data,
    fun hstate => ⟨transferComplete_of_whole hon hstate, transferComplete_of_failed hon hstate⟩,
    fun img v hstate hv => ?verify, fun v component img f hcomponent h1 h6 hf => ?slot,
    fun img component hstate himage hcomponent => ?apply, cancelUpdateComponent_of_begun hon,
    cancelUpdate_of_begun hon, cancelUpdate_of_idle hon, fun hstate => activateFirmware_of_update hon false hstate rfl,
    fun x hstate hready hpending hnone hstandby => ?activate,
    fun core hcore hfailed hheld => ⟨coreRestartDone_of_recovering, fun hfree =>
      ⟨coreRestartDone_of_last hcore hfree hheld, fun x rest hnext _ =>
        coreRestartDone_of_next hcore hfree hheld hfailed hnext⟩⟩⟩
  case data =>
    have hdata : ((s.advance dt).writeSlot none).mgmt = s.mgmt := by rw [writeSlot_frame]; rfl
    refine ⟨_, requestFirmwareData_of_fits hon hstate hmax hsize, ?_, withData_at .., fun hnext => ?_⟩
    · rw [hdata]
    · rw [hdata, hnext]
      exact withData_next ..
  case verify =>
    have hmgmt : v.mgmt = s.mgmt := by rw [hv, writeSlot_frame]; rfl
    rw [verifyComplete_of_transferred hon img hstate hv, hmgmt]
  case slot =>
    rw [writeSlot_of_slot hcomponent h1 h6, tabGet_tabMod_same, ← hf]
    exact ⟨rfl, fun n hn => tabGet_tabMod_ne _ _ _ _ _ hn, by
      rw [← writeSlot_of_slot hcomponent h1 h6]; exact writeSlot_frame v img⟩
  case apply =>
    have hpower : ∀ a : State, (a.reply 0 []).power = a.power := fun a => by rw [reply_frame]
    refine ⟨_, applyComplete_of_verified hon hstate himage hcomponent, ?_, fun howner hkey => ?_, fun h1 h6 => ?_,
      fun hrecord => ?_⟩
    · rw [hpower]
      conv_lhs => rw [applyComponent_frame]
      rfl
    · rw [hpower, howner, applyComponent_owner hkey]
      exact ⟨rfl, rfl⟩
    · rw [hpower, applyComponent_slot h1 h6]
      refine ⟨?_, rfl, rfl⟩
      dsimp only
      rw [tabGet_tabMod_same]
      rfl
    · rw [hpower, hrecord]
      rfl
  case activate =>
    have hexec := activateFirmware_of_update (dt := dt) hon true hstate rfl
    rw [reply_frame] at hexec
    rw [if_pos (by simp [hready, hpending, hnone])] at hexec
    refine ⟨_, hexec, ?_⟩
    exact startRotation_of_standby (by exact hstandby)

end Sys2Proof.Machine
end

section
/-! PROOF. Registers of the log, stops of DMA channels, and the unmasking of MSI-X vectors (chapters 16, 17 and 20). -/

namespace Sys2Proof.Machine

variable {s t : State}

/-! ### The log's registers (R396, R397) -/

theorem exec_logSelectWrite (dt : Nat) (v : W64) (s : State) :
    exec (.logSelectWrite dt v) s = (s.advance dt).host0 true 0x1108 8 v := rfl

theorem exec_fatalClear {v : W64} (h : v.toNat.testBit 8 = true) (dt : Nat) (s : State) :
    exec (.fatalClear dt v) s = (s.advance dt).host0 true 0x1130 8 v := if_pos h

theorem tryWrite_logSelect (v : W64) : s.tryWrite 0x1108 8 v =
    some { s with log := { s.log with select := v, data := s.log.latch v.toNat } } := rfl

theorem tryWrite_logControl (v : W64) :
    s.tryWrite 0x1130 8 v = some (s.writeLogControl v (BitVec.allOnes 64)) := rfl

theorem refreshFault_of_serving (h : s.power.phase = .serving) : s.refreshFault.power.faultLow = s.log.fatal := by
  simp only [State.refreshFault, h]

theorem writeLogControl_of_clear {v : W64} (hclear : v.toNat.testBit 8 = true) :
    s.writeLogControl v (BitVec.allOnes 64) = ({ s with log := { s.log with
      fatal := false, intSeverity := bits v.toNat 0 2 } } : State).refreshFault := by
  rw [State.writeLogControl, maskedWrite_allOnes, BitVec.and_allOnes, hclear, Bool.not_true, Bool.and_false]

/-! ### MISMATCH (R366) -/

/-- Address of a check unit's CU_STATUS. -/
def cuStatus (u : Nat) : Nat := 0x500000 + 0x80 * u

theorem exec_mismatchClear (dt : Nat) (u : Fin 64) (s : State) :
    exec (.mismatchClear dt u) s = (s.advance dt).host0 true (cuStatus u) 8 0x80 := rfl

theorem writeUnit_mismatch (u : Nat) :
    s.writeUnit u 0 8 0x80 = some (s.modUnit u (fun x => { x with mismatch := false })) := rfl

theorem tryWrite_mismatch (u : Fin 64) : s.tryWrite (cuStatus u) 8 0x80 =
    some (s.modUnit u (fun x => { x with mismatch := false })) := by
  have hu := u.isLt
  have hbelow (b : Nat) (hb : b ≤ 0x500000) : ¬ cuStatus u < b := by rw [cuStatus]; omega
  have hunit : (cuStatus u - 0x500000) / 0x80 = u := by rw [cuStatus]; omega
  have hreg : cuStatus u % 0x80 = 0 := by rw [cuStatus]; omega
  have hlow : 0x500000 ≤ cuStatus u := by rw [cuStatus]; omega
  have hhigh : cuStatus u < 0x502000 := by rw [cuStatus]; omega
  simp only [State.tryWrite, hunit, hreg, hlow, hhigh, writeUnit_mismatch]
  simp [hbelow]

/-! ### CH_CONTROL.STOP (R360) -/

/-- Address of a channel's CH_CONTROL. -/
def chControl (n : Nat) : Nat := 0x300000 + 0x100 * n + 0x60

theorem exec_channelStop (dt : Nat) (n : Fin 192) (s : State) :
    exec (.channelStop dt n) s = (s.advance dt).host0 true (chControl n) 8 1 := rfl

theorem writeChannel_stop (n : Nat) : s.writeChannel n 0x60 8 1 = some (s.stopRequest n) := rfl

theorem tryWrite_chControl (n : Fin 192) : s.tryWrite (chControl n) 8 1 = some (s.stopRequest n) := by
  have hn := n.isLt
  have hbelow (b : Nat) (hb : b ≤ 0x300000) : ¬ chControl n < b := by rw [chControl]; omega
  have hchannel : (chControl n - 0x300000) / 0x100 = n := by rw [chControl]; omega
  have hreg : chControl n % 0x100 = 0x60 := by rw [chControl]; omega
  have hlow : 0x300000 ≤ chControl n := by rw [chControl]; omega
  have hhigh : chControl n < 0x30C000 := by rw [chControl]; omega
  simp only [State.tryWrite, hchannel, hreg, hlow, hhigh, writeChannel_stop]
  simp [hbelow]

theorem chControl_aligned (n : Nat) : chControl n % 8 = 0 := by
  rw [chControl]
  omega

theorem chControl_above (n : Nat) : 0x11100 ≤ chControl n := by
  rw [chControl]
  omega

/-- A due close is a matter of what the progress of the commands leaves as it is (R52). -/
theorem KeepsCommands.closeDue (h : KeepsCommands s t) (htide : t.tide = s.tide)
    (hstep : t.commit.stepNumber = s.commit.stepNumber) : t.closeDue = s.closeDue := by
  have hcloses (u : State) : u.closeDue = ((u.ring 0).cmds.map Cmd.identity).any (fun c =>
      c.start.isNone && (c.opcode == 0x42 || c.opcode == 0x43) && c.launch != 0 && decide (c.launch ≤ u.tide) &&
        c.param 0 4 == u.commit.stepNumber.toNat) := by
    rw [List.any_map]
    rfl
  rw [hcloses, hcloses, h.cmds, htide, hstep]

/-- The channel with a resume point, before its command ends. -/
def Channel.stopped (x : Channel) (cause : Nat) : Channel :=
  { x with state := 3, stopCause := if cause = 5 then 0 else cause, resume := some x.resumePoint, stop := false }

theorem stopChannel_of_active {n : Nat} (h : (s.channel n).active = true) (cause : Nat) (st : Status) (detail : Nat) :
    s.stopChannel n cause st detail = (s.modChannel n (·.stopped cause)).endDma n st detail :=
  if_neg (by simp [h])

theorem endDma_of_cmd {n : Nat} {ref : CmdRef} (h : (s.channel n).cmd = some ref) (st : Status) (detail : Nat) :
    s.endDma n st detail = s.finish ref st detail (s.channel n).body := by
  rw [State.endDma, h]

/-- The end of a channel's command is a matter of the rings. -/
theorem endDma_frame (s : State) (n : Nat) (st : Status) (detail : Nat) :
    s.endDma n st detail = { s with host := (s.endDma n st detail).host } := by
  unfold State.endDma
  dsimp only
  split <;> rfl

theorem keepsCommands_endDma (s : State) (n : Nat) (st : Status) (detail : Nat) :
    KeepsCommands s (s.endDma n st detail) := by
  unfold State.endDma
  dsimp only
  split
  · exact .rfl
  · exact keepsCommands_finish ..

section ActiveChannel

variable {n : Nat} (hactive : (s.channel n).active = true)

include hactive

theorem stopChannel_channel (cause : Nat) (st : Status) (detail : Nat) :
    (s.stopChannel n cause st detail).channel n = (s.channel n).stopped cause := by
  rw [stopChannel_of_active hactive, endDma_frame]
  exact modChannel_channel ..

theorem stopChannel_channel_ne (cause : Nat) (st : Status) (detail : Nat) {m : Nat} (h : m ≠ n) :
    (s.stopChannel n cause st detail).channel m = s.channel m := by
  rw [stopChannel_of_active hactive, endDma_frame]
  exact modChannel_channel_ne _ _ _ _ h

theorem stopChannel_frame (cause : Nat) (st : Status) (detail : Nat) : s.stopChannel n cause st detail =
    { s with dma := (s.stopChannel n cause st detail).dma, host := (s.stopChannel n cause st detail).host } := by
  rw [stopChannel_of_active hactive, endDma_frame]
  rfl

theorem stopChannel_closeDue (cause : Nat) (st : Status) (detail : Nat) :
    (s.stopChannel n cause st detail).closeDue = s.closeDue := by
  rw [stopChannel_of_active hactive]
  exact (keepsCommands_endDma (s.modChannel n (·.stopped cause)) n st detail).closeDue (by rw [endDma_frame])
    (by rw [endDma_frame])

/-- The channel's command finishes with what the channel reports (R351, R360). -/
theorem stopChannel_findCmd {cause : Nat} {st : Status} {detail : Nat} {ref : CmdRef} {c : Cmd}
    (hcmd : (s.channel n).cmd = some ref) (hfind : s.findCmd ref = some c) :
    (s.stopChannel n cause st detail).findCmd ref = some { c with
      work := .finished st detail ((s.stopChannel n cause st detail).channel n).body, finishedAt := s.tide } := by
  rw [stopChannel_channel hactive, stopChannel_of_active hactive, endDma_of_cmd (ref := ref)]
  · rw [modChannel_channel]
    exact findCmd_modCmd (fun _ => rfl) hfind
  · rw [modChannel_channel]
    exact hcmd

end ActiveChannel

/-! ### Messages of the vectors (R462) -/

theorem withBit_false_testBit (x : W64) {j k : Nat} (hk : k < 64) :
    (withBit x j false).toNat.testBit k = (x.toNat.testBit k && !decide (k = j)) := by
  rw [withBit, if_neg Bool.false_ne_true, BitVec.testBit_toNat, BitVec.getLsbD_and, BitVec.getLsbD_not,
    BitVec.getLsbD_ofNat, Nat.testBit_two_pow, BitVec.testBit_toNat]
  simp [hk, eq_comm]

theorem raise_of_unmasked {v : Nat} (hfunction : s.host.functionMask = false)
    (hmask : s.host.vectorMask.toNat.testBit v = false) : s.raise v =
      { s with host := { s.host with msixSent := s.host.msixSent ++ [v].filter s.vectorEnabled } } := by
  unfold State.raise
  cases henabled : s.vectorEnabled v with
  | false =>
    rw [List.filter_cons_of_neg (by simp [henabled]), List.filter_nil, List.append_nil]
    exact if_pos rfl
  | true =>
    rw [List.filter_cons_of_pos henabled, List.filter_nil, hfunction, hmask]
    rfl

/-- A vector that has something to send once the function is unmasked. -/
def State.collected (s : State) (v : Nat) : Bool := s.host.pba.toNat.testBit v && !s.host.vectorMask.toNat.testBit v

/-- What a vector that no mask holds has collected goes out as one message. -/
theorem sendPending_of_collected {v : Nat} (hfunction : s.host.functionMask = false) (h : s.collected v = true) :
    s.sendPending v = { s with host := { s.host with
      pba := withBit s.host.pba v false, msixSent := s.host.msixSent ++ [v].filter s.vectorEnabled } } := by
  obtain ⟨hpba, hmask⟩ := Bool.and_eq_true_iff.mp h
  rw [State.sendPending, if_pos (by rw [hpba, hfunction, hmask]; rfl)]
  exact raise_of_unmasked (s := { s with host := { s.host with pba := withBit s.host.pba v false } }) hfunction
    (Bool.not_eq_true' _ |>.mp hmask)

theorem sendPending_of_nothing {v : Nat} (h : s.host.functionMask = true ∨ s.collected v = false) :
    s.sendPending v = s := by
  refine if_neg ?_
  rw [State.collected] at h
  rcases h with h | h
  · simp [h]
  · intro hsend
    simp at h hsend
    simp [h hsend.1.1] at hsend

/-- Two states that differ at most in the PBA and in the messages sent. -/
def SameButMessages (s t : State) : Prop :=
  t = { s with host := { s.host with pba := t.host.pba, msixSent := t.host.msixSent } }

theorem SameButMessages.trans {u : State} (hst : SameButMessages s t) (htu : SameButMessages t u) :
    SameButMessages s u := by
  rw [SameButMessages, htu, hst]

theorem SameButMessages.host (h : SameButMessages s t) : t = { s with host := t.host } := by
  rw [h]

theorem sameButMessages_sendPending (s : State) (v : Nat) : SameButMessages s (s.sendPending v) := by
  unfold State.sendPending
  split
  · rw [raise_eq]
    rfl
  · rfl

/-- A vector of an unmasked function sends what it has collected. -/
theorem sendPending_sent (hfunction : s.host.functionMask = false) (v : Nat) : (s.sendPending v).host.msixSent =
    s.host.msixSent ++ [v].filter (fun v => s.collected v && s.vectorEnabled v) := by
  cases h : s.collected v with
  | false =>
    rw [sendPending_of_nothing (.inr h)]
    simp [h]
  | true =>
    rw [sendPending_of_collected hfunction h]
    simp [h, List.filter_cons]

/-- Only the vector's own bit of the PBA clears. -/
theorem sendPending_pba (hfunction : s.host.functionMask = false) (v : Nat) {w : Nat} (hw : w < 64) :
    (s.sendPending v).host.pba.toNat.testBit w =
      (s.host.pba.toNat.testBit w && !(decide (w = v) && s.collected w)) := by
  cases h : s.collected v with
  | false =>
    rw [sendPending_of_nothing (.inr h)]
    by_cases hwv : w = v
    · rw [hwv, h]
      simp
    · simp [hwv]
  | true =>
    rw [sendPending_of_collected hfunction h, withBit_false_testBit _ hw]
    by_cases hwv : w = v
    · rw [hwv, h]
      simp
    · simp [hwv]

/-- What another vector has collected stays. -/
theorem sendPending_collected (hfunction : s.host.functionMask = false) {v w : Nat} (hw : w < 64) (hne : w ≠ v) :
    (s.sendPending v).collected w = s.collected w := by
  have hmask : (s.sendPending v).host.vectorMask = s.host.vectorMask := by rw [sameButMessages_sendPending s v]
  rw [State.collected, sendPending_pba hfunction v hw, hmask, State.collected]
  simp [hne]

/-- Vectors one after the other: each that has collected something sends it, and only their bits clear. -/
theorem foldl_sendPending (vs : List Nat) (hnodup : vs.Nodup) (hrange : ∀ v ∈ vs, v < 64) (s : State)
    (hfunction : s.host.functionMask = false) : SameButMessages s (vs.foldl State.sendPending s) ∧
      (vs.foldl State.sendPending s).host.msixSent =
        s.host.msixSent ++ vs.filter (fun v => s.collected v && s.vectorEnabled v) ∧
      ∀ w, w < 64 → (vs.foldl State.sendPending s).host.pba.toNat.testBit w =
        (s.host.pba.toNat.testBit w && !(decide (w ∈ vs) && s.collected w)) := by
  induction vs generalizing s with
  | nil => exact ⟨rfl, by simp, by simp⟩
  | cons v vs ih =>
    obtain ⟨hnew, hnodup'⟩ := List.nodup_cons.mp hnodup
    have hrange' : ∀ w ∈ vs, w < 64 := fun w hw => hrange w (List.mem_cons_of_mem _ hw)
    have hframe := sameButMessages_sendPending s v
    have hfunction' : (s.sendPending v).host.functionMask = false := by rw [hframe]; exact hfunction
    have henabled : (s.sendPending v).vectorEnabled = s.vectorEnabled := by rw [hframe]; rfl
    have hfilter : vs.filter (fun w => (s.sendPending v).collected w && (s.sendPending v).vectorEnabled w) =
        vs.filter (fun w => s.collected w && s.vectorEnabled w) :=
      List.filter_congr fun w hw => by
        have hne : w ≠ v := fun heq => hnew (heq ▸ hw)
        rw [sendPending_collected hfunction (hrange' w hw) hne, henabled]
    obtain ⟨hframe', hsent', hpba'⟩ := ih hnodup' hrange' (s.sendPending v) hfunction'
    refine ⟨hframe.trans hframe', ?_, fun w hw => ?_⟩
    · rw [List.foldl_cons, hsent', sendPending_sent hfunction, hfilter, List.append_assoc, ← List.filter_append]
      rfl
    · rw [List.foldl_cons, hpba' w hw, sendPending_pba hfunction v hw]
      by_cases hne : w = v
      · simp [hne, hnew]
      · rw [sendPending_collected hfunction hw hne]
        simp [hne]

theorem exec_msixUnmask (dt : Nat) (target : MsixTarget) (s : State) :
    exec (.msixUnmask dt target) s = .next ((s.advance dt).unmask target) := rfl

/-- Settles O26: each register's write by what it does to its field; a stop by the channel that it finds; an unmasking by
what each vector that is no longer masked has collected. -/
theorem stopsClearsAndUnmasks : Obligations.StopsClearsAndUnmasks := by
  refine ⟨fun dt v s hlink => ⟨?select, fun hclear => ?fatal⟩, fun dt s => ⟨fun n hlink hactive hpaused => ?stop,
    fun n hlink hactive hpaused => ?held, fun n hlink hidle => ?inactive, fun u hlink => ?mismatch,
    fun v hpba hfunction henabled => ?vector, fun v hnothing => ?silent, ?function⟩⟩
  case select =>
    exact (exec_logSelectWrite dt v s).trans (host0_write hlink rfl (.inl (by decide)) (tryWrite_logSelect v) rfl)
  case fatal =>
    have hwrite := tryWrite_logControl (s := s.advance dt) v
    rw [writeLogControl_of_clear hclear] at hwrite
    refine ⟨_, (exec_fatalClear hclear dt s).trans (host0_write hlink rfl (.inl (by decide)) hwrite rfl), rfl, rfl,
      fun hserving => ?_, rfl⟩
    exact refreshFault_of_serving hserving
  case stop =>
    have hactive' : ((s.advance dt).channel n).active = true := hactive
    have hrequest : (s.advance dt).stopRequest n = (s.advance dt).stopChannel n 2 .aborted 0 := by
      rw [State.stopRequest, hactive', hpaused]
      rfl
    have hwrite := (tryWrite_chControl (s := s.advance dt) n).trans (congrArg some hrequest)
    have hchannel := stopChannel_channel hactive' 2 .aborted 0
    refine ⟨_, (exec_channelStop dt n s).trans (host0_write hlink (chControl_aligned n) (.inr (chControl_above n)) hwrite
      (stopChannel_closeDue hactive' ..)), congrArg Channel.state hchannel, congrArg Channel.stopCause hchannel,
      congrArg Channel.resume hchannel, fun m hm => stopChannel_channel_ne hactive' _ _ _ hm,
      fun ref c hcmd hfind => stopChannel_findCmd hactive' hcmd hfind, stopChannel_frame hactive' ..⟩
  case held =>
    have hrequest : (s.advance dt).stopRequest n = (s.advance dt).modChannel n (fun x => { x with stop := true }) := by
      have hactive' : ((s.advance dt).channel n).active = true := hactive
      rw [State.stopRequest, hactive', hpaused]
      rfl
    exact (exec_channelStop dt n s).trans (host0_write hlink (chControl_aligned n) (.inr (chControl_above n))
      ((tryWrite_chControl (s := s.advance dt) n).trans (congrArg some hrequest)) rfl)
  case inactive =>
    have hidle' : ((s.advance dt).channel n).active = false := hidle
    have hrequest : (s.advance dt).stopRequest n = s.advance dt := if_pos (by rw [hidle']; rfl)
    exact (exec_channelStop dt n s).trans (host0_write hlink (chControl_aligned n) (.inr (chControl_above n))
      ((tryWrite_chControl (s := s.advance dt) n).trans (congrArg some hrequest)) rfl)
  case mismatch =>
    have halign : cuStatus u % 8 = 0 := by rw [cuStatus]; omega
    have habove : 0x11100 ≤ cuStatus u := by rw [cuStatus]; omega
    exact (exec_mismatchClear dt u s).trans (host0_write hlink halign (.inr habove) (tryWrite_mismatch u) rfl)
  case vector =>
    have hmask : (withBit s.host.vectorMask v false).toNat.testBit v = false := by
      rw [withBit_false_testBit _ v.isLt]
      simp
    have hsend := sendPending_of_collected (v := v) (s := { s.advance dt with host := { s.host with
      vectorMask := withBit s.host.vectorMask v false } }) hfunction (by simp only [State.collected, hpba, hmask]; rfl)
    refine ⟨_, (exec_msixUnmask dt (.vector v) s).trans (congrArg _ hsend), ?_, ?_, hmask, rfl⟩
    · exact congrArg (s.host.msixSent ++ ·) (List.filter_cons_of_pos (p := s.vectorEnabled) henabled)
    · exact (withBit_false_testBit _ v.isLt).trans (by simp)
  case silent =>
    refine (exec_msixUnmask dt (.vector v) s).trans (congrArg _ (sendPending_of_nothing ?_))
    rcases hnothing with hpba | hfunction
    · exact .inr (by simp only [State.collected, advance_host, hpba, Bool.false_and])
    · exact .inl hfunction
  case function =>
    obtain ⟨hframe, hsent, hpba⟩ := foldl_sendPending (List.range 64) List.nodup_range (fun v hv => List.mem_range.mp hv)
      { s.advance dt with host := { s.host with functionMask := false } } rfl
    refine ⟨_, exec_msixUnmask dt .function s, congrArg (fun t : State => t.host.functionMask) hframe, hsent,
      fun v hv => (hpba v hv).trans ?_, ?_⟩
    · simp only [State.collected, List.mem_range, hv]
      cases s.host.pba.toNat.testBit v <;> cases s.host.vectorMask.toNat.testBit v <;> rfl
    · exact hframe.host

end Sys2Proof.Machine
end

section
/-! PROOF. Records of the trouble log, and the two commands that read them (chapter 17). -/

namespace Sys2Proof.Machine

variable {s : State}

/-! ### The rate limit (R395) -/

/-- Tidemarks of a code and source within the last millisecond. -/
def State.recent (s : State) (source code : Nat) : List Nat :=
  (findRate s.log.rates source code).recent.filter (fun t => decide (s.tide < t + 1000000))

/-- The state with a record counted against its rate. -/
def State.counted (s : State) (source code : Nat) : State :=
  { s with log := { s.log with rates := putRate s.log.rates { findRate s.log.rates source code with
      recent := s.tide :: s.recent source code, dropped := false } } }

/-- The record as it is written. -/
def State.newRec (s : State) (source code severity a0 a1 a2 : Nat) : LogRec :=
  { tide := s.tide, source := source, code := code, severity := severity
    flags := b2n (findRate s.log.rates source code).dropped, seq := s.log.written % 65536
    arg0 := a0 % 2 ^ 64, arg1 := a1 % 2 ^ 32, arg2 := a2 % 2 ^ 32 }

theorem logRec_of_few {source code : Nat} (h : (s.recent source code).length < 64) (severity a0 a1 a2 : Nat) :
    s.logRec source code severity a0 a1 a2 =
      (s.counted source code).writeLog (s.newRec source code severity a0 a1 a2) := by
  have hflags : b2n (findRate s.log.rates source code).dropped + 2 * b2n false =
      b2n (findRate s.log.rates source code).dropped := by simp [b2n]
  rw [State.newRec, ← hflags]
  exact if_neg (Nat.not_le.mpr h)

theorem logRec_of_many {source code : Nat} (h : 64 ≤ (s.recent source code).length) (severity a0 a1 a2 : Nat) :
    s.logRec source code severity a0 a1 a2 = { s with log := { s.log with
      rates := putRate s.log.rates { findRate s.log.rates source code with
        recent := s.recent source code, dropped := true } } } := if_pos h

/-! ### The ring of records (R395 to R397) -/

/-- What a written record leaves before its interrupt. -/
def State.recorded (s : State) (r : LogRec) : State :=
  let s := { s with log := { s.log with
      written := s.log.written + 1
      records := (s.log.records ++ [r]).drop (s.log.records.length + 1 - 8192)
      fatal := s.log.fatal || r.severity == sevFatal } }
  (if decide (sevError ≤ r.severity) && s.mgmt.eventReceiver.isSome && s.mgmt.dynAddr.isSome then
    { s with mgmt := { s.mgmt with events := s.mgmt.events ++ [r] } } else s).refreshFault

theorem recorded_log (s : State) (r : LogRec) : (s.recorded r).log = { s.log with
    written := s.log.written + 1, records := (s.log.records ++ [r]).drop (s.log.records.length + 1 - 8192)
    fatal := s.log.fatal || r.severity == sevFatal } := by
  unfold State.recorded
  dsimp only
  split <;> rfl

theorem recorded_faultLow {r : LogRec} (hfatal : r.severity = sevFatal) (hserving : s.power.phase = .serving) :
    (s.recorded r).power.faultLow = true := by
  unfold State.recorded
  dsimp only
  split <;> simp [State.refreshFault, hserving, hfatal]

/-- The interrupt of a record changes neither the log nor FAULT_N. -/
theorem writeLog_keeps (s : State) (r : LogRec) :
    (s.writeLog r).log = (s.recorded r).log ∧ (s.writeLog r).power = (s.recorded r).power := by
  have hwrite : s.writeLog r = if (s.recorded r).log.intSeverity ≤ r.severity then (s.recorded r).raise 25
      else s.recorded r := rfl
  rw [hwrite]
  split
  · rw [raise_eq]
    exact ⟨rfl, rfl⟩
  · exact ⟨rfl, rfl⟩

/-- The ring holds 8,192 records: the oldest one makes room. -/
theorem drop_oldest {l : List LogRec} (h : l.length ≤ 8192) (r : LogRec) :
    (l ++ [r]).drop (l.length + 1 - 8192) = l.drop (if l.length = 8192 then 1 else 0) ++ [r] := by
  by_cases hfull : l.length = 8192
  · rw [if_pos hfull, hfull, List.drop_append_of_le_length (by omega)]
  · have hroom : l.length + 1 - 8192 = 0 := by omega
    rw [if_neg hfull, hroom, List.drop_zero, List.drop_zero]

/-! ### The records that are read (R399, R426) -/

/-- A record has the severity that is asked for, or more. -/
def Log.severe (l : Log) (sev n : Nat) : Bool :=
  match l.find n with
  | some r => decide (sev ≤ r.severity)
  | none => false

/-- The numbers to choose from, lowest first. -/
def Log.named (l : Log) (first sev : Nat) : List Nat :=
  ((List.range (l.written - max first (l.written - l.records.length))).map
    (max first (l.written - l.records.length) + ·)).filter (l.severe sev)

theorem pick_eq (l : Log) (first count sev : Nat) : l.pick first count sev =
    ((l.named first sev).take count, if ((l.named first sev).take count).length = count then
      ((l.named first sev).take count).getLastD first + 1 else max first l.written) := rfl

theorem severe_iff {l : Log} {sev n : Nat} : l.severe sev n = true ↔ ∃ r, l.find n = some r ∧ sev ≤ r.severity := by
  unfold Log.severe
  split
  · next r h => simp [h]
  · next h => simp [h]

/-- A record that is found has a number that the log holds. -/
theorem find_some_range {l : Log} {n : Nat} {r : LogRec} (h : l.find n = some r) :
    n < l.written ∧ l.written ≤ n + l.records.length := by
  unfold Log.find at h
  split at h
  · next hrange => simpa using hrange
  · cases h

theorem mem_named {l : Log} {first sev n : Nat} :
    n ∈ l.named first sev ↔ first ≤ n ∧ ∃ r, l.find n = some r ∧ sev ≤ r.severity := by
  simp only [Log.named, List.mem_filter, List.mem_map, List.mem_range, severe_iff]
  constructor
  · rintro ⟨⟨i, hi, rfl⟩, hfound⟩
    exact ⟨by omega, hfound⟩
  · rintro ⟨hfirst, r, hfound, hsev⟩
    obtain ⟨hlow, hhigh⟩ := find_some_range hfound
    exact ⟨⟨n - max first (l.written - l.records.length), by omega, by omega⟩, r, hfound, hsev⟩

theorem named_sorted (l : Log) (first sev : Nat) : (l.named first sev).Pairwise (· < ·) := by
  refine (List.Pairwise.map _ (fun a b hab => ?_) List.pairwise_lt_range).filter _
  exact Nat.add_lt_add_left hab _

/-- In a rising list, what its first entries leave out lies above it. -/
theorem mem_take_or_above {l : List Nat} (h : l.Pairwise (· < ·)) (count : Nat) {n : Nat} (hn : n ∈ l) :
    n ∈ l.take count ∨ ((l.take count).length = count ∧ ∀ m ∈ l.take count, m < n) := by
  rw [← List.take_append_drop count l] at hn h
  rcases List.mem_append.mp hn with hin | hout
  · exact .inl hin
  · refine .inr ⟨?_, fun m hm => (List.pairwise_append.mp h).2.2 m hm n hout⟩
    have hlong : 0 < (l.drop count).length := List.length_pos_of_mem hout
    rw [List.length_drop] at hlong
    rw [List.length_take]
    omega

/-- Records in the log, as both reads copy them. -/
def Log.bytesOf (l : Log) (got : List Nat) : List Byte := got.flatMap (fun n => ((l.find n).map (·.bytes)).getD [])

/-- Records lost before the first one that is read. -/
def Log.lost (l : Log) (first : Nat) : Nat := if l.written ≤ first then 0 else l.written - l.records.length - first

theorem exec_logRead (dt : Nat) (r : Fin 17) (s : State) : exec (.logRead dt r) s = execLogRead dt r s := rfl

theorem exec_oemLogRead (dt first count sev : Nat) (s : State) :
    exec (.oemLogRead dt first count sev) s = execOemLogRead dt first count sev s := rfl

section LogRead

variable {dt : Nat} {r : Fin 17} {u : State} {c : Cmd} {key : Nat} (hstart : Starts s dt r 0xF1 c u)
  (hlow : 1 ≤ c.param 8 2) (hhigh : c.param 8 2 ≤ 8192)
  (hkey : u.resolve logSpaces none (c.param 0x10 8) (32 * c.param 8 2) = some key)
  (hown : u.ownStops key (32 * c.param 8 2) = false) (hserved : u.keyServed key = true)
  (hreserved : ∀ i, (11 ≤ i ∧ i < 16) ∨ (24 ≤ i ∧ i < 64) → c.param i 1 = 0)

include hstart hlow hhigh hkey hown hserved hreserved

theorem logRead_of_served {got : List Nat} {next : Nat}
    (hpick : s.log.pick (c.param 0 8) (c.param 8 2) (c.param 0x0A 1) = (got, next)) : exec (.logRead dt r) s =
      .next ((if addrSpace (c.param 0x10 8) = 7 then u.writeHost (addrOffset (c.param 0x10 8)) (s.log.bytesOf got)
        else u.write key (s.log.bytesOf got)).complete c .ok 0 (bodyOf [(0, 8, got.headD next), (8, 8, next),
          (16, 4, got.length), (20, 4, s.log.lost (c.param 0 8))])) := by
  have hlog : u.log = s.log := by rw [hstart.frame]; rfl
  have hzero : reservedFail c 64 [(0, 0x0B), (0x10, 8)] = [] := reservedFail_eq_nil (fun i hi hfree =>
    hreserved i (by simp only [List.mem_cons, List.not_mem_nil, or_false, forall_eq_or_imp, forall_eq] at hfree; omega))
  have hspace : u.inSpace logSpaces none (c.param 0x10 8) (32 * c.param 8 2) = true := by
    rw [State.inSpace, hkey]
    rfl
  rw [exec_logRead, execLogRead, hstart.take]
  dsimp only
  rw [lowestFail_eq_none ?checks, hkey]
  case checks =>
    rw [hzero]
    simp [hlow, hhigh, hspace]
  refine (if_neg (Bool.eq_false_iff.mp hown)).trans ((if_neg (by rw [Option.getD_some, hserved]; decide)).trans ?_)
  rw [hlog, hpick]
  rfl

end LogRead

section OemLogRead

variable {dt count : Nat} (hon : s.power.phase ≠ .off) (haddr : s.mgmt.dynAddr.isSome = true) (hlow : 1 ≤ count)
  (hhigh : count ≤ 32)

include hon haddr hlow hhigh

theorem oemLogRead_of_on {first sev next : Nat} {got : List Nat} (hpick : s.log.pick first count sev = (got, next)) :
    exec (.oemLogRead dt first count sev) s = .next { s.advance dt with mgmt := { s.mgmt with
      code := 0
      response := toBytes 8 (got.headD next) ++ toBytes 8 next ++ toBytes 4 got.length ++
        toBytes 4 (s.log.lost first) ++ s.log.bytesOf got } } := by
  rw [exec_oemLogRead, execOemLogRead, serve_of_on (s := s.advance dt) hon]
  refine congrArg _ ((if_neg ?_).trans ?_)
  · simp
    omega
  · rw [advance_log, hpick]
    exact reply_of_addressed (s := s.advance dt) haddr ..

end OemLogRead

/-- A response's head of 24 bytes: the count of records at byte 16. -/
theorem oemHead (a b n l : Nat) (hn : n < 2 ^ 32) (bs : List Byte) :
    (toBytes 8 a ++ toBytes 8 b ++ toBytes 4 n ++ toBytes 4 l ++ bs).drop 24 = bs ∧
      fieldAt (toBytes 8 a ++ toBytes 8 b ++ toBytes 4 n ++ toBytes 4 l ++ bs) 16 4 = n := by
  constructor
  · exact List.drop_left' (by simp [toBytes_length])
  · rw [fieldAt, List.append_assoc, List.append_assoc, List.drop_left' (by simp [toBytes_length]),
      List.take_left' (toBytes_length 4 n), ofBytes_toBytes]
    exact Nat.mod_eq_of_lt (by simpa using hn)

/-- Settles O11: a record by its rate; both reads by the one list of the records that a read may choose from, which is
sorted, so that its first ones are the lowest. -/
theorem logRecordsAreWrittenAndRead : Obligations.LogRecordsAreWrittenAndRead := by
  refine ⟨fun s source code severity a0 a1 a2 hfull => ⟨fun hfew => ?written, fun hmany => ?dropped⟩,
    fun l first count sev => ?pick, ?read, ?oem⟩
  case written =>
    obtain ⟨hlog, hpower⟩ := writeLog_keeps (s.counted source code) (s.newRec source code severity a0 a1 a2)
    have hrecords : (s.counted source code).log.records = s.log.records := rfl
    rw [logRec_of_few hfew, hlog, hpower, recorded_log, hrecords, drop_oldest hfull]
    exact ⟨rfl, rfl, rfl, fun hfatal hserving => recorded_faultLow hfatal hserving⟩
  case dropped =>
    rw [logRec_of_many hmany]
    exact ⟨rfl, rfl⟩
  case pick =>
    rw [pick_eq]
    have hsorted := named_sorted l first sev
    refine ⟨List.length_take_le .., fun n hn => mem_named.mp (List.mem_of_mem_take hn), hsorted.sublist (List.take_sublist ..),
      fun n r hfirst hfound hsev => mem_take_or_above hsorted count (mem_named.mpr ⟨hfirst, r, hfound, hsev⟩),
      fun n _ hall hlast => ?_, fun hfew => if_neg hfew.ne⟩
    dsimp only at hall hlast ⊢
    rw [if_pos hall, List.getLastD_eq_getLast?, hlast]
    rfl
  case read =>
    rintro dt r s u c key next got bs hstart hlow hhigh hkey hown hserved hreserved hpick rfl
    exact logRead_of_served hstart hlow hhigh hkey hown hserved hreserved hpick.symm
  case oem =>
    intro dt first count sev next got s hon haddr hlow hhigh hpick
    have hgot : got.length ≤ count := by
      have hfirst : got = (s.log.named first sev).take count := congrArg Prod.fst hpick
      exact hfirst ▸ List.length_take_le count _
    obtain ⟨hbody, hcount⟩ := oemHead (got.headD next) next got.length (s.log.lost first) (by omega) (s.log.bytesOf got)
    exact ⟨_, oemLogRead_of_on hon haddr hlow hhigh hpick.symm, rfl, hbody, hcount, rfl⟩

end Sys2Proof.Machine
end

section
/-! PROOF. Power budgets and the idle voltage (chapter 18). -/

namespace Sys2Proof.Machine

variable {s t : State}

theorem exec_powerBudgetExchange (dt mv : Nat) (power request : List Nat) (s : State) :
    exec (.powerBudgetExchange dt mv power request) s = execPowerBudgetExchange dt mv power request s := rfl

theorem exec_idleVoltageTimer (dt : Nat) (die : Fin 12) (s : State) :
    exec (.idleVoltageTimer dt die) s = execIdleVoltageTimer dt die s := rfl

/-! ### One die follows its budget (R404) -/

/-- Two states that differ at most in what throttling changes. -/
def SameButThrottle (s t : State) : Prop := t = { s with
  dies := t.dies
  power := { s.power with
    voltLowered := t.power.voltLowered, paused := t.power.paused, throttleEvents := t.power.throttleEvents } }

theorem SameButThrottle.trans {u : State} (hst : SameButThrottle s t) (htu : SameButThrottle t u) :
    SameButThrottle s u := by
  rw [SameButThrottle, htu, hst]

/-- Two dies that differ at most in the core voltage, and in what an idle die returns to. -/
def Die.SameButVoltage (d e : Die) : Prop := e = { d with coreMv := e.coreMv, idleFrom := e.idleFrom }

theorem setVoltage_sameButVoltage (d : Die) (mv idleMv : Nat) : d.SameButVoltage (d.setVoltage mv idleMv) := by
  unfold Die.setVoltage
  split <;> rfl

/-- What throttling leaves of the dies, once a die has its budget. -/
theorem throttleDie_keeps (s : State) (n power budget : Nat) : SameButThrottle s (s.throttleDie n power budget) ∧
    ({ s.die n with budget := budget, power := power } : Die).SameButVoltage ((s.throttleDie n power budget).die n) ∧
    ∀ m, m ≠ n → (s.throttleDie n power budget).die m = s.die m := by
  have hdie : (s.modDie n (fun d => { d with budget := budget, power := power })).die n =
      { s.die n with budget := budget, power := power } := modDie_die ..
  have hother (m : Nat) (hm : m ≠ n) : (s.modDie n (fun d => { d with budget := budget, power := power })).die m =
      s.die m := modDie_die_ne _ _ _ _ hm
  have hvoltage (mv idle : Nat) : SameButThrottle s
        ((s.modDie n (fun d => { d with budget := budget, power := power })).modDie n (fun d => d.setVoltage mv idle)) ∧
      ({ s.die n with budget := budget, power := power } : Die).SameButVoltage
        (((s.modDie n (fun d => { d with budget := budget, power := power })).modDie n
          (fun d => d.setVoltage mv idle)).die n) ∧
      ∀ m, m ≠ n → ((s.modDie n (fun d => { d with budget := budget, power := power })).modDie n
          (fun d => d.setVoltage mv idle)).die m = s.die m := by
    refine ⟨rfl, ?_, fun m hm => ?_⟩
    · rw [modDie_die, hdie]
      exact setVoltage_sameButVoltage ..
    · rw [modDie_die_ne _ _ _ _ hm, hother m hm]
  have hplain : ({ s.die n with budget := budget, power := power } : Die).SameButVoltage
      ((s.modDie n (fun d => { d with budget := budget, power := power })).die n) := by
    rw [hdie]
    rfl
  unfold State.throttleDie
  dsimp only
  split
  · split
    · exact ⟨rfl, (hvoltage _ _).2⟩
    · split
      · exact ⟨rfl, hplain, hother⟩
      · exact ⟨rfl, hplain, hother⟩
  · split
    · exact ⟨rfl, hplain, hother⟩
    · split
      · split
        · exact ⟨rfl, (hvoltage _ _).2⟩
        · exact hvoltage _ _
      · split
        · exact hvoltage _ _
        · exact ⟨rfl, hplain, hother⟩

/-- One die after the other: each has its own budget in the end, and the others keep theirs. -/
theorem foldl_throttleDie (power budget : Nat → Nat) (ns : List Nat) (hnodup : ns.Nodup) (s : State) :
    SameButThrottle s (ns.foldl (fun st n => st.throttleDie n (power n) (budget n)) s) ∧
      (∀ n ∈ ns, ({ s.die n with budget := budget n, power := power n } : Die).SameButVoltage
        ((ns.foldl (fun st n => st.throttleDie n (power n) (budget n)) s).die n)) ∧
      ∀ m, m ∉ ns → (ns.foldl (fun st n => st.throttleDie n (power n) (budget n)) s).die m = s.die m := by
  induction ns generalizing s with
  | nil => exact ⟨rfl, fun _ h => (List.not_mem_nil h).elim, fun _ _ => rfl⟩
  | cons n ns ih =>
    obtain ⟨hnew, hnodup'⟩ := List.nodup_cons.mp hnodup
    obtain ⟨hframe, hdie, hother⟩ := throttleDie_keeps s n (power n) (budget n)
    obtain ⟨hframe', hdies', hothers'⟩ := ih hnodup' (s.throttleDie n (power n) (budget n))
    refine ⟨hframe.trans hframe', fun m hm => ?_, fun m hm => ?_⟩
    · rw [List.foldl_cons]
      rcases List.mem_cons.mp hm with rfl | hin
      · rw [hothers' m hnew]
        exact hdie
      · have hne : m ≠ n := fun heq => hnew (heq ▸ hin)
        rw [← hother m hne]
        exact hdies' m hin
    · obtain ⟨hne, hout⟩ := not_or.mp (List.mem_cons.not.mp hm)
      rw [List.foldl_cons, hothers' m hout, hother m hne]

/-- The budget of a die is a matter of the limit, the population and the requests, none of which throttling changes. -/
theorem foldl_throttleDie_suffix (power budget : Nat → Nat) (limit : Nat) (request : List Nat) (ns : List Nat) (s : State)
    (hbudget : ∀ n, budget n = budgetOf limit s.pkg.suffix request n) :
    ns.foldl (fun st n => st.throttleDie n (power n) (budgetOf limit st.pkg.suffix request n)) s =
      ns.foldl (fun st n => st.throttleDie n (power n) (budget n)) s := by
  induction ns generalizing s with
  | nil => rfl
  | cons n ns ih =>
    have hsuffix : (s.throttleDie n (power n) (budget n)).pkg.suffix = s.pkg.suffix := by
      rw [(throttleDie_keeps s n (power n) (budget n)).1]
    rw [List.foldl_cons, List.foldl_cons, ← hbudget n]
    exact ih _ fun m => by rw [hbudget m, hsuffix]

/-- The state once the controller has read the input. -/
def State.metered (s : State) (mv total : Nat) : State :=
  { s with power := { s.power with
      vin := mv, pin := total, iin := if mv = 0 then 0 else total * 100000 / mv, inputCap := 75 * mv / 1000
      limit := min (min s.conf.moduleLimitW s.power.popMax) (75 * mv / 1000), budgets := otherBudgets s.pkg.suffix } }

theorem powerBudgetExchange_of_powered (dt mv : Nat) (power request : List Nat) (h : s.power.diesPowered = true) :
    exec (.powerBudgetExchange dt mv power request) s = .next ((List.range 12).foldl
      (fun st n => st.throttleDie n (power.getD n 0) (budgetOf (min (min s.conf.moduleLimitW s.power.popMax)
        (75 * mv / 1000)) s.pkg.suffix request n)) ((s.advance dt).metered mv (sumNat power))) := by
  rw [exec_powerBudgetExchange, execPowerBudgetExchange]
  refine (if_neg (by simp [h])).trans (congrArg _ ?_)
  exact foldl_throttleDie_suffix _ _ _ request (List.range 12) ((s.advance dt).metered mv (sumNat power)) fun _ => rfl

/-! ### The idle voltage (R416, log 53) -/

section IdleVoltage

variable {dt : Nat} {die : Fin 12} (hready : s.power.ready = true) (hafter : s.conf.idleAfterUs ≠ 0)

include hready hafter

theorem idleVoltageTimer_of_ready : exec (.idleVoltageTimer dt die) s =
    (if !(s.advance dt).dieIdle die then .next ((s.advance dt).modDie die (fun d => { d with
        idleSince := none, coreMv := d.idleFrom.getD d.coreMv, idleFrom := none }))
      else match (s.die die).idleSince with
      | none => .next ((s.advance dt).modDie die (fun d => { d with idleSince := some (s.advance dt).tide }))
      | some t =>
        if (s.advance dt).tide < t + 1000 * s.conf.idleAfterUs then (s.advance dt).idle
        else .next ((s.advance dt).modDie die (fun d => { d with
          coreMv := min d.coreMv s.conf.idleMv, idleFrom := some (d.idleFrom.getD d.coreMv) }))) := by
  rw [exec_idleVoltageTimer]
  unfold execIdleVoltageTimer
  exact if_neg (by simp [hready, hafter])

end IdleVoltage

/-- Settles O15: the exchange by one die's throttling, twelve times; the timer by what it finds of the die. -/
theorem powerBudgets : Obligations.PowerBudgets := by
  intro dt s
  refine ⟨fun mv power request hpowered => ?_, fun die hready hafter => ?_⟩
  · obtain ⟨hframe, hdies, -⟩ := foldl_throttleDie (fun n => power.getD n 0) (fun n => budgetOf
      (min (min s.conf.moduleLimitW s.power.popMax) (75 * mv / 1000)) s.pkg.suffix request n) (List.range 12)
      List.nodup_range ((s.advance dt).metered mv (sumNat power))
    refine ⟨_, powerBudgetExchange_of_powered dt mv power request hpowered, ?_⟩
    generalize (List.range 12).foldl _ _ = t at hframe hdies ⊢
    have hlimit : t.power.limit = min (min s.conf.moduleLimitW s.power.popMax) (75 * mv / 1000) := by rw [hframe]; rfl
    refine ⟨by rw [hframe]; rfl, by rw [hframe]; rfl, by rw [hframe]; rfl, hlimit, fun n hn => ?_, by rw [hframe]; rfl, ?_⟩
    · rw [hlimit]
      exact hdies n (List.mem_range.mpr hn)
    · rw [hframe]
      rfl
  · have hexec := idleVoltageTimer_of_ready (dt := dt) (die := die) hready hafter
    refine ⟨fun hidle hsince => ?_, fun t0 hidle hsince hdue => ?_, fun hbusy => ?_⟩
    · rw [hexec, hidle, hsince]
      rfl
    · rw [hexec, hidle, hsince]
      exact if_neg (Nat.not_lt.mpr hdue)
    · rw [hexec, hbusy]
      rfl

end Sys2Proof.Machine
end

section
/-! PROOF. What the steps of start-up leave of the state (chapter 18). -/

namespace Sys2Proof.Machine

variable {s t u : State}

/-- The configuration, the population, the Tidemark and the far stacks stay, and of the power state all but the outcome of
temperatures, the images that are loaded, and FAULT_N. -/
structure SameBoot (s t : State) : Prop where
  conf : t.conf = s.conf
  suffix : t.pkg.suffix = s.pkg.suffix
  tide : t.tide = s.tide
  farStacks : t.farStacks = s.farStacks
  power : t.power = { s.power with
    faultLow := t.power.faultLow, thermPaused := t.power.thermPaused, throttleEvents := t.power.throttleEvents
    thermAlert := t.power.thermAlert, thermLow := t.power.thermLow, fw := t.power.fw
    measurements := t.power.measurements }

theorem SameBoot.rfl : SameBoot s s := ⟨Eq.refl _, Eq.refl _, Eq.refl _, Eq.refl _, Eq.refl _⟩

theorem SameBoot.trans (hst : SameBoot s t) (htu : SameBoot t u) : SameBoot s u :=
  ⟨htu.conf.trans hst.conf, htu.suffix.trans hst.suffix, htu.tide.trans hst.tide, htu.farStacks.trans hst.farStacks, by
    rw [htu.power, hst.power]⟩

/-- A step of start-up that is counted is counted on both sides. -/
theorem SameBoot.setStep (h : SameBoot s t) (n : Nat) : SameBoot { s with power := { s.power with step := n } }
    { t with power := { t.power with step := n } } :=
  ⟨h.conf, h.suffix, h.tide, h.farStacks, by
    dsimp only
    rw [h.power]⟩

theorem sameBoot_foldl {α : Type} {f : State → α → State} (hf : ∀ s a, SameBoot s (f s a)) (as : List α) (s : State) :
    SameBoot s (as.foldl f s) :=
  foldl_keeps (fun _ => .rfl) (fun _ _ _ => .trans) hf as s

theorem SameButTraffic.boot (h : SameButTraffic s t) : SameBoot s t :=
  ⟨(congrArg State.conf h.eq :), (congrArg (fun x : State => x.pkg.suffix) h.eq :), (congrArg State.tide h.eq :),
    (congrArg State.farStacks h.eq :), (congrArg State.power h.eq).trans (by rw [h.eq])⟩

theorem sameBoot_logRec (s : State) (src code sev a0 a1 a2 : Nat) : SameBoot s (s.logRec src code sev a0 a1 a2) :=
  (sameButReports_logRec ..).traffic.boot

theorem sameBoot_modPort (s : State) (p : Nat) (f : Port → Port) : SameBoot s (s.modPort p f) :=
  (sameButTraffic_modPort ..).boot

theorem sameBoot_modCtx (s : State) (k : Nat) (f : Ctx → Ctx) : SameBoot s (s.modCtx k f) :=
  ⟨rfl, rfl, rfl, rfl, rfl⟩

theorem sameBoot_modDie (s : State) (n : Nat) (f : Die → Die) : SameBoot s (s.modDie n f) :=
  ⟨rfl, rfl, rfl, rfl, rfl⟩

/-! ### Images and records (R412, R413) -/

theorem sameBoot_loadFw (s : State) (images : List (Nat × Bool × ImageIn)) (comp : Nat) :
    SameBoot s (s.loadFw images comp).2 := by
  unfold State.loadFw
  split <;> exact ⟨rfl, rfl, rfl, rfl, rfl⟩

/-! ### The self-test and the temperatures (R128, R219, R405) -/

theorem sameBoot_assignArrays (s : State) (found : List ArrayTest) (die : Nat) :
    SameBoot s (s.assignArrays found die) := by
  unfold State.assignArrays
  refine (sameBoot_foldl (fun s e => ?_) _ s).trans (sameBoot_modDie ..)
  dsimp only
  split
  · exact .rfl
  · exact ⟨rfl, rfl, rfl, rfl, rfl⟩

theorem sameBoot_testDie (s : State) (inp : StartInput) (die : Nat) : SameBoot s (s.testDie inp die) := by
  refine .trans ?_ (sameBoot_modDie ..)
  exact (sameBoot_assignArrays ..).trans (sameBoot_foldl (fun s _ => sameBoot_modDie s _ _) _ _)

theorem sameBoot_thermCheck (s : State) (n : Nat) : SameBoot s (s.thermCheck n) := by
  rw [State.thermCheck, thermPause_frame]
  exact ⟨rfl, rfl, rfl, rfl, rfl⟩

theorem sameBoot_refreshTherm (s : State) : SameBoot s s.refreshTherm := ⟨rfl, rfl, rfl, rfl, rfl⟩

theorem sameBoot_noteFeatures (s : State) (reports : List DieReport) : SameBoot s (s.noteFeatures reports) := by
  refine sameBoot_foldl (fun s r => ?_) reports s
  split
  · exact .rfl
  · exact sameBoot_logRec ..

/-! ### Links (R23, R301) -/

theorem sameBoot_raise (s : State) (v : Nat) : SameBoot s (s.raise v) := (sameButReports_raise ..).traffic.boot

theorem sameBoot_noteFallback (s : State) (k : Fin 3) : SameBoot s (s.noteFallback (.seam k)) := by
  unfold State.noteFallback
  dsimp only
  refine .trans ?_ (sameBoot_logRec ..)
  exact ⟨rfl, rfl, rfl, rfl, rfl⟩

theorem sameBoot_setSeams (s : State) (seams : Tab Seam) :
    SameBoot s { s with pkg := { s.pkg with seams := seams } } := ⟨rfl, rfl, rfl, rfl, rfl⟩

theorem sameBoot_trainSeam (s : State) (x : SeamIn) (k : Fin 3) : SameBoot s (s.trainSeam x k) := by
  unfold State.trainSeam
  dsimp only
  split
  · exact ⟨rfl, rfl, rfl, rfl, rfl⟩
  · refine .trans (.trans ?_ (sameBoot_noteFallback _ k)) (sameBoot_setSeams ..)
    exact ⟨rfl, rfl, rfl, rfl, rfl⟩

theorem sameBoot_modTrain (s : State) (l : Link) (f : Train → Train) : SameBoot s (s.modTrain l f) := by
  cases l with
  | port p => exact sameBoot_modPort ..
  | seam k => exact ⟨rfl, rfl, rfl, rfl, rfl⟩

theorem sameBoot_setTrain (s : State) (l : Link) (st : LState) : SameBoot s (s.setTrain l st) := by
  unfold State.setTrain
  dsimp only
  split
  · exact .rfl
  · have htrain := sameBoot_modTrain s l (fun t => { t with state := st, lastChange := s.tide })
    cases l with
    | port p =>
      dsimp only
      split
      · exact htrain.trans (sameBoot_raise ..)
      · exact htrain
    | seam k => exact htrain

theorem sameBoot_partialRetrain (s : State) (p : Nat) : SameBoot s (s.partialRetrain p) := by
  unfold State.partialRetrain
  split
  · exact (sameBoot_modPort ..).trans ((sameBoot_modTrain ..).trans (sameBoot_setTrain ..))
  · exact .rfl

theorem sameBoot_follow (s : State) (p : Nat) : SameBoot s (s.follow p) := by
  unfold State.follow
  split
  · dsimp only
    refine .trans (sameBoot_modPort s p (fun x => { x with ckptUnits := 0 })) ?_
    split
    · exact sameBoot_setTrain ..
    · split
      · exact sameBoot_setTrain ..
      · split
        · exact .rfl
        · exact sameBoot_partialRetrain ..
  · exact .rfl

/-! ### The bindings of contexts (R253, R255) -/

theorem sameBoot_refitSluice (s : State) (old : Conf) (k : Nat) (bwd : Bool) : SameBoot s (s.refitSluice old k bwd) := by
  unfold State.refitSluice
  dsimp only
  split
  · exact .rfl
  · have hlog (x : State) (n : Nat) : SameBoot x (if n = 0 then x else x.logDiscards k bwd n) := by
      split
      · exact .rfl
      · exact sameBoot_logRec ..
    have hempty (f : Ctx → Ctx) := (sameBoot_modCtx s k f).trans (hlog _ ((s.ctx k).sluice bwd).length)
    split
    · exact (hempty _).trans (sameBoot_modCtx ..)
    · split
      · exact (hempty _).trans (sameButTraffic_send ..).boot
      · exact hempty _

theorem sameBoot_draw (s : State) : SameBoot s s.draw.2 := ⟨rfl, rfl, rfl, rfl, rfl⟩

theorem sameBoot_compareSide (s : State) (k : Nat) (prev : Bool) : SameBoot s (s.compareSide k prev) := by
  unfold State.compareSide
  dsimp only
  have hnote (x : State) (bad : Bool) : SameBoot x (if (x.ctx k).mismatch prev = bad then x
      else x.modCtx k (fun y => if prev then { y with prevMismatch := bad } else { y with nextMismatch := bad })) := by
    split
    · exact .rfl
    · exact sameBoot_modCtx ..
  refine .trans ?_ (hnote _ _)
  generalize (if prev = true then (s.ctxItem k).prevKind else (s.ctxItem k).nextKind) = kind
  split
  · exact .rfl
  · split
    · exact .rfl
    · exact sameBoot_draw s

theorem sameBoot_rebind (s : State) (old : Conf) (ks : List Nat) : SameBoot s (s.rebind old ks) := by
  unfold State.rebind
  split
  · exact .rfl
  · exact (sameBoot_foldl (fun s k => (sameBoot_refitSluice s old k false).trans (sameBoot_refitSluice _ old k true))
      ks s).trans ((sameBoot_foldl (fun s k => sameBoot_modCtx s k _) ks _).trans
        (sameBoot_foldl (fun s k => (sameBoot_compareSide s k true).trans (sameBoot_compareSide _ k false))
          (List.range 16) _))

end Sys2Proof.Machine
end

section
/-! PROOF. Start-up ends serving, waiting for its ports or stopped, and the alignment wait ends ready (chapter 18). -/

namespace Sys2Proof.Machine

variable {s t u : State}

/-! ### The end of step 9 (R301, R406) -/

/-- Every port with a role is ACTIVE. -/
def State.portsUp (s : State) : Bool :=
  (List.range s.nPorts).all (fun p => s.roleOf p == 0 || (s.port p).train.state == .active)

/-- The module serves: in step 10 where the host link may train, else in step 9. -/
def State.served (s : State) : State :=
  if s.power.perstReleased && s.power.refclkOk then
    { s with power := { s.power with
      step := 10, phase := .serving, pwrGood := true, faultLow := s.log.fatal, linkUp := true, startTide := s.tide } }
  else { s with power := { s.power with step := 9, phase := .serving, pwrGood := true, faultLow := s.log.fatal } }

theorem endStep9_of_waiting (hphase : s.power.phase = .starting) (hstep : s.power.step = 8) : s.endStep9 =
    if s.portsUp || decide (s.power.startTide + 2000000000 ≤ s.tide) then s.served else s := by
  have hcond : (decide (s.power.phase = .starting) && decide (s.power.step = 8) &&
      (s.portsUp || decide (s.power.startTide + 2000000000 ≤ s.tide))) =
      (s.portsUp || decide (s.power.startTide + 2000000000 ≤ s.tide)) := by
    simp [hphase, hstep]
  unfold State.endStep9
  dsimp only
  rw [← hcond]
  rfl

theorem served_power (s : State) : s.served.power.phase = .serving ∧ s.served.power.pwrGood = true ∧
    s.served.power.step = (if s.power.perstReleased && s.power.refclkOk then 10 else 9) ∧
    s.served = { s with power := s.served.power } := by
  unfold State.served
  split <;> exact ⟨rfl, rfl, rfl, rfl⟩

theorem served_pins (s : State) : s.served.power.pwrEn = s.power.pwrEn ∧ s.served.power.modReset = s.power.modReset ∧
    s.served.power.slotId = s.power.slotId ∧ s.served.power.releasePending = s.power.releasePending ∧
    s.served.power.diesPowered = s.power.diesPowered ∧ s.served.power.stopped = s.power.stopped := by
  unfold State.served
  split <;> exact ⟨rfl, rfl, rfl, rfl, rfl, rfl⟩

/-! ### Where start-up ends (R406, R407) -/

/-- Stopped with its step, waiting in step 9 for its ports, or serving; the population is then the record's. -/
def State.StartEnded (t : State) : Prop :=
  (t.power.phase = .stopped ∧ t.power.stopped = true ∧ t.power.step < 9 ∧ t.power.faultLow = true ∧
    t.power.pwrGood = false) ∨
  (t.power.phase = .starting ∧ t.power.step = 8 ∧ t.conf.population = t.pkg.suffix) ∨
  (t.power.phase = .serving ∧ 9 ≤ t.power.step ∧ t.power.step ≤ 10 ∧ t.power.pwrGood = true ∧
    t.conf.population = t.pkg.suffix)

/-- What START_UP has taken of its inputs stays. -/
structure SamePins (s t : State) : Prop where
  pwrEn : t.power.pwrEn = s.power.pwrEn
  modReset : t.power.modReset = s.power.modReset
  slotId : t.power.slotId = s.power.slotId
  releasePending : t.power.releasePending = s.power.releasePending

theorem SamePins.rfl : SamePins s s := ⟨Eq.refl _, Eq.refl _, Eq.refl _, Eq.refl _⟩

theorem SamePins.trans (hst : SamePins s t) (htu : SamePins t u) : SamePins s u :=
  ⟨htu.pwrEn.trans hst.pwrEn, htu.modReset.trans hst.modReset, htu.slotId.trans hst.slotId,
    htu.releasePending.trans hst.releasePending⟩

theorem SameBoot.pins (h : SameBoot s t) : SamePins s t := by
  constructor <;> rw [h.power]

/-- From a state within start-up, start-up has ended with the pins as they were. -/
def StartEnds (s t : State) : Prop := SamePins s t ∧ t.StartEnded

theorem SamePins.ends (h : SamePins s t) (htu : StartEnds t u) : StartEnds s u := ⟨h.trans htu.1, htu.2⟩

theorem stopStart_ends (s : State) {step : Nat} (h : step < 9) (cause : Nat) : StartEnds s (s.stopStart step cause) :=
  ⟨⟨rfl, rfl, rfl, rfl⟩, .inl ⟨rfl, rfl, h, rfl, rfl⟩⟩

theorem endStep9_ends (hphase : s.power.phase = .starting) (hstep : s.power.step = 8)
    (hpop : s.conf.population = s.pkg.suffix) : StartEnds s s.endStep9 := by
  obtain ⟨hserving, hgood, hnow, hframe⟩ := served_power s
  obtain ⟨hen, hreset, hslot, hrelease, -, -⟩ := served_pins s
  rw [endStep9_of_waiting hphase hstep]
  split
  · refine ⟨⟨hen, hreset, hslot, hrelease⟩, .inr (.inr ⟨hserving, ?_, ?_, hgood, ?_⟩)⟩
    · rw [hnow]; split <;> decide
    · rw [hnow]; split <;> decide
    · rw [hframe]; exact hpop
  · exact ⟨.rfl, .inr (.inl ⟨hphase, hstep, hpop⟩)⟩

/-! ### The steps, from the last to the first -/

/-- The I/O dies' tiles serve, the ports with a role train, and the bindings of the contexts take effect. -/
def State.linksBrought (s : State) : State :=
  let tiles : Tab Tile := (List.range s.nIoDies).map (fun x => (x, { inService := true }))
  let s : State := { s with coll := { s.coll with tiles := tiles } }
  let s := (List.range s.nPorts).foldl (fun (st : State) p => if st.roleOf p = 0 then st else st.follow p) s
  s.rebind (Conf.default s.pkg.suffix) (List.range 16)

theorem sameBoot_setColl (s : State) (coll : Coll) : SameBoot s { s with coll := coll } := ⟨rfl, rfl, rfl, rfl, rfl⟩

theorem sameBoot_linksBrought (s : State) : SameBoot s s.linksBrought := by
  unfold State.linksBrought
  refine .trans (.trans (sameBoot_setColl s _) (sameBoot_foldl (fun s p => ?_) (List.range _) _)) (sameBoot_rebind ..)
  split
  · exact .rfl
  · exact sameBoot_follow ..

/-- Step 9 begins: what the ports wait for is counted from here. -/
def State.startWait (s : State) : State := { s with power := { s.power with step := 8, startTide := s.tide } }

theorem startWait_pins (s : State) : SamePins s s.startWait := ⟨rfl, rfl, rfl, rfl⟩

theorem bringLinks_eq (s : State) : s.bringLinks = s.linksBrought.startWait.endStep9 := by
  simp only [State.bringLinks, State.linksBrought, State.startWait]

theorem bringLinks_ends (hphase : s.power.phase = .starting) (hpop : s.conf.population = s.pkg.suffix) :
    StartEnds s s.bringLinks := by
  have hboot := sameBoot_linksBrought s
  have hphase' : s.linksBrought.startWait.power.phase = .starting := by
    rw [State.startWait, hboot.power]
    exact hphase
  have hpop' : s.linksBrought.startWait.conf.population = s.linksBrought.startWait.pkg.suffix := by
    rw [State.startWait, hboot.conf, hboot.suffix]
    exact hpop
  rw [bringLinks_eq]
  exact (hboot.pins.trans (startWait_pins _)).ends (endStep9_ends hphase' rfl hpop')

theorem sameBoot_logPopulation (s : State) (derived : Nat) : SameBoot s (s.logPopulation derived) := sameBoot_logRec ..

/-- Every stack of the population is trained. -/
def State.stacksTrained (s : State) (inp : StartInput) : State :=
  let tiers := (List.range s.nStacks).map (fun f => trainStack inp.channelTests f)
  { s with farStacks := tiers.zipIdx.map (fun (x : Option Stack × Nat) => (x.2, x.1.getD {})) }

theorem bringFar_eq (s : State) (inp : StartInput) : s.bringFar inp =
    if ((List.range s.nStacks).map (fun f => trainStack inp.channelTests f)).any (fun x => x.isNone) then
      (s.logPopulation s.pkg.suffix).stopStart 7 5
    else (s.stacksTrained inp).refreshTherm.bringLinks := by
  unfold State.bringFar
  generalize State.bringLinks = links
  rfl

theorem bringFar_ends (inp : StartInput) (hphase : s.power.phase = .starting)
    (hpop : s.conf.population = s.pkg.suffix) : StartEnds s (s.bringFar inp) := by
  rw [bringFar_eq]
  split
  · exact (sameBoot_logPopulation ..).pins.ends (stopStart_ends _ (by decide) 5)
  · have hpins : SamePins s (s.stacksTrained inp).refreshTherm := ⟨rfl, rfl, rfl, rfl⟩
    exact hpins.ends (bringLinks_ends hphase hpop)

/-- The feature floor of the dies that are there is known. -/
def State.floored (s : State) (present : List DieReport) : State :=
  State.noteFeatures { s with pkg := { s.pkg with
    reports := present.map (fun (r : DieReport) => (r.source, r)), featureFloor := floorOf present } } present

theorem sameBoot_floored (s : State) (present : List DieReport) : SameBoot s (s.floored present) := by
  refine .trans ?_ (sameBoot_noteFeatures _ present)
  exact ⟨rfl, rfl, rfl, rfl, rfl⟩

/-- The seam links are trained, in step 7. -/
def State.seamsTrained (s : State) (inp : StartInput) : State :=
  ([0, 1, 2] : List (Fin 3)).foldl (fun (st : State) (k : Fin 3) => st.trainSeam (inp.seams.getD k {}) k)
    { s with power := { s.power with step := 6 } }

theorem sameBoot_seamsTrained (s : State) (inp : StartInput) :
    SameBoot { s with power := { s.power with step := 6 } } (s.seamsTrained inp) :=
  sameBoot_foldl (fun s k => sameBoot_trainSeam s _ k) _ _

theorem bringSeams_eq (s : State) (inp : StartInput) (present : List DieReport) : s.bringSeams inp present =
    if present.any (fun (r : DieReport) => r.features.toNat % 2 ^ 32 != 2 ^ 32 - 1) then
      (s.floored present).stopStart 5 4
    else if (List.range 3).any (fun k => seamAgreed (inp.seams.getD k {}) == 0) then
      ((s.floored present).seamsTrained inp).stopStart 6 6
    else State.bringFar { (s.floored present).seamsTrained inp with
      power := { ((s.floored present).seamsTrained inp).power with step := 7 } } inp := by
  unfold State.bringSeams
  generalize State.bringFar = far
  rfl

/-- The last completed step is counted. -/
def State.atStep (s : State) (n : Nat) : State := { s with power := { s.power with step := n } }

theorem atStep_pins (s : State) (n : Nat) : SamePins s (s.atStep n) := ⟨rfl, rfl, rfl, rfl⟩

theorem SameBoot.phase (h : SameBoot s t) : t.power.phase = s.power.phase := by rw [h.power]

theorem bringSeams_ends (inp : StartInput) (present : List DieReport) (hphase : s.power.phase = .starting)
    (hpop : s.conf.population = s.pkg.suffix) : StartEnds s (s.bringSeams inp present) := by
  have hfloor := sameBoot_floored s present
  have hseams := sameBoot_seamsTrained (s.floored present) inp
  have hpins : SamePins s ((s.floored present).seamsTrained inp) :=
    hfloor.pins.trans ((atStep_pins _ 6).trans hseams.pins)
  rw [bringSeams_eq]
  split
  · exact hfloor.pins.ends (stopStart_ends _ (by decide) 4)
  · split
    · exact hpins.ends (stopStart_ends _ (by decide) 6)
    · refine (hpins.trans (atStep_pins _ 7)).ends (bringFar_ends (s := State.atStep _ 7) inp ?_ ?_)
      · exact hseams.phase.trans (hfloor.phase.trans hphase)
      · exact (congrArg Conf.population (hseams.conf.trans hfloor.conf)).trans
          (hpop.trans (hseams.suffix.trans hfloor.suffix).symm)

/-- The dies have power, in step 4. -/
def State.powered (s : State) : State := { s with power := { s.power with step := 4, diesPowered := true } }

/-- The dies have passed their self-test, in step 5. -/
def State.selfTested (s : State) (inp : StartInput) : State :=
  let s := ((List.range 12).foldl (fun st d => (st.testDie inp d).thermCheck d) s).refreshTherm
  { s with pkg := { s.pkg with mapFilled := true }, power := { s.power with step := 5 } }

theorem sameBoot_selfTested (s : State) (inp : StartInput) : SameBoot (s.atStep 5) (s.selfTested inp) := by
  have htested : SameBoot s ((List.range 12).foldl (fun st d => (st.testDie inp d).thermCheck d) s).refreshTherm :=
    (sameBoot_foldl (fun s d => (sameBoot_testDie s inp d).trans (sameBoot_thermCheck ..)) _ s).trans
      (sameBoot_refreshTherm _)
  unfold State.selfTested
  generalize ((List.range 12).foldl (fun st d => (st.testDie inp d).thermCheck d) s).refreshTherm = u at htested
  exact (htested.setStep 5).trans ⟨rfl, rfl, rfl, rfl, rfl⟩

/-- The reports of the dies that the population has. -/
def presentDies (suffix : Nat) (inp : StartInput) : List DieReport :=
  inp.reports.filter (fun (r : DieReport) => (popSources suffix).contains r.source)

theorem bringUp_eq (s : State) (inp : StartInput) : s.bringUp inp =
    if !inp.bridgesOk then (s.powered.logPopulation s.pkg.suffix).stopStart 4 7
    else if stackFails s.pkg.suffix (presentDies s.pkg.suffix inp) then
      (s.powered.logPopulation s.pkg.suffix).stopStart 4 5
    else (s.powered.selfTested inp).bringSeams inp (presentDies s.pkg.suffix inp) := by
  unfold State.bringUp
  generalize State.bringSeams = seams
  rfl

theorem bringUp_ends (inp : StartInput) (hphase : s.power.phase = .starting)
    (hpop : s.conf.population = s.pkg.suffix) : StartEnds s (s.bringUp inp) := by
  have hpowered : SamePins s s.powered := ⟨rfl, rfl, rfl, rfl⟩
  have htested := sameBoot_selfTested s.powered inp
  rw [bringUp_eq]
  split
  · exact (hpowered.trans (sameBoot_logPopulation ..).pins).ends (stopStart_ends _ (by decide) 7)
  · split
    · exact (hpowered.trans (sameBoot_logPopulation ..).pins).ends (stopStart_ends _ (by decide) 5)
    · refine (hpowered.trans ((atStep_pins _ 5).trans htested.pins)).ends (bringSeams_ends inp _ ?_ ?_)
      · exact htested.phase.trans hphase
      · exact (congrArg Conf.population htested.conf).trans (hpop.trans htested.suffix.symm)

/-- The population that the sites give is known. -/
def State.located (s : State) (inp : StartInput) : State :=
  { s with pkg := { s.pkg with known := true, suffix := derivePop inp.sites } }

/-- The record is in force, and measured. -/
def State.configured (s : State) (conf : Conf) : State :=
  let serial := fieldAt s.power.configRecord 12 4
  (State.record { s with
    conf := conf
    power := { s.power with
      lastRecordSerial := serial
      fw := tabMod {} s.power.fw 6 (fun f => { f with svn := serial % 65536, pending := false }) } } 8
    s.power.configRecord).measureConf

/-- The limits of the input and of the population are known, in step 3. -/
def State.limited (s : State) (conf : Conf) (inp : StartInput) : State :=
  let cap := 75 * inp.millivolts / 1000
  { s with power := { s.power with
    step := 3, popMax := popMaxW (derivePop inp.sites), inputCap := cap
    limit := min (min conf.moduleLimitW (popMaxW (derivePop inp.sites))) cap } }

theorem loadRecord_eq (s : State) (inp : StartInput) : s.loadRecord inp =
    if s.power.ownerKey.isEmpty then (s.located inp).stopStart 2 9
    else match (if s.power.configRecord.isEmpty then none else (s.located inp).recordConf s.power.configRecord) with
    | none => (s.located inp).stopStart 2 2
    | some conf =>
      if derivePop inp.sites ≠ conf.population then
        (((s.located inp).configured conf).logPopulation (derivePop inp.sites)).stopStart 2 3
      else (((s.located inp).configured conf).limited conf inp).bringUp inp := by
  simp only [State.loadRecord, State.located, State.configured, State.limited]
    <;> rfl

theorem located_pins (s : State) (inp : StartInput) : SamePins s (s.located inp) := ⟨rfl, rfl, rfl, rfl⟩

theorem configured_pins (s : State) (conf : Conf) : SamePins s (s.configured conf) := ⟨rfl, rfl, rfl, rfl⟩

theorem limited_pins (s : State) (conf : Conf) (inp : StartInput) : SamePins s (s.limited conf inp) :=
  ⟨rfl, rfl, rfl, rfl⟩

theorem configured_keeps (s : State) (conf : Conf) (inp : StartInput) :
    ((s.configured conf).limited conf inp).conf = conf ∧ ((s.configured conf).limited conf inp).pkg = s.pkg ∧
      ((s.configured conf).limited conf inp).power.phase = s.power.phase := ⟨rfl, rfl, rfl⟩

theorem loadRecord_ends (inp : StartInput) (hphase : s.power.phase = .starting) : StartEnds s (s.loadRecord inp) := by
  have hlocated := located_pins s inp
  rw [loadRecord_eq]
  split
  · exact hlocated.ends (stopStart_ends _ (by decide) 9)
  · split
    · exact hlocated.ends (stopStart_ends _ (by decide) 2)
    · next conf _ =>
      have hconfigured := hlocated.trans (configured_pins (s.located inp) conf)
      split
      · exact (hconfigured.trans (sameBoot_logPopulation ..).pins).ends (stopStart_ends _ (by decide) 3)
      · next hpop =>
        obtain ⟨hconf, hpkg, hstart⟩ := configured_keeps (s.located inp) conf inp
        refine (hconfigured.trans (limited_pins _ conf inp)).ends (bringUp_ends inp (hstart.trans hphase) ?_)
        rw [hconf, hpkg]
        exact (not_not.mp hpop).symm

end Sys2Proof.Machine
end

section
/-! PROOF. A start-up that passes every check serves, or waits for its ports alone (chapter 18). -/

namespace Sys2Proof.Machine

variable {s t u : State} {inp : StartInput}

/-! ### The record does not depend on how far start-up has come (R417) -/

theorem itemOk_congr (hsuffix : t.pkg.suffix = s.pkg.suffix) (conf : Conf) (type : Nat) (b : List Byte) :
    t.itemOk conf type b = s.itemOk conf type b := by
  simp only [State.itemOk, State.ctxItemOk, State.sluiceOk, State.peerOk, State.inSpace, State.resolve, State.nPorts,
    hsuffix] <;> rfl

theorem recordConf_congr (hkey : t.power.ownerKey = s.power.ownerKey)
    (hserial : t.power.lastRecordSerial = s.power.lastRecordSerial) (img : List Byte) :
    t.recordConf img = s.recordConf img := by
  have hitem (pop : Nat) (conf : Conf) (i : Nat × List Byte) :
      State.itemOk { t with pkg := { t.pkg with suffix := pop } } conf i.1 i.2 =
        State.itemOk { s with pkg := { s.pkg with suffix := pop } } conf i.1 i.2 := itemOk_congr rfl ..
  simp only [State.recordConf, hkey, hserial, hitem]

/-! ### Images (R412) -/

/-- A component whose image loads leaves the images of the others as they were. -/
theorem loadFw_of_loads {images : List (Nat × Bool × ImageIn)} {comp : Nat}
    (h : (loadImage (flashOf (tabGet {} s.power.fw comp) images comp)).isSome = true) :
    (s.loadFw images comp).1 = true ∧
      ∀ c, c ≠ comp → tabGet {} (s.loadFw images comp).2.power.fw c = tabGet {} s.power.fw c := by
  obtain ⟨x, hx⟩ := Option.isSome_iff_exists.mp h
  rw [State.loadFw, hx]
  exact ⟨rfl, fun c hc => tabGet_tabSet_ne _ _ _ _ _ hc⟩

/-- The components that the module controller loads after its own (R412). -/
def State.loadFws (s : State) (images : List (Nat × Bool × ImageIn)) (comps : List Nat) : Bool × State :=
  comps.foldl (fun (acc : Bool × State) c => if acc.1 then acc.2.loadFw images c else acc) (true, s)

theorem loadFws_cons (images : List (Nat × Bool × ImageIn)) {c : Nat} (cs : List Nat)
    (h : (s.loadFw images c).1 = true) : s.loadFws images (c :: cs) = (s.loadFw images c).2.loadFws images cs := by
  have hpair : s.loadFw images c = (true, (s.loadFw images c).2) := Prod.ext h rfl
  rw [State.loadFws, List.foldl_cons, if_pos rfl, hpair]
  rfl

theorem loadFws_of_loads (images : List (Nat × Bool × ImageIn)) (comps : List Nat) (hnodup : comps.Nodup)
    (h : ∀ c ∈ comps, (loadImage (flashOf (tabGet {} s.power.fw c) images c)).isSome = true) :
    (s.loadFws images comps).1 = true := by
  induction comps generalizing s with
  | nil => rfl
  | cons c cs ih =>
    obtain ⟨hnew, hnodup'⟩ := List.nodup_cons.mp hnodup
    obtain ⟨hloads, hothers⟩ := loadFw_of_loads (h c List.mem_cons_self)
    rw [loadFws_cons images cs hloads]
    refine ih hnodup' fun d hd => ?_
    have hne : d ≠ c := fun heq => hnew (heq ▸ hd)
    rw [hothers d hne]
    exact h d (List.mem_cons_of_mem _ hd)

theorem sameBoot_loadFws (s : State) (images : List (Nat × Bool × ImageIn)) (comps : List Nat) :
    SameBoot s (s.loadFws images comps).2 := by
  unfold State.loadFws
  generalize hacc : (true, s) = acc
  have hstart : SameBoot s acc.2 := hacc ▸ .rfl
  clear hacc
  induction comps generalizing acc with
  | nil => exact hstart
  | cons c cs ih =>
    refine ih _ ?_
    dsimp only
    split
    · exact hstart.trans (sameBoot_loadFw ..)
    · exact hstart

/-! ### Where a start-up that passes every check comes to -/

/-- What the outcome of the checks rests on stays. -/
structure SameStart (s t : State) : Prop where
  phase : t.power.phase = s.power.phase
  diesPowered : t.power.diesPowered = s.power.diesPowered
  stopped : t.power.stopped = s.power.stopped
  perstReleased : t.power.perstReleased = s.power.perstReleased
  refclkOk : t.power.refclkOk = s.power.refclkOk
  conf : t.conf = s.conf
  suffix : t.pkg.suffix = s.pkg.suffix

theorem SameBoot.start (h : SameBoot s t) : SameStart s t := by
  constructor
  case conf => exact h.conf
  case suffix => exact h.suffix
  all_goals rw [h.power]

theorem SameStart.trans (hst : SameStart s t) (htu : SameStart t u) : SameStart s u :=
  ⟨htu.phase.trans hst.phase, htu.diesPowered.trans hst.diesPowered, htu.stopped.trans hst.stopped,
    htu.perstReleased.trans hst.perstReleased, htu.refclkOk.trans hst.refclkOk, htu.conf.trans hst.conf,
    htu.suffix.trans hst.suffix⟩

theorem atStep_start (s : State) (n : Nat) : SameStart s (s.atStep n) := ⟨rfl, rfl, rfl, rfl, rfl, rfl, rfl⟩

/-- The module serves, or waits in step 9 for a port that has a role; its stacks are trained. -/
structure Arrives (inp : StartInput) (s t : State) : Prop where
  diesPowered : t.power.diesPowered = s.power.diesPowered
  stopped : t.power.stopped = s.power.stopped
  conf : t.conf = s.conf
  suffix : t.pkg.suffix = s.pkg.suffix
  phase : (t.power.phase = .starting ∧ t.power.step = 8) ∨ (t.power.phase = .serving ∧ t.power.pwrGood = true ∧
    t.power.step = (if s.power.perstReleased && s.power.refclkOk then 10 else 9))
  serves : (∀ p, p < t.nPorts → t.roleOf p = 0) → t.power.phase = .serving
  trained : ∀ f, f < popStacks s.pkg.suffix → some (t.stack f) = trainStack inp.channelTests f

theorem SameStart.arrives (h : SameStart s u) (hut : Arrives inp u t) : Arrives inp s t :=
  ⟨hut.diesPowered.trans h.diesPowered, hut.stopped.trans h.stopped, hut.conf.trans h.conf, hut.suffix.trans h.suffix,
    by rw [← h.perstReleased, ← h.refclkOk]; exact hut.phase, hut.serves, by rw [← h.suffix]; exact hut.trained⟩

theorem endStep9_arrives (hphase : s.power.phase = .starting) (hstep : s.power.step = 8)
    (hstacks : ∀ f, f < popStacks s.pkg.suffix → some (s.stack f) = trainStack inp.channelTests f) :
    Arrives inp s s.endStep9 := by
  obtain ⟨hserving, hgood, hnow, hframe⟩ := served_power s
  obtain ⟨-, -, -, -, hdies, hstopped⟩ := served_pins s
  rw [endStep9_of_waiting hphase hstep]
  split
  · refine ⟨hdies, hstopped, by rw [hframe], by rw [hframe], .inr ⟨hserving, hgood, hnow⟩, fun _ => hserving, ?_⟩
    rw [hframe]
    exact hstacks
  · next hwait =>
    refine ⟨rfl, rfl, rfl, rfl, .inl ⟨hphase, hstep⟩, fun hroles => (hwait ?_).elim, hstacks⟩
    have hup : s.portsUp = true := List.all_eq_true.mpr fun p hp => by
      rw [hroles p (List.mem_range.mp hp)]
      rfl
    rw [hup]
    rfl

/-! ### The steps, from the last to the first -/

theorem SameBoot.stack (h : SameBoot s t) (f : Nat) : t.stack f = s.stack f := by
  rw [State.stack, State.stack, h.farStacks]

theorem startWait_stack (s : State) (f : Nat) : s.startWait.stack f = s.stack f := rfl

theorem startWait_start (s : State) : SameStart s s.startWait := ⟨rfl, rfl, rfl, rfl, rfl, rfl, rfl⟩

theorem bringLinks_arrives (hphase : s.power.phase = .starting)
    (hstacks : ∀ f, f < popStacks s.pkg.suffix → some (s.stack f) = trainStack inp.channelTests f) :
    Arrives inp s s.bringLinks := by
  have hboot := sameBoot_linksBrought s
  have hwait : SameStart s s.linksBrought.startWait := hboot.start.trans (startWait_start _)
  rw [bringLinks_eq]
  refine hwait.arrives (endStep9_arrives (hwait.phase.trans hphase) rfl fun f hf => ?_)
  rw [startWait_stack, hboot.stack]
  exact hstacks f (hwait.suffix ▸ hf)

/-- A table that numbers the elements of a list answers them. -/
theorem tabGet_zipIdx {α β : Type} (d : β) (g : α → β) (as : List α) (n k : Nat) (hk : k < as.length) :
    tabGet d ((as.zipIdx n).map (fun x => (x.2, g x.1))) (n + k) = g as[k] := by
  induction as generalizing n k with
  | nil => exact absurd hk (Nat.not_lt_zero k)
  | cons a as ih =>
    rw [List.zipIdx_cons, List.map_cons]
    cases k with
    | zero => simp [tabGet]
    | succ k =>
      have hrest := ih (n + 1) k (Nat.lt_of_succ_lt_succ hk)
      rw [Nat.add_right_comm, Nat.add_assoc] at hrest
      simpa [tabGet] using hrest

theorem stacksTrained_stack (s : State) (inp : StartInput) (f : Nat) (hf : f < popStacks s.pkg.suffix) :
    (s.stacksTrained inp).stack f = (trainStack inp.channelTests f).getD {} := by
  have hlength : f < ((List.range s.nStacks).map (fun f => trainStack inp.channelTests f)).length := by
    simpa [State.nStacks] using hf
  have hstack := tabGet_zipIdx (β := Stack) {} (fun x => x.getD {}) _ 0 f hlength
  simpa [State.stack, State.stacksTrained] using hstack

theorem bringFar_arrives (hphase : s.power.phase = .starting)
    (htrain : ∀ f, f < popStacks s.pkg.suffix → (trainStack inp.channelTests f).isSome = true) :
    Arrives inp s (s.bringFar inp) := by
  have hall : ((List.range s.nStacks).map (fun f => trainStack inp.channelTests f)).any (fun x => x.isNone) = false := by
    rw [List.any_map, List.any_eq_false]
    intro f hf
    simpa [Option.isSome_iff_ne_none] using htrain f (List.mem_range.mp hf)
  have hstart : SameStart s (s.stacksTrained inp).refreshTherm := ⟨rfl, rfl, rfl, rfl, rfl, rfl, rfl⟩
  rw [bringFar_eq, hall, if_neg Bool.false_ne_true]
  refine hstart.arrives (bringLinks_arrives (hstart.phase.trans hphase) fun f hf => ?_)
  obtain ⟨x, hx⟩ := Option.isSome_iff_exists.mp (htrain f hf)
  rw [(sameBoot_refreshTherm _).stack, stacksTrained_stack s inp f hf, hx]
  rfl

theorem bringSeams_arrives (present : List DieReport) (hphase : s.power.phase = .starting)
    (hfeatures : ∀ r ∈ present, r.features.toNat % 2 ^ 32 = 2 ^ 32 - 1)
    (hseams : ∀ k, k < 3 → seamAgreed (inp.seams.getD k {}) ≠ 0)
    (htrain : ∀ f, f < popStacks s.pkg.suffix → (trainStack inp.channelTests f).isSome = true) :
    Arrives inp s (s.bringSeams inp present) := by
  have hfloors : present.any (fun (r : DieReport) => r.features.toNat % 2 ^ 32 != 2 ^ 32 - 1) = false :=
    List.any_eq_false.mpr fun r hr => by simpa using hfeatures r hr
  have hlinks : (List.range 3).any (fun k => seamAgreed (inp.seams.getD k {}) == 0) = false :=
    List.any_eq_false.mpr fun k hk => by simpa using hseams k (List.mem_range.mp hk)
  have hstart : SameStart s (((s.floored present).seamsTrained inp).atStep 7) :=
    (sameBoot_floored s present).start.trans
      ((atStep_start _ 6).trans ((sameBoot_seamsTrained _ inp).start.trans (atStep_start _ 7)))
  rw [bringSeams_eq, hfloors, hlinks, if_neg Bool.false_ne_true, if_neg Bool.false_ne_true]
  exact hstart.arrives (bringFar_arrives (hstart.phase.trans hphase) (by rw [hstart.suffix]; exact htrain))

/-- What the package has to answer for start-up to pass steps 4 to 8 (R407). -/
structure PackageSound (suffix : Nat) (inp : StartInput) : Prop where
  bridges : inp.bridgesOk = true
  dies : stackFails suffix (presentDies suffix inp) = false
  features : ∀ r ∈ presentDies suffix inp, r.features.toNat % 2 ^ 32 = 2 ^ 32 - 1
  seams : ∀ k, k < 3 → seamAgreed (inp.seams.getD k {}) ≠ 0
  tiers : ∀ f, f < popStacks suffix → (trainStack inp.channelTests f).isSome = true

/-- Step 4 powers the dies; nothing after it takes their power. -/
theorem bringUp_arrives (hphase : s.power.phase = .starting) (hsound : PackageSound s.pkg.suffix inp) :
    Arrives inp s.powered (s.bringUp inp) := by
  have hstart : SameStart s.powered (s.powered.selfTested inp) :=
    (atStep_start _ 5).trans (sameBoot_selfTested s.powered inp).start
  have hbridges : ¬ (!inp.bridgesOk) = true := by rw [hsound.bridges]; decide
  rw [bringUp_eq, if_neg hbridges, hsound.dies, if_neg Bool.false_ne_true]
  refine hstart.arrives (bringSeams_arrives _ (hstart.phase.trans hphase) hsound.features hsound.seams ?_)
  rw [hstart.suffix]
  exact hsound.tiers

theorem loadRecord_arrives {conf : Conf} (hphase : s.power.phase = .starting) (hkey : s.power.ownerKey ≠ [])
    (himage : s.power.configRecord ≠ []) (hrecord : s.recordConf s.power.configRecord = some conf)
    (hpop : derivePop inp.sites = conf.population) (hsound : PackageSound conf.population inp) :
    Arrives inp (((s.located inp).configured conf).limited conf inp).powered (s.loadRecord inp) := by
  have hlocated : (s.located inp).recordConf s.power.configRecord = some conf :=
    (recordConf_congr rfl rfl _).trans hrecord
  obtain ⟨-, hpkg, hstart⟩ := configured_keeps (s.located inp) conf inp
  have hsuffix : (((s.located inp).configured conf).limited conf inp).pkg.suffix = conf.population := by
    rw [hpkg]
    exact hpop
  rw [loadRecord_eq, if_neg (by simpa using hkey), if_neg (by simpa using himage), hlocated]
  simp only [ne_eq, hpop, not_true_eq_false, if_false]
  exact bringUp_arrives (hstart.trans hphase) (hsuffix ▸ hsound)

end Sys2Proof.Machine
end

section
/-! PROOF. START_UP takes its inputs and brings the module up; the alignment wait ends ready (chapter 18). -/

namespace Sys2Proof.Machine

variable {s t : State} {dt : Nat} {inp : StartInput}

theorem exec_startUp (dt : Nat) (inp : StartInput) (s : State) : exec (.startUp dt inp) s = execStartUp dt inp s := rfl

theorem exec_alignmentWaitTimeout (dt : Nat) (s : State) :
    exec (.alignmentWaitTimeout dt) s = execAlignmentWaitTimeout dt s := rfl

/-! ### The edge that starts the module (R406, R408) -/

/-- What START_UP takes of the pins and of the input. -/
def State.edgeTaken (s : State) (inp : StartInput) : State :=
  { s.draw.2 with power := { s.power with
    phase := .starting, pwrEn := true, modReset := false, slotId := inp.slotId, startMs := min 65535 inp.startMs
    vin := inp.millivolts, refclkOk := inp.refclkOk, perstReleased := inp.perstReleased
    ownerKey := if s.power.releasePending then [] else s.power.ownerKey
    configRecord := if s.power.releasePending then [] else s.power.configRecord
    releasePending := false
    measurements := [(1, Config.bootRomDigest)]
    aliasKey := s.draw.1 } }

/-- The images load in the order of their components, and the record follows them (R412, R413). -/
def State.booted (s : State) (inp : StartInput) : State :=
  if !inp.flashOk then s.stopStart 0 8
  else if !(s.loadFw inp.images 0).1 then (s.loadFw inp.images 0).2.stopStart 0 1
  else
    let loaded := ((s.loadFw inp.images 0).2.atStep 1).loadFws inp.images [1, 2, 3, 4, 5]
    if !loaded.1 then loaded.2.stopStart 1 1 else (loaded.2.atStep 2).loadRecord inp

theorem startUp_of_low (hoff : s.power.phase = .off) (hheld : 100000 ≤ inp.heldNs)
    (hlow : inp.pwrEn = false ∨ inp.modReset = true) : exec (.startUp dt inp) s =
      .next { s.advance dt with power := { s.power with pwrEn := inp.pwrEn, modReset := inp.modReset } } := by
  have hwait : (!inp.pwrEn || inp.modReset) = true := by rcases hlow with h | h <;> simp [h]
  rw [exec_startUp, execStartUp]
  simp only [pinActs_of_long hheld, advance_power, hoff, hwait, ne_eq, not_true_eq_false, decide_false, Bool.not_true,
    Bool.or_false, Bool.false_eq_true, if_false, if_true]

theorem startUp_of_high (hoff : s.power.phase = .off) (hheld : 100000 ≤ inp.heldNs) (hen : inp.pwrEn = true)
    (hreset : inp.modReset = false) :
    exec (.startUp dt inp) s = .next (((s.advance dt).edgeTaken inp).booted inp) := by
  rw [exec_startUp, execStartUp]
  simp only [pinActs_of_long hheld, advance_power, hoff, hen, hreset, ne_eq, not_true_eq_false, decide_false,
    Bool.not_true, Bool.or_false, Bool.false_eq_true, if_false]
  unfold State.booted
  generalize State.loadRecord = load
  dsimp only
  rw [apply_ite Host.Outcome.next, apply_ite Host.Outcome.next, apply_ite Host.Outcome.next]
  rfl

theorem edgeTaken_power (s : State) (inp : StartInput) : (s.edgeTaken inp).power.phase = .starting ∧
    (s.edgeTaken inp).power.pwrEn = true ∧ (s.edgeTaken inp).power.modReset = false ∧
    (s.edgeTaken inp).power.slotId = inp.slotId ∧ (s.edgeTaken inp).power.releasePending = false ∧
    (s.edgeTaken inp).power.stopped = s.power.stopped ∧ (s.edgeTaken inp).power.fw = s.power.fw ∧
    (s.edgeTaken inp).power.refclkOk = inp.refclkOk ∧
    (s.edgeTaken inp).power.perstReleased = inp.perstReleased := ⟨rfl, rfl, rfl, rfl, rfl, rfl, rfl, rfl, rfl⟩

theorem booted_ends (inp : StartInput) (hphase : s.power.phase = .starting) : StartEnds s (s.booted inp) := by
  have hfirst := sameBoot_loadFw s inp.images 0
  have hothers := sameBoot_loadFws ((s.loadFw inp.images 0).2.atStep 1) inp.images [1, 2, 3, 4, 5]
  have hloaded := hfirst.pins.trans ((atStep_pins _ 1).trans hothers.pins)
  unfold State.booted
  split
  · exact stopStart_ends _ (by decide) 8
  · split
    · exact hfirst.pins.ends (stopStart_ends _ (by decide) 1)
    · dsimp only
      split
      · exact hloaded.ends (stopStart_ends _ (by decide) 1)
      · refine (hloaded.trans (atStep_pins _ 2)).ends (loadRecord_ends inp ?_)
        exact hothers.phase.trans (hfirst.phase.trans hphase)

theorem booted_of_unreadable (hflash : inp.flashOk = false) : s.booted inp = s.stopStart 0 8 := by
  rw [State.booted, hflash]
  rfl

/-! ### A start-up that passes every check (R407) -/

/-- With every image and a valid record, start-up goes on from step 2 with all that it took. -/
theorem booted_arrives {conf : Conf} (hphase : s.power.phase = .starting) (hkey : s.power.ownerKey ≠ [])
    (himage : s.power.configRecord ≠ []) (hflash : inp.flashOk = true)
    (hload : ∀ c, c < 6 → (loadImage (flashOf (tabGet {} s.power.fw c) inp.images c)).isSome = true)
    (hrecord : s.recordConf s.power.configRecord = some conf) (hpop : derivePop inp.sites = conf.population)
    (hsound : PackageSound conf.population inp) :
    ∃ u, SameStart s u ∧ Arrives inp (((u.located inp).configured conf).limited conf inp).powered (s.booted inp) := by
  obtain ⟨hloads, hothers⟩ := loadFw_of_loads (hload 0 (by decide))
  have hall := loadFws_of_loads (s := (s.loadFw inp.images 0).2.atStep 1) inp.images [1, 2, 3, 4, 5] (by decide)
    fun c hc => by
      have hne : c ≠ 0 ∧ c < 6 := by revert c; decide
      have hfw : tabGet {} ((s.loadFw inp.images 0).2.atStep 1).power.fw c = tabGet {} s.power.fw c := hothers c hne.1
      rw [hfw]
      exact hload c hne.2
  have hfirst := sameBoot_loadFw s inp.images 0
  have hrest := sameBoot_loadFws ((s.loadFw inp.images 0).2.atStep 1) inp.images [1, 2, 3, 4, 5]
  generalize hu : ((s.loadFw inp.images 0).2.atStep 1).loadFws inp.images [1, 2, 3, 4, 5] = loaded at hall hrest
  have hstart : SameStart s (loaded.2.atStep 2) :=
    hfirst.start.trans ((atStep_start _ 1).trans (hrest.start.trans (atStep_start _ 2)))
  have hpower := hrest.power
  have hpower0 := hfirst.power
  have hbooted : s.booted inp = (loaded.2.atStep 2).loadRecord inp := by
    rw [State.booted, hflash, hloads]
    simp only [hu, hall, Bool.not_true, Bool.false_eq_true, if_false]
  have howner : (loaded.2.atStep 2).power.ownerKey = s.power.ownerKey := by
    rw [State.atStep, hpower, State.atStep, hpower0]
  have hconfig : (loaded.2.atStep 2).power.configRecord = s.power.configRecord := by
    rw [State.atStep, hpower, State.atStep, hpower0]
  have hserial : (loaded.2.atStep 2).power.lastRecordSerial = s.power.lastRecordSerial := by
    rw [State.atStep, hpower, State.atStep, hpower0]
  refine ⟨loaded.2.atStep 2, hstart, hbooted ▸ loadRecord_arrives (hstart.phase.trans hphase) (howner ▸ hkey)
    (hconfig ▸ himage) ?_ hpop hsound⟩
  rw [hconfig, recordConf_congr howner hserial]
  exact hrecord

/-- What the record and the limits leave of the state: the configuration is the record's. -/
theorem configured_power (s : State) (conf : Conf) : (s.configured conf).power.stopped = s.power.stopped ∧
    (s.configured conf).power.perstReleased = s.power.perstReleased ∧
    (s.configured conf).power.refclkOk = s.power.refclkOk := ⟨rfl, rfl, rfl⟩

theorem poweredLimited_power (s : State) (conf : Conf) (inp : StartInput) :
    (s.limited conf inp).powered.power.diesPowered = true ∧
    (s.limited conf inp).powered.power.stopped = s.power.stopped ∧
    (s.limited conf inp).powered.conf = s.conf ∧ (s.limited conf inp).powered.pkg = s.pkg ∧
    (s.limited conf inp).powered.power.perstReleased = s.power.perstReleased ∧
    (s.limited conf inp).powered.power.refclkOk = s.power.refclkOk :=
  ⟨rfl, rfl, rfl, rfl, rfl, rfl⟩

theorem poweredOf_power (s : State) (conf : Conf) (inp : StartInput) :
    (((s.located inp).configured conf).limited conf inp).powered.power.diesPowered = true ∧
    (((s.located inp).configured conf).limited conf inp).powered.power.stopped = s.power.stopped ∧
    (((s.located inp).configured conf).limited conf inp).powered.conf = conf ∧
    (((s.located inp).configured conf).limited conf inp).powered.pkg.suffix = derivePop inp.sites ∧
    (((s.located inp).configured conf).limited conf inp).powered.power.perstReleased = s.power.perstReleased ∧
    (((s.located inp).configured conf).limited conf inp).powered.power.refclkOk = s.power.refclkOk := by
  obtain ⟨hpowered, hstopped, hconf, hpkg, hperst, hclock⟩ := poweredLimited_power ((s.located inp).configured conf) conf inp
  obtain ⟨hstopped', hperst', hclock'⟩ := configured_power (s.located inp) conf
  refine ⟨hpowered, hstopped.trans hstopped', hconf.trans ?_, ?_, hperst.trans hperst', hclock.trans hclock'⟩
  · exact (configured_keeps (s.located inp) conf inp).1
  · rw [hpkg]
    exact congrArg Package.suffix (configured_keeps (s.located inp) conf inp).2.1

/-! ### The end of the alignment wait (R37, R41, R410) -/

theorem alignmentWait_of_starting (hphase : s.power.phase = .starting) :
    exec (.alignmentWaitTimeout dt) s = .next (s.advance dt).endStep9 := by
  rw [exec_alignmentWaitTimeout, execAlignmentWaitTimeout]
  simp only [advance_power, hphase]
  rfl

theorem alignmentWait_of_serving (hphase : s.power.phase = .serving) (hstep : s.power.step = 10)
    (hdue : s.power.startTide + (if s.conf.isReference then 300000 else 2000000000) ≤ (s.advance dt).tide) :
    exec (.alignmentWaitTimeout dt) s = .next (if s.conf.isReference then ((s.advance dt).reachReady 0).setError 0 0
      else (s.advance dt).reachReady 0) := by
  have hphase' : (s.advance dt).power.phase = .serving := hphase
  have hstep' : (s.advance dt).power.step = 10 := hstep
  have hdue' : ¬ (s.advance dt).tide < (s.advance dt).power.startTide +
      (if (s.advance dt).conf.isReference then 300000 else 2000000000) := Nat.not_lt.mpr hdue
  rw [exec_alignmentWaitTimeout, execAlignmentWaitTimeout, apply_ite Host.Outcome.next]
  simp only [hphase', hstep', hdue', ne_eq, not_true_eq_false, decide_false, Bool.or_false, Bool.false_eq_true,
    if_false]
  rfl

/-- The module is ready, and its Tidemark is the one that the wait ended with. -/
theorem reachReady_frame (s : State) (tide : Nat) : (s.reachReady tide).power.ready = true ∧
    (s.reachReady tide).power.step = 11 ∧ (s.reachReady tide).tide = tide ∧
    (s.reachReady tide).commit = { s.commit with lastCommitTide := tide, lastConfigTide := tide } ∧
    (s.reachReady tide).mem = s.mem ∧ (s.reachReady tide).conf = s.conf := ⟨rfl, rfl, rfl, rfl, rfl, rfl⟩

/-- Settles O18: the edge is kept or taken; what it takes ends in one of three ways, and passes every check that holds. -/
theorem startUpServesOrStops : Obligations.StartUpServesOrStops := by
  unfold Obligations.StartUpServesOrStops
  refine ⟨?_, ?_, ?_, ?_, ?_⟩
  · intro dt inp s hoff hheld hlow
    exact startUp_of_low hoff hheld hlow
  · intro dt inp s hoff hheld hen hreset
    obtain ⟨hphase, hen', hreset', hslot, hrelease, -⟩ := edgeTaken_power (s.advance dt) inp
    obtain ⟨hpins, hended⟩ := booted_ends inp hphase
    refine ⟨_, startUp_of_high hoff hheld hen hreset, hpins.pwrEn.trans hen', hpins.modReset.trans hreset',
      hpins.slotId.trans hslot, hpins.releasePending.trans hrelease, hended, fun hflash => ?_⟩
    rw [booted_of_unreadable hflash]
    exact ⟨rfl, rfl, rfl⟩
  · intro dt inp conf present s hoff hheld hen hreset hpending hkey himage hflash hload hrecord hpop hbridges hpresent
      hdies hfeatures hseams htiers
    subst hpresent
    obtain ⟨hphase, -, -, -, -, hstopped, hfw, hclock, hperst⟩ := edgeTaken_power (s.advance dt) inp
    have howner : ((s.advance dt).edgeTaken inp).power.ownerKey = s.power.ownerKey := by simp [State.edgeTaken, hpending]
    have hconfig : ((s.advance dt).edgeTaken inp).power.configRecord = s.power.configRecord := by
      simp [State.edgeTaken, hpending]
    obtain ⟨u, hstart, harrives⟩ := booted_arrives (s := (s.advance dt).edgeTaken inp) (conf := conf) hphase
      (howner ▸ hkey) (hconfig ▸ himage) hflash (by rw [hfw]; exact hload)
      (by rw [hconfig, recordConf_congr howner rfl]; exact hrecord) hpop ⟨hbridges, hdies, hfeatures, hseams, htiers⟩
    obtain ⟨hpowered, hkept, hconf, hsuffix, hperst', hclock'⟩ := poweredOf_power u conf inp
    refine ⟨_, startUp_of_high hoff hheld hen hreset, harrives.diesPowered.trans hpowered,
      harrives.stopped.trans (hkept.trans (hstart.stopped.trans hstopped)), harrives.conf.trans hconf, ?_,
      harrives.serves, harrives.suffix.trans (hsuffix.trans hpop), ?_⟩
    · have hend := harrives.phase
      rw [hperst', hclock', hstart.perstReleased, hstart.refclkOk, hperst, hclock] at hend
      exact hend
    · have htrained := harrives.trained
      rw [hsuffix, hpop] at htrained
      exact htrained
  · intro dt s hphase hstep hdue
    obtain ⟨hserving, hgood, hnow, hframe⟩ := served_power (s.advance dt)
    refine ⟨(s.advance dt).served, ?_, hserving, hgood, hnow, hframe⟩
    rw [alignmentWait_of_starting hphase, endStep9_of_waiting (s := s.advance dt) hphase hstep, if_pos]
    exact Bool.or_eq_true_iff.mpr (.inr (decide_eq_true hdue))
  · intro dt s hphase hstep hdue
    rw [alignmentWait_of_serving hphase hstep hdue]
    have hready := reachReady_frame (s.advance dt) 0
    split
    · refine ⟨_, rfl, ?_⟩
      rw [setError_frame]
      exact hready
    · exact ⟨_, rfl, hready⟩

end Sys2Proof.Machine
end

section
/-! PROOF. DMA channels start, fetch their programs, and stop with a resume point (chapter 16). -/

namespace Sys2Proof.Machine

variable {s t u : State}

theorem exec_dmaStart (dt : Nat) (r : Fin 17) (host : List Byte) (s : State) :
    exec (.dmaStart dt r host) s = execDmaStart dt r host s := rfl

theorem exec_channelLeaseExpiry (dt : Nat) (n : Fin 192) (s : State) :
    exec (.channelLeaseExpiry dt n) s = execChannelLeaseExpiry dt n s := rfl

theorem exec_busError (dt : Nat) (d : Fin 6) (addr : W64) (s : State) :
    exec (.busError dt d addr) s = execBusError dt d addr s := rfl

/-! ### What a request of a complex depends on (R21, R24, R359) -/

/-- Two states in which a complex reaches the same memory, and reads the same there. -/
structure SameReach (s t : State) : Prop where
  mem : t.mem = s.mem
  poison : t.poison = s.poison
  pkg : t.pkg = s.pkg
  dies : t.dies = s.dies
  farStacks : t.farStacks = s.farStacks
  seamTrain : t.seamTrain = s.seamTrain
  complexes : t.dma.complexes = s.dma.complexes

theorem SameReach.rfl : SameReach s s :=
  ⟨Eq.refl _, Eq.refl _, Eq.refl _, Eq.refl _, Eq.refl _, Eq.refl _, Eq.refl _⟩

theorem SameReach.trans (hst : SameReach s t) (htu : SameReach t u) : SameReach s u :=
  ⟨htu.mem.trans hst.mem, htu.poison.trans hst.poison, htu.pkg.trans hst.pkg, htu.dies.trans hst.dies,
    htu.farStacks.trans hst.farStacks, htu.seamTrain.trans hst.seamTrain, htu.complexes.trans hst.complexes⟩

theorem sameReach_modChannel (s : State) (n : Nat) (f : Channel → Channel) : SameReach s (s.modChannel n f) :=
  ⟨rfl, rfl, rfl, rfl, rfl, rfl, rfl⟩

theorem sameReach_setWait (s : State) (ref : CmdRef) (w : WaitFor) (deadline : Option Nat) :
    SameReach s (s.setWait ref w deadline) := ⟨rfl, rfl, rfl, rfl, rfl, rfl, rfl⟩

section Reach

variable (h : SameReach s t)

include h

theorem SameReach.servingComplex (n : Nat) : t.servingComplex n = s.servingComplex n := by
  simp only [State.servingComplex, State.complex, h.complexes]
    <;> rfl

theorem SameReach.resolve : t.resolve = s.resolve := resolve_congr h.pkg

theorem SameReach.crosses (b key : Nat) : t.crosses b key = s.crosses b key := by
  simp only [State.crosses, State.keyBase, State.seamBetween, State.nStacks, h.pkg, h.seamTrain]

theorem SameReach.rangeWaits (b key n : Nat) : t.rangeWaits b key n = s.rangeWaits b key n := by
  have hrepaired (k : Nat) : t.keyRepaired k = s.keyRepaired k := by
    simp only [State.keyRepaired, State.die, h.dies]
  have hheld (k : Nat) : t.keyHeld k = s.keyHeld k := by
    simp only [State.keyHeld, State.keyRetrains, State.keyPaused, State.die, State.stack, State.nStacks, h.dies, h.pkg,
      h.farStacks]
  simp only [State.rangeWaits, hrepaired, hheld, h.crosses]

theorem SameReach.badRequest (d key n : Nat) : t.badRequest d key n = s.badRequest d key n := by
  have hserved : t.keyServed key = s.keyServed key := by simp only [State.keyServed, State.die, h.dies]
  simp only [State.badRequest, State.rangeCut, hserved, h.crosses]

theorem SameReach.read (a n : Nat) : t.read a n = s.read a n := by rw [State.read, State.read, h.mem]

theorem SameReach.firstPoison (a n : Nat) : t.firstPoison a n = s.firstPoison a n := by
  simp only [State.firstPoison, State.unitPoisoned, h.poison, farFailed_congr s h.pkg h.farStacks]

end Reach

/-! ### Instructions fetched (R352) -/

/-- What the instruction at a key is, with the poison that it carries. -/
def State.instrAt (s : State) (key : Nat) : List Byte × Option Nat := (s.read key 32, s.firstPoison key 32)

theorem SameReach.instrAt (h : SameReach s t) (key : Nat) : t.instrAt key = s.instrAt key := by
  rw [State.instrAt, h.read, h.firstPoison, State.instrAt]

/-- The channel holds one more instruction. -/
def Channel.fetched (x : Channel) (i : Nat) (e : List Byte × Option Nat) : Channel := { x with prog := tabSet x.prog i e }

/-- The instruction of a channel can be fetched now: nothing holds it, and it is reached. -/
def State.reaches (s : State) (n : Nat) (x : Channel) (i : Nat) : Prop :=
  ∃ key, s.resolve dmaSpaces x.dieOf (x.progAddr + 32 * i) 32 = some key ∧
    s.rangeWaits (s.servingComplex n) key 32 = false ∧ s.badRequest (s.servingComplex n) key 32 = false

theorem SameReach.reaches (h : SameReach s t) {n : Nat} {x : Channel} {i : Nat} (hreach : s.reaches n x i) :
    t.reaches n x i := by
  obtain ⟨key, hresolve, hwaits, hbad⟩ := hreach
  refine ⟨key, ?_, ?_, ?_⟩
  · rw [h.resolve]
    exact hresolve
  · rw [h.servingComplex, h.rangeWaits]
    exact hwaits
  · rw [h.servingComplex, h.badRequest]
    exact hbad

theorem fetchInstr_of_reached {n i key : Nat} (hactive : (s.channel n).active = true)
    (hnew : tabFind (s.channel n).prog i = none)
    (hresolve : s.resolve dmaSpaces (s.channel n).dieOf ((s.channel n).progAddr + 32 * i) 32 = some key)
    (hwaits : s.rangeWaits (s.servingComplex n) key 32 = false)
    (hbad : s.badRequest (s.servingComplex n) key 32 = false) :
    fetchInstr n (s, true) i = (s.modChannel n (·.fetched i (s.instrAt key)), true) := by
  unfold fetchInstr
  simp only [hactive, hnew, hresolve, hwaits, hbad, Bool.not_true, Option.isSome_none, Bool.or_self,
    Bool.false_eq_true, if_false]
  rfl

/-- What the fetching of some instructions leaves: only the channel's program is another, and it holds each of them. -/
structure Fetches (n : Nat) (is : List Nat) (s t : State) : Prop where
  reach : SameReach s t
  frame : t = { s with dma := t.dma }
  self : t.channel n = { s.channel n with prog := (t.channel n).prog }
  others : ∀ m, m ≠ n → t.channel m = s.channel m
  held : ∀ i ∈ is, ∀ key,
    s.resolve dmaSpaces (s.channel n).dieOf ((s.channel n).progAddr + 32 * i) 32 = some key →
      tabFind (t.channel n).prog i = some (s.instrAt key)
  kept : ∀ i, i ∉ is → tabFind (t.channel n).prog i = tabFind (s.channel n).prog i

theorem modChannel_fetches (s : State) {n i key : Nat} 
    (hresolve : s.resolve dmaSpaces (s.channel n).dieOf ((s.channel n).progAddr + 32 * i) 32 = some key) :
    Fetches n [i] s (s.modChannel n (·.fetched i (s.instrAt key))) := by
  have hself := modChannel_channel s n (·.fetched i (s.instrAt key))
  refine ⟨sameReach_modChannel .., rfl, by rw [hself]; rfl, fun m hm => modChannel_channel_ne _ _ _ _ hm, ?_, ?_⟩
  · intro j hj key' hkey'
    obtain rfl := List.mem_singleton.mp hj
    obtain rfl := Option.some.inj (hresolve.symm.trans hkey')
    rw [hself]
    exact tabFind_tabSet_same ..
  · intro j hj
    rw [hself]
    exact tabFind_tabSet_ne _ _ _ _ (List.mem_singleton.not.mp hj)

theorem Fetches.append {n : Nat} {is js : List Nat} (hst : Fetches n is s t) (htu : Fetches n js t u)
    (hnew : ∀ i ∈ is, i ∉ js) : Fetches n (is ++ js) s u := by
  have hdie : (t.channel n).dieOf = (s.channel n).dieOf := by rw [hst.self]; rfl
  have haddr : (t.channel n).progAddr = (s.channel n).progAddr := by rw [hst.self]
  refine ⟨hst.reach.trans htu.reach, ?_, ?_, fun m hm => (htu.others m hm).trans (hst.others m hm), ?_, ?_⟩
  · rw [htu.frame, hst.frame]
  · rw [htu.self, hst.self]
  · intro j hj key hkey
    rcases List.mem_append.mp hj with hj | hj
    · rw [htu.kept j (hnew j hj)]
      exact hst.held j hj key hkey
    · rw [htu.held j hj key (by rw [hst.reach.resolve, hdie, haddr]; exact hkey), hst.reach.instrAt]
  · intro j hj
    rw [htu.kept j fun h => hj (List.mem_append_right _ h), hst.kept j fun h => hj (List.mem_append_left _ h)]

theorem Fetches.nil (n : Nat) (s : State) : Fetches n [] s s :=
  ⟨.rfl, rfl, rfl, fun _ _ => rfl, fun _ h => absurd h List.not_mem_nil, fun _ _ => rfl⟩

/-- Instructions that can be fetched, and are not held, are fetched one after the other. -/
theorem foldl_fetchInstr (n : Nat) (is : List Nat) (hnodup : is.Nodup) (hactive : (s.channel n).active = true)
    (hnew : ∀ i ∈ is, tabFind (s.channel n).prog i = none) (hreach : ∀ i ∈ is, s.reaches n (s.channel n) i) :
    Fetches n is s (is.foldl (fetchInstr n) (s, true)).1 := by
  induction is generalizing s with
  | nil => exact .nil n s
  | cons i is ih =>
    obtain ⟨hout, hnodup'⟩ := List.nodup_cons.mp hnodup
    obtain ⟨key, hresolve, hwaits, hbad⟩ := hreach i List.mem_cons_self
    have hfirst := modChannel_fetches s hresolve
    rw [List.foldl_cons, fetchInstr_of_reached hactive (hnew i List.mem_cons_self) hresolve hwaits hbad]
    generalize s.modChannel n (·.fetched i (s.instrAt key)) = t at hfirst
    refine hfirst.append (ih hnodup' ?_ (fun j hj => ?_) fun j hj => ?_) fun j hj => List.mem_singleton.mp hj ▸ hout
    · rw [hfirst.self]
      exact hactive
    · have hne : j ≠ i := fun heq => hout (heq ▸ hj)
      rw [hfirst.kept j (List.mem_singleton.not.mpr hne)]
      exact hnew j (List.mem_cons_of_mem _ hj)
    · have hold := hfirst.reach.reaches (hreach j (List.mem_cons_of_mem _ hj))
      rw [hfirst.self]
      exact hold

/-- What a channel at a PC fetches ahead: the instruction there and up to 8 more. -/
def aheadOf (pc len : Nat) : List Nat := ((List.range 9).map (pc + ·)).filter (fun i => decide (i < len))

theorem mem_aheadOf {pc len i : Nat} : i ∈ aheadOf pc len ↔ pc ≤ i ∧ i ≤ pc + 8 ∧ i < len := by
  simp only [aheadOf, List.mem_filter, List.mem_map, List.mem_range, decide_eq_true_eq]
  constructor
  · rintro ⟨⟨k, hk, rfl⟩, hlen⟩
    exact ⟨by omega, by omega, hlen⟩
  · rintro ⟨hlow, hhigh, hlen⟩
    exact ⟨⟨i - pc, by omega, by omega⟩, hlen⟩

theorem aheadOf_nodup (pc len : Nat) : (aheadOf pc len).Nodup :=
  (List.nodup_range.map fun _ _ h => Nat.add_left_cancel h).filter _

/-- The channel gives up what it holds of the program away from the PC. -/
def Channel.keepsAhead (x : Channel) (pc : Nat) : Channel :=
  { x with prog := x.prog.filter (fun e => decide (pc ≤ e.1) && decide (e.1 ≤ pc + 8)) }

theorem fetchAhead_of_host {n : Nat} (h : addrSpace (s.channel n).progAddr = 7) : s.fetchAhead n = s :=
  if_pos (by rw [h]; simp)

/-- A channel that holds nothing yet fetches all that it may fetch ahead, if all of it is reached. -/
theorem fetchAhead_of_reached {n : Nat} (hactive : (s.channel n).active = true)
    (hspace : addrSpace (s.channel n).progAddr ≠ 7) (hempty : (s.channel n).prog = [])
    (hreach : ∀ i ∈ aheadOf (s.channel n).pc (s.channel n).progLen, s.reaches n (s.channel n) i) :
    Fetches n (aheadOf (s.channel n).pc (s.channel n).progLen) s (s.fetchAhead n) := by
  have hcond : ¬ (!(s.channel n).active || addrSpace (s.channel n).progAddr == 7) = true := by simp [hactive, hspace]
  have hself := modChannel_channel s n (·.keepsAhead (s.channel n).pc)
  have hsame : (s.channel n).keepsAhead (s.channel n).pc = s.channel n := by
    rw [Channel.keepsAhead, hempty, List.filter_nil, ← hempty]
  rw [hsame] at hself
  have hkeeps : Fetches n [] s (s.modChannel n (·.keepsAhead (s.channel n).pc)) :=
    ⟨sameReach_modChannel .., rfl, by rw [hself], fun m hm => modChannel_channel_ne _ _ _ _ hm,
      fun _ h => absurd h List.not_mem_nil, fun _ _ => by rw [hself]⟩
  have hfetch : s.fetchAhead n = ((aheadOf (s.channel n).pc (s.channel n).progLen).foldl (fetchInstr n)
      (s.modChannel n (·.keepsAhead (s.channel n).pc), true)).1 := if_neg hcond
  rw [hfetch]
  refine hkeeps.append (foldl_fetchInstr n _ (aheadOf_nodup ..) ?_ (fun i _ => ?_) fun i hi => ?_) fun _ h =>
    absurd h List.not_mem_nil
  · rw [hself]
    exact hactive
  · rw [hself, hempty]
    rfl
  · have hold := hkeeps.reach.reaches (hreach i hi)
    rw [hself]
    exact hold

/-! ### DMA_START (R350, R351, R361) -/

section Launch

variable (x : Channel) (ref : CmdRef) (die addr len lease : Nat) (prog : Tab (List Byte × Option Nat))

theorem launch_fields (resume : Bool) : (x.launch ref resume die addr len lease prog).state = 1 ∧
    (x.launch ref resume die addr len lease prog).cmd = some ref ∧
    (x.launch ref resume die addr len lease prog).die = die ∧
    (x.launch ref resume die addr len lease prog).progAddr = addr ∧
    (x.launch ref resume die addr len lease prog).progLen = len ∧
    (x.launch ref resume die addr len lease prog).lease = lease ∧
    (x.launch ref resume die addr len lease prog).prog = prog := by
  unfold Channel.launch
  dsimp only
  split <;> exact ⟨rfl, rfl, rfl, rfl, rfl, rfl, rfl⟩

theorem launch_anew : (x.launch ref false die addr len lease prog).pc = 0 ∧
    (x.launch ref false die addr len lease prog).offS = 0 ∧ (x.launch ref false die addr len lease prog).offD = 0 ∧
    (x.launch ref false die addr len lease prog).crc = 0xFFFFFFFF ∧
    (x.launch ref false die addr len lease prog).iters = [] ∧
    (x.launch ref false die addr len lease prog).resume = none := ⟨rfl, rfl, rfl, rfl, rfl, rfl⟩

theorem launch_resumed {q : Resume} (h : x.resume = some q) :
    (x.launch ref true die addr len lease prog).pc = q.pc ∧
    (x.launch ref true die addr len lease prog).resumeByte = q.byte ∧
    (x.launch ref true die addr len lease prog).offS = q.offS ∧
    (x.launch ref true die addr len lease prog).offD = q.offD ∧
    (x.launch ref true die addr len lease prog).iters = q.iters ∧
    (x.launch ref true die addr len lease prog).crc = q.crc := by
  unfold Channel.launch
  dsimp only
  rw [h]
  exact ⟨rfl, rfl, rfl, rfl, rfl, rfl⟩

end Launch

theorem Starts.channel {dt r op : Nat} {c : Cmd} (h : Starts s dt r op c u) (n : Nat) : u.channel n = s.channel n := by
  rw [h.frame]
  rfl

theorem Starts.commit {dt r op : Nat} {c : Cmd} (h : Starts s dt r op c u) : u.commit = s.commit := by
  rw [h.frame, advance_commit]

section Start

variable {dt : Nat} {r : Fin 17} {host : List Byte} {c : Cmd} (hstart : Starts s dt r 0x60 c u)
  (hchecks : firstFail (dmaChecks u c) = none)

include hstart hchecks

theorem dmaStart_of_draining (hdie : c.param 2 1 < 12) (hservice : (u.die (c.param 2 1)).service = 1) :
    exec (.dmaStart dt r host) s = .next (u.complete c .faulted 0 []) := by
  rw [exec_dmaStart, execDmaStart]
  simp only [hstart.take, hchecks, hdie, hservice, decide_true, BEq.rfl, Bool.and_self, if_true]

theorem dmaStart_of_orphan (hdie : 12 ≤ c.param 2 1 ∨ (u.die (c.param 2 1)).service ≠ 1)
    (horphan : u.channelOrphan (c.param 0 2) = true) :
    exec (.dmaStart dt r host) s = .next (u.complete c .faulted 5 []) := by
  have hserves : ¬ (decide (c.param 2 1 < 12) && (u.die (c.param 2 1)).service == 1) = true := by
    simpa [imp_iff_or_not, or_comm] using hdie
  rw [exec_dmaStart, execDmaStart]
  simp only [hstart.take, hchecks, hserves, horphan, if_true, Bool.false_eq_true, if_false]

/-- The state in which a start that passes fetches: its channel is launched, and its command waits for the channel. -/
def State.dmaLaunched (u : State) (c : Cmd) (prog : Tab (List Byte × Option Nat)) : State :=
  (u.modChannel (c.param 0 2) (fun x => x.launch c.ref ((c.param 3 1).testBit 0) (c.param 2 1) (c.param 8 8)
    (c.param 0x10 2) (u.tide + 1000 * c.param 4 4) prog)).setWait c.ref .channel none

/-- The program of a start in host memory is what DMA_START was given; that of another is fetched. -/
def dmaProgram (c : Cmd) (host : List Byte) : Tab (List Byte × Option Nat) :=
  if addrSpace (c.param 8 8) = 7 then (List.range (c.param 0x10 2)).map
    (fun i => (i, (((padTo (32 * c.param 0x10 2) host).drop (32 * i)).take 32, none)))
  else []

theorem dmaStart_of_pass (hdie : 12 ≤ c.param 2 1 ∨ (u.die (c.param 2 1)).service ≠ 1)
    (horphan : u.channelOrphan (c.param 0 2) = false) : exec (.dmaStart dt r host) s =
      .next ((u.dmaLaunched c (dmaProgram c host)).fetchAhead (c.param 0 2)) := by
  have hserves : ¬ (decide (c.param 2 1 < 12) && (u.die (c.param 2 1)).service == 1) = true := by
    simpa [imp_iff_or_not, or_comm] using hdie
  rw [exec_dmaStart, execDmaStart]
  simp only [hstart.take, hchecks, hserves, horphan, Bool.false_eq_true, if_false]
  rfl

end Start

section Launched

variable (u : State) (c : Cmd) (prog : Tab (List Byte × Option Nat))

theorem dmaLaunched_reach : SameReach u (u.dmaLaunched c prog) :=
  (sameReach_modChannel ..).trans (sameReach_setWait ..)

theorem dmaLaunched_channel : (u.dmaLaunched c prog).channel (c.param 0 2) =
    (u.channel (c.param 0 2)).launch c.ref ((c.param 3 1).testBit 0) (c.param 2 1) (c.param 8 8) (c.param 0x10 2)
      (u.tide + 1000 * c.param 4 4) prog := modChannel_channel ..

theorem dmaLaunched_channel_ne {m : Nat} (h : m ≠ c.param 0 2) :
    (u.dmaLaunched c prog).channel m = u.channel m := modChannel_channel_ne _ _ _ _ h

theorem dmaLaunched_commit : (u.dmaLaunched c prog).commit = u.commit := rfl

end Launched

/-- The channel launched, with what it may fetch ahead held, if all of that is reached. -/
theorem fetchAhead_of_launched (u : State) (c : Cmd) (host : List Byte) {n pc : Nat} (hn : n = c.param 0 2)
    (hpc : ((u.dmaLaunched c (dmaProgram c host)).channel n).pc = pc)
    (hreach : addrSpace (c.param 8 8) ≠ 7 → ∀ i, pc ≤ i → i ≤ pc + 8 → i < c.param 0x10 2 →
      ∃ key, u.resolve dmaSpaces (if c.param 2 1 < 12 then some (c.param 2 1) else none) (c.param 8 8 + 32 * i) 32 = some key ∧
        u.rangeWaits (u.servingComplex n) key 32 = false ∧ u.badRequest (u.servingComplex n) key 32 = false) :
    Fetches n (if addrSpace (c.param 8 8) = 7 then [] else aheadOf pc (c.param 0x10 2))
      (u.dmaLaunched c (dmaProgram c host)) ((u.dmaLaunched c (dmaProgram c host)).fetchAhead n) := by
  subst hn
  obtain ⟨hstate, -, hdie, haddr, hlen, -, hprog⟩ := launch_fields (u.channel (c.param 0 2)) c.ref (c.param 2 1)
    (c.param 8 8) (c.param 0x10 2) (u.tide + 1000 * c.param 4 4) (dmaProgram c host) ((c.param 3 1).testBit 0)
  rw [← dmaLaunched_channel] at hstate hdie haddr hlen hprog
  have hall := dmaLaunched_reach u c (dmaProgram c host)
  generalize hv : u.dmaLaunched c (dmaProgram c host) = v at *
  split
  · next hspace =>
    rw [fetchAhead_of_host (by rw [haddr]; exact hspace)]
    exact .nil ..
  · next hspace =>
    rw [← hpc, ← hlen]
    refine fetchAhead_of_reached (by rw [Channel.active, hstate]; rfl) (by rw [haddr]; exact hspace) ?_ fun i hi => ?_
    · rw [hprog, dmaProgram, if_neg hspace]
    · obtain ⟨hlow, hhigh, hend⟩ := mem_aheadOf.mp hi
      rw [hpc] at hlow hhigh
      rw [hlen] at hend
      obtain ⟨key, hresolve, hwaits, hbad⟩ := hreach hspace i hlow hhigh hend
      refine hall.reaches ⟨key, ?_, hwaits, hbad⟩
      rw [Channel.dieOf, hdie, haddr]
      exact hresolve

/-! ### Stops of channels (R359 to R361) -/

theorem stopChannel_of_inactive {n : Nat} (h : (s.channel n).active = false) (cause : Nat) (st : Status)
    (detail : Nat) : s.stopChannel n cause st detail = s := if_pos (by rw [h]; rfl)

theorem finish_findCmd_ne {ref other : CmdRef} (h : ref ≠ other) (st : Status) (detail : Nat) (body : List Byte) :
    (s.finish other st detail body).findCmd ref = s.findCmd ref := findCmd_modCmd_ne (fun _ => rfl) h

/-- A command that has finished with FAULTED and DETAIL 1 (R359). -/
def Cmd.busFaulted (c : Cmd) : Prop := ∃ body, c.work = .finished .faulted 1 body

/-- What one stop leaves of the commands: each is found as before, and one that has ended so stays ended. -/
theorem stopChannel_keepsFound (n : Nat) {ref : CmdRef} {e : Cmd} (h : s.findCmd ref = some e) :
    ∃ e', (s.stopChannel n 1 .faulted 1).findCmd ref = some e' ∧ (e.busFaulted → e'.busFaulted) := by
  cases hactive : (s.channel n).active with
  | false =>
    rw [stopChannel_of_inactive hactive]
    exact ⟨e, h, id⟩
  | true =>
    rw [stopChannel_of_active hactive, State.endDma]
    split
    · exact ⟨e, h, id⟩
    · next other _ =>
      by_cases heq : ref = other
      · subst heq
        exact ⟨_, findCmd_modCmd (fun _ => rfl) h, fun _ => ⟨_, rfl⟩⟩
      · exact ⟨e, (finish_findCmd_ne heq ..).trans h, id⟩

/-- The channels stop one after the other, and the commands of those that are at work end. -/
def State.stopForBus (s : State) (ns : List Nat) : State := ns.foldl (fun st n => st.stopChannel n 1 .faulted 1) s

/-- Two states that differ at most in the channels and in the rings. -/
def SameButStops (s t : State) : Prop :=
  t = { s with
    dma := { s.dma with channels := t.dma.channels }
    host := { s.host with rings := t.host.rings } }

theorem SameButStops.trans (hst : SameButStops s t) (htu : SameButStops t u) : SameButStops s u := by
  rw [SameButStops, htu, hst]

theorem sameButStops_stopChannel (s : State) (n cause : Nat) (st : Status) (detail : Nat) :
    SameButStops s (s.stopChannel n cause st detail) := by
  cases hactive : (s.channel n).active with
  | false =>
    rw [stopChannel_of_inactive hactive]
    rfl
  | true =>
    rw [stopChannel_of_active hactive, State.endDma]
    split <;> rfl

theorem sameButStops_stopForBus (s : State) (ns : List Nat) : SameButStops s (s.stopForBus ns) :=
  foldl_keeps (R := SameButStops) (fun _ => rfl) (fun _ _ _ => .trans)
    (fun s n => sameButStops_stopChannel s n 1 .faulted 1) ns s

theorem stopForBus_channel_of_out (ns : List Nat) {m : Nat} (h : m ∉ ns ∨ (s.channel m).active = false) :
    (s.stopForBus ns).channel m = s.channel m := by
  induction ns generalizing s with
  | nil => rfl
  | cons n ns ih =>
    have hfirst : (s.stopChannel n 1 .faulted 1).channel m = s.channel m := by
      cases hactive : (s.channel n).active with
      | false => rw [stopChannel_of_inactive hactive]
      | true =>
        refine stopChannel_channel_ne hactive _ _ _ ?_
        rintro rfl
        rcases h with hout | hidle
        · exact hout List.mem_cons_self
        · exact Bool.false_ne_true (hidle.symm.trans hactive)
    refine (ih ?_).trans hfirst
    rw [hfirst]
    exact h.imp_left fun hout hin => hout (List.mem_cons_of_mem _ hin)

theorem stopForBus_channel (ns : List Nat) (hnodup : ns.Nodup) {m : Nat} (hm : m ∈ ns)
    (hactive : (s.channel m).active = true) : (s.stopForBus ns).channel m = (s.channel m).stopped 1 := by
  induction ns generalizing s with
  | nil => exact absurd hm List.not_mem_nil
  | cons n ns ih =>
    obtain ⟨hout, hnodup'⟩ := List.nodup_cons.mp hnodup
    by_cases heq : m = n
    · subst heq
      exact (stopForBus_channel_of_out ns (.inl hout)).trans (stopChannel_channel hactive ..)
    · have hsame := (stopForBus_channel_of_out (s := s) [n] (m := m) (.inl (by simpa using heq)) :)
      have hin : m ∈ ns := (List.mem_cons.mp hm).resolve_left heq
      exact (ih hnodup' hin (by rw [← hactive]; exact congrArg Channel.active hsame)).trans
        (congrArg (·.stopped 1) hsame)

/-- The command of a channel that was at work has ended with FAULTED and DETAIL 1; others may share it. -/
theorem stopForBus_found (ns : List Nat) (hnodup : ns.Nodup) {ref : CmdRef} {e : Cmd} (hfind : s.findCmd ref = some e)
    (h : e.busFaulted ∨ ∃ m ∈ ns, (s.channel m).active = true ∧ (s.channel m).cmd = some ref) :
    ∃ e', (s.stopForBus ns).findCmd ref = some e' ∧ e'.busFaulted := by
  induction ns generalizing s e with
  | nil => exact ⟨e, hfind, h.resolve_right fun ⟨_, hm, _⟩ => absurd hm List.not_mem_nil⟩
  | cons n ns ih =>
    obtain ⟨hout, hnodup'⟩ := List.nodup_cons.mp hnodup
    obtain ⟨e', hfind', hkept⟩ := stopChannel_keepsFound n hfind
    rcases h with hended | ⟨m, hm, hactive, hcmd⟩
    · exact ih hnodup' hfind' (.inl (hkept hended))
    · by_cases heq : m = n
      · subst heq
        exact ih hnodup' (stopChannel_findCmd hactive hcmd hfind) (.inl ⟨_, rfl⟩)
      · have hsame := (stopForBus_channel_of_out (s := s) [n] (m := m) (.inl (by simpa using heq)) :)
        have hsame' : (s.stopChannel n 1 .faulted 1).channel m = s.channel m := hsame
        have hin : m ∈ ns := (List.mem_cons.mp hm).resolve_left heq
        exact ih hnodup' hfind' (.inr ⟨m, hin, by rw [hsame']; exact hactive, by rw [hsame']; exact hcmd⟩)

/-! ### Bus errors (R359) -/

/-- Complexes keep the address and the Tidemark of a bus error. -/
def State.keepBus (s : State) (addr : W64) (es : List Nat) : State := es.foldl (fun st e =>
  st.modComplex e (fun x => { x with busAddr := addr, busTide := st.tide })) s

theorem keepBus_frame (s : State) (addr : W64) (es : List Nat) : s.keepBus addr es = { s with
    dma := { s.dma with complexes := (s.keepBus addr es).dma.complexes } } :=
  foldl_keeps (R := fun s t : State => t = { s with dma := { s.dma with complexes := t.dma.complexes } })
    (fun _ => rfl) (fun _ _ _ hst htu => by rw [htu, hst])
    (fun s e => (rfl : s.modComplex e (fun x => { x with busAddr := addr, busTide := s.tide }) = _)) es s

theorem keepBus_complex (addr : W64) (es : List Nat) {e : Nat} (h : e ∈ es ∨ ((s.complex e).busAddr = addr ∧
    (s.complex e).busTide = s.tide)) : ((s.keepBus addr es).complex e).busAddr = addr ∧
      ((s.keepBus addr es).complex e).busTide = s.tide := by
  induction es generalizing s with
  | nil => exact h.resolve_left List.not_mem_nil
  | cons f es ih =>
    refine ih (s := s.modComplex f (fun x => { x with busAddr := addr, busTide := s.tide })) ?_
    by_cases heq : e = f
    · subst heq
      refine .inr ?_
      rw [State.complex, State.modComplex, tabGet_tabMod_same]
      exact ⟨rfl, rfl⟩
    · refine h.imp (fun hin => (List.mem_cons.mp hin).resolve_left heq) fun hkept => ?_
      rw [State.complex, State.modComplex, tabGet_tabMod_ne _ _ _ _ _ heq]
      exact hkept

/-- The channels that a complex serves. -/
def State.servedBy (s : State) (d : Nat) : List Nat := (List.range 192).filter (fun n => s.servingComplex n == d)

theorem mem_servedBy {d n : Nat} : n ∈ s.servedBy d ↔ n < 192 ∧ s.servingComplex n = d := by
  simp [State.servedBy]

theorem busError_eq (s : State) (d : Nat) (addr : W64) : s.busError d addr =
    (((s.stopForBus (s.servedBy d)).keepBus addr (((s.servedBy d).map complexOf).eraseDups)).raise 22).logRec
      (srcComplex d) 0x0060 sevError addr.toNat d 0 := rfl

/-- A record of the log takes back no message (R397). -/
theorem writeLog_sent (x : LogRec) {w : Nat} (h : w ∈ s.host.msixSent) : w ∈ (s.writeLog x).host.msixSent := by
  have hraise (v : State) (hv : w ∈ v.host.msixSent) :
      w ∈ (if v.log.intSeverity ≤ x.severity then v.raise 25 else v).host.msixSent := by
    split
    · exact raise_sent _ _ _ hv
    · exact hv
  unfold State.writeLog
  refine hraise _ ?_
  dsimp only
  split <;> exact h

theorem logRec_sent (src code sev a0 a1 a2 : Nat) {w : Nat} (h : w ∈ s.host.msixSent) :
    w ∈ (s.logRec src code sev a0 a1 a2).host.msixSent := by
  unfold State.logRec State.logFlag
  dsimp only
  split
  · exact h
  · exact writeLog_sent _ h

/-- What a record leaves: the memory, the DMA channels, the rings. -/
theorem logRec_channel (src code sev a0 a1 a2 n : Nat) :
    (s.logRec src code sev a0 a1 a2).channel n = s.channel n := by
  rw [logRec_eq]
  rfl

theorem logRec_findCmd (src code sev a0 a1 a2 : Nat) (ref : CmdRef) :
    (s.logRec src code sev a0 a1 a2).findCmd ref = s.findCmd ref := by
  rw [logRec_eq]
  rfl

theorem raise_findCmd (v : Nat) (ref : CmdRef) : (s.raise v).findCmd ref = s.findCmd ref := by
  rw [raise_eq]
  rfl

/-! ### CHANNEL_LEASE_EXPIRY (R387) -/

theorem leaseExpiry_of_due {dt : Nat} {n : Fin 192} (hactive : (s.channel n).active = true)
    (hpaused : s.channelPaused n = false) (hdue : (s.channel n).lease ≤ (s.advance dt).tide) :
    exec (.channelLeaseExpiry dt n) s = .next (((s.advance dt).stopChannel n 3 .timeout 0).logRec 0 0x0080 sevWarning
      (s.channel n).lease 0 n) := by
  have hwaits : ¬ (!(s.channel n).active || s.channelPaused n || decide ((s.advance dt).tide < (s.channel n).lease)) = true := by
    rw [hactive, hpaused, decide_eq_false (Nat.not_lt.mpr hdue)]
    decide
  rw [exec_channelLeaseExpiry, execChannelLeaseExpiry]
  exact if_neg hwaits

/-- Settles O52: a start by its checks, with what it fetches ahead; a lease that ends and a bus error by their stops. -/
theorem channelsStartAndStop : Obligations.ChannelsStartAndStop := by
  unfold Obligations.ChannelsStartAndStop
  intro dt s u c
  refine ⟨?start, ?lease, ?bus⟩
  case start =>
    rintro r host image n die addr len pc prog hstart rfl rfl rfl rfl hchecks
    refine ⟨fun ⟨hdie, hservice⟩ => dmaStart_of_draining hstart hchecks hdie hservice, fun hdie =>
      ⟨fun horphan => dmaStart_of_orphan hstart hchecks hdie horphan, fun horphan himage hprog => ?_⟩⟩
    obtain rfl : prog = dmaProgram c host := by rw [hprog, himage, dmaProgram]
    refine ⟨dmaStart_of_pass hstart hchecks hdie horphan, fun hpc hreach => ?_⟩
    have hself := dmaLaunched_channel u c (dmaProgram c host)
    have hpc' : ((u.dmaLaunched c (dmaProgram c host)).channel (c.param 0 2)).pc = pc := by
      rw [hself]
      rcases hpc with ⟨hanew, rfl⟩ | ⟨hresume, q, hq, rfl⟩
      · rw [hanew]
        rfl
      · rw [hresume]
        exact (launch_resumed _ _ _ _ _ _ _ ((congrArg Channel.resume (hstart.channel _)).trans hq)).1
    have hfetch := fetchAhead_of_launched u c host rfl hpc' hreach
    obtain ⟨hstate, hcmd, hdie', haddr, hlen, hlease, -⟩ := launch_fields (u.channel (c.param 0 2)) c.ref (c.param 2 1)
      (c.param 8 8) (c.param 0x10 2) (u.tide + 1000 * c.param 4 4) (dmaProgram c host) ((c.param 3 1).testBit 0)
    rw [← hself] at hstate hcmd hdie' haddr hlen hlease
    have hkept := hfetch.self
    refine ⟨_, dmaStart_of_pass hstart hchecks hdie horphan, ?_, ?_, ?_, ?_, ?_, ?_, ?_, ?_, ?_, ?_, ?_⟩
    · rw [hkept]; exact hstate
    · rw [hkept]; exact hcmd
    · rw [hkept]; exact hlease
    · rw [hkept]; exact hlen
    · rw [hkept]; exact hpc'
    · intro i key hlow hhigh hend hspace hkey
      have hall := dmaLaunched_reach u c (dmaProgram c host)
      have hheld := hfetch.held i (by rw [if_neg hspace]; exact mem_aheadOf.mpr ⟨hlow, hhigh, hend⟩) key
        (by rw [Channel.dieOf, hdie', haddr, hall.resolve]; exact hkey)
      rw [hheld, hall.instrAt]
      rfl
    · intro hanew
      rw [hkept, hself, hanew]
      exact (launch_anew ..).2
    · intro q hresume hq
      rw [hkept, hself, hresume]
      obtain ⟨-, hbyte, hoffS, hoffD, hiters, hcrc⟩ := launch_resumed (u.channel (c.param 0 2)) c.ref (c.param 2 1)
        (c.param 8 8) (c.param 0x10 2) (u.tide + 1000 * c.param 4 4) (dmaProgram c host)
        ((congrArg Channel.resume (hstart.channel _)).trans hq)
      exact ⟨hbyte, hoffS, hoffD, hiters, hcrc⟩
    · intro m hm
      exact (hfetch.others m hm).trans ((dmaLaunched_channel_ne u c _ hm).trans (hstart.channel m))
    · exact hfetch.reach.mem.trans ((dmaLaunched_reach ..).mem.trans hstart.mem)
    · rw [hfetch.frame]
      exact (dmaLaunched_commit u c (dmaProgram c host)).trans hstart.commit
  case lease =>
    rintro n v hactive hpaused hdue rfl
    have hactive' : ((s.advance dt).channel n).active = true := hactive
    have hexec := leaseExpiry_of_due hactive hpaused hdue
    refine ⟨fun hcmd => ?_, fun ref hcmd => ?_, _, hexec, fun m hm => ?_, ?_⟩
    · rw [hexec, stopChannel_of_active hactive', State.endDma, modChannel_channel]
      have hnone : (((s.advance dt).channel n).stopped 3).cmd = none := hcmd
      rw [hnone]
      rfl
    · have hsome : (((s.advance dt).modChannel n (·.stopped 3)).channel n).cmd = some ref := by
        rw [modChannel_channel]
        exact hcmd
      rw [hexec, stopChannel_of_active hactive', endDma_of_cmd hsome, modChannel_channel]
      rfl
    · rw [logRec_channel]
      exact stopChannel_channel_ne hactive' _ _ _ hm
    · rw [(sameButReports_logRec ..).memory.1, stopChannel_frame hactive']
      rfl
  case bus =>
    intro d addr hserves
    have hexec : exec (.busError dt d addr) s = .next ((s.advance dt).busError d addr) := by
      rw [exec_busError, execBusError]
      exact if_neg (by rw [State.complex, advance_dma]; exact (Bool.eq_false_iff.mp hserves))
    rw [busError_eq] at hexec
    have hstops := sameButStops_stopForBus (s.advance dt) ((s.advance dt).servedBy d)
    have hnodup : ((s.advance dt).servedBy d).Nodup := List.nodup_range.filter _
    have hserved (n : Nat) (hn : n < 192) (hd : s.servingComplex n = d.val) : n ∈ (s.advance dt).servedBy d :=
      mem_servedBy.mpr ⟨hn, hd⟩
    generalize hw : (s.advance dt).stopForBus ((s.advance dt).servedBy d) = w at *
    have hkeeps := keepBus_frame w addr ((((s.advance dt).servedBy d).map complexOf).eraseDups)
    have hcomplex (n : Nat) (hn : n ∈ (s.advance dt).servedBy d) := keepBus_complex (s := w) addr
      ((((s.advance dt).servedBy d).map complexOf).eraseDups) (e := complexOf n)
      (.inl (List.mem_eraseDups.mpr (List.mem_map_of_mem hn)))
    generalize w.keepBus addr ((((s.advance dt).servedBy d).map complexOf).eraseDups) = x at *
    have hchannel (n : Nat) : ((x.raise 22).logRec (srcComplex d) 0x0060 sevError addr.toNat d 0).channel n =
        w.channel n := by
      rw [logRec_channel, raise_eq, hkeeps]
      rfl
    have hfind (ref : CmdRef) : ((x.raise 22).logRec (srcComplex d) 0x0060 sevError addr.toNat d 0).findCmd ref =
        w.findCmd ref := by
      rw [logRec_findCmd, raise_findCmd, hkeeps]
      rfl
    refine ⟨_, x.raise 22, hexec, rfl, ?_, ?_, ?_, ?_, ?_, ?_⟩
    · rw [raise_eq, hkeeps, hstops]
      rfl
    · intro n hn hd hactive
      have hstopped : w.channel n = (s.channel n).stopped 1 :=
        hw ▸ stopForBus_channel (s := s.advance dt) _ hnodup (hserved n hn hd) hactive
      rw [hchannel, hstopped]
      refine ⟨rfl, rfl, rfl, fun ref e hcmd he => ?_⟩
      obtain ⟨e', he', body, hwork⟩ := stopForBus_found (s := s.advance dt) _ hnodup he
        (.inr ⟨n, hserved n hn hd, hactive, hcmd⟩)
      exact ⟨e', body, (hfind ref).trans (hw ▸ he'), hwork⟩
    · intro n hn hd
      have hbus := hcomplex n (hserved n hn hd)
      have hsame : ((x.raise 22).logRec (srcComplex d) 0x0060 sevError addr.toNat d 0).complex (complexOf n) =
          x.complex (complexOf n) := by
        rw [logRec_eq, raise_eq]
        rfl
      have htide : w.tide = (s.advance dt).tide := by rw [hstops]
      rw [hsame, ← htide]
      exact hbus
    · intro n hn hout
      rw [hchannel, ← hw]
      refine stopForBus_channel_of_out (s := s.advance dt) _ (hout.imp_left fun hd hin => hd ?_)
      exact (mem_servedBy.mp hin).2
    · intro henabled hfunction hmask
      refine logRec_sent _ _ _ _ _ _ ?_
      have hhost : x.host = { s.host with rings := w.host.rings } := by rw [hkeeps, hstops]; rfl
      have hconf : x.conf = s.conf := by rw [hkeeps, hstops]; rfl
      have hen : x.vectorEnabled 22 = true := by
        rw [State.vectorEnabled, hconf]
        exact henabled
      rw [raise_msixSent hen (by rw [hhost]; exact hfunction) (by rw [hhost]; exact hmask)]
      exact List.mem_append_right _ List.mem_cons_self
    · rw [(sameButReports_logRec ..).memory.1, raise_eq, hkeeps, hstops]
      rfl

end Sys2Proof.Machine
end

section
/-! PROOF. What the forced end of a die's commands leaves: the configuration, the commit state, the slots (chapter 17). -/

namespace Sys2Proof.Machine

variable {s t u : State}

/-! ### Configuration and commit state -/

/-- The configuration and the commit state stay. -/
structure SameCommit (s t : State) : Prop where
  conf : t.conf = s.conf
  commit : t.commit = s.commit

theorem SameCommit.rfl : SameCommit s s := ⟨Eq.refl _, Eq.refl _⟩

theorem SameCommit.trans (hst : SameCommit s t) (htu : SameCommit t u) : SameCommit s u :=
  ⟨htu.conf.trans hst.conf, htu.commit.trans hst.commit⟩

theorem SameButTraffic.sameCommit (h : SameButTraffic s t) : SameCommit s t :=
  ⟨(congrArg State.conf h.eq :), (congrArg State.commit h.eq :)⟩

/-- The slots of the rings stay too. -/
structure SameSlots (s t : State) : Prop extends SameCommit s t where
  slots : t.host.slots = s.host.slots

theorem SameSlots.rfl : SameSlots s s := ⟨.rfl, Eq.refl _⟩

theorem SameSlots.trans (hst : SameSlots s t) (htu : SameSlots t u) : SameSlots s u :=
  ⟨hst.toSameCommit.trans htu.toSameCommit, htu.slots.trans hst.slots⟩

theorem SameSlots.slot (h : SameSlots s t) (r k : Nat) : t.slot r k = s.slot r k := by
  rw [State.slot, h.slots, State.slot]

theorem sameSlots_foldl {α : Type} {f : State → α → State} (hf : ∀ s a, SameSlots s (f s a)) (as : List α) (s : State) :
    SameSlots s (as.foldl f s) :=
  foldl_keeps (fun _ => .rfl) (fun _ _ _ => .trans) hf as s

theorem sameCommit_foldl {α : Type} {f : State → α → State} (hf : ∀ s a, SameCommit s (f s a)) (as : List α)
    (s : State) : SameCommit s (as.foldl f s) :=
  foldl_keeps (fun _ => .rfl) (fun _ _ _ => .trans) hf as s

theorem sameSlots_logRec (s : State) (src code sev a0 a1 a2 : Nat) : SameSlots s (s.logRec src code sev a0 a1 a2) :=
  ⟨(sameButReports_logRec ..).traffic.sameCommit, (keepsCommands_logRec ..).slots⟩

theorem sameSlots_send (s : State) (p : Nat) (hdr : FrameHdr) (body : FrameBody) : SameSlots s (s.send p hdr body) :=
  ⟨(sameButTraffic_send ..).sameCommit, (keepsCommands_send ..).slots⟩

theorem sameSlots_across : AcrossSluices SameSlots :=
  ⟨fun _ => .rfl, fun _ _ _ => .trans, fun _ _ _ => ⟨⟨rfl, rfl⟩, rfl⟩, sameSlots_send, sameSlots_logRec⟩

theorem sameCommit_complete (s : State) (c : Cmd) (st : Status) (detail : Nat) (body : List Byte) :
    SameCommit s (s.complete c st detail body) := by
  rw [complete_frame]
  exact ⟨rfl, rfl⟩

/-! ### Versions of layers are unpinned (R235) -/

theorem sameSlots_unpinSlot (s : State) (l i : Nat) : SameSlots s (s.unpinSlot l i) := by
  refine ⟨?_, (keepsCommands_unpinSlot ..).slots⟩
  unfold State.unpinSlot
  dsimp only
  refine .trans (t := ite _ _ _) ?_ ⟨rfl, rfl⟩
  split
  · have hshards := sameButSends_sendShards (s.modVSlot l i (fun x => { x with
      pins := x.pins - 1, reqId := if x.pins ≤ 1 then 0 else x.reqId })) 1 l ((s.layer l).slot i).serial
      ((s.layer l).slot i).reqId
    rw [hshards]
    exact ⟨rfl, rfl⟩
  · exact ⟨rfl, rfl⟩

theorem sameSlots_modMb (s : State) (k m : Nat) (f : Mb → Mb) : SameSlots s (s.modMb k m f) := ⟨⟨rfl, rfl⟩, rfl⟩

theorem sameSlots_unpinMb (s : State) (k m l : Nat) : SameSlots s (s.unpinMb k m l) := by
  unfold State.unpinMb
  split
  · exact .rfl
  · exact (sameSlots_modMb ..).trans (sameSlots_unpinSlot ..)

theorem sameSlots_unpinLayers (s : State) (k m : Nat) (ls : List Nat) : SameSlots s (s.unpinLayers k m ls) :=
  sameSlots_foldl (fun s l => sameSlots_unpinMb s k m l) ls s

theorem sameSlots_endArrayPin (s : State) (c : Cmd) : SameSlots s (s.endArrayPin c) := by
  unfold State.endArrayPin State.unpinSerial
  split
  · split
    · dsimp only
      split
      · exact sameSlots_unpinSlot ..
      · exact .rfl
    · exact .rfl
  · exact .rfl

/-! ### Commands of the arrays (R133, R158) -/

theorem sameSlots_modArray (s : State) (die a : Nat) (f : ArrayState → ArrayState) : SameSlots s (s.modArray die a f) :=
  ⟨⟨rfl, rfl⟩, rfl⟩

theorem sameSlots_copyRow (s : State) (die a slot row cols : Nat) : SameSlots s (s.copyRow die a slot row cols).1 := by
  unfold State.copyRow State.countAccPoison
  dsimp only
  split <;> exact ⟨⟨rfl, rfl⟩, rfl⟩

theorem sameSlots_nextStaging (s : State) (die a : Nat) : SameSlots s (s.nextStaging die a) := by
  unfold State.nextStaging
  split
  · exact sameSlots_modArray ..
  · next b rest _ =>
    refine .trans (foldl_fst_keeps (fun _ => .rfl) (fun _ _ _ => .trans) b.rows (fun x r _ => ?_) (s, [])) (sameSlots_modArray ..)
    exact sameSlots_copyRow x.1 die a b.slot r.row r.cols

/-- The arrays of a command's gang give up what they hold for it. -/
def State.releaseArrays (s : State) (c : Cmd) (j : ArrayJob) : State :=
  let s := j.gang.foldl (fun s a => s.modArray j.die a (fun x => { x with
    edgeQ := x.edgeQ.filter (fun q => q != c.ref)
    bcastQ := x.bcastQ.filter (fun q => q != c.ref)
    edgeFree := if x.edgeQ.contains c.ref then s.tide else x.edgeFree
    replay := x.replay.filter (fun f => f.cmd != c.ref)
    spillQ := x.spillQ.filter (fun q => q.cmd != c.ref)
    cells := x.cells.map (fun e => (e.1, e.2.release c.ref)) })) s
  let s := j.outs.zipIdx.foldl (fun s p => s.setPartial j.die p.1 (j.written p.2) true) s
  j.outs.foldl (fun s a => match (s.array j.die a).staging with
    | some b => if b.cmd = c.ref then s.nextStaging j.die a else s
    | none => s) s

theorem abortArray_eq (s : State) (c : Cmd) (j : ArrayJob) (st : Status) :
    s.abortArray c j st = ((s.releaseArrays c j).complete c st 0 j.body).endArrayPin c := rfl

theorem sameSlots_releaseArrays (s : State) (c : Cmd) (j : ArrayJob) : SameSlots s (s.releaseArrays c j) := by
  refine .trans (.trans (sameSlots_foldl (fun s a => sameSlots_modArray ..) j.gang s)
    (sameSlots_foldl (fun s p => sameSlots_modArray ..) j.outs.zipIdx _)) (sameSlots_foldl (fun s a => ?_) j.outs _)
  split
  · split
    · exact sameSlots_nextStaging ..
    · exact .rfl
  · exact .rfl

/-! ### Updates, collectives, sends and channels (R272, R369, R388) -/

theorem sameSlots_failWaiting (s : State) (c : Cmd) : SameSlots s (s.failWaiting c) := by
  unfold State.failWaiting
  dsimp only
  split
  · exact ⟨⟨rfl, rfl⟩, rfl⟩
  · exact .rfl

theorem sameSlots_revokeBanks (s : State) (e : Engine) : SameSlots s (s.revokeBanks e) :=
  sameSlots_foldl (fun s _ => sameSlots_logRec ..) _ s

theorem sameSlots_failPart (s : State) (die : Nat) (e : Engine) :
    SameSlots s (((s.setEngine die none).failLayer e.layer).revokeBanks e) :=
  .trans (t := (s.setEngine die none).failLayer e.layer) ⟨⟨rfl, rfl⟩, rfl⟩ (sameSlots_revokeBanks ..)

theorem sameSlots_countRefusal (s : State) (x : Nat) (st : Status) : SameSlots s (s.countRefusal x st) := by
  unfold State.countRefusal
  split <;> exact ⟨⟨rfl, rfl⟩, rfl⟩

theorem sameSlots_sendPorts (s : State) (ps : List Nat) (body : FrameBody) : SameSlots s (s.sendPorts ps body) :=
  sameSlots_foldl (fun s _ => sameSlots_send ..) ps s

theorem sameSlots_closeColl (s : State) (x : CollCtx) : SameSlots s (s.closeColl x) := by
  unfold State.closeColl
  dsimp only
  split <;> exact ⟨⟨rfl, rfl⟩, rfl⟩

theorem sameSlots_putColl (s : State) (x : CollCtx) : SameSlots s (s.putColl x) := ⟨⟨rfl, rfl⟩, rfl⟩

theorem sameSlots_finish (s : State) (ref : CmdRef) (st : Status) (detail : Nat) (body : List Byte) :
    SameSlots s (s.finish ref st detail body) := ⟨⟨rfl, rfl⟩, rfl⟩

theorem sameSlots_refuseColl (s : State) (x : CollCtx) (st : Status) (offender : Option Nat) (body : List Byte) :
    SameSlots s (s.refuseColl x st offender body) := by
  unfold State.refuseColl
  dsimp only
  split
  · exact (((sameSlots_countRefusal ..).trans (sameSlots_sendPorts ..)).trans (sameSlots_closeColl ..)).trans
      (sameSlots_finish ..)
  · exact ((sameSlots_countRefusal ..).trans (sameSlots_sendPorts ..)).trans (sameSlots_putColl ..)

theorem sameSlots_revokeColl (s : State) (x : CollCtx) : SameSlots s (s.revokeColl x) :=
  ((sameSlots_refuseColl ..).trans (sameSlots_closeColl ..)).trans (sameSlots_logRec ..)

theorem sameSlots_abortSend (s : State) (k : Nat) (c : Cmd) : SameSlots s (s.abortSend k c) := by
  obtain h | ⟨p, f, h | ⟨g, h⟩⟩ := abortSend_cases s k c
  · rw [h]
    exact .rfl
  · rw [h]
    exact ⟨⟨rfl, rfl⟩, rfl⟩
  · rw [h]
    exact ⟨⟨rfl, rfl⟩, rfl⟩

theorem sameCommit_revokeChannel (s : State) (n : Nat) : SameCommit s (s.revokeChannel n) := by
  unfold State.revokeChannel
  dsimp only
  split
  · exact .rfl
  · refine .trans ?_ (sameSlots_logRec ..).toSameCommit
    rw [sameButStops_stopChannel s n 4 .faulted 4]
    exact ⟨rfl, rfl⟩

/-! ### Commands that end early on a die (R388 to R390) -/

/-- A command that ends early gives up what it holds, then completes; what follows leaves the slots. -/
def EndsEarly (s : State) (c : Cmd) (st : Status) (t : State) : Prop :=
  ∃ v body, SameSlots s v ∧ SameSlots (v.complete c st 0 body) t

theorem SameSlots.endsEarly {c : Cmd} {st : Status} {body : List Byte} (h : SameSlots s t) :
    EndsEarly s c st (t.complete c st 0 body) := ⟨t, body, h, .rfl⟩

theorem endUpdateCmd_endsEarly (s : State) (c : Cmd) (st : Status) : EndsEarly s c st (s.endUpdateCmd c st) := by
  unfold State.endUpdateCmd
  dsimp only
  split
  · exact (sameSlots_failPart ..).endsEarly
  · exact (sameSlots_failWaiting ..).endsEarly

theorem endCollCmd_endsEarly (s : State) (c : Cmd) (st : Status) : EndsEarly s c st (s.endCollCmd c st) := by
  have hdrop (collId : W32) : SameSlots s (s.dropShift collId) := ⟨⟨rfl, rfl⟩, rfl⟩
  unfold State.endCollCmd
  split
  · exact (sameSlots_revokeColl ..).endsEarly
  · split
    · exact (hdrop _).endsEarly
    · exact SameSlots.rfl.endsEarly

theorem sameSlots_forget (s : State) (c : Cmd) : SameSlots s (s.forget c) := ⟨⟨rfl, rfl⟩, rfl⟩

theorem endOnDie_of_channel {c : Cmd} (hop : c.opcode = 0x60) (hwork : ∀ j, c.work ≠ .array j) (st : Status) :
    s.endOnDie c st = s.revokeChannel (c.param 0 2) := by
  unfold State.endOnDie
  split
  · next j hj => exact absurd hj (hwork j)
  · simp [hop]

/-- But for a channel's, a command that ends early on its die completes (R388 to R390). -/
theorem endOnDie_endsEarly {c : Cmd} (h : c.opcode ≠ 0x60 ∨ ∃ j, c.work = .array j) (st : Status) :
    EndsEarly s c st (s.endOnDie c st) := by
  unfold State.endOnDie
  split
  · next j _ =>
    rw [abortArray_eq]
    exact ⟨_, _, sameSlots_releaseArrays .., sameSlots_endArrayPin ..⟩
  · next hwork =>
    have hop := h.resolve_right fun ⟨j, hj⟩ => hwork j hj
    rw [if_neg hop]
    split
    · exact endUpdateCmd_endsEarly ..
    · split
      · exact endCollCmd_endsEarly ..
      · have hheld : SameSlots s (if c.opcode = 0x21 || c.opcode = 0x22 then s.abortSend (ctxOfRing c.ring) c else s) := by
          split
          · exact sameSlots_abortSend ..
          · exact .rfl
        exact (hheld.trans (sameSlots_forget _ c)).endsEarly

theorem EndsEarly.sameCommit {c : Cmd} {st : Status} (h : EndsEarly s c st t) : SameCommit s t := by
  obtain ⟨v, body, hheld, hend⟩ := h
  exact (hheld.toSameCommit.trans (sameCommit_complete ..)).trans hend.toSameCommit

theorem sameCommit_endOnDie (s : State) (c : Cmd) (st : Status) : SameCommit s (s.endOnDie c st) := by
  by_cases h : c.opcode ≠ 0x60 ∨ ∃ j, c.work = .array j
  · exact (endOnDie_endsEarly h st).sameCommit
  · obtain ⟨hop, hwork⟩ := not_or.mp h
    rw [endOnDie_of_channel (not_not.mp hop) (not_exists.mp hwork)]
    exact sameCommit_revokeChannel ..

/-- The slot of a command that ends early says how it ended. -/
theorem EndsEarly.slot {c : Cmd} {st : Status} {k : Nat} {x : Slot} (h : EndsEarly s c st t) (htraced : c.silent = false)
    (hslot : c.slot = some k) (hx : s.slot c.ring k = some x) (hmarked : x.marked = false) :
    ∃ y, t.slot c.ring k = some y ∧ y.ready = true ∧ y.status = st := by
  obtain ⟨v, body, hheld, hend⟩ := h
  obtain ⟨-, -, -, hready, -⟩ := completionLeavesItsResult v c st 0 body htraced
  rw [hend.slot, hready k x hslot (hheld.slot .. ▸ hx) hmarked]
  exact ⟨_, rfl, rfl, rfl⟩

/-! ### Micro-batches are dropped (R250) -/

theorem sameCommit_abortMbCmds (s : State) (k m : Nat) : SameCommit s (s.abortMbCmds k m) := by
  refine sameCommit_foldl (fun s c => ?_) _ s
  have hheld : SameSlots s (s.withdraw c) := by
    unfold State.withdraw
    split
    · exact sameSlots_abortSend ..
    · split
      · exact (sameSlots_unpinLayers ..).trans ⟨⟨rfl, rfl⟩, rfl⟩
      · exact .rfl
  rw [abortCmd_eq]
  exact (hheld.trans (sameSlots_forget _ c)).toSameCommit.trans (sameCommit_complete ..)

theorem sameSlots_freeReservation (s : State) (k m : Nat) : SameSlots s (s.freeReservation k m) := by
  unfold State.freeReservation
  split <;> exact sameSlots_modMb ..

theorem sameSlots_noteDrop (s : State) (k : Nat) : SameSlots s (s.noteDrop k) := by
  unfold State.noteDrop
  dsimp only
  split <;> exact ⟨⟨rfl, rfl⟩, rfl⟩

theorem sameCommit_dropMb (s : State) (k m : Nat) : SameCommit s (s.dropMb k m) := by
  have hbwd (v : State) (o : Option Nat) : SameSlots v (match o with
      | some e => v.discardEntry k true e
      | none => v) := by
    cases o with
    | none => exact .rfl
    | some e => exact sameSlots_across.discardEntry ..
  have hfwd (v : State) (o : Option Nat) : SameSlots v (match o with
      | some e => if (v.entry k false e).spec then v.discardEntry k false e else v.returnEntry k e
      | none => v) := by
    cases o with
    | none => exact .rfl
    | some e =>
      dsimp only
      split
      · exact sameSlots_across.discardEntry ..
      · exact sameSlots_across.modEntry ..
  unfold State.dropMb
  exact ((sameSlots_unpinLayers ..).toSameCommit.trans (sameCommit_abortMbCmds ..)).trans
    (((hbwd ..).trans (hfwd ..)).trans (((sameSlots_modMb ..).trans (sameSlots_freeReservation ..)).trans
      (sameSlots_noteDrop ..))).toSameCommit

end Sys2Proof.Machine
end

section
/-! PROOF. A die drains, is repaired and returns (chapter 17). -/

namespace Sys2Proof.Machine

variable {s t u : State}

theorem exec_dieDrain (dt : Nat) (s : State) : exec (.dieDrain dt) s = execDieDrain dt s := rfl

theorem exec_drainTimeout (dt : Nat) (die : Fin 12) (s : State) :
    exec (.drainTimeout dt die) s = execDrainTimeout dt die s := rfl

theorem exec_dieRepair (dt : Nat) (inp : RepairInput) (s : State) :
    exec (.dieRepair dt inp) s = execDieRepair dt inp s := rfl

theorem exec_dieReturn (dt : Nat) (s : State) : exec (.dieReturn dt) s = execDieReturn dt s := rfl

/-! ### The commands of all rings, one of them changed -/

theorem mem_tabSet {α : Type} {t : Tab α} {n : Nat} {v : α} {e : Nat × α} (h : e ∈ tabSet t n v) :
    e ∈ t ∨ e = (n, v) := by
  induction t with
  | nil => exact .inr (List.mem_singleton.mp h)
  | cons x t ih =>
    obtain ⟨k, w⟩ := x
    rw [tabSet] at h
    split at h
    · exact (List.mem_cons.mp h).symm
    · split at h
      · exact (List.mem_cons.mp h).symm.imp_left (List.mem_cons_of_mem _)
      · rcases List.mem_cons.mp h with rfl | h
        · exact .inl List.mem_cons_self
        · exact (ih h).imp_left (List.mem_cons_of_mem _)

theorem tabSet_mem {α : Type} (t : Tab α) (n : Nat) (v : α) : (n, v) ∈ tabSet t n v := by
  induction t with
  | nil => exact List.mem_singleton.mpr rfl
  | cons x t ih =>
    obtain ⟨k, w⟩ := x
    rw [tabSet]
    split
    · exact List.mem_cons_self
    · split
      · exact List.mem_cons_self
      · exact List.mem_cons_of_mem _ ih

/-- An entry of a table is there after a change, unless it is the one that is changed. -/
theorem mem_tabSet_of_mem {α : Type} {t : Tab α} (n : Nat) (v : α) {e : Nat × α} (h : e ∈ t) :
    e ∈ tabSet t n v ∨ tabFind t n = some e.2 := by
  induction t with
  | nil => exact absurd h List.not_mem_nil
  | cons x t ih =>
    obtain ⟨k, w⟩ := x
    rw [tabSet, tabFind]
    split
    · exact .inl (List.mem_cons_of_mem _ h)
    · split
      · next heq =>
        rcases List.mem_cons.mp h with rfl | h
        · exact .inr (if_pos heq.symm)
        · exact .inl (List.mem_cons_of_mem _ h)
      · next hne =>
        rw [if_neg (Ne.symm hne)]
        rcases List.mem_cons.mp h with rfl | h
        · exact .inl List.mem_cons_self
        · exact (ih h).imp_left (List.mem_cons_of_mem _)

theorem tabGet_of_tabFind {α : Type} {d : α} {t : Tab α} {n : Nat} {v : α} (h : tabFind t n = some v) :
    tabGet d t n = v := by
  induction t with
  | nil => cases h
  | cons x t ih =>
    obtain ⟨k, w⟩ := x
    rw [tabFind] at h
    rw [tabGet]
    split at h
    · next heq =>
      rw [if_pos heq]
      exact Option.some.inj h
    · next hne =>
      rw [if_neg hne]
      exact ih h

/-- Every command after a change of one was there before, as it was or before the change. -/
theorem mem_allCmds_modCmd {ref : CmdRef} {f : Cmd → Cmd} {d : Cmd} (h : d ∈ (s.modCmd ref f).allCmds) :
    ∃ e ∈ s.allCmds, d = e ∨ d = f e := by
  obtain ⟨x, hx, hd⟩ := List.mem_flatMap.mp h
  rcases mem_tabSet hx with hold | rfl
  · exact ⟨d, List.mem_flatMap.mpr ⟨x, hold, hd⟩, .inl rfl⟩
  · obtain ⟨e, he, rfl⟩ := List.mem_map.mp hd
    have hring : (ref.ring, s.ring ref.ring) ∈ s.host.rings := tabGet_mem fun hnew => by
      have hcmds : (s.ring ref.ring).cmds = [] := congrArg Ring.cmds hnew
      rw [hcmds] at he
      exact absurd he List.not_mem_nil
    refine ⟨e, List.mem_flatMap.mpr ⟨_, hring, he⟩, ?_⟩
    split
    · exact .inr rfl
    · exact .inl rfl

/-- Every command is there after a change of one, as it was or changed. -/
theorem allCmds_modCmd_of_mem (ref : CmdRef) (f : Cmd → Cmd) {e : Cmd} (h : e ∈ s.allCmds) :
    ∃ d ∈ (s.modCmd ref f).allCmds, d = e ∨ d = f e := by
  obtain ⟨x, hx, he⟩ := List.mem_flatMap.mp h
  rcases mem_tabSet_of_mem ref.ring { s.ring ref.ring with
      cmds := (s.ring ref.ring).cmds.map (fun c => if c.fetchOrder = ref.id then f c else c) } hx with hkept | hfound
  · exact ⟨e, List.mem_flatMap.mpr ⟨x, hkept, he⟩, .inl rfl⟩
  · have hring : s.ring ref.ring = x.2 := tabGet_of_tabFind hfound
    refine ⟨_, List.mem_flatMap.mpr ⟨_, tabSet_mem _ ref.ring _, List.mem_map_of_mem (hring ▸ he)⟩, ?_⟩
    split
    · exact .inr rfl
    · exact .inl rfl

/-! ### DIE_SERVICE (R398) -/

theorem setService_frame (s : State) (n k : Nat) : SameButReports (s.modDie n (fun d => { d with
    service := k, serviceTide := s.tide })) (s.setService n k) := sameButReports_logRec ..

theorem setService_dies (s : State) (n k : Nat) : (s.setService n k).dies = (s.modDie n (fun d => { d with
    service := k, serviceTide := s.tide })).dies := (setService_frame s n k).memory.2.2.1

theorem die_congr (h : t.dies = s.dies) (n : Nat) : t.die n = s.die n := by rw [State.die, h, State.die]

theorem setService_die (s : State) (n k : Nat) : (s.setService n k).die n =
    { s.die n with service := k, serviceTide := s.tide } :=
  (die_congr (setService_dies s n k) n).trans (modDie_die ..)

theorem setService_die_ne (s : State) {n m : Nat} (k : Nat) (h : m ≠ n) : (s.setService n k).die m = s.die m :=
  (die_congr (setService_dies s n k) m).trans (modDie_die_ne _ _ _ _ h)

theorem setService_keeps (s : State) (n k : Nat) : (s.setService n k).mem = s.mem ∧
    (s.setService n k).poison = s.poison ∧ SameSlots s (s.setService n k) ∧
    (s.setService n k).allCmds = s.allCmds := by
  refine ⟨?_, ?_, ⟨⟨?_, ?_⟩, ?_⟩, ?_⟩ <;> rw [State.setService, logRec_eq] <;> rfl

theorem setWait_die (s : State) (ref : CmdRef) (w : WaitFor) (deadline : Option Nat) (n : Nat) :
    (s.setWait ref w deadline).die n = s.die n := rfl

theorem complete_die (s : State) (c : Cmd) (st : Status) (detail : Nat) (body : List Byte) (n : Nat) :
    (s.complete c st detail body).die n = s.die n := by
  rw [complete_frame]
  rfl

/-- A die that is drained is out of service. -/
theorem drained_die (s : State) (n : Nat) :
    ((s.drained n).die n).service = 2 ∧ ((s.drained n).die n).outOfService = true := by
  rw [State.drained, setService_die, modDie_die]
  exact ⟨rfl, rfl⟩

theorem drained_die_ne (s : State) {n m : Nat} (h : m ≠ n) : (s.drained n).die m = s.die m := by
  rw [State.drained, setService_die_ne _ _ h, modDie_die_ne _ _ _ _ h]

theorem sameCommit_drained (s : State) (n : Nat) : SameCommit s (s.drained n) :=
  .trans (t := s.modDie n (fun d => { d with outOfService := true, repaired := false })) ⟨rfl, rfl⟩
    (setService_keeps ..).2.2.1.toSameCommit

/-! ### DIE_DRAIN (R389) -/

theorem Starts.die {dt r op : Nat} {c : Cmd} (h : Starts s dt r op c u) (n : Nat) : u.die n = s.die n := by
  rw [h.frame]
  rfl

theorem Starts.sameCommit {dt r op : Nat} {c : Cmd} (h : Starts s dt r op c u) : SameCommit s u := by
  refine ⟨?_, h.commit⟩
  rw [h.frame, advance_conf]

/-- The die is draining, and the command waits for what runs there. -/
def State.draining (u : State) (c : Cmd) (die : Nat) : State :=
  ((u.setService die 1).setWait c.ref .dieDrain (some (u.tide + 1000 * c.param 4 4))).modCmd c.ref (fun d => { d with
    aux := ((u.onDie die).map (·.ring)).eraseDups })

section Draining

variable (u : State) (c : Cmd) (die : Nat)

theorem draining_dies : (u.draining c die).dies = (u.setService die 1).dies := rfl

theorem sameCommit_draining : SameCommit u (u.draining c die) :=
  .trans (setService_keeps u die 1).2.2.1.toSameCommit ⟨rfl, rfl⟩

/-- A command of the draining state was there at the start, with the same start and the same fields. -/
theorem mem_allCmds_draining {d : Cmd} (h : d ∈ (u.draining c die).allCmds) :
    ∃ e ∈ u.allCmds, d.start = e.start ∧ d.namesDie = e.namesDie := by
  obtain ⟨x, hx, hd⟩ := mem_allCmds_modCmd h
  obtain ⟨e, he, hx'⟩ := mem_allCmds_modCmd hx
  refine ⟨e, (setService_keeps u die 1).2.2.2 ▸ he, ?_⟩
  rcases hd with rfl | rfl <;> rcases hx' with rfl | rfl <;> exact ⟨rfl, rfl⟩

/-- A command that runs at the start runs in the draining state. -/
theorem allCmds_draining_of_mem {e : Cmd} (h : e ∈ u.allCmds) (hlive : e.live = true) :
    ∃ d ∈ (u.draining c die).allCmds, d.start = e.start ∧ d.namesDie = e.namesDie ∧ d.live = true := by
  have he : e ∈ (u.setService die 1).allCmds := (setService_keeps u die 1).2.2.2.symm ▸ h
  obtain ⟨x, hx, hxe⟩ := allCmds_modCmd_of_mem c.ref (fun d => { d with
    work := .waiting .dieDrain, deadline := some (u.tide + 1000 * c.param 4 4) }) he
  obtain ⟨d, hd, hdx⟩ := allCmds_modCmd_of_mem c.ref (fun d => { d with
    aux := ((u.onDie die).map (·.ring)).eraseDups }) hx
  refine ⟨d, hd, ?_⟩
  rcases hdx with rfl | rfl <;> rcases hxe with rfl | rfl
  · exact ⟨rfl, rfl, hlive⟩
  · exact ⟨rfl, rfl, rfl⟩
  · exact ⟨rfl, rfl, hlive⟩
  · exact ⟨rfl, rfl, rfl⟩

theorem onDie_draining_of_idle (h : ∀ d ∈ u.allCmds, d.start.isSome = true → d.namesDie ≠ some die) :
    (u.draining c die).onDie die = [] := by
  refine List.filter_eq_nil_iff.mpr fun d hd hon => ?_
  obtain ⟨e, he, hstart, hnames⟩ := mem_allCmds_draining u c die hd
  simp only [Bool.and_eq_true, beq_iff_eq, hstart, hnames] at hon
  exact h e he hon.1.1 hon.2

theorem onDie_draining_of_busy {e : Cmd} (he : e ∈ u.allCmds) (hstart : e.start.isSome = true) (hlive : e.live = true)
    (hnames : e.namesDie = some die) : (u.draining c die).onDie die ≠ [] := by
  obtain ⟨d, hd, hstart', hnames', hlive'⟩ := allCmds_draining_of_mem u c die he hlive
  refine List.ne_nil_of_mem (List.mem_filter.mpr ⟨hd, ?_⟩)
  simp only [hstart', hstart, hnames', hnames, hlive', BEq.rfl, Bool.and_self]

end Draining

section Drain

variable {dt : Nat} {c : Cmd} (hstart : Starts s dt 0 0x72 c u) (hdie : c.param 0 1 < 12) (hflags : c.param 1 1 < 2)
  (hlow : 1 ≤ c.param 4 4) (hhigh : c.param 4 4 ≤ 60000000)
  (hreserved : ∀ i, i = 2 ∨ i = 3 ∨ (8 ≤ i ∧ i < 64) → c.param i 1 = 0)

include hdie hflags hlow hhigh hreserved

theorem drainChecks_pass : lowestFail ([(decide (c.param 0 1 < 12), 0), (decide (c.param 1 1 < 2), 1),
    (decide (1 ≤ c.param 4 4) && decide (c.param 4 4 ≤ 60000000), 4)] ++ reservedFail c 64 [(0, 2), (4, 4)]) = none := by
  rw [reservedFail_eq_nil fun i hi hout => hreserved i ?_]
  · simp [lowestFail, hdie, hflags, hlow, hhigh]
  · have hfirst := hout (0, 2) (by simp)
    have hsecond := hout (4, 4) (by simp)
    dsimp only at hfirst hsecond
    omega

include hstart

theorem dieDrain_of_busy (hservice : (u.die (c.param 0 1)).service ≠ 0) :
    exec (.dieDrain dt) s = .next (u.complete c .busy 0 []) := by
  rw [exec_dieDrain, execDieDrain]
  simp only [hstart.take, drainChecks_pass hdie hflags hlow hhigh hreserved]
  exact if_pos hservice

theorem dieDrain_of_serving (hservice : (u.die (c.param 0 1)).service = 0) :
    exec (.dieDrain dt) s = .next ((u.draining c (c.param 0 1)).endDieDrain c) := by
  rw [exec_dieDrain, execDieDrain]
  simp only [hstart.take, drainChecks_pass hdie hflags hlow hhigh hreserved]
  exact if_neg (not_not.mpr hservice)

end Drain

theorem endDieDrain_of_idle {c : Cmd} (h : s.onDie (c.param 0 1) = []) :
    s.endDieDrain c = (s.drained (c.param 0 1)).complete c .ok 0 (drainBody 0 0) := if_pos (by rw [h]; rfl)

theorem endDieDrain_of_busy {c : Cmd} (h : s.onDie (c.param 0 1) ≠ []) : s.endDieDrain c = s :=
  if_neg (by simpa using h)

/-- A DIE_DRAIN that ends leaves its die drained; one that waits leaves it as it was; the others are as they were. -/
theorem endDieDrain_die (s : State) (c : Cmd) :
    (s.onDie (c.param 0 1) = [] → ((s.endDieDrain c).die (c.param 0 1)).service = 2 ∧
      ((s.endDieDrain c).die (c.param 0 1)).outOfService = true) ∧
    (s.onDie (c.param 0 1) ≠ [] → (s.endDieDrain c).die (c.param 0 1) = s.die (c.param 0 1)) ∧
    (∀ n, n ≠ c.param 0 1 → (s.endDieDrain c).die n = s.die n) ∧ SameCommit s (s.endDieDrain c) := by
  by_cases h : s.onDie (c.param 0 1) = []
  · rw [endDieDrain_of_idle h]
    refine ⟨fun _ => ?_, fun hbusy => absurd h hbusy, fun n hn => ?_, ?_⟩
    · rw [complete_die]
      exact drained_die ..
    · rw [complete_die]
      exact drained_die_ne _ hn
    · exact (sameCommit_drained ..).trans (sameCommit_complete ..)
  · rw [endDieDrain_of_busy h]
    exact ⟨fun hidle => absurd hidle h, fun _ => rfl, fun _ _ => rfl, .rfl⟩

/-! ### DRAIN_TIMEOUT (R389) -/

/-- What runs on a die ends one after the other, if it has not ended by then. -/
def State.endAll (s : State) (cs : List Cmd) (st : Status) : State :=
  cs.foldl (fun st' c => match st'.findCmd c.ref with
    | some d => if d.live then st'.endOnDie d st else st'
    | none => st') s

theorem sameCommit_endAll (s : State) (cs : List Cmd) (st : Status) : SameCommit s (s.endAll cs st) := by
  refine sameCommit_foldl (fun s c => ?_) cs s
  split
  · split
    · exact sameCommit_endOnDie ..
    · exact .rfl
  · exact .rfl

/-- The micro-batches that the commands of a die name, and that are admitted (R250, R389). -/
def State.namedOn (s : State) (cs : List Cmd) : List (Nat × Nat) :=
  (mbsNamed (cs.filter (fun c => c.opcode != 0x60))).filter (fun m => (s.mb m.1 m.2).admitted)

/-- Micro-batches are dropped one after the other. -/
def State.dropAll (s : State) (ms : List (Nat × Nat)) : State := ms.foldl (fun st m => st.dropMb m.1 m.2) s

theorem sameCommit_dropAll (s : State) (ms : List (Nat × Nat)) : SameCommit s (s.dropAll ms) := by
  refine sameCommit_foldl (f := fun st (m : Nat × Nat) => st.dropMb m.1 m.2) (fun s m => ?_) ms s
  exact sameCommit_dropMb s m.1 m.2

theorem dieLeaves_eq (s : State) (die : Nat) (st : Status) : s.dieLeaves die st =
    (((s.endAll (s.onDie die) st).dropAll ((s.endAll (s.onDie die) st).namedOn (s.onDie die))).drained die,
      ((s.onDie die).filter (fun c => c.opcode != 0x60)).length,
      ((s.endAll (s.onDie die) st).namedOn (s.onDie die)).length) := by
  unfold State.dieLeaves State.dropAll State.namedOn State.endAll
  rfl

section Timeout

variable {dt d : Nat} {c : Cmd} {die : Fin 12} (hcmds : (s.ring 0).cmds = [c]) (hop : c.opcode = 0x72)
  (hwork : c.work = .waiting .dieDrain) (hdie : c.param 0 1 = die.val) (hdeadline : c.deadline = some d)
  (hdue : d ≤ (s.advance dt).tide)

include hcmds hop hwork hdie hdeadline hdue

/-- The DIE_DRAIN of a die is found, and its time has come. -/
theorem drainTimeout_eq : exec (.drainTimeout dt die) s =
    if (s.onDie die).isEmpty then
      (if (s.advance dt).drainPast c then .next ((s.advance dt).endDieDrain c) else (s.advance dt).idle)
    else if (c.param 1 1).testBit 0 then
      .next (((s.advance dt).dieLeaves die .aborted).1.complete c .ok 0
        (drainBody ((s.advance dt).dieLeaves die .aborted).2.1 ((s.advance dt).dieLeaves die .aborted).2.2))
    else .next (((s.advance dt).setService die 0).complete c .deferred 0 (drainBody 0 0)) := by
  have hfind : ((s.advance dt).ring 0).cmds.find? (fun c =>
      c.opcode == 0x72 && c.work == .waiting .dieDrain && c.param 0 1 == die.val) = some c := by
    have hcmds' : ((s.advance dt).ring 0).cmds = [c] := hcmds
    rw [hcmds']
    exact List.find?_cons_of_pos (by simp [hop, hwork, hdie])
  have hreached : (s.advance dt).due c.deadline = true := by
    rw [hdeadline]
    exact decide_eq_true hdue
  rw [exec_drainTimeout, execDrainTimeout]
  simp only [hfind, hreached]
  rfl

end Timeout

/-! ### DIE_REPAIR and DIE_RETURN (R391, R392) -/

section Repair

variable {dt : Nat} {c : Cmd} {inp : RepairInput} (hstart : Starts s dt 0 0x73 c u) (hdie : c.param 0 1 < 12)
  (hflags : c.param 1 1 < 2) (hreserved : ∀ i, 2 ≤ i → i < 64 → c.param i 1 = 0)

include hstart hdie hflags hreserved

theorem dieRepair_eq : exec (.dieRepair dt inp) s =
    if (u.die (c.param 0 1)).service ≠ 2 then .next (u.complete c .busy 0 [])
    else .next (((u.setService (c.param 0 1) 3).modDie (c.param 0 1) (fun d => { d with
      repairIn := some inp })).setWait c.ref .repair none) := by
  have hchecks : lowestFail ([(decide (c.param 0 1 < 12), 0), (decide (c.param 1 1 < 2), 1)] ++
      reservedFail c 64 [(0, 2)]) = none := by
    rw [reservedFail_eq_nil fun i hi hout => hreserved i ?_ hi]
    · simp [lowestFail, hdie, hflags]
    · have hfirst := hout (0, 2) (by simp)
      dsimp only at hfirst
      omega
  rw [exec_dieRepair, execDieRepair]
  simp only [hstart.take, hchecks]

end Repair

theorem dieReturn_eq {dt : Nat} {c : Cmd} (hstart : Starts s dt 0 0x74 c u) (hdie : c.param 0 1 < 12)
    (hreserved : ∀ i, 1 ≤ i → i < 64 → c.param i 1 = 0) : exec (.dieReturn dt) s =
      if (u.die (c.param 0 1)).service ≠ 2 || !(u.die (c.param 0 1)).repaired then .next (u.complete c .busy 0 [])
      else .next (((u.modDie (c.param 0 1) (fun d => { d with outOfService := false })).setService
        (c.param 0 1) 0).complete c .ok 0 []) := by
  have hchecks : lowestFail ([(decide (c.param 0 1 < 12), 0)] ++ reservedFail c 64 [(0, 1)]) = none := by
    rw [reservedFail_eq_nil fun i hi hout => hreserved i ?_ hi]
    · simp [lowestFail, hdie]
    · have hfirst := hout (0, 1) (by simp)
      dsimp only at hfirst
      omega
  rw [exec_dieReturn, execDieReturn]
  simp only [hstart.take, hchecks]

/-- Settles O56: a drain by what runs on its die, a timeout by its FORCE bit, a repair and a return by their checks. -/
theorem diesLeaveAndReturn : Obligations.DiesLeaveAndReturn := by
  unfold Obligations.DiesLeaveAndReturn
  refine ⟨?drain, ?timeout, ?slot, fun v d hop hwork => endOnDie_of_channel hop hwork _, ?repair, ?repaired, ?returned⟩
  case drain =>
    rintro dt die s u v c hstart rfl hdie hflags hlow hhigh hreserved
    have hsame : u.die (c.param 0 1) = s.die (c.param 0 1) := hstart.die _
    refine ⟨fun hservice => dieDrain_of_busy hstart hdie hflags hlow hhigh hreserved (by rwa [hsame]),
      fun hservice hv => ?_⟩
    obtain rfl : v = u.draining c (c.param 0 1) := hv
    have hexec := dieDrain_of_serving hstart hdie hflags hlow hhigh hreserved (by rwa [hsame])
    obtain ⟨hidle, hbusy, hothers, hcommit⟩ := endDieDrain_die (u.draining c (c.param 0 1)) c
    have hdies := draining_dies u c (c.param 0 1)
    have hall := (hstart.sameCommit.trans (sameCommit_draining u c (c.param 0 1))).trans hcommit
    refine ⟨fun h => by rw [hexec, endDieDrain_of_idle h], fun h => by rw [hexec, endDieDrain_of_busy h], _, hexec,
      fun hnone => hidle (onDie_draining_of_idle u c _ hnone), ?_, fun n hn => ?_, hall.conf, hall.commit⟩
    · rintro ⟨d, hd, hon, hlive, hnames, -⟩
      rw [hbusy (onDie_draining_of_busy u c _ hd hon hlive hnames), die_congr hdies, setService_die, ← hsame]
      exact ⟨rfl, rfl⟩
    · rw [hothers n hn, die_congr hdies, setService_die_ne _ _ hn, hstart.die]
  case timeout =>
    intro dt s v w c die d ms hcmds hop hwork hdie hdeadline hdue
    have hexec := drainTimeout_eq hcmds hop hwork hdie hdeadline hdue
    refine ⟨fun hon hforce => ?_, fun hon hforce hv hms hw => ?_, fun hidle hpast => ?_⟩
    · rw [hexec, if_neg (by simpa using hon), if_neg (by simp [hforce])]
    · have hv' : v = (s.advance dt).endAll (s.onDie die) .aborted := hv
      have hms' : ms = v.namedOn (s.onDie die) := hms
      have hw' : w = v.dropAll ms := hw
      have hleaves : (s.advance dt).dieLeaves die .aborted =
          (w.drained die, ((s.onDie die).filter (fun x => x.opcode != 0x60)).length, ms.length) := by
        have hon' : (s.advance dt).onDie die = s.onDie die := rfl
        rw [dieLeaves_eq, hon', ← hv', ← hms', ← hw']
      rw [hexec, if_neg (by simpa using hon), if_pos hforce, hleaves]
      have hadvance : SameCommit s (s.advance dt) := ⟨advance_conf .., advance_commit ..⟩
      have hkept : SameCommit s w := by
        rw [hw', hv']
        exact (hadvance.trans (sameCommit_endAll ..)).trans (sameCommit_dropAll ..)
      have hall := (hkept.trans (sameCommit_drained w die)).trans (sameCommit_complete (w.drained die) c .ok 0
        (drainBody ((s.onDie die).filter (fun x => x.opcode != 0x60)).length ms.length))
      refine ⟨rfl, _, rfl, ?_, ?_, hall.conf, congrArg Commit.stepNumber hall.commit⟩
      · rw [complete_die]
        exact (drained_die ..).1
      · rw [complete_die]
        exact (drained_die ..).2
    · rw [hexec, if_pos (by rw [hidle]; rfl), if_pos hpast, endDieDrain_of_idle (by rw [hdie]; exact hidle), hdie]
  case slot =>
    intro v d k x htraced hslot hx hmarked hends
    exact (endOnDie_endsEarly hends .aborted).slot htraced hslot hx hmarked
  case repair =>
    intro dt s u c inp hstart hdie hflags hreserved
    have hexec := dieRepair_eq (inp := inp) hstart hdie hflags hreserved
    rw [hstart.die] at hexec
    refine ⟨fun hservice => by rw [hexec, if_pos hservice], fun hservice => ?_⟩
    rw [if_neg (not_not.mpr hservice)] at hexec
    obtain ⟨hmem, hpoison, -, -⟩ := setService_keeps u (c.param 0 1) 3
    refine ⟨_, hexec, ?_, ?_, fun n hn => ?_, hmem.trans hstart.mem, hpoison.trans hstart.poison⟩
    · rw [setWait_die, modDie_die, setService_die]
    · rw [setWait_die, modDie_die]
    · rw [setWait_die, modDie_die_ne _ _ _ _ hn, setService_die_ne _ _ hn, hstart.die]
  case repaired =>
    rintro s v w c inp die ok rfl hinp rfl rfl rfl
    rw [State.endRepair, hinp]
  case returned =>
    intro dt s u c hstart hdie hreserved
    have hexec := dieReturn_eq hstart hdie hreserved
    rw [hstart.die] at hexec
    refine ⟨fun hno => ?_, fun hservice hrepaired => ?_⟩
    · rw [hexec, if_pos (by simpa [or_comm] using hno)]
    · rw [if_neg (by simp [hservice, hrepaired])] at hexec
      refine ⟨_, hexec, ?_, ?_, fun n hn => ?_⟩
      · rw [complete_die, setService_die]
      · rw [complete_die, setService_die, modDie_die]
      · rw [complete_die, setService_die_ne _ _ hn, modDie_die_ne _ _ _ _ hn, hstart.die]

end Sys2Proof.Machine
end

section
/-! PROOF. Reductions, gathers, ring shifts, barriers and permutes start (chapter 15). -/

namespace Sys2Proof.Machine

variable {s t u v : State} {dt : Nat} {r : Fin 17} {c : Cmd} {x y : CollCtx}

theorem exec_collReduce (dt : Nat) (r : Fin 17) (s : State) : exec (.collReduce dt r) s = execCollReduce dt r s := rfl

theorem exec_collGather (dt : Nat) (r : Fin 17) (s : State) : exec (.collGather dt r) s = execCollGather dt r s := rfl

theorem exec_collBarrier (dt : Nat) (r : Fin 17) (s : State) : exec (.collBarrier dt r) s = execCollBarrier dt r s := rfl

theorem exec_collPermute (dt : Nat) (s : State) : exec (.collPermute dt) s = execCollPermute dt s := rfl

/-! ### Contexts (R319) -/

theorem openColl_eq (h : s.openColl x = some t) : t = { s with coll := { s.coll with ctxs := s.coll.ctxs ++ [x] } } := by
  unfold State.openColl at h
  split at h
  · cases h
  · exact (Option.some.inj h).symm

/-! ### COLL_REDUCE (R323, R324) -/

/-- The command takes its context, with its table, and the context goes on. -/
def State.reduceGoes (s : State) (c : Cmd) (x : CollCtx) : State :=
  let (s, x) := s.loadTable c { x with cmd := some c.ref, lease := s.tide + 1000 * c.param 0x30 4 }
  ((s.putColl x).setWait c.ref .coll none).wakeReduce x

/-- The source of a reduction and its table lie on dies that serve. -/
def State.redServed (u : State) (p : RedP) : Prop :=
  u.keyServed ((u.resolve [0, 1, 2, 4, 5] (some p.die) p.src 0).getD 0) = true ∧
    u.keyServed ((u.resolve [0, 1, 4, 5] (some p.die) p.scale 0).getD 0) = true

theorem redChecks_served (hserves : u.dieRefuses (redP c).die = false) (hserved : u.redServed (redP c)) :
    (u.dieRefuses (redP c).die || [u.resolve [0, 1, 2, 4, 5] (some (redP c).die) (redP c).src 0,
      u.resolve [0, 1, 4, 5] (some (redP c).die) (redP c).scale 0].any (fun k => !u.keyServed (k.getD 0))) = false := by
  obtain ⟨hsrc, hscale⟩ := hserved
  simp [hserves, hsrc, hscale]

section Reduce

variable (hstart : Starts s dt r 0x50 c u)

include hstart

theorem collReduce_of_failed {o : Nat} {st : Status} (h : firstFailSt (redChecks u c) = some (o, st)) :
    exec (.collReduce dt r) s = .next ((u.countRefusal (u.view (redP c).collId).tile st).complete c st
      (if st = .badParam then 64 + o else 0) []) := by
  rw [exec_collReduce, execCollReduce]
  simp only [hstart.take, h]

variable (hchecks : firstFailSt (redChecks u c) = none)

include hchecks

theorem collReduce_of_unserved (h : u.dieRefuses (redP c).die = true ∨ ¬ u.redServed (redP c)) :
    exec (.collReduce dt r) s = .next (u.complete c .faulted 0 []) := by
  have hcond : (u.dieRefuses (redP c).die || [u.resolve [0, 1, 2, 4, 5] (some (redP c).die) (redP c).src 0,
      u.resolve [0, 1, 4, 5] (some (redP c).die) (redP c).scale 0].any (fun k => !u.keyServed (k.getD 0))) = true := by
    simpa [State.redServed, Classical.or_iff_not_imp_left] using h
  rw [exec_collReduce, execCollReduce]
  simp only [hstart.take, hchecks, hcond, if_true]

variable (hserves : u.dieRefuses (redP c).die = false) (hserved : u.redServed (redP c))

include hserves hserved

theorem collReduce_of_held (h : u.dieWaits (redP c).die = true ∨
    u.anyStops (ioBase u.pkg.suffix (u.view (redP c).collId).tile) [u.redTable (redP c)] = true) :
    exec (.collReduce dt r) s = .next (s.advance dt) := by
  have hheld : (u.dieWaits (redP c).die ||
      u.anyStops (ioBase u.pkg.suffix (u.view (redP c).collId).tile) [u.redTable (redP c)]) = true := by
    simpa using h
  rw [exec_collReduce, execCollReduce]
  simp only [hstart.take, hchecks, redChecks_served hserves hserved, hheld, Bool.false_eq_true, if_false, if_true]
  rfl

variable (hgoes : u.dieWaits (redP c).die = false)
  (hfree : u.anyStops (ioBase u.pkg.suffix (u.view (redP c).collId).tile) [u.redTable (redP c)] = false)

include hgoes hfree

theorem collReduce_of_refused {n : Nat} (hfind : u.findColl 0 (redP c).collId (redP c).step (redP c).epoch = some y)
    (hrefused : y.refused = some n) :
    exec (.collReduce dt r) s = .next ((u.closeColl y).complete c (refuseReduce n) 0 []) := by
  rw [exec_collReduce, execCollReduce]
  simp only [hstart.take, hchecks, redChecks_served hserves hserved, hgoes, hfree, Bool.or_self, Bool.false_eq_true,
    if_false, hfind, hrefused]

theorem collReduce_of_opened (hfind : u.findColl 0 (redP c).collId (redP c).step (redP c).epoch = none)
    (hopen : u.openColl (u.frameCtx 0 (redP c).collId (redP c).step (redP c).epoch) = some v) :
    exec (.collReduce dt r) s =
      .next (v.reduceGoes c (u.frameCtx 0 (redP c).collId (redP c).step (redP c).epoch)) := by
  rw [exec_collReduce, execCollReduce]
  simp only [hstart.take, hchecks, redChecks_served hserves hserved, hgoes, hfree, Bool.or_self, Bool.false_eq_true,
    if_false, hfind, hopen, Option.getD_some]
  rfl

theorem collReduce_of_found (hfind : u.findColl 0 (redP c).collId (redP c).step (redP c).epoch = some y)
    (hrefused : y.refused = none) (hcmd : y.cmd = none) :
    exec (.collReduce dt r) s = .next (u.reduceGoes c y) := by
  rw [exec_collReduce, execCollReduce]
  simp only [hstart.take, hchecks, redChecks_served hserves hserved, hgoes, hfree, Bool.or_self, Bool.false_eq_true,
    if_false, hfind, hrefused, hcmd, State.reduceGoes]

end Reduce

/-- The table that a reduction keeps is what its memory holds; only poison in it leaves a record. -/
theorem loadTable_table (s : State) (c : Cmd) (x : CollCtx) :
    (s.loadTable c x).2.table = s.read (s.redTable (redP c)).1 (s.redTable (redP c)).2 ∧
    (s.firstPoison (s.redTable (redP c)).1 (s.redTable (redP c)).2 = none → (s.loadTable c x).1 = s) := by
  unfold State.loadTable
  dsimp only
  split
  · exact ⟨rfl, fun _ => rfl⟩
  · next u hu => exact ⟨rfl, fun hnone => absurd (hu.symm.trans hnone) (by simp)⟩

/-! ### COLL_GATHER (R335, R336) -/

/-- The command takes its context, which takes what waits for it, and its own segment moves. -/
def State.gatherGoes (s : State) (c : Cmd) (x : CollCtx) : State :=
  (((s.putColl x).setWait c.ref .coll none).wakeGather x).sendOwn (gatP c).collId (gatP c).epoch c

/-- The memory of a gather lies on dies that serve. -/
def State.gatServed (u : State) (p : GatP) : Bool :=
  !(u.dieRefuses p.die || (p.sends && !u.keyServed (u.gatSrc p)) || !u.keyServed (u.gatDest p))

section Gather

variable (hstart : Starts s dt r 0x51 c u) (hchecks : lowestFailSt (gatChecks u c) = none)

include hstart hchecks

theorem collGather_of_unserved (h : u.gatServed (gatP c) = false) :
    exec (.collGather dt r) s = .next (u.complete c .faulted 0 []) := by
  have hcond := Bool.not_eq_false' _ |>.mp h
  rw [exec_collGather, execCollGather]
  simp only [hstart.take, hchecks, hcond, if_true]

variable (hserved : u.gatServed (gatP c) = true)

include hserved

theorem collGather_of_dieHeld (h : u.dieWaits (gatP c).die = true) :
    exec (.collGather dt r) s = .next (s.advance dt) := by
  have hcond := Bool.not_eq_true' _ |>.mp hserved
  rw [exec_collGather, execCollGather]
  simp only [hstart.take, hchecks, hcond, h, Bool.false_eq_true, if_false, if_true]
  rfl

variable (hgoes : u.dieWaits (gatP c).die = false)

include hgoes

theorem collGather_of_shift (hmode : (gatP c).mode = 2) : exec (.collGather dt r) s = .next (u.startShift c) := by
  have hcond := Bool.not_eq_true' _ |>.mp hserved
  rw [exec_collGather, execCollGather]
  simp only [hstart.take, hchecks, hcond, hgoes, hmode, Bool.false_eq_true, if_false, if_true]

variable (hmode : (gatP c).mode ≠ 2)

include hmode

theorem collGather_of_tileHeld (h : u.tileHeld (u.view (gatP c).collId).tile (gatP c).collId (u.gatRanges (gatP c)) = true) :
    exec (.collGather dt r) s = .next (s.advance dt) := by
  have hcond := Bool.not_eq_true' _ |>.mp hserved
  rw [exec_collGather, execCollGather]
  simp only [hstart.take, hchecks, hcond, hgoes, hmode, h, Bool.false_eq_true, if_false, if_true]
  rfl

variable (hfree : u.tileHeld (u.view (gatP c).collId).tile (gatP c).collId (u.gatRanges (gatP c)) = false)

include hfree

theorem collGather_of_refused {n : Nat} (hfind : u.findColl 1 (gatP c).collId 0 (gatP c).epoch = some y)
    (hrefused : y.refused = some n) :
    exec (.collGather dt r) s = .next ((u.closeColl y).complete c (refuseStatus n) 0 []) := by
  have hcond := Bool.not_eq_true' _ |>.mp hserved
  rw [exec_collGather, execCollGather]
  simp only [hstart.take, hchecks, hcond, hgoes, hmode, hfree, Bool.false_eq_true, if_false, hfind, hrefused]

theorem collGather_of_opened (hfind : u.findColl 1 (gatP c).collId 0 (gatP c).epoch = none)
    (hopen : u.openColl (u.frameCtx 1 (gatP c).collId 0 (gatP c).epoch) = some v) :
    exec (.collGather dt r) s = .next (v.gatherGoes c { u.frameCtx 1 (gatP c).collId 0 (gatP c).epoch with
      cmd := some c.ref, lease := u.tide + 1000 * c.param 0x24 4 }) := by
  have hcond := Bool.not_eq_true' _ |>.mp hserved
  rw [exec_collGather, execCollGather]
  simp only [hstart.take, hchecks, hcond, hgoes, hmode, hfree, Bool.false_eq_true, if_false, hfind, hopen,
    Option.getD_some]
  rfl

theorem collGather_of_found (hfind : u.findColl 1 (gatP c).collId 0 (gatP c).epoch = some y)
    (hrefused : y.refused = none) : exec (.collGather dt r) s =
      .next (u.gatherGoes c { y with cmd := some c.ref, lease := u.tide + 1000 * c.param 0x24 4 }) := by
  have hcond := Bool.not_eq_true' _ |>.mp hserved
  rw [exec_collGather, execCollGather]
  simp only [hstart.take, hchecks, hcond, hgoes, hmode, hfree, Bool.false_eq_true, if_false, hfind, hrefused]
  rfl

end Gather

/-! ### COLL_BARRIER (R334) -/

section Barrier

variable {id : W32} (hstart : Starts s dt r 0x53 c u) (hid : id = BitVec.ofNat 32 (c.param 4 4))
  (htree : u.treeOk id voteRoles = true)
  (hreserved : ∀ i, i < 4 ∨ i = 10 ∨ i = 11 ∨ (16 ≤ i ∧ i < 64) → c.param i 1 = 0)

include hid htree hreserved

theorem barrierChecks_pass :
    lowestFail ([(u.treeOk (BitVec.ofNat 32 (c.param 4 4)) voteRoles, 4)] ++ reservedFail c 64 [(4, 6), (0x0C, 4)]) = none := by
  rw [reservedFail_eq_nil fun i hi hout => hreserved i ?_]
  · simp [lowestFail, ← hid, htree]
  · have hfirst := hout (4, 6) (by simp)
    have hsecond := hout (0x0C, 4) (by simp)
    dsimp only at hfirst hsecond
    omega

include hstart

theorem collBarrier_of_refused {n : Nat} (hfind : u.findBarrier id = some y) (hrefused : y.refused = some n) :
    exec (.collBarrier dt r) s = .next (((u.setWait c.ref .coll none).closeColl y).complete c .faulted 0 []) := by
  have hchecks := barrierChecks_pass hid htree hreserved
  have hfind' : (u.setWait c.ref .coll none).findBarrier (BitVec.ofNat 32 (c.param 4 4)) = some y := hid ▸ hfind
  rw [exec_collBarrier, execCollBarrier]
  simp only [hstart.take, hchecks, hfind', hrefused]

theorem collBarrier_of_found (hfind : u.findBarrier id = some y) (hrefused : y.refused = none) :
    exec (.collBarrier dt r) s = .next (((u.setWait c.ref .coll none).putColl { y with
      cmd := some c.ref, lease := u.tide + 1000 * c.param 0x0C 4 }).runBarrier { y with
        cmd := some c.ref, lease := u.tide + 1000 * c.param 0x0C 4 }) := by
  have hchecks := barrierChecks_pass hid htree hreserved
  have hfind' : (u.setWait c.ref .coll none).findBarrier (BitVec.ofNat 32 (c.param 4 4)) = some y := hid ▸ hfind
  rw [exec_collBarrier, execCollBarrier]
  simp only [hstart.take, hchecks, hfind', hrefused]

theorem collBarrier_of_opened (hfind : u.findBarrier id = none)
    (hx : x = { u.frameCtx 2 id 0 u.commit.layoutEpoch with
      cmd := some c.ref, lease := u.tide + 1000 * c.param 0x0C 4 })
    (hopen : (u.setWait c.ref .coll none).openColl x = some v) :
    exec (.collBarrier dt r) s = .next (v.runBarrier x) := by
  have hchecks := barrierChecks_pass hid htree hreserved
  have hfind' : (u.setWait c.ref .coll none).findBarrier (BitVec.ofNat 32 (c.param 4 4)) = none := hid ▸ hfind
  rw [hid] at hx
  subst hx
  have hv : v = ((u.setWait c.ref .coll none).openColl { (u.setWait c.ref .coll none).frameCtx 2
      (BitVec.ofNat 32 (c.param 4 4)) 0 (u.setWait c.ref .coll none).commit.layoutEpoch with
        cmd := some c.ref, lease := u.tide + 1000 * c.param 0x0C 4 }).getD (u.setWait c.ref .coll none) :=
    (congrArg (·.getD (u.setWait c.ref .coll none)) hopen).symm
  rw [exec_collBarrier, execCollBarrier, hv]
  simp only [hstart.take, hchecks, hfind']
  rfl

end Barrier

/-! ### COLL_PERMUTE (R341, R342) -/

/-- The permute that a command describes, with its permutation and its two lists as memory holds them (R341). -/
def State.permOf (u : State) (c : Cmd) : Permute :=
  let key (off : Nat) : Nat := (u.resolve permSpaces none (c.param off 8) 0).getD 0
  let seg (i : Nat) : Segment :=
    { work := (segEntry u (key 0x10) i).1 == 1, sendLayer := (segEntry u (key 0x10) i).2.1
      sendAddr := (segEntry u (key 0x10) i).2.2.1, sendBytes := (segEntry u (key 0x10) i).2.2.2
      recvWork := (segEntry u (key 0x18) i).1 == 1, recvLayer := (segEntry u (key 0x18) i).2.1
      recvAddr := (segEntry u (key 0x18) i).2.2.1, recvBytes := (segEntry u (key 0x18) i).2.2.2 }
  { cmd := c.ref, newEpoch := BitVec.ofNat 16 (c.param 0 2), perm := permEntries u (key 8) (c.param 2 2)
    segs := (List.range (c.param 4 1)).map seg, deadline := u.tide + 1000 * c.param 0x20 4 }

/-- The permute waits for the switch, and its command for the permute; the segments that go at once have moved. -/
def State.permuteStarts (u : State) (c : Cmd) (p : Permute) : State :=
  p.segs.zipIdx.foldl (fun st g => st.startSegment g.2 g.1)
    (({ u with coll := { u.coll with permute := some p, permHeld := [] } } : State).setWait c.ref .permute
      (some p.deadline))

section Permute

variable (hstart : Starts s dt 0 0x52 c u) (hchecks : lowestFailSt (permChecks u c) = none)

include hstart hchecks

theorem collPermute_of_busy (h : u.coll.permute.isSome = true) :
    exec (.collPermute dt) s = .next (u.complete c .busy 0 []) := by
  rw [exec_collPermute, execCollPermute]
  simp only [hstart.take, hchecks, h, if_true]

variable (hnone : u.coll.permute = none)

include hnone

theorem collPermute_of_unserved (h : u.permServed c = false) :
    exec (.collPermute dt) s = .next (u.complete c .faulted 0 []) := by
  rw [exec_collPermute, execCollPermute]
  simp only [hstart.take, hchecks, hnone, h, Option.isSome_none, Bool.not_false, Bool.false_eq_true, if_false, if_true]

variable (hserved : u.permServed c = true)

include hserved

theorem collPermute_of_held (h : u.permHeldNow c (u.permOf c) = true) :
    exec (.collPermute dt) s = .next (s.advance dt) := by
  rw [exec_collPermute, execCollPermute]
  simp only [hstart.take, hchecks, hnone, hserved, Option.isSome_none, Bool.not_true, Bool.false_eq_true, if_false]
  exact if_pos h

theorem collPermute_of_free (h : u.permHeldNow c (u.permOf c) = false)
    (hfits : (u.permOf c).target u.coll.ownRank = u.coll.ownRank → (u.permOf c).segs.all Segment.fits = true)
    (hearly : ∀ f ∈ u.coll.permHeld, f.1.newEpoch ≠ (u.permOf c).newEpoch) :
    exec (.collPermute dt) s = .next (u.permuteStarts c (u.permOf c)) := by
  have hmoves : ((u.permOf c).target u.coll.ownRank == u.coll.ownRank && !(u.permOf c).segs.all Segment.fits) = false := by
    by_cases hstays : (u.permOf c).target u.coll.ownRank = u.coll.ownRank
    · rw [hfits hstays, Bool.not_true, Bool.and_false]
    · rw [beq_false_of_ne hstays, Bool.false_and]
  have hheld : u.coll.permHeld.filter (fun f => f.1.newEpoch == (u.permOf c).newEpoch) = [] :=
    List.filter_eq_nil_iff.mpr fun f hf => by simpa using hearly f hf
  rw [exec_collPermute, execCollPermute]
  simp only [hstart.take, hchecks, hnone, hserved, Option.isSome_none, Bool.not_true, Bool.false_eq_true, if_false]
  refine (if_neg (Bool.eq_false_iff.mp h)).trans ((if_neg (Bool.eq_false_iff.mp hmoves)).trans ?_)
  exact congrArg (fun fs : List (PermuteF × Bool) => Host.Outcome.next
    (fs.foldl (fun st f => st.takeSegment f.1 f.2) (u.permuteStarts c (u.permOf c)))) hheld

end Permute

/-- Settles O50: each collective command by its checks, by what it finds of its context, and by what holds it. -/
theorem collectivesStart : Obligations.CollectivesStart := by
  unfold Obligations.CollectivesStart
  intro dt r s u v w c x y
  refine ⟨?reduce, ?gather, ?barrier, ?permute⟩
  case reduce =>
    rintro p src scale hstart rfl
    refine ⟨fun o h => collReduce_of_failed hstart h, fun o h => collReduce_of_failed hstart h,
      fun hchecks hsrc hscale => ⟨fun h => collReduce_of_unserved hstart hchecks ?_, fun hserves hkey htable => ?_⟩⟩
    · subst hsrc hscale
      refine h.imp_right fun h hserved => ?_
      rcases h with h | h
      · exact Bool.false_ne_true (h.symm.trans hserved.1)
      · exact Bool.false_ne_true (h.symm.trans hserved.2)
    · subst hsrc hscale
      refine ⟨fun h => collReduce_of_held hstart hchecks hserves ⟨hkey, htable⟩ h, fun hgoes hfree =>
        ⟨fun n hfind hrefused =>
          collReduce_of_refused hstart hchecks hserves ⟨hkey, htable⟩ hgoes hfree hfind hrefused, fun hctx hload => ?_⟩⟩
      have hv : v.tide = u.tide ∧ v.mem = u.mem ∧ v.poison = u.poison ∧ v.pkg = u.pkg ∧ v.farStacks = u.farStacks := by
        rcases hctx with ⟨-, -, hopen⟩ | ⟨-, -, -, rfl⟩
        · rw [openColl_eq hopen]
          exact ⟨rfl, rfl, rfl, rfl, rfl⟩
        · exact ⟨rfl, rfl, rfl, rfl, rfl⟩
      obtain ⟨htide, hmem, hpoison, hpkg, hfar⟩ := hv
      have htable' : v.redTable (redP c) = u.redTable (redP c) := by
        rw [State.redTable, State.redTable, resolve_congr hpkg]
      have hread (a n : Nat) : v.read a n = u.read a n := by rw [State.read, State.read, hmem]
      have hfirst (a n : Nat) : v.firstPoison a n = u.firstPoison a n := by
        simp only [State.firstPoison, State.unitPoisoned, hpoison, farFailed_congr u hpkg hfar]
      obtain ⟨hkept, hsame⟩ := loadTable_table v c { y with
        cmd := some c.ref, lease := u.tide + 1000 * c.param 0x30 4 }
      rw [← hload, htable'] at hkept hsame
      rw [hread] at hkept
      rw [hfirst] at hsame
      refine ⟨?_, hkept, hsame⟩
      have hgoes' : v.reduceGoes c y = ((w.putColl x).setWait c.ref .coll none).wakeReduce x := by
        rw [State.reduceGoes, htide, ← hload]
      rw [← hgoes']
      rcases hctx with ⟨hfind, rfl, hopen⟩ | ⟨hfind, hrefused, hcmd, rfl⟩
      · exact collReduce_of_opened hstart hchecks hserves ⟨hkey, htable⟩ hgoes hfree hfind hopen
      · exact collReduce_of_found hstart hchecks hserves ⟨hkey, htable⟩ hgoes hfree hfind hrefused hcmd
  case gather =>
    rintro p hstart rfl hchecks
    refine ⟨fun h => collGather_of_unserved hstart hchecks ?_, fun hserves hsrc hdest => ?_⟩
    · rw [State.gatServed]
      rcases h with h | ⟨hsends, h⟩ | h <;> simp [*]
    · have hserved : u.gatServed (gatP c) = true := by
        rw [State.gatServed, hserves, hdest]
        cases hsends : (gatP c).sends with
        | false => rfl
        | true => rw [hsrc hsends]; rfl
      refine ⟨fun h => ?_, fun hgoes hmode => collGather_of_shift hstart hchecks hserved hgoes hmode,
        fun hgoes hmode hfree => ⟨fun n hfind hrefused =>
          collGather_of_refused hstart hchecks hserved hgoes hmode hfree hfind hrefused, ?_⟩⟩
      · by_cases hwaits : u.dieWaits (gatP c).die = true
        · exact collGather_of_dieHeld hstart hchecks hserved hwaits
        · obtain ⟨hmode, hheld⟩ := h.resolve_left hwaits
          exact collGather_of_tileHeld hstart hchecks hserved (Bool.eq_false_iff.mpr hwaits) hmode hheld
      · rintro (⟨hfind, rfl, hopen⟩ | ⟨hfind, hrefused, rfl⟩) rfl
        · exact collGather_of_opened hstart hchecks hserved hgoes hmode hfree hfind hopen
        · exact collGather_of_found hstart hchecks hserved hgoes hmode hfree hfind hrefused
  case barrier =>
    intro id hstart hid htree hreserved
    refine ⟨fun n hfind hrefused => collBarrier_of_refused hstart hid htree hreserved hfind hrefused, ?_,
      fun hfind hx hopen => collBarrier_of_opened hstart hid htree hreserved hfind hx hopen⟩
    rintro hfind hrefused rfl
    exact collBarrier_of_found hstart hid htree hreserved hfind hrefused
  case permute =>
    intro hstart hchecks
    refine ⟨fun h => collPermute_of_busy hstart hchecks h,
      fun hnone h => collPermute_of_unserved hstart hchecks hnone h, fun p key hnone hserved hkey hp => ?_⟩
    obtain rfl : key = fun off => (u.resolve permSpaces none (c.param off 8) 0).getD 0 := funext hkey
    obtain rfl : p = u.permOf c := hp
    exact ⟨fun h => collPermute_of_held hstart hchecks hnone hserved h,
      fun h hfits hearly => collPermute_of_free hstart hchecks hnone hserved h hfits hearly⟩

end Sys2Proof.Machine
end

section
/-! PROOF. Frames of collectives, and what ends a collective from outside (chapter 15). -/

namespace Sys2Proof.Machine

variable {s t u : State} {dt : Nat}

theorem exec_reduceFrame (dt : Nat) (p : Fin 24) (hdr : FrameHdr) (f : ReduceF) (s : State) :
    exec (.reduceFrame dt p hdr f) s = execReduceFrame dt p hdr f s := rfl

theorem exec_gatherFrame (dt : Nat) (p : Fin 24) (hdr : FrameHdr) (f : GatherF) (s : State) :
    exec (.gatherFrame dt p hdr f) s = execGatherFrame dt p hdr f s := rfl

theorem exec_barrierFrame (dt : Nat) (p : Fin 24) (hdr : FrameHdr) (f : BarrierF) (s : State) :
    exec (.barrierFrame dt p hdr f) s = execBarrierFrame dt p hdr f s := rfl

theorem exec_seqFrame (dt : Nat) (p : Fin 24) (hdr : FrameHdr) (f : SeqF) (s : State) :
    exec (.seqFrame dt p hdr f) s = execSeqFrame dt p hdr f s := rfl

theorem exec_permuteFrame (dt : Nat) (p : Fin 24) (hdr : FrameHdr) (f : PermuteF) (s : State) :
    exec (.permuteFrame dt p hdr f) s = execPermuteFrame dt p hdr f s := rfl

theorem exec_contextLeaseExpiry (dt : Nat) (x : Fin 6) (id : W32) (s : State) :
    exec (.contextLeaseExpiry dt x id) s = execContextLeaseExpiry dt x id s := rfl

theorem exec_permuteTimeout (dt : Nat) (s : State) : exec (.permuteTimeout dt) s = execPermuteTimeout dt s := rfl

theorem exec_permuteWorkSend (dt n : Nat) (s : State) :
    exec (.permuteWorkSend dt n) s = execPermuteWorkSend dt n s := rfl

/-! ### A context that a frame opens (R319, R332) -/

/-- One more context is open. -/
def State.withCtx (s : State) (x : CollCtx) : State := { s with coll := { s.coll with ctxs := s.coll.ctxs ++ [x] } }

theorem openColl_of_room {x : CollCtx} (h : s.openOn x.tile < 16) : s.openColl x = some (s.withCtx x) :=
  if_neg (Nat.not_le.mpr h)

/-- A context just opened changes alone: no other carries its identity. -/
theorem putColl_withCtx {x y : CollCtx} (hnew : ∀ d ∈ s.coll.ctxs, d.same y = false) (hsame : x.same y = true) :
    (s.withCtx x).putColl y = s.withCtx y := by
  have hold : s.coll.ctxs.map (fun d => if d.same y then y else d) = s.coll.ctxs :=
    (List.map_congr_left fun d hd => if_neg (Bool.eq_false_iff.mp (hnew d hd))).trans (List.map_id _)
  simp only [State.withCtx, State.putColl, List.map_append, hold, List.map_cons, List.map_nil, hsame, if_true]

theorem epochStale_self (e : W16) : epochStale e e = false := by simp [epochStale]

/-- Nothing of an identity is open. -/
theorem same_of_findColl_none {kind : Nat} {id step : W32} {epoch : W16} (h : s.findColl kind id step epoch = none)
    {y : CollCtx} (hy : y.kind = kind ∧ y.collId = id ∧ y.step = step ∧ y.epoch = epoch) :
    ∀ d ∈ s.coll.ctxs, d.same y = false := by
  obtain ⟨rfl, rfl, rfl, rfl⟩ := hy
  exact fun d hd => Bool.eq_false_iff.mpr (List.find?_eq_none.mp h d hd)

theorem same_self (x : CollCtx) : x.same x = true := by simp [CollCtx.same, CollCtx.is]

theorem frameCtx_refused (s : State) (kind : Nat) (id step : W32) (epoch : W16) :
    (s.frameCtx kind id step epoch).refused = none := rfl

theorem wakeReduce_of_frames {x : CollCtx} (h : x.cmd = none) : s.wakeReduce x = s := by
  rw [State.wakeReduce, h]
  rfl

theorem wakeGather_of_frames {x : CollCtx} (h : x.cmd = none) : s.wakeGather x = s := by
  rw [State.wakeGather, h]
  rfl

theorem runBarrier_of_frames {x : CollCtx} (h : x.cmd = none) : s.runBarrier x = s := by
  rw [State.runBarrier, h]
  rfl

/-! ### REDUCE frames (R330 to R332) -/

theorem takeReduce_of_outside {port : Nat} {f : ReduceF}
    (h : port ∉ (s.view f.collId).parent.toList ++ (s.view f.collId).kids) :
    s.takeReduce port f = s.swDiscard (s.view f.collId).tile :=
  if_pos (Bool.or_eq_true_iff.mpr (.inr (by simpa using h)))

/-- A REDUCE frame before its command opens a context, and is held there. -/
theorem takeReduce_of_early {port : Nat} {f : ReduceF}
    (hport : port ∈ (s.view f.collId).parent.toList ++ (s.view f.collId).kids)
    (hvalid : (tabGet {} s.coll.trees (f.collId.toNat % 64)).valid = true) (hkind : f.kind < 2)
    (hepoch : f.epoch = s.commit.layoutEpoch) (hfind : s.findColl 0 f.collId f.step f.epoch = none)
    (hroom : s.openOn (s.view f.collId).tile < 16) : s.takeReduce port f =
      s.withCtx { s.frameCtx 0 f.collId f.step f.epoch with waiting := [(port, f)] } := by
  have hinside : (!(tabGet {} s.coll.trees (f.collId.toNat % 64)).valid ||
      !((s.view f.collId).parent.toList ++ (s.view f.collId).kids).contains port) = false := by
    rw [hvalid, List.contains_iff_mem.mpr hport]
    rfl
  have hdata : f.kind ≠ 2 := Nat.ne_of_lt hkind
  have hopen : s.openColl (s.frameCtx 0 f.collId f.step f.epoch) =
      some (s.withCtx (s.frameCtx 0 f.collId f.step f.epoch)) :=
    openColl_of_room hroom
  have hput := putColl_withCtx (x := s.frameCtx 0 f.collId f.step f.epoch)
    (y := { s.frameCtx 0 f.collId f.step f.epoch with waiting := [(port, f)] })
    (same_of_findColl_none hfind ⟨rfl, rfl, rfl, rfl⟩) (same_self (s.frameCtx 0 f.collId f.step f.epoch))
  have hstale : epochStale f.epoch s.commit.layoutEpoch = false := hepoch ▸ epochStale_self _
  unfold State.takeReduce
  simp only [hinside, hdata, hstale, hfind, hopen, frameCtx_refused, Option.map_some, Option.isSome_none,
    Bool.false_eq_true, if_false]
  rw [wakeReduce_of_frames]
  · exact hput
  · rfl

/-! ### GATHER frames (R331, R332) -/

theorem gatherHeld_of_tree {port : Nat} {f : GatherF} (hkind : f.kind < 2) :
    s.gatherHeld port f = s.ingressHeld f.collId := by
  have hdata : s.shardRefusal f = false := by
    rw [State.shardRefusal, beq_false_of_ne (Nat.ne_of_lt hkind), Bool.false_and]
  exact if_pos (by rw [hdata, decide_eq_true (Nat.lt_succ_of_lt hkind)]; rfl)

/-- A GATHER frame before its command opens a context, and is held there. -/
theorem takeTreeGather_of_early {port : Nat} {poison : Bool} {f : GatherF}
    (hway : (f.kind = 0 ∧ port ∈ (s.view f.collId).kids) ∨ (f.kind = 1 ∧ (s.view f.collId).parent = some port))
    (hvalid : (tabGet {} s.coll.trees (f.collId.toNat % 64)).valid = true)
    (hepoch : f.epoch = s.commit.layoutEpoch) (hfind : s.findColl 1 f.collId 0 f.epoch = none)
    (hroom : s.openOn (s.view f.collId).tile < 16) : s.takeTreeGather port poison f =
      s.withCtx { s.frameCtx 1 f.collId 0 f.epoch with waitingG := [(port, poison, f)] } := by
  have hdata : (f.kind == 2) = false := beq_false_of_ne (by rcases hway with ⟨h, -⟩ | ⟨h, -⟩ <;> omega)
  have hinside : (!(tabGet {} s.coll.trees (f.collId.toNat % 64)).valid ||
      !((f.kind == 0 && (s.view f.collId).kids.contains port) || (f.kind == 1 && (s.view f.collId).parent == some port) ||
        false)) = false := by
    rw [hvalid]
    rcases hway with ⟨hkind, hport⟩ | ⟨hkind, hport⟩ <;> simp [hkind, hport]
  have hopen : s.openColl (s.frameCtx 1 f.collId 0 f.epoch) = some (s.withCtx (s.frameCtx 1 f.collId 0 f.epoch)) :=
    openColl_of_room hroom
  have hput := putColl_withCtx (x := s.frameCtx 1 f.collId 0 f.epoch)
    (y := { s.frameCtx 1 f.collId 0 f.epoch with waitingG := [(port, poison, f)] })
    (same_of_findColl_none hfind ⟨rfl, rfl, rfl, rfl⟩) (same_self (s.frameCtx 1 f.collId 0 f.epoch))
  have hstale : epochStale f.epoch s.commit.layoutEpoch = false := hepoch ▸ epochStale_self _
  unfold State.takeTreeGather
  simp only [hdata, hinside, hstale, hfind, hopen, frameCtx_refused, Option.map_some, Option.isSome_none,
    Bool.false_and, Bool.false_eq_true, if_false]
  rw [wakeGather_of_frames]
  · exact hput
  · rfl

/-! ### The ring shift (R337) -/

/-- A frame's sender reads the same bytes and the same poison, and names the same modules. -/
structure SameSource (s t : State) : Prop where
  mem : t.mem = s.mem
  poison : t.poison = s.poison
  pkg : t.pkg = s.pkg
  farStacks : t.farStacks = s.farStacks
  conf : t.conf = s.conf

theorem SameSource.rfl : SameSource s s := ⟨Eq.refl _, Eq.refl _, Eq.refl _, Eq.refl _, Eq.refl _⟩

theorem SameSource.trans (hst : SameSource s t) (htu : SameSource t u) : SameSource s u :=
  ⟨htu.mem.trans hst.mem, htu.poison.trans hst.poison, htu.pkg.trans hst.pkg, htu.farStacks.trans hst.farStacks,
    htu.conf.trans hst.conf⟩

theorem sameSource_send (s : State) (p : Nat) (hdr : FrameHdr) (body : FrameBody) : SameSource s (s.send p hdr body) :=
  have h := (sameButTraffic_send s p hdr body).eq
  ⟨(congrArg State.mem h :), (congrArg State.poison h :), (congrArg State.pkg h :), (congrArg State.farStacks h :),
    (congrArg State.conf h :)⟩

section Source

variable (h : SameSource s t)

include h

theorem SameSource.read (a n : Nat) : t.read a n = s.read a n := by rw [State.read, State.read, h.mem]

theorem SameSource.poisoned (a n : Nat) : t.poisoned a n = s.poisoned a n := by
  simp only [State.poisoned, State.unitPoisoned, h.poison, farFailed_congr s h.pkg h.farStacks]

theorem SameSource.portItem (p : Nat) : t.portItem p = s.portItem p := by rw [State.portItem, State.portItem, h.conf]

theorem SameSource.gatSrc (p : GatP) : t.gatSrc p = s.gatSrc p := by
  rw [State.gatSrc, State.gatSrc, resolve_congr h.pkg]

end Source

/-- Two folds agree where their steps agree on every state that the second reaches. -/
theorem foldl_congr_of_kept {α : Type} {P : State → Prop} {f g : State → α → State} (hstep : ∀ x a, P x → f x a = g x a)
    (hkeep : ∀ x a, P x → P (g x a)) (as : List α) (hs : P s) : as.foldl f s = as.foldl g s := by
  induction as generalizing s with
  | nil => rfl
  | cons a as ih => rw [List.foldl_cons, List.foldl_cons, hstep s a hs, ih (hkeep s a hs)]

/-- The frames of a shift's own segment: what they read does not change while they are sent. -/
theorem sendShift_eq {v : State} {c : Cmd} {hd : Nat → Nat → FrameHdr} (h : SameSource s v)
    (hhd : ∀ k n, hd k n = { poison := s.poisoned k n, dstModule := (s.portItem (gatP c).next).peerModule }) :
    v.sendShift c = (payloadParts (gatP c).seg).foldl (fun st part =>
      st.send (gatP c).next (hd (s.gatSrc (gatP c) + part.1) part.2) (.seq {
        collId := (gatP c).collId, kind := 1, offset := part.1, payload := s.read (s.gatSrc (gatP c) + part.1) part.2
        total := (gatP c).seg })) v := by
  refine foldl_congr_of_kept (P := SameSource s) (fun x part hx => ?_) (fun x part hx => hx.trans (sameSource_send ..)) _ h
  rw [hx.poisoned, hx.read, hx.portItem, h.gatSrc, hhd]

theorem sameSource_sendShift (s : State) (c : Cmd) : SameSource s (s.sendShift c) :=
  foldl_keeps (R := SameSource) (fun _ => .rfl) (fun _ _ _ => .trans) (fun s _ => sameSource_send s ..) _ s

theorem modShift_find (s : State) (id : W32) {f : Shift → Shift} (hf : ∀ h, (f h).collId = h.collId) :
    (s.modShift id f).coll.shifts.find? (fun h => h.collId == id) =
      (s.coll.shifts.find? (fun h => h.collId == id)).map f := by
  have hpred : (fun h : Shift => h.collId == id) ∘ (fun h => if h.collId = id then f h else h) =
      fun h => h.collId == id := by
    funext h
    dsimp only [Function.comp]
    split
    · rw [hf]
    · rfl
  have hfound : (s.modShift id f).coll.shifts.find? (fun h => h.collId == id) =
      (s.coll.shifts.find? (fun h => h.collId == id)).map (fun h => if h.collId = id then f h else h) := by
    rw [State.modShift, List.find?_map, hpred]
  rw [hfound]
  cases h : s.coll.shifts.find? (fun h => h.collId == id) with
  | none => rfl
  | some x =>
    have hid : x.collId = id := by simpa using List.find?_some h
    exact congrArg some (if_pos hid)

/-- A shift whose GRANT has come, and whose data nothing holds, sends its segment; it completes where all is done. -/
theorem runShift_of_granted {c : Cmd} {h : Shift}
    (hfind : s.coll.shifts.find? (fun x => x.collId == (gatP c).collId) = some h)
    (hgrant : h.grants.contains (gatP c).next = true) (hsent : h.sent = false)
    (hfree : s.landHeld (gatP c).next [(s.gatSrc (gatP c), (gatP c).seg)] = false) {w : State}
    (hw : w = (s.modShift (gatP c).collId (fun x => { x with sent := true })).sendShift c) : s.runShift c =
      if w.shiftDone c then (w.dropShift (gatP c).collId).finish c.ref .ok 0 (bodyOf [(0, 8, (gatP c).seg)]) else w := by
  subst hw
  unfold State.runShift
  simp only [hfind, hgrant, hsent, hfree, Bool.not_false, Bool.and_self, if_true]

theorem sameSource_runShift (s : State) (c : Cmd) : SameSource s (s.runShift c) := by
  have hend (v : State) : SameSource v (if v.shiftDone c then
      (v.dropShift (gatP c).collId).finish c.ref .ok 0 (bodyOf [(0, 8, (gatP c).seg)]) else v) := by
    split
    · exact ⟨rfl, rfl, rfl, rfl, rfl⟩
    · exact .rfl
  unfold State.runShift
  dsimp only
  split
  · exact .rfl
  · refine .trans ?_ (hend _)
    split
    · exact .trans (t := s.modShift (gatP c).collId (fun h => { h with sent := true })) ⟨rfl, rfl, rfl, rfl, rfl⟩
        (sameSource_sendShift ..)
    · exact .rfl

/-! ### Contexts that a lease ends (R387) -/

theorem refuseColl_mem (s : State) (x : CollCtx) (st : Status) (offender : Option Nat) (body : List Byte) :
    (s.refuseColl x st offender body).mem = s.mem := by
  have hcount (v : State) (n : Nat) : (v.countRefusal n st).mem = v.mem := by
    unfold State.countRefusal
    split <;> rfl
  have hsend (v : State) (ps : List Nat) (b : FrameBody) : (v.sendPorts ps b).mem = v.mem :=
    (congrArg State.mem (sameButTraffic_sendPorts v ps b).eq :)
  have hclose (v : State) (y : CollCtx) : (v.closeColl y).mem = v.mem := by
    unfold State.closeColl
    dsimp only
    split <;> rfl
  unfold State.refuseColl
  dsimp only
  split
  · exact (hclose ..).trans ((hsend ..).trans (hcount ..))
  · exact (hsend ..).trans (hcount ..)

theorem closeColl_mem (s : State) (x : CollCtx) : (s.closeColl x).mem = s.mem := by
  unfold State.closeColl
  dsimp only
  split <;> rfl

/-- A context that closes is gone. -/
theorem closeColl_ctxs (s : State) (x : CollCtx) : ∀ d ∈ (s.closeColl x).coll.ctxs, d.same x = false := by
  intro d hd
  have hctxs : (s.closeColl x).coll.ctxs = s.coll.ctxs.filter (fun d => !d.same x) := by
    unfold State.closeColl
    dsimp only
    split <;> rfl
  rw [hctxs] at hd
  simpa using (List.mem_filter.mp hd).2

/-! ### Segments of a permute (R342) -/

theorem sameButSends_sendSegment (s : State) (p : Permute) (i plane key total : Nat) (serial : W16) :
    SameButSends s (s.sendSegment p i plane key total serial) :=
  foldl_keeps (R := SameButSends) (fun _ => .rfl) (fun _ _ _ => .trans) (fun _ _ => sameButSends_sendToRank ..) _ s

/-- Nothing waits for a FREE slot. -/
theorem retryHeld_of_none {p : Permute} (hp : s.coll.permute = some p) (hheld : p.held = []) : s.retryHeld = s := by
  have hp' : { p with held := [] } = p := by rw [← hheld]
  have hsame : s.modPermute (fun p => { p with held := [] }) = s := by
    rw [State.modPermute, hp, Option.map_some, hp', ← hp]
  unfold State.retryHeld
  simp only [hp, hheld, hsame, List.foldl_nil]

end Sys2Proof.Machine
end

section
/-! PROOF. The obligation about frames of collectives and leases of contexts, assembled (chapter 15). -/

namespace Sys2Proof.Machine

variable {s t : State} {dt : Nat}

section Taken

variable {p : Fin 24} {hdr : FrameHdr} (hactive : s.portActive p = true) (hpast : hdr.sendTide < (s.advance dt).tide)
  (hunits : ∀ n, (s.unit n).armed = false)

include hactive hpast hunits

/-- What a frame of a collective does, once its port has counted it. -/
theorem receive_collective {body : FrameBody} (hbody : (s.advance dt).pastSend hdr body = decide (hdr.sendTide <
    (s.advance dt).tide)) (hrole : s.roleOf p ∈ frameRoles body) (f : State → State) :
    (s.advance dt).receive p hdr body true f = .next (f ((s.advance dt).modPort p (·.taken hdr))) :=
  receive_of_taken hactive hunits (hbody.trans (decide_eq_true hpast)) hrole f

theorem reduceFrame_of_free {f : ReduceF} (hrole : s.roleOf p = 3)
    (hfree : (s.advance dt).ingressHeld f.collId = false) : exec (.reduceFrame dt p hdr f) s =
      .next (((s.advance dt).modPort p (·.taken hdr)).takeReduce p (poisonReduce hdr f)) := by
  rw [exec_reduceFrame]
  unfold execReduceFrame
  simp only [hfree, Bool.false_eq_true, if_false]
  exact receive_collective hactive hpast hunits (body := .reduce f) rfl (by simp [hrole, frameRoles]) _

/-- A GATHER frame for this module, of its tree and not a REFUSE, waits in the context that it opens. -/
theorem gatherFrame_of_early {f : GatherF} (hrole : s.roleOf p = 3) (hdst : hdr.dstModule = s.conf.address)
    (hfree : (s.advance dt).ingressHeld f.collId = false)
    (hvalid : (tabGet {} s.coll.trees (f.collId.toNat % 64)).valid = true)
    (hway : (f.kind = 0 ∧ p.val ∈ (s.view f.collId).kids) ∨ (f.kind = 1 ∧ (s.view f.collId).parent = some p.val))
    (hepoch : f.epoch = s.commit.layoutEpoch) (hfind : s.findColl 1 f.collId 0 f.epoch = none)
    (hroom : s.openOn (s.view f.collId).tile < 16) : exec (.gatherFrame dt p hdr f) s =
      .next (((s.advance dt).modPort p (·.taken hdr)).withCtx { (s.advance dt).frameCtx 1 f.collId 0 f.epoch with
        waitingG := [(p.val, hdr.poison, f)] }) := by
  have hkind : f.kind < 2 := by rcases hway with ⟨h, -⟩ | ⟨h, -⟩ <;> omega
  have hheld : (s.advance dt).gatherHeld p f = false := (gatherHeld_of_tree hkind).trans hfree
  have hanswer (v : State) : v.shardRefusal f = false := by
    rw [State.shardRefusal, beq_false_of_ne (Nat.ne_of_lt hkind), Bool.false_and]
  have htake : (hdr.dstModule != s.conf.address) = false := by simp [hdst]
  rw [exec_gatherFrame]
  unfold execGatherFrame
  simp only [hheld, Bool.and_false, Bool.false_eq_true, if_false]
  rw [receive_collective hactive hpast hunits (body := .gather f) rfl (by simp [hrole, frameRoles])]
  have hdst' : (hdr.dstModule != ((s.advance dt).modPort p (·.taken hdr)).conf.address) = false := htake
  simp only [hdst', hanswer, show f.kind ≠ 3 by omega, show f.kind ≠ 4 by omega, Bool.false_eq_true, if_false]
  exact congrArg Host.Outcome.next (takeTreeGather_of_early (s := (s.advance dt).modPort p (·.taken hdr)) hway hvalid hepoch
    hfind hroom)

/-- The first BARRIER frame of a child opens the barrier's context, and counts in it. -/
theorem barrierFrame_of_first {f : BarrierF} (hrole : 1 ≤ s.roleOf p ∧ s.roleOf p ≤ 5)
    (hfree : (s.advance dt).ingressHeld f.collId = false)
    (hvalid : (tabGet {} s.coll.trees (f.collId.toNat % 64)).valid = true) (hkind : f.kind = 0)
    (hport : p.val ∈ (s.view f.collId).kids) (hfind : s.findBarrier f.collId = none)
    (hroom : s.openOn (s.view f.collId).tile < 16) : exec (.barrierFrame dt p hdr f) s =
      .next (((s.advance dt).modPort p (·.taken hdr)).withCtx { (s.advance dt).frameCtx 2 f.collId 0 s.commit.layoutEpoch
        with heard := [p.val], contrib := f.contrib, latest := f.latest }) := by
  have hroles : s.roleOf p ∈ frameRoles (.barrier f) := by
    simp only [frameRoles, List.mem_cons, List.not_mem_nil, or_false]
    omega
  rw [exec_barrierFrame]
  unfold execBarrierFrame
  simp only [hfree, Bool.false_eq_true, if_false]
  rw [receive_collective hactive hpast hunits (body := .barrier f) rfl hroles]
  generalize hm : (s.advance dt).modPort p (·.taken hdr) = m
  have hctx : m.frameCtx 2 f.collId 0 s.commit.layoutEpoch = (s.advance dt).frameCtx 2 f.collId 0 s.commit.layoutEpoch := by
    rw [← hm]; rfl
  have hctxs : m.coll.ctxs = s.coll.ctxs := by rw [← hm]; rfl
  have hepoch' : m.commit.layoutEpoch = s.commit.layoutEpoch := by rw [← hm]; rfl
  have hvalid' : (tabGet {} m.coll.trees (f.collId.toNat % 64)).valid = true := by rw [← hm]; exact hvalid
  have hport' : (m.view f.collId).kids.contains p.val = true := by rw [← hm]; exact List.contains_iff_mem.mpr hport
  have hfind' : m.findBarrier f.collId = none := by rw [← hm]; exact hfind
  have hopen : m.openColl (m.frameCtx 2 f.collId 0 m.commit.layoutEpoch) =
      some (m.withCtx (m.frameCtx 2 f.collId 0 m.commit.layoutEpoch)) := openColl_of_room (by rw [← hm]; exact hroom)
  have hheard : (m.frameCtx 2 f.collId 0 m.commit.layoutEpoch).heard = [] := rfl
  have hcontrib : (m.frameCtx 2 f.collId 0 m.commit.layoutEpoch).contrib = 0 := rfl
  have hlatest : (m.frameCtx 2 f.collId 0 m.commit.layoutEpoch).latest = 0 := rfl
  simp only [hvalid', hport', hkind, hfind', hopen, hheard, hcontrib, hlatest, Option.map_some, Bool.not_true,
    Bool.and_self, BEq.rfl, Bool.true_or, Bool.or_self, Bool.false_eq_true, if_true, if_false, List.contains_nil,
    List.nil_append, Nat.zero_add, Nat.zero_max]
  rw [runBarrier_of_frames rfl, putColl_withCtx, hepoch', hctx]
  · intro d hd
    have hother := List.find?_eq_none.mp hfind d (hctxs ▸ hd)
    refine Bool.eq_false_iff.mpr fun hsame => hother ?_
    simp only [CollCtx.same, CollCtx.is, Bool.and_eq_true] at hsame ⊢
    exact hsame.1.1
  · exact same_self _

/-- A PERMUTE segment of the next layout waits for its permute. -/
theorem permuteFrame_of_early {f : PermuteF} (hrole : s.roleOf p = 5) (hdst : hdr.dstModule = s.conf.address)
    (hnone : s.coll.permute = none) (hkind : f.kind = 0) (hepoch : f.newEpoch = s.commit.layoutEpoch + 1) :
    exec (.permuteFrame dt p hdr f) s = .next ({ (s.advance dt).modPort p (·.taken hdr) with
      coll := { s.coll with permute := none, permHeld := s.coll.permHeld ++ [(f, hdr.poison)] } }) := by
  have hrange : (s.advance dt).segmentRange f = [] := by
    have h : (s.advance dt).coll.permute = none := hnone
    rw [State.segmentRange, h]
    rfl
  have hfree : (s.advance dt).landHeld p [] = false := rfl
  rw [exec_permuteFrame]
  unfold execPermuteFrame
  simp only [hrange, hfree, Bool.and_false, Bool.false_eq_true, if_false]
  rw [receive_collective hactive hpast hunits (body := .permute f) rfl (by simp [hrole, frameRoles])]
  have hdst' : ¬ hdr.dstModule ≠ ((s.advance dt).modPort p (·.taken hdr)).conf.address := not_not_intro hdst
  have hnone' : ((s.advance dt).modPort p (·.taken hdr)).coll.permute = none := hnone
  have hnext : (f.kind = 0 && f.newEpoch == ((s.advance dt).modPort p (·.taken hdr)).commit.layoutEpoch + 1) = true := by
    rw [hkind, hepoch]
    exact BEq.rfl
  simp only [hdst', hnone', hnext, if_true, if_false]
  rfl

/-! ### Frames of a ring shift -/

/-- A GRANT before its shift is kept. -/
theorem seqFrame_of_first {f : SeqF} (hrole : s.roleOf p = 4) (hkind : f.kind = 0)
    (hnone : s.coll.shifts.find? (fun h => h.collId == f.collId) = none) : exec (.seqFrame dt p hdr f) s =
      .next ({ (s.advance dt).modPort p (·.taken hdr) with
        coll := { s.coll with shifts := s.coll.shifts ++ [{ collId := f.collId, grants := [p.val] }] } }) := by
  have hnone' : ((s.advance dt).modPort p (·.taken hdr)).coll.shifts.find? (fun h => h.collId == f.collId) = none := hnone
  rw [exec_seqFrame]
  unfold execSeqFrame
  simp only [hkind, bne_self_eq_false, Bool.false_and, Bool.false_eq_true, if_false]
  rw [receive_collective hactive hpast hunits (body := .seq f) rfl (by simp [hrole, frameRoles])]
  simp only [if_true]
  rw [hnone']
  rfl

variable {f : SeqF} {h : Shift} {ref : CmdRef} {c : Cmd} (hrole : s.roleOf p = 4)
  (hfind : s.coll.shifts.find? (fun x => x.collId == f.collId) = some h) (hcmd : h.cmd = some ref)
  (hc : s.findCmd ref = some c)

include hrole hfind hcmd hc

/-- A GRANT for a shift whose command waits. -/
theorem seqFrame_of_grant (hkind : f.kind = 0) : exec (.seqFrame dt p hdr f) s =
    .next ((((s.advance dt).modPort p (·.taken hdr)).modShift f.collId (fun x => { x with
      grants := x.grants ++ [p.val] })).runShift c) := by
  generalize hm : (s.advance dt).modPort p (·.taken hdr) = m
  have hfind' : m.coll.shifts.find? (fun x => x.collId == f.collId) = some h := by rw [← hm]; exact hfind
  have hc' : m.findCmd ref = some c := by rw [← hm]; exact hc
  rw [exec_seqFrame]
  unfold execSeqFrame
  simp only [hkind, bne_self_eq_false, Bool.false_and, Bool.false_eq_true, if_false]
  rw [receive_collective hactive hpast hunits (body := .seq f) rfl (by simp [hrole, frameRoles]), hm]
  simp only [if_true, hfind', Option.bind_some, hcmd, hc']

/-- The data of a shift whose command waits, from its RING_PREV and within its segment. -/
theorem seqFrame_of_data (hkind : f.kind ≠ 0) (hprev : (gatP c).prev = p.val)
    (hfits : f.offset + f.payload.length ≤ (gatP c).seg)
    (hfree : (s.advance dt).landHeld p [(s.gatDest (gatP c) + f.offset, f.payload.length)] = false) :
    exec (.seqFrame dt p hdr f) s = .next (((((s.advance dt).modPort p (·.taken hdr)).landPayload
      (s.gatDest (gatP c) + f.offset) f.payload hdr.poison).modShift f.collId (fun x => { x with
        got := x.got + f.payload.length })).runShift c) := by
  have hkey : (s.advance dt).shiftKey f = some (s.gatDest (gatP c) + f.offset) := by
    have hfind' : (s.advance dt).coll.shifts.find? (fun x => x.collId == f.collId) = some h := hfind
    have hc' : (s.advance dt).findCmd ref = some c := hc
    rw [State.shiftKey, hfind', Option.bind_some, hcmd, Option.bind_some, hc']
    rfl
  have hdest : ((s.advance dt).modPort p (·.taken hdr)).gatDest (gatP c) = s.gatDest (gatP c) := rfl
  generalize hm : (s.advance dt).modPort p (·.taken hdr) = m at hdest ⊢
  have hfind' : m.coll.shifts.find? (fun x => x.collId == f.collId) = some h := by rw [← hm]; exact hfind
  have hc' : m.findCmd ref = some c := by rw [← hm]; exact hc
  rw [exec_seqFrame]
  unfold execSeqFrame
  simp only [hkey, Option.toList_some, List.map_cons, List.map_nil, hfree, Bool.and_false, Bool.false_eq_true, if_false]
  rw [receive_collective hactive hpast hunits (body := .seq f) rfl (by simp [hrole, frameRoles]), hm]
  simp only [hkind, if_false, hfind', Option.bind_some, hcmd, hc', hprev, hdest, hfits, decide_true, Bool.and_self,
    if_true]

end Taken

/-- Shift data that lands: its bytes, its poison, and nothing else in memory. -/
theorem runShift_landPayload {v : State} (hv : SameSource s v) (key : Nat) (bs : List Byte) (poison : Bool) (id : W32)
    (f : Shift → Shift) (c : Cmd) {t : State} (ht : t = ((v.landPayload key bs poison).modShift id f).runShift c) :
    t.mem = (s.write key bs).mem ∧ SameBut s t key bs.length ∧
      (poison = true → ∀ x ∈ frameUnits key bs.length, x ∈ t.poison) := by
  have hrun : SameSource (v.landPayload key bs poison) t := by
    subst ht
    exact .trans (t := (v.landPayload key bs poison).modShift id f) ⟨rfl, rfl, rfl, rfl, rfl⟩ (sameSource_runShift ..)
  have hmem : t.mem = (s.write key bs).mem := by
    rw [hrun.mem, landPayload_frame]
    exact write_mem_congr hv.mem hv.pkg hv.farStacks key bs
  refine ⟨hmem, fun x hx => ?_, fun hp x hx => ?_⟩
  · rw [hmem]
    exact memRead_writeBytes_out s s.mem key x bs hx
  · subst hp
    rw [hrun.poison]
    exact landPayload_poison key bs hx

/-! ### The clauses -/

theorem reduceFrameHolds (hunits : ∀ n, (s.unit n).armed = false) (p : Fin 24) (hdr : FrameHdr) (f : ReduceF) (v : View)
    (hpast : hdr.sendTide < (s.advance dt).tide) (hactive : s.portActive p = true) (hrole : s.roleOf p = 3)
    (hv : v = s.view f.collId) (hfree : (s.advance dt).ingressHeld f.collId = false) :
    (p.val ∉ v.parent.toList ++ v.kids → exec (.reduceFrame dt p hdr f) s =
      .next (((s.advance dt).acceptFrame p hdr (.reduce f)).modTile v.tile (fun t => { t with
        discard := satAdd 32 t.discard 1 }))) ∧
    (p.val ∈ v.parent.toList ++ v.kids → (tabGet {} s.coll.trees (f.collId.toNat % 64)).valid = true → f.kind < 2 →
      hdr.poison = false → f.epoch = s.commit.layoutEpoch → s.findColl 0 f.collId f.step f.epoch = none →
      s.openOn v.tile < 16 → ∃ t, exec (.reduceFrame dt p hdr f) s = .next t ∧
        t.coll.ctxs = s.coll.ctxs ++ [{ (s.advance dt).frameCtx 0 f.collId f.step f.epoch with waiting := [(p.val, f)] }] ∧
        t.mem = s.mem ∧ t.step = s.step) := by
  subst hv
  have hexec := reduceFrame_of_free hactive hpast hunits hrole hfree
  have hid : (poisonReduce hdr f).collId = f.collId := by
    unfold poisonReduce
    split <;> rfl
  refine ⟨fun hout => ?_, fun hport hvalid hkind hpoison hepoch hfind hroom => ?_⟩
  · rw [hexec, acceptFrame_of_unarmed (s := s.advance dt) hunits, takeReduce_of_outside, hid]
    · rfl
    · rw [hid]
      exact hout
  · have hclean : poisonReduce hdr f = f := by simp [poisonReduce, hpoison]
    rw [hclean, takeReduce_of_early (s := (s.advance dt).modPort p (·.taken hdr)) hport hvalid hkind hepoch hfind
      hroom] at hexec
    exact ⟨_, hexec, rfl, rfl, rfl⟩

theorem contextLeaseHolds (x : Fin 6) (id : W32) (k : CollCtx) (v : State)
    (hfind : s.coll.ctxs.find? (fun c => c.tile == x.val && c.collId == id && decide (c.lease ≤ (s.advance dt).tide)) =
      some k) (hpause : s.tilePaused x = false)
    (hv : v = (((s.advance dt).refuseColl { k with cmd := none } .faulted none []).closeColl { k with cmd := none })) :
    (k.cmd = none → exec (.contextLeaseExpiry dt x id) s =
      .next (v.logRec 0 0x0080 sevWarning k.lease 1 id.toNat)) ∧
    (∀ ref, k.cmd = some ref → exec (.contextLeaseExpiry dt x id) s = .next ((v.finish ref .timeout 0
      (if k.kind = 0 then k.redBody else if k.kind = 1 then k.gatBody else [])).logRec 0 0x0080 sevWarning k.lease 1
        id.toNat)) ∧
    (∃ t, exec (.contextLeaseExpiry dt x id) s = .next t ∧ (∀ d ∈ t.coll.ctxs, d.same k = false) ∧ t.mem = s.mem ∧
      t.commit = s.commit) := by
  have hfind' : (s.advance dt).coll.ctxs.find? (fun c => c.tile == x.val && c.collId == id &&
      decide (c.lease ≤ (s.advance dt).tide)) = some k := hfind
  have hpause' : (s.advance dt).tilePaused x = false := hpause
  have hnone : k.cmd = none → exec (.contextLeaseExpiry dt x id) s =
      .next (v.logRec 0 0x0080 sevWarning k.lease 1 id.toNat) := by
    intro hcmd
    rw [exec_contextLeaseExpiry, execContextLeaseExpiry]
    simp only [hfind', hpause', hcmd, Bool.false_eq_true, if_false, ← hv]
  have hsome : ∀ ref, k.cmd = some ref → exec (.contextLeaseExpiry dt x id) s = .next ((v.finish ref .timeout 0
      (if k.kind = 0 then k.redBody else if k.kind = 1 then k.gatBody else [])).logRec 0 0x0080 sevWarning k.lease 1
        id.toNat) := by
    intro ref hcmd
    rw [exec_contextLeaseExpiry, execContextLeaseExpiry]
    simp only [hfind', hpause', hcmd, Bool.false_eq_true, if_false, ← hv]
  have hgone : ∀ d ∈ v.coll.ctxs, d.same k = false := by
    subst hv
    exact closeColl_ctxs _ { k with cmd := none }
  have hmem : v.mem = s.mem := by
    subst hv
    exact (closeColl_mem ..).trans (refuseColl_mem ..)
  have hcommit : v.commit = s.commit := by
    subst hv
    exact ((sameSlots_refuseColl ..).trans (sameSlots_closeColl ..)).commit
  refine ⟨hnone, hsome, ?_⟩
  cases hcmd : k.cmd with
  | none => refine ⟨_, hnone hcmd, ?_⟩; rw [logRec_eq]; exact ⟨hgone, hmem, hcommit⟩
  | some ref => refine ⟨_, hsome ref hcmd, ?_⟩; rw [logRec_eq]; exact ⟨hgone, hmem, hcommit⟩

theorem shiftLeaseHolds (x : Fin 6) (id : W32) (h : Shift) (ref : CmdRef) (c : Cmd) (d : Nat)
    (hnone : s.coll.ctxs.find? (fun c => c.tile == x.val && c.collId == id && decide (c.lease ≤ (s.advance dt).tide)) =
      none) (hfind : s.coll.shifts.find? (fun y => y.collId == id) = some h) (hcmd : h.cmd = some ref)
    (hc : s.findCmd ref = some c) (hd : c.deadline = some d) (hdue : d ≤ (s.advance dt).tide) :
    exec (.contextLeaseExpiry dt x id) s =
      .next (((s.advance dt).dropShift id).finish c.ref .timeout 0 (bodyOf [(0, 8, h.got)])) := by
  have hnone' : (s.advance dt).coll.ctxs.find? (fun c => c.tile == x.val && c.collId == id &&
      decide (c.lease ≤ (s.advance dt).tide)) = none := hnone
  have hfind' : (s.advance dt).coll.shifts.find? (fun y => y.collId == id) = some h := hfind
  have hc' : (s.advance dt).findCmd ref = some c := hc
  have hreached : (s.advance dt).due c.deadline = true := by
    rw [hd]
    exact decide_eq_true hdue
  rw [exec_contextLeaseExpiry, execContextLeaseExpiry]
  simp only [hnone', hfind', hcmd, Option.bind_some, hc', hreached, if_true]

theorem permuteTimeoutHolds (p : Permute) (c : Cmd) (hp : s.coll.permute = some p) (hwait : p.contributed = false)
    (hdue : p.deadline ≤ (s.advance dt).tide) (hc : s.findCmd p.cmd = some c) : exec (.permuteTimeout dt) s =
      .next (({ (s.advance dt).freeReceiving p with coll := { ((s.advance dt).freeReceiving p).coll with
        permute := none } } : State).complete c .deferred 0 []) := by
  have hp' : (s.advance dt).coll.permute = some p := hp
  have hc' : (s.advance dt).findCmd p.cmd = some c := hc
  have hpassed : (p.contributed || decide ((s.advance dt).tide < p.deadline)) = false := by
    rw [hwait, decide_eq_false (Nat.not_lt.mpr hdue)]
    rfl
  rw [exec_permuteTimeout, execPermuteTimeout]
  simp only [hp', hc', hpassed, Bool.false_eq_true, if_false]

theorem permuteWorkHolds (p : Permute) (n i : Nat) (g : Segment) (hp : s.coll.permute = some p) (hheld : p.held = [])
    (hg : p.segs[n]? = some g) (hwork : g.work = true) (hi : (s.layer g.sendLayer).stateIdx .current = some i)
    (haway : p.target s.coll.ownRank ≠ s.coll.ownRank) (hsettled : s.layerSettled g.sendLayer = true)
    (hsent : g.sent = false) (hfree : ∀ pl ∈ (s.layer g.sendLayer).planes i,
      (s.advance dt).sendStops (p.target s.coll.ownRank) pl.2.1 pl.2.2 = false) :
    ∃ t q, exec (.permuteWorkSend dt n) s = .next t ∧ t.coll.permute = some q ∧
      q.segs[n]? = some { g with sent := true, sentSerial := ((s.layer g.sendLayer).slot i).serial } ∧
      t.layers = s.layers ∧ t.mem = s.mem := by
  generalize hu : s.advance dt = u at hfree
  have hp' : u.coll.permute = some p := by rw [← hu]; exact hp
  have hlayer : u.layer g.sendLayer = s.layer g.sendLayer := by rw [← hu]; rfl
  have hrank : u.coll.ownRank = s.coll.ownRank := by rw [← hu]; rfl
  have hsettled' : u.layerSettled g.sendLayer = true := by rw [← hu]; exact hsettled
  have haway' : (p.target s.coll.ownRank == s.coll.ownRank) = false := beq_false_of_ne haway
  have hstops : ((s.layer g.sendLayer).planes i).any (fun pl => u.sendStops (p.target s.coll.ownRank) pl.2.1 pl.2.2) =
      false := List.any_eq_false.mpr fun pl hpl => Bool.eq_false_iff.mp (hfree pl hpl)
  generalize hserial : ((s.layer g.sendLayer).slot i).serial = serial
  have hsends : SameButSends u (((s.layer g.sendLayer).planes i).foldl (fun st pl =>
      st.sendSegment p n pl.1 pl.2.1 pl.2.2 serial) u) :=
    foldl_keeps (R := SameButSends) (fun _ => .rfl) (fun _ _ _ => .trans) (fun _ _ => sameButSends_sendSegment ..) _ u
  have hexec : exec (.permuteWorkSend dt n) s = .next ((((s.layer g.sendLayer).planes i).foldl (fun st pl =>
      st.sendSegment p n pl.1 pl.2.1 pl.2.2 serial) u).modSeg n (fun g => { g with
        sent := true, sentSerial := serial })) := by
    rw [exec_permuteWorkSend, execPermuteWorkSend, hu, retryHeld_of_none hp' hheld]
    simp only [hp', hg, hlayer, hi, hrank, hwork, haway', hsettled', hsent, hstops, hserial, Bool.not_true,
      Bool.false_and, Bool.or_self, Bool.false_eq_true, if_false]
  generalize hw : ((s.layer g.sendLayer).planes i).foldl (fun st pl =>
      st.sendSegment p n pl.1 pl.2.1 pl.2.2 serial) u = w at hsends hexec
  have hpw : w.coll.permute = some p := (congrArg (·.coll.permute) hsends.eq).trans hp'
  refine ⟨_, { p with segs := listMod p.segs n (fun g => { g with sent := true, sentSerial := serial }) }, hexec,
    congrArg (Option.map _) hpw, ?_, ?_, ?_⟩
  · change (p.segs.modify n _)[n]? = _
    rw [List.getElem?_modify_eq, hg]
    rfl
  · exact hsends.layers.trans (by rw [← hu]; rfl)
  · exact hsends.mem.trans (by rw [← hu]; rfl)

theorem shiftGrantHolds (hunits : ∀ n, (s.unit n).armed = false) (p : Fin 24) (hdr : FrameHdr) (f : SeqF) (h : Shift)
    (ref : CmdRef) (c : Cmd) (hpast : hdr.sendTide < (s.advance dt).tide) (hactive : s.portActive p = true)
    (hrole : s.roleOf p = 4) (hfind : s.coll.shifts.find? (fun x => x.collId == f.collId) = some h)
    (hcmd : h.cmd = some ref) (hc : s.findCmd ref = some c) (hid : (gatP c).collId = f.collId) (v w : State)
    (hd : Nat → Nat → FrameHdr) (hkind : f.kind = 0) (hnext : (gatP c).next = p.val) (hsent : h.sent = false)
    (hhd : ∀ k n, hd k n = { poison := s.poisoned k n, dstModule := (s.portItem p).peerModule })
    (hfree : (s.advance dt).landHeld p [(s.gatSrc (gatP c), (gatP c).seg)] = false)
    (hv : v = (((s.advance dt).acceptFrame p hdr (.seq f)).modShift f.collId (fun x => { x with
      grants := x.grants ++ [p.val] })).modShift f.collId (fun x => { x with sent := true }))
    (hw : w = (payloadParts (gatP c).seg).foldl (fun st part => st.send p (hd (s.gatSrc (gatP c) + part.1) part.2)
      (.seq {
        collId := f.collId, kind := 1, offset := part.1, payload := s.read (s.gatSrc (gatP c) + part.1) part.2
        total := (gatP c).seg })) v) :
    (w.shiftDone c = false → exec (.seqFrame dt p hdr f) s = .next w) ∧
    (w.shiftDone c = true → exec (.seqFrame dt p hdr f) s =
      .next ((w.dropShift f.collId).finish c.ref .ok 0 (bodyOf [(0, 8, (gatP c).seg)]))) := by
  rw [acceptFrame_of_unarmed (s := s.advance dt) hunits] at hv
  have hexec := seqFrame_of_grant hactive hpast hunits hrole hfind hcmd hc hkind
  have hfind' : (((s.advance dt).modPort p (·.taken hdr)).modShift f.collId (fun x => { x with
      grants := x.grants ++ [p.val] })).coll.shifts.find? (fun x => x.collId == (gatP c).collId) =
      some { h with grants := h.grants ++ [p.val] } := by
    rw [hid, modShift_find]
    · exact congrArg (Option.map _) hfind
    · exact fun _ => rfl
  have hgranted : ({ h with grants := h.grants ++ [p.val] } : Shift).grants.contains (gatP c).next = true := by
    simp [hnext]
  have hsame : SameSource s v := by
    subst hv
    exact ⟨rfl, rfl, rfl, rfl, rfl⟩
  have hsend : w = v.sendShift c := by
    rw [hw, sendShift_eq hsame (hd := hd) (by rw [hnext]; exact hhd), hid, hnext]
  have hrun := runShift_of_granted hfind' hgranted hsent (by rw [hnext]; exact hfree) (w := w)
    (by rw [hsend, hv, hid])
  rw [hexec, hrun, hid]
  exact ⟨fun hdone => congrArg Host.Outcome.next (if_neg (Bool.eq_false_iff.mp hdone)),
    fun hdone => congrArg Host.Outcome.next (if_pos hdone)⟩

/-- Settles O51: each frame by what its context, its shift or its permute is when it comes; a segment's payload by the
rules of landing, and what ends a collective from outside by its own definition. -/
theorem collectiveFrames : Obligations.CollectiveFrames := by
  unfold Obligations.CollectiveFrames
  refine fun dt s hunits => ⟨?reduce, ?gather, ?barrier, ?grant, ?shift, ?permute, ?lease, ?shiftLease, ?timeout, ?work⟩
  case reduce =>
    exact fun p hdr f v hpast hactive hrole hv hfree => reduceFrameHolds hunits p hdr f v hpast hactive hrole hv hfree
  case gather =>
    rintro p hdr f v hpast hactive hrole hdst rfl hfree hvalid hway hepoch hfind hroom
    exact ⟨_, gatherFrame_of_early hactive hpast hunits hrole hdst hfree hvalid hway hepoch hfind hroom, rfl, rfl⟩
  case barrier =>
    rintro p hdr f v hpast hactive hlow hhigh hfree rfl hvalid hkind hport hfind hroom
    exact ⟨_, barrierFrame_of_first hactive hpast hunits ⟨hlow, hhigh⟩ hfree hvalid hkind hport hfind hroom, rfl, rfl⟩
  case grant =>
    intro p hdr f hpast hactive hrole hkind hnew
    have hnone : s.coll.shifts.find? (fun h => h.collId == f.collId) = none :=
      List.find?_eq_none.mpr fun h hh => by simpa using hnew h hh
    exact ⟨_, seqFrame_of_first hactive hpast hunits hrole hkind hnone, rfl, rfl⟩
  case shift =>
    intro p hdr f h ref c hpast hactive hrole hfind hcmd hc hid
    refine ⟨fun v w hd hkind hnext hsent hhd hfree hv hw => shiftGrantHolds hunits p hdr f h ref c hpast hactive hrole
      hfind hcmd hc hid v w hd hkind hnext hsent hhd hfree hv hw, ?_⟩
    rintro key n hkind hprev rfl hfits rfl hfree
    have hexec := seqFrame_of_data hactive hpast hunits hrole hfind hcmd hc hkind hprev hfits hfree
    have hsame : SameSource s ((s.advance dt).modPort p (·.taken hdr)) := ⟨rfl, rfl, rfl, rfl, rfl⟩
    exact ⟨by rw [acceptFrame_of_unarmed (s := s.advance dt) hunits]; exact hexec, _, hexec,
      runShift_landPayload hsame _ _ _ _ _ _ rfl⟩
  case permute =>
    intro p hdr f hpast hactive hrole hdst hnone hkind hepoch
    exact ⟨_, permuteFrame_of_early hactive hpast hunits hrole hdst hnone hkind hepoch, rfl, rfl, rfl⟩
  case lease => exact fun x id k v hfind hpause hv => contextLeaseHolds x id k v hfind hpause hv
  case shiftLease =>
    exact fun x id h ref c d hnone hfind hcmd hc hd hdue => shiftLeaseHolds x id h ref c d hnone hfind hcmd hc hd hdue
  case timeout => exact fun p c hp hwait hdue hc => permuteTimeoutHolds p c hp hwait hdue hc
  case work =>
    exact fun p n i g hp hheld hg hwork hi haway hsettled hsent hfree =>
      permuteWorkHolds p n i g hp hheld hg hwork hi haway hsettled hsent hfree

end Sys2Proof.Machine
end
